-- ==== Sys2Proof/Word.lean ====
section
/-! DEFINITION. The word types of the device: the 64-bit register of a Novdon core (R193), the 32-bit control register (R9) and the
byte of memory. -/

namespace Sys2Proof

/-- A 64-bit word: a general register of a core, Meridian, a Plain address held in a register (R193, R27). -/
abbrev Word := BitVec 64

/-- A 32-bit word: one control register (R9). -/
abbrev RegWord := BitVec 32

/-- A byte of memory. -/
abbrev Byte := BitVec 8

end Sys2Proof
end

