-- ==== Sys2Proof/Syntax.lean ====
section
/-! DEFINITION. The commands of the device, one constructor per row of the table. -/

namespace Sys2Proof

/-- A fabric message (R356): header fields and payload. -/
structure FabMsg where
  cls : Nat
  kind : Nat
  dst : Nat
  src : Nat
  vc : Nat
  tag : Nat
  addr : Nat
  payload : List Byte
  deriving DecidableEq, Repr

/-- What the authentication chip answers (R317, R318): the 40 bytes of register 0x80, or the error that ended a transaction: 1 NAK, 2
stretch timeout, 3 bus held low. -/
inductive ChipReply where
  | data (bytes : List Byte)
  | error (code : Fin 3)
  deriving DecidableEq, Repr

/-- How a program operation of the external NVM ends (R352): it holds, its read-back differs, or it exceeds `PROG_MAX`. -/
inductive NvmResult where
  | ok
  | differs
  | timeout
  deriving DecidableEq, Repr

/-- An ASSIGN message (R360): a request with the EUI, held id and requested id of a device, or the root's grant of an id, or of none. -/
inductive Assign where
  | request (eui : Nat) (held wanted : Option Nat)
  | grant (eui : Nat) (id : Option Nat)
  deriving DecidableEq, Repr

/-- A master of the control bus that writes and reads registers (R17, R21, R38): a core, the host, or the test access port. -/
inductive Master where
  | core (n : Fin 12)
  | host
  | jtag
  deriving DecidableEq, Repr

/-- How a command reaches its block (R204, R207): it is the first in the block's pending queue, sent by EMIT, or a master writes the
register that has the same effect, with `v`. -/
inductive Src where
  | emitted
  | written (m : Master) (n : Nat) (v : RegWord)
  deriving DecidableEq, Repr

/-- The register whose write arms the alarm (R420). -/
inductive AlarmReg where
  | ctrl
  | lo
  | hi
  deriving DecidableEq, Repr

/-- How a counter dump ends (R396): written, skipped because the one before is not, refused by the memory, or on A0 lost without status. -/
inductive DumpResult where
  | written
  | late
  | error
  | lost
  deriving DecidableEq, Repr

/-- What a regulator returns to a poll (R383): OPERATION, STATUS_WORD, READ_VOUT and READ_IOUT. -/
structure Regulator where
  operation : Byte
  status : BitVec 16
  vout : BitVec 16
  iout : BitVec 16
  deriving DecidableEq, Repr

/-- The commands that the block takes, one constructor per row of the table, in its order. -/
inductive Instr where
  /-- `AO_POWER_GOOD` (R33): The always-on supply reaches its power-good level, the always-on domain leaves reset and the device is in
  NIGHT. -/
  | aoPowerGood
  /-- `POWER_ON_RESET` (R410): PORST_N is taken low and then released, giving a power-on reset that samples the straps and sets
  SYS_RESET_CAUSE.POR. -/
  | powerOnReset
  /-- `JTAG_RESET` (R299): A reset through the test access port gives a system reset into DAWN, and the PLL locks again with the rails
  left up. -/
  | jtagReset
  /-- `WAKE_N_PHRASE` (R411): A wake phrase on WAKE_N completes and matches within 20 ms, and the device wakes from NIGHT or EVENING as
  R413 gives. -/
  | wakeNPhrase (phrase : BitVec 32)
  /-- `UART_WAKE_LINE` (R412): A 'w' line carrying the phrase completes on UART_RX within 20 ms and acts as an accepted wake phrase. -/
  | uartWakeLine (phrase : BitVec 32)
  /-- `REQUEST_MORNING` (R33): A write to SYS_STATE_REQ requests MORNING from DAWN; the hardware checks the conditions in table order
  and either moves or refuses. -/
  | requestMorning (m : Master)
  /-- `REQUEST_EVENING` (R33): A request for EVENING from MORNING puts DRAM into self-refresh, coasts the motors, gates the core tree
  and takes the EVE_OFF rails down, or is refused. -/
  | requestEvening (m : Master)
  /-- `REQUEST_NIGHT` (R33): A request for NIGHT from DAWN or MORNING reverses the EN sequence, or is refused. -/
  | requestNight (m : Master)
  /-- `REQUEST_DUSK` (R33): A request for DUSK from NOON stops new commits. -/
  | requestDusk (m : Master)
  /-- `REQUEST_NOON` (R33): A request for NOON from DUSK resumes commits if the dusk cause is clear and a sheet is in flight, or is
  refused. -/
  | requestNoon (m : Master)
  /-- `NOON_TO_MORNING` (R33): At the first tick with no sheet in flight and no page bound, the device moves from NOON to MORNING and
  applies pending Gap-time changes. -/
  | noonToMorning
  /-- `DUSK_TO_MORNING` (R33): At the first tick with no sheet in flight, the device moves from DUSK to MORNING; bound pages stay bound
  and pending Gap-time changes are applied. -/
  | duskToMorning
  /-- `HOST_DOORBELL_WAKE` (R33): A host doorbell in EVENING wakes the device into a resume DAWN. -/
  | hostDoorbellWake (n : Fin 64) (v : RegWord)
  /-- `SYSRST` (R38): A write of SYS_RESET with SYSRST = 1 and KEY = 0xA5 takes a system reset into DAWN with the rails left up. -/
  | sysrst (m : Master)
  /-- `CORE_RELEASE` (R194): Setting a bit of SYS_CORE_RUN releases the core from reset at pc 0 in kernel mode. -/
  | coreRelease (m : Master) (n : Fin 12)
  /-- `CORE_STOP` (R194): Clearing a bit of SYS_CORE_RUN stops the core at once and closes its region, fencing a station core's station.
  -/
  | coreStop (m : Master) (n : Fin 12)
  /-- `BOOT_MAP_CLEAR` (R38): A write of 0 to SYS_BOOT_MAP.ROM takes effect at N11's next taken jump, after which N11 fetches from its
  instruction RAM. -/
  | bootMapClear (m : Master)
  /-- `SYS_DOORBELL` (R24): A write to SYS_DOORBELL raises the doorbell interrupt of each core whose bit is written as 1. -/
  | sysDoorbell (m : Master) (v : RegWord)
  /-- `STATUS_W1C` (R377): A W1C write to a block status register clears the bits written as 1, re-sets persisting causes and releases
  FIRST once every source bit reads 0. -/
  | statusW1c (m : Master) (st : Nat) (v : RegWord)
  /-- `REGISTER_WRITE` (R11): A write to a control register that has no behaviour of its own sets its fields under the access rules,
  ownership rule and posting order. -/
  | registerWrite (m : Master) (off : BitVec 22) (size : Nat) (v : Word)
  /-- `TIM_NOW_LO_READ` (R30): A read of TIM_NOW_LO returns Meridian [31:0] and latches [63:32] into the reading master's shadow. -/
  | timNowLoRead (m : Master)
  /-- `TIM_SLEW_WRITE` (R39): A write to TIM_SLEW starts, replaces or ends a slew, and a write with MODE 3 is ignored. -/
  | timSlewWrite (m : Master) (v : RegWord)
  /-- `SLEW_TICK` (R28): Every 1,024 ticks during a slew, Meridian drops or adds one tick and COUNT falls, with MODE returning to 0 at
  0. -/
  | slewTick
  /-- `TIM_STEP` (R28): A write of TIM_STEP_HI applies the forward step in DAWN, or is refused with STEP_REFUSED elsewhere. -/
  | timStep (m : Master) (v : RegWord)
  /-- `ALARM_ARM` (R420): Setting ALARM_EN, or writing an alarm half while it is set, arms the alarm against the 64-bit alarm time. -/
  | alarmArm (m : Master) (r : AlarmReg) (v : RegWord)
  /-- `ALARM_FIRE` (R420): Meridian reaches the armed alarm time: ALARM sets, the device wakes from EVENING and the alarm disarms. -/
  | alarmFire
  /-- `CLAIM_COMMIT` (R35): A write of PMX_CTRL.CLAIM_COMMIT resolves all valid claims at once in DAWN, MORNING and EVENING, or leaves
  the commit pending until a Gap. -/
  | claimCommit (m : Master)
  /-- `TIMER_ARM` (R37): Writing ARM = 1 arms a granted shared compare timer and clears HIT; writing 0 disarms it. -/
  | timerArm (m : Master) (t : Fin 32) (v : RegWord)
  /-- `WINDOW_EDGE_CAPTURE` (R37): The first sensor edge of the set polarity inside an armed window is captured into CAP as a corrected
  Meridian tick and HIT sets. -/
  | windowEdgeCapture (t : Fin 32)
  /-- `WINDOW_MISS` (R37): An armed window reaches END without an edge: its MISS bit sets, then the timer disarms or advances by PERIOD.
  -/
  | windowMiss (t : Fin 32)
  /-- `ENCODER_LATCH` (R37): An armed encoder-latch timer reaches START, latches the signed encoder count into CAP, sets HIT and disarms
  or advances by PERIOD. -/
  | encoderLatch (t : Fin 32)
  /-- `PAGE_ENTRY_SUBMIT` (R42): N0 sets VALID of a FREE page entry, which moves it to SUBMITTED with REASON cleared. -/
  | pageEntrySubmit (m : Master) (n : Fin 256) (v : RegWord)
  /-- `PAGE_ENTRY_FREE` (R42): N0 clears VALID of a PRINTED, SUSPECT or WITHDRAWN page entry, which returns it to FREE. -/
  | pageEntryFree (m : Master) (n : Fin 256) (v : RegWord)
  /-- `ADMISSION_TEST_GO` (R86): A write of STR_PLN_ADMIT_GO with GO starts the admission test of a SUBMITTED page, or is ignored. -/
  | admissionTestGo (m : Master) (n : Fin 256)
  /-- `ADMISSION_TEST_COMPLETE` (R86): The admission test ends at its first failing step or passes, leaving the page SUBMITTED,
  WITHDRAWN or ADMITTED and starting the morning check. -/
  | admissionTestComplete
  /-- `MORNING_CHECK_COMPLETE` (R90): The morning check reads every slot without a mismatch, so the page becomes VERIFIED or its
  CHECK.DONE sets. -/
  | morningCheckComplete (n : Fin 256)
  /-- `MORNING_CHECK_MISMATCH` (R90): The check path finds a CRC, count, pointer or malformed-slot mismatch or a failed Plain read,
  withdraws the page and queues the mismatch. -/
  | morningCheckMismatch (n : Fin 256)
  /-- `SHEET_BIND` (R45): N1 sets VALID of a sheet entry, which binds the page and assigns the next sequence number, or fails with
  REASON 0x15. -/
  | sheetBind (m : Master) (t : Fin 64) (v : RegWord)
  /-- `SHEET_FREE` (R46): N1 clears VALID of a sheet entry in BOUND or DONE, which frees the tag and returns a bound page. -/
  | sheetFree (m : Master) (t : Fin 64) (v : RegWord)
  /-- `COMMIT_GRANT` (R51): At the first tick before the Col at which all commit preconditions hold, the sheet commits, held commands
  are released and COMMIT events are sent. -/
  | commitGrant (t : Fin 64)
  /-- `COL_ABORT` (R51): Meridian reaches the Col of an uncommitted LAUNCHED sheet, which aborts with AUTO_ABORT and is handled under
  R53. -/
  | colAbort (t : Fin 64)
  /-- `PURGE_PULSE_END` (R46): The purge pulse of an aborted cut sheet ends and the sheet becomes DONE. -/
  | purgePulseEnd (t : Fin 64)
  /-- `WEB_FRAME_END` (R69): On a web, COL plus END_OFS passes for an aborted frame, which becomes DONE. -/
  | webFrameEnd (t : Fin 64)
  /-- `SPOIL_DECISION_POINT` (R64): At COL plus EXIT_OFS for a sheet in SPOIL, PSQ drives the spoil output and discards the release
  command. -/
  | spoilDecisionPoint (t : Fin 64)
  /-- `SPOIL_PULSE_END` (R46): The spoil diverter pulse ends and the spoiled sheet becomes DONE. -/
  | spoilPulseEnd (t : Fin 64)
  /-- `DRIVE_LOST` (R66): At the first tick after a paper-path motor loses drive, committed sheets spoil, launched sheets abort and
  DRIVE_LOST sets. -/
  | driveLost
  /-- `GAP_OPENING` (R72): A Gap opens in NOON or DUSK and the hardware applies the pending claim, divider, table and mask, calibration,
  swap and firmware-bank changes in order. -/
  | gapOpening
  /-- `GAP_CLOSE` (R58): The Gap closes at an exposure window start, and calibration exposures still lit are cut and counted. -/
  | gapClose
  /-- `STATION_DECODER_MISMATCH` (R115): A station decoder's check of a tile fails, which withdraws the page, spoils the sheet or marks
  the page suspect according to the sheet's state. -/
  | stationDecoderMismatch (k : Fin 8) (j : Fin 8)
  /-- `CDC_MM_POP` (R117): A write of CDC_MM_POP removes the head entry of the mismatch queue. -/
  | cdcMmPop (m : Master)
  /-- `PLAIN_FLUSH` (R81): A write of STR_PLN_CTRL.FLUSH writes back every DIRTY frame and then issues Flush to each namespace. -/
  | plainFlush (m : Master) (v : RegWord)
  /-- `EXTENT_LOAD_COMPLETE` (R79): An NVMe load of an extent into a frame completes, making it RESIDENT, or fails and leaves it
  NVME_ONLY with NVME_ERR set. -/
  | extentLoadComplete (e : BitVec 21) (good : Bool)
  /-- `WRITEBACK_COMPLETE` (R81): A write-back of a DIRTY frame completes or fails, in which case the frame stays DIRTY and is retried
  at the next eviction. -/
  | writebackComplete (e : BitVec 21) (good : Bool)
  /-- `EVICT_RETRY` (R98): Every 1 ms, a holder whose EVICT was answered ABSENT sends the EVICT again. -/
  | evictRetry
  /-- `LANE_GO` (R109): A write of CDC_Lm_CTRL.GO checks the job and starts the compressor lane, or refuses it with ERR 0x4, or is
  ignored while the lane is busy. -/
  | laneGo (m : Master) (l : Fin 4) (v : RegWord)
  /-- `LANE_FLUSH` (R111): A write of FLUSH to a busy lane ends the job early, padding the current row raw and filling the band with
  FILL slots. -/
  | laneFlush (m : Master) (l : Fin 4) (v : RegWord) (lines : Nat) (diffs : List Nat)
  /-- `LANE_DONE` (R109): The Plain engine accepts every write of a lane job, DONE sets and OVF_INDEX reads the next free index. -/
  | laneDone (l : Fin 4) (diffs : List Nat)
  /-- `LANE_SOURCE_READ_ERROR` (R112): A lane's source read fails and the job halts with ERR 0x2. -/
  | laneSourceReadError (l : Fin 4) (lines : Nat) (diffs : List Nat)
  /-- `LANE_WRITE_REFUSED` (R112): The Plain engine refuses a lane write and the job halts with ERR 0x3. -/
  | laneWriteRefused (l : Fin 4) (diffs : List Nat)
  /-- `STR_DISABLE` (R144): Clearing STR_CTRL.EN withdraws every entry of every station. -/
  | strDisable (m : Master)
  /-- `STREAMER_ARM` (R121): Setting STR_Sk_CTRL.EN arms the station's streamer if its area banks are granted, or refuses with BUF_ERR.
  -/
  | streamerArm (m : Master) (k : Fin 8) (v : RegWord)
  /-- `STREAMER_DISARM` (R121): Clearing STR_Sk_CTRL.EN disarms the station and withdraws every entry. -/
  | streamerDisarm (m : Master) (k : Fin 8) (v : RegWord)
  /-- `WITHDRAW` (R130): A write of STR_Sk_CTRL.WITHDRAW withdraws every queued entry of the station. -/
  | withdraw (m : Master) (k : Fin 8) (v : RegWord)
  /-- `STR_Q_PUSH` (R122): A write of STR_Sk_Q_PUSH with PUSH queues a stream entry, or refuses it with QUEUE_ERR. -/
  | strQPush (m : Master) (k : Fin 8) (v : RegWord)
  /-- `PREFETCH_START` (R123): The head entry starts fetching band 0 once its prefetch time has come and both halves are EMPTY. -/
  | prefetchStart (k : Fin 8)
  /-- `BAND_FILL_START` (R123): A band or end-padding fill starts into a half that has become EMPTY, if CDC_CTRL.EN allows it. -/
  | bandFillStart (k : Fin 8)
  /-- `BURST_ISSUE` (R124): The streamer issues a 4 KiB burst, no more often than every 2,268 ticks and with fewer than 8 in flight and
  room in the ring. -/
  | burstIssue (k : Fin 8) (drained : Nat)
  /-- `BURST_LAND` (R123): A burst returns and its slots are decoded or indexed in pass 1, or its raw tiles are placed and checked in
  pass 2. -/
  | burstLand (k : Fin 8) (drained : Nat)
  /-- `BAND_FILL_COMPLETE` (R125): The last line write of a band is accepted and the half becomes FILLED, or EMPTY if it was already
  released. -/
  | bandFillComplete (k : Fin 8)
  /-- `VALE_CONF_CLR` (R145): A write of VALE_CTRL.CONF_CLR clears every VALE_CONFLICTm counter. -/
  | valeConfClr (m : Master)
  /-- `DMA_COPY` (R139): GO with MODE 0 checks the channel and starts a copy of 4 KiB blocks, or refuses it with an ERR code. -/
  | dmaCopy (m : Master) (n : Fin 16) (v : RegWord)
  /-- `DMA_FILL` (R139): GO with MODE 1 starts a fill of the destination with the 64-bit pattern. -/
  | dmaFill (m : Master) (n : Fin 16) (v : RegWord)
  /-- `DMA_COMPARE` (R139): GO with MODE 2 starts a compare of source and destination that reports MISMATCH, MM_OFS and MM_COUNT. -/
  | dmaCompare (m : Master) (n : Fin 16) (v : RegWord)
  /-- `DMA_FENCE` (R141): GO with MODE 3 reads the destination block and completes once earlier writes through the port are visible. -/
  | dmaFence (m : Master) (n : Fin 16) (v : RegWord)
  /-- `DMA_STOP` (R143): A write of STOP halts the channel after its current block and sets STOPPED. -/
  | dmaStop (m : Master) (n : Fin 16) (v : RegWord) (block : Nat)
  /-- `DMA_DONE` (R141): The channel's last write leaves the engine and DONE sets. -/
  | dmaDone (n : Fin 16)
  /-- `DMA_BUS_ERROR` (R142): A bus error or an ABSENT answer halts the channel with ERR, ERR_DIR and the failing address latched. -/
  | dmaBusError (n : Fin 16) (ofs : Nat) (write : Bool) (absent : Bool)
  /-- `SOS_WINDOW_OPEN` (R148): The SOS window opens around the predicted SOS, the sync beam is lit, and pending next-SOS settings are
  applied. -/
  | sosWindowOpen (k : Fin 8)
  /-- `SOS_CAPTURE` (R148): The first active SOSk edge in the window is captured to one tap, the facet number advances and the facet is
  printed from it. -/
  | sosCapture (k : Fin 8) (tap : Fin 32)
  /-- `SOS_MISS` (R149): The SOS window closes without an edge: SOS is synthesized and counted, and after SOS_MISS_MAX misses the
  station enters acquisition. -/
  | sosMiss (k : Fin 8)
  /-- `LINE_END` (R150): Dot 51,023 ends, the half of the facet's band is released and the EOS window opens. -/
  | lineEnd (k : Fin 8)
  /-- `EOS_CAPTURE` (R150): EOSk is captured in its window and the scan time is logged to BTM_SCAN_LAST and BTM_SCANf. -/
  | eosCapture (k : Fin 8) (tap : Fin 32)
  /-- `EOS_MISS` (R150): The EOS window ends without an edge, which is counted in BTM_CNT_EOS_MISS. -/
  | eosMiss (k : Fin 8)
  /-- `DLL_UNLOCK` (R152): The DLL phase error exceeds 2 taps for 64 ticks: DLL_LOCK clears, DLL_UNLOCK sets and the station leaves
  READY. -/
  | dllUnlock (k : Fin 8)
  /-- `DLL_LOCK` (R152): The station DLL locks or relocks within 20 µs. -/
  | dllLock (k : Fin 8)
  /-- `FACET_IDX_SET` (R151): A write of BTM_FACET_IDX with SET requests that NEXT_IDX be assigned to the first facet after application.
  -/
  | facetIdxSet (m : Master) (k : Fin 8) (v : RegWord)
  /-- `EXPOSE` (R170): At its effect time, the EXPOSE command is checked and exposure begins at the next SOS, or it is refused and a
  committed sheet spoils. -/
  | expose (k : Fin 8)
  /-- `CAL_START` (R172): CAL_START begins a calibration exposure at the next SOS while the Gap is open, or is refused. -/
  | calStart (k : Fin 8)
  /-- `CAL_STOP` (R172): CAL_STOP ends a running calibration exposure. -/
  | calStop (k : Fin 8)
  /-- `LSI_ACTIVATE` (R174): An LSI_N input stays low for more than 0.5 µs: the interlock latches, beams are held off and LDEN goes low.
  -/
  | lsiActivate (in1 : Bool)
  /-- `LSI_DISAGREE` (R175): The two interlock inputs disagree for more than 10 ms and DISAGREE sets. -/
  | lsiDisagree
  /-- `LSI_REARM` (R175): A write of BTM0_LSI with REARM and KEY 0x5A releases the interlock if both inputs have been high for 1 ms, or
  is ignored. -/
  | lsiRearm (m : Master) (v : RegWord)
  /-- `TEST_CFG_WRITE` (R184): A write of BMK_Sk_TEST_CFG that changes INTERVAL restarts the beam-test facet count. -/
  | testCfgWrite (m : Master) (k : Fin 8) (v : RegWord)
  /-- `BEAM_TEST` (R184): The N-th facet count expires, the next beam in rotation is chosen and tested in a window, or the test is
  skipped. -/
  | beamTest (k : Fin 8)
  /-- `BEAM_TEST_PASS` (R185): A SOSk edge arrives in the test window, which is a pass: CONSEC returns to 0 and the crossing is logged.
  -/
  | beamTestPass (k : Fin 8) (tap : Fin 32)
  /-- `BEAM_TEST_MISS` (R185): The test window closes without an edge: CONSEC and TOTAL rise. -/
  | beamTestMiss (k : Fin 8)
  /-- `POWER_MEASURE_GO` (R189): A write of BMK_Sk_PWR_CTRL.GO starts a beam-power measurement from retrace or calibration exposure, or
  ends it at once with ERR 0x1. -/
  | powerMeasureGo (m : Master) (k : Fin 8) (v : RegWord)
  /-- `POWER_FACET_INTEGRATE` (R190): A measured facet's window is integrated, or the facet is skipped, and the measurement may end with
  an error. -/
  | powerFacetIntegrate (k : Fin 8) (v : BitVec 16)
  /-- `POWER_MEASURE_DONE` (R191): The last facet of a measurement is integrated, MEAN and SPREAD are stored and DONE sets. -/
  | powerMeasureDone (k : Fin 8)
  /-- `ADD` (R202): Adds two registers. -/
  | add (n : Fin 12) (rd ra rb : Fin 32)
  /-- `SUB` (R202): Subtracts two registers. -/
  | sub (n : Fin 12) (rd ra rb : Fin 32)
  /-- `AND` (R202): Bitwise AND of two registers. -/
  | and (n : Fin 12) (rd ra rb : Fin 32)
  /-- `OR` (R202): Bitwise OR of two registers. -/
  | or (n : Fin 12) (rd ra rb : Fin 32)
  /-- `XOR` (R202): Bitwise XOR of two registers. -/
  | xor (n : Fin 12) (rd ra rb : Fin 32)
  /-- `SLL` (R202): Shifts left by a register amount. -/
  | sll (n : Fin 12) (rd ra rb : Fin 32)
  /-- `SRL` (R202): Shifts right logically by a register amount. -/
  | srl (n : Fin 12) (rd ra rb : Fin 32)
  /-- `SRA` (R202): Shifts right arithmetically by a register amount. -/
  | sra (n : Fin 12) (rd ra rb : Fin 32)
  /-- `SLT` (R202): Sets 1 if less than, signed. -/
  | slt (n : Fin 12) (rd ra rb : Fin 32)
  /-- `SLTU` (R202): Sets 1 if less than, unsigned. -/
  | sltu (n : Fin 12) (rd ra rb : Fin 32)
  /-- `MUL` (R202): Gives the low 64 bits of the product. -/
  | mul (n : Fin 12) (rd ra rb : Fin 32)
  /-- `MULH` (R202): Gives the high 64 bits of the signed product. -/
  | mulh (n : Fin 12) (rd ra rb : Fin 32)
  /-- `MULHU` (R202): Gives the high 64 bits of the unsigned product. -/
  | mulhu (n : Fin 12) (rd ra rb : Fin 32)
  /-- `DIV` (R202): Signed quotient, with the defined results for division by zero and overflow. -/
  | div (n : Fin 12) (rd ra rb : Fin 32)
  /-- `DIVU` (R202): Unsigned quotient. -/
  | divu (n : Fin 12) (rd ra rb : Fin 32)
  /-- `REM` (R202): Signed remainder. -/
  | rem (n : Fin 12) (rd ra rb : Fin 32)
  /-- `REMU` (R202): Unsigned remainder. -/
  | remu (n : Fin 12) (rd ra rb : Fin 32)
  /-- `MIN` (R202): Signed minimum. -/
  | min (n : Fin 12) (rd ra rb : Fin 32)
  /-- `MAX` (R202): Signed maximum. -/
  | max (n : Fin 12) (rd ra rb : Fin 32)
  /-- `MINU` (R202): Unsigned minimum. -/
  | minu (n : Fin 12) (rd ra rb : Fin 32)
  /-- `MAXU` (R202): Unsigned maximum. -/
  | maxu (n : Fin 12) (rd ra rb : Fin 32)
  /-- `ADDI` (R202): Adds a sign-extended immediate. -/
  | addi (n : Fin 12) (rd ra : Fin 32) (imm : BitVec 16)
  /-- `ANDI` (R202): ANDs with a zero-extended immediate. -/
  | andi (n : Fin 12) (rd ra : Fin 32) (imm : BitVec 16)
  /-- `ORI` (R202): ORs with a zero-extended immediate. -/
  | ori (n : Fin 12) (rd ra : Fin 32) (imm : BitVec 16)
  /-- `XORI` (R202): XORs with a zero-extended immediate. -/
  | xori (n : Fin 12) (rd ra : Fin 32) (imm : BitVec 16)
  /-- `SLTI` (R202): Signed compare with an immediate. -/
  | slti (n : Fin 12) (rd ra : Fin 32) (imm : BitVec 16)
  /-- `SLTIU` (R202): Unsigned compare with an immediate. -/
  | sltiu (n : Fin 12) (rd ra : Fin 32) (imm : BitVec 16)
  /-- `SLLI` (R202): Shifts left by an immediate. -/
  | slli (n : Fin 12) (rd ra : Fin 32) (sh : BitVec 6)
  /-- `SRLI` (R202): Shifts right logically by an immediate. -/
  | srli (n : Fin 12) (rd ra : Fin 32) (sh : BitVec 6)
  /-- `SRAI` (R202): Shifts right arithmetically by an immediate. -/
  | srai (n : Fin 12) (rd ra : Fin 32) (sh : BitVec 6)
  /-- `LUI` (R202): Loads a sign-extended immediate shifted left by 16. -/
  | lui (n : Fin 12) (rd : Fin 32) (imm : BitVec 16)
  /-- `SHORI` (R202): Shifts left by 16 and ORs in an immediate. -/
  | shori (n : Fin 12) (rd ra : Fin 32) (imm : BitVec 16)
  /-- `LB` (R197): Loads 1 byte, sign-extended, under the memory map of R197. -/
  | lb (n : Fin 12) (rd ra : Fin 32) (imm : BitVec 16)
  /-- `LBU` (R197): Loads 1 byte, zero-extended. -/
  | lbu (n : Fin 12) (rd ra : Fin 32) (imm : BitVec 16)
  /-- `LH` (R197): Loads 2 bytes, sign-extended. -/
  | lh (n : Fin 12) (rd ra : Fin 32) (imm : BitVec 16)
  /-- `LHU` (R197): Loads 2 bytes, zero-extended. -/
  | lhu (n : Fin 12) (rd ra : Fin 32) (imm : BitVec 16)
  /-- `LW` (R197): Loads 4 bytes, sign-extended, including control-window reads. -/
  | lw (n : Fin 12) (rd ra : Fin 32) (imm : BitVec 16)
  /-- `LWU` (R197): Loads 4 bytes, zero-extended. -/
  | lwu (n : Fin 12) (rd ra : Fin 32) (imm : BitVec 16)
  /-- `LD` (R197): Loads 8 bytes. -/
  | ld (n : Fin 12) (rd ra : Fin 32) (imm : BitVec 16)
  /-- `SB` (R197): Stores 1 byte. -/
  | sb (n : Fin 12) (rs ra : Fin 32) (imm : BitVec 16)
  /-- `SH` (R197): Stores 2 bytes. -/
  | sh (n : Fin 12) (rs ra : Fin 32) (imm : BitVec 16)
  /-- `SW` (R197): Stores 4 bytes, including posted control-space writes. -/
  | sw (n : Fin 12) (rs ra : Fin 32) (imm : BitVec 16)
  /-- `SD` (R197): Stores 8 bytes. -/
  | sd (n : Fin 12) (rs ra : Fin 32) (imm : BitVec 16)
  /-- `AMOADD` (R202): Atomically adds to the memory word and returns the old word. -/
  | amoadd (n : Fin 12) (rd ra rb : Fin 32)
  /-- `AMOSWAP` (R202): Atomically swaps the memory word and returns the old word. -/
  | amoswap (n : Fin 12) (rd ra rb : Fin 32)
  /-- `AMOCAS` (R202): Atomic compare-and-swap that returns the old word. -/
  | amocas (n : Fin 12) (rd ra rb : Fin 32)
  /-- `FENCE` (R200): Waits until every earlier store of the core has taken effect. -/
  | fence (n : Fin 12)
  /-- `BEQ` (R202): Branches if equal. -/
  | beq (n : Fin 12) (ra rb : Fin 32) (off : BitVec 16)
  /-- `BNE` (R202): Branches if not equal. -/
  | bne (n : Fin 12) (ra rb : Fin 32) (off : BitVec 16)
  /-- `BLT` (R202): Branches if less than, signed. -/
  | blt (n : Fin 12) (ra rb : Fin 32) (off : BitVec 16)
  /-- `BGE` (R202): Branches if greater or equal, signed. -/
  | bge (n : Fin 12) (ra rb : Fin 32) (off : BitVec 16)
  /-- `BLTU` (R202): Branches if less than, unsigned. -/
  | bltu (n : Fin 12) (ra rb : Fin 32) (off : BitVec 16)
  /-- `BGEU` (R202): Branches if greater or equal, unsigned. -/
  | bgeu (n : Fin 12) (ra rb : Fin 32) (off : BitVec 16)
  /-- `J` (R202): Jumps pc-relative. -/
  | j (n : Fin 12) (off : BitVec 26)
  /-- `CALL` (R202): Jumps pc-relative and writes the return offset to x29. -/
  | call (n : Fin 12) (off : BitVec 26)
  /-- `JALR` (R202): Jumps to a register plus offset and links. -/
  | jalr (n : Fin 12) (rd ra : Fin 32) (imm : BitVec 16)
  /-- `RDTIME` (R222): Returns the full 64-bit Meridian. -/
  | rdtime (n : Fin 12) (rd : Fin 32)
  /-- `RDPMC` (R222): Returns a performance counter with its wrap bit, or raises an exception in user mode without permission. -/
  | rdpmc (n : Fin 12) (rd : Fin 32) (c : Fin 64)
  /-- `SYSCALL` (R216): Raises exception 0x09 with its code as detail. -/
  | syscall (n : Fin 12) (code : BitVec 6)
  /-- `BREAK` (R216): Raises exception 0x0A. -/
  | brk (n : Fin 12)
  /-- `ERET` (R218): Returns from a handler, restoring pc, IE and KRN and clearing HDL. -/
  | eret (n : Fin 12)
  /-- `WFI` (R202): Waits until an enabled interrupt source is pending. -/
  | wfi (n : Fin 12)
  /-- `MFCR` (R221): Reads a core register, subject to the user-mode restrictions. -/
  | mfcr (n : Fin 12) (rd : Fin 32) (num : BitVec 12)
  /-- `MTCR` (R221): Writes a core register, subject to the user-mode restrictions. -/
  | mtcr (n : Fin 12) (ra : Fin 32) (num : BitVec 12)
  /-- `SHEV_POP` (R220): A write of POP to CORE_SHEV_POP removes the head entry of the sheet-event queue. -/
  | shevPop (n : Fin 12)
  /-- `SHEV_CLR_LOST` (R221): A write of CLR_LOST to CORE_SHEV_POP clears the LOST flag. -/
  | shevClrLost (n : Fin 12)
  /-- `WAITT` (R203): Holds the core until Meridian reaches the target time. -/
  | waitt (n : Fin 12) (rd ra : Fin 32)
  /-- `WAITT_RESUME` (R203): Meridian reaches the WAITT target and the core resumes with the lateness in rd. -/
  | waittResume (n : Fin 12)
  /-- `EMIT` (R205): Sends a timed command to a block, with PSQ judging a tagged command's fate and returning the verdict. -/
  | emit (n : Fin 12) (irrev : Bool) (rd ra rb : Fin 32)
  /-- `EMIT_STALL_RELEASE` (R207): An entry frees in a full pending or hold queue and the stalled EMIT completes. -/
  | emitStallRelease (n : Fin 12)
  /-- `SAMPLE` (R210): Waits for the target time and then captures the selected input. -/
  | sample (n : Fin 12) (rd ra rb : Fin 32)
  /-- `SAMPLE_CAPTURE` (R210): At the SAMPLE target time, the selected input is captured into rd. -/
  | sampleCapture (n : Fin 12)
  /-- `SPEC` (R49): Runs the launch checks, launches the sheet and opens a region, or returns the REASON code. -/
  | spec (n : Fin 12) (rd ra : Fin 32)
  /-- `SPEC_J` (R212): Opens a region on a sheet that is already LAUNCHED or COMMITTED, without a launch. -/
  | specJ (n : Fin 12) (rd ra : Fin 32)
  /-- `SPEC_L` (R212): Closes the core's region without acting on the sheet. -/
  | specL (n : Fin 12) (rd : Fin 32)
  /-- `COMMIT` (R212): Arms the commit of a LAUNCHED sheet and closes the region, or has no effect, or is refused. -/
  | commit (n : Fin 12) (rd ra : Fin 32)
  /-- `ABORT` (R212): Aborts a LAUNCHED sheet, ends a BOUND one, or has no effect with LATE_ABORT. -/
  | abort (n : Fin 12) (rd ra : Fin 32)
  /-- `INTERRUPT_ENTRY` (R218): A pending, enabled interrupt is taken at an instruction boundary in priority order. -/
  | interruptEntry (n : Fin 12)
  /-- `CORE_TIMER_EXPIRY` (R217): Meridian reaches CORE_TCMP and interrupt source 35 becomes pending. -/
  | coreTimerExpiry (n : Fin 12)
  /-- `RELEASE` (R209): At its effect time, the PSQ RELEASE releases the sheet to the finisher through FIN_REL and the sheet becomes
  DONE, or is discarded. -/
  | release
  /-- `EVENT` (R209): The PSQ EVENT sends a sheet event with its SPEC flag to the host, finisher or a fabric device and updates the seen
  set, or is refused. -/
  | event
  /-- `BLD_START` (R233): START moves a COAST channel into DETECT, or is refused without a claim. -/
  | bldStart (src : Src)
  /-- `BLD_COAST` (R233): COAST turns all of a channel's outputs off and enters COAST. -/
  | bldCoast (src : Src)
  /-- `BLD_DUTY` (R238): DUTY sets the channel's duty unless DUTY_SRC = 1. -/
  | bldDuty (src : Src)
  /-- `BEMF_CROSSING` (R230): A back-EMF sample of the floating phase shows the watched level and time-stamps a crossing. -/
  | bemfCrossing (n : Fin 24) (phase : Fin 3) (up : Bool)
  /-- `COMMUTATION` (R230): At the crossing plus the advance-adjusted delay, or from a prediction, the channel commutates to the next
  sector. -/
  | commutation (n : Fin 24)
  /-- `SYNC_LOST` (R232): Too many predicted sectors or no crossing in time: outputs off, COAST, SYNC_LOST. -/
  | syncLost (n : Fin 24)
  /-- `DETECT_QUIET` (R233): No crossing for QUIET_MS in DETECT, so the channel enters ALIGN. -/
  | detectQuiet (n : Fin 24)
  /-- `DETECT_TIMEOUT` (R233): Crossings are still seen at TIMEOUT_MS, so the channel coasts with START_FAIL 0x01. -/
  | detectTimeout (n : Fin 24)
  /-- `ALIGN_ELAPSED` (R233): ALIGN.MS elapses and the channel enters RAMP with blind commutation. -/
  | alignElapsed (n : Fin 24)
  /-- `RAMP_FAIL` (R233): The ramp reaches twice the handover speed without a handover, so the channel coasts with START_FAIL 0x02. -/
  | rampFail (n : Fin 24)
  /-- `BLD_DRIVER_FAULT` (R233): BLnn_FLT_N is low for more than 1 µs: COAST with DRV_FAULT. -/
  | bldDriverFault (n : Fin 24) (low : Bool)
  /-- `STP_GOTO` (R251): GOTO moves the channel to an absolute target, or is refused while MOVING or for invalid parameters. -/
  | stpGoto (src : Src)
  /-- `STP_MOVE` (R251): MOVE moves the channel by a signed distance from XACT. -/
  | stpMove
  /-- `STP_STOP` (R253): STOP ends stepping at once, holds the position and sets POS_LOST if the channel was moving. -/
  | stpStop (src : Src)
  /-- `STP_GOTO_PRESET` (R251): GOTO_PRESET moves the channel to preset p. -/
  | stpGotoPreset
  /-- `PROFILE_UPDATE` (R250): Every 1 µs the profile speed is recomputed, switching phase, braking and microstep resolution. -/
  | profileUpdate (n : Fin 48)
  /-- `MOVE_COMPLETE` (R250): The target is reached and the channel holds it in IDLE, with CNT_MOVES counting the move. -/
  | moveComplete (n : Fin 48)
  /-- `STP_DRIVER_FAULT` (R253): STnn_FLT_N is low for more than 1 µs: outputs low, FREE, POS_LOST. -/
  | stpDriverFault (n : Fin 48) (low : Bool)
  /-- `XACT_WRITE` (R247): A write of STP_Cn_XACT sets the position at rest, or is refused with BUSY_REF during a move. -/
  | xactWrite (m : Master) (n : Fin 48) (v : RegWord)
  /-- `CLR_LOST` (R253): A write of STP_Cn_CTRL.CLR_LOST clears POS_LOST. -/
  | clrLost (m : Master) (n : Fin 48) (v : RegWord)
  /-- `CHOP_THRESHOLD` (R245): The winding current crosses its chopper threshold and the winding switches between drive and decay. -/
  | chopThreshold (n : Fin 48) (w : Fin 2) (sense : Nat) (above : Bool)
  /-- `OFS_ADAPT` (R246): After 16 chopper cycles the adaptive offset steps towards the majority side. -/
  | ofsAdapt (n : Fin 48) (w : Fin 2)
  /-- `FRAME_START` (R257): A 4 µs Prairie frame starts, the frame count advances and pending ADC bank switches are applied. -/
  | frameStart
  /-- `SLOT_SAMPLE` (R258): A due slot samples its input at its sample instant, or enters HOLD if the input is invalid. -/
  | slotSample (n : Fin 128)
  /-- `LOOP_COMPUTATION` (R261): The arithmetic unit completes a slot's computation, applies the output and updates the integrator,
  saturation and lock. -/
  | loopComputation
  /-- `PRA_ON` (R264): ON moves an OFF slot into PRELOAD with a synchronizing reset. -/
  | praOn (src : Src)
  /-- `PRA_OFF` (R264): OFF turns the slot off with output 0. -/
  | praOff (src : Src)
  /-- `PRA_SET` (R271): SET writes the slot's setpoint. -/
  | praSet (src : Src)
  /-- `PRA_SYNC` (R265): SYNC gives a synchronizing reset into PRELOAD. -/
  | praSync (src : Src)
  /-- `PRA_CAP` (R263): CAP writes the slot's policy cap. -/
  | praCap (src : Src)
  /-- `SWAP_REQUEST` (R268): A write of PRA_Ln_SWAP with REQ requests an exchange of coefficient sets with a shadow slot. -/
  | swapRequest (m : Master) (n : Fin 128) (v : RegWord)
  /-- `LOAD_CLR` (R276): A write of PRA_LOAD.CLR clears MAX. -/
  | loadClr (m : Master)
  /-- `ADC_CONVERSION` (R272): A sequence entry's conversion completes, is trimmed and is stored with its VALID flag. -/
  | adcConversion (a : Fin 4) (e : Fin 40) (raw : BitVec 12)
  /-- `SEQ_SEL` (R274): SEQ_SEL, or a write of NEXT, selects a sequence bank, which is checked and switched at the next frame start. -/
  | seqSel (src : Src)
  /-- `UP_SEQUENCE_STEP` (R279): After its delay, an up-sequence step drives its rail's EN high and waits for power-good. -/
  | upSequenceStep
  /-- `RAIL_POWER_GOOD` (R279): A rail becomes power-good, supervision starts and the sequence advances. -/
  | railPowerGood (r : Fin 32)
  /-- `UP_STEP_TIMEOUT` (R279): A step's rail misses PG_TIMEOUT, so the sequence halts FAILED with SEQ_FAIL. -/
  | upStepTimeout
  /-- `DOWN_SEQUENCE_BEGIN` (R280): Once no NVM write is in progress, or after 5 ms, the down sequence begins. -/
  | downSequenceBegin
  /-- `DOWN_SEQUENCE_STEP` (R280): A down-sequence step drives EN low and waits DELAY before the next step. -/
  | downSequenceStep
  /-- `RAIL_COMPARATOR_FAULT` (R282): A window comparator sees its rail outside the window for FILT × 10 ns and the rail's reaction
  starts. -/
  | railComparatorFault (r : Fin 32) (high : Bool)
  /-- `RAIL_SCAN_FAULT` (R283): SCAN_N consecutive scan readings lie outside the limits and the rail's reaction starts. -/
  | railScanFault (r : Fin 32)
  /-- `RETRY_TIMER` (R285): RETRY_MS expires, the rail's EN goes high again and a power-good timeout counts the attempt. -/
  | retryTimer (r : Fin 32)
  /-- `PWR_ON` (R288): ON drives the rail's EN high and clears its OFF_FAULT bit. -/
  | pwrOn (src : Src)
  /-- `PWR_OFF` (R288): OFF drives the rail's EN low. -/
  | pwrOff (src : Src)
  /-- `SNAP_REARM` (R287): A write of PWR_CTRL.SNAP_REARM rearms the supervisor snapshot. -/
  | snapRearm (m : Master) (v : RegWord)
  /-- `MODEL_UPDATE` (R290): Every 100 µs the thermal model updates zone temperatures and evaluates the throttle, dusk, night and NVM
  window conditions. -/
  | modelUpdate (temp power : Vector (BitVec 16) 16) (pkg k : BitVec 16)
  /-- `HOLD_UP_END` (R298): The 5 ms hold-up ends, the HOLD rails go down and the PLL stops. -/
  | holdUpEnd
  /-- `DIODE_CALIBRATION` (R292): A write of THM_CTRL.CAL in DAWN, or the first PLL lock, starts a 2 ms diode calibration. -/
  | diodeCalibration (m : Master) (v : RegWord)
  /-- `DIODE_CALIBRATION_COMPLETE` (R292): The diode read ends, the zones and Tboard are set and CAL_DONE sets, or CAL_ERR sets if the
  diodes disagree. -/
  | diodeCalibrationComplete (d0 d1 : BitVec 16)
  /-- `PLL_LOCK` (R299): The main PLL locks after its band search, and Meridian and the Prairie frames start. -/
  | pllLock (band time : Nat) (retry : Bool)
  /-- `PLL_LOSS` (R300): Loss of lock or reference gates the PLL, holds outputs off and triggers the fixed RESET reaction of source 32.
  -/
  | pllLoss (ref : Bool)
  /-- `DIV_COMMIT` (R302): A write of CLK_CTRL.DIV_COMMIT applies the clock-output shadows together, at once or at the next Gap. -/
  | divCommit (m : Master)
  /-- `CAL_APPLICATION` (R309): Every 10 ms in DAWN and MORNING, or at a Gap, CAL evaluates the live bank and writes each interpolated
  field. -/
  | calApplication
  /-- `CAL_CHECK_GO` (R314): A write of CAL_CHECK_CTRL.GO compares A with B and installs the value in the non-live bank, or rejects it
  with record 0x0501. -/
  | calCheckGo (m : Master) (v : RegWord)
  /-- `CSM_AUTH` (R318): A write of CSM_Uu_CTRL.AUTH writes a challenge to the unit's chip and starts authentication. -/
  | csmAuth (m : Master) (u : Fin 16) (v : RegWord)
  /-- `AUTH_RESPONSE` (R318): After CSM_AUTH_WAIT, the response is read and the MAC checked, giving AUTH_OK with the count loaded, or
  AUTH_FAIL. -/
  | authResponse (u : Fin 16) (r : ChipReply)
  /-- `CSM_INC` (R321): A write of INC, or a page leaving PRINTING, adds a pending increment to each serving AUTH_OK unit. -/
  | csmInc (m : Master) (u : Fin 16) (v : RegWord)
  /-- `CELL_WRITE_COMPLETE` (R321): A counter-cell write completes while the NVM window is open and COUNT rises. -/
  | cellWriteComplete (u : Fin 16) (r : NvmResult)
  /-- `HOST_LINK_UP` (R325): The PCIe endpoint link trains up and the host may enable queue pairs. -/
  | hostLinkUp
  /-- `LINK_DOWN` (R332): The host link goes down: queue pairs are disabled, unaccepted commands are dropped and completions and events
  are lost. -/
  | linkDown
  /-- `QP_ENABLE` (R326): A write of HST_QPn_CFG.EN enables a queue pair, or refuses it with QP_ERR for an unoffered version. -/
  | qpEnable (m : Master) (n : Fin 64) (v : RegWord)
  /-- `SQ_DOORBELL` (R326): A write of HST_QPn_SQ_TAIL makes new submissions available for fetching. -/
  | sqDoorbell (m : Master) (n : Fin 64) (v : RegWord)
  /-- `CQ_DOORBELL` (R326): A write of HST_QPn_CQ_HEAD frees CQ space and resumes fetching. -/
  | cqDoorbell (m : Master) (n : Fin 64) (v : RegWord)
  /-- `JOB_OPEN` (R329): Accepts and journals a job open with a station mask and speed. -/
  | jobOpen (n : Fin 64)
  /-- `JOB_CLOSE` (R329): Accepts and journals a job close; later submissions for the job are refused. -/
  | jobClose (n : Fin 64)
  /-- `PAGE_SUBMIT` (R329): Accepts a page descriptor address into a page entry and journals it. -/
  | pageSubmit (n : Fin 64)
  /-- `PAGE_BIND` (R329): Binds a page to a new sheet entry and returns its tag. -/
  | pageBind (n : Fin 64)
  /-- `COMMIT_POLICY` (R329): Records the abort-retry and reprint policy of the job. -/
  | commitPolicy (n : Fin 64)
  /-- `CANCEL` (R43): Withdraws a page or every page of a job, or is refused with 0x06 for a page in PRINTING. -/
  | cancel (n : Fin 64)
  /-- `STATUS` (R329): A query returning the state and the page and sheet usage. -/
  | status (n : Fin 64)
  /-- `FW_STAGE_WRITE` (R345): Copies image bytes from host memory into the non-boot bank and clears STAGED. -/
  | fwStageWrite (n : Fin 64)
  /-- `FW_STAGE_VERIFY` (R345): Verifies the staged bank and sets STAGED, or completes with 0x08. -/
  | fwStageVerify (n : Fin 64)
  /-- `FW_STAGE_SWITCH` (R345): Requests the bank switch, which runs at step 6 of a Gap. -/
  | fwStageSwitch (n : Fin 64)
  /-- `FW_STAGE_RESTART` (R345): In MORNING with no page bound, takes a system reset that loads the new image. -/
  | fwStageRestart (n : Fin 64)
  /-- `JOURNAL_READ` (R342): A query copying up to 65,536 journal or mirror entries to a host buffer, with zeros for gaps. -/
  | journalRead (n : Fin 64)
  /-- `JOURNAL_NVM_WRITE_COMPLETE` (R338): Both NVM copies of an entry are written, the durable sequence advances and the waiting
  completion is posted. -/
  | journalNvmWriteComplete (r : NvmResult)
  /-- `JOURNAL_SCAN_COMPLETE` (R337): The DAWN scan of every journal slot completes, setting the next, durable and oldest sequence
  numbers and the gap count. -/
  | journalScanComplete
  /-- `MATE_ACK_TIMEOUT` (R346): No acknowledgement arrives from the mate within 1 ms, so MATE_LOST sets and completions carry M = 0. -/
  | mateAckTimeout
  /-- `BOOT_IMAGE_LOAD` (R344): The boot ROM verifies and loads the boot bank or falls back to the other, or fails the self-test with
  SELFTEST_FAIL. -/
  | bootImageLoad (boot other : Bool) (image : List (Nat × List Byte))
  /-- `XSP_CMD_GO` (R352): A write of XSP_CMD.GO runs a manual read of LEN bytes, as used for the A0-10 dummy read. -/
  | xspCmdGo (m : Master) (v : RegWord)
  /-- `XSP_READ_COMPLETE` (R352): The manual xSPI read completes and BUSY clears with the data in XSP_CMD_DATA. -/
  | xspReadComplete
  /-- `VESPER_SCAN_COMPLETE` (R386): At a power-on DAWN, VSP has read every slot, set SECONDS, BOOT and NEXT, and raised record 0x0001.
  -/
  | vesperScanComplete
  /-- `VSP_RAISE_GO` (R388): A write of VSP_RAISE_CODE.GO raises a record from the writer's banked code and parameters into the DRAM
  ring. -/
  | vspRaiseGo (m : Master) (v : RegWord)
  /-- `VESPER_NVM_WRITE_COMPLETE` (R387): Both copies of a Vesper record are written to NVM. -/
  | vesperNvmWriteComplete (r : NvmResult)
  /-- `VSP_READ_GO` (R390): A write of VSP_READ_IDX.GO starts a read of both copies of a slot. -/
  | vspReadGo (m : Master) (v : RegWord)
  /-- `VSP_READ_COMPLETE` (R390): The slot read completes and the valid copy, or VALID 0, is returned. -/
  | vspReadComplete
  /-- `OPERATING_SECOND` (R386): Each whole second outside NIGHT increments VSP_SECONDS. -/
  | operatingSecond
  /-- `COUNTER_WRAP` (R393): A 48-bit counter wraps and sets its sticky wrap bit, making source 36 pending if SAMPLE_EN = 1. -/
  | counterWrap (c : Fin 64)
  /-- `CLR_ALL` (R398): A write of PMC_CTRL.CLR_ALL sets all counters and wrap bits to 0. -/
  | clrAll (m : Master) (v : RegWord)
  /-- `PMC_DUMP` (R396): Every PERIOD_US a dump record is captured in one tick and written to the ring, or skipped with DUMP_LATE. -/
  | pmcDump (r : DumpResult)
  /-- `BW_WINDOW_CLOSE` (R395): Every port closes its bandwidth window together and PMC_BWp is updated. -/
  | bwWindowClose (moved : Vector Nat 25)
  /-- `ALIVE_TOGGLE` (R380): Every 500 µs ALIVE toggles unless unmasked fault status or a halted core holds it. -/
  | aliveToggle
  /-- `SMBUS_PROCESS_CALL` (R381): A Block Write–Block Read Process Call returns an MGT or always-on register, or a byte count of 0 with
  SMB_ERR. -/
  | smbusProcessCall (addr : BitVec 7) (off : BitVec 22) (pec : Option Bool)
  /-- `UART_RX_BYTE` (R382): A received UART byte goes to MGT_UART_DATA for N11. -/
  | uartRxByte (b : Byte)
  /-- `UART_READ_LINE` (R382): The hardware responder answers an 'r' line with the register value, or '?'. -/
  | uartReadLine (line : List Byte)
  /-- `PMBUS_POLL` (R383): In each 1 ms slot the PMBus host reads one rail's regulator, clearing VALID with PMB_ERR on failure. -/
  | pmbusPoll (r : Fin 32) (answer : Option Regulator)
  /-- `MIRROR_UPDATE` (R384): Every 1 ms, MGT copies the mirror words and compares regulator reports, setting MISMATCH after two
  disagreeing polls. -/
  | mirrorUpdate
  /-- `PORT_BLOCK_LOCK` (R354): A port's lanes reach block lock and the port runs striped or degraded. -/
  | portBlockLock (p : Fin 8) (lane0 lane1 inv0 inv1 : Bool)
  /-- `LANE_LOCK_TIMEOUT` (R354): Only one lane locks within 100 ms, so the port runs degraded with LANE_DOWN. -/
  | laneLockTimeout (p : Fin 8)
  /-- `PORT_DOWN` (R368): A port goes down and the messages queued for it are answered as stopped messages. -/
  | portDown (p : Fin 8)
  /-- `FRAME_RECEIVE` (R355): A link frame arrives; on a CRC failure it is dropped and a replay is requested, and past 16 replays the
  link goes down. -/
  | frameReceive (p : Fin 8) (frame : Nat) (crcOk : Bool) (headers : List (BitVec 128))
  /-- `REPLAY_REQUEST` (R355): A replay request arrives and the sender resends from the named frame out of its replay buffer. -/
  | replayRequest (p : Fin 8) (frame count : Nat)
  /-- `WRITE` (R365): A posted WRITE is applied at its home, or fails there with a LATE_ERROR and record 0x0F01. -/
  | write (p : Fin 8) (f : FabMsg)
  /-- `READ_REQ` (R358): A READ_REQ is served at the home after earlier writes, with READ_DATA or READ_ERR. -/
  | readReq (p : Fin 8) (f : FabMsg)
  /-- `READ_DATA` (R357): READ_DATA arrives and completes the requester's read. -/
  | readData (p : Fin 8) (f : FabMsg)
  /-- `READ_ERR` (R357): READ_ERR arrives with its code and fails the requester's read. -/
  | readErr (p : Fin 8) (f : FabMsg)
  /-- `RD_TIMEOUT` (R370): A remote read exceeds FAB_RD_TIMEOUT, the requester receives an error and late data are later discarded. -/
  | rdTimeout
  /-- `SHEET_EVENT` (R371): A received sheet event enters the event queue and, for outcomes, the peer outcome table read by precondition
  f. -/
  | sheetEvent (p : Fin 8) (f : FabMsg)
  /-- `LATE_ERROR` (R369): A LATE_ERROR enters the late-error queue, or is lost with LEQ_LOST. -/
  | lateError (p : Fin 8) (f : FabMsg)
  /-- `JOURNAL_ACK` (R346): The mate's acknowledgement of a mirrored journal entry arrives. -/
  | journalAck (p : Fin 8) (f : FabMsg)
  /-- `SYNC` (R373): A received SYNC sets FAB_SYNC_OFS, and the fabric agent steps or slews Meridian and tracks lock. -/
  | sync (p : Fin 8) (src prio sent acc : Nat)
  /-- `SYNC_SEND` (R372): Every INTERVAL ms the time master sends SYNC with its Meridian. -/
  | syncSend
  /-- `SYNC_TIMEOUT` (R373): No SYNC arrives for 10 × INTERVAL, so LOCKED clears and SYNC_LOST sets. -/
  | syncTimeout
  /-- `DELAY_MEASURE` (R372): Every 100 ms a device sends DELAY_REQ on each port to measure its link delay. -/
  | delayMeasure
  /-- `DELAY_REQ` (R372): A DELAY_REQ arrives and is answered with DELAY_RESP. -/
  | delayReq (p : Fin 8) (residence : Nat)
  /-- `DELAY_RESP` (R372): A DELAY_RESP arrives and the one-way delay is written to FAB_Pp_DELAY. -/
  | delayResp (p : Fin 8) (part residence : Nat)
  /-- `SNOOP` (R91): A SNOOP at the home is answered with DATA, RECALL, UNCACHED, PINNED, RETRY, IN_EVICT or ABSENT according to the
  granule's state. -/
  | snoop (p : Fin 8) (f : FabMsg)
  /-- `DATA` (R91): DATA arrives and the requester holds the granule SHARED or OWNED. -/
  | data (p : Fin 8) (f : FabMsg)
  /-- `RECALL` (R94): A holder receives a RECALL and answers with an EVICT or NOT_HELD. -/
  | recallMsg (p : Fin 8) (f : FabMsg)
  /-- `EVICT` (R93): An EVICT at the home returns owned data or drops a sharer, and may answer a pending RECALL or SNOOP. -/
  | evict (p : Fin 8) (f : FabMsg)
  /-- `PIN` (R91): A PIN tells the home that a shared copy is pinned by an admission. -/
  | pin (p : Fin 8) (f : FabMsg)
  /-- `UNPIN` (R91): An UNPIN releases a remote pin at the home. -/
  | unpin (p : Fin 8) (f : FabMsg)
  /-- `RETRY` (R95): A RETRY answer arrives because the home's directory is full. -/
  | retry (p : Fin 8) (f : FabMsg)
  /-- `PINNED` (R92): A PINNED answer refuses an ownership request for pinned data. -/
  | pinned (p : Fin 8) (f : FabMsg)
  /-- `UNCACHED` (R91): UNCACHED data serve one read without being held, and the refusal is counted. -/
  | uncached (p : Fin 8) (f : FabMsg)
  /-- `IN_EVICT` (R94): IN_EVICT data arrive and are treated as DATA. -/
  | inEvict (p : Fin 8) (f : FabMsg)
  /-- `NOT_HELD` (R94): A NOT_HELD answer to a RECALL is discarded at the home. -/
  | notHeld (p : Fin 8) (f : FabMsg)
  /-- `ABSENT` (R98): An ABSENT answer arrives; holders keep their copies and an owner retries its EVICT. -/
  | absent (p : Fin 8) (f : FabMsg)
  /-- `HELLO` (R360): HELLO exchanges the EUI, versions and ids with a neighbour. -/
  | hello (p : Fin 8) (eui verMin verMax : Nat) (held : Option Nat)
  /-- `DISCOVER` (R360): A flooded DISCOVER causes each device to send ASSIGN requests to the root. -/
  | discover (p : Fin 8) (number root : Nat)
  /-- `ASSIGN` (R360): An ASSIGN request is granted by the root, or a flooded grant gives a device its id or sets ID_CONFLICT. -/
  | assign (p : Fin 8) (number : Nat) (a : Assign)
  /-- `ROUTE` (R361): A ROUTE message updates the automatic routes from shortest paths. -/
  | route (p : Fin 8) (routes : List (Nat × Nat))
  /-- `FAB_DISCOVER` (R360): A write of FAB_CTRL.DISCOVER runs discovery. -/
  | fabDiscover (m : Master) (v : RegWord)
  /-- `LEQ_POP` (R375): A write of FAB_LEQ_POP removes the head of the late-error queue. -/
  | leqPop (m : Master)
  /-- `EVQ_POP` (R375): A write of FAB_EVQ_POP removes the head of the fabric event queue. -/
  | evqPop (m : Master)
  /-- `FIN_FRAME_SENT` (R409): The last bit of a finisher frame is sent and the frame leaves the transmit queue. -/
  | finFrameSent
  /-- `FIN_REL_PULSE_END` (R409): The 1 ms FIN_REL and FIN_SPOIL pulse ends. -/
  | finRelPulseEnd
  /-- `PURGE_AT_COL` (R54): Meridian reaches the Col of a cut sheet that was aborted before its Col, and PSQ starts driving the purge
  output PURGEk for PULSE_MS. -/
  | purgeAtCol (t : Fin 64)
  /-- `SHEET_SENSOR_EDGE` (R210): An edge on a sheet sensor input SS00–SS63 updates the sensor's filtered level and its last-edge time
  stamp. -/
  | sheetSensorEdge (n : Fin 64) (up : Bool)
  /-- `QUADRATURE_ENCODER_EDGE` (R210): An edge on phase A or B of a quadrature encoder QE00–QE15 changes the encoder's signed count. -/
  | quadratureEncoderEdge (n : Fin 16) (up : Bool)
  /-- `LSI_INPUTS_HIGH` (R175): An interlock input LSI_N0 or LSI_N1 returns high, which starts the unbroken-high time that a re-arm
  requires to be at least 1 ms. -/
  | lsiInputsHigh (in1 : Bool)
  /-- `ALWAYS_ON_SUPPLY_LOSS` (R331): The device loses its supplies, so entries above JRN_DURABLE_SEQ, DRAM rings and pending consumable
  increments are lost, and the device returns to no power. -/
  | alwaysOnSupplyLoss
  /-- `FW_STAGE_COMPLETE` (R345): A FW_STAGE WRITE or VERIFY in progress ends, clearing the in-progress condition and setting STAGED or
  completing with 0x08. -/
  | fwStageComplete (valid : Bool)
  deriving DecidableEq, Repr

end Sys2Proof
end

