-- ==== Sys2Proof/Decode.lean ====
section
/-! DEFINITION. The words of commands: the table gives no row bits. -/

namespace Sys2Proof

/-- The command that a word spells by the bits of the table: no row has bits, so no word spells one. -/
def decodeTableWord (_nbits _w : Nat) : Option Instr := none

end Sys2Proof
end

