-- ==== Sys2Proof/Config.lean ====
section
/-! DEFINITION. What the spec leaves open: free values. Each is an opaque constant: nothing in Lean can evaluate it, so a statement
about it holds for every value it may have. -/

namespace Sys2Proof.Config

/-- What a byte of a memory reads as after that memory has lost its contents (R419: "contents undefined at the next DAWN", DRAM
"Lost", "Undefined"). `epoch` counts the losses of that memory, `addr` is the local bus address (log 11). -/
opaque lostByte (epoch addr : Nat) : Byte

/-- The process value of loop slot `slot` in frame `frame` where R258 divides by a `BLD_Cn_PERIOD` or a `BTM_FACET_PERIOD` of 0 and states
no result (log 26). -/
opaque praUnstated (frame slot : Nat) : Int

/-- Whether the mean of two diode readings whose sum is odd is rounded up (R292 states no rounding, log 29). -/
opaque diodeMeanUp (d0 d1 : Int) : Bool

/-- `Tboard` after a calibration with mean reading `mean` and a measured power `power` other than 0: the package coefficient is not
published (R292, R422, log 29). -/
opaque boardTemp (mean : Int) (power : Nat) : BitVec 16

/-- Byte `i` of draw `draw` from the on-die entropy source (R318, log 31). -/
opaque entropy (draw i : Nat) : Byte

/-- Byte `i` of the first xSPI transaction after the device has left EVENING, at address `addr`: on A0 it can be latched wrongly (R349,
log 32). -/
opaque latchedByte (addr i : Nat) : Byte

/-- Byte `i` of `XSP_CMD_DATA` after a read of fewer than 4 bytes, beyond those read (R352, log 32). -/
opaque unreadByte (addr i : Nat) : Byte

/-- What Meridian reads as when it would pass 64 bits: the spec defines no wrap (R29, log 40). -/
opaque meridianPast : Nat → BitVec 64

/-- `SRC` of a Vesper record that neither a block nor a core raises, of which R385 says nothing: a record of the always-on domain, by its
code, or of a master other than a core, by its number (log 12). -/
opaque raiseSrc (who : Nat) : BitVec 8

/-- What a performance counter sees of an event whose workings this model does not hold: event `ev` of index `idx` at tick `tick` (R392,
log 45). -/
opaque pmcUnheld (tick ev idx : Nat) : Nat

/-- What a field of `width` bits holds of a number `v` that does not fit in it, where the spec names neither a limit nor a wrap (log 50). -/
opaque pastWidth (width : Nat) (v : Int) : Nat

/-- Whether the quotient `num` ÷ `den`, which the spec states without a rounding and which is no whole number, is rounded up (log 21). -/
opaque roundsUp (num den : Nat) : Bool

/-- The addresses at which the memories hold an uncorrectable error from clock `clock` on (R131, R134, R136, R198, log 67). -/
opaque damaged (clock : Nat) : List Nat

/-- How many errors the Vale banks correct in clock `clock` (R134, log 51). -/
opaque corrected (clock : Nat) : Nat

/-- Whether a request of master `m` waits for a Vale bank in clock `clock` (R132, log 51). -/
opaque bankWait (clock m : Nat) : Bool

/-- How many codewords the FEC of port `p` corrects in clock `clock` (R375, log 51). -/
opaque fecCorrected (clock p : Nat) : Nat

/-- How many write accesses of station `k`'s decoders, and how many replies to DMA, a fence that begins in clock `clock` discards (R97,
R130, log 51). -/
opaque fenceWrites (clock k : Nat) : Nat
@[inherit_doc fenceWrites] opaque fenceReplies (clock k : Nat) : Nat

/-- Byte `i` that a failed burst from Plain address `addr`, which ended in clock `clock`, leaves in the staging ring (R131, log 68). -/
opaque failedByte (addr clock i : Nat) : Byte

/-- Byte `i` of entry `n` of station `k`'s raw index tables, made in clock `clock`: they are private to the streamer (R119, log 68). -/
opaque rawIndexByte (k clock n i : Nat) : Byte

/-- The master index that `VALE_ERR_INFO` takes for an access of BTMk, to which R132 gives none (log 69). -/
opaque btmMaster (k : Nat) : Nat

/-- Whether the DMA engine ends its present 4 KiB block in clock `clock`: its pace depends on the memories (R140, log 70). -/
opaque dmaMoves (clock : Nat) : Bool

/-- The mean conversion, in 1/16 code, that station `k`'s photodiode gives in a window that ends in clock `clock` (R189, R191, log 7). -/
opaque photodiode (clock k : Nat) : Nat

/-- The number that a facet is given where `NEXT_IDX` is not below `FACETS` (R151, log 71). -/
opaque facetPast (idx facets : Nat) : Nat

/-- How far from the true crossing the prediction of BLDC channel `n` lies in clock `clock`, in ticks, on A0 after two skipped samples (A0-09,
R231, log 7). -/
opaque bemfDrift (clock n : Nat) : Int

/-- Whether the adaptation drives the offset of winding `w` of stepper channel `n` to its upper limit in the cold, on A0 (A0-04, R246, log 7). -/
opaque coldOffsetUp (n w : Nat) : Bool

/-- What converter `a` converts in clock `clock`, where no command says it: the analog inputs are outside the device (R272, log 80). -/
opaque adcRaw (clock a : Nat) : BitVec 12

/-- What the thermal model computes in the update of clock `clock`, where no command says it: the temperature and the power of zone `z`, the
package's temperature and the scale K; the coefficients are not published (R290, R422, log 83). -/
opaque modelTemp (clock z : Nat) : BitVec 16
@[inherit_doc modelTemp] opaque modelPower (clock z : Nat) : BitVec 16
@[inherit_doc modelTemp] opaque modelPkg (clock : Nat) : BitVec 16
@[inherit_doc modelTemp] opaque modelScale (clock : Nat) : BitVec 16

/-- The reading of reference diode `d` of a calibration that ends in clock `clock`, where no command says it (R292, log 83). -/
opaque diodeReading (clock d : Nat) : BitVec 16

/-- How the counter dump due in clock `clock` ends, where no command says it: written, late, refused or lost, by its value modulo 4 (R396,
log 83). -/
opaque dumpEnds (clock : Nat) : BitVec 2

/-- The bytes that port `p` has moved in the bandwidth window that ends in clock `clock`, where no command says it (R395, log 83). -/
opaque windowMoved (clock p : Nat) : Nat

/-- Whether core `n` comes to issue in clock `clock` the word at its pc, where that word spells no instruction (R201, log 76). -/
opaque coreIssues (clock n : Nat) : Bool

end Sys2Proof.Config
end

