-- ==== Sys2Proof/Machine/RegNames.lean ====
section
/-! DEFINITION. The control space (R9, R11, R17, R18): every register of every block by its name in the spec, its offset in
the control window, and every field of it; and the register table, one row per register of the spec's register tables (R38 to
R41, R74, R99, R118, R144 to R146, R176, R192, R240, R256, R276, R277, R303 to R305, R323, R324, R350 to R352, R375, R397 to
R399), with its access masks and its reset word. A reset that the tables give as OTP, fuses, a strap or NVM is 0 here
and is loaded by `State.reset` and the reset commands from the fields of State that hold that source (log 3). -/

namespace Sys2Proof.Machine

/-- A field of a control register: the offset of its register in the control window, its lowest bit and its width (R9). -/
structure Fld where
  off : Nat
  lsb : Nat
  width : Nat
  deriving DecidableEq, Repr

namespace Reg

/-- `SYS_ID` (R38). -/
abbrev SYS_ID : Nat := 0x0

/-- `SYS_ID.PART`, RO, reset 0x8064. -/
abbrev SYS_ID_PART : Fld := ⟨SYS_ID, 16, 16⟩

/-- `SYS_ID.STEPPING`, RO, reset 0xA0. -/
abbrev SYS_ID_STEPPING : Fld := ⟨SYS_ID, 8, 8⟩

/-- `SYS_ID.STATIONS`, RO, reset Fuses. -/
abbrev SYS_ID_STATIONS : Fld := ⟨SYS_ID, 0, 4⟩

/-- `SYS_STATE` (R38). -/
abbrev SYS_STATE : Nat := 0x4

/-- `SYS_STATE.STATE`, RO, reset 0x1. -/
abbrev SYS_STATE_STATE : Fld := ⟨SYS_STATE, 0, 3⟩

/-- `SYS_STATE.LAST`, RO, reset 0x0. -/
abbrev SYS_STATE_LAST : Fld := ⟨SYS_STATE, 4, 3⟩

/-- `SYS_STATE.DAWN_KIND`, RO, reset Cause. -/
abbrev SYS_STATE_DAWN_KIND : Fld := ⟨SYS_STATE, 8, 2⟩

/-- `SYS_STATE_REQ` (R38). -/
abbrev SYS_STATE_REQ : Nat := 0x8

/-- `SYS_STATE_REQ.TARGET`, WO, reset 0x0. -/
abbrev SYS_STATE_REQ_TARGET : Fld := ⟨SYS_STATE_REQ, 0, 3⟩

/-- `SYS_STATE_REQ.GO`, WO, reset 0x0. -/
abbrev SYS_STATE_REQ_GO : Fld := ⟨SYS_STATE_REQ, 3, 1⟩

/-- `SYS_STATUS` (R38). -/
abbrev SYS_STATUS : Nat := 0xc

/-- `SYS_STATUS.SELFTEST_FAIL`, W1C, reset 0x0. -/
abbrev SYS_STATUS_SELFTEST_FAIL : Fld := ⟨SYS_STATUS, 0, 1⟩

/-- `SYS_STATUS.DECODE_ERR`, W1C, reset 0x0. -/
abbrev SYS_STATUS_DECODE_ERR : Fld := ⟨SYS_STATUS, 1, 1⟩

/-- `SYS_STATUS.OWN_ERR`, W1C, reset 0x0. -/
abbrev SYS_STATUS_OWN_ERR : Fld := ⟨SYS_STATUS, 2, 1⟩

/-- `SYS_STATUS.REQ_REFUSED`, W1C, reset 0x0. -/
abbrev SYS_STATUS_REQ_REFUSED : Fld := ⟨SYS_STATUS, 3, 1⟩

/-- `SYS_STATUS.FIRST`, RO, reset 0x0. -/
abbrev SYS_STATUS_FIRST : Fld := ⟨SYS_STATUS, 16, 4⟩

/-- `SYS_STATUS.OVF`, W1C, reset 0x0. -/
abbrev SYS_STATUS_OVF : Fld := ⟨SYS_STATUS, 20, 1⟩

/-- `SYS_IRQ_EN` (R38). -/
abbrev SYS_IRQ_EN : Nat := 0x10

/-- `SYS_IRQ_EN.EN`, RW, reset 0x0. -/
abbrev SYS_IRQ_EN_EN : Fld := ⟨SYS_IRQ_EN, 0, 4⟩

/-- `SYS_RESET` (R38). -/
abbrev SYS_RESET : Nat := 0x14

/-- `SYS_RESET.SYSRST`, WO, reset 0x0. -/
abbrev SYS_RESET_SYSRST : Fld := ⟨SYS_RESET, 0, 1⟩

/-- `SYS_RESET.KEY`, WO, reset 0x00. -/
abbrev SYS_RESET_KEY : Fld := ⟨SYS_RESET, 8, 8⟩

/-- `SYS_CORE_RUN` (R38). -/
abbrev SYS_CORE_RUN : Nat := 0x18

/-- `SYS_CORE_RUN.RUN`, RW, reset 0x000. -/
abbrev SYS_CORE_RUN_RUN : Fld := ⟨SYS_CORE_RUN, 0, 12⟩

/-- `SYS_REFUSE` (R38). -/
abbrev SYS_REFUSE : Nat := 0x1c

/-- `SYS_REFUSE.REASON`, RO, reset 0x00. -/
abbrev SYS_REFUSE_REASON : Fld := ⟨SYS_REFUSE, 0, 8⟩

/-- `SYS_DOORBELL` (R38). -/
abbrev SYS_DOORBELL : Nat := 0x20

/-- `SYS_DOORBELL.RING`, WO, reset 0x000. -/
abbrev SYS_DOORBELL_RING : Fld := ⟨SYS_DOORBELL, 0, 12⟩

/-- `SYS_AON_CFG` (R38). -/
abbrev SYS_AON_CFG : Nat := 0x24

/-- `SYS_AON_CFG.AUTO_DAWN`, RW, reset OTP. -/
abbrev SYS_AON_CFG_AUTO_DAWN : Fld := ⟨SYS_AON_CFG, 0, 1⟩

/-- `SYS_RESET_CAUSE` (R38). -/
abbrev SYS_RESET_CAUSE : Nat := 0x28

/-- `SYS_RESET_CAUSE.POR`, W1C, reset 0x1. -/
abbrev SYS_RESET_CAUSE_POR : Fld := ⟨SYS_RESET_CAUSE, 0, 1⟩

/-- `SYS_RESET_CAUSE.SW`, W1C, reset 0x0. -/
abbrev SYS_RESET_CAUSE_SW : Fld := ⟨SYS_RESET_CAUSE, 1, 1⟩

/-- `SYS_RESET_CAUSE.RAIL`, W1C, reset 0x0. -/
abbrev SYS_RESET_CAUSE_RAIL : Fld := ⟨SYS_RESET_CAUSE, 2, 1⟩

/-- `SYS_RESET_CAUSE.THERMAL`, W1C, reset 0x0. -/
abbrev SYS_RESET_CAUSE_THERMAL : Fld := ⟨SYS_RESET_CAUSE, 3, 1⟩

/-- `SYS_RESET_CAUSE.JTAG`, W1C, reset 0x0. -/
abbrev SYS_RESET_CAUSE_JTAG : Fld := ⟨SYS_RESET_CAUSE, 4, 1⟩

/-- `SYS_DECODE_INFO` (R38). -/
abbrev SYS_DECODE_INFO : Nat := 0x2c

/-- `SYS_DECODE_INFO.OFFSET`, RO, reset 0x0. -/
abbrev SYS_DECODE_INFO_OFFSET : Fld := ⟨SYS_DECODE_INFO, 0, 22⟩

/-- `SYS_DECODE_INFO.WRITE`, RO, reset 0x0. -/
abbrev SYS_DECODE_INFO_WRITE : Fld := ⟨SYS_DECODE_INFO, 24, 1⟩

/-- `SYS_DECODE_INFO.MASTER`, RO, reset 0x0. -/
abbrev SYS_DECODE_INFO_MASTER : Fld := ⟨SYS_DECODE_INFO, 28, 4⟩

/-- `SYS_BOOT_MAP` (R38). -/
abbrev SYS_BOOT_MAP : Nat := 0x30

/-- `SYS_BOOT_MAP.ROM`, RW, reset 0x0. -/
abbrev SYS_BOOT_MAP_ROM : Fld := ⟨SYS_BOOT_MAP, 0, 1⟩

/-- `TIM_NOW_LO` (R39). -/
abbrev TIM_NOW_LO : Nat := 0x10000

/-- `TIM_NOW_LO.NOW`, RO, reset 0x0000_0000. -/
abbrev TIM_NOW_LO_NOW : Fld := ⟨TIM_NOW_LO, 0, 32⟩

/-- `TIM_NOW_HI` (R39). -/
abbrev TIM_NOW_HI : Nat := 0x10004

/-- `TIM_NOW_HI.NOW`, RO, reset 0x0000_0000. -/
abbrev TIM_NOW_HI_NOW : Fld := ⟨TIM_NOW_HI, 0, 32⟩

/-- `TIM_SLEW` (R39). -/
abbrev TIM_SLEW : Nat := 0x10008

/-- `TIM_SLEW.MODE`, RW, reset 0x0. -/
abbrev TIM_SLEW_MODE : Fld := ⟨TIM_SLEW, 0, 2⟩

/-- `TIM_SLEW.COUNT`, RW, reset 0x0000. -/
abbrev TIM_SLEW_COUNT : Fld := ⟨TIM_SLEW, 16, 16⟩

/-- `TIM_STEP_LO` (R39). -/
abbrev TIM_STEP_LO : Nat := 0x1000c

/-- `TIM_STEP_LO.STEP`, RW, reset 0x0000_0000. -/
abbrev TIM_STEP_LO_STEP : Fld := ⟨TIM_STEP_LO, 0, 32⟩

/-- `TIM_STEP_HI` (R39). -/
abbrev TIM_STEP_HI : Nat := 0x10010

/-- `TIM_STEP_HI.STEP`, WO, reset 0x0000_0000. -/
abbrev TIM_STEP_HI_STEP : Fld := ⟨TIM_STEP_HI, 0, 32⟩

/-- `TIM_ALARM_LO` (R39). -/
abbrev TIM_ALARM_LO : Nat := 0x10014

/-- `TIM_ALARM_LO.ALARM`, RW, reset 0x0000_0000. -/
abbrev TIM_ALARM_LO_ALARM : Fld := ⟨TIM_ALARM_LO, 0, 32⟩

/-- `TIM_ALARM_HI` (R39). -/
abbrev TIM_ALARM_HI : Nat := 0x10018

/-- `TIM_ALARM_HI.ALARM`, RW, reset 0x0000_0000. -/
abbrev TIM_ALARM_HI_ALARM : Fld := ⟨TIM_ALARM_HI, 0, 32⟩

/-- `TIM_CTRL` (R39). -/
abbrev TIM_CTRL : Nat := 0x1001c

/-- `TIM_CTRL.ALARM_EN`, RW, reset 0x0. -/
abbrev TIM_CTRL_ALARM_EN : Fld := ⟨TIM_CTRL, 0, 1⟩

/-- `TIM_CTRL.FABRIC_SYNC`, RW, reset 0x0. -/
abbrev TIM_CTRL_FABRIC_SYNC : Fld := ⟨TIM_CTRL, 1, 1⟩

/-- `TIM_STATUS` (R39). -/
abbrev TIM_STATUS : Nat := 0x10020

/-- `TIM_STATUS.ALARM`, W1C, reset 0x0. -/
abbrev TIM_STATUS_ALARM : Fld := ⟨TIM_STATUS, 0, 1⟩

/-- `TIM_STATUS.STEP_REFUSED`, W1C, reset 0x0. -/
abbrev TIM_STATUS_STEP_REFUSED : Fld := ⟨TIM_STATUS, 1, 1⟩

/-- `TIM_STATUS.SLEW_BUSY`, RO, reset 0x0. -/
abbrev TIM_STATUS_SLEW_BUSY : Fld := ⟨TIM_STATUS, 2, 1⟩

/-- `TIM_STATUS.FIRST`, RO, reset 0x0. -/
abbrev TIM_STATUS_FIRST : Fld := ⟨TIM_STATUS, 16, 4⟩

/-- `TIM_STATUS.OVF`, W1C, reset 0x0. -/
abbrev TIM_STATUS_OVF : Fld := ⟨TIM_STATUS, 20, 1⟩

/-- `TIM_IRQ_EN` (R39). -/
abbrev TIM_IRQ_EN : Nat := 0x10024

/-- `TIM_IRQ_EN.EN`, RW, reset 0x0. -/
abbrev TIM_IRQ_EN_EN : Fld := ⟨TIM_IRQ_EN, 0, 2⟩

/-- `PMX_CTRL` (R40). -/
abbrev PMX_CTRL : Nat := 0x1f0000

/-- `PMX_CTRL.CLAIM_COMMIT`, WO, reset 0x0. -/
abbrev PMX_CTRL_CLAIM_COMMIT : Fld := ⟨PMX_CTRL, 0, 1⟩

/-- `PMX_CTRL.COMMIT_PENDING`, RO, reset 0x0. -/
abbrev PMX_CTRL_COMMIT_PENDING : Fld := ⟨PMX_CTRL, 1, 1⟩

/-- `PMX_STATUS` (R40). -/
abbrev PMX_STATUS : Nat := 0x1f0004

/-- `PMX_STATUS.CLAIM_DENIED`, W1C, reset 0x0. -/
abbrev PMX_STATUS_CLAIM_DENIED : Fld := ⟨PMX_STATUS, 0, 1⟩

/-- `PMX_STATUS.FIRST`, RO, reset 0x00. -/
abbrev PMX_STATUS_FIRST : Fld := ⟨PMX_STATUS, 16, 8⟩

/-- `PMX_STATUS.OVF`, W1C, reset 0x0. -/
abbrev PMX_STATUS_OVF : Fld := ⟨PMX_STATUS, 24, 1⟩

/-- `PMX_IRQ_EN` (R40). -/
abbrev PMX_IRQ_EN : Nat := 0x1f0008

/-- `PMX_IRQ_EN.EN`, RW, reset 0x0. -/
abbrev PMX_IRQ_EN_EN : Fld := ⟨PMX_IRQ_EN, 0, 1⟩

/-- `PMX_CLAIMn` (R40). -/
abbrev PMX_CLAIM (n : Nat) : Nat := 0x1f0100 + 0x4 * n

/-- `PMX_CLAIMn.INDEX`, RW, reset 0x000. -/
abbrev PMX_CLAIM_INDEX (n : Nat) : Fld := ⟨(PMX_CLAIM n), 0, 10⟩

/-- `PMX_CLAIMn.KIND`, RW, reset 0x0. -/
abbrev PMX_CLAIM_KIND (n : Nat) : Fld := ⟨(PMX_CLAIM n), 10, 2⟩

/-- `PMX_CLAIMn.FUNC`, RW, reset 0x0. -/
abbrev PMX_CLAIM_FUNC (n : Nat) : Fld := ⟨(PMX_CLAIM n), 12, 4⟩

/-- `PMX_CLAIMn.USER`, RW, reset 0x00. -/
abbrev PMX_CLAIM_USER (n : Nat) : Fld := ⟨(PMX_CLAIM n), 16, 8⟩

/-- `PMX_CLAIMn.CLASS`, RO, reset 0x0. -/
abbrev PMX_CLAIM_CLASS (n : Nat) : Fld := ⟨(PMX_CLAIM n), 24, 4⟩

/-- `PMX_CLAIMn.GRANTED`, RO, reset 0x0. -/
abbrev PMX_CLAIM_GRANTED (n : Nat) : Fld := ⟨(PMX_CLAIM n), 30, 1⟩

/-- `PMX_CLAIMn.VALID`, RW, reset 0x0. -/
abbrev PMX_CLAIM_VALID (n : Nat) : Fld := ⟨(PMX_CLAIM n), 31, 1⟩

/-- `PMX_TMR_MISS` (R41). -/
abbrev PMX_TMR_MISS : Nat := 0x1f000c

/-- `PMX_TMR_MISS.MISS`, W1C, reset 0x0000_0000. -/
abbrev PMX_TMR_MISS_MISS : Fld := ⟨PMX_TMR_MISS, 0, 32⟩

/-- `PMX_TMR_IRQ_EN` (R41). -/
abbrev PMX_TMR_IRQ_EN : Nat := 0x1f0010

/-- `PMX_TMR_IRQ_EN.EN`, RW, reset 0x0000_0000. -/
abbrev PMX_TMR_IRQ_EN_EN : Fld := ⟨PMX_TMR_IRQ_EN, 0, 32⟩

/-- `PMX_TMRt_CTRL` (R41). -/
abbrev PMX_TMR_CTRL (t : Nat) : Nat := 0x1f0800 + 0x20 * t

/-- `PMX_TMRt_CTRL.ARM`, RW, reset 0x0. -/
abbrev PMX_TMR_CTRL_ARM (t : Nat) : Fld := ⟨(PMX_TMR_CTRL t), 0, 1⟩

/-- `PMX_TMRt_CTRL.ARMED`, RO, reset 0x0. -/
abbrev PMX_TMR_CTRL_ARMED (t : Nat) : Fld := ⟨(PMX_TMR_CTRL t), 1, 1⟩

/-- `PMX_TMRt_CTRL.HIT`, RO, reset 0x0. -/
abbrev PMX_TMR_CTRL_HIT (t : Nat) : Fld := ⟨(PMX_TMR_CTRL t), 2, 1⟩

/-- `PMX_TMRt_CTRL.POL`, RW, reset 0x0. -/
abbrev PMX_TMR_CTRL_POL (t : Nat) : Fld := ⟨(PMX_TMR_CTRL t), 3, 1⟩

/-- `PMX_TMRt_START_LO` (R41). -/
abbrev PMX_TMR_START_LO (t : Nat) : Nat := 0x1f0804 + 0x20 * t

/-- `PMX_TMRt_START_LO.TIME`, RW, reset 0x0000_0000. -/
abbrev PMX_TMR_START_LO_TIME (t : Nat) : Fld := ⟨(PMX_TMR_START_LO t), 0, 32⟩

/-- `PMX_TMRt_START_HI` (R41). -/
abbrev PMX_TMR_START_HI (t : Nat) : Nat := 0x1f0808 + 0x20 * t

/-- `PMX_TMRt_START_HI.TIME`, RW, reset 0x0000_0000. -/
abbrev PMX_TMR_START_HI_TIME (t : Nat) : Fld := ⟨(PMX_TMR_START_HI t), 0, 32⟩

/-- `PMX_TMRt_END_LO` (R41). -/
abbrev PMX_TMR_END_LO (t : Nat) : Nat := 0x1f080c + 0x20 * t

/-- `PMX_TMRt_END_LO.TIME`, RW, reset 0x0000_0000. -/
abbrev PMX_TMR_END_LO_TIME (t : Nat) : Fld := ⟨(PMX_TMR_END_LO t), 0, 32⟩

/-- `PMX_TMRt_END_HI` (R41). -/
abbrev PMX_TMR_END_HI (t : Nat) : Nat := 0x1f0810 + 0x20 * t

/-- `PMX_TMRt_END_HI.TIME`, RW, reset 0x0000_0000. -/
abbrev PMX_TMR_END_HI_TIME (t : Nat) : Fld := ⟨(PMX_TMR_END_HI t), 0, 32⟩

/-- `PMX_TMRt_PERIOD` (R41). -/
abbrev PMX_TMR_PERIOD (t : Nat) : Nat := 0x1f0814 + 0x20 * t

/-- `PMX_TMRt_PERIOD.TICKS`, RW, reset 0x0000_0000. -/
abbrev PMX_TMR_PERIOD_TICKS (t : Nat) : Fld := ⟨(PMX_TMR_PERIOD t), 0, 32⟩

/-- `PMX_TMRt_CAP_LO` (R41). -/
abbrev PMX_TMR_CAP_LO (t : Nat) : Nat := 0x1f0818 + 0x20 * t

/-- `PMX_TMRt_CAP_LO.VALUE`, RO, reset 0x0000_0000. -/
abbrev PMX_TMR_CAP_LO_VALUE (t : Nat) : Fld := ⟨(PMX_TMR_CAP_LO t), 0, 32⟩

/-- `PMX_TMRt_CAP_HI` (R41). -/
abbrev PMX_TMR_CAP_HI (t : Nat) : Nat := 0x1f081c + 0x20 * t

/-- `PMX_TMRt_CAP_HI.VALUE`, RO, reset 0x0000_0000. -/
abbrev PMX_TMR_CAP_HI_VALUE (t : Nat) : Fld := ⟨(PMX_TMR_CAP_HI t), 0, 32⟩

/-- `PSQ_CTRL` (R74). -/
abbrev PSQ_CTRL : Nat := 0xa0000

/-- `PSQ_CTRL.EN`, RW, reset 0x0. -/
abbrev PSQ_CTRL_EN : Fld := ⟨PSQ_CTRL, 0, 1⟩

/-- `PSQ_CTRL.WEB`, RW, reset 0x0. -/
abbrev PSQ_CTRL_WEB : Fld := ⟨PSQ_CTRL, 1, 1⟩

/-- `PSQ_CTRL.LAUNCH_HOLD`, RW, reset 0x0. -/
abbrev PSQ_CTRL_LAUNCH_HOLD : Fld := ⟨PSQ_CTRL, 2, 1⟩

/-- `PSQ_STATUS` (R74). -/
abbrev PSQ_STATUS : Nat := 0xa0004

/-- `PSQ_STATUS.AUTO_ABORT`, W1C, reset 0x0. -/
abbrev PSQ_STATUS_AUTO_ABORT : Fld := ⟨PSQ_STATUS, 0, 1⟩

/-- `PSQ_STATUS.WITHDRAW`, W1C, reset 0x0. -/
abbrev PSQ_STATUS_WITHDRAW : Fld := ⟨PSQ_STATUS, 1, 1⟩

/-- `PSQ_STATUS.SPOIL`, W1C, reset 0x0. -/
abbrev PSQ_STATUS_SPOIL : Fld := ⟨PSQ_STATUS, 2, 1⟩

/-- `PSQ_STATUS.EARLY_IRREV`, W1C, reset 0x0. -/
abbrev PSQ_STATUS_EARLY_IRREV : Fld := ⟨PSQ_STATUS, 3, 1⟩

/-- `PSQ_STATUS.LAUNCH_REFUSED`, W1C, reset 0x0. -/
abbrev PSQ_STATUS_LAUNCH_REFUSED : Fld := ⟨PSQ_STATUS, 4, 1⟩

/-- `PSQ_STATUS.COMMIT_REFUSED`, W1C, reset 0x0. -/
abbrev PSQ_STATUS_COMMIT_REFUSED : Fld := ⟨PSQ_STATUS, 5, 1⟩

/-- `PSQ_STATUS.LATE_ABORT`, W1C, reset 0x0. -/
abbrev PSQ_STATUS_LATE_ABORT : Fld := ⟨PSQ_STATUS, 6, 1⟩

/-- `PSQ_STATUS.SEEN_FULL`, W1C, reset 0x0. -/
abbrev PSQ_STATUS_SEEN_FULL : Fld := ⟨PSQ_STATUS, 7, 1⟩

/-- `PSQ_STATUS.HOLD_FULL`, W1C, reset 0x0. -/
abbrev PSQ_STATUS_HOLD_FULL : Fld := ⟨PSQ_STATUS, 8, 1⟩

/-- `PSQ_STATUS.DRIVE_LOST`, W1C, reset 0x0. -/
abbrev PSQ_STATUS_DRIVE_LOST : Fld := ⟨PSQ_STATUS, 9, 1⟩

/-- `PSQ_STATUS.FIRST`, RO, reset 0x0. -/
abbrev PSQ_STATUS_FIRST : Fld := ⟨PSQ_STATUS, 16, 4⟩

/-- `PSQ_STATUS.OVF`, W1C, reset 0x0. -/
abbrev PSQ_STATUS_OVF : Fld := ⟨PSQ_STATUS, 20, 1⟩

/-- `PSQ_IRQ_EN` (R74). -/
abbrev PSQ_IRQ_EN : Nat := 0xa0008

/-- `PSQ_IRQ_EN.EN`, RW, reset 0x000. -/
abbrev PSQ_IRQ_EN_EN : Fld := ⟨PSQ_IRQ_EN, 0, 10⟩

/-- `PSQ_GAP_CFG` (R74). -/
abbrev PSQ_GAP_CFG : Nat := 0xa000c

/-- `PSQ_GAP_CFG.MIN_US`, RW, reset 0x9C40. -/
abbrev PSQ_GAP_CFG_MIN_US : Fld := ⟨PSQ_GAP_CFG, 0, 16⟩

/-- `PSQ_GAP_CFG.PAPER_MM`, RW, reset 0x0078. -/
abbrev PSQ_GAP_CFG_PAPER_MM : Fld := ⟨PSQ_GAP_CFG, 16, 16⟩

/-- `PSQ_SPEED` (R74). -/
abbrev PSQ_SPEED : Nat := 0xa0010

/-- `PSQ_SPEED.MM_S`, RW, reset 0xBB8. -/
abbrev PSQ_SPEED_MM_S : Fld := ⟨PSQ_SPEED, 0, 12⟩

/-- `PSQ_GAP_STATUS` (R74). -/
abbrev PSQ_GAP_STATUS : Nat := 0xa0014

/-- `PSQ_GAP_STATUS.OPEN`, RO, reset 0x1. -/
abbrev PSQ_GAP_STATUS_OPEN : Fld := ⟨PSQ_GAP_STATUS, 0, 1⟩

/-- `PSQ_GAP_STATUS.STRETCH_MS`, RO, reset 0x0000. -/
abbrev PSQ_GAP_STATUS_STRETCH_MS : Fld := ⟨PSQ_GAP_STATUS, 16, 16⟩

/-- `PSQ_HOLD_STATUS` (R74). -/
abbrev PSQ_HOLD_STATUS : Nat := 0xa0018

/-- `PSQ_HOLD_STATUS.USED`, RO, reset 0x000. -/
abbrev PSQ_HOLD_STATUS_USED : Fld := ⟨PSQ_HOLD_STATUS, 0, 10⟩

/-- `PSQ_HOLD_STATUS.FULL`, RO, reset 0x0. -/
abbrev PSQ_HOLD_STATUS_FULL : Fld := ⟨PSQ_HOLD_STATUS, 16, 1⟩

/-- `PSQ_HOLD_STALLS` (R74). -/
abbrev PSQ_HOLD_STALLS : Nat := 0xa001c

/-- `PSQ_HOLD_STALLS.COUNT`, RO, reset 0x0000_0000. -/
abbrev PSQ_HOLD_STALLS_COUNT : Fld := ⟨PSQ_HOLD_STALLS, 0, 32⟩

/-- `PSQ_PURGE_CFG` (R74). -/
abbrev PSQ_PURGE_CFG : Nat := 0xa0020

/-- `PSQ_PURGE_CFG.PURGE_OUT`, RW, reset 0x0. -/
abbrev PSQ_PURGE_CFG_PURGE_OUT : Fld := ⟨PSQ_PURGE_CFG, 0, 2⟩

/-- `PSQ_PURGE_CFG.SPOIL_OUT`, RW, reset 0x0. -/
abbrev PSQ_PURGE_CFG_SPOIL_OUT : Fld := ⟨PSQ_PURGE_CFG, 4, 2⟩

/-- `PSQ_PURGE_CFG.PULSE_MS`, RW, reset 0x00C8. -/
abbrev PSQ_PURGE_CFG_PULSE_MS : Fld := ⟨PSQ_PURGE_CFG, 16, 16⟩

/-- `PSQ_NEXT_SEQ` (R74). -/
abbrev PSQ_NEXT_SEQ : Nat := 0xa0024

/-- `PSQ_NEXT_SEQ.SEQ`, RW, reset 0x0000_0000. -/
abbrev PSQ_NEXT_SEQ_SEQ : Fld := ⟨PSQ_NEXT_SEQ, 0, 32⟩

/-- `PSQ_CNT_COMMIT` (R74). -/
abbrev PSQ_CNT_COMMIT : Nat := 0xa0030

/-- `PSQ_CNT_COMMIT.COUNT`, RO, reset 0x0000_0000. -/
abbrev PSQ_CNT_COMMIT_COUNT : Fld := ⟨PSQ_CNT_COMMIT, 0, 32⟩

/-- `PSQ_CNT_ABORT` (R74). -/
abbrev PSQ_CNT_ABORT : Nat := 0xa0034

/-- `PSQ_CNT_ABORT.COUNT`, RO, reset 0x0000_0000. -/
abbrev PSQ_CNT_ABORT_COUNT : Fld := ⟨PSQ_CNT_ABORT, 0, 32⟩

/-- `PSQ_CNT_SPOIL` (R74). -/
abbrev PSQ_CNT_SPOIL : Nat := 0xa0038

/-- `PSQ_CNT_SPOIL.COUNT`, RO, reset 0x0000_0000. -/
abbrev PSQ_CNT_SPOIL_COUNT : Fld := ⟨PSQ_CNT_SPOIL, 0, 32⟩

/-- `PSQ_CNT_WITHDRAW` (R74). -/
abbrev PSQ_CNT_WITHDRAW : Nat := 0xa003c

/-- `PSQ_CNT_WITHDRAW.COUNT`, RO, reset 0x0000_0000. -/
abbrev PSQ_CNT_WITHDRAW_COUNT : Fld := ⟨PSQ_CNT_WITHDRAW, 0, 32⟩

/-- `PSQ_GAP_COUNT` (R74). -/
abbrev PSQ_GAP_COUNT : Nat := 0xa0040

/-- `PSQ_GAP_COUNT.COUNT`, RO, reset 0x0000_0000. -/
abbrev PSQ_GAP_COUNT_COUNT : Fld := ⟨PSQ_GAP_COUNT, 0, 32⟩

/-- `PSQ_MOTION_BLD` (R74). -/
abbrev PSQ_MOTION_BLD : Nat := 0xa0044

/-- `PSQ_MOTION_BLD.CH`, RW, reset 0x00_0000. -/
abbrev PSQ_MOTION_BLD_CH : Fld := ⟨PSQ_MOTION_BLD, 0, 24⟩

/-- `PSQ_MOTION_STP_LO` (R74). -/
abbrev PSQ_MOTION_STP_LO : Nat := 0xa0048

/-- `PSQ_MOTION_STP_LO.CH`, RW, reset 0x0000_0000. -/
abbrev PSQ_MOTION_STP_LO_CH : Fld := ⟨PSQ_MOTION_STP_LO, 0, 32⟩

/-- `PSQ_MOTION_STP_HI` (R74). -/
abbrev PSQ_MOTION_STP_HI : Nat := 0xa004c

/-- `PSQ_MOTION_STP_HI.CH`, RW, reset 0x0000. -/
abbrev PSQ_MOTION_STP_HI_CH : Fld := ⟨PSQ_MOTION_STP_HI, 0, 16⟩

/-- `PSQ_LOOPMASKm_k` (R74). -/
abbrev PSQ_LOOPMASK (m k : Nat) : Nat := 0xa0200 + 0x10 * m + 0x4 * k

/-- `PSQ_LOOPMASKm_k.LOOPS`, RW, reset 0x0000_0000. -/
abbrev PSQ_LOOPMASK_LOOPS (m k : Nat) : Fld := ⟨(PSQ_LOOPMASK m k), 0, 32⟩

/-- `PSQ_SHn_CTRL` (R74). -/
abbrev PSQ_SH_CTRL (n : Nat) : Nat := 0xa1000 + 0x40 * n

/-- `PSQ_SHn_CTRL.PAGE`, RW, reset 0x00. -/
abbrev PSQ_SH_CTRL_PAGE (n : Nat) : Fld := ⟨(PSQ_SH_CTRL n), 0, 8⟩

/-- `PSQ_SHn_CTRL.STATIONS`, RW, reset 0x00. -/
abbrev PSQ_SH_CTRL_STATIONS (n : Nat) : Fld := ⟨(PSQ_SH_CTRL n), 8, 8⟩

/-- `PSQ_SHn_CTRL.LOOPSET`, RW, reset 0x0. -/
abbrev PSQ_SH_CTRL_LOOPSET (n : Nat) : Fld := ⟨(PSQ_SH_CTRL n), 16, 3⟩

/-- `PSQ_SHn_CTRL.PAIR`, RW, reset 0x0. -/
abbrev PSQ_SH_CTRL_PAIR (n : Nat) : Fld := ⟨(PSQ_SH_CTRL n), 19, 1⟩

/-- `PSQ_SHn_CTRL.VALID`, RW, reset 0x0. -/
abbrev PSQ_SH_CTRL_VALID (n : Nat) : Fld := ⟨(PSQ_SH_CTRL n), 31, 1⟩

/-- `PSQ_SHn_COL_LO` (R74). -/
abbrev PSQ_SH_COL_LO (n : Nat) : Nat := 0xa1004 + 0x40 * n

/-- `PSQ_SHn_COL_LO.COL`, RW, reset 0x0000_0000. -/
abbrev PSQ_SH_COL_LO_COL (n : Nat) : Fld := ⟨(PSQ_SH_COL_LO n), 0, 32⟩

/-- `PSQ_SHn_COL_HI` (R74). -/
abbrev PSQ_SH_COL_HI (n : Nat) : Nat := 0xa1008 + 0x40 * n

/-- `PSQ_SHn_COL_HI.COL`, RW, reset 0x0000_0000. -/
abbrev PSQ_SH_COL_HI_COL (n : Nat) : Fld := ⟨(PSQ_SH_COL_HI n), 0, 32⟩

/-- `PSQ_SHn_EXP_OFS` (R74). -/
abbrev PSQ_SH_EXP_OFS (n : Nat) : Nat := 0xa100c + 0x40 * n

/-- `PSQ_SHn_EXP_OFS.TICKS`, RW, reset 0x0000_0000. -/
abbrev PSQ_SH_EXP_OFS_TICKS (n : Nat) : Fld := ⟨(PSQ_SH_EXP_OFS n), 0, 32⟩

/-- `PSQ_SHn_END_OFS` (R74). -/
abbrev PSQ_SH_END_OFS (n : Nat) : Nat := 0xa1010 + 0x40 * n

/-- `PSQ_SHn_END_OFS.TICKS`, RW, reset 0x0000_0000. -/
abbrev PSQ_SH_END_OFS_TICKS (n : Nat) : Fld := ⟨(PSQ_SH_END_OFS n), 0, 32⟩

/-- `PSQ_SHn_EXIT_OFS` (R74). -/
abbrev PSQ_SH_EXIT_OFS (n : Nat) : Nat := 0xa1014 + 0x40 * n

/-- `PSQ_SHn_EXIT_OFS.TICKS`, RW, reset 0x0000_0000. -/
abbrev PSQ_SH_EXIT_OFS_TICKS (n : Nat) : Fld := ⟨(PSQ_SH_EXIT_OFS n), 0, 32⟩

/-- `PSQ_SHn_PEER` (R74). -/
abbrev PSQ_SH_PEER (n : Nat) : Nat := 0xa1018 + 0x40 * n

/-- `PSQ_SHn_PEER.PEER_ID`, RW, reset 0x000. -/
abbrev PSQ_SH_PEER_PEER_ID (n : Nat) : Fld := ⟨(PSQ_SH_PEER n), 0, 10⟩

/-- `PSQ_SHn_PEER_SEQ` (R74). -/
abbrev PSQ_SH_PEER_SEQ (n : Nat) : Nat := 0xa101c + 0x40 * n

/-- `PSQ_SHn_PEER_SEQ.SEQ`, RW, reset 0x0000_0000. -/
abbrev PSQ_SH_PEER_SEQ_SEQ (n : Nat) : Fld := ⟨(PSQ_SH_PEER_SEQ n), 0, 32⟩

/-- `PSQ_SHn_STATE` (R74). -/
abbrev PSQ_SH_STATE (n : Nat) : Nat := 0xa1020 + 0x40 * n

/-- `PSQ_SHn_STATE.STATE`, RO, reset 0x0. -/
abbrev PSQ_SH_STATE_STATE (n : Nat) : Fld := ⟨(PSQ_SH_STATE n), 0, 3⟩

/-- `PSQ_SHn_STATE.ARMED`, RO, reset 0x0. -/
abbrev PSQ_SH_STATE_ARMED (n : Nat) : Fld := ⟨(PSQ_SH_STATE n), 3, 1⟩

/-- `PSQ_SHn_STATE.REASON`, RO, reset 0x00. -/
abbrev PSQ_SH_STATE_REASON (n : Nat) : Fld := ⟨(PSQ_SH_STATE n), 8, 8⟩

/-- `PSQ_SHn_SEQ` (R74). -/
abbrev PSQ_SH_SEQ (n : Nat) : Nat := 0xa1024 + 0x40 * n

/-- `PSQ_SHn_SEQ.SEQ`, RO, reset 0x0000_0000. -/
abbrev PSQ_SH_SEQ_SEQ (n : Nat) : Fld := ⟨(PSQ_SH_SEQ n), 0, 32⟩

/-- `PSQ_SHn_SEEN` (R74). -/
abbrev PSQ_SH_SEEN (n : Nat) : Nat := 0xa1028 + 0x40 * n

/-- `PSQ_SHn_SEEN.CORES`, RO, reset 0x000. -/
abbrev PSQ_SH_SEEN_CORES (n : Nat) : Fld := ⟨(PSQ_SH_SEEN n), 0, 12⟩

/-- `PSQ_SHn_SEEN.HOST`, RO, reset 0x0. -/
abbrev PSQ_SH_SEEN_HOST (n : Nat) : Fld := ⟨(PSQ_SH_SEEN n), 12, 1⟩

/-- `PSQ_SHn_SEEN.FINISHER`, RO, reset 0x0. -/
abbrev PSQ_SH_SEEN_FINISHER (n : Nat) : Fld := ⟨(PSQ_SH_SEEN n), 13, 1⟩

/-- `PSQ_SHn_SEEN.FAB_COUNT`, RO, reset 0x0. -/
abbrev PSQ_SH_SEEN_FAB_COUNT (n : Nat) : Fld := ⟨(PSQ_SH_SEEN n), 16, 3⟩

/-- `PSQ_SHn_SEEN_FAB01` (R74). -/
abbrev PSQ_SH_SEEN_FAB01 (n : Nat) : Nat := 0xa102c + 0x40 * n

/-- `PSQ_SHn_SEEN_FAB01.ID0`, RO, reset 0x000. -/
abbrev PSQ_SH_SEEN_FAB01_ID0 (n : Nat) : Fld := ⟨(PSQ_SH_SEEN_FAB01 n), 0, 10⟩

/-- `PSQ_SHn_SEEN_FAB01.ID1`, RO, reset 0x000. -/
abbrev PSQ_SH_SEEN_FAB01_ID1 (n : Nat) : Fld := ⟨(PSQ_SH_SEEN_FAB01 n), 16, 10⟩

/-- `PSQ_SHn_SEEN_FAB23` (R74). -/
abbrev PSQ_SH_SEEN_FAB23 (n : Nat) : Nat := 0xa1030 + 0x40 * n

/-- `PSQ_SHn_SEEN_FAB23.ID2`, RO, reset 0x000. -/
abbrev PSQ_SH_SEEN_FAB23_ID2 (n : Nat) : Fld := ⟨(PSQ_SH_SEEN_FAB23 n), 0, 10⟩

/-- `PSQ_SHn_SEEN_FAB23.ID3`, RO, reset 0x000. -/
abbrev PSQ_SH_SEEN_FAB23_ID3 (n : Nat) : Fld := ⟨(PSQ_SH_SEEN_FAB23 n), 16, 10⟩

/-- `PSQ_PGn_ADDR_LO` (R74). -/
abbrev PSQ_PG_ADDR_LO (n : Nat) : Nat := 0xa4000 + 0x10 * n

/-- `PSQ_PGn_ADDR_LO.ADDR`, RW, reset 0x0000_0000. -/
abbrev PSQ_PG_ADDR_LO_ADDR (n : Nat) : Fld := ⟨(PSQ_PG_ADDR_LO n), 0, 32⟩

/-- `PSQ_PGn_ADDR_HI` (R74). -/
abbrev PSQ_PG_ADDR_HI (n : Nat) : Nat := 0xa4004 + 0x10 * n

/-- `PSQ_PGn_ADDR_HI.ADDR`, RW, reset 0x00000. -/
abbrev PSQ_PG_ADDR_HI_ADDR (n : Nat) : Fld := ⟨(PSQ_PG_ADDR_HI n), 0, 20⟩

/-- `PSQ_PGn_ADDR_HI.VALID`, RW, reset 0x0. -/
abbrev PSQ_PG_ADDR_HI_VALID (n : Nat) : Fld := ⟨(PSQ_PG_ADDR_HI n), 31, 1⟩

/-- `PSQ_PGn_STATE` (R74). -/
abbrev PSQ_PG_STATE (n : Nat) : Nat := 0xa4008 + 0x10 * n

/-- `PSQ_PGn_STATE.STATE`, RO, reset 0x0. -/
abbrev PSQ_PG_STATE_STATE (n : Nat) : Fld := ⟨(PSQ_PG_STATE n), 0, 4⟩

/-- `PSQ_PGn_STATE.REASON`, RO, reset 0x00. -/
abbrev PSQ_PG_STATE_REASON (n : Nat) : Fld := ⟨(PSQ_PG_STATE n), 8, 8⟩

/-- `PSQ_PGn_STATE.SHEET`, RO, reset 0x00. -/
abbrev PSQ_PG_STATE_SHEET (n : Nat) : Fld := ⟨(PSQ_PG_STATE n), 16, 6⟩

/-- `PSQ_PGn_CHECK` (R74). -/
abbrev PSQ_PG_CHECK (n : Nat) : Nat := 0xa400c + 0x10 * n

/-- `PSQ_PGn_CHECK.SLOTS_DONE`, RO, reset 0x000000. -/
abbrev PSQ_PG_CHECK_SLOTS_DONE (n : Nat) : Fld := ⟨(PSQ_PG_CHECK n), 0, 24⟩

/-- `PSQ_PGn_CHECK.DONE`, RO, reset 0x0. -/
abbrev PSQ_PG_CHECK_DONE (n : Nat) : Fld := ⟨(PSQ_PG_CHECK n), 31, 1⟩

/-- `STR_PLN_CTRL` (R99). -/
abbrev STR_PLN_CTRL : Nat := 0xb8000

/-- `STR_PLN_CTRL.EN`, RW, reset 0x0. -/
abbrev STR_PLN_CTRL_EN : Fld := ⟨STR_PLN_CTRL, 0, 1⟩

/-- `STR_PLN_CTRL.NVME_EN`, RW, reset 0x0. -/
abbrev STR_PLN_CTRL_NVME_EN : Fld := ⟨STR_PLN_CTRL, 1, 1⟩

/-- `STR_PLN_CTRL.REMOTE_EN`, RW, reset 0x0. -/
abbrev STR_PLN_CTRL_REMOTE_EN : Fld := ⟨STR_PLN_CTRL, 2, 1⟩

/-- `STR_PLN_CTRL.DEVICE_FENCE`, RW, reset 0x0. -/
abbrev STR_PLN_CTRL_DEVICE_FENCE : Fld := ⟨STR_PLN_CTRL, 3, 1⟩

/-- `STR_PLN_CTRL.FLUSH`, WO, reset 0x0. -/
abbrev STR_PLN_CTRL_FLUSH : Fld := ⟨STR_PLN_CTRL, 4, 1⟩

/-- `STR_PLN_ID` (R99). -/
abbrev STR_PLN_ID : Nat := 0xb8004

/-- `STR_PLN_ID.DEV_ID`, RO, reset 0x000. -/
abbrev STR_PLN_ID_DEV_ID : Fld := ⟨STR_PLN_ID, 0, 10⟩

/-- `STR_PLN_MAP_LO` (R99). -/
abbrev STR_PLN_MAP_LO : Nat := 0xb8008

/-- `STR_PLN_MAP_LO.ADDR`, RW, reset 0x0000_0000. -/
abbrev STR_PLN_MAP_LO_ADDR : Fld := ⟨STR_PLN_MAP_LO, 0, 32⟩

/-- `STR_PLN_MAP_HI` (R99). -/
abbrev STR_PLN_MAP_HI : Nat := 0xb800c

/-- `STR_PLN_MAP_HI.ADDR`, RW, reset 0x00. -/
abbrev STR_PLN_MAP_HI_ADDR : Fld := ⟨STR_PLN_MAP_HI, 0, 8⟩

/-- `STR_PLN_FRAME_FIRST` (R99). -/
abbrev STR_PLN_FRAME_FIRST : Nat := 0xb8010

/-- `STR_PLN_FRAME_FIRST.FRAME`, RW, reset 0x00000. -/
abbrev STR_PLN_FRAME_FIRST_FRAME : Fld := ⟨STR_PLN_FRAME_FIRST, 0, 17⟩

/-- `STR_PLN_FRAME_COUNT` (R99). -/
abbrev STR_PLN_FRAME_COUNT : Nat := 0xb8014

/-- `STR_PLN_FRAME_COUNT.COUNT`, RW, reset 0x00000. -/
abbrev STR_PLN_FRAME_COUNT_COUNT : Fld := ⟨STR_PLN_FRAME_COUNT, 0, 18⟩

/-- `STR_PLN_PINNED` (R99). -/
abbrev STR_PLN_PINNED : Nat := 0xb8018

/-- `STR_PLN_PINNED.COUNT`, RO, reset 0x00000. -/
abbrev STR_PLN_PINNED_COUNT : Fld := ⟨STR_PLN_PINNED, 0, 18⟩

/-- `STR_PLN_RCACHE` (R99). -/
abbrev STR_PLN_RCACHE : Nat := 0xb801c

/-- `STR_PLN_RCACHE.FRAMES`, RW, reset 0x00000. -/
abbrev STR_PLN_RCACHE_FRAMES : Fld := ⟨STR_PLN_RCACHE, 0, 18⟩

/-- `STR_PLN_STATUS` (R99). -/
abbrev STR_PLN_STATUS : Nat := 0xb8020

/-- `STR_PLN_STATUS.MAP_ERR`, W1C, reset 0x0. -/
abbrev STR_PLN_STATUS_MAP_ERR : Fld := ⟨STR_PLN_STATUS, 0, 1⟩

/-- `STR_PLN_STATUS.NVME_ERR`, W1C, reset 0x0. -/
abbrev STR_PLN_STATUS_NVME_ERR : Fld := ⟨STR_PLN_STATUS, 1, 1⟩

/-- `STR_PLN_STATUS.PIN_LIMIT`, W1C, reset 0x0. -/
abbrev STR_PLN_STATUS_PIN_LIMIT : Fld := ⟨STR_PLN_STATUS, 2, 1⟩

/-- `STR_PLN_STATUS.DIR_FULL`, W1C, reset 0x0. -/
abbrev STR_PLN_STATUS_DIR_FULL : Fld := ⟨STR_PLN_STATUS, 3, 1⟩

/-- `STR_PLN_STATUS.ABSENT_DISC`, W1C, reset 0x0. -/
abbrev STR_PLN_STATUS_ABSENT_DISC : Fld := ⟨STR_PLN_STATUS, 4, 1⟩

/-- `STR_PLN_STATUS.DESC_ERR`, W1C, reset 0x0. -/
abbrev STR_PLN_STATUS_DESC_ERR : Fld := ⟨STR_PLN_STATUS, 5, 1⟩

/-- `STR_PLN_STATUS.PIN_WRITE`, W1C, reset 0x0. -/
abbrev STR_PLN_STATUS_PIN_WRITE : Fld := ⟨STR_PLN_STATUS, 6, 1⟩

/-- `STR_PLN_STATUS.FIRST`, RO, reset 0x0. -/
abbrev STR_PLN_STATUS_FIRST : Fld := ⟨STR_PLN_STATUS, 16, 4⟩

/-- `STR_PLN_STATUS.OVF`, W1C, reset 0x0. -/
abbrev STR_PLN_STATUS_OVF : Fld := ⟨STR_PLN_STATUS, 20, 1⟩

/-- `STR_PLN_IRQ_EN` (R99). -/
abbrev STR_PLN_IRQ_EN : Nat := 0xb8024

/-- `STR_PLN_IRQ_EN.EN`, RW, reset 0x00. -/
abbrev STR_PLN_IRQ_EN_EN : Fld := ⟨STR_PLN_IRQ_EN, 0, 7⟩

/-- `STR_PLN_FENCE` (R99). -/
abbrev STR_PLN_FENCE : Nat := 0xb8028

/-- `STR_PLN_FENCE.STATION`, RW, reset 0x00. -/
abbrev STR_PLN_FENCE_STATION : Fld := ⟨STR_PLN_FENCE, 0, 8⟩

/-- `STR_PLN_FENCE.FENCED`, RO, reset Fuses. -/
abbrev STR_PLN_FENCE_FENCED : Fld := ⟨STR_PLN_FENCE, 8, 8⟩

/-- `STR_PLN_ADMIT_GO` (R99). -/
abbrev STR_PLN_ADMIT_GO : Nat := 0xb802c

/-- `STR_PLN_ADMIT_GO.PAGE`, WO, reset 0x00. -/
abbrev STR_PLN_ADMIT_GO_PAGE : Fld := ⟨STR_PLN_ADMIT_GO, 0, 8⟩

/-- `STR_PLN_ADMIT_GO.GO`, WO, reset 0x0. -/
abbrev STR_PLN_ADMIT_GO_GO : Fld := ⟨STR_PLN_ADMIT_GO, 8, 1⟩

/-- `STR_PLN_ADMIT` (R99). -/
abbrev STR_PLN_ADMIT : Nat := 0xb8030

/-- `STR_PLN_ADMIT.OVF_MAX`, RO, reset 0x031E. -/
abbrev STR_PLN_ADMIT_OVF_MAX : Fld := ⟨STR_PLN_ADMIT, 0, 16⟩

/-- `STR_PLN_ADMIT.BUSY`, RO, reset 0x0. -/
abbrev STR_PLN_ADMIT_BUSY : Fld := ⟨STR_PLN_ADMIT, 16, 1⟩

/-- `STR_PLN_ADMIT_FAIL` (R99). -/
abbrev STR_PLN_ADMIT_FAIL : Nat := 0xb8034

/-- `STR_PLN_ADMIT_FAIL.PAGE`, RO, reset 0x00. -/
abbrev STR_PLN_ADMIT_FAIL_PAGE : Fld := ⟨STR_PLN_ADMIT_FAIL, 0, 8⟩

/-- `STR_PLN_ADMIT_FAIL.STATION`, RO, reset 0x0. -/
abbrev STR_PLN_ADMIT_FAIL_STATION : Fld := ⟨STR_PLN_ADMIT_FAIL, 8, 3⟩

/-- `STR_PLN_ADMIT_FAIL.BAND`, RO, reset 0x00000. -/
abbrev STR_PLN_ADMIT_FAIL_BAND : Fld := ⟨STR_PLN_ADMIT_FAIL, 12, 20⟩

/-- `STR_PLN_ADMIT_COUNT` (R99). -/
abbrev STR_PLN_ADMIT_COUNT : Nat := 0xb8038

/-- `STR_PLN_ADMIT_COUNT.OVF_COUNT`, RO, reset 0x0000. -/
abbrev STR_PLN_ADMIT_COUNT_OVF_COUNT : Fld := ⟨STR_PLN_ADMIT_COUNT, 0, 16⟩

/-- `STR_PLN_DIR_USED` (R99). -/
abbrev STR_PLN_DIR_USED : Nat := 0xb803c

/-- `STR_PLN_DIR_USED.COUNT`, RO, reset 0x000000. -/
abbrev STR_PLN_DIR_USED_COUNT : Fld := ⟨STR_PLN_DIR_USED, 0, 21⟩

/-- `STR_PLN_ABSENT_DISCr` (R99). -/
abbrev STR_PLN_ABSENT_DISC (r : Nat) : Nat := 0xb8040 + 0x4 * r

/-- `STR_PLN_ABSENT_DISCr.COUNT`, RO, reset 0x0000_0000. -/
abbrev STR_PLN_ABSENT_DISC_COUNT (r : Nat) : Fld := ⟨(STR_PLN_ABSENT_DISC r), 0, 32⟩

/-- `STR_PLN_CNT_IN_EVICT` (R99). -/
abbrev STR_PLN_CNT_IN_EVICT : Nat := 0xb8080

/-- `STR_PLN_CNT_IN_EVICT.COUNT`, RO, reset 0x0000_0000. -/
abbrev STR_PLN_CNT_IN_EVICT_COUNT : Fld := ⟨STR_PLN_CNT_IN_EVICT, 0, 32⟩

/-- `STR_PLN_CNT_RECALL` (R99). -/
abbrev STR_PLN_CNT_RECALL : Nat := 0xb8084

/-- `STR_PLN_CNT_RECALL.COUNT`, RO, reset 0x0000_0000. -/
abbrev STR_PLN_CNT_RECALL_COUNT : Fld := ⟨STR_PLN_CNT_RECALL, 0, 32⟩

/-- `STR_PLN_CNT_NVME_RD` (R99). -/
abbrev STR_PLN_CNT_NVME_RD : Nat := 0xb8088

/-- `STR_PLN_CNT_NVME_RD.COUNT`, RO, reset 0x0000_0000. -/
abbrev STR_PLN_CNT_NVME_RD_COUNT : Fld := ⟨STR_PLN_CNT_NVME_RD, 0, 32⟩

/-- `STR_PLN_CNT_NVME_WR` (R99). -/
abbrev STR_PLN_CNT_NVME_WR : Nat := 0xb808c

/-- `STR_PLN_CNT_NVME_WR.COUNT`, RO, reset 0x0000_0000. -/
abbrev STR_PLN_CNT_NVME_WR_COUNT : Fld := ⟨STR_PLN_CNT_NVME_WR, 0, 32⟩

/-- `STR_PLN_CNT_UNCACHED` (R99). -/
abbrev STR_PLN_CNT_UNCACHED : Nat := 0xb8090

/-- `STR_PLN_CNT_UNCACHED.COUNT`, RO, reset 0x0000_0000. -/
abbrev STR_PLN_CNT_UNCACHED_COUNT : Fld := ⟨STR_PLN_CNT_UNCACHED, 0, 32⟩

/-- `STR_PLN_NVME_CFG` (R99). -/
abbrev STR_PLN_NVME_CFG : Nat := 0xb80a0

/-- `STR_PLN_NVME_CFG.NS_COUNT`, RW, reset 0x0. -/
abbrev STR_PLN_NVME_CFG_NS_COUNT : Fld := ⟨STR_PLN_NVME_CFG, 0, 2⟩

/-- `STR_PLN_NVME_CFG.BIFURCATE`, RW, reset Strap. -/
abbrev STR_PLN_NVME_CFG_BIFURCATE : Fld := ⟨STR_PLN_NVME_CFG, 2, 1⟩

/-- `CDC_CTRL` (R118). -/
abbrev CDC_CTRL : Nat := 0xc0000

/-- `CDC_CTRL.EN`, RW, reset 0x0. -/
abbrev CDC_CTRL_EN : Fld := ⟨CDC_CTRL, 0, 1⟩

/-- `CDC_STATUS` (R118). -/
abbrev CDC_STATUS : Nat := 0xc0004

/-- `CDC_STATUS.VERIFY_RAW`, W1C, reset 0x0. -/
abbrev CDC_STATUS_VERIFY_RAW : Fld := ⟨CDC_STATUS, 0, 1⟩

/-- `CDC_STATUS.JOB_ERR`, W1C, reset 0x0. -/
abbrev CDC_STATUS_JOB_ERR : Fld := ⟨CDC_STATUS, 1, 1⟩

/-- `CDC_STATUS.STREAM_MM`, W1C, reset 0x0. -/
abbrev CDC_STATUS_STREAM_MM : Fld := ⟨CDC_STATUS, 2, 1⟩

/-- `CDC_STATUS.CHECK_MM`, W1C, reset 0x0. -/
abbrev CDC_STATUS_CHECK_MM : Fld := ⟨CDC_STATUS, 3, 1⟩

/-- `CDC_STATUS.MM_LOST`, W1C, reset 0x0. -/
abbrev CDC_STATUS_MM_LOST : Fld := ⟨CDC_STATUS, 4, 1⟩

/-- `CDC_STATUS.FIRST`, RO, reset 0x0. -/
abbrev CDC_STATUS_FIRST : Fld := ⟨CDC_STATUS, 16, 4⟩

/-- `CDC_STATUS.OVF`, W1C, reset 0x0. -/
abbrev CDC_STATUS_OVF : Fld := ⟨CDC_STATUS, 20, 1⟩

/-- `CDC_IRQ_EN` (R118). -/
abbrev CDC_IRQ_EN : Nat := 0xc0008

/-- `CDC_IRQ_EN.EN`, RW, reset 0x00. -/
abbrev CDC_IRQ_EN_EN : Fld := ⟨CDC_IRQ_EN, 0, 5⟩

/-- `CDC_Lm_CTRL` (R118). -/
abbrev CDC_L_CTRL (m : Nat) : Nat := 0xc0100 + 0x40 * m

/-- `CDC_Lm_CTRL.GO`, WO, reset 0x0. -/
abbrev CDC_L_CTRL_GO (m : Nat) : Fld := ⟨(CDC_L_CTRL m), 0, 1⟩

/-- `CDC_Lm_CTRL.FLUSH`, WO, reset 0x0. -/
abbrev CDC_L_CTRL_FLUSH (m : Nat) : Fld := ⟨(CDC_L_CTRL m), 1, 1⟩

/-- `CDC_Lm_CTRL.SRC_KIND`, RW, reset 0x0. -/
abbrev CDC_L_CTRL_SRC_KIND (m : Nat) : Fld := ⟨(CDC_L_CTRL m), 2, 2⟩

/-- `CDC_Lm_STATUS` (R118). -/
abbrev CDC_L_STATUS (m : Nat) : Nat := 0xc0104 + 0x40 * m

/-- `CDC_Lm_STATUS.BUSY`, RO, reset 0x0. -/
abbrev CDC_L_STATUS_BUSY (m : Nat) : Fld := ⟨(CDC_L_STATUS m), 0, 1⟩

/-- `CDC_Lm_STATUS.DONE`, RO, reset 0x0. -/
abbrev CDC_L_STATUS_DONE (m : Nat) : Fld := ⟨(CDC_L_STATUS m), 1, 1⟩

/-- `CDC_Lm_STATUS.FLUSHED`, RO, reset 0x0. -/
abbrev CDC_L_STATUS_FLUSHED (m : Nat) : Fld := ⟨(CDC_L_STATUS m), 2, 1⟩

/-- `CDC_Lm_STATUS.GO_IGNORED`, RO, reset 0x0. -/
abbrev CDC_L_STATUS_GO_IGNORED (m : Nat) : Fld := ⟨(CDC_L_STATUS m), 3, 1⟩

/-- `CDC_Lm_STATUS.ERR`, RO, reset 0x0. -/
abbrev CDC_L_STATUS_ERR (m : Nat) : Fld := ⟨(CDC_L_STATUS m), 8, 4⟩

/-- `CDC_Lm_SRC_LO` (R118). -/
abbrev CDC_L_SRC_LO (m : Nat) : Nat := 0xc0108 + 0x40 * m

/-- `CDC_Lm_SRC_LO.ADDR`, RW, reset 0x0000_0000. -/
abbrev CDC_L_SRC_LO_ADDR (m : Nat) : Fld := ⟨(CDC_L_SRC_LO m), 0, 32⟩

/-- `CDC_Lm_SRC_HI` (R118). -/
abbrev CDC_L_SRC_HI (m : Nat) : Nat := 0xc010c + 0x40 * m

/-- `CDC_Lm_SRC_HI.ADDR`, RW, reset 0x0000_0000. -/
abbrev CDC_L_SRC_HI_ADDR (m : Nat) : Fld := ⟨(CDC_L_SRC_HI m), 0, 32⟩

/-- `CDC_Lm_SRC_STRIDE` (R118). -/
abbrev CDC_L_SRC_STRIDE (m : Nat) : Nat := 0xc0110 + 0x40 * m

/-- `CDC_Lm_SRC_STRIDE.BYTES`, RW, reset 0x000000. -/
abbrev CDC_L_SRC_STRIDE_BYTES (m : Nat) : Fld := ⟨(CDC_L_SRC_STRIDE m), 0, 24⟩

/-- `CDC_Lm_GEOM` (R118). -/
abbrev CDC_L_GEOM (m : Nat) : Nat := 0xc0114 + 0x40 * m

/-- `CDC_Lm_GEOM.WIDTH_TILES`, RW, reset 0x000. -/
abbrev CDC_L_GEOM_WIDTH_TILES (m : Nat) : Fld := ⟨(CDC_L_GEOM m), 0, 10⟩

/-- `CDC_Lm_GEOM.FIRST_BAND`, RW, reset 0x0000. -/
abbrev CDC_L_GEOM_FIRST_BAND (m : Nat) : Fld := ⟨(CDC_L_GEOM m), 16, 16⟩

/-- `CDC_Lm_LINES` (R118). -/
abbrev CDC_L_LINES (m : Nat) : Nat := 0xc0118 + 0x40 * m

/-- `CDC_Lm_LINES.LINES`, RW, reset 0x000000. -/
abbrev CDC_L_LINES_LINES (m : Nat) : Fld := ⟨(CDC_L_LINES m), 0, 24⟩

/-- `CDC_Lm_OVF_INDEX` (R118). -/
abbrev CDC_L_OVF_INDEX (m : Nat) : Nat := 0xc011c + 0x40 * m

/-- `CDC_Lm_OVF_INDEX.INDEX`, RW, reset 0x0000_0000. -/
abbrev CDC_L_OVF_INDEX_INDEX (m : Nat) : Fld := ⟨(CDC_L_OVF_INDEX m), 0, 32⟩

/-- `CDC_Lm_SLOT_LO` (R118). -/
abbrev CDC_L_SLOT_LO (m : Nat) : Nat := 0xc0120 + 0x40 * m

/-- `CDC_Lm_SLOT_LO.ADDR`, RW, reset 0x0000_0000. -/
abbrev CDC_L_SLOT_LO_ADDR (m : Nat) : Fld := ⟨(CDC_L_SLOT_LO m), 0, 32⟩

/-- `CDC_Lm_SLOT_HI` (R118). -/
abbrev CDC_L_SLOT_HI (m : Nat) : Nat := 0xc0124 + 0x40 * m

/-- `CDC_Lm_SLOT_HI.ADDR`, RW, reset 0x00000. -/
abbrev CDC_L_SLOT_HI_ADDR (m : Nat) : Fld := ⟨(CDC_L_SLOT_HI m), 0, 20⟩

/-- `CDC_Lm_OVF_LO` (R118). -/
abbrev CDC_L_OVF_LO (m : Nat) : Nat := 0xc0128 + 0x40 * m

/-- `CDC_Lm_OVF_LO.ADDR`, RW, reset 0x0000_0000. -/
abbrev CDC_L_OVF_LO_ADDR (m : Nat) : Fld := ⟨(CDC_L_OVF_LO m), 0, 32⟩

/-- `CDC_Lm_OVF_HI` (R118). -/
abbrev CDC_L_OVF_HI (m : Nat) : Nat := 0xc012c + 0x40 * m

/-- `CDC_Lm_OVF_HI.ADDR`, RW, reset 0x00000. -/
abbrev CDC_L_OVF_HI_ADDR (m : Nat) : Fld := ⟨(CDC_L_OVF_HI m), 0, 20⟩

/-- `CDC_Lm_BAND_LO` (R118). -/
abbrev CDC_L_BAND_LO (m : Nat) : Nat := 0xc0130 + 0x40 * m

/-- `CDC_Lm_BAND_LO.ADDR`, RW, reset 0x0000_0000. -/
abbrev CDC_L_BAND_LO_ADDR (m : Nat) : Fld := ⟨(CDC_L_BAND_LO m), 0, 32⟩

/-- `CDC_Lm_BAND_HI` (R118). -/
abbrev CDC_L_BAND_HI (m : Nat) : Nat := 0xc0134 + 0x40 * m

/-- `CDC_Lm_BAND_HI.ADDR`, RW, reset 0x00000. -/
abbrev CDC_L_BAND_HI_ADDR (m : Nat) : Fld := ⟨(CDC_L_BAND_HI m), 0, 20⟩

/-- `CDC_Lm_LINES_DONE` (R118). -/
abbrev CDC_L_LINES_DONE (m : Nat) : Nat := 0xc0138 + 0x40 * m

/-- `CDC_Lm_LINES_DONE.LINES`, RO, reset 0x000000. -/
abbrev CDC_L_LINES_DONE_LINES (m : Nat) : Fld := ⟨(CDC_L_LINES_DONE m), 0, 24⟩

/-- `CDC_Lm_MAXOVF` (R118). -/
abbrev CDC_L_MAXOVF (m : Nat) : Nat := 0xc013c + 0x40 * m

/-- `CDC_Lm_MAXOVF.COUNT`, RO, reset 0x0000. -/
abbrev CDC_L_MAXOVF_COUNT (m : Nat) : Fld := ⟨(CDC_L_MAXOVF m), 0, 16⟩

/-- `CDC_Lm_MAXOVF.BAND`, RO, reset 0x0000. -/
abbrev CDC_L_MAXOVF_BAND (m : Nat) : Fld := ⟨(CDC_L_MAXOVF m), 16, 16⟩

/-- `CDC_Lm_CNT_TILES` (R118). -/
abbrev CDC_L_CNT_TILES (m : Nat) : Nat := 0xc0200 + 0x10 * m

/-- `CDC_Lm_CNT_TILES.COUNT`, RO, reset 0x0000_0000. -/
abbrev CDC_L_CNT_TILES_COUNT (m : Nat) : Fld := ⟨(CDC_L_CNT_TILES m), 0, 32⟩

/-- `CDC_Lm_CNT_NOFIT` (R118). -/
abbrev CDC_L_CNT_NOFIT (m : Nat) : Nat := 0xc0204 + 0x10 * m

/-- `CDC_Lm_CNT_NOFIT.COUNT`, RO, reset 0x0000_0000. -/
abbrev CDC_L_CNT_NOFIT_COUNT (m : Nat) : Fld := ⟨(CDC_L_CNT_NOFIT m), 0, 32⟩

/-- `CDC_Lm_CNT_VERIFY` (R118). -/
abbrev CDC_L_CNT_VERIFY (m : Nat) : Nat := 0xc0208 + 0x10 * m

/-- `CDC_Lm_CNT_VERIFY.COUNT`, RO, reset 0x0000_0000. -/
abbrev CDC_L_CNT_VERIFY_COUNT (m : Nat) : Fld := ⟨(CDC_L_CNT_VERIFY m), 0, 32⟩

/-- `CDC_Lm_CNT_FLUSH` (R118). -/
abbrev CDC_L_CNT_FLUSH (m : Nat) : Nat := 0xc020c + 0x10 * m

/-- `CDC_Lm_CNT_FLUSH.COUNT`, RO, reset 0x0000_0000. -/
abbrev CDC_L_CNT_FLUSH_COUNT (m : Nat) : Fld := ⟨(CDC_L_CNT_FLUSH m), 0, 32⟩

/-- `CDC_CNT_MODEx` (R118). -/
abbrev CDC_CNT_MODE (x : Nat) : Nat := 0xc0300 + 0x4 * x

/-- `CDC_CNT_MODEx.COUNT`, RO, reset 0x0000_0000. -/
abbrev CDC_CNT_MODE_COUNT (x : Nat) : Fld := ⟨(CDC_CNT_MODE x), 0, 32⟩

/-- `CDC_Sk_CNT_TILES` (R118). -/
abbrev CDC_S_CNT_TILES (k : Nat) : Nat := 0xc0400 + 0x10 * k

/-- `CDC_Sk_CNT_TILES.COUNT`, RO, reset 0x0000_0000. -/
abbrev CDC_S_CNT_TILES_COUNT (k : Nat) : Fld := ⟨(CDC_S_CNT_TILES k), 0, 32⟩

/-- `CDC_Sk_CNT_RAW` (R118). -/
abbrev CDC_S_CNT_RAW (k : Nat) : Nat := 0xc0404 + 0x10 * k

/-- `CDC_Sk_CNT_RAW.COUNT`, RO, reset 0x0000_0000. -/
abbrev CDC_S_CNT_RAW_COUNT (k : Nat) : Fld := ⟨(CDC_S_CNT_RAW k), 0, 32⟩

/-- `CDC_Sk_CNT_MM` (R118). -/
abbrev CDC_S_CNT_MM (k : Nat) : Nat := 0xc0408 + 0x10 * k

/-- `CDC_Sk_CNT_MM.COUNT`, RO, reset 0x0000_0000. -/
abbrev CDC_S_CNT_MM_COUNT (k : Nat) : Fld := ⟨(CDC_S_CNT_MM k), 0, 32⟩

/-- `CDC_Sk_CNT_FLUSH` (R118). -/
abbrev CDC_S_CNT_FLUSH (k : Nat) : Nat := 0xc040c + 0x10 * k

/-- `CDC_Sk_CNT_FLUSH.COUNT`, RO, reset 0x0000_0000. -/
abbrev CDC_S_CNT_FLUSH_COUNT (k : Nat) : Fld := ⟨(CDC_S_CNT_FLUSH k), 0, 32⟩

/-- `CDC_CHK_CNT_TILES` (R118). -/
abbrev CDC_CHK_CNT_TILES : Nat := 0xc0500

/-- `CDC_CHK_CNT_TILES.COUNT`, RO, reset 0x0000_0000. -/
abbrev CDC_CHK_CNT_TILES_COUNT : Fld := ⟨CDC_CHK_CNT_TILES, 0, 32⟩

/-- `CDC_CHK_CNT_MM` (R118). -/
abbrev CDC_CHK_CNT_MM : Nat := 0xc0504

/-- `CDC_CHK_CNT_MM.COUNT`, RO, reset 0x0000_0000. -/
abbrev CDC_CHK_CNT_MM_COUNT : Fld := ⟨CDC_CHK_CNT_MM, 0, 32⟩

/-- `CDC_MM_STATUS` (R118). -/
abbrev CDC_MM_STATUS : Nat := 0xc0600

/-- `CDC_MM_STATUS.COUNT`, RO, reset 0x00. -/
abbrev CDC_MM_STATUS_COUNT : Fld := ⟨CDC_MM_STATUS, 0, 5⟩

/-- `CDC_MM_INFO0` (R118). -/
abbrev CDC_MM_INFO0 : Nat := 0xc0604

/-- `CDC_MM_INFO0.PATH`, RO, reset 0x0. -/
abbrev CDC_MM_INFO0_PATH : Fld := ⟨CDC_MM_INFO0, 0, 1⟩

/-- `CDC_MM_INFO0.STATION`, RO, reset 0x0. -/
abbrev CDC_MM_INFO0_STATION : Fld := ⟨CDC_MM_INFO0, 1, 3⟩

/-- `CDC_MM_INFO0.KIND`, RO, reset 0x0. -/
abbrev CDC_MM_INFO0_KIND : Fld := ⟨CDC_MM_INFO0, 4, 2⟩

/-- `CDC_MM_INFO0.PAGE`, RO, reset 0x00. -/
abbrev CDC_MM_INFO0_PAGE : Fld := ⟨CDC_MM_INFO0, 8, 8⟩

/-- `CDC_MM_INFO0.SHEET`, RO, reset 0x00. -/
abbrev CDC_MM_INFO0_SHEET : Fld := ⟨CDC_MM_INFO0, 16, 6⟩

/-- `CDC_MM_INFO0.COMMITTED`, RO, reset 0x0. -/
abbrev CDC_MM_INFO0_COMMITTED : Fld := ⟨CDC_MM_INFO0, 22, 1⟩

/-- `CDC_MM_INFO1` (R118). -/
abbrev CDC_MM_INFO1 : Nat := 0xc0608

/-- `CDC_MM_INFO1.COLUMN`, RO, reset 0x000. -/
abbrev CDC_MM_INFO1_COLUMN : Fld := ⟨CDC_MM_INFO1, 0, 10⟩

/-- `CDC_MM_INFO1.TILE_ROW`, RO, reset 0x00000. -/
abbrev CDC_MM_INFO1_TILE_ROW : Fld := ⟨CDC_MM_INFO1, 12, 20⟩

/-- `CDC_MM_POP` (R118). -/
abbrev CDC_MM_POP : Nat := 0xc060c

/-- `CDC_MM_POP.POP`, WO, reset 0x0. -/
abbrev CDC_MM_POP_POP : Fld := ⟨CDC_MM_POP, 0, 1⟩

/-- `STR_CTRL` (R144). -/
abbrev STR_CTRL : Nat := 0xb0000

/-- `STR_CTRL.EN`, RW, reset 0x0. -/
abbrev STR_CTRL_EN : Fld := ⟨STR_CTRL, 0, 1⟩

/-- `STR_STATUS` (R144). -/
abbrev STR_STATUS : Nat := 0xb0004

/-- `STR_STATUS.UNDERRUN`, W1C, reset 0x0. -/
abbrev STR_STATUS_UNDERRUN : Fld := ⟨STR_STATUS, 0, 1⟩

/-- `STR_STATUS.BUF_ERR`, W1C, reset 0x0. -/
abbrev STR_STATUS_BUF_ERR : Fld := ⟨STR_STATUS, 1, 1⟩

/-- `STR_STATUS.READ_ERR`, W1C, reset 0x0. -/
abbrev STR_STATUS_READ_ERR : Fld := ⟨STR_STATUS, 2, 1⟩

/-- `STR_STATUS.QUEUE_ERR`, W1C, reset 0x0. -/
abbrev STR_STATUS_QUEUE_ERR : Fld := ⟨STR_STATUS, 3, 1⟩

/-- `STR_STATUS.FIRST`, RO, reset 0x0. -/
abbrev STR_STATUS_FIRST : Fld := ⟨STR_STATUS, 16, 4⟩

/-- `STR_STATUS.OVF`, W1C, reset 0x0. -/
abbrev STR_STATUS_OVF : Fld := ⟨STR_STATUS, 20, 1⟩

/-- `STR_IRQ_EN` (R144). -/
abbrev STR_IRQ_EN : Nat := 0xb0008

/-- `STR_IRQ_EN.EN`, RW, reset 0x0. -/
abbrev STR_IRQ_EN_EN : Fld := ⟨STR_IRQ_EN, 0, 4⟩

/-- `STR_FIRST_STATION` (R144). -/
abbrev STR_FIRST_STATION : Nat := 0xb000c

/-- `STR_FIRST_STATION.STATION`, RO, reset 0x0. -/
abbrev STR_FIRST_STATION_STATION : Fld := ⟨STR_FIRST_STATION, 0, 3⟩

/-- `STR_Sk_CTRL` (R144). -/
abbrev STR_S_CTRL (k : Nat) : Nat := 0xb0100 + 0x40 * k

/-- `STR_Sk_CTRL.EN`, RW, reset 0x0. -/
abbrev STR_S_CTRL_EN (k : Nat) : Fld := ⟨(STR_S_CTRL k), 0, 1⟩

/-- `STR_Sk_CTRL.WITHDRAW`, WO, reset 0x0. -/
abbrev STR_S_CTRL_WITHDRAW (k : Nat) : Fld := ⟨(STR_S_CTRL k), 1, 1⟩

/-- `STR_Sk_CTRL.FIRST_BANK`, RW, reset 0x00. -/
abbrev STR_S_CTRL_FIRST_BANK (k : Nat) : Fld := ⟨(STR_S_CTRL k), 8, 6⟩

/-- `STR_Sk_STATE` (R144). -/
abbrev STR_S_STATE (k : Nat) : Nat := 0xb0104 + 0x40 * k

/-- `STR_Sk_STATE.HALF0`, RO, reset 0x0. -/
abbrev STR_S_STATE_HALF0 (k : Nat) : Fld := ⟨(STR_S_STATE k), 0, 2⟩

/-- `STR_Sk_STATE.HALF1`, RO, reset 0x0. -/
abbrev STR_S_STATE_HALF1 (k : Nat) : Fld := ⟨(STR_S_STATE k), 2, 2⟩

/-- `STR_Sk_STATE.ARMED`, RO, reset 0x0. -/
abbrev STR_S_STATE_ARMED (k : Nat) : Fld := ⟨(STR_S_STATE k), 4, 1⟩

/-- `STR_Sk_STATE.PAD`, RO, reset 0x0. -/
abbrev STR_S_STATE_PAD (k : Nat) : Fld := ⟨(STR_S_STATE k), 5, 1⟩

/-- `STR_Sk_STATE.QCOUNT`, RO, reset 0x0. -/
abbrev STR_S_STATE_QCOUNT (k : Nat) : Fld := ⟨(STR_S_STATE k), 6, 2⟩

/-- `STR_Sk_STATE.INFLIGHT`, RO, reset 0x0. -/
abbrev STR_S_STATE_INFLIGHT (k : Nat) : Fld := ⟨(STR_S_STATE k), 8, 4⟩

/-- `STR_Sk_Q_TIME_LO` (R144). -/
abbrev STR_S_Q_TIME_LO (k : Nat) : Nat := 0xb0108 + 0x40 * k

/-- `STR_Sk_Q_TIME_LO.TIME`, RW, reset 0x0000_0000. -/
abbrev STR_S_Q_TIME_LO_TIME (k : Nat) : Fld := ⟨(STR_S_Q_TIME_LO k), 0, 32⟩

/-- `STR_Sk_Q_TIME_HI` (R144). -/
abbrev STR_S_Q_TIME_HI (k : Nat) : Nat := 0xb010c + 0x40 * k

/-- `STR_Sk_Q_TIME_HI.TIME`, RW, reset 0x0000_0000. -/
abbrev STR_S_Q_TIME_HI_TIME (k : Nat) : Fld := ⟨(STR_S_Q_TIME_HI k), 0, 32⟩

/-- `STR_Sk_Q_PUSH` (R144). -/
abbrev STR_S_Q_PUSH (k : Nat) : Nat := 0xb0110 + 0x40 * k

/-- `STR_Sk_Q_PUSH.PAGE`, WO, reset 0x00. -/
abbrev STR_S_Q_PUSH_PAGE (k : Nat) : Fld := ⟨(STR_S_Q_PUSH k), 0, 8⟩

/-- `STR_Sk_Q_PUSH.TAG`, WO, reset 0x00. -/
abbrev STR_S_Q_PUSH_TAG (k : Nat) : Fld := ⟨(STR_S_Q_PUSH k), 8, 6⟩

/-- `STR_Sk_Q_PUSH.PUSH`, WO, reset 0x0. -/
abbrev STR_S_Q_PUSH_PUSH (k : Nat) : Fld := ⟨(STR_S_Q_PUSH k), 31, 1⟩

/-- `STR_Sk_CUR` (R144). -/
abbrev STR_S_CUR (k : Nat) : Nat := 0xb0114 + 0x40 * k

/-- `STR_Sk_CUR.PAGE`, RO, reset 0x00. -/
abbrev STR_S_CUR_PAGE (k : Nat) : Fld := ⟨(STR_S_CUR k), 0, 8⟩

/-- `STR_Sk_CUR.TAG`, RO, reset 0x00. -/
abbrev STR_S_CUR_TAG (k : Nat) : Fld := ⟨(STR_S_CUR k), 8, 6⟩

/-- `STR_Sk_CUR.BAND`, RO, reset 0x0000. -/
abbrev STR_S_CUR_BAND (k : Nat) : Fld := ⟨(STR_S_CUR k), 16, 16⟩

/-- `STR_Sk_CNT_BURSTS` (R144). -/
abbrev STR_S_CNT_BURSTS (k : Nat) : Nat := 0xb0118 + 0x40 * k

/-- `STR_Sk_CNT_BURSTS.COUNT`, RO, reset 0x0000_0000. -/
abbrev STR_S_CNT_BURSTS_COUNT (k : Nat) : Fld := ⟨(STR_S_CNT_BURSTS k), 0, 32⟩

/-- `STR_Sk_CNT_WDRAW` (R144). -/
abbrev STR_S_CNT_WDRAW (k : Nat) : Nat := 0xb011c + 0x40 * k

/-- `STR_Sk_CNT_WDRAW.COUNT`, RO, reset 0x0000_0000. -/
abbrev STR_S_CNT_WDRAW_COUNT (k : Nat) : Fld := ⟨(STR_S_CNT_WDRAW k), 0, 32⟩

/-- `STR_Sk_CNT_UNDERRUN` (R144). -/
abbrev STR_S_CNT_UNDERRUN (k : Nat) : Nat := 0xb0120 + 0x40 * k

/-- `STR_Sk_CNT_UNDERRUN.COUNT`, RO, reset 0x0000_0000. -/
abbrev STR_S_CNT_UNDERRUN_COUNT (k : Nat) : Fld := ⟨(STR_S_CNT_UNDERRUN k), 0, 32⟩

/-- `STR_Sk_CNT_BANDS` (R144). -/
abbrev STR_S_CNT_BANDS (k : Nat) : Nat := 0xb0124 + 0x40 * k

/-- `STR_Sk_CNT_BANDS.COUNT`, RO, reset 0x0000_0000. -/
abbrev STR_S_CNT_BANDS_COUNT (k : Nat) : Fld := ⟨(STR_S_CNT_BANDS k), 0, 32⟩

/-- `VALE_CTRL` (R145). -/
abbrev VALE_CTRL : Nat := 0x90000

/-- `VALE_CTRL.CONF_CLR`, WO, reset 0x0. -/
abbrev VALE_CTRL_CONF_CLR : Fld := ⟨VALE_CTRL, 0, 1⟩

/-- `VALE_STATUS` (R145). -/
abbrev VALE_STATUS : Nat := 0x90004

/-- `VALE_STATUS.UNCORR`, W1C, reset 0x0. -/
abbrev VALE_STATUS_UNCORR : Fld := ⟨VALE_STATUS, 0, 1⟩

/-- `VALE_STATUS.TBL_PARITY`, W1C, reset 0x0. -/
abbrev VALE_STATUS_TBL_PARITY : Fld := ⟨VALE_STATUS, 1, 1⟩

/-- `VALE_STATUS.XBANK`, W1C, reset 0x0. -/
abbrev VALE_STATUS_XBANK : Fld := ⟨VALE_STATUS, 2, 1⟩

/-- `VALE_STATUS.AREA_WRITE`, W1C, reset 0x0. -/
abbrev VALE_STATUS_AREA_WRITE : Fld := ⟨VALE_STATUS, 3, 1⟩

/-- `VALE_STATUS.FIRST`, RO, reset 0x0. -/
abbrev VALE_STATUS_FIRST : Fld := ⟨VALE_STATUS, 16, 4⟩

/-- `VALE_STATUS.OVF`, W1C, reset 0x0. -/
abbrev VALE_STATUS_OVF : Fld := ⟨VALE_STATUS, 20, 1⟩

/-- `VALE_IRQ_EN` (R145). -/
abbrev VALE_IRQ_EN : Nat := 0x90008

/-- `VALE_IRQ_EN.EN`, RW, reset 0x0. -/
abbrev VALE_IRQ_EN_EN : Fld := ⟨VALE_IRQ_EN, 0, 4⟩

/-- `VALE_ERR_INFO` (R145). -/
abbrev VALE_ERR_INFO : Nat := 0x9000c

/-- `VALE_ERR_INFO.OFFSET`, RO, reset 0x000_0000. -/
abbrev VALE_ERR_INFO_OFFSET : Fld := ⟨VALE_ERR_INFO, 0, 26⟩

/-- `VALE_ERR_INFO.WRITE`, RO, reset 0x0. -/
abbrev VALE_ERR_INFO_WRITE : Fld := ⟨VALE_ERR_INFO, 26, 1⟩

/-- `VALE_ERR_INFO.MASTER`, RO, reset 0x0. -/
abbrev VALE_ERR_INFO_MASTER : Fld := ⟨VALE_ERR_INFO, 27, 4⟩

/-- `VALE_CNT_CORR` (R145). -/
abbrev VALE_CNT_CORR : Nat := 0x90010

/-- `VALE_CNT_CORR.COUNT`, RO, reset 0x0000_0000. -/
abbrev VALE_CNT_CORR_COUNT : Fld := ⟨VALE_CNT_CORR, 0, 32⟩

/-- `VALE_CNT_SPLIT` (R145). -/
abbrev VALE_CNT_SPLIT : Nat := 0x90014

/-- `VALE_CNT_SPLIT.COUNT`, RO, reset 0x0000_0000. -/
abbrev VALE_CNT_SPLIT_COUNT : Fld := ⟨VALE_CNT_SPLIT, 0, 32⟩

/-- `VALE_CONFLICTm` (R145). -/
abbrev VALE_CONFLICT (m : Nat) : Nat := 0x90100 + 0x4 * m

/-- `VALE_CONFLICTm.COUNT`, RO, reset 0x0000_0000. -/
abbrev VALE_CONFLICT_COUNT (m : Nat) : Fld := ⟨(VALE_CONFLICT m), 0, 32⟩

/-- `DMA_STATUS` (R146). -/
abbrev DMA_STATUS : Nat := 0x80000

/-- `DMA_STATUS.ERR`, W1C, reset 0x0000. -/
abbrev DMA_STATUS_ERR : Fld := ⟨DMA_STATUS, 0, 16⟩

/-- `DMA_STATUS.FIRST`, RO, reset 0x0. -/
abbrev DMA_STATUS_FIRST : Fld := ⟨DMA_STATUS, 16, 4⟩

/-- `DMA_STATUS.OVF`, W1C, reset 0x0. -/
abbrev DMA_STATUS_OVF : Fld := ⟨DMA_STATUS, 20, 1⟩

/-- `DMA_IRQ_EN` (R146). -/
abbrev DMA_IRQ_EN : Nat := 0x80004

/-- `DMA_IRQ_EN.EN`, RW, reset 0x0000. -/
abbrev DMA_IRQ_EN_EN : Fld := ⟨DMA_IRQ_EN, 0, 16⟩

/-- `DMA_DONE` (R146). -/
abbrev DMA_DONE : Nat := 0x80008

/-- `DMA_DONE.DONE`, W1C, reset 0x0000. -/
abbrev DMA_DONE_DONE : Fld := ⟨DMA_DONE, 0, 16⟩

/-- `DMA_DONE_IRQ_EN` (R146). -/
abbrev DMA_DONE_IRQ_EN : Nat := 0x8000c

/-- `DMA_DONE_IRQ_EN.EN`, RW, reset 0x0000. -/
abbrev DMA_DONE_IRQ_EN_EN : Fld := ⟨DMA_DONE_IRQ_EN, 0, 16⟩

/-- `DMA_BUSY` (R146). -/
abbrev DMA_BUSY : Nat := 0x80010

/-- `DMA_BUSY.BUSY`, RO, reset 0x0000. -/
abbrev DMA_BUSY_BUSY : Fld := ⟨DMA_BUSY, 0, 16⟩

/-- `DMA_Dn_CTRL` (R146). -/
abbrev DMA_D_CTRL (n : Nat) : Nat := 0x80100 + 0x40 * n

/-- `DMA_Dn_CTRL.GO`, WO, reset 0x0. -/
abbrev DMA_D_CTRL_GO (n : Nat) : Fld := ⟨(DMA_D_CTRL n), 0, 1⟩

/-- `DMA_Dn_CTRL.STOP`, WO, reset 0x0. -/
abbrev DMA_D_CTRL_STOP (n : Nat) : Fld := ⟨(DMA_D_CTRL n), 1, 1⟩

/-- `DMA_Dn_CTRL.MODE`, RW, reset 0x0. -/
abbrev DMA_D_CTRL_MODE (n : Nat) : Fld := ⟨(DMA_D_CTRL n), 2, 2⟩

/-- `DMA_Dn_CTRL.SRC_KIND`, RW, reset 0x0. -/
abbrev DMA_D_CTRL_SRC_KIND (n : Nat) : Fld := ⟨(DMA_D_CTRL n), 4, 2⟩

/-- `DMA_Dn_CTRL.DST_KIND`, RW, reset 0x0. -/
abbrev DMA_D_CTRL_DST_KIND (n : Nat) : Fld := ⟨(DMA_D_CTRL n), 6, 2⟩

/-- `DMA_Dn_STATUS` (R146). -/
abbrev DMA_D_STATUS (n : Nat) : Nat := 0x80104 + 0x40 * n

/-- `DMA_Dn_STATUS.BUSY`, RO, reset 0x0. -/
abbrev DMA_D_STATUS_BUSY (n : Nat) : Fld := ⟨(DMA_D_STATUS n), 0, 1⟩

/-- `DMA_Dn_STATUS.DONE`, RO, reset 0x0. -/
abbrev DMA_D_STATUS_DONE (n : Nat) : Fld := ⟨(DMA_D_STATUS n), 1, 1⟩

/-- `DMA_Dn_STATUS.STOPPED`, RO, reset 0x0. -/
abbrev DMA_D_STATUS_STOPPED (n : Nat) : Fld := ⟨(DMA_D_STATUS n), 2, 1⟩

/-- `DMA_Dn_STATUS.GO_IGNORED`, RO, reset 0x0. -/
abbrev DMA_D_STATUS_GO_IGNORED (n : Nat) : Fld := ⟨(DMA_D_STATUS n), 3, 1⟩

/-- `DMA_Dn_STATUS.MISMATCH`, RO, reset 0x0. -/
abbrev DMA_D_STATUS_MISMATCH (n : Nat) : Fld := ⟨(DMA_D_STATUS n), 4, 1⟩

/-- `DMA_Dn_STATUS.ERR_DIR`, RO, reset 0x0. -/
abbrev DMA_D_STATUS_ERR_DIR (n : Nat) : Fld := ⟨(DMA_D_STATUS n), 5, 1⟩

/-- `DMA_Dn_STATUS.ERR`, RO, reset 0x0. -/
abbrev DMA_D_STATUS_ERR (n : Nat) : Fld := ⟨(DMA_D_STATUS n), 8, 4⟩

/-- `DMA_Dn_SRC_LO` (R146). -/
abbrev DMA_D_SRC_LO (n : Nat) : Nat := 0x80108 + 0x40 * n

/-- `DMA_Dn_SRC_LO.ADDR`, RW, reset 0x0000_0000. -/
abbrev DMA_D_SRC_LO_ADDR (n : Nat) : Fld := ⟨(DMA_D_SRC_LO n), 0, 32⟩

/-- `DMA_Dn_SRC_HI` (R146). -/
abbrev DMA_D_SRC_HI (n : Nat) : Nat := 0x8010c + 0x40 * n

/-- `DMA_Dn_SRC_HI.ADDR`, RW, reset 0x0000_0000. -/
abbrev DMA_D_SRC_HI_ADDR (n : Nat) : Fld := ⟨(DMA_D_SRC_HI n), 0, 32⟩

/-- `DMA_Dn_DST_LO` (R146). -/
abbrev DMA_D_DST_LO (n : Nat) : Nat := 0x80110 + 0x40 * n

/-- `DMA_Dn_DST_LO.ADDR`, RW, reset 0x0000_0000. -/
abbrev DMA_D_DST_LO_ADDR (n : Nat) : Fld := ⟨(DMA_D_DST_LO n), 0, 32⟩

/-- `DMA_Dn_DST_HI` (R146). -/
abbrev DMA_D_DST_HI (n : Nat) : Nat := 0x80114 + 0x40 * n

/-- `DMA_Dn_DST_HI.ADDR`, RW, reset 0x0000_0000. -/
abbrev DMA_D_DST_HI_ADDR (n : Nat) : Fld := ⟨(DMA_D_DST_HI n), 0, 32⟩

/-- `DMA_Dn_LEN` (R146). -/
abbrev DMA_D_LEN (n : Nat) : Nat := 0x80118 + 0x40 * n

/-- `DMA_Dn_LEN.BYTES`, RW, reset 0x0000_0000. -/
abbrev DMA_D_LEN_BYTES (n : Nat) : Fld := ⟨(DMA_D_LEN n), 0, 32⟩

/-- `DMA_Dn_FILL_LO` (R146). -/
abbrev DMA_D_FILL_LO (n : Nat) : Nat := 0x8011c + 0x40 * n

/-- `DMA_Dn_FILL_LO.PATTERN`, RW, reset 0x0000_0000. -/
abbrev DMA_D_FILL_LO_PATTERN (n : Nat) : Fld := ⟨(DMA_D_FILL_LO n), 0, 32⟩

/-- `DMA_Dn_FILL_HI` (R146). -/
abbrev DMA_D_FILL_HI (n : Nat) : Nat := 0x80120 + 0x40 * n

/-- `DMA_Dn_FILL_HI.PATTERN`, RW, reset 0x0000_0000. -/
abbrev DMA_D_FILL_HI_PATTERN (n : Nat) : Fld := ⟨(DMA_D_FILL_HI n), 0, 32⟩

/-- `DMA_Dn_DONE_BYTES` (R146). -/
abbrev DMA_D_DONE_BYTES (n : Nat) : Nat := 0x80124 + 0x40 * n

/-- `DMA_Dn_DONE_BYTES.BYTES`, RO, reset 0x0000_0000. -/
abbrev DMA_D_DONE_BYTES_BYTES (n : Nat) : Fld := ⟨(DMA_D_DONE_BYTES n), 0, 32⟩

/-- `DMA_Dn_ERR_ADDR_LO` (R146). -/
abbrev DMA_D_ERR_ADDR_LO (n : Nat) : Nat := 0x80128 + 0x40 * n

/-- `DMA_Dn_ERR_ADDR_LO.ADDR`, RO, reset 0x0000_0000. -/
abbrev DMA_D_ERR_ADDR_LO_ADDR (n : Nat) : Fld := ⟨(DMA_D_ERR_ADDR_LO n), 0, 32⟩

/-- `DMA_Dn_ERR_ADDR_HI` (R146). -/
abbrev DMA_D_ERR_ADDR_HI (n : Nat) : Nat := 0x8012c + 0x40 * n

/-- `DMA_Dn_ERR_ADDR_HI.ADDR`, RO, reset 0x0000_0000. -/
abbrev DMA_D_ERR_ADDR_HI_ADDR (n : Nat) : Fld := ⟨(DMA_D_ERR_ADDR_HI n), 0, 32⟩

/-- `DMA_Dn_MM_OFS` (R146). -/
abbrev DMA_D_MM_OFS (n : Nat) : Nat := 0x80130 + 0x40 * n

/-- `DMA_Dn_MM_OFS.OFFSET`, RO, reset 0x0000_0000. -/
abbrev DMA_D_MM_OFS_OFFSET (n : Nat) : Fld := ⟨(DMA_D_MM_OFS n), 0, 32⟩

/-- `DMA_Dn_MM_COUNT` (R146). -/
abbrev DMA_D_MM_COUNT (n : Nat) : Nat := 0x80134 + 0x40 * n

/-- `DMA_Dn_MM_COUNT.BLOCKS`, RO, reset 0x000_0000. -/
abbrev DMA_D_MM_COUNT_BLOCKS (n : Nat) : Fld := ⟨(DMA_D_MM_COUNT n), 0, 26⟩

/-- `BTM_CTRL` (R176). -/
abbrev BTM_CTRL (k : Nat) : Nat := 0xd0000 + 0x10000 * k

/-- `BTM_CTRL.EN`, RW, reset 0x0. -/
abbrev BTM_CTRL_EN (k : Nat) : Fld := ⟨(BTM_CTRL k), 0, 1⟩

/-- `BTM_CTRL.SYNC_EN`, RW, reset 0x0. -/
abbrev BTM_CTRL_SYNC_EN (k : Nat) : Fld := ⟨(BTM_CTRL k), 1, 1⟩

/-- `BTM_CTRL.SOS_POL`, RW, reset 0x0. -/
abbrev BTM_CTRL_SOS_POL (k : Nat) : Fld := ⟨(BTM_CTRL k), 2, 1⟩

/-- `BTM_CTRL.EOS_POL`, RW, reset 0x0. -/
abbrev BTM_CTRL_EOS_POL (k : Nat) : Fld := ⟨(BTM_CTRL k), 3, 1⟩

/-- `BTM_STATUS` (R176). -/
abbrev BTM_STATUS (k : Nat) : Nat := 0xd0004 + 0x10000 * k

/-- `BTM_STATUS.READY_LOST`, W1C, reset 0x0. -/
abbrev BTM_STATUS_READY_LOST (k : Nat) : Fld := ⟨(BTM_STATUS k), 0, 1⟩

/-- `BTM_STATUS.SOS_MISS`, W1C, reset 0x0. -/
abbrev BTM_STATUS_SOS_MISS (k : Nat) : Fld := ⟨(BTM_STATUS k), 1, 1⟩

/-- `BTM_STATUS.TBL_PARITY`, W1C, reset 0x0. -/
abbrev BTM_STATUS_TBL_PARITY (k : Nat) : Fld := ⟨(BTM_STATUS k), 2, 1⟩

/-- `BTM_STATUS.LIVE_WRITE`, W1C, reset 0x0. -/
abbrev BTM_STATUS_LIVE_WRITE (k : Nat) : Fld := ⟨(BTM_STATUS k), 3, 1⟩

/-- `BTM_STATUS.EXPOSE_REFUSED`, W1C, reset 0x0. -/
abbrev BTM_STATUS_EXPOSE_REFUSED (k : Nat) : Fld := ⟨(BTM_STATUS k), 4, 1⟩

/-- `BTM_STATUS.CAL_CUT`, W1C, reset 0x0. -/
abbrev BTM_STATUS_CAL_CUT (k : Nat) : Fld := ⟨(BTM_STATUS k), 5, 1⟩

/-- `BTM_STATUS.LSI`, W1C, reset 0x0. -/
abbrev BTM_STATUS_LSI (k : Nat) : Fld := ⟨(BTM_STATUS k), 6, 1⟩

/-- `BTM_STATUS.DLL_UNLOCK`, W1C, reset 0x0. -/
abbrev BTM_STATUS_DLL_UNLOCK (k : Nat) : Fld := ⟨(BTM_STATUS k), 7, 1⟩

/-- `BTM_STATUS.FIRST`, RO, reset 0x0. -/
abbrev BTM_STATUS_FIRST (k : Nat) : Fld := ⟨(BTM_STATUS k), 16, 4⟩

/-- `BTM_STATUS.OVF`, W1C, reset 0x0. -/
abbrev BTM_STATUS_OVF (k : Nat) : Fld := ⟨(BTM_STATUS k), 20, 1⟩

/-- `BTM_IRQ_EN` (R176). -/
abbrev BTM_IRQ_EN (k : Nat) : Nat := 0xd0008 + 0x10000 * k

/-- `BTM_IRQ_EN.EN`, RW, reset 0x00. -/
abbrev BTM_IRQ_EN_EN (k : Nat) : Fld := ⟨(BTM_IRQ_EN k), 0, 8⟩

/-- `BTM_STATE` (R176). -/
abbrev BTM_STATE (k : Nat) : Nat := 0xd000c + 0x10000 * k

/-- `BTM_STATE.READY`, RO, reset 0x0. -/
abbrev BTM_STATE_READY (k : Nat) : Fld := ⟨(BTM_STATE k), 0, 1⟩

/-- `BTM_STATE.DLL_LOCK`, RO, reset 0x0. -/
abbrev BTM_STATE_DLL_LOCK (k : Nat) : Fld := ⟨(BTM_STATE k), 1, 1⟩

/-- `BTM_STATE.SOS_OK`, RO, reset 0x0. -/
abbrev BTM_STATE_SOS_OK (k : Nat) : Fld := ⟨(BTM_STATE k), 2, 1⟩

/-- `BTM_STATE.LSI_OK`, RO, reset 0x0. -/
abbrev BTM_STATE_LSI_OK (k : Nat) : Fld := ⟨(BTM_STATE k), 3, 1⟩

/-- `BTM_STATE.TBL_OK`, RO, reset 0x1. -/
abbrev BTM_STATE_TBL_OK (k : Nat) : Fld := ⟨(BTM_STATE k), 4, 1⟩

/-- `BTM_STATE.EXPOSING`, RO, reset 0x0. -/
abbrev BTM_STATE_EXPOSING (k : Nat) : Fld := ⟨(BTM_STATE k), 5, 1⟩

/-- `BTM_STATE.CAL_ON`, RO, reset 0x0. -/
abbrev BTM_STATE_CAL_ON (k : Nat) : Fld := ⟨(BTM_STATE k), 6, 1⟩

/-- `BTM_STATE.ACQUIRE`, RO, reset 0x0. -/
abbrev BTM_STATE_ACQUIRE (k : Nat) : Fld := ⟨(BTM_STATE k), 7, 1⟩

/-- `BTM_STATE.FACET`, RO, reset 0x0. -/
abbrev BTM_STATE_FACET (k : Nat) : Fld := ⟨(BTM_STATE k), 8, 4⟩

/-- `BTM_STATE.PAGE`, RO, reset 0x00. -/
abbrev BTM_STATE_PAGE (k : Nat) : Fld := ⟨(BTM_STATE k), 16, 8⟩

/-- `BTM_STATE.TAG`, RO, reset 0x00. -/
abbrev BTM_STATE_TAG (k : Nat) : Fld := ⟨(BTM_STATE k), 24, 6⟩

/-- `BTM_DOT_PERIOD` (R176). -/
abbrev BTM_DOT_PERIOD (k : Nat) : Nat := 0xd0010 + 0x10000 * k

/-- `BTM_DOT_PERIOD.P`, RW, reset 0x0129_5AF5. -/
abbrev BTM_DOT_PERIOD_P (k : Nat) : Fld := ⟨(BTM_DOT_PERIOD k), 0, 32⟩

/-- `BTM_FACET_CFG` (R176). -/
abbrev BTM_FACET_CFG (k : Nat) : Nat := 0xd0014 + 0x10000 * k

/-- `BTM_FACET_CFG.FACETS`, RW, reset 0x8. -/
abbrev BTM_FACET_CFG_FACETS (k : Nat) : Fld := ⟨(BTM_FACET_CFG k), 0, 4⟩

/-- `BTM_FACET_CFG.SOS_MISS_MAX`, RW, reset 0x2. -/
abbrev BTM_FACET_CFG_SOS_MISS_MAX (k : Nat) : Fld := ⟨(BTM_FACET_CFG k), 4, 4⟩

/-- `BTM_FACET_CFG.SOS_BEAM`, RW, reset 0x00. -/
abbrev BTM_FACET_CFG_SOS_BEAM (k : Nat) : Fld := ⟨(BTM_FACET_CFG k), 8, 6⟩

/-- `BTM_FACET_CFG.MERGE_TAPS`, RW, reset 0x2. -/
abbrev BTM_FACET_CFG_MERGE_TAPS (k : Nat) : Fld := ⟨(BTM_FACET_CFG k), 16, 4⟩

/-- `BTM_FACET_CFG.MIN_PULSE`, RW, reset 0x02. -/
abbrev BTM_FACET_CFG_MIN_PULSE (k : Nat) : Fld := ⟨(BTM_FACET_CFG k), 20, 7⟩

/-- `BTM_FACET_PERIOD` (R176). -/
abbrev BTM_FACET_PERIOD (k : Nat) : Nat := 0xd0018 + 0x10000 * k

/-- `BTM_FACET_PERIOD.TICKS`, RW, reset 0x0A_55D5. -/
abbrev BTM_FACET_PERIOD_TICKS (k : Nat) : Fld := ⟨(BTM_FACET_PERIOD k), 0, 24⟩

/-- `BTM_SOS_WIN` (R176). -/
abbrev BTM_SOS_WIN (k : Nat) : Nat := 0xd001c + 0x10000 * k

/-- `BTM_SOS_WIN.HALF`, RW, reset 0x0BB8. -/
abbrev BTM_SOS_WIN_HALF (k : Nat) : Fld := ⟨(BTM_SOS_WIN k), 0, 16⟩

/-- `BTM_EOS_WIN` (R176). -/
abbrev BTM_EOS_WIN (k : Nat) : Nat := 0xd0020 + 0x10000 * k

/-- `BTM_EOS_WIN.TICKS`, RW, reset 0x00_7530. -/
abbrev BTM_EOS_WIN_TICKS (k : Nat) : Fld := ⟨(BTM_EOS_WIN k), 0, 24⟩

/-- `BTM_LINE_OFS` (R176). -/
abbrev BTM_LINE_OFS (k : Nat) : Nat := 0xd0024 + 0x10000 * k

/-- `BTM_LINE_OFS.TAPS`, RW, reset 0x0000_0800. -/
abbrev BTM_LINE_OFS_TAPS (k : Nat) : Fld := ⟨(BTM_LINE_OFS k), 0, 32⟩

/-- `BTM_TBL_CTRL` (R176). -/
abbrev BTM_TBL_CTRL (k : Nat) : Nat := 0xd0028 + 0x10000 * k

/-- `BTM_TBL_CTRL.NEXT`, RW, reset 0x0. -/
abbrev BTM_TBL_CTRL_NEXT (k : Nat) : Fld := ⟨(BTM_TBL_CTRL k), 0, 1⟩

/-- `BTM_TBL_CTRL.LIVE`, RO, reset 0x0. -/
abbrev BTM_TBL_CTRL_LIVE (k : Nat) : Fld := ⟨(BTM_TBL_CTRL k), 1, 1⟩

/-- `BTM_TBL_CTRL.PENDING`, RO, reset 0x0. -/
abbrev BTM_TBL_CTRL_PENDING (k : Nat) : Fld := ⟨(BTM_TBL_CTRL k), 2, 1⟩

/-- `BTM_FACET_IDX` (R176). -/
abbrev BTM_FACET_IDX (k : Nat) : Nat := 0xd002c + 0x10000 * k

/-- `BTM_FACET_IDX.NEXT_IDX`, RW, reset 0x0. -/
abbrev BTM_FACET_IDX_NEXT_IDX (k : Nat) : Fld := ⟨(BTM_FACET_IDX k), 0, 4⟩

/-- `BTM_FACET_IDX.SET`, WO, reset 0x0. -/
abbrev BTM_FACET_IDX_SET (k : Nat) : Fld := ⟨(BTM_FACET_IDX k), 4, 1⟩

/-- `BTM_FACET_IDX.IDX`, RO, reset 0x0. -/
abbrev BTM_FACET_IDX_IDX (k : Nat) : Fld := ⟨(BTM_FACET_IDX k), 8, 4⟩

/-- `BTM_FACET_IDX.IDX_PENDING`, RO, reset 0x0. -/
abbrev BTM_FACET_IDX_IDX_PENDING (k : Nat) : Fld := ⟨(BTM_FACET_IDX k), 12, 1⟩

/-- `BTM_SOS_LO` (R176). -/
abbrev BTM_SOS_LO (k : Nat) : Nat := 0xd0030 + 0x10000 * k

/-- `BTM_SOS_LO.TICK`, RO, reset 0x0000_0000. -/
abbrev BTM_SOS_LO_TICK (k : Nat) : Fld := ⟨(BTM_SOS_LO k), 0, 32⟩

/-- `BTM_SOS_HI` (R176). -/
abbrev BTM_SOS_HI (k : Nat) : Nat := 0xd0034 + 0x10000 * k

/-- `BTM_SOS_HI.TICK`, RO, reset 0x000_0000. -/
abbrev BTM_SOS_HI_TICK (k : Nat) : Fld := ⟨(BTM_SOS_HI k), 0, 27⟩

/-- `BTM_SOS_HI.TAP`, RO, reset 0x00. -/
abbrev BTM_SOS_HI_TAP (k : Nat) : Fld := ⟨(BTM_SOS_HI k), 27, 5⟩

/-- `BTM_SCAN_LAST` (R176). -/
abbrev BTM_SCAN_LAST (k : Nat) : Nat := 0xd0038 + 0x10000 * k

/-- `BTM_SCAN_LAST.TAPS`, RO, reset 0x0000_0000. -/
abbrev BTM_SCAN_LAST_TAPS (k : Nat) : Fld := ⟨(BTM_SCAN_LAST k), 0, 32⟩

/-- `BTM_PERIOD_LAST` (R176). -/
abbrev BTM_PERIOD_LAST (k : Nat) : Nat := 0xd003c + 0x10000 * k

/-- `BTM_PERIOD_LAST.TAPS`, RO, reset 0x0000_0000. -/
abbrev BTM_PERIOD_LAST_TAPS (k : Nat) : Fld := ⟨(BTM_PERIOD_LAST k), 0, 32⟩

/-- `BTM_EXP_SLIP` (R176). -/
abbrev BTM_EXP_SLIP (k : Nat) : Nat := 0xd0040 + 0x10000 * k

/-- `BTM_EXP_SLIP.TICKS`, RO, reset 0x00_0000. -/
abbrev BTM_EXP_SLIP_TICKS (k : Nat) : Fld := ⟨(BTM_EXP_SLIP k), 0, 24⟩

/-- `BTM_LSI` (R176). -/
abbrev BTM_LSI (k : Nat) : Nat := 0xd0044 + 0x10000 * k

/-- `BTM_LSI.LSI0`, RO, reset Pin. -/
abbrev BTM_LSI_LSI0 (k : Nat) : Fld := ⟨(BTM_LSI k), 0, 1⟩

/-- `BTM_LSI.LSI1`, RO, reset Pin. -/
abbrev BTM_LSI_LSI1 (k : Nat) : Fld := ⟨(BTM_LSI k), 1, 1⟩

/-- `BTM_LSI.ACTIVE`, RO, reset 0x1. -/
abbrev BTM_LSI_ACTIVE (k : Nat) : Fld := ⟨(BTM_LSI k), 2, 1⟩

/-- `BTM_LSI.DISAGREE`, RO, reset 0x0. -/
abbrev BTM_LSI_DISAGREE (k : Nat) : Fld := ⟨(BTM_LSI k), 3, 1⟩

/-- `BTM_LSI.REARM`, WO, reset 0x0. -/
abbrev BTM_LSI_REARM (k : Nat) : Fld := ⟨(BTM_LSI k), 4, 1⟩

/-- `BTM_LSI.KEY`, WO, reset 0x00. -/
abbrev BTM_LSI_KEY (k : Nat) : Fld := ⟨(BTM_LSI k), 8, 8⟩

/-- `BTM_CAL_CFG` (R176). -/
abbrev BTM_CAL_CFG (k : Nat) : Nat := 0xd0048 + 0x10000 * k

/-- `BTM_CAL_CFG.CODE`, RW, reset 0x0. -/
abbrev BTM_CAL_CFG_CODE (k : Nat) : Fld := ⟨(BTM_CAL_CFG k), 0, 4⟩

/-- `BTM_CAL_CFG.FACETS`, RW, reset 0x0000. -/
abbrev BTM_CAL_CFG_FACETS (k : Nat) : Fld := ⟨(BTM_CAL_CFG k), 16, 16⟩

/-- `BTM_CAL_DOTS` (R176). -/
abbrev BTM_CAL_DOTS (k : Nat) : Nat := 0xd004c + 0x10000 * k

/-- `BTM_CAL_DOTS.FIRST`, RW, reset 0x0000. -/
abbrev BTM_CAL_DOTS_FIRST (k : Nat) : Fld := ⟨(BTM_CAL_DOTS k), 0, 16⟩

/-- `BTM_CAL_DOTS.LAST`, RW, reset 0x0000. -/
abbrev BTM_CAL_DOTS_LAST (k : Nat) : Fld := ⟨(BTM_CAL_DOTS k), 16, 16⟩

/-- `BTM_CAL_BEAMS_LO` (R176). -/
abbrev BTM_CAL_BEAMS_LO (k : Nat) : Nat := 0xd0050 + 0x10000 * k

/-- `BTM_CAL_BEAMS_LO.BEAMS`, RW, reset 0x0000_0000. -/
abbrev BTM_CAL_BEAMS_LO_BEAMS (k : Nat) : Fld := ⟨(BTM_CAL_BEAMS_LO k), 0, 32⟩

/-- `BTM_CAL_BEAMS_HI` (R176). -/
abbrev BTM_CAL_BEAMS_HI (k : Nat) : Nat := 0xd0054 + 0x10000 * k

/-- `BTM_CAL_BEAMS_HI.BEAMS`, RW, reset 0x0000_0000. -/
abbrev BTM_CAL_BEAMS_HI_BEAMS (k : Nat) : Fld := ⟨(BTM_CAL_BEAMS_HI k), 0, 32⟩

/-- `BTM_CNT_FACETS` (R176). -/
abbrev BTM_CNT_FACETS (k : Nat) : Nat := 0xd0080 + 0x10000 * k

/-- `BTM_CNT_FACETS.COUNT`, RO, reset 0x0000_0000. -/
abbrev BTM_CNT_FACETS_COUNT (k : Nat) : Fld := ⟨(BTM_CNT_FACETS k), 0, 32⟩

/-- `BTM_CNT_SOS_MISS` (R176). -/
abbrev BTM_CNT_SOS_MISS (k : Nat) : Nat := 0xd0084 + 0x10000 * k

/-- `BTM_CNT_SOS_MISS.COUNT`, RO, reset 0x0000_0000. -/
abbrev BTM_CNT_SOS_MISS_COUNT (k : Nat) : Fld := ⟨(BTM_CNT_SOS_MISS k), 0, 32⟩

/-- `BTM_CNT_EOS_MISS` (R176). -/
abbrev BTM_CNT_EOS_MISS (k : Nat) : Nat := 0xd0088 + 0x10000 * k

/-- `BTM_CNT_EOS_MISS.COUNT`, RO, reset 0x0000_0000. -/
abbrev BTM_CNT_EOS_MISS_COUNT (k : Nat) : Fld := ⟨(BTM_CNT_EOS_MISS k), 0, 32⟩

/-- `BTM_CNT_CALCUT` (R176). -/
abbrev BTM_CNT_CALCUT (k : Nat) : Nat := 0xd008c + 0x10000 * k

/-- `BTM_CNT_CALCUT.COUNT`, RO, reset 0x0000_0000. -/
abbrev BTM_CNT_CALCUT_COUNT (k : Nat) : Fld := ⟨(BTM_CNT_CALCUT k), 0, 32⟩

/-- `BTM_CNT_PARITY` (R176). -/
abbrev BTM_CNT_PARITY (k : Nat) : Nat := 0xd0090 + 0x10000 * k

/-- `BTM_CNT_PARITY.COUNT`, RO, reset 0x0000_0000. -/
abbrev BTM_CNT_PARITY_COUNT (k : Nat) : Fld := ⟨(BTM_CNT_PARITY k), 0, 32⟩

/-- `BTM_CNT_LIVE_WRITE` (R176). -/
abbrev BTM_CNT_LIVE_WRITE (k : Nat) : Nat := 0xd0094 + 0x10000 * k

/-- `BTM_CNT_LIVE_WRITE.COUNT`, RO, reset 0x0000_0000. -/
abbrev BTM_CNT_LIVE_WRITE_COUNT (k : Nat) : Fld := ⟨(BTM_CNT_LIVE_WRITE k), 0, 32⟩

/-- `BTM_CNT_EXP_REFUSED` (R176). -/
abbrev BTM_CNT_EXP_REFUSED (k : Nat) : Nat := 0xd0098 + 0x10000 * k

/-- `BTM_CNT_EXP_REFUSED.COUNT`, RO, reset 0x0000_0000. -/
abbrev BTM_CNT_EXP_REFUSED_COUNT (k : Nat) : Fld := ⟨(BTM_CNT_EXP_REFUSED k), 0, 32⟩

/-- `BTM_CNT_DLL_UNLOCK` (R176). -/
abbrev BTM_CNT_DLL_UNLOCK (k : Nat) : Nat := 0xd009c + 0x10000 * k

/-- `BTM_CNT_DLL_UNLOCK.COUNT`, RO, reset 0x0000_0000. -/
abbrev BTM_CNT_DLL_UNLOCK_COUNT (k : Nat) : Fld := ⟨(BTM_CNT_DLL_UNLOCK k), 0, 32⟩

/-- `BTM_DROPb` (R176). -/
abbrev BTM_DROP (k b : Nat) : Nat := 0xd0100 + 0x10000 * k + 0x4 * b

/-- `BTM_DROPb.COUNT`, RO, reset 0x0000_0000. -/
abbrev BTM_DROP_COUNT (k b : Nat) : Fld := ⟨(BTM_DROP k b), 0, 32⟩

/-- `BTM_SCANf` (R176). -/
abbrev BTM_SCAN (k f : Nat) : Nat := 0xd0200 + 0x10000 * k + 0x4 * f

/-- `BTM_SCANf.TAPS`, RO, reset 0x0000_0000. -/
abbrev BTM_SCAN_TAPS (k f : Nat) : Fld := ⟨(BTM_SCAN k f), 0, 32⟩

/-- `BMK_DEAD_SUMMARY` (R192). -/
abbrev BMK_DEAD_SUMMARY : Nat := 0x150000

/-- `BMK_DEAD_SUMMARY.STATIONS`, RO, reset 0x00. -/
abbrev BMK_DEAD_SUMMARY_STATIONS : Fld := ⟨BMK_DEAD_SUMMARY, 0, 8⟩

/-- `BMK_Sk_STATUS` (R192). -/
abbrev BMK_S_STATUS (k : Nat) : Nat := 0x151000 + 0x1000 * k

/-- `BMK_Sk_STATUS.DEAD`, W1C, reset 0x0. -/
abbrev BMK_S_STATUS_DEAD (k : Nat) : Fld := ⟨(BMK_S_STATUS k), 0, 1⟩

/-- `BMK_Sk_STATUS.SET_ERR`, W1C, reset 0x0. -/
abbrev BMK_S_STATUS_SET_ERR (k : Nat) : Fld := ⟨(BMK_S_STATUS k), 1, 1⟩

/-- `BMK_Sk_STATUS.LIVE_WRITE`, W1C, reset 0x0. -/
abbrev BMK_S_STATUS_LIVE_WRITE (k : Nat) : Fld := ⟨(BMK_S_STATUS k), 2, 1⟩

/-- `BMK_Sk_STATUS.PWR_ERR`, W1C, reset 0x0. -/
abbrev BMK_S_STATUS_PWR_ERR (k : Nat) : Fld := ⟨(BMK_S_STATUS k), 3, 1⟩

/-- `BMK_Sk_STATUS.FIRST`, RO, reset 0x0. -/
abbrev BMK_S_STATUS_FIRST (k : Nat) : Fld := ⟨(BMK_S_STATUS k), 16, 4⟩

/-- `BMK_Sk_STATUS.OVF`, W1C, reset 0x0. -/
abbrev BMK_S_STATUS_OVF (k : Nat) : Fld := ⟨(BMK_S_STATUS k), 20, 1⟩

/-- `BMK_Sk_IRQ_EN` (R192). -/
abbrev BMK_S_IRQ_EN (k : Nat) : Nat := 0x151004 + 0x1000 * k

/-- `BMK_Sk_IRQ_EN.EN`, RW, reset 0x0. -/
abbrev BMK_S_IRQ_EN_EN (k : Nat) : Fld := ⟨(BMK_S_IRQ_EN k), 0, 4⟩

/-- `BMK_Sk_IRQ_EN.DONE_EN`, RW, reset 0x0. -/
abbrev BMK_S_IRQ_EN_DONE_EN (k : Nat) : Fld := ⟨(BMK_S_IRQ_EN k), 8, 1⟩

/-- `BMK_Sk_SET_CTRL` (R192). -/
abbrev BMK_S_SET_CTRL (k : Nat) : Nat := 0x151008 + 0x1000 * k

/-- `BMK_Sk_SET_CTRL.NEXT`, RW, reset 0x0. -/
abbrev BMK_S_SET_CTRL_NEXT (k : Nat) : Fld := ⟨(BMK_S_SET_CTRL k), 0, 2⟩

/-- `BMK_Sk_SET_CTRL.LIVE`, RO, reset 0x0. -/
abbrev BMK_S_SET_CTRL_LIVE (k : Nat) : Fld := ⟨(BMK_S_SET_CTRL k), 2, 2⟩

/-- `BMK_Sk_SET_CTRL.PENDING`, RO, reset 0x0. -/
abbrev BMK_S_SET_CTRL_PENDING (k : Nat) : Fld := ⟨(BMK_S_SET_CTRL k), 4, 1⟩

/-- `BMK_Sk_SET_ERR` (R192). -/
abbrev BMK_S_SET_ERR (k : Nat) : Nat := 0x15100c + 0x1000 * k

/-- `BMK_Sk_SET_ERR.CODE`, RO, reset 0x0. -/
abbrev BMK_S_SET_ERR_CODE (k : Nat) : Fld := ⟨(BMK_S_SET_ERR k), 0, 4⟩

/-- `BMK_Sk_SET_ERR.BEAM`, RO, reset 0x00. -/
abbrev BMK_S_SET_ERR_BEAM (k : Nat) : Fld := ⟨(BMK_S_SET_ERR k), 8, 6⟩

/-- `BMK_Sk_SET_ERR.FACET`, RO, reset 0x0. -/
abbrev BMK_S_SET_ERR_FACET (k : Nat) : Fld := ⟨(BMK_S_SET_ERR k), 16, 4⟩

/-- `BMK_Sk_SET_ERR.SET`, RO, reset 0x0. -/
abbrev BMK_S_SET_ERR_SET (k : Nat) : Fld := ⟨(BMK_S_SET_ERR k), 20, 2⟩

/-- `BMK_Sk_TEST_CFG` (R192). -/
abbrev BMK_S_TEST_CFG (k : Nat) : Nat := 0x151010 + 0x1000 * k

/-- `BMK_Sk_TEST_CFG.INTERVAL`, RW, reset 0x00. -/
abbrev BMK_S_TEST_CFG_INTERVAL (k : Nat) : Fld := ⟨(BMK_S_TEST_CFG k), 0, 8⟩

/-- `BMK_Sk_TEST_CFG.MISS_LIMIT`, RW, reset 0x3. -/
abbrev BMK_S_TEST_CFG_MISS_LIMIT (k : Nat) : Fld := ⟨(BMK_S_TEST_CFG k), 8, 4⟩

/-- `BMK_Sk_TEST_CFG.WIN_HALF`, RW, reset 0x012C. -/
abbrev BMK_S_TEST_CFG_WIN_HALF (k : Nat) : Fld := ⟨(BMK_S_TEST_CFG k), 16, 16⟩

/-- `BMK_Sk_TEST_MASK_LO` (R192). -/
abbrev BMK_S_TEST_MASK_LO (k : Nat) : Nat := 0x151014 + 0x1000 * k

/-- `BMK_Sk_TEST_MASK_LO.BEAMS`, RW, reset 0xFFFF_FFFF. -/
abbrev BMK_S_TEST_MASK_LO_BEAMS (k : Nat) : Fld := ⟨(BMK_S_TEST_MASK_LO k), 0, 32⟩

/-- `BMK_Sk_TEST_MASK_HI` (R192). -/
abbrev BMK_S_TEST_MASK_HI (k : Nat) : Nat := 0x151018 + 0x1000 * k

/-- `BMK_Sk_TEST_MASK_HI.BEAMS`, RW, reset 0xFFFF_FFFF. -/
abbrev BMK_S_TEST_MASK_HI_BEAMS (k : Nat) : Fld := ⟨(BMK_S_TEST_MASK_HI k), 0, 32⟩

/-- `BMK_Sk_TEST_STATE` (R192). -/
abbrev BMK_S_TEST_STATE (k : Nat) : Nat := 0x15101c + 0x1000 * k

/-- `BMK_Sk_TEST_STATE.NEXT_BEAM`, RO, reset 0x01. -/
abbrev BMK_S_TEST_STATE_NEXT_BEAM (k : Nat) : Fld := ⟨(BMK_S_TEST_STATE k), 0, 6⟩

/-- `BMK_Sk_TEST_STATE.LAST_BEAM`, RO, reset 0x00. -/
abbrev BMK_S_TEST_STATE_LAST_BEAM (k : Nat) : Fld := ⟨(BMK_S_TEST_STATE k), 8, 6⟩

/-- `BMK_Sk_TEST_STATE.LAST_PASS`, RO, reset 0x0. -/
abbrev BMK_S_TEST_STATE_LAST_PASS (k : Nat) : Fld := ⟨(BMK_S_TEST_STATE k), 14, 1⟩

/-- `BMK_Sk_TEST_STATE.LAST_SKIP`, RO, reset 0x0. -/
abbrev BMK_S_TEST_STATE_LAST_SKIP (k : Nat) : Fld := ⟨(BMK_S_TEST_STATE k), 15, 1⟩

/-- `BMK_Sk_TEST_XLAST` (R192). -/
abbrev BMK_S_TEST_XLAST (k : Nat) : Nat := 0x151020 + 0x1000 * k

/-- `BMK_Sk_TEST_XLAST.TAPS`, RO, reset 0x0000_0000. -/
abbrev BMK_S_TEST_XLAST_TAPS (k : Nat) : Fld := ⟨(BMK_S_TEST_XLAST k), 0, 32⟩

/-- `BMK_Sk_DEAD_LO` (R192). -/
abbrev BMK_S_DEAD_LO (k : Nat) : Nat := 0x151024 + 0x1000 * k

/-- `BMK_Sk_DEAD_LO.DEAD`, W1C, reset 0x0000_0000. -/
abbrev BMK_S_DEAD_LO_DEAD (k : Nat) : Fld := ⟨(BMK_S_DEAD_LO k), 0, 32⟩

/-- `BMK_Sk_DEAD_HI` (R192). -/
abbrev BMK_S_DEAD_HI (k : Nat) : Nat := 0x151028 + 0x1000 * k

/-- `BMK_Sk_DEAD_HI.DEAD`, W1C, reset 0x0000_0000. -/
abbrev BMK_S_DEAD_HI_DEAD (k : Nat) : Fld := ⟨(BMK_S_DEAD_HI k), 0, 32⟩

/-- `BMK_Sk_DEAD_INFO` (R192). -/
abbrev BMK_S_DEAD_INFO (k : Nat) : Nat := 0x15102c + 0x1000 * k

/-- `BMK_Sk_DEAD_INFO.BEAM`, RO, reset 0x00. -/
abbrev BMK_S_DEAD_INFO_BEAM (k : Nat) : Fld := ⟨(BMK_S_DEAD_INFO k), 0, 6⟩

/-- `BMK_Sk_DEAD_INFO.TAG`, RO, reset 0x00. -/
abbrev BMK_S_DEAD_INFO_TAG (k : Nat) : Fld := ⟨(BMK_S_DEAD_INFO k), 8, 6⟩

/-- `BMK_Sk_DEAD_INFO.EXPOSING`, RO, reset 0x0. -/
abbrev BMK_S_DEAD_INFO_EXPOSING (k : Nat) : Fld := ⟨(BMK_S_DEAD_INFO k), 14, 1⟩

/-- `BMK_Sk_DEAD_INFO.PAGE`, RO, reset 0x00. -/
abbrev BMK_S_DEAD_INFO_PAGE (k : Nat) : Fld := ⟨(BMK_S_DEAD_INFO k), 16, 8⟩

/-- `BMK_Sk_CNT_TESTS` (R192). -/
abbrev BMK_S_CNT_TESTS (k : Nat) : Nat := 0x151030 + 0x1000 * k

/-- `BMK_Sk_CNT_TESTS.COUNT`, RO, reset 0x0000_0000. -/
abbrev BMK_S_CNT_TESTS_COUNT (k : Nat) : Fld := ⟨(BMK_S_CNT_TESTS k), 0, 32⟩

/-- `BMK_Sk_CNT_SKIPS` (R192). -/
abbrev BMK_S_CNT_SKIPS (k : Nat) : Nat := 0x151034 + 0x1000 * k

/-- `BMK_Sk_CNT_SKIPS.COUNT`, RO, reset 0x0000_0000. -/
abbrev BMK_S_CNT_SKIPS_COUNT (k : Nat) : Fld := ⟨(BMK_S_CNT_SKIPS k), 0, 32⟩

/-- `BMK_Sk_CNT_SWITCH` (R192). -/
abbrev BMK_S_CNT_SWITCH (k : Nat) : Nat := 0x151038 + 0x1000 * k

/-- `BMK_Sk_CNT_SWITCH.COUNT`, RO, reset 0x0000_0000. -/
abbrev BMK_S_CNT_SWITCH_COUNT (k : Nat) : Fld := ⟨(BMK_S_CNT_SWITCH k), 0, 32⟩

/-- `BMK_Sk_PWR_CTRL` (R192). -/
abbrev BMK_S_PWR_CTRL (k : Nat) : Nat := 0x151040 + 0x1000 * k

/-- `BMK_Sk_PWR_CTRL.GO`, WO, reset 0x0. -/
abbrev BMK_S_PWR_CTRL_GO (k : Nat) : Fld := ⟨(BMK_S_PWR_CTRL k), 0, 1⟩

/-- `BMK_Sk_PWR_CTRL.SRC`, RW, reset 0x0. -/
abbrev BMK_S_PWR_CTRL_SRC (k : Nat) : Fld := ⟨(BMK_S_PWR_CTRL k), 1, 1⟩

/-- `BMK_Sk_PWR_CTRL.DARK`, RW, reset 0x0. -/
abbrev BMK_S_PWR_CTRL_DARK (k : Nat) : Fld := ⟨(BMK_S_PWR_CTRL k), 2, 1⟩

/-- `BMK_Sk_PWR_CTRL.BEAM`, RW, reset 0x00. -/
abbrev BMK_S_PWR_CTRL_BEAM (k : Nat) : Fld := ⟨(BMK_S_PWR_CTRL k), 8, 6⟩

/-- `BMK_Sk_PWR_CTRL.AVG`, RW, reset 0x0. -/
abbrev BMK_S_PWR_CTRL_AVG (k : Nat) : Fld := ⟨(BMK_S_PWR_CTRL k), 16, 3⟩

/-- `BMK_Sk_PWR_CFG` (R192). -/
abbrev BMK_S_PWR_CFG (k : Nat) : Nat := 0x151044 + 0x1000 * k

/-- `BMK_Sk_PWR_CFG.DELAY`, RW, reset 0x0BB8. -/
abbrev BMK_S_PWR_CFG_DELAY (k : Nat) : Fld := ⟨(BMK_S_PWR_CFG k), 0, 16⟩

/-- `BMK_Sk_PWR_CFG.TICKS`, RW, reset 0x0BB8. -/
abbrev BMK_S_PWR_CFG_TICKS (k : Nat) : Fld := ⟨(BMK_S_PWR_CFG k), 16, 16⟩

/-- `BMK_Sk_PWR_STATUS` (R192). -/
abbrev BMK_S_PWR_STATUS (k : Nat) : Nat := 0x151048 + 0x1000 * k

/-- `BMK_Sk_PWR_STATUS.BUSY`, RO, reset 0x0. -/
abbrev BMK_S_PWR_STATUS_BUSY (k : Nat) : Fld := ⟨(BMK_S_PWR_STATUS k), 0, 1⟩

/-- `BMK_Sk_PWR_STATUS.DONE`, RO, reset 0x0. -/
abbrev BMK_S_PWR_STATUS_DONE (k : Nat) : Fld := ⟨(BMK_S_PWR_STATUS k), 1, 1⟩

/-- `BMK_Sk_PWR_STATUS.GO_IGNORED`, RO, reset 0x0. -/
abbrev BMK_S_PWR_STATUS_GO_IGNORED (k : Nat) : Fld := ⟨(BMK_S_PWR_STATUS k), 2, 1⟩

/-- `BMK_Sk_PWR_STATUS.ERR`, RO, reset 0x0. -/
abbrev BMK_S_PWR_STATUS_ERR (k : Nat) : Fld := ⟨(BMK_S_PWR_STATUS k), 8, 4⟩

/-- `BMK_Sk_PWR_STATUS.FACETS`, RO, reset 0x00. -/
abbrev BMK_S_PWR_STATUS_FACETS (k : Nat) : Fld := ⟨(BMK_S_PWR_STATUS k), 16, 8⟩

/-- `BMK_Sk_PWR_STATUS.SKIPS`, RO, reset 0x00. -/
abbrev BMK_S_PWR_STATUS_SKIPS (k : Nat) : Fld := ⟨(BMK_S_PWR_STATUS k), 24, 8⟩

/-- `BMK_Sk_PWR_RESULT` (R192). -/
abbrev BMK_S_PWR_RESULT (k : Nat) : Nat := 0x15104c + 0x1000 * k

/-- `BMK_Sk_PWR_RESULT.MEAN`, RO, reset 0x0000. -/
abbrev BMK_S_PWR_RESULT_MEAN (k : Nat) : Fld := ⟨(BMK_S_PWR_RESULT k), 0, 16⟩

/-- `BMK_Sk_PWR_RESULT.SPREAD`, RO, reset 0x000. -/
abbrev BMK_S_PWR_RESULT_SPREAD (k : Nat) : Fld := ⟨(BMK_S_PWR_RESULT k), 16, 12⟩

/-- `BMK_Sk_XOFSb` (R192). -/
abbrev BMK_S_XOFS (k b : Nat) : Nat := 0x151100 + 0x1000 * k + 0x4 * b

/-- `BMK_Sk_XOFSb.TICKS`, RW, reset 0x00_0000. -/
abbrev BMK_S_XOFS_TICKS (k b : Nat) : Fld := ⟨(BMK_S_XOFS k b), 0, 24⟩

/-- `BMK_Sk_MISSb` (R192). -/
abbrev BMK_S_MISS (k b : Nat) : Nat := 0x151200 + 0x1000 * k + 0x4 * b

/-- `BMK_Sk_MISSb.CONSEC`, RO, reset 0x00. -/
abbrev BMK_S_MISS_CONSEC (k b : Nat) : Fld := ⟨(BMK_S_MISS k b), 0, 8⟩

/-- `BMK_Sk_MISSb.TOTAL`, RO, reset 0x00_0000. -/
abbrev BMK_S_MISS_TOTAL (k b : Nat) : Fld := ⟨(BMK_S_MISS k b), 8, 24⟩

/-- `BMK_Sk_SETs_MAPw` (R192). -/
abbrev BMK_S_SET_MAP (k s w : Nat) : Nat := 0x151400 + 0x1000 * k + 0x200 * s + 0x4 * w

/-- `BMK_Sk_SETs_MAPw.LINE0`, RW, reset Identity. -/
abbrev BMK_S_SET_MAP_LINE0 (k s w : Nat) : Fld := ⟨(BMK_S_SET_MAP k s w), 0, 6⟩

/-- `BMK_Sk_SETs_MAPw.LINE1`, RW, reset Identity. -/
abbrev BMK_S_SET_MAP_LINE1 (k s w : Nat) : Fld := ⟨(BMK_S_SET_MAP k s w), 8, 6⟩

/-- `BMK_Sk_SETs_MAPw.LINE2`, RW, reset Identity. -/
abbrev BMK_S_SET_MAP_LINE2 (k s w : Nat) : Fld := ⟨(BMK_S_SET_MAP k s w), 16, 6⟩

/-- `BMK_Sk_SETs_MAPw.LINE3`, RW, reset Identity. -/
abbrev BMK_S_SET_MAP_LINE3 (k s w : Nat) : Fld := ⟨(BMK_S_SET_MAP k s w), 24, 6⟩

/-- `BMK_Sk_SETs_Ff_EN_LO` (R192). -/
abbrev BMK_S_SET_F_EN_LO (k s f : Nat) : Nat := 0x151440 + 0x1000 * k + 0x200 * s + 0x18 * f

/-- `BMK_Sk_SETs_Ff_EN_LO.BEAMS`, RW, reset 0xFFFF_FFFF. -/
abbrev BMK_S_SET_F_EN_LO_BEAMS (k s f : Nat) : Fld := ⟨(BMK_S_SET_F_EN_LO k s f), 0, 32⟩

/-- `BMK_Sk_SETs_Ff_EN_HI` (R192). -/
abbrev BMK_S_SET_F_EN_HI (k s f : Nat) : Nat := 0x151444 + 0x1000 * k + 0x200 * s + 0x18 * f

/-- `BMK_Sk_SETs_Ff_EN_HI.BEAMS`, RW, reset 0xFFFF_FFFF. -/
abbrev BMK_S_SET_F_EN_HI_BEAMS (k s f : Nat) : Fld := ⟨(BMK_S_SET_F_EN_HI k s f), 0, 32⟩

/-- `BMK_Sk_SETs_Ff_OVA_LO` (R192). -/
abbrev BMK_S_SET_F_OVA_LO (k s f : Nat) : Nat := 0x151448 + 0x1000 * k + 0x200 * s + 0x18 * f

/-- `BMK_Sk_SETs_Ff_OVA_LO.BEAMS`, RW, reset 0x0000_0000. -/
abbrev BMK_S_SET_F_OVA_LO_BEAMS (k s f : Nat) : Fld := ⟨(BMK_S_SET_F_OVA_LO k s f), 0, 32⟩

/-- `BMK_Sk_SETs_Ff_OVA_HI` (R192). -/
abbrev BMK_S_SET_F_OVA_HI (k s f : Nat) : Nat := 0x15144c + 0x1000 * k + 0x200 * s + 0x18 * f

/-- `BMK_Sk_SETs_Ff_OVA_HI.BEAMS`, RW, reset 0x0000_0000. -/
abbrev BMK_S_SET_F_OVA_HI_BEAMS (k s f : Nat) : Fld := ⟨(BMK_S_SET_F_OVA_HI k s f), 0, 32⟩

/-- `BMK_Sk_SETs_Ff_OVB_LO` (R192). -/
abbrev BMK_S_SET_F_OVB_LO (k s f : Nat) : Nat := 0x151450 + 0x1000 * k + 0x200 * s + 0x18 * f

/-- `BMK_Sk_SETs_Ff_OVB_LO.BEAMS`, RW, reset 0x0000_0000. -/
abbrev BMK_S_SET_F_OVB_LO_BEAMS (k s f : Nat) : Fld := ⟨(BMK_S_SET_F_OVB_LO k s f), 0, 32⟩

/-- `BMK_Sk_SETs_Ff_OVB_HI` (R192). -/
abbrev BMK_S_SET_F_OVB_HI (k s f : Nat) : Nat := 0x151454 + 0x1000 * k + 0x200 * s + 0x18 * f

/-- `BMK_Sk_SETs_Ff_OVB_HI.BEAMS`, RW, reset 0x0000_0000. -/
abbrev BMK_S_SET_F_OVB_HI_BEAMS (k s f : Nat) : Fld := ⟨(BMK_S_SET_F_OVB_HI k s f), 0, 32⟩

/-- `BLD_CTRL` (R240). -/
abbrev BLD_CTRL : Nat := 0x160000

/-- `BLD_CTRL.EN`, RW, reset 0x0. -/
abbrev BLD_CTRL_EN : Fld := ⟨BLD_CTRL, 0, 1⟩

/-- `BLD_STATUS` (R240). -/
abbrev BLD_STATUS : Nat := 0x160004

/-- `BLD_STATUS.START_FAIL`, W1C, reset 0x0. -/
abbrev BLD_STATUS_START_FAIL : Fld := ⟨BLD_STATUS, 0, 1⟩

/-- `BLD_STATUS.SYNC_LOST`, W1C, reset 0x0. -/
abbrev BLD_STATUS_SYNC_LOST : Fld := ⟨BLD_STATUS, 1, 1⟩

/-- `BLD_STATUS.REVERSE`, W1C, reset 0x0. -/
abbrev BLD_STATUS_REVERSE : Fld := ⟨BLD_STATUS, 2, 1⟩

/-- `BLD_STATUS.DRV_FAULT`, W1C, reset 0x0. -/
abbrev BLD_STATUS_DRV_FAULT : Fld := ⟨BLD_STATUS, 3, 1⟩

/-- `BLD_STATUS.CLAIM_LOST`, W1C, reset 0x0. -/
abbrev BLD_STATUS_CLAIM_LOST : Fld := ⟨BLD_STATUS, 4, 1⟩

/-- `BLD_STATUS.CMD_ERR`, W1C, reset 0x0. -/
abbrev BLD_STATUS_CMD_ERR : Fld := ⟨BLD_STATUS, 5, 1⟩

/-- `BLD_STATUS.FIRST`, RO, reset 0x0. -/
abbrev BLD_STATUS_FIRST : Fld := ⟨BLD_STATUS, 16, 4⟩

/-- `BLD_STATUS.OVF`, W1C, reset 0x0. -/
abbrev BLD_STATUS_OVF : Fld := ⟨BLD_STATUS, 20, 1⟩

/-- `BLD_IRQ_EN` (R240). -/
abbrev BLD_IRQ_EN : Nat := 0x160008

/-- `BLD_IRQ_EN.EN`, RW, reset 0x00. -/
abbrev BLD_IRQ_EN_EN : Fld := ⟨BLD_IRQ_EN, 0, 6⟩

/-- `BLD_FIRST_CHANNEL` (R240). -/
abbrev BLD_FIRST_CHANNEL : Nat := 0x16000c

/-- `BLD_FIRST_CHANNEL.CHANNEL`, RO, reset 0x00. -/
abbrev BLD_FIRST_CHANNEL_CHANNEL : Fld := ⟨BLD_FIRST_CHANNEL, 0, 5⟩

/-- `BLD_RUNNING` (R240). -/
abbrev BLD_RUNNING : Nat := 0x160010

/-- `BLD_RUNNING.RUN`, RO, reset 0x00_0000. -/
abbrev BLD_RUNNING_RUN : Fld := ⟨BLD_RUNNING, 0, 24⟩

/-- `BLD_Cn_CTRL` (R240). -/
abbrev BLD_C_CTRL (n : Nat) : Nat := 0x160100 + 0x40 * n

/-- `BLD_Cn_CTRL.START`, WO, reset 0x0. -/
abbrev BLD_C_CTRL_START (n : Nat) : Fld := ⟨(BLD_C_CTRL n), 0, 1⟩

/-- `BLD_Cn_CTRL.COAST`, WO, reset 0x0. -/
abbrev BLD_C_CTRL_COAST (n : Nat) : Fld := ⟨(BLD_C_CTRL n), 1, 1⟩

/-- `BLD_Cn_CTRL.DIR`, RW, reset 0x0. -/
abbrev BLD_C_CTRL_DIR (n : Nat) : Fld := ⟨(BLD_C_CTRL n), 2, 1⟩

/-- `BLD_Cn_CTRL.DUTY_SRC`, RW, reset 0x0. -/
abbrev BLD_C_CTRL_DUTY_SRC (n : Nat) : Fld := ⟨(BLD_C_CTRL n), 3, 1⟩

/-- `BLD_Cn_CTRL.COMPL`, RW, reset 0x0. -/
abbrev BLD_C_CTRL_COMPL (n : Nat) : Fld := ⟨(BLD_C_CTRL n), 4, 1⟩

/-- `BLD_Cn_CTRL.CATCH_EN`, RW, reset 0x1. -/
abbrev BLD_C_CTRL_CATCH_EN (n : Nat) : Fld := ⟨(BLD_C_CTRL n), 5, 1⟩

/-- `BLD_Cn_CTRL.LOOP`, RW, reset 0x00. -/
abbrev BLD_C_CTRL_LOOP (n : Nat) : Fld := ⟨(BLD_C_CTRL n), 8, 7⟩

/-- `BLD_Cn_STATE` (R240). -/
abbrev BLD_C_STATE (n : Nat) : Nat := 0x160104 + 0x40 * n

/-- `BLD_Cn_STATE.STATE`, RO, reset 0x0. -/
abbrev BLD_C_STATE_STATE (n : Nat) : Fld := ⟨(BLD_C_STATE n), 0, 3⟩

/-- `BLD_Cn_STATE.SECTOR`, RO, reset 0x0. -/
abbrev BLD_C_STATE_SECTOR (n : Nat) : Fld := ⟨(BLD_C_STATE n), 3, 3⟩

/-- `BLD_Cn_STATE.SAT`, RO, reset 0x0. -/
abbrev BLD_C_STATE_SAT (n : Nat) : Fld := ⟨(BLD_C_STATE n), 6, 1⟩

/-- `BLD_Cn_STATE.SPEED_LIM`, RO, reset 0x0. -/
abbrev BLD_C_STATE_SPEED_LIM (n : Nat) : Fld := ⟨(BLD_C_STATE n), 7, 1⟩

/-- `BLD_Cn_STATE.LAST_FAIL`, RO, reset 0x00. -/
abbrev BLD_C_STATE_LAST_FAIL (n : Nat) : Fld := ⟨(BLD_C_STATE n), 8, 8⟩

/-- `BLD_Cn_STATE.PRED_RUN`, RO, reset 0x00. -/
abbrev BLD_C_STATE_PRED_RUN (n : Nat) : Fld := ⟨(BLD_C_STATE n), 16, 8⟩

/-- `BLD_Cn_PWM` (R240). -/
abbrev BLD_C_PWM (n : Nat) : Nat := 0x160108 + 0x40 * n

/-- `BLD_Cn_PWM.PERIOD`, RW, reset 0x61A8. -/
abbrev BLD_C_PWM_PERIOD (n : Nat) : Fld := ⟨(BLD_C_PWM n), 0, 16⟩

/-- `BLD_Cn_PWM.DT`, RW, reset 0x0A. -/
abbrev BLD_C_PWM_DT (n : Nat) : Fld := ⟨(BLD_C_PWM n), 16, 6⟩

/-- `BLD_Cn_PWM.MIN_ON`, RW, reset 0x14. -/
abbrev BLD_C_PWM_MIN_ON (n : Nat) : Fld := ⟨(BLD_C_PWM n), 24, 6⟩

/-- `BLD_Cn_DUTY` (R240). -/
abbrev BLD_C_DUTY (n : Nat) : Nat := 0x16010c + 0x40 * n

/-- `BLD_Cn_DUTY.DUTY`, RW, reset 0x0000. -/
abbrev BLD_C_DUTY_DUTY (n : Nat) : Fld := ⟨(BLD_C_DUTY n), 0, 16⟩

/-- `BLD_Cn_DUTY.DUTY_MAX`, RW, reset 0xF333. -/
abbrev BLD_C_DUTY_DUTY_MAX (n : Nat) : Fld := ⟨(BLD_C_DUTY n), 16, 16⟩

/-- `BLD_Cn_BEMF` (R240). -/
abbrev BLD_C_BEMF (n : Nat) : Nat := 0x160110 + 0x40 * n

/-- `BLD_Cn_BEMF.BLANK`, RW, reset 0x1E. -/
abbrev BLD_C_BEMF_BLANK (n : Nat) : Fld := ⟨(BLD_C_BEMF n), 0, 6⟩

/-- `BLD_Cn_BEMF.SAMPLE_MIN`, RW, reset 0x0A. -/
abbrev BLD_C_BEMF_SAMPLE_MIN (n : Nat) : Fld := ⟨(BLD_C_BEMF n), 8, 6⟩

/-- `BLD_Cn_BEMF.PRED_MAX`, RW, reset 0x6. -/
abbrev BLD_C_BEMF_PRED_MAX (n : Nat) : Fld := ⟨(BLD_C_BEMF n), 16, 4⟩

/-- `BLD_Cn_BEMF.ADVANCE`, RW, reset 0x00. -/
abbrev BLD_C_BEMF_ADVANCE (n : Nat) : Fld := ⟨(BLD_C_BEMF n), 24, 5⟩

/-- `BLD_Cn_ALIGN` (R240). -/
abbrev BLD_C_ALIGN (n : Nat) : Nat := 0x160114 + 0x40 * n

/-- `BLD_Cn_ALIGN.DUTY`, RW, reset 0x1000. -/
abbrev BLD_C_ALIGN_DUTY (n : Nat) : Fld := ⟨(BLD_C_ALIGN n), 0, 16⟩

/-- `BLD_Cn_ALIGN.MS`, RW, reset 0x0064. -/
abbrev BLD_C_ALIGN_MS (n : Nat) : Fld := ⟨(BLD_C_ALIGN n), 16, 16⟩

/-- `BLD_Cn_RAMP` (R240). -/
abbrev BLD_C_RAMP (n : Nat) : Nat := 0x160118 + 0x40 * n

/-- `BLD_Cn_RAMP.RAMP_DUTY`, RW, reset 0x2000. -/
abbrev BLD_C_RAMP_RAMP_DUTY (n : Nat) : Fld := ⟨(BLD_C_RAMP n), 0, 16⟩

/-- `BLD_Cn_RAMP.F0_HZ`, RW, reset 0x000A. -/
abbrev BLD_C_RAMP_F0_HZ (n : Nat) : Fld := ⟨(BLD_C_RAMP n), 16, 16⟩

/-- `BLD_Cn_RAMP_RATE` (R240). -/
abbrev BLD_C_RAMP_RATE (n : Nat) : Nat := 0x16011c + 0x40 * n

/-- `BLD_Cn_RAMP_RATE.HZ_S`, RW, reset 0x00_01F4. -/
abbrev BLD_C_RAMP_RATE_HZ_S (n : Nat) : Fld := ⟨(BLD_C_RAMP_RATE n), 0, 24⟩

/-- `BLD_Cn_HANDOVER` (R240). -/
abbrev BLD_C_HANDOVER (n : Nat) : Nat := 0x160120 + 0x40 * n

/-- `BLD_Cn_HANDOVER.HZ`, RW, reset 0x0064. -/
abbrev BLD_C_HANDOVER_HZ (n : Nat) : Fld := ⟨(BLD_C_HANDOVER n), 0, 16⟩

/-- `BLD_Cn_HANDOVER.N`, RW, reset 0x6. -/
abbrev BLD_C_HANDOVER_N (n : Nat) : Fld := ⟨(BLD_C_HANDOVER n), 16, 4⟩

/-- `BLD_Cn_LIMIT` (R240). -/
abbrev BLD_C_LIMIT (n : Nat) : Nat := 0x160124 + 0x40 * n

/-- `BLD_Cn_LIMIT.FMAX_HZ`, RW, reset 0x1770. -/
abbrev BLD_C_LIMIT_FMAX_HZ (n : Nat) : Fld := ⟨(BLD_C_LIMIT n), 0, 16⟩

/-- `BLD_Cn_DETECT` (R240). -/
abbrev BLD_C_DETECT (n : Nat) : Nat := 0x160128 + 0x40 * n

/-- `BLD_Cn_DETECT.QUIET_MS`, RW, reset 0x0032. -/
abbrev BLD_C_DETECT_QUIET_MS (n : Nat) : Fld := ⟨(BLD_C_DETECT n), 0, 16⟩

/-- `BLD_Cn_DETECT.TIMEOUT_MS`, RW, reset 0x2710. -/
abbrev BLD_C_DETECT_TIMEOUT_MS (n : Nat) : Fld := ⟨(BLD_C_DETECT n), 16, 16⟩

/-- `BLD_Cn_PERIOD` (R240). -/
abbrev BLD_C_PERIOD (n : Nat) : Nat := 0x16012c + 0x40 * n

/-- `BLD_Cn_PERIOD.TICKS`, RO, reset 0x0000_0000. -/
abbrev BLD_C_PERIOD_TICKS (n : Nat) : Fld := ⟨(BLD_C_PERIOD n), 0, 32⟩

/-- `BLD_Cn_CNT_SHORT` (R240). -/
abbrev BLD_C_CNT_SHORT (n : Nat) : Nat := 0x160130 + 0x40 * n

/-- `BLD_Cn_CNT_SHORT.COUNT`, RO, reset 0x0000_0000. -/
abbrev BLD_C_CNT_SHORT_COUNT (n : Nat) : Fld := ⟨(BLD_C_CNT_SHORT n), 0, 32⟩

/-- `BLD_Cn_CNT_SKIP` (R240). -/
abbrev BLD_C_CNT_SKIP (n : Nat) : Nat := 0x160134 + 0x40 * n

/-- `BLD_Cn_CNT_SKIP.COUNT`, RO, reset 0x0000_0000. -/
abbrev BLD_C_CNT_SKIP_COUNT (n : Nat) : Fld := ⟨(BLD_C_CNT_SKIP n), 0, 32⟩

/-- `BLD_Cn_CNT_PRED` (R240). -/
abbrev BLD_C_CNT_PRED (n : Nat) : Nat := 0x160138 + 0x40 * n

/-- `BLD_Cn_CNT_PRED.COUNT`, RO, reset 0x0000_0000. -/
abbrev BLD_C_CNT_PRED_COUNT (n : Nat) : Fld := ⟨(BLD_C_CNT_PRED n), 0, 32⟩

/-- `BLD_Cn_CNT_STARTS` (R240). -/
abbrev BLD_C_CNT_STARTS (n : Nat) : Nat := 0x16013c + 0x40 * n

/-- `BLD_Cn_CNT_STARTS.COUNT`, RO, reset 0x0000_0000. -/
abbrev BLD_C_CNT_STARTS_COUNT (n : Nat) : Fld := ⟨(BLD_C_CNT_STARTS n), 0, 32⟩

/-- `STP_CTRL` (R256). -/
abbrev STP_CTRL : Nat := 0x170000

/-- `STP_CTRL.EN`, RW, reset 0x0. -/
abbrev STP_CTRL_EN : Fld := ⟨STP_CTRL, 0, 1⟩

/-- `STP_STATUS` (R256). -/
abbrev STP_STATUS : Nat := 0x170004

/-- `STP_STATUS.PRM_ERR`, W1C, reset 0x0. -/
abbrev STP_STATUS_PRM_ERR : Fld := ⟨STP_STATUS, 0, 1⟩

/-- `STP_STATUS.BUSY_REF`, W1C, reset 0x0. -/
abbrev STP_STATUS_BUSY_REF : Fld := ⟨STP_STATUS, 1, 1⟩

/-- `STP_STATUS.POS_LOST`, W1C, reset 0x0. -/
abbrev STP_STATUS_POS_LOST : Fld := ⟨STP_STATUS, 2, 1⟩

/-- `STP_STATUS.DRV_FAULT`, W1C, reset 0x0. -/
abbrev STP_STATUS_DRV_FAULT : Fld := ⟨STP_STATUS, 3, 1⟩

/-- `STP_STATUS.CLAIM_LOST`, W1C, reset 0x0. -/
abbrev STP_STATUS_CLAIM_LOST : Fld := ⟨STP_STATUS, 4, 1⟩

/-- `STP_STATUS.CMD_ERR`, W1C, reset 0x0. -/
abbrev STP_STATUS_CMD_ERR : Fld := ⟨STP_STATUS, 5, 1⟩

/-- `STP_STATUS.FIRST`, RO, reset 0x0. -/
abbrev STP_STATUS_FIRST : Fld := ⟨STP_STATUS, 16, 4⟩

/-- `STP_STATUS.OVF`, W1C, reset 0x0. -/
abbrev STP_STATUS_OVF : Fld := ⟨STP_STATUS, 20, 1⟩

/-- `STP_IRQ_EN` (R256). -/
abbrev STP_IRQ_EN : Nat := 0x170008

/-- `STP_IRQ_EN.EN`, RW, reset 0x00. -/
abbrev STP_IRQ_EN_EN : Fld := ⟨STP_IRQ_EN, 0, 6⟩

/-- `STP_FIRST_CHANNEL` (R256). -/
abbrev STP_FIRST_CHANNEL : Nat := 0x17000c

/-- `STP_FIRST_CHANNEL.CHANNEL`, RO, reset 0x00. -/
abbrev STP_FIRST_CHANNEL_CHANNEL : Fld := ⟨STP_FIRST_CHANNEL, 0, 6⟩

/-- `STP_MOVING_LO` (R256). -/
abbrev STP_MOVING_LO : Nat := 0x170010

/-- `STP_MOVING_LO.MOVING`, RO, reset 0x0000_0000. -/
abbrev STP_MOVING_LO_MOVING : Fld := ⟨STP_MOVING_LO, 0, 32⟩

/-- `STP_MOVING_HI` (R256). -/
abbrev STP_MOVING_HI : Nat := 0x170014

/-- `STP_MOVING_HI.MOVING`, RO, reset 0x0000. -/
abbrev STP_MOVING_HI_MOVING : Fld := ⟨STP_MOVING_HI, 0, 16⟩

/-- `STP_Cn_CTRL` (R256). -/
abbrev STP_C_CTRL (n : Nat) : Nat := 0x170100 + 0x80 * n

/-- `STP_Cn_CTRL.GOTO`, WO, reset 0x0. -/
abbrev STP_C_CTRL_GOTO (n : Nat) : Fld := ⟨(STP_C_CTRL n), 0, 1⟩

/-- `STP_Cn_CTRL.STOP`, WO, reset 0x0. -/
abbrev STP_C_CTRL_STOP (n : Nat) : Fld := ⟨(STP_C_CTRL n), 1, 1⟩

/-- `STP_Cn_CTRL.DIR_INV`, RW, reset 0x0. -/
abbrev STP_C_CTRL_DIR_INV (n : Nat) : Fld := ⟨(STP_C_CTRL n), 2, 1⟩

/-- `STP_Cn_CTRL.CHOP_EN`, RW, reset 0x0. -/
abbrev STP_C_CTRL_CHOP_EN (n : Nat) : Fld := ⟨(STP_C_CTRL n), 3, 1⟩

/-- `STP_Cn_CTRL.ADAPT_EN`, RW, reset 0x1. -/
abbrev STP_C_CTRL_ADAPT_EN (n : Nat) : Fld := ⟨(STP_C_CTRL n), 4, 1⟩

/-- `STP_Cn_CTRL.CLR_LOST`, WO, reset 0x0. -/
abbrev STP_C_CTRL_CLR_LOST (n : Nat) : Fld := ⟨(STP_C_CTRL n), 5, 1⟩

/-- `STP_Cn_STATE` (R256). -/
abbrev STP_C_STATE (n : Nat) : Nat := 0x170104 + 0x80 * n

/-- `STP_Cn_STATE.STATE`, RO, reset 0x0. -/
abbrev STP_C_STATE_STATE (n : Nat) : Fld := ⟨(STP_C_STATE n), 0, 2⟩

/-- `STP_Cn_STATE.RES`, RO, reset 0x8. -/
abbrev STP_C_STATE_RES (n : Nat) : Fld := ⟨(STP_C_STATE n), 2, 4⟩

/-- `STP_Cn_STATE.PHASE`, RO, reset 0x0. -/
abbrev STP_C_STATE_PHASE (n : Nat) : Fld := ⟨(STP_C_STATE n), 6, 2⟩

/-- `STP_Cn_STATE.POS_LOST`, RO, reset 0x0. -/
abbrev STP_C_STATE_POS_LOST (n : Nat) : Fld := ⟨(STP_C_STATE n), 8, 1⟩

/-- `STP_Cn_STATE.LAST_FAIL`, RO, reset 0x00. -/
abbrev STP_C_STATE_LAST_FAIL (n : Nat) : Fld := ⟨(STP_C_STATE n), 16, 8⟩

/-- `STP_Cn_VSTART` (R256). -/
abbrev STP_C_VSTART (n : Nat) : Nat := 0x170108 + 0x80 * n

/-- `STP_Cn_VSTART.SPEED`, RW, reset 0x00_1F40. -/
abbrev STP_C_VSTART_SPEED (n : Nat) : Fld := ⟨(STP_C_VSTART n), 0, 22⟩

/-- `STP_Cn_V1` (R256). -/
abbrev STP_C_V1 (n : Nat) : Nat := 0x17010c + 0x80 * n

/-- `STP_Cn_V1.SPEED`, RW, reset 0x00_FA00. -/
abbrev STP_C_V1_SPEED (n : Nat) : Fld := ⟨(STP_C_V1 n), 0, 22⟩

/-- `STP_Cn_VMAX` (R256). -/
abbrev STP_C_VMAX (n : Nat) : Nat := 0x170110 + 0x80 * n

/-- `STP_Cn_VMAX.SPEED`, RW, reset 0x00_FA00. -/
abbrev STP_C_VMAX_SPEED (n : Nat) : Fld := ⟨(STP_C_VMAX n), 0, 22⟩

/-- `STP_Cn_VSTOP` (R256). -/
abbrev STP_C_VSTOP (n : Nat) : Nat := 0x170114 + 0x80 * n

/-- `STP_Cn_VSTOP.SPEED`, RW, reset 0x00_1F40. -/
abbrev STP_C_VSTOP_SPEED (n : Nat) : Fld := ⟨(STP_C_VSTOP n), 0, 22⟩

/-- `STP_Cn_ACC1` (R256). -/
abbrev STP_C_ACC1 (n : Nat) : Nat := 0x170118 + 0x80 * n

/-- `STP_Cn_ACC1.ACC`, RW, reset 0x06_1A80. -/
abbrev STP_C_ACC1_ACC (n : Nat) : Fld := ⟨(STP_C_ACC1 n), 0, 24⟩

/-- `STP_Cn_ACC2` (R256). -/
abbrev STP_C_ACC2 (n : Nat) : Nat := 0x17011c + 0x80 * n

/-- `STP_Cn_ACC2.ACC`, RW, reset 0x06_1A80. -/
abbrev STP_C_ACC2_ACC (n : Nat) : Fld := ⟨(STP_C_ACC2 n), 0, 24⟩

/-- `STP_Cn_TARGET` (R256). -/
abbrev STP_C_TARGET (n : Nat) : Nat := 0x170120 + 0x80 * n

/-- `STP_Cn_TARGET.POS`, RW, reset 0x0000_0000. -/
abbrev STP_C_TARGET_POS (n : Nat) : Fld := ⟨(STP_C_TARGET n), 0, 32⟩

/-- `STP_Cn_XACT` (R256). -/
abbrev STP_C_XACT (n : Nat) : Nat := 0x170124 + 0x80 * n

/-- `STP_Cn_XACT.POS`, RW, reset 0x0000_0000. -/
abbrev STP_C_XACT_POS (n : Nat) : Fld := ⟨(STP_C_XACT n), 0, 32⟩

/-- `STP_Cn_VACT` (R256). -/
abbrev STP_C_VACT (n : Nat) : Nat := 0x170128 + 0x80 * n

/-- `STP_Cn_VACT.SPEED`, RO, reset 0x00_0000. -/
abbrev STP_C_VACT_SPEED (n : Nat) : Fld := ⟨(STP_C_VACT n), 0, 22⟩

/-- `STP_Cn_KVAL` (R256). -/
abbrev STP_C_KVAL (n : Nat) : Nat := 0x17012c + 0x80 * n

/-- `STP_Cn_KVAL.HOLD`, RW, reset 0x20. -/
abbrev STP_C_KVAL_HOLD (n : Nat) : Fld := ⟨(STP_C_KVAL n), 0, 8⟩

/-- `STP_Cn_KVAL.ACC`, RW, reset 0x40. -/
abbrev STP_C_KVAL_ACC (n : Nat) : Fld := ⟨(STP_C_KVAL n), 8, 8⟩

/-- `STP_Cn_KVAL.RUN`, RW, reset 0x40. -/
abbrev STP_C_KVAL_RUN (n : Nat) : Fld := ⟨(STP_C_KVAL n), 16, 8⟩

/-- `STP_Cn_KFF` (R256). -/
abbrev STP_C_KFF (n : Nat) : Nat := 0x170130 + 0x80 * n

/-- `STP_Cn_KFF.KFF`, RW, reset 0x0000. -/
abbrev STP_C_KFF_KFF (n : Nat) : Fld := ⟨(STP_C_KFF n), 0, 16⟩

/-- `STP_Cn_PWM` (R256). -/
abbrev STP_C_PWM (n : Nat) : Nat := 0x170134 + 0x80 * n

/-- `STP_Cn_PWM.PERIOD`, RW, reset 0x61A8. -/
abbrev STP_C_PWM_PERIOD (n : Nat) : Fld := ⟨(STP_C_PWM n), 0, 16⟩

/-- `STP_Cn_PWM.DT`, RW, reset 0x0A. -/
abbrev STP_C_PWM_DT (n : Nat) : Fld := ⟨(STP_C_PWM n), 16, 6⟩

/-- `STP_Cn_PWM.MIN_ON`, RW, reset 0x14. -/
abbrev STP_C_PWM_MIN_ON (n : Nat) : Fld := ⟨(STP_C_PWM n), 24, 6⟩

/-- `STP_Cn_CHOP` (R256). -/
abbrev STP_C_CHOP (n : Nat) : Nat := 0x170138 + 0x80 * n

/-- `STP_Cn_CHOP.IRUN`, RW, reset 0x80. -/
abbrev STP_C_CHOP_IRUN (n : Nat) : Fld := ⟨(STP_C_CHOP n), 0, 8⟩

/-- `STP_Cn_CHOP.IHOLD`, RW, reset 0x40. -/
abbrev STP_C_CHOP_IHOLD (n : Nat) : Fld := ⟨(STP_C_CHOP n), 8, 8⟩

/-- `STP_Cn_CHOP.HYST`, RW, reset 0x08. -/
abbrev STP_C_CHOP_HYST (n : Nat) : Fld := ⟨(STP_C_CHOP n), 16, 6⟩

/-- `STP_Cn_CHOP.TOFF_MIN`, RW, reset 0x32. -/
abbrev STP_C_CHOP_TOFF_MIN (n : Nat) : Fld := ⟨(STP_C_CHOP n), 24, 6⟩

/-- `STP_Cn_OFS` (R256). -/
abbrev STP_C_OFS (n : Nat) : Nat := 0x17013c + 0x80 * n

/-- `STP_Cn_OFS.OFS_A`, RW, reset 0x00. -/
abbrev STP_C_OFS_OFS_A (n : Nat) : Fld := ⟨(STP_C_OFS n), 0, 6⟩

/-- `STP_Cn_OFS.OFS_B`, RW, reset 0x00. -/
abbrev STP_C_OFS_OFS_B (n : Nat) : Fld := ⟨(STP_C_OFS n), 8, 6⟩

/-- `STP_Cn_OFS.SAT_A`, RO, reset 0x0. -/
abbrev STP_C_OFS_SAT_A (n : Nat) : Fld := ⟨(STP_C_OFS n), 16, 1⟩

/-- `STP_Cn_OFS.SAT_B`, RO, reset 0x0. -/
abbrev STP_C_OFS_SAT_B (n : Nat) : Fld := ⟨(STP_C_OFS n), 17, 1⟩

/-- `STP_Cn_PRESETp` (R256). -/
abbrev STP_C_PRESET (n p : Nat) : Nat := 0x170140 + 0x80 * n + 0x4 * p

/-- `STP_Cn_PRESETp.POS`, RW, reset 0x0000_0000. -/
abbrev STP_C_PRESET_POS (n p : Nat) : Fld := ⟨(STP_C_PRESET n p), 0, 32⟩

/-- `STP_Cn_CNT_MOVES` (R256). -/
abbrev STP_C_CNT_MOVES (n : Nat) : Nat := 0x170150 + 0x80 * n

/-- `STP_Cn_CNT_MOVES.COUNT`, RO, reset 0x0000_0000. -/
abbrev STP_C_CNT_MOVES_COUNT (n : Nat) : Fld := ⟨(STP_C_CNT_MOVES n), 0, 32⟩

/-- `STP_Cn_CNT_SHORT` (R256). -/
abbrev STP_C_CNT_SHORT (n : Nat) : Nat := 0x170154 + 0x80 * n

/-- `STP_Cn_CNT_SHORT.COUNT`, RO, reset 0x0000_0000. -/
abbrev STP_C_CNT_SHORT_COUNT (n : Nat) : Fld := ⟨(STP_C_CNT_SHORT n), 0, 32⟩

/-- `STP_Cn_CNT_REFUSED` (R256). -/
abbrev STP_C_CNT_REFUSED (n : Nat) : Nat := 0x170158 + 0x80 * n

/-- `STP_Cn_CNT_REFUSED.COUNT`, RO, reset 0x0000_0000. -/
abbrev STP_C_CNT_REFUSED_COUNT (n : Nat) : Fld := ⟨(STP_C_CNT_REFUSED n), 0, 32⟩

/-- `PRA_CTRL` (R276). -/
abbrev PRA_CTRL : Nat := 0x180000

/-- `PRA_CTRL.EN`, RW, reset 0x0. -/
abbrev PRA_CTRL_EN : Fld := ⟨PRA_CTRL, 0, 1⟩

/-- `PRA_STATUS` (R276). -/
abbrev PRA_STATUS : Nat := 0x180004

/-- `PRA_STATUS.OVERRUN`, W1C, reset 0x0. -/
abbrev PRA_STATUS_OVERRUN : Fld := ⟨PRA_STATUS, 0, 1⟩

/-- `PRA_STATUS.SWAP_ERR`, W1C, reset 0x0. -/
abbrev PRA_STATUS_SWAP_ERR : Fld := ⟨PRA_STATUS, 1, 1⟩

/-- `PRA_STATUS.CMD_ERR`, W1C, reset 0x0. -/
abbrev PRA_STATUS_CMD_ERR : Fld := ⟨PRA_STATUS, 2, 1⟩

/-- `PRA_STATUS.LOCK_LOST`, W1C, reset 0x0. -/
abbrev PRA_STATUS_LOCK_LOST : Fld := ⟨PRA_STATUS, 3, 1⟩

/-- `PRA_STATUS.INPUT_LOST`, W1C, reset 0x0. -/
abbrev PRA_STATUS_INPUT_LOST : Fld := ⟨PRA_STATUS, 4, 1⟩

/-- `PRA_STATUS.FIRST`, RO, reset 0x0. -/
abbrev PRA_STATUS_FIRST : Fld := ⟨PRA_STATUS, 16, 4⟩

/-- `PRA_STATUS.OVF`, W1C, reset 0x0. -/
abbrev PRA_STATUS_OVF : Fld := ⟨PRA_STATUS, 20, 1⟩

/-- `PRA_IRQ_EN` (R276). -/
abbrev PRA_IRQ_EN : Nat := 0x180008

/-- `PRA_IRQ_EN.EN`, RW, reset 0x00. -/
abbrev PRA_IRQ_EN_EN : Fld := ⟨PRA_IRQ_EN, 0, 5⟩

/-- `PRA_FIRST_SLOT` (R276). -/
abbrev PRA_FIRST_SLOT : Nat := 0x18000c

/-- `PRA_FIRST_SLOT.SLOT`, RO, reset 0x00. -/
abbrev PRA_FIRST_SLOT_SLOT : Fld := ⟨PRA_FIRST_SLOT, 0, 7⟩

/-- `PRA_LOAD` (R276). -/
abbrev PRA_LOAD : Nat := 0x180010

/-- `PRA_LOAD.LAST`, RO, reset 0x00. -/
abbrev PRA_LOAD_LAST : Fld := ⟨PRA_LOAD, 0, 8⟩

/-- `PRA_LOAD.MAX`, RO, reset 0x00. -/
abbrev PRA_LOAD_MAX : Fld := ⟨PRA_LOAD, 8, 8⟩

/-- `PRA_LOAD.CLR`, WO, reset 0x0. -/
abbrev PRA_LOAD_CLR : Fld := ⟨PRA_LOAD, 31, 1⟩

/-- `PRA_LOCKEDk` (R276). -/
abbrev PRA_LOCKED (k : Nat) : Nat := 0x180020 + 0x4 * k

/-- `PRA_LOCKEDk.LOCKED`, RO, reset 0x0000_0000. -/
abbrev PRA_LOCKED_LOCKED (k : Nat) : Fld := ⟨(PRA_LOCKED k), 0, 32⟩

/-- `PRA_POLICYk` (R276). -/
abbrev PRA_POLICY (k : Nat) : Nat := 0x180030 + 0x4 * k

/-- `PRA_POLICYk.LIMITED`, RO, reset 0x0000_0000. -/
abbrev PRA_POLICY_LIMITED (k : Nat) : Fld := ⟨(PRA_POLICY k), 0, 32⟩

/-- `PRA_LPOj_CFG` (R276). -/
abbrev PRA_LPO_CFG (j : Nat) : Nat := 0x180100 + 0x4 * j

/-- `PRA_LPOj_CFG.PERIOD`, RW, reset 0x61A8. -/
abbrev PRA_LPO_CFG_PERIOD (j : Nat) : Fld := ⟨(PRA_LPO_CFG j), 0, 16⟩

/-- `PRA_LPOj_CFG.UNIT`, RW, reset 0x0. -/
abbrev PRA_LPO_CFG_UNIT (j : Nat) : Fld := ⟨(PRA_LPO_CFG j), 16, 1⟩

/-- `PRA_LPOj_CFG.POL`, RW, reset 0x0. -/
abbrev PRA_LPO_CFG_POL (j : Nat) : Fld := ⟨(PRA_LPO_CFG j), 17, 1⟩

/-- `PRA_LPOj_CFG.EN`, RW, reset 0x0. -/
abbrev PRA_LPO_CFG_EN (j : Nat) : Fld := ⟨(PRA_LPO_CFG j), 18, 1⟩

/-- `PRA_LPOj_CFG.SLOT`, RW, reset 0x00. -/
abbrev PRA_LPO_CFG_SLOT (j : Nat) : Fld := ⟨(PRA_LPO_CFG j), 24, 7⟩

/-- `PRA_Ln_CTRL` (R276). -/
abbrev PRA_L_CTRL (n : Nat) : Nat := 0x181000 + 0x80 * n

/-- `PRA_Ln_CTRL.ON`, WO, reset 0x0. -/
abbrev PRA_L_CTRL_ON (n : Nat) : Fld := ⟨(PRA_L_CTRL n), 0, 1⟩

/-- `PRA_Ln_CTRL.OFF`, WO, reset 0x0. -/
abbrev PRA_L_CTRL_OFF (n : Nat) : Fld := ⟨(PRA_L_CTRL n), 1, 1⟩

/-- `PRA_Ln_CTRL.SYNC`, WO, reset 0x0. -/
abbrev PRA_L_CTRL_SYNC (n : Nat) : Fld := ⟨(PRA_L_CTRL n), 2, 1⟩

/-- `PRA_Ln_CTRL.INV`, RW, reset 0x0. -/
abbrev PRA_L_CTRL_INV (n : Nat) : Fld := ⟨(PRA_L_CTRL n), 3, 1⟩

/-- `PRA_Ln_CTRL.LOCK_WATCH`, RW, reset 0x0. -/
abbrev PRA_L_CTRL_LOCK_WATCH (n : Nat) : Fld := ⟨(PRA_L_CTRL n), 4, 1⟩

/-- `PRA_Ln_CTRL.FILT`, RW, reset 0x0. -/
abbrev PRA_L_CTRL_FILT (n : Nat) : Fld := ⟨(PRA_L_CTRL n), 8, 3⟩

/-- `PRA_Ln_SRC` (R276). -/
abbrev PRA_L_SRC (n : Nat) : Nat := 0x181004 + 0x80 * n

/-- `PRA_Ln_SRC.KIND`, RW, reset 0x0. -/
abbrev PRA_L_SRC_KIND (n : Nat) : Fld := ⟨(PRA_L_SRC n), 0, 3⟩

/-- `PRA_Ln_SRC.INDEX`, RW, reset 0x00. -/
abbrev PRA_L_SRC_INDEX (n : Nat) : Fld := ⟨(PRA_L_SRC n), 8, 7⟩

/-- `PRA_Ln_SRC.AT`, RW, reset 0x00. -/
abbrev PRA_L_SRC_AT (n : Nat) : Fld := ⟨(PRA_L_SRC n), 16, 6⟩

/-- `PRA_Ln_RATE` (R276). -/
abbrev PRA_L_RATE (n : Nat) : Nat := 0x181008 + 0x80 * n

/-- `PRA_Ln_RATE.DIV`, RW, reset 0x00001. -/
abbrev PRA_L_RATE_DIV (n : Nat) : Fld := ⟨(PRA_L_RATE n), 0, 20⟩

/-- `PRA_Ln_PHASE` (R276). -/
abbrev PRA_L_PHASE (n : Nat) : Nat := 0x18100c + 0x80 * n

/-- `PRA_Ln_PHASE.PHASE`, RW, reset 0x00000. -/
abbrev PRA_L_PHASE_PHASE (n : Nat) : Fld := ⟨(PRA_L_PHASE n), 0, 20⟩

/-- `PRA_Ln_SP` (R276). -/
abbrev PRA_L_SP (n : Nat) : Nat := 0x181010 + 0x80 * n

/-- `PRA_Ln_SP.SP`, RW, reset 0x0000_0000. -/
abbrev PRA_L_SP_SP (n : Nat) : Fld := ⟨(PRA_L_SP n), 0, 32⟩

/-- `PRA_Ln_KP` (R276). -/
abbrev PRA_L_KP (n : Nat) : Nat := 0x181014 + 0x80 * n

/-- `PRA_Ln_KP.KP`, RW, reset 0x0000_0000. -/
abbrev PRA_L_KP_KP (n : Nat) : Fld := ⟨(PRA_L_KP n), 0, 32⟩

/-- `PRA_Ln_KI` (R276). -/
abbrev PRA_L_KI (n : Nat) : Nat := 0x181018 + 0x80 * n

/-- `PRA_Ln_KI.KI`, RW, reset 0x0000_0000. -/
abbrev PRA_L_KI_KI (n : Nat) : Fld := ⟨(PRA_L_KI n), 0, 32⟩

/-- `PRA_Ln_KD` (R276). -/
abbrev PRA_L_KD (n : Nat) : Nat := 0x18101c + 0x80 * n

/-- `PRA_Ln_KD.KD`, RW, reset 0x0000_0000. -/
abbrev PRA_L_KD_KD (n : Nat) : Fld := ⟨(PRA_L_KD n), 0, 32⟩

/-- `PRA_Ln_LIMIT` (R276). -/
abbrev PRA_L_LIMIT (n : Nat) : Nat := 0x181020 + 0x80 * n

/-- `PRA_Ln_LIMIT.OUT_MIN`, RW, reset 0x0000. -/
abbrev PRA_L_LIMIT_OUT_MIN (n : Nat) : Fld := ⟨(PRA_L_LIMIT n), 0, 16⟩

/-- `PRA_Ln_LIMIT.OUT_MAX`, RW, reset 0xFFFF. -/
abbrev PRA_L_LIMIT_OUT_MAX (n : Nat) : Fld := ⟨(PRA_L_LIMIT n), 16, 16⟩

/-- `PRA_Ln_CAP` (R276). -/
abbrev PRA_L_CAP (n : Nat) : Nat := 0x181024 + 0x80 * n

/-- `PRA_Ln_CAP.CAP`, RW, reset 0xFFFF. -/
abbrev PRA_L_CAP_CAP (n : Nat) : Fld := ⟨(PRA_L_CAP n), 0, 16⟩

/-- `PRA_Ln_PRELOAD` (R276). -/
abbrev PRA_L_PRELOAD (n : Nat) : Nat := 0x181028 + 0x80 * n

/-- `PRA_Ln_PRELOAD.PRELOAD`, RW, reset 0x0000. -/
abbrev PRA_L_PRELOAD_PRELOAD (n : Nat) : Fld := ⟨(PRA_L_PRELOAD n), 0, 16⟩

/-- `PRA_Ln_LOCK` (R276). -/
abbrev PRA_L_LOCK (n : Nat) : Nat := 0x18102c + 0x80 * n

/-- `PRA_Ln_LOCK.BAND`, RW, reset 0x0000. -/
abbrev PRA_L_LOCK_BAND (n : Nat) : Fld := ⟨(PRA_L_LOCK n), 0, 16⟩

/-- `PRA_Ln_LOCK.LOCK_N`, RW, reset 0x10. -/
abbrev PRA_L_LOCK_LOCK_N (n : Nat) : Fld := ⟨(PRA_L_LOCK n), 16, 8⟩

/-- `PRA_Ln_LOCK.UNLOCK_N`, RW, reset 0x04. -/
abbrev PRA_L_LOCK_UNLOCK_N (n : Nat) : Fld := ⟨(PRA_L_LOCK n), 24, 8⟩

/-- `PRA_Ln_REF_LO` (R276). -/
abbrev PRA_L_REF_LO (n : Nat) : Nat := 0x181030 + 0x80 * n

/-- `PRA_Ln_REF_LO.REF`, RW, reset 0x0000_0000. -/
abbrev PRA_L_REF_LO_REF (n : Nat) : Fld := ⟨(PRA_L_REF_LO n), 0, 32⟩

/-- `PRA_Ln_REF_HI` (R276). -/
abbrev PRA_L_REF_HI (n : Nat) : Nat := 0x181034 + 0x80 * n

/-- `PRA_Ln_REF_HI.REF`, RW, reset 0x0000_0000. -/
abbrev PRA_L_REF_HI_REF (n : Nat) : Fld := ⟨(PRA_L_REF_HI n), 0, 32⟩

/-- `PRA_Ln_SWAP` (R276). -/
abbrev PRA_L_SWAP (n : Nat) : Nat := 0x181038 + 0x80 * n

/-- `PRA_Ln_SWAP.WITH`, RW, reset 0x00. -/
abbrev PRA_L_SWAP_WITH (n : Nat) : Fld := ⟨(PRA_L_SWAP n), 0, 7⟩

/-- `PRA_Ln_SWAP.REQ`, WO, reset 0x0. -/
abbrev PRA_L_SWAP_REQ (n : Nat) : Fld := ⟨(PRA_L_SWAP n), 8, 1⟩

/-- `PRA_Ln_SWAP.PENDING`, RO, reset 0x0. -/
abbrev PRA_L_SWAP_PENDING (n : Nat) : Fld := ⟨(PRA_L_SWAP n), 9, 1⟩

/-- `PRA_Ln_STATE` (R276). -/
abbrev PRA_L_STATE (n : Nat) : Nat := 0x18103c + 0x80 * n

/-- `PRA_Ln_STATE.STATE`, RO, reset 0x0. -/
abbrev PRA_L_STATE_STATE (n : Nat) : Fld := ⟨(PRA_L_STATE n), 0, 2⟩

/-- `PRA_Ln_STATE.LOCKED`, RO, reset 0x0. -/
abbrev PRA_L_STATE_LOCKED (n : Nat) : Fld := ⟨(PRA_L_STATE n), 2, 1⟩

/-- `PRA_Ln_STATE.SAT`, RO, reset 0x0. -/
abbrev PRA_L_STATE_SAT (n : Nat) : Fld := ⟨(PRA_L_STATE n), 3, 1⟩

/-- `PRA_Ln_STATE.POLICY_LIMITED`, RO, reset 0x0. -/
abbrev PRA_L_STATE_POLICY_LIMITED (n : Nat) : Fld := ⟨(PRA_L_STATE n), 4, 1⟩

/-- `PRA_Ln_STATE.EXT_SAT`, RO, reset 0x0. -/
abbrev PRA_L_STATE_EXT_SAT (n : Nat) : Fld := ⟨(PRA_L_STATE n), 5, 1⟩

/-- `PRA_Ln_STATE.HIST`, RO, reset 0x00. -/
abbrev PRA_L_STATE_HIST (n : Nat) : Fld := ⟨(PRA_L_STATE n), 8, 5⟩

/-- `PRA_Ln_OUT` (R276). -/
abbrev PRA_L_OUT (n : Nat) : Nat := 0x181040 + 0x80 * n

/-- `PRA_Ln_OUT.Y`, RO, reset 0x0000. -/
abbrev PRA_L_OUT_Y (n : Nat) : Fld := ⟨(PRA_L_OUT n), 0, 16⟩

/-- `PRA_Ln_PV` (R276). -/
abbrev PRA_L_PV (n : Nat) : Nat := 0x181044 + 0x80 * n

/-- `PRA_Ln_PV.PF`, RO, reset 0x0000_0000. -/
abbrev PRA_L_PV_PF (n : Nat) : Fld := ⟨(PRA_L_PV n), 0, 32⟩

/-- `PRA_Ln_ERR` (R276). -/
abbrev PRA_L_ERR (n : Nat) : Nat := 0x181048 + 0x80 * n

/-- `PRA_Ln_ERR.E`, RO, reset 0x0000_0000. -/
abbrev PRA_L_ERR_E (n : Nat) : Fld := ⟨(PRA_L_ERR n), 0, 32⟩

/-- `PRA_Ln_I_LO` (R276). -/
abbrev PRA_L_I_LO (n : Nat) : Nat := 0x18104c + 0x80 * n

/-- `PRA_Ln_I_LO.I`, RO, reset 0x0000_0000. -/
abbrev PRA_L_I_LO_I (n : Nat) : Fld := ⟨(PRA_L_I_LO n), 0, 32⟩

/-- `PRA_Ln_I_HI` (R276). -/
abbrev PRA_L_I_HI (n : Nat) : Nat := 0x181050 + 0x80 * n

/-- `PRA_Ln_I_HI.I`, RO, reset 0x0000. -/
abbrev PRA_L_I_HI_I (n : Nat) : Fld := ⟨(PRA_L_I_HI n), 0, 16⟩

/-- `PRA_Ln_DELAY` (R276). -/
abbrev PRA_L_DELAY (n : Nat) : Nat := 0x181054 + 0x80 * n

/-- `PRA_Ln_DELAY.LAST`, RO, reset 0x0000. -/
abbrev PRA_L_DELAY_LAST (n : Nat) : Fld := ⟨(PRA_L_DELAY n), 0, 16⟩

/-- `PRA_Ln_DELAY.MAX`, RO, reset 0x0000. -/
abbrev PRA_L_DELAY_MAX (n : Nat) : Fld := ⟨(PRA_L_DELAY n), 16, 16⟩

/-- `PRA_Ln_CNT_SAMPLES` (R276). -/
abbrev PRA_L_CNT_SAMPLES (n : Nat) : Nat := 0x181058 + 0x80 * n

/-- `PRA_Ln_CNT_SAMPLES.COUNT`, RO, reset 0x0000_0000. -/
abbrev PRA_L_CNT_SAMPLES_COUNT (n : Nat) : Fld := ⟨(PRA_L_CNT_SAMPLES n), 0, 32⟩

/-- `PRA_Ln_CNT_SAT` (R276). -/
abbrev PRA_L_CNT_SAT (n : Nat) : Nat := 0x18105c + 0x80 * n

/-- `PRA_Ln_CNT_SAT.COUNT`, RO, reset 0x0000_0000. -/
abbrev PRA_L_CNT_SAT_COUNT (n : Nat) : Fld := ⟨(PRA_L_CNT_SAT n), 0, 32⟩

/-- `ADC_CTRL` (R277). -/
abbrev ADC_CTRL : Nat := 0x190000

/-- `ADC_CTRL.EN`, RW, reset 0x0. -/
abbrev ADC_CTRL_EN : Fld := ⟨ADC_CTRL, 0, 1⟩

/-- `ADC_STATUS` (R277). -/
abbrev ADC_STATUS : Nat := 0x190004

/-- `ADC_STATUS.SEQ_ERR`, W1C, reset 0x0. -/
abbrev ADC_STATUS_SEQ_ERR : Fld := ⟨ADC_STATUS, 0, 1⟩

/-- `ADC_STATUS.CMD_ERR`, W1C, reset 0x0. -/
abbrev ADC_STATUS_CMD_ERR : Fld := ⟨ADC_STATUS, 1, 1⟩

/-- `ADC_STATUS.LIVE_WRITE`, W1C, reset 0x0. -/
abbrev ADC_STATUS_LIVE_WRITE : Fld := ⟨ADC_STATUS, 2, 1⟩

/-- `ADC_STATUS.FIRST`, RO, reset 0x0. -/
abbrev ADC_STATUS_FIRST : Fld := ⟨ADC_STATUS, 16, 4⟩

/-- `ADC_STATUS.OVF`, W1C, reset 0x0. -/
abbrev ADC_STATUS_OVF : Fld := ⟨ADC_STATUS, 20, 1⟩

/-- `ADC_IRQ_EN` (R277). -/
abbrev ADC_IRQ_EN : Nat := 0x190008

/-- `ADC_IRQ_EN.EN`, RW, reset 0x0. -/
abbrev ADC_IRQ_EN_EN : Fld := ⟨ADC_IRQ_EN, 0, 3⟩

/-- `ADC_FRAME` (R277). -/
abbrev ADC_FRAME : Nat := 0x19000c

/-- `ADC_FRAME.FRAME`, RO, reset 0x0000_0000. -/
abbrev ADC_FRAME_FRAME : Fld := ⟨ADC_FRAME, 0, 32⟩

/-- `ADC_Aa_CTRL` (R277). -/
abbrev ADC_A_CTRL (a : Nat) : Nat := 0x190010 + 0x4 * a

/-- `ADC_Aa_CTRL.NEXT`, RW, reset 0x0. -/
abbrev ADC_A_CTRL_NEXT (a : Nat) : Fld := ⟨(ADC_A_CTRL a), 0, 1⟩

/-- `ADC_Aa_CTRL.LIVE`, RO, reset 0x0. -/
abbrev ADC_A_CTRL_LIVE (a : Nat) : Fld := ⟨(ADC_A_CTRL a), 1, 1⟩

/-- `ADC_Aa_TRIM` (R277). -/
abbrev ADC_A_TRIM (a : Nat) : Nat := 0x190020 + 0x4 * a

/-- `ADC_Aa_TRIM.GAIN`, RW, reset 0x4000. -/
abbrev ADC_A_TRIM_GAIN (a : Nat) : Fld := ⟨(ADC_A_TRIM a), 0, 16⟩

/-- `ADC_Aa_TRIM.OFS`, RW, reset 0x000. -/
abbrev ADC_A_TRIM_OFS (a : Nat) : Fld := ⟨(ADC_A_TRIM a), 16, 12⟩

/-- `ADC_Aa_SEQb_Ww` (R277). -/
abbrev ADC_A_SEQ_W (a b w : Nat) : Nat := 0x190100 + 0x80 * a + 0x40 * b + 0x4 * w

/-- `ADC_Aa_SEQb_Ww.IN0`, RW, reset 0x00. -/
abbrev ADC_A_SEQ_W_IN0 (a b w : Nat) : Fld := ⟨(ADC_A_SEQ_W a b w), 0, 7⟩

/-- `ADC_Aa_SEQb_Ww.EN0`, RW, reset 0x0. -/
abbrev ADC_A_SEQ_W_EN0 (a b w : Nat) : Fld := ⟨(ADC_A_SEQ_W a b w), 7, 1⟩

/-- `ADC_Aa_SEQb_Ww.IN1`, RW, reset 0x00. -/
abbrev ADC_A_SEQ_W_IN1 (a b w : Nat) : Fld := ⟨(ADC_A_SEQ_W a b w), 8, 7⟩

/-- `ADC_Aa_SEQb_Ww.EN1`, RW, reset 0x0. -/
abbrev ADC_A_SEQ_W_EN1 (a b w : Nat) : Fld := ⟨(ADC_A_SEQ_W a b w), 15, 1⟩

/-- `ADC_Aa_SEQb_Ww.IN2`, RW, reset 0x00. -/
abbrev ADC_A_SEQ_W_IN2 (a b w : Nat) : Fld := ⟨(ADC_A_SEQ_W a b w), 16, 7⟩

/-- `ADC_Aa_SEQb_Ww.EN2`, RW, reset 0x0. -/
abbrev ADC_A_SEQ_W_EN2 (a b w : Nat) : Fld := ⟨(ADC_A_SEQ_W a b w), 23, 1⟩

/-- `ADC_Aa_SEQb_Ww.IN3`, RW, reset 0x00. -/
abbrev ADC_A_SEQ_W_IN3 (a b w : Nat) : Fld := ⟨(ADC_A_SEQ_W a b w), 24, 7⟩

/-- `ADC_Aa_SEQb_Ww.EN3`, RW, reset 0x0. -/
abbrev ADC_A_SEQ_W_EN3 (a b w : Nat) : Fld := ⟨(ADC_A_SEQ_W a b w), 31, 1⟩

/-- `ADC_RESULTn` (R277). -/
abbrev ADC_RESULT (n : Nat) : Nat := 0x190400 + 0x4 * n

/-- `ADC_RESULTn.CODE`, RO, reset 0x000. -/
abbrev ADC_RESULT_CODE (n : Nat) : Fld := ⟨(ADC_RESULT n), 0, 12⟩

/-- `ADC_RESULTn.ENTRY`, RO, reset 0x00. -/
abbrev ADC_RESULT_ENTRY (n : Nat) : Fld := ⟨(ADC_RESULT n), 16, 6⟩

/-- `ADC_RESULTn.VALID`, RO, reset 0x0. -/
abbrev ADC_RESULT_VALID (n : Nat) : Fld := ⟨(ADC_RESULT n), 31, 1⟩

/-- `ADC_Aa_CNT_CONV` (R277). -/
abbrev ADC_A_CNT_CONV (a : Nat) : Nat := 0x190600 + 0x4 * a

/-- `ADC_Aa_CNT_CONV.COUNT`, RO, reset 0x0000_0000. -/
abbrev ADC_A_CNT_CONV_COUNT (a : Nat) : Fld := ⟨(ADC_A_CNT_CONV a), 0, 32⟩

/-- `PWR_CTRL` (R303). -/
abbrev PWR_CTRL : Nat := 0x30000

/-- `PWR_CTRL.EN`, RW, reset 0x0. -/
abbrev PWR_CTRL_EN : Fld := ⟨PWR_CTRL, 0, 1⟩

/-- `PWR_CTRL.SNAP_REARM`, WO, reset 0x0. -/
abbrev PWR_CTRL_SNAP_REARM : Fld := ⟨PWR_CTRL, 1, 1⟩

/-- `PWR_STATUS` (R303). -/
abbrev PWR_STATUS : Nat := 0x30004

/-- `PWR_STATUS.UV`, W1C, reset 0x0. -/
abbrev PWR_STATUS_UV : Fld := ⟨PWR_STATUS, 0, 1⟩

/-- `PWR_STATUS.OV`, W1C, reset 0x0. -/
abbrev PWR_STATUS_OV : Fld := ⟨PWR_STATUS, 1, 1⟩

/-- `PWR_STATUS.SEQ_FAIL`, W1C, reset 0x0. -/
abbrev PWR_STATUS_SEQ_FAIL : Fld := ⟨PWR_STATUS, 2, 1⟩

/-- `PWR_STATUS.RETRY_EXH`, W1C, reset 0x0. -/
abbrev PWR_STATUS_RETRY_EXH : Fld := ⟨PWR_STATUS, 3, 1⟩

/-- `PWR_STATUS.PLL_LOSS`, W1C, reset 0x0. -/
abbrev PWR_STATUS_PLL_LOSS : Fld := ⟨PWR_STATUS, 4, 1⟩

/-- `PWR_STATUS.CMD_ERR`, W1C, reset 0x0. -/
abbrev PWR_STATUS_CMD_ERR : Fld := ⟨PWR_STATUS, 5, 1⟩

/-- `PWR_STATUS.FIRST`, RO, reset 0x0. -/
abbrev PWR_STATUS_FIRST : Fld := ⟨PWR_STATUS, 16, 4⟩

/-- `PWR_STATUS.OVF`, W1C, reset 0x0. -/
abbrev PWR_STATUS_OVF : Fld := ⟨PWR_STATUS, 20, 1⟩

/-- `PWR_IRQ_EN` (R303). -/
abbrev PWR_IRQ_EN : Nat := 0x30008

/-- `PWR_IRQ_EN.EN`, RW, reset 0x00. -/
abbrev PWR_IRQ_EN_EN : Fld := ⟨PWR_IRQ_EN, 0, 6⟩

/-- `PWR_FIRST_SOURCE` (R303). -/
abbrev PWR_FIRST_SOURCE : Nat := 0x3000c

/-- `PWR_FIRST_SOURCE.SOURCE`, RO, reset 0x00. -/
abbrev PWR_FIRST_SOURCE_SOURCE : Fld := ⟨PWR_FIRST_SOURCE, 0, 6⟩

/-- `PWR_GOOD` (R303). -/
abbrev PWR_GOOD : Nat := 0x30010

/-- `PWR_GOOD.GOOD`, RO, reset 0x0000_0000. -/
abbrev PWR_GOOD_GOOD : Fld := ⟨PWR_GOOD, 0, 32⟩

/-- `PWR_EN_STATE` (R303). -/
abbrev PWR_EN_STATE : Nat := 0x30014

/-- `PWR_EN_STATE.EN`, RO, reset 0x0000_0000. -/
abbrev PWR_EN_STATE_EN : Fld := ⟨PWR_EN_STATE, 0, 32⟩

/-- `PWR_OFF_FAULT` (R303). -/
abbrev PWR_OFF_FAULT : Nat := 0x30018

/-- `PWR_OFF_FAULT.OFF`, RO, reset 0x0000_0000. -/
abbrev PWR_OFF_FAULT_OFF : Fld := ⟨PWR_OFF_FAULT, 0, 32⟩

/-- `PWR_SEQ_STATE` (R303). -/
abbrev PWR_SEQ_STATE : Nat := 0x3001c

/-- `PWR_SEQ_STATE.STEP`, RO, reset 0x00. -/
abbrev PWR_SEQ_STATE_STEP : Fld := ⟨PWR_SEQ_STATE, 0, 5⟩

/-- `PWR_SEQ_STATE.PHASE`, RO, reset 0x0. -/
abbrev PWR_SEQ_STATE_PHASE : Fld := ⟨PWR_SEQ_STATE, 5, 3⟩

/-- `PWR_SEQ_STATE.FAIL_RAIL`, RO, reset 0x00. -/
abbrev PWR_SEQ_STATE_FAIL_RAIL : Fld := ⟨PWR_SEQ_STATE, 8, 5⟩

/-- `PWR_SNAP_TIME_LO` (R303). -/
abbrev PWR_SNAP_TIME_LO : Nat := 0x30024

/-- `PWR_SNAP_TIME_LO.TICK`, RO, reset 0x0000_0000. -/
abbrev PWR_SNAP_TIME_LO_TICK : Fld := ⟨PWR_SNAP_TIME_LO, 0, 32⟩

/-- `PWR_SNAP_TIME_HI` (R303). -/
abbrev PWR_SNAP_TIME_HI : Nat := 0x30028

/-- `PWR_SNAP_TIME_HI.TICK`, RO, reset 0x0000_0000. -/
abbrev PWR_SNAP_TIME_HI_TICK : Fld := ⟨PWR_SNAP_TIME_HI, 0, 32⟩

/-- `PWR_SNAP_INFO` (R303). -/
abbrev PWR_SNAP_INFO : Nat := 0x3002c

/-- `PWR_SNAP_INFO.SOURCE`, RO, reset 0x00. -/
abbrev PWR_SNAP_INFO_SOURCE : Fld := ⟨PWR_SNAP_INFO, 0, 6⟩

/-- `PWR_SNAP_INFO.CMP`, RO, reset 0x0. -/
abbrev PWR_SNAP_INFO_CMP : Fld := ⟨PWR_SNAP_INFO, 6, 1⟩

/-- `PWR_SNAP_INFO.OVER`, RO, reset 0x0. -/
abbrev PWR_SNAP_INFO_OVER : Fld := ⟨PWR_SNAP_INFO, 7, 1⟩

/-- `PWR_SNAP_INFO.VALID`, RO, reset 0x0. -/
abbrev PWR_SNAP_INFO_VALID : Fld := ⟨PWR_SNAP_INFO, 8, 1⟩

/-- `PWR_LDRAIL0` (R303). -/
abbrev PWR_LDRAIL0 : Nat := 0x30030

/-- `PWR_LDRAIL0.RAIL0`, RW, reset OTP. -/
abbrev PWR_LDRAIL0_RAIL0 : Fld := ⟨PWR_LDRAIL0, 0, 5⟩

/-- `PWR_LDRAIL0.VALID0`, RW, reset OTP. -/
abbrev PWR_LDRAIL0_VALID0 : Fld := ⟨PWR_LDRAIL0, 7, 1⟩

/-- `PWR_LDRAIL0.RAIL1`, RW, reset OTP. -/
abbrev PWR_LDRAIL0_RAIL1 : Fld := ⟨PWR_LDRAIL0, 8, 5⟩

/-- `PWR_LDRAIL0.VALID1`, RW, reset OTP. -/
abbrev PWR_LDRAIL0_VALID1 : Fld := ⟨PWR_LDRAIL0, 15, 1⟩

/-- `PWR_LDRAIL0.RAIL2`, RW, reset OTP. -/
abbrev PWR_LDRAIL0_RAIL2 : Fld := ⟨PWR_LDRAIL0, 16, 5⟩

/-- `PWR_LDRAIL0.VALID2`, RW, reset OTP. -/
abbrev PWR_LDRAIL0_VALID2 : Fld := ⟨PWR_LDRAIL0, 23, 1⟩

/-- `PWR_LDRAIL0.RAIL3`, RW, reset OTP. -/
abbrev PWR_LDRAIL0_RAIL3 : Fld := ⟨PWR_LDRAIL0, 24, 5⟩

/-- `PWR_LDRAIL0.VALID3`, RW, reset OTP. -/
abbrev PWR_LDRAIL0_VALID3 : Fld := ⟨PWR_LDRAIL0, 31, 1⟩

/-- `PWR_LDRAIL1` (R303). -/
abbrev PWR_LDRAIL1 : Nat := 0x30034

/-- `PWR_LDRAIL1.RAIL0`, RW, reset OTP. -/
abbrev PWR_LDRAIL1_RAIL0 : Fld := ⟨PWR_LDRAIL1, 0, 5⟩

/-- `PWR_LDRAIL1.VALID0`, RW, reset OTP. -/
abbrev PWR_LDRAIL1_VALID0 : Fld := ⟨PWR_LDRAIL1, 7, 1⟩

/-- `PWR_LDRAIL1.RAIL1`, RW, reset OTP. -/
abbrev PWR_LDRAIL1_RAIL1 : Fld := ⟨PWR_LDRAIL1, 8, 5⟩

/-- `PWR_LDRAIL1.VALID1`, RW, reset OTP. -/
abbrev PWR_LDRAIL1_VALID1 : Fld := ⟨PWR_LDRAIL1, 15, 1⟩

/-- `PWR_LDRAIL1.RAIL2`, RW, reset OTP. -/
abbrev PWR_LDRAIL1_RAIL2 : Fld := ⟨PWR_LDRAIL1, 16, 5⟩

/-- `PWR_LDRAIL1.VALID2`, RW, reset OTP. -/
abbrev PWR_LDRAIL1_VALID2 : Fld := ⟨PWR_LDRAIL1, 23, 1⟩

/-- `PWR_LDRAIL1.RAIL3`, RW, reset OTP. -/
abbrev PWR_LDRAIL1_RAIL3 : Fld := ⟨PWR_LDRAIL1, 24, 5⟩

/-- `PWR_LDRAIL1.VALID3`, RW, reset OTP. -/
abbrev PWR_LDRAIL1_VALID3 : Fld := ⟨PWR_LDRAIL1, 31, 1⟩

/-- `PWR_SEQs` (R303). -/
abbrev PWR_SEQ (s : Nat) : Nat := 0x30040 + 0x4 * s

/-- `PWR_SEQs.RAIL`, RW, reset OTP. -/
abbrev PWR_SEQ_RAIL (s : Nat) : Fld := ⟨(PWR_SEQ s), 0, 5⟩

/-- `PWR_SEQs.USED`, RW, reset OTP. -/
abbrev PWR_SEQ_USED (s : Nat) : Fld := ⟨(PWR_SEQ s), 7, 1⟩

/-- `PWR_SEQs.DELAY`, RW, reset OTP. -/
abbrev PWR_SEQ_DELAY (s : Nat) : Fld := ⟨(PWR_SEQ s), 8, 12⟩

/-- `PWR_SEQs.PG_TIMEOUT`, RW, reset OTP. -/
abbrev PWR_SEQ_PG_TIMEOUT (s : Nat) : Fld := ⟨(PWR_SEQ s), 20, 12⟩

/-- `PWR_Rr_CFG` (R303). -/
abbrev PWR_R_CFG (r : Nat) : Nat := 0x30100 + 0x10 * r

/-- `PWR_Rr_CFG.REACT`, RW, reset OTP. -/
abbrev PWR_R_CFG_REACT (r : Nat) : Fld := ⟨(PWR_R_CFG r), 0, 2⟩

/-- `PWR_Rr_CFG.GROUP`, RW, reset OTP. -/
abbrev PWR_R_CFG_GROUP (r : Nat) : Fld := ⟨(PWR_R_CFG r), 2, 2⟩

/-- `PWR_Rr_CFG.RETRY_MAX`, RW, reset OTP. -/
abbrev PWR_R_CFG_RETRY_MAX (r : Nat) : Fld := ⟨(PWR_R_CFG r), 4, 4⟩

/-- `PWR_Rr_CFG.RETRY_MS`, RW, reset OTP. -/
abbrev PWR_R_CFG_RETRY_MS (r : Nat) : Fld := ⟨(PWR_R_CFG r), 8, 8⟩

/-- `PWR_Rr_CFG.SW`, RW, reset OTP. -/
abbrev PWR_R_CFG_SW (r : Nat) : Fld := ⟨(PWR_R_CFG r), 16, 1⟩

/-- `PWR_Rr_CFG.EVE_OFF`, RW, reset OTP. -/
abbrev PWR_R_CFG_EVE_OFF (r : Nat) : Fld := ⟨(PWR_R_CFG r), 17, 1⟩

/-- `PWR_Rr_CFG.SCAN_EN`, RW, reset OTP. -/
abbrev PWR_R_CFG_SCAN_EN (r : Nat) : Fld := ⟨(PWR_R_CFG r), 18, 1⟩

/-- `PWR_Rr_CFG.HOLD`, RW, reset OTP. -/
abbrev PWR_R_CFG_HOLD (r : Nat) : Fld := ⟨(PWR_R_CFG r), 19, 1⟩

/-- `PWR_Rr_CFG.SCAN_N`, RW, reset OTP. -/
abbrev PWR_R_CFG_SCAN_N (r : Nat) : Fld := ⟨(PWR_R_CFG r), 20, 4⟩

/-- `PWR_Rr_SCAN` (R303). -/
abbrev PWR_R_SCAN (r : Nat) : Nat := 0x30104 + 0x10 * r

/-- `PWR_Rr_SCAN.UV_CODE`, RW, reset 0x000. -/
abbrev PWR_R_SCAN_UV_CODE (r : Nat) : Fld := ⟨(PWR_R_SCAN r), 0, 12⟩

/-- `PWR_Rr_SCAN.OV_CODE`, RW, reset 0xFFF. -/
abbrev PWR_R_SCAN_OV_CODE (r : Nat) : Fld := ⟨(PWR_R_SCAN r), 16, 12⟩

/-- `PWR_Rr_CMP` (R303). -/
abbrev PWR_R_CMP (r : Nat) : Nat := 0x30108 + 0x10 * r

/-- `PWR_Rr_CMP.UV`, RW, reset OTP. -/
abbrev PWR_R_CMP_UV (r : Nat) : Fld := ⟨(PWR_R_CMP r), 0, 10⟩

/-- `PWR_Rr_CMP.OV`, RW, reset OTP. -/
abbrev PWR_R_CMP_OV (r : Nat) : Fld := ⟨(PWR_R_CMP r), 10, 10⟩

/-- `PWR_Rr_CMP.FILT`, RW, reset OTP. -/
abbrev PWR_R_CMP_FILT (r : Nat) : Fld := ⟨(PWR_R_CMP r), 20, 10⟩

/-- `PWR_Rr_CMD` (R303). -/
abbrev PWR_R_CMD (r : Nat) : Nat := 0x3010c + 0x10 * r

/-- `PWR_Rr_CMD.ON`, WO, reset 0x0. -/
abbrev PWR_R_CMD_ON (r : Nat) : Fld := ⟨(PWR_R_CMD r), 0, 1⟩

/-- `PWR_Rr_CMD.OFF`, WO, reset 0x0. -/
abbrev PWR_R_CMD_OFF (r : Nat) : Fld := ⟨(PWR_R_CMD r), 1, 1⟩

/-- `PWR_Rr_CNT_FAULT` (R303). -/
abbrev PWR_R_CNT_FAULT (r : Nat) : Nat := 0x30300 + 0x4 * r

/-- `PWR_Rr_CNT_FAULT.COUNT`, RO, reset 0x0000_0000. -/
abbrev PWR_R_CNT_FAULT_COUNT (r : Nat) : Fld := ⟨(PWR_R_CNT_FAULT r), 0, 32⟩

/-- `PWR_SNAPr` (R303). -/
abbrev PWR_SNAP (r : Nat) : Nat := 0x30400 + 0x4 * r

/-- `PWR_SNAPr.CODE`, RO, reset 0x000. -/
abbrev PWR_SNAP_CODE (r : Nat) : Fld := ⟨(PWR_SNAP r), 0, 12⟩

/-- `PWR_SNAPr.IN_WIN`, RO, reset 0x0. -/
abbrev PWR_SNAP_IN_WIN (r : Nat) : Fld := ⟨(PWR_SNAP r), 16, 1⟩

/-- `THM_CTRL` (R304). -/
abbrev THM_CTRL : Nat := 0x40000

/-- `THM_CTRL.EN`, RW, reset 0x1. -/
abbrev THM_CTRL_EN : Fld := ⟨THM_CTRL, 0, 1⟩

/-- `THM_CTRL.CAL`, WO, reset 0x0. -/
abbrev THM_CTRL_CAL : Fld := ⟨THM_CTRL, 1, 1⟩

/-- `THM_CTRL.HEAT_EN`, RW, reset 0x1. -/
abbrev THM_CTRL_HEAT_EN : Fld := ⟨THM_CTRL, 2, 1⟩

/-- `THM_STATUS` (R304). -/
abbrev THM_STATUS : Nat := 0x40004

/-- `THM_STATUS.THROTTLE`, W1C, reset 0x0. -/
abbrev THM_STATUS_THROTTLE : Fld := ⟨THM_STATUS, 0, 1⟩

/-- `THM_STATUS.DUSK`, W1C, reset 0x0. -/
abbrev THM_STATUS_DUSK : Fld := ⟨THM_STATUS, 1, 1⟩

/-- `THM_STATUS.NVM_CLOSED`, W1C, reset 0x0. -/
abbrev THM_STATUS_NVM_CLOSED : Fld := ⟨THM_STATUS, 2, 1⟩

/-- `THM_STATUS.TELEM_STALE`, W1C, reset 0x0. -/
abbrev THM_STATUS_TELEM_STALE : Fld := ⟨THM_STATUS, 3, 1⟩

/-- `THM_STATUS.CAL_ERR`, W1C, reset 0x0. -/
abbrev THM_STATUS_CAL_ERR : Fld := ⟨THM_STATUS, 4, 1⟩

/-- `THM_STATUS.FIRST`, RO, reset 0x0. -/
abbrev THM_STATUS_FIRST : Fld := ⟨THM_STATUS, 16, 4⟩

/-- `THM_STATUS.OVF`, W1C, reset 0x0. -/
abbrev THM_STATUS_OVF : Fld := ⟨THM_STATUS, 20, 1⟩

/-- `THM_IRQ_EN` (R304). -/
abbrev THM_IRQ_EN : Nat := 0x40008

/-- `THM_IRQ_EN.EN`, RW, reset 0x00. -/
abbrev THM_IRQ_EN_EN : Fld := ⟨THM_IRQ_EN, 0, 5⟩

/-- `THM_STATE` (R304). -/
abbrev THM_STATE : Nat := 0x4000c

/-- `THM_STATE.THROTTLE`, RO, reset 0x0. -/
abbrev THM_STATE_THROTTLE : Fld := ⟨THM_STATE, 0, 1⟩

/-- `THM_STATE.DUSK_CAUSE`, RO, reset 0x0. -/
abbrev THM_STATE_DUSK_CAUSE : Fld := ⟨THM_STATE, 1, 1⟩

/-- `THM_STATE.NVM_OK`, RO, reset 0x0. -/
abbrev THM_STATE_NVM_OK : Fld := ⟨THM_STATE, 2, 1⟩

/-- `THM_STATE.HEATING`, RO, reset 0x0. -/
abbrev THM_STATE_HEATING : Fld := ⟨THM_STATE, 3, 1⟩

/-- `THM_STATE.CAL_DONE`, RO, reset 0x0. -/
abbrev THM_STATE_CAL_DONE : Fld := ⟨THM_STATE, 4, 1⟩

/-- `THM_STATE.HOT_ZONE`, RO, reset 0x0. -/
abbrev THM_STATE_HOT_ZONE : Fld := ⟨THM_STATE, 8, 4⟩

/-- `THM_STATE.TMAX`, RO, reset 0xF000. -/
abbrev THM_STATE_TMAX : Fld := ⟨THM_STATE, 16, 16⟩

/-- `THM_THROT` (R304). -/
abbrev THM_THROT : Nat := 0x40010

/-- `THM_THROT.STRETCH_MS`, RW, reset 0x003C. -/
abbrev THM_THROT_STRETCH_MS : Fld := ⟨THM_THROT, 0, 16⟩

/-- `THM_THROT.PACE`, RW, reset 0x80. -/
abbrev THM_THROT_PACE : Fld := ⟨THM_THROT, 16, 8⟩

/-- `THM_PMEAS` (R304). -/
abbrev THM_PMEAS : Nat := 0x40014

/-- `THM_PMEAS.POWER`, RW, reset 0x0000. -/
abbrev THM_PMEAS_POWER : Fld := ⟨THM_PMEAS, 0, 16⟩

/-- `THM_SCALE` (R304). -/
abbrev THM_SCALE : Nat := 0x40018

/-- `THM_SCALE.K`, RO, reset 0x4000. -/
abbrev THM_SCALE_K : Fld := ⟨THM_SCALE, 0, 16⟩

/-- `THM_PKG` (R304). -/
abbrev THM_PKG : Nat := 0x4001c

/-- `THM_PKG.T`, RO, reset 0xF000. -/
abbrev THM_PKG_T : Fld := ⟨THM_PKG, 0, 16⟩

/-- `THM_BOARD` (R304). -/
abbrev THM_BOARD : Nat := 0x40020

/-- `THM_BOARD.T`, RO, reset 0x0000. -/
abbrev THM_BOARD_T : Fld := ⟨THM_BOARD, 0, 16⟩

/-- `THM_DIODE` (R304). -/
abbrev THM_DIODE : Nat := 0x40024

/-- `THM_DIODE.D0`, RO, reset 0x0000. -/
abbrev THM_DIODE_D0 : Fld := ⟨THM_DIODE, 0, 16⟩

/-- `THM_DIODE.D1`, RO, reset 0x0000. -/
abbrev THM_DIODE_D1 : Fld := ⟨THM_DIODE, 16, 16⟩

/-- `THM_CNT_THROTTLE` (R304). -/
abbrev THM_CNT_THROTTLE : Nat := 0x40028

/-- `THM_CNT_THROTTLE.COUNT`, RO, reset 0x0000_0000. -/
abbrev THM_CNT_THROTTLE_COUNT : Fld := ⟨THM_CNT_THROTTLE, 0, 32⟩

/-- `THM_TIME_THROTTLE` (R304). -/
abbrev THM_TIME_THROTTLE : Nat := 0x4002c

/-- `THM_TIME_THROTTLE.MS`, RO, reset 0x0000_0000. -/
abbrev THM_TIME_THROTTLE_MS : Fld := ⟨THM_TIME_THROTTLE, 0, 32⟩

/-- `THM_Zz` (R304). -/
abbrev THM_Z (z : Nat) : Nat := 0x40100 + 0x4 * z

/-- `THM_Zz.T`, RO, reset 0xF000. -/
abbrev THM_Z_T (z : Nat) : Fld := ⟨(THM_Z z), 0, 16⟩

/-- `THM_Zz.P`, RO, reset 0x0000. -/
abbrev THM_Z_P (z : Nat) : Fld := ⟨(THM_Z z), 16, 16⟩

/-- `CLK_CTRL` (R305). -/
abbrev CLK_CTRL : Nat := 0x20000

/-- `CLK_CTRL.DIV_COMMIT`, WO, reset 0x0. -/
abbrev CLK_CTRL_DIV_COMMIT : Fld := ⟨CLK_CTRL, 0, 1⟩

/-- `CLK_CTRL.COMMIT_PENDING`, RO, reset 0x0. -/
abbrev CLK_CTRL_COMMIT_PENDING : Fld := ⟨CLK_CTRL, 1, 1⟩

/-- `CLK_STATUS` (R305). -/
abbrev CLK_STATUS : Nat := 0x20004

/-- `CLK_STATUS.DIV_ERR`, W1C, reset 0x0. -/
abbrev CLK_STATUS_DIV_ERR : Fld := ⟨CLK_STATUS, 0, 1⟩

/-- `CLK_STATUS.BAND_RETRY`, W1C, reset 0x0. -/
abbrev CLK_STATUS_BAND_RETRY : Fld := ⟨CLK_STATUS, 1, 1⟩

/-- `CLK_STATUS.FIRST`, RO, reset 0x0. -/
abbrev CLK_STATUS_FIRST : Fld := ⟨CLK_STATUS, 16, 4⟩

/-- `CLK_STATUS.OVF`, W1C, reset 0x0. -/
abbrev CLK_STATUS_OVF : Fld := ⟨CLK_STATUS, 20, 1⟩

/-- `CLK_IRQ_EN` (R305). -/
abbrev CLK_IRQ_EN : Nat := 0x20008

/-- `CLK_IRQ_EN.EN`, RW, reset 0x0. -/
abbrev CLK_IRQ_EN_EN : Fld := ⟨CLK_IRQ_EN, 0, 2⟩

/-- `CLK_PLL` (R305). -/
abbrev CLK_PLL : Nat := 0x2000c

/-- `CLK_PLL.BAND`, RO, reset 0x0. -/
abbrev CLK_PLL_BAND : Fld := ⟨CLK_PLL, 0, 4⟩

/-- `CLK_PLL.LOCKED`, RO, reset 0x0. -/
abbrev CLK_PLL_LOCKED : Fld := ⟨CLK_PLL, 4, 1⟩

/-- `CLK_PLL.LOCK_TIME`, RO, reset 0x0000. -/
abbrev CLK_PLL_LOCK_TIME : Fld := ⟨CLK_PLL, 8, 16⟩

/-- `CLK_OUTj_CFG` (R305). -/
abbrev CLK_OUT_CFG (j : Nat) : Nat := 0x20010 + 0x4 * j

/-- `CLK_OUTj_CFG.DIV`, RW, reset 0x03C. -/
abbrev CLK_OUT_CFG_DIV (j : Nat) : Fld := ⟨(CLK_OUT_CFG j), 0, 12⟩

/-- `CLK_OUTj_CFG.SRC`, RW, reset 0x0. -/
abbrev CLK_OUT_CFG_SRC (j : Nat) : Fld := ⟨(CLK_OUT_CFG j), 12, 2⟩

/-- `CLK_OUTj_CFG.FMT`, RW, reset 0x0. -/
abbrev CLK_OUT_CFG_FMT (j : Nat) : Fld := ⟨(CLK_OUT_CFG j), 14, 2⟩

/-- `CLK_OUTj_CFG.EN`, RW, reset 0x0. -/
abbrev CLK_OUT_CFG_EN (j : Nat) : Fld := ⟨(CLK_OUT_CFG j), 16, 1⟩

/-- `CLK_OUTj_LIVE` (R305). -/
abbrev CLK_OUT_LIVE (j : Nat) : Nat := 0x20020 + 0x4 * j

/-- `CLK_OUTj_LIVE.CFG`, RO, reset 0x3C. -/
abbrev CLK_OUT_LIVE_CFG (j : Nat) : Fld := ⟨(CLK_OUT_LIVE j), 0, 17⟩

/-- `CLK_AON_STATUS` (R305). -/
abbrev CLK_AON_STATUS : Nat := 0x20100

/-- `CLK_AON_STATUS.LOL_RESET`, W1C, reset 0x0. -/
abbrev CLK_AON_STATUS_LOL_RESET : Fld := ⟨CLK_AON_STATUS, 0, 1⟩

/-- `CLK_AON_STATUS.REF_LOSS_RESET`, W1C, reset 0x0. -/
abbrev CLK_AON_STATUS_REF_LOSS_RESET : Fld := ⟨CLK_AON_STATUS, 1, 1⟩

/-- `CLK_AON_STATUS.AO_TRIM`, RO, reset OTP. -/
abbrev CLK_AON_STATUS_AO_TRIM : Fld := ⟨CLK_AON_STATUS, 8, 8⟩

/-- `CAL_CTRL` (R323). -/
abbrev CAL_CTRL : Nat := 0x50000

/-- `CAL_CTRL.EN`, RW, reset 0x0. -/
abbrev CAL_CTRL_EN : Fld := ⟨CAL_CTRL, 0, 1⟩

/-- `CAL_CTRL.NEXT`, RW, reset 0x0. -/
abbrev CAL_CTRL_NEXT : Fld := ⟨CAL_CTRL, 1, 1⟩

/-- `CAL_CTRL.LIVE`, RO, reset 0x0. -/
abbrev CAL_CTRL_LIVE : Fld := ⟨CAL_CTRL, 2, 1⟩

/-- `CAL_CTRL.PENDING`, RO, reset 0x0. -/
abbrev CAL_CTRL_PENDING : Fld := ⟨CAL_CTRL, 3, 1⟩

/-- `CAL_STATUS` (R323). -/
abbrev CAL_STATUS : Nat := 0x50004

/-- `CAL_STATUS.CLAMP`, W1C, reset 0x0. -/
abbrev CAL_STATUS_CLAMP : Fld := ⟨CAL_STATUS, 0, 1⟩

/-- `CAL_STATUS.LIVE_WRITE`, W1C, reset 0x0. -/
abbrev CAL_STATUS_LIVE_WRITE : Fld := ⟨CAL_STATUS, 1, 1⟩

/-- `CAL_STATUS.SWITCH_ERR`, W1C, reset 0x0. -/
abbrev CAL_STATUS_SWITCH_ERR : Fld := ⟨CAL_STATUS, 2, 1⟩

/-- `CAL_STATUS.REJECT`, W1C, reset 0x0. -/
abbrev CAL_STATUS_REJECT : Fld := ⟨CAL_STATUS, 3, 1⟩

/-- `CAL_STATUS.FIRST`, RO, reset 0x0. -/
abbrev CAL_STATUS_FIRST : Fld := ⟨CAL_STATUS, 16, 4⟩

/-- `CAL_STATUS.OVF`, W1C, reset 0x0. -/
abbrev CAL_STATUS_OVF : Fld := ⟨CAL_STATUS, 20, 1⟩

/-- `CAL_IRQ_EN` (R323). -/
abbrev CAL_IRQ_EN : Nat := 0x50008

/-- `CAL_IRQ_EN.EN`, RW, reset 0x0. -/
abbrev CAL_IRQ_EN_EN : Fld := ⟨CAL_IRQ_EN, 0, 4⟩

/-- `CAL_APPLY_COUNT` (R323). -/
abbrev CAL_APPLY_COUNT : Nat := 0x5000c

/-- `CAL_APPLY_COUNT.COUNT`, RO, reset 0x0000_0000. -/
abbrev CAL_APPLY_COUNT_COUNT : Fld := ⟨CAL_APPLY_COUNT, 0, 32⟩

/-- `CAL_CHECK_CTRL` (R323). -/
abbrev CAL_CHECK_CTRL : Nat := 0x50010

/-- `CAL_CHECK_CTRL.GO`, WO, reset 0x0. -/
abbrev CAL_CHECK_CTRL_GO : Fld := ⟨CAL_CHECK_CTRL, 0, 1⟩

/-- `CAL_CHECK_CTRL.KIND`, RW, reset 0x0. -/
abbrev CAL_CHECK_CTRL_KIND : Fld := ⟨CAL_CHECK_CTRL, 1, 2⟩

/-- `CAL_CHECK_CTRL.MODE`, RW, reset 0x0. -/
abbrev CAL_CHECK_CTRL_MODE : Fld := ⟨CAL_CHECK_CTRL, 3, 1⟩

/-- `CAL_CHECK_CTRL.POINT`, RW, reset 0x0. -/
abbrev CAL_CHECK_CTRL_POINT : Fld := ⟨CAL_CHECK_CTRL, 4, 3⟩

/-- `CAL_CHECK_CTRL.ENTRY`, RW, reset 0x00. -/
abbrev CAL_CHECK_CTRL_ENTRY : Fld := ⟨CAL_CHECK_CTRL, 8, 6⟩

/-- `CAL_CHECK_A` (R323). -/
abbrev CAL_CHECK_A : Nat := 0x50014

/-- `CAL_CHECK_A.A`, RW, reset 0x0000_0000. -/
abbrev CAL_CHECK_A_A : Fld := ⟨CAL_CHECK_A, 0, 32⟩

/-- `CAL_CHECK_B` (R323). -/
abbrev CAL_CHECK_B : Nat := 0x50018

/-- `CAL_CHECK_B.B`, RW, reset 0x0000_0000. -/
abbrev CAL_CHECK_B_B : Fld := ⟨CAL_CHECK_B, 0, 32⟩

/-- `CAL_CHECK_VALUE` (R323). -/
abbrev CAL_CHECK_VALUE : Nat := 0x5001c

/-- `CAL_CHECK_VALUE.VALUE`, RW, reset 0x0000_0000. -/
abbrev CAL_CHECK_VALUE_VALUE : Fld := ⟨CAL_CHECK_VALUE, 0, 32⟩

/-- `CAL_CHECK_TOL` (R323). -/
abbrev CAL_CHECK_TOL : Nat := 0x50020

/-- `CAL_CHECK_TOL.TOL`, RW, reset 0x0000. -/
abbrev CAL_CHECK_TOL_TOL : Fld := ⟨CAL_CHECK_TOL, 0, 16⟩

/-- `CAL_CHECK_STATUS` (R323). -/
abbrev CAL_CHECK_STATUS : Nat := 0x50024

/-- `CAL_CHECK_STATUS.BUSY`, RO, reset 0x0. -/
abbrev CAL_CHECK_STATUS_BUSY : Fld := ⟨CAL_CHECK_STATUS, 0, 1⟩

/-- `CAL_CHECK_STATUS.RESULT`, RO, reset 0x0. -/
abbrev CAL_CHECK_STATUS_RESULT : Fld := ⟨CAL_CHECK_STATUS, 1, 2⟩

/-- `CAL_CNT_ACCEPT` (R323). -/
abbrev CAL_CNT_ACCEPT : Nat := 0x50028

/-- `CAL_CNT_ACCEPT.COUNT`, RO, reset 0x0000_0000. -/
abbrev CAL_CNT_ACCEPT_COUNT : Fld := ⟨CAL_CNT_ACCEPT, 0, 32⟩

/-- `CAL_CNT_REJECT` (R323). -/
abbrev CAL_CNT_REJECT : Nat := 0x5002c

/-- `CAL_CNT_REJECT.COUNT`, RO, reset 0x0000_0000. -/
abbrev CAL_CNT_REJECT_COUNT : Fld := ⟨CAL_CNT_REJECT, 0, 32⟩

/-- `CAL_SWITCH_ERR` (R323). -/
abbrev CAL_SWITCH_ERR : Nat := 0x50030

/-- `CAL_SWITCH_ERR.ENTRY`, RO, reset 0x00. -/
abbrev CAL_SWITCH_ERR_ENTRY : Fld := ⟨CAL_SWITCH_ERR, 0, 6⟩

/-- `CAL_SWITCH_ERR.CODE`, RO, reset 0x0. -/
abbrev CAL_SWITCH_ERR_CODE : Fld := ⟨CAL_SWITCH_ERR, 8, 4⟩

/-- `CAL_En_APPLIED` (R323). -/
abbrev CAL_E_APPLIED (n : Nat) : Nat := 0x50200 + 0x4 * n

/-- `CAL_En_APPLIED.VALUE`, RO, reset 0x0000_0000. -/
abbrev CAL_E_APPLIED_VALUE (n : Nat) : Fld := ⟨(CAL_E_APPLIED n), 0, 32⟩

/-- `CAL_Bb_En_TARGET` (R323). -/
abbrev CAL_B_E_TARGET (b n : Nat) : Nat := 0x51000 + 0x800 * b + 0x20 * n

/-- `CAL_Bb_En_TARGET.OFFSET`, RW, reset 0x00_0000. -/
abbrev CAL_B_E_TARGET_OFFSET (b n : Nat) : Fld := ⟨(CAL_B_E_TARGET b n), 0, 22⟩

/-- `CAL_Bb_En_TARGET.ZONE`, RW, reset 0x10. -/
abbrev CAL_B_E_TARGET_ZONE (b n : Nat) : Fld := ⟨(CAL_B_E_TARGET b n), 24, 5⟩

/-- `CAL_Bb_En_TARGET.SIGNED`, RW, reset 0x0. -/
abbrev CAL_B_E_TARGET_SIGNED (b n : Nat) : Fld := ⟨(CAL_B_E_TARGET b n), 30, 1⟩

/-- `CAL_Bb_En_TARGET.VALID`, RW, reset 0x0. -/
abbrev CAL_B_E_TARGET_VALID (b n : Nat) : Fld := ⟨(CAL_B_E_TARGET b n), 31, 1⟩

/-- `CAL_Bb_En_FIELD` (R323). -/
abbrev CAL_B_E_FIELD (b n : Nat) : Nat := 0x51004 + 0x800 * b + 0x20 * n

/-- `CAL_Bb_En_FIELD.LSB`, RW, reset 0x00. -/
abbrev CAL_B_E_FIELD_LSB (b n : Nat) : Fld := ⟨(CAL_B_E_FIELD b n), 0, 5⟩

/-- `CAL_Bb_En_FIELD.WIDTH_M1`, RW, reset 0x1F. -/
abbrev CAL_B_E_FIELD_WIDTH_M1 (b n : Nat) : Fld := ⟨(CAL_B_E_FIELD b n), 8, 5⟩

/-- `CAL_Bb_En_Pp` (R323). -/
abbrev CAL_B_E_P (b n p : Nat) : Nat := 0x51008 + 0x800 * b + 0x20 * n + 0x4 * p

/-- `CAL_Bb_En_Pp.VALUE`, RW, reset 0x0000_0000. -/
abbrev CAL_B_E_P_VALUE (b n p : Nat) : Fld := ⟨(CAL_B_E_P b n p), 0, 32⟩

/-- `CSM_CTRL` (R324). -/
abbrev CSM_CTRL : Nat := 0x1e0000

/-- `CSM_CTRL.EN`, RW, reset 0x0. -/
abbrev CSM_CTRL_EN : Fld := ⟨CSM_CTRL, 0, 1⟩

/-- `CSM_CTRL.FAST0`, RW, reset 0x0. -/
abbrev CSM_CTRL_FAST0 : Fld := ⟨CSM_CTRL, 1, 1⟩

/-- `CSM_CTRL.FAST1`, RW, reset 0x0. -/
abbrev CSM_CTRL_FAST1 : Fld := ⟨CSM_CTRL, 2, 1⟩

/-- `CSM_STATUS` (R324). -/
abbrev CSM_STATUS : Nat := 0x1e0004

/-- `CSM_STATUS.AUTH_FAIL`, W1C, reset 0x0. -/
abbrev CSM_STATUS_AUTH_FAIL : Fld := ⟨CSM_STATUS, 0, 1⟩

/-- `CSM_STATUS.BUS_ERR`, W1C, reset 0x0. -/
abbrev CSM_STATUS_BUS_ERR : Fld := ⟨CSM_STATUS, 1, 1⟩

/-- `CSM_STATUS.NVM_ERR`, W1C, reset 0x0. -/
abbrev CSM_STATUS_NVM_ERR : Fld := ⟨CSM_STATUS, 2, 1⟩

/-- `CSM_STATUS.COUNT_SAT`, W1C, reset 0x0. -/
abbrev CSM_STATUS_COUNT_SAT : Fld := ⟨CSM_STATUS, 3, 1⟩

/-- `CSM_STATUS.FIRST`, RO, reset 0x0. -/
abbrev CSM_STATUS_FIRST : Fld := ⟨CSM_STATUS, 16, 4⟩

/-- `CSM_STATUS.OVF`, W1C, reset 0x0. -/
abbrev CSM_STATUS_OVF : Fld := ⟨CSM_STATUS, 20, 1⟩

/-- `CSM_IRQ_EN` (R324). -/
abbrev CSM_IRQ_EN : Nat := 0x1e0008

/-- `CSM_IRQ_EN.EN`, RW, reset 0x0. -/
abbrev CSM_IRQ_EN_EN : Fld := ⟨CSM_IRQ_EN, 0, 4⟩

/-- `CSM_FIRST_UNIT` (R324). -/
abbrev CSM_FIRST_UNIT : Nat := 0x1e000c

/-- `CSM_FIRST_UNIT.UNIT`, RO, reset 0x0. -/
abbrev CSM_FIRST_UNIT_UNIT : Fld := ⟨CSM_FIRST_UNIT, 0, 4⟩

/-- `CSM_NVM_BASE` (R324). -/
abbrev CSM_NVM_BASE : Nat := 0x1e0010

/-- `CSM_NVM_BASE.ADDR`, RW, reset 0x0000_0000. -/
abbrev CSM_NVM_BASE_ADDR : Fld := ⟨CSM_NVM_BASE, 0, 32⟩

/-- `CSM_AUTH_WAIT` (R324). -/
abbrev CSM_AUTH_WAIT : Nat := 0x1e0014

/-- `CSM_AUTH_WAIT.MS`, RW, reset 0x0A. -/
abbrev CSM_AUTH_WAIT_MS : Fld := ⟨CSM_AUTH_WAIT, 0, 8⟩

/-- `CSM_Uu_CFG` (R324). -/
abbrev CSM_U_CFG (u : Nat) : Nat := 0x1e0100 + 0x20 * u

/-- `CSM_Uu_CFG.ADDR`, RW, reset 0x00. -/
abbrev CSM_U_CFG_ADDR (u : Nat) : Fld := ⟨(CSM_U_CFG u), 0, 7⟩

/-- `CSM_Uu_CFG.BUS`, RW, reset 0x0. -/
abbrev CSM_U_CFG_BUS (u : Nat) : Fld := ⟨(CSM_U_CFG u), 7, 1⟩

/-- `CSM_Uu_CFG.KEYSLOT`, RW, reset 0x0. -/
abbrev CSM_U_CFG_KEYSLOT (u : Nat) : Fld := ⟨(CSM_U_CFG u), 8, 3⟩

/-- `CSM_Uu_CFG.STATIONS`, RW, reset 0x00. -/
abbrev CSM_U_CFG_STATIONS (u : Nat) : Fld := ⟨(CSM_U_CFG u), 16, 8⟩

/-- `CSM_Uu_CFG.EN`, RW, reset 0x0. -/
abbrev CSM_U_CFG_EN (u : Nat) : Fld := ⟨(CSM_U_CFG u), 31, 1⟩

/-- `CSM_Uu_CTRL` (R324). -/
abbrev CSM_U_CTRL (u : Nat) : Nat := 0x1e0104 + 0x20 * u

/-- `CSM_Uu_CTRL.AUTH`, WO, reset 0x0. -/
abbrev CSM_U_CTRL_AUTH (u : Nat) : Fld := ⟨(CSM_U_CTRL u), 0, 1⟩

/-- `CSM_Uu_CTRL.INC`, WO, reset 0x0. -/
abbrev CSM_U_CTRL_INC (u : Nat) : Fld := ⟨(CSM_U_CTRL u), 1, 1⟩

/-- `CSM_Uu_STATE` (R324). -/
abbrev CSM_U_STATE (u : Nat) : Nat := 0x1e0108 + 0x20 * u

/-- `CSM_Uu_STATE.STATE`, RO, reset 0x0. -/
abbrev CSM_U_STATE_STATE (u : Nat) : Fld := ⟨(CSM_U_STATE u), 0, 2⟩

/-- `CSM_Uu_STATE.LAST_ERR`, RO, reset 0x0. -/
abbrev CSM_U_STATE_LAST_ERR (u : Nat) : Fld := ⟨(CSM_U_STATE u), 8, 4⟩

/-- `CSM_Uu_STATE.NEXT_CELL`, RO, reset 0x0. -/
abbrev CSM_U_STATE_NEXT_CELL (u : Nat) : Fld := ⟨(CSM_U_STATE u), 12, 4⟩

/-- `CSM_Uu_STATE.PENDING`, RO, reset 0x0000. -/
abbrev CSM_U_STATE_PENDING (u : Nat) : Fld := ⟨(CSM_U_STATE u), 16, 16⟩

/-- `CSM_Uu_UID_LO` (R324). -/
abbrev CSM_U_UID_LO (u : Nat) : Nat := 0x1e010c + 0x20 * u

/-- `CSM_Uu_UID_LO.UID`, RO, reset 0x0000_0000. -/
abbrev CSM_U_UID_LO_UID (u : Nat) : Fld := ⟨(CSM_U_UID_LO u), 0, 32⟩

/-- `CSM_Uu_UID_HI` (R324). -/
abbrev CSM_U_UID_HI (u : Nat) : Nat := 0x1e0110 + 0x20 * u

/-- `CSM_Uu_UID_HI.UID`, RO, reset 0x0000_0000. -/
abbrev CSM_U_UID_HI_UID (u : Nat) : Fld := ⟨(CSM_U_UID_HI u), 0, 32⟩

/-- `CSM_Uu_COUNT` (R324). -/
abbrev CSM_U_COUNT (u : Nat) : Nat := 0x1e0114 + 0x20 * u

/-- `CSM_Uu_COUNT.COUNT`, RO, reset 0x0000_0000. -/
abbrev CSM_U_COUNT_COUNT (u : Nat) : Fld := ⟨(CSM_U_COUNT u), 0, 32⟩

/-- `CSM_Uu_CELLS` (R324). -/
abbrev CSM_U_CELLS (u : Nat) : Nat := 0x1e0118 + 0x20 * u

/-- `CSM_Uu_CELLS.VALID`, RO, reset 0x0000. -/
abbrev CSM_U_CELLS_VALID (u : Nat) : Fld := ⟨(CSM_U_CELLS u), 0, 16⟩

/-- `HST_CAP` (R350). -/
abbrev HST_CAP : Nat := 0x1b0000

/-- `HST_CAP.VER_MIN`, RO, reset 0x10. -/
abbrev HST_CAP_VER_MIN : Fld := ⟨HST_CAP, 0, 8⟩

/-- `HST_CAP.VER_MAX`, RO, reset 0x13. -/
abbrev HST_CAP_VER_MAX : Fld := ⟨HST_CAP, 8, 8⟩

/-- `HST_CAP.QPS`, RO, reset 0x40. -/
abbrev HST_CAP_QPS : Fld := ⟨HST_CAP, 16, 7⟩

/-- `HST_STATUS` (R350). -/
abbrev HST_STATUS : Nat := 0x1b0004

/-- `HST_STATUS.LINK_DOWN`, W1C, reset 0x1. -/
abbrev HST_STATUS_LINK_DOWN : Fld := ⟨HST_STATUS, 0, 1⟩

/-- `HST_STATUS.QP_ERR`, W1C, reset 0x0. -/
abbrev HST_STATUS_QP_ERR : Fld := ⟨HST_STATUS, 1, 1⟩

/-- `HST_STATUS.EVQ_FULL`, W1C, reset 0x0. -/
abbrev HST_STATUS_EVQ_FULL : Fld := ⟨HST_STATUS, 2, 1⟩

/-- `HST_STATUS.FIRST`, RO, reset 0x0. -/
abbrev HST_STATUS_FIRST : Fld := ⟨HST_STATUS, 16, 4⟩

/-- `HST_STATUS.OVF`, W1C, reset 0x0. -/
abbrev HST_STATUS_OVF : Fld := ⟨HST_STATUS, 20, 1⟩

/-- `HST_IRQ_EN` (R350). -/
abbrev HST_IRQ_EN : Nat := 0x1b0008

/-- `HST_IRQ_EN.EN`, RW, reset 0x0. -/
abbrev HST_IRQ_EN_EN : Fld := ⟨HST_IRQ_EN, 0, 3⟩

/-- `HST_EVQ_BASE_LO` (R350). -/
abbrev HST_EVQ_BASE_LO : Nat := 0x1b0010

/-- `HST_EVQ_BASE_LO.ADDR`, RW, reset 0x0000_0000. -/
abbrev HST_EVQ_BASE_LO_ADDR : Fld := ⟨HST_EVQ_BASE_LO, 0, 32⟩

/-- `HST_EVQ_BASE_HI` (R350). -/
abbrev HST_EVQ_BASE_HI : Nat := 0x1b0014

/-- `HST_EVQ_BASE_HI.ADDR`, RW, reset 0x0000_0000. -/
abbrev HST_EVQ_BASE_HI_ADDR : Fld := ⟨HST_EVQ_BASE_HI, 0, 32⟩

/-- `HST_EVQ_CFG` (R350). -/
abbrev HST_EVQ_CFG : Nat := 0x1b0018

/-- `HST_EVQ_CFG.SIZE`, RW, reset 0x0000. -/
abbrev HST_EVQ_CFG_SIZE : Fld := ⟨HST_EVQ_CFG, 0, 13⟩

/-- `HST_EVQ_HEAD` (R350). -/
abbrev HST_EVQ_HEAD : Nat := 0x1b001c

/-- `HST_EVQ_HEAD.HEAD`, RW, reset 0x000. -/
abbrev HST_EVQ_HEAD_HEAD : Fld := ⟨HST_EVQ_HEAD, 0, 12⟩

/-- `HST_EVQ_TAIL` (R350). -/
abbrev HST_EVQ_TAIL : Nat := 0x1b0020

/-- `HST_EVQ_TAIL.TAIL`, RO, reset 0x000. -/
abbrev HST_EVQ_TAIL_TAIL : Fld := ⟨HST_EVQ_TAIL, 0, 12⟩

/-- `HST_QPn_SQ_LO` (R350). -/
abbrev HST_QP_SQ_LO (n : Nat) : Nat := 0x1b1000 + 0x40 * n

/-- `HST_QPn_SQ_LO.ADDR`, RW, reset 0x0000_0000. -/
abbrev HST_QP_SQ_LO_ADDR (n : Nat) : Fld := ⟨(HST_QP_SQ_LO n), 0, 32⟩

/-- `HST_QPn_SQ_HI` (R350). -/
abbrev HST_QP_SQ_HI (n : Nat) : Nat := 0x1b1004 + 0x40 * n

/-- `HST_QPn_SQ_HI.ADDR`, RW, reset 0x0000_0000. -/
abbrev HST_QP_SQ_HI_ADDR (n : Nat) : Fld := ⟨(HST_QP_SQ_HI n), 0, 32⟩

/-- `HST_QPn_CQ_LO` (R350). -/
abbrev HST_QP_CQ_LO (n : Nat) : Nat := 0x1b1008 + 0x40 * n

/-- `HST_QPn_CQ_LO.ADDR`, RW, reset 0x0000_0000. -/
abbrev HST_QP_CQ_LO_ADDR (n : Nat) : Fld := ⟨(HST_QP_CQ_LO n), 0, 32⟩

/-- `HST_QPn_CQ_HI` (R350). -/
abbrev HST_QP_CQ_HI (n : Nat) : Nat := 0x1b100c + 0x40 * n

/-- `HST_QPn_CQ_HI.ADDR`, RW, reset 0x0000_0000. -/
abbrev HST_QP_CQ_HI_ADDR (n : Nat) : Fld := ⟨(HST_QP_CQ_HI n), 0, 32⟩

/-- `HST_QPn_CFG` (R350). -/
abbrev HST_QP_CFG (n : Nat) : Nat := 0x1b1010 + 0x40 * n

/-- `HST_QPn_CFG.SQ_SIZE`, RW, reset 0x0000. -/
abbrev HST_QP_CFG_SQ_SIZE (n : Nat) : Fld := ⟨(HST_QP_CFG n), 0, 13⟩

/-- `HST_QPn_CFG.CQ_SIZE`, RW, reset 0x0000. -/
abbrev HST_QP_CFG_CQ_SIZE (n : Nat) : Fld := ⟨(HST_QP_CFG n), 16, 13⟩

/-- `HST_QPn_CFG.EN`, RW, reset 0x0. -/
abbrev HST_QP_CFG_EN (n : Nat) : Fld := ⟨(HST_QP_CFG n), 30, 1⟩

/-- `HST_QPn_VER` (R350). -/
abbrev HST_QP_VER (n : Nat) : Nat := 0x1b1014 + 0x40 * n

/-- `HST_QPn_VER.VERSION`, RW, reset 0x10. -/
abbrev HST_QP_VER_VERSION (n : Nat) : Fld := ⟨(HST_QP_VER n), 0, 8⟩

/-- `HST_QPn_SQ_TAIL` (R350). -/
abbrev HST_QP_SQ_TAIL (n : Nat) : Nat := 0x1b1018 + 0x40 * n

/-- `HST_QPn_SQ_TAIL.TAIL`, RW, reset 0x000. -/
abbrev HST_QP_SQ_TAIL_TAIL (n : Nat) : Fld := ⟨(HST_QP_SQ_TAIL n), 0, 12⟩

/-- `HST_QPn_CQ_HEAD` (R350). -/
abbrev HST_QP_CQ_HEAD (n : Nat) : Nat := 0x1b101c + 0x40 * n

/-- `HST_QPn_CQ_HEAD.HEAD`, RW, reset 0x000. -/
abbrev HST_QP_CQ_HEAD_HEAD (n : Nat) : Fld := ⟨(HST_QP_CQ_HEAD n), 0, 12⟩

/-- `HST_QPn_SQ_HEAD` (R350). -/
abbrev HST_QP_SQ_HEAD (n : Nat) : Nat := 0x1b1020 + 0x40 * n

/-- `HST_QPn_SQ_HEAD.HEAD`, RO, reset 0x000. -/
abbrev HST_QP_SQ_HEAD_HEAD (n : Nat) : Fld := ⟨(HST_QP_SQ_HEAD n), 0, 12⟩

/-- `JRN_CTRL` (R351). -/
abbrev JRN_CTRL : Nat := 0x1c0000

/-- `JRN_CTRL.EN`, RW, reset 0x0. -/
abbrev JRN_CTRL_EN : Fld := ⟨JRN_CTRL, 0, 1⟩

/-- `JRN_STATUS` (R351). -/
abbrev JRN_STATUS : Nat := 0x1c0004

/-- `JRN_STATUS.RESERVE`, W1C, reset 0x0. -/
abbrev JRN_STATUS_RESERVE : Fld := ⟨JRN_STATUS, 0, 1⟩

/-- `JRN_STATUS.LOST`, W1C, reset 0x0. -/
abbrev JRN_STATUS_LOST : Fld := ⟨JRN_STATUS, 1, 1⟩

/-- `JRN_STATUS.MATE_LOST`, W1C, reset 0x0. -/
abbrev JRN_STATUS_MATE_LOST : Fld := ⟨JRN_STATUS, 2, 1⟩

/-- `JRN_STATUS.NVM_ERR`, W1C, reset 0x0. -/
abbrev JRN_STATUS_NVM_ERR : Fld := ⟨JRN_STATUS, 3, 1⟩

/-- `JRN_STATUS.GAP`, W1C, reset 0x0. -/
abbrev JRN_STATUS_GAP : Fld := ⟨JRN_STATUS, 4, 1⟩

/-- `JRN_STATUS.FIRST`, RO, reset 0x0. -/
abbrev JRN_STATUS_FIRST : Fld := ⟨JRN_STATUS, 16, 4⟩

/-- `JRN_STATUS.OVF`, W1C, reset 0x0. -/
abbrev JRN_STATUS_OVF : Fld := ⟨JRN_STATUS, 20, 1⟩

/-- `JRN_IRQ_EN` (R351). -/
abbrev JRN_IRQ_EN : Nat := 0x1c0008

/-- `JRN_IRQ_EN.EN`, RW, reset 0x00. -/
abbrev JRN_IRQ_EN_EN : Fld := ⟨JRN_IRQ_EN, 0, 5⟩

/-- `JRN_BASE_A` (R351). -/
abbrev JRN_BASE_A : Nat := 0x1c000c

/-- `JRN_BASE_A.ADDR`, RW, reset 0x0000_0000. -/
abbrev JRN_BASE_A_ADDR : Fld := ⟨JRN_BASE_A, 0, 32⟩

/-- `JRN_BASE_B` (R351). -/
abbrev JRN_BASE_B : Nat := 0x1c0010

/-- `JRN_BASE_B.ADDR`, RW, reset 0x0000_0000. -/
abbrev JRN_BASE_B_ADDR : Fld := ⟨JRN_BASE_B, 0, 32⟩

/-- `JRN_SIZE` (R351). -/
abbrev JRN_SIZE : Nat := 0x1c0014

/-- `JRN_SIZE.LOG2_N`, RW, reset 0x14. -/
abbrev JRN_SIZE_LOG2_N : Fld := ⟨JRN_SIZE, 0, 5⟩

/-- `JRN_NEXT_SEQ_LO` (R351). -/
abbrev JRN_NEXT_SEQ_LO : Nat := 0x1c0018

/-- `JRN_NEXT_SEQ_LO.SEQ`, RO, reset 0x0000_0001. -/
abbrev JRN_NEXT_SEQ_LO_SEQ : Fld := ⟨JRN_NEXT_SEQ_LO, 0, 32⟩

/-- `JRN_NEXT_SEQ_HI` (R351). -/
abbrev JRN_NEXT_SEQ_HI : Nat := 0x1c001c

/-- `JRN_NEXT_SEQ_HI.SEQ`, RO, reset 0x0000. -/
abbrev JRN_NEXT_SEQ_HI_SEQ : Fld := ⟨JRN_NEXT_SEQ_HI, 0, 16⟩

/-- `JRN_DURABLE_SEQ_LO` (R351). -/
abbrev JRN_DURABLE_SEQ_LO : Nat := 0x1c0020

/-- `JRN_DURABLE_SEQ_LO.SEQ`, RO, reset 0x0000_0000. -/
abbrev JRN_DURABLE_SEQ_LO_SEQ : Fld := ⟨JRN_DURABLE_SEQ_LO, 0, 32⟩

/-- `JRN_DURABLE_SEQ_HI` (R351). -/
abbrev JRN_DURABLE_SEQ_HI : Nat := 0x1c0024

/-- `JRN_DURABLE_SEQ_HI.SEQ`, RO, reset 0x0000. -/
abbrev JRN_DURABLE_SEQ_HI_SEQ : Fld := ⟨JRN_DURABLE_SEQ_HI, 0, 16⟩

/-- `JRN_OLDEST_SEQ_LO` (R351). -/
abbrev JRN_OLDEST_SEQ_LO : Nat := 0x1c0028

/-- `JRN_OLDEST_SEQ_LO.SEQ`, RO, reset 0x0000_0000. -/
abbrev JRN_OLDEST_SEQ_LO_SEQ : Fld := ⟨JRN_OLDEST_SEQ_LO, 0, 32⟩

/-- `JRN_OLDEST_SEQ_HI` (R351). -/
abbrev JRN_OLDEST_SEQ_HI : Nat := 0x1c002c

/-- `JRN_OLDEST_SEQ_HI.SEQ`, RO, reset 0x0000. -/
abbrev JRN_OLDEST_SEQ_HI_SEQ : Fld := ⟨JRN_OLDEST_SEQ_HI, 0, 16⟩

/-- `JRN_DRING_LO` (R351). -/
abbrev JRN_DRING_LO : Nat := 0x1c0030

/-- `JRN_DRING_LO.ADDR`, RW, reset 0x0000_0000. -/
abbrev JRN_DRING_LO_ADDR : Fld := ⟨JRN_DRING_LO, 0, 32⟩

/-- `JRN_DRING_HI` (R351). -/
abbrev JRN_DRING_HI : Nat := 0x1c0034

/-- `JRN_DRING_HI.ADDR`, RW, reset 0x00. -/
abbrev JRN_DRING_HI_ADDR : Fld := ⟨JRN_DRING_HI, 0, 8⟩

/-- `JRN_DRING_CFG` (R351). -/
abbrev JRN_DRING_CFG : Nat := 0x1c0038

/-- `JRN_DRING_CFG.ENTRIES`, RW, reset 0x1_0000. -/
abbrev JRN_DRING_CFG_ENTRIES : Fld := ⟨JRN_DRING_CFG, 0, 17⟩

/-- `JRN_DRING_USED` (R351). -/
abbrev JRN_DRING_USED : Nat := 0x1c003c

/-- `JRN_DRING_USED.COUNT`, RO, reset 0x0_0000. -/
abbrev JRN_DRING_USED_COUNT : Fld := ⟨JRN_DRING_USED, 0, 17⟩

/-- `JRN_MATE` (R351). -/
abbrev JRN_MATE : Nat := 0x1c0040

/-- `JRN_MATE.MATE_ID`, RW, reset 0x000. -/
abbrev JRN_MATE_MATE_ID : Fld := ⟨JRN_MATE, 0, 10⟩

/-- `JRN_MATE.EN`, RW, reset 0x0. -/
abbrev JRN_MATE_EN : Fld := ⟨JRN_MATE, 31, 1⟩

/-- `JRN_MIRROR_BASE` (R351). -/
abbrev JRN_MIRROR_BASE : Nat := 0x1c0044

/-- `JRN_MIRROR_BASE.ADDR`, RW, reset 0x0000_0000. -/
abbrev JRN_MIRROR_BASE_ADDR : Fld := ⟨JRN_MIRROR_BASE, 0, 32⟩

/-- `JRN_LOST` (R351). -/
abbrev JRN_LOST : Nat := 0x1c0048

/-- `JRN_LOST.COUNT`, RO, reset 0x0000_0000. -/
abbrev JRN_LOST_COUNT : Fld := ⟨JRN_LOST, 0, 32⟩

/-- `JRN_GAPS` (R351). -/
abbrev JRN_GAPS : Nat := 0x1c004c

/-- `JRN_GAPS.COUNT`, RO, reset 0x0000_0000. -/
abbrev JRN_GAPS_COUNT : Fld := ⟨JRN_GAPS, 0, 32⟩

/-- `JRN_CNT_WRITES` (R351). -/
abbrev JRN_CNT_WRITES : Nat := 0x1c0050

/-- `JRN_CNT_WRITES.COUNT`, RO, reset 0x0000_0000. -/
abbrev JRN_CNT_WRITES_COUNT : Fld := ⟨JRN_CNT_WRITES, 0, 32⟩

/-- `XSP_CTRL` (R352). -/
abbrev XSP_CTRL : Nat := 0x1d0000

/-- `XSP_CTRL.EN`, RW, reset 0x0. -/
abbrev XSP_CTRL_EN : Fld := ⟨XSP_CTRL, 0, 1⟩

/-- `XSP_CTRL.OCTAL`, RW, reset 0x0. -/
abbrev XSP_CTRL_OCTAL : Fld := ⟨XSP_CTRL, 1, 1⟩

/-- `XSP_STATUS` (R352). -/
abbrev XSP_STATUS : Nat := 0x1d0004

/-- `XSP_STATUS.TIMEOUT`, W1C, reset 0x0. -/
abbrev XSP_STATUS_TIMEOUT : Fld := ⟨XSP_STATUS, 0, 1⟩

/-- `XSP_STATUS.WRITE_FAIL`, W1C, reset 0x0. -/
abbrev XSP_STATUS_WRITE_FAIL : Fld := ⟨XSP_STATUS, 1, 1⟩

/-- `XSP_STATUS.FIRST`, RO, reset 0x0. -/
abbrev XSP_STATUS_FIRST : Fld := ⟨XSP_STATUS, 16, 4⟩

/-- `XSP_STATUS.OVF`, W1C, reset 0x0. -/
abbrev XSP_STATUS_OVF : Fld := ⟨XSP_STATUS, 20, 1⟩

/-- `XSP_IRQ_EN` (R352). -/
abbrev XSP_IRQ_EN : Nat := 0x1d0008

/-- `XSP_IRQ_EN.EN`, RW, reset 0x0. -/
abbrev XSP_IRQ_EN_EN : Fld := ⟨XSP_IRQ_EN, 0, 2⟩

/-- `XSP_CFG` (R352). -/
abbrev XSP_CFG : Nat := 0x1d000c

/-- `XSP_CFG.DIV`, RW, reset 0x4. -/
abbrev XSP_CFG_DIV : Fld := ⟨XSP_CFG, 0, 4⟩

/-- `XSP_CFG.DUMMY`, RW, reset 0x14. -/
abbrev XSP_CFG_DUMMY : Fld := ⟨XSP_CFG, 8, 5⟩

/-- `XSP_CFG.PROG_MAX`, RW, reset 0x14. -/
abbrev XSP_CFG_PROG_MAX : Fld := ⟨XSP_CFG, 16, 8⟩

/-- `XSP_BOOT` (R352). -/
abbrev XSP_BOOT : Nat := 0x1d0010

/-- `XSP_BOOT.BANK`, RO, reset NVM. -/
abbrev XSP_BOOT_BANK : Fld := ⟨XSP_BOOT, 0, 1⟩

/-- `XSP_BOOT.STAGED`, RO, reset 0x0. -/
abbrev XSP_BOOT_STAGED : Fld := ⟨XSP_BOOT, 1, 1⟩

/-- `XSP_BOOT.SWITCH_PENDING`, RO, reset 0x0. -/
abbrev XSP_BOOT_SWITCH_PENDING : Fld := ⟨XSP_BOOT, 2, 1⟩

/-- `XSP_BOOT.BOOT_FALLBACK`, W1C, reset 0x0. -/
abbrev XSP_BOOT_BOOT_FALLBACK : Fld := ⟨XSP_BOOT, 3, 1⟩

/-- `XSP_BANK0_BASE` (R352). -/
abbrev XSP_BANK0_BASE : Nat := 0x1d0014

/-- `XSP_BANK0_BASE.ADDR`, RW, reset OTP. -/
abbrev XSP_BANK0_BASE_ADDR : Fld := ⟨XSP_BANK0_BASE, 0, 32⟩

/-- `XSP_BANK1_BASE` (R352). -/
abbrev XSP_BANK1_BASE : Nat := 0x1d0018

/-- `XSP_BANK1_BASE.ADDR`, RW, reset OTP. -/
abbrev XSP_BANK1_BASE_ADDR : Fld := ⟨XSP_BANK1_BASE, 0, 32⟩

/-- `XSP_CMD` (R352). -/
abbrev XSP_CMD : Nat := 0x1d001c

/-- `XSP_CMD.GO`, WO, reset 0x0. -/
abbrev XSP_CMD_GO : Fld := ⟨XSP_CMD, 0, 1⟩

/-- `XSP_CMD.BUSY`, RO, reset 0x0. -/
abbrev XSP_CMD_BUSY : Fld := ⟨XSP_CMD, 1, 1⟩

/-- `XSP_CMD.LEN`, RW, reset 0x04. -/
abbrev XSP_CMD_LEN : Fld := ⟨XSP_CMD, 8, 8⟩

/-- `XSP_CMD_ADDR` (R352). -/
abbrev XSP_CMD_ADDR : Nat := 0x1d0020

/-- `XSP_CMD_ADDR.ADDR`, RW, reset 0x0000_0000. -/
abbrev XSP_CMD_ADDR_ADDR : Fld := ⟨XSP_CMD_ADDR, 0, 32⟩

/-- `XSP_CMD_DATA` (R352). -/
abbrev XSP_CMD_DATA : Nat := 0x1d0024

/-- `XSP_CMD_DATA.DATA`, RO, reset 0x0000_0000. -/
abbrev XSP_CMD_DATA_DATA : Fld := ⟨XSP_CMD_DATA, 0, 32⟩

/-- `XSP_CNT_WRITES` (R352). -/
abbrev XSP_CNT_WRITES : Nat := 0x1d0028

/-- `XSP_CNT_WRITES.COUNT`, RO, reset 0x0000_0000. -/
abbrev XSP_CNT_WRITES_COUNT : Fld := ⟨XSP_CNT_WRITES, 0, 32⟩

/-- `FAB_CTRL` (R375). -/
abbrev FAB_CTRL : Nat := 0x1a0000

/-- `FAB_CTRL.EN`, RW, reset 0x0. -/
abbrev FAB_CTRL_EN : Fld := ⟨FAB_CTRL, 0, 1⟩

/-- `FAB_CTRL.ROOT`, RW, reset Strap. -/
abbrev FAB_CTRL_ROOT : Fld := ⟨FAB_CTRL, 1, 1⟩

/-- `FAB_CTRL.AUTO_ROUTE`, RW, reset 0x1. -/
abbrev FAB_CTRL_AUTO_ROUTE : Fld := ⟨FAB_CTRL, 2, 1⟩

/-- `FAB_CTRL.DISCOVER`, WO, reset 0x0. -/
abbrev FAB_CTRL_DISCOVER : Fld := ⟨FAB_CTRL, 3, 1⟩

/-- `FAB_STATUS` (R375). -/
abbrev FAB_STATUS : Nat := 0x1a0004

/-- `FAB_STATUS.LINK_DOWN`, W1C, reset 0x0. -/
abbrev FAB_STATUS_LINK_DOWN : Fld := ⟨FAB_STATUS, 0, 1⟩

/-- `FAB_STATUS.LANE_DOWN`, W1C, reset 0x0. -/
abbrev FAB_STATUS_LANE_DOWN : Fld := ⟨FAB_STATUS, 1, 1⟩

/-- `FAB_STATUS.VER_ERR`, W1C, reset 0x0. -/
abbrev FAB_STATUS_VER_ERR : Fld := ⟨FAB_STATUS, 2, 1⟩

/-- `FAB_STATUS.ID_CONFLICT`, W1C, reset 0x0. -/
abbrev FAB_STATUS_ID_CONFLICT : Fld := ⟨FAB_STATUS, 3, 1⟩

/-- `FAB_STATUS.LATE_ERR`, W1C, reset 0x0. -/
abbrev FAB_STATUS_LATE_ERR : Fld := ⟨FAB_STATUS, 4, 1⟩

/-- `FAB_STATUS.LEQ_LOST`, W1C, reset 0x0. -/
abbrev FAB_STATUS_LEQ_LOST : Fld := ⟨FAB_STATUS, 5, 1⟩

/-- `FAB_STATUS.EVQ_LOST`, W1C, reset 0x0. -/
abbrev FAB_STATUS_EVQ_LOST : Fld := ⟨FAB_STATUS, 6, 1⟩

/-- `FAB_STATUS.RD_TIMEOUT`, W1C, reset 0x0. -/
abbrev FAB_STATUS_RD_TIMEOUT : Fld := ⟨FAB_STATUS, 7, 1⟩

/-- `FAB_STATUS.SYNC_LOST`, W1C, reset 0x0. -/
abbrev FAB_STATUS_SYNC_LOST : Fld := ⟨FAB_STATUS, 8, 1⟩

/-- `FAB_STATUS.ROUTE_ERR`, W1C, reset 0x0. -/
abbrev FAB_STATUS_ROUTE_ERR : Fld := ⟨FAB_STATUS, 9, 1⟩

/-- `FAB_STATUS.FIRST`, RO, reset 0x0. -/
abbrev FAB_STATUS_FIRST : Fld := ⟨FAB_STATUS, 16, 4⟩

/-- `FAB_STATUS.OVF`, W1C, reset 0x0. -/
abbrev FAB_STATUS_OVF : Fld := ⟨FAB_STATUS, 20, 1⟩

/-- `FAB_IRQ_EN` (R375). -/
abbrev FAB_IRQ_EN : Nat := 0x1a0008

/-- `FAB_IRQ_EN.EN`, RW, reset 0x000. -/
abbrev FAB_IRQ_EN_EN : Fld := ⟨FAB_IRQ_EN, 0, 10⟩

/-- `FAB_ID` (R375). -/
abbrev FAB_ID : Nat := 0x1a000c

/-- `FAB_ID.DEV_ID`, RO, reset 0x000. -/
abbrev FAB_ID_DEV_ID : Fld := ⟨FAB_ID, 0, 10⟩

/-- `FAB_ID.VALID`, RO, reset 0x0. -/
abbrev FAB_ID_VALID : Fld := ⟨FAB_ID, 10, 1⟩

/-- `FAB_ID.REQ_ID`, RW, reset OTP. -/
abbrev FAB_ID_REQ_ID : Fld := ⟨FAB_ID, 16, 10⟩

/-- `FAB_ID.REQ_VALID`, RW, reset OTP. -/
abbrev FAB_ID_REQ_VALID : Fld := ⟨FAB_ID, 26, 1⟩

/-- `FAB_EUI_LO` (R375). -/
abbrev FAB_EUI_LO : Nat := 0x1a0010

/-- `FAB_EUI_LO.EUI`, RO, reset OTP. -/
abbrev FAB_EUI_LO_EUI : Fld := ⟨FAB_EUI_LO, 0, 32⟩

/-- `FAB_EUI_HI` (R375). -/
abbrev FAB_EUI_HI : Nat := 0x1a0014

/-- `FAB_EUI_HI.EUI`, RO, reset OTP. -/
abbrev FAB_EUI_HI_EUI : Fld := ⟨FAB_EUI_HI, 0, 32⟩

/-- `FAB_VER` (R375). -/
abbrev FAB_VER : Nat := 0x1a0018

/-- `FAB_VER.VER_MIN`, RO, reset 0x10. -/
abbrev FAB_VER_VER_MIN : Fld := ⟨FAB_VER, 0, 8⟩

/-- `FAB_VER.VER_MAX`, RO, reset 0x11. -/
abbrev FAB_VER_VER_MAX : Fld := ⟨FAB_VER, 8, 8⟩

/-- `FAB_DEVICES` (R375). -/
abbrev FAB_DEVICES : Nat := 0x1a001c

/-- `FAB_DEVICES.COUNT`, RO, reset 0x000. -/
abbrev FAB_DEVICES_COUNT : Fld := ⟨FAB_DEVICES, 0, 11⟩

/-- `FAB_SYNC_CFG` (R375). -/
abbrev FAB_SYNC_CFG : Nat := 0x1a0020

/-- `FAB_SYNC_CFG.MASTER_EN`, RW, reset 0x0. -/
abbrev FAB_SYNC_CFG_MASTER_EN : Fld := ⟨FAB_SYNC_CFG, 0, 1⟩

/-- `FAB_SYNC_CFG.PRIO`, RW, reset 0x8. -/
abbrev FAB_SYNC_CFG_PRIO : Fld := ⟨FAB_SYNC_CFG, 4, 4⟩

/-- `FAB_SYNC_CFG.INTERVAL`, RW, reset 0x01. -/
abbrev FAB_SYNC_CFG_INTERVAL : Fld := ⟨FAB_SYNC_CFG, 8, 8⟩

/-- `FAB_SYNC_CFG.LOCK_TICKS`, RW, reset 0x03. -/
abbrev FAB_SYNC_CFG_LOCK_TICKS : Fld := ⟨FAB_SYNC_CFG, 16, 8⟩

/-- `FAB_SYNC_STATE` (R375). -/
abbrev FAB_SYNC_STATE : Nat := 0x1a0024

/-- `FAB_SYNC_STATE.MASTER`, RO, reset 0x0. -/
abbrev FAB_SYNC_STATE_MASTER : Fld := ⟨FAB_SYNC_STATE, 0, 1⟩

/-- `FAB_SYNC_STATE.LOCKED`, RO, reset 0x0. -/
abbrev FAB_SYNC_STATE_LOCKED : Fld := ⟨FAB_SYNC_STATE, 1, 1⟩

/-- `FAB_SYNC_STATE.STEPPED`, RO, reset 0x0. -/
abbrev FAB_SYNC_STATE_STEPPED : Fld := ⟨FAB_SYNC_STATE, 2, 1⟩

/-- `FAB_SYNC_STATE.MASTER_ID`, RO, reset 0x000. -/
abbrev FAB_SYNC_STATE_MASTER_ID : Fld := ⟨FAB_SYNC_STATE, 12, 10⟩

/-- `FAB_SYNC_OFS` (R375). -/
abbrev FAB_SYNC_OFS : Nat := 0x1a0028

/-- `FAB_SYNC_OFS.OFS`, RO, reset 0x0000_0000. -/
abbrev FAB_SYNC_OFS_OFS : Fld := ⟨FAB_SYNC_OFS, 0, 32⟩

/-- `FAB_RD_TIMEOUT` (R375). -/
abbrev FAB_RD_TIMEOUT : Nat := 0x1a002c

/-- `FAB_RD_TIMEOUT.US`, RW, reset 0x03E8. -/
abbrev FAB_RD_TIMEOUT_US : Fld := ⟨FAB_RD_TIMEOUT, 0, 16⟩

/-- `FAB_LEQ_STATUS` (R375). -/
abbrev FAB_LEQ_STATUS : Nat := 0x1a0030

/-- `FAB_LEQ_STATUS.COUNT`, RO, reset 0x00. -/
abbrev FAB_LEQ_STATUS_COUNT : Fld := ⟨FAB_LEQ_STATUS, 0, 7⟩

/-- `FAB_LEQ_INFO0` (R375). -/
abbrev FAB_LEQ_INFO0 : Nat := 0x1a0034

/-- `FAB_LEQ_INFO0.TAG`, RO, reset 0x0000_0000. -/
abbrev FAB_LEQ_INFO0_TAG : Fld := ⟨FAB_LEQ_INFO0, 0, 32⟩

/-- `FAB_LEQ_INFO1` (R375). -/
abbrev FAB_LEQ_INFO1 : Nat := 0x1a0038

/-- `FAB_LEQ_INFO1.FROM`, RO, reset 0x000. -/
abbrev FAB_LEQ_INFO1_FROM : Fld := ⟨FAB_LEQ_INFO1, 0, 10⟩

/-- `FAB_LEQ_INFO1.CODE`, RO, reset 0x0. -/
abbrev FAB_LEQ_INFO1_CODE : Fld := ⟨FAB_LEQ_INFO1, 12, 4⟩

/-- `FAB_LEQ_INFO2` (R375). -/
abbrev FAB_LEQ_INFO2 : Nat := 0x1a003c

/-- `FAB_LEQ_INFO2.ADDR`, RO, reset 0x0000_0000. -/
abbrev FAB_LEQ_INFO2_ADDR : Fld := ⟨FAB_LEQ_INFO2, 0, 32⟩

/-- `FAB_LEQ_POP` (R375). -/
abbrev FAB_LEQ_POP : Nat := 0x1a0040

/-- `FAB_LEQ_POP.POP`, WO, reset 0x0. -/
abbrev FAB_LEQ_POP_POP : Fld := ⟨FAB_LEQ_POP, 0, 1⟩

/-- `FAB_LEQ_INFO3` (R375). -/
abbrev FAB_LEQ_INFO3 : Nat := 0x1a0044

/-- `FAB_LEQ_INFO3.ADDR`, RO, reset 0x0000. -/
abbrev FAB_LEQ_INFO3_ADDR : Fld := ⟨FAB_LEQ_INFO3, 0, 14⟩

/-- `FAB_EVQ_STATUS` (R375). -/
abbrev FAB_EVQ_STATUS : Nat := 0x1a0050

/-- `FAB_EVQ_STATUS.COUNT`, RO, reset 0x00. -/
abbrev FAB_EVQ_STATUS_COUNT : Fld := ⟨FAB_EVQ_STATUS, 0, 7⟩

/-- `FAB_EVQ_INFO0` (R375). -/
abbrev FAB_EVQ_INFO0 : Nat := 0x1a0054

/-- `FAB_EVQ_INFO0.SEQ`, RO, reset 0x0000_0000. -/
abbrev FAB_EVQ_INFO0_SEQ : Fld := ⟨FAB_EVQ_INFO0, 0, 32⟩

/-- `FAB_EVQ_INFO1` (R375). -/
abbrev FAB_EVQ_INFO1 : Nat := 0x1a0058

/-- `FAB_EVQ_INFO1.FROM`, RO, reset 0x000. -/
abbrev FAB_EVQ_INFO1_FROM : Fld := ⟨FAB_EVQ_INFO1, 0, 10⟩

/-- `FAB_EVQ_INFO1.TAG`, RO, reset 0x00. -/
abbrev FAB_EVQ_INFO1_TAG : Fld := ⟨FAB_EVQ_INFO1, 10, 6⟩

/-- `FAB_EVQ_INFO1.CODE`, RO, reset 0x00. -/
abbrev FAB_EVQ_INFO1_CODE : Fld := ⟨FAB_EVQ_INFO1, 16, 8⟩

/-- `FAB_EVQ_INFO1.SPEC`, RO, reset 0x0. -/
abbrev FAB_EVQ_INFO1_SPEC : Fld := ⟨FAB_EVQ_INFO1, 24, 1⟩

/-- `FAB_EVQ_POP` (R375). -/
abbrev FAB_EVQ_POP : Nat := 0x1a005c

/-- `FAB_EVQ_POP.POP`, WO, reset 0x0. -/
abbrev FAB_EVQ_POP_POP : Fld := ⟨FAB_EVQ_POP, 0, 1⟩

/-- `FAB_CNT_LEQ_LOST` (R375). -/
abbrev FAB_CNT_LEQ_LOST : Nat := 0x1a0060

/-- `FAB_CNT_LEQ_LOST.COUNT`, RO, reset 0x0000_0000. -/
abbrev FAB_CNT_LEQ_LOST_COUNT : Fld := ⟨FAB_CNT_LEQ_LOST, 0, 32⟩

/-- `FAB_CNT_RD_LATE` (R375). -/
abbrev FAB_CNT_RD_LATE : Nat := 0x1a0064

/-- `FAB_CNT_RD_LATE.COUNT`, RO, reset 0x0000_0000. -/
abbrev FAB_CNT_RD_LATE_COUNT : Fld := ⟨FAB_CNT_RD_LATE, 0, 32⟩

/-- `FAB_CNT_EV_DROP` (R375). -/
abbrev FAB_CNT_EV_DROP : Nat := 0x1a0068

/-- `FAB_CNT_EV_DROP.COUNT`, RO, reset 0x0000_0000. -/
abbrev FAB_CNT_EV_DROP_COUNT : Fld := ⟨FAB_CNT_EV_DROP, 0, 32⟩

/-- `FAB_CNT_MALFORMED` (R375). -/
abbrev FAB_CNT_MALFORMED : Nat := 0x1a006c

/-- `FAB_CNT_MALFORMED.COUNT`, RO, reset 0x0000_0000. -/
abbrev FAB_CNT_MALFORMED_COUNT : Fld := ⟨FAB_CNT_MALFORMED, 0, 32⟩

/-- `FAB_CNT_ROUTE_ERR` (R375). -/
abbrev FAB_CNT_ROUTE_ERR : Nat := 0x1a0070

/-- `FAB_CNT_ROUTE_ERR.COUNT`, RO, reset 0x0000_0000. -/
abbrev FAB_CNT_ROUTE_ERR_COUNT : Fld := ⟨FAB_CNT_ROUTE_ERR, 0, 32⟩

/-- `FAB_Pp_CFG` (R375). -/
abbrev FAB_P_CFG (p : Nat) : Nat := 0x1a0100 + 0x40 * p

/-- `FAB_Pp_CFG.EN`, RW, reset 0x0. -/
abbrev FAB_P_CFG_EN (p : Nat) : Fld := ⟨(FAB_P_CFG p), 0, 1⟩

/-- `FAB_Pp_CFG.FEC_EN`, RW, reset 0x1. -/
abbrev FAB_P_CFG_FEC_EN (p : Nat) : Fld := ⟨(FAB_P_CFG p), 1, 1⟩

/-- `FAB_Pp_CFG.DATELINE`, RW, reset 0x0. -/
abbrev FAB_P_CFG_DATELINE (p : Nat) : Fld := ⟨(FAB_P_CFG p), 2, 1⟩

/-- `FAB_Pp_CFG.RX_INV0`, RW, reset 0x0. -/
abbrev FAB_P_CFG_RX_INV0 (p : Nat) : Fld := ⟨(FAB_P_CFG p), 3, 1⟩

/-- `FAB_Pp_CFG.RX_INV1`, RW, reset 0x0. -/
abbrev FAB_P_CFG_RX_INV1 (p : Nat) : Fld := ⟨(FAB_P_CFG p), 4, 1⟩

/-- `FAB_Pp_CFG.TX_INV0`, RW, reset 0x0. -/
abbrev FAB_P_CFG_TX_INV0 (p : Nat) : Fld := ⟨(FAB_P_CFG p), 5, 1⟩

/-- `FAB_Pp_CFG.TX_INV1`, RW, reset 0x0. -/
abbrev FAB_P_CFG_TX_INV1 (p : Nat) : Fld := ⟨(FAB_P_CFG p), 6, 1⟩

/-- `FAB_Pp_STATE` (R375). -/
abbrev FAB_P_STATE (p : Nat) : Nat := 0x1a0104 + 0x40 * p

/-- `FAB_Pp_STATE.STATE`, RO, reset 0x0. -/
abbrev FAB_P_STATE_STATE (p : Nat) : Fld := ⟨(FAB_P_STATE p), 0, 2⟩

/-- `FAB_Pp_STATE.LANES`, RO, reset 0x0. -/
abbrev FAB_P_STATE_LANES (p : Nat) : Fld := ⟨(FAB_P_STATE p), 2, 2⟩

/-- `FAB_Pp_STATE.INV0`, RO, reset 0x0. -/
abbrev FAB_P_STATE_INV0 (p : Nat) : Fld := ⟨(FAB_P_STATE p), 4, 1⟩

/-- `FAB_Pp_STATE.INV1`, RO, reset 0x0. -/
abbrev FAB_P_STATE_INV1 (p : Nat) : Fld := ⟨(FAB_P_STATE p), 5, 1⟩

/-- `FAB_Pp_STATE.VER`, RO, reset 0x00. -/
abbrev FAB_P_STATE_VER (p : Nat) : Fld := ⟨(FAB_P_STATE p), 8, 8⟩

/-- `FAB_Pp_STATE.PEER_ID`, RO, reset 0x000. -/
abbrev FAB_P_STATE_PEER_ID (p : Nat) : Fld := ⟨(FAB_P_STATE p), 16, 10⟩

/-- `FAB_Pp_STATE.PEER_VALID`, RO, reset 0x0. -/
abbrev FAB_P_STATE_PEER_VALID (p : Nat) : Fld := ⟨(FAB_P_STATE p), 26, 1⟩

/-- `FAB_Pp_DELAY` (R375). -/
abbrev FAB_P_DELAY (p : Nat) : Nat := 0x1a0108 + 0x40 * p

/-- `FAB_Pp_DELAY.DELAY`, RO, reset 0x00_0000. -/
abbrev FAB_P_DELAY_DELAY (p : Nat) : Fld := ⟨(FAB_P_DELAY p), 0, 24⟩

/-- `FAB_Pp_CNT_REPLAY` (R375). -/
abbrev FAB_P_CNT_REPLAY (p : Nat) : Nat := 0x1a010c + 0x40 * p

/-- `FAB_Pp_CNT_REPLAY.COUNT`, RO, reset 0x0000_0000. -/
abbrev FAB_P_CNT_REPLAY_COUNT (p : Nat) : Fld := ⟨(FAB_P_CNT_REPLAY p), 0, 32⟩

/-- `FAB_Pp_CNT_CRC` (R375). -/
abbrev FAB_P_CNT_CRC (p : Nat) : Nat := 0x1a0110 + 0x40 * p

/-- `FAB_Pp_CNT_CRC.COUNT`, RO, reset 0x0000_0000. -/
abbrev FAB_P_CNT_CRC_COUNT (p : Nat) : Fld := ⟨(FAB_P_CNT_CRC p), 0, 32⟩

/-- `FAB_Pp_CNT_TX` (R375). -/
abbrev FAB_P_CNT_TX (p : Nat) : Nat := 0x1a0114 + 0x40 * p

/-- `FAB_Pp_CNT_TX.COUNT`, RO, reset 0x0000_0000. -/
abbrev FAB_P_CNT_TX_COUNT (p : Nat) : Fld := ⟨(FAB_P_CNT_TX p), 0, 32⟩

/-- `FAB_Pp_CNT_RX` (R375). -/
abbrev FAB_P_CNT_RX (p : Nat) : Nat := 0x1a0118 + 0x40 * p

/-- `FAB_Pp_CNT_RX.COUNT`, RO, reset 0x0000_0000. -/
abbrev FAB_P_CNT_RX_COUNT (p : Nat) : Fld := ⟨(FAB_P_CNT_RX p), 0, 32⟩

/-- `FAB_Pp_CNT_FEC` (R375). -/
abbrev FAB_P_CNT_FEC (p : Nat) : Nat := 0x1a011c + 0x40 * p

/-- `FAB_Pp_CNT_FEC.COUNT`, RO, reset 0x0000_0000. -/
abbrev FAB_P_CNT_FEC_COUNT (p : Nat) : Fld := ⟨(FAB_P_CNT_FEC p), 0, 32⟩

/-- `FAB_ROUTEd` (R375). -/
abbrev FAB_ROUTE (d : Nat) : Nat := 0x1a1000 + 0x4 * d

/-- `FAB_ROUTEd.PORT`, RW, reset 0xF. -/
abbrev FAB_ROUTE_PORT (d : Nat) : Fld := ⟨(FAB_ROUTE d), 0, 4⟩

/-- `FAB_ROUTEd.STATIC`, RW, reset 0x0. -/
abbrev FAB_ROUTE_STATIC (d : Nat) : Fld := ⟨(FAB_ROUTE d), 8, 1⟩

/-- `FAB_ROUTEd.HOPS`, RO, reset 0x00. -/
abbrev FAB_ROUTE_HOPS (d : Nat) : Fld := ⟨(FAB_ROUTE d), 16, 8⟩

/-- `VSP_CTRL` (R397). -/
abbrev VSP_CTRL : Nat := 0x60000

/-- `VSP_CTRL.EN`, RW, reset 0x0. -/
abbrev VSP_CTRL_EN : Fld := ⟨VSP_CTRL, 0, 1⟩

/-- `VSP_CTRL.FREEZE`, RW, reset 0x0. -/
abbrev VSP_CTRL_FREEZE : Fld := ⟨VSP_CTRL, 1, 1⟩

/-- `VSP_STATUS` (R397). -/
abbrev VSP_STATUS : Nat := 0x60004

/-- `VSP_STATUS.LOST`, W1C, reset 0x0. -/
abbrev VSP_STATUS_LOST : Fld := ⟨VSP_STATUS, 0, 1⟩

/-- `VSP_STATUS.NVM_ERR`, W1C, reset 0x0. -/
abbrev VSP_STATUS_NVM_ERR : Fld := ⟨VSP_STATUS, 1, 1⟩

/-- `VSP_STATUS.FROZEN_AO`, W1C, reset 0x0. -/
abbrev VSP_STATUS_FROZEN_AO : Fld := ⟨VSP_STATUS, 2, 1⟩

/-- `VSP_STATUS.FIRST`, RO, reset 0x0. -/
abbrev VSP_STATUS_FIRST : Fld := ⟨VSP_STATUS, 16, 4⟩

/-- `VSP_STATUS.OVF`, W1C, reset 0x0. -/
abbrev VSP_STATUS_OVF : Fld := ⟨VSP_STATUS, 20, 1⟩

/-- `VSP_IRQ_EN` (R397). -/
abbrev VSP_IRQ_EN : Nat := 0x60008

/-- `VSP_IRQ_EN.EN`, RW, reset 0x0. -/
abbrev VSP_IRQ_EN_EN : Fld := ⟨VSP_IRQ_EN, 0, 3⟩

/-- `VSP_BASE_A` (R397). -/
abbrev VSP_BASE_A : Nat := 0x6000c

/-- `VSP_BASE_A.ADDR`, RW, reset 0x0000_0000. -/
abbrev VSP_BASE_A_ADDR : Fld := ⟨VSP_BASE_A, 0, 32⟩

/-- `VSP_BASE_B` (R397). -/
abbrev VSP_BASE_B : Nat := 0x60010

/-- `VSP_BASE_B.ADDR`, RW, reset 0x0000_0000. -/
abbrev VSP_BASE_B_ADDR : Fld := ⟨VSP_BASE_B, 0, 32⟩

/-- `VSP_NEXT` (R397). -/
abbrev VSP_NEXT : Nat := 0x60014

/-- `VSP_NEXT.SLOT`, RO, reset 0x0000. -/
abbrev VSP_NEXT_SLOT : Fld := ⟨VSP_NEXT, 0, 16⟩

/-- `VSP_SECONDS` (R397). -/
abbrev VSP_SECONDS : Nat := 0x60018

/-- `VSP_SECONDS.S`, RO, reset 0x0000_0000. -/
abbrev VSP_SECONDS_S : Fld := ⟨VSP_SECONDS, 0, 32⟩

/-- `VSP_BOOT` (R397). -/
abbrev VSP_BOOT : Nat := 0x6001c

/-- `VSP_BOOT.COUNT`, RO, reset 0x00_0000. -/
abbrev VSP_BOOT_COUNT : Fld := ⟨VSP_BOOT, 0, 24⟩

/-- `VSP_DRING_LO` (R397). -/
abbrev VSP_DRING_LO : Nat := 0x60020

/-- `VSP_DRING_LO.ADDR`, RW, reset 0x0000_0000. -/
abbrev VSP_DRING_LO_ADDR : Fld := ⟨VSP_DRING_LO, 0, 32⟩

/-- `VSP_DRING_HI` (R397). -/
abbrev VSP_DRING_HI : Nat := 0x60024

/-- `VSP_DRING_HI.ADDR`, RW, reset 0x00. -/
abbrev VSP_DRING_HI_ADDR : Fld := ⟨VSP_DRING_HI, 0, 8⟩

/-- `VSP_DRING_CFG` (R397). -/
abbrev VSP_DRING_CFG : Nat := 0x60028

/-- `VSP_DRING_CFG.ENTRIES`, RW, reset 0x1000. -/
abbrev VSP_DRING_CFG_ENTRIES : Fld := ⟨VSP_DRING_CFG, 0, 13⟩

/-- `VSP_DRING_USED` (R397). -/
abbrev VSP_DRING_USED : Nat := 0x6002c

/-- `VSP_DRING_USED.COUNT`, RO, reset 0x0000. -/
abbrev VSP_DRING_USED_COUNT : Fld := ⟨VSP_DRING_USED, 0, 13⟩

/-- `VSP_LOST` (R397). -/
abbrev VSP_LOST : Nat := 0x60030

/-- `VSP_LOST.COUNT`, RO, reset 0x0000_0000. -/
abbrev VSP_LOST_COUNT : Fld := ⟨VSP_LOST, 0, 32⟩

/-- `VSP_RAISE_CODE` (R397). -/
abbrev VSP_RAISE_CODE : Nat := 0x60040

/-- `VSP_RAISE_CODE.CODE`, RW, reset 0x0000. -/
abbrev VSP_RAISE_CODE_CODE : Fld := ⟨VSP_RAISE_CODE, 0, 16⟩

/-- `VSP_RAISE_CODE.GO`, WO, reset 0x0. -/
abbrev VSP_RAISE_CODE_GO : Fld := ⟨VSP_RAISE_CODE, 31, 1⟩

/-- `VSP_RAISE_Pi` (R397). -/
abbrev VSP_RAISE_P (i : Nat) : Nat := 0x60044 + 0x4 * i

/-- `VSP_RAISE_Pi.P`, RW, reset 0x0000_0000. -/
abbrev VSP_RAISE_P_P (i : Nat) : Fld := ⟨(VSP_RAISE_P i), 0, 32⟩

/-- `VSP_READ_IDX` (R397). -/
abbrev VSP_READ_IDX : Nat := 0x60060

/-- `VSP_READ_IDX.SLOT`, RW, reset 0x0000. -/
abbrev VSP_READ_IDX_SLOT : Fld := ⟨VSP_READ_IDX, 0, 16⟩

/-- `VSP_READ_IDX.GO`, WO, reset 0x0. -/
abbrev VSP_READ_IDX_GO : Fld := ⟨VSP_READ_IDX, 31, 1⟩

/-- `VSP_READ_STATUS` (R397). -/
abbrev VSP_READ_STATUS : Nat := 0x60064

/-- `VSP_READ_STATUS.BUSY`, RO, reset 0x0. -/
abbrev VSP_READ_STATUS_BUSY : Fld := ⟨VSP_READ_STATUS, 0, 1⟩

/-- `VSP_READ_STATUS.VALID`, RO, reset 0x0. -/
abbrev VSP_READ_STATUS_VALID : Fld := ⟨VSP_READ_STATUS, 1, 1⟩

/-- `VSP_READ_STATUS.COPY`, RO, reset 0x0. -/
abbrev VSP_READ_STATUS_COPY : Fld := ⟨VSP_READ_STATUS, 2, 1⟩

/-- `VSP_READ_Ww` (R397). -/
abbrev VSP_READ_W (w : Nat) : Nat := 0x60080 + 0x4 * w

/-- `VSP_READ_Ww.DATA`, RO, reset 0x0000_0000. -/
abbrev VSP_READ_W_DATA (w : Nat) : Fld := ⟨(VSP_READ_W w), 0, 32⟩

/-- `PMC_CTRL` (R398). -/
abbrev PMC_CTRL : Nat := 0x70000

/-- `PMC_CTRL.EN`, RW, reset 0x0. -/
abbrev PMC_CTRL_EN : Fld := ⟨PMC_CTRL, 0, 1⟩

/-- `PMC_CTRL.FREEZE`, RW, reset 0x0. -/
abbrev PMC_CTRL_FREEZE : Fld := ⟨PMC_CTRL, 1, 1⟩

/-- `PMC_CTRL.CLR_ALL`, WO, reset 0x0. -/
abbrev PMC_CTRL_CLR_ALL : Fld := ⟨PMC_CTRL, 2, 1⟩

/-- `PMC_STATUS` (R398). -/
abbrev PMC_STATUS : Nat := 0x70004

/-- `PMC_STATUS.SEL_ERR`, W1C, reset 0x0. -/
abbrev PMC_STATUS_SEL_ERR : Fld := ⟨PMC_STATUS, 0, 1⟩

/-- `PMC_STATUS.DUMP_LATE`, W1C, reset 0x0. -/
abbrev PMC_STATUS_DUMP_LATE : Fld := ⟨PMC_STATUS, 1, 1⟩

/-- `PMC_STATUS.DUMP_ERR`, W1C, reset 0x0. -/
abbrev PMC_STATUS_DUMP_ERR : Fld := ⟨PMC_STATUS, 2, 1⟩

/-- `PMC_STATUS.FIRST`, RO, reset 0x0. -/
abbrev PMC_STATUS_FIRST : Fld := ⟨PMC_STATUS, 16, 4⟩

/-- `PMC_STATUS.OVF`, W1C, reset 0x0. -/
abbrev PMC_STATUS_OVF : Fld := ⟨PMC_STATUS, 20, 1⟩

/-- `PMC_IRQ_EN` (R398). -/
abbrev PMC_IRQ_EN : Nat := 0x70008

/-- `PMC_IRQ_EN.EN`, RW, reset 0x0. -/
abbrev PMC_IRQ_EN_EN : Fld := ⟨PMC_IRQ_EN, 0, 3⟩

/-- `PMC_PERM` (R398). -/
abbrev PMC_PERM : Nat := 0x7000c

/-- `PMC_PERM.USER`, RW, reset 0x000. -/
abbrev PMC_PERM_USER : Fld := ⟨PMC_PERM, 0, 12⟩

/-- `PMC_WRAP_LO` (R398). -/
abbrev PMC_WRAP_LO : Nat := 0x70010

/-- `PMC_WRAP_LO.WRAP`, W1C, reset 0x0000_0000. -/
abbrev PMC_WRAP_LO_WRAP : Fld := ⟨PMC_WRAP_LO, 0, 32⟩

/-- `PMC_WRAP_HI` (R398). -/
abbrev PMC_WRAP_HI : Nat := 0x70014

/-- `PMC_WRAP_HI.WRAP`, W1C, reset 0x0000_0000. -/
abbrev PMC_WRAP_HI_WRAP : Fld := ⟨PMC_WRAP_HI, 0, 32⟩

/-- `PMC_DUMP_LO` (R398). -/
abbrev PMC_DUMP_LO : Nat := 0x70018

/-- `PMC_DUMP_LO.ADDR`, RW, reset 0x0000_0000. -/
abbrev PMC_DUMP_LO_ADDR : Fld := ⟨PMC_DUMP_LO, 0, 32⟩

/-- `PMC_DUMP_HI` (R398). -/
abbrev PMC_DUMP_HI : Nat := 0x7001c

/-- `PMC_DUMP_HI.ADDR`, RW, reset 0x00. -/
abbrev PMC_DUMP_HI_ADDR : Fld := ⟨PMC_DUMP_HI, 0, 8⟩

/-- `PMC_DUMP_CFG` (R398). -/
abbrev PMC_DUMP_CFG : Nat := 0x70020

/-- `PMC_DUMP_CFG.ENTRIES`, RW, reset 0x0000. -/
abbrev PMC_DUMP_CFG_ENTRIES : Fld := ⟨PMC_DUMP_CFG, 0, 16⟩

/-- `PMC_DUMP_CFG.PERIOD_US`, RW, reset 0x0000. -/
abbrev PMC_DUMP_CFG_PERIOD_US : Fld := ⟨PMC_DUMP_CFG, 16, 16⟩

/-- `PMC_DUMP_SEQ` (R398). -/
abbrev PMC_DUMP_SEQ : Nat := 0x70024

/-- `PMC_DUMP_SEQ.SEQ`, RO, reset 0x0000_0000. -/
abbrev PMC_DUMP_SEQ_SEQ : Fld := ⟨PMC_DUMP_SEQ, 0, 32⟩

/-- `PMC_BW_CFG` (R398). -/
abbrev PMC_BW_CFG : Nat := 0x70028

/-- `PMC_BW_CFG.WINDOW_US`, RW, reset 0x03E8. -/
abbrev PMC_BW_CFG_WINDOW_US : Fld := ⟨PMC_BW_CFG, 0, 16⟩

/-- `PMC_CNTc_SEL` (R398). -/
abbrev PMC_CNT_SEL (c : Nat) : Nat := 0x70100 + 0x10 * c

/-- `PMC_CNTc_SEL.EVT`, RW, reset 0x00. -/
abbrev PMC_CNT_SEL_EVT (c : Nat) : Fld := ⟨(PMC_CNT_SEL c), 0, 6⟩

/-- `PMC_CNTc_SEL.MODE`, RW, reset 0x0. -/
abbrev PMC_CNT_SEL_MODE (c : Nat) : Fld := ⟨(PMC_CNT_SEL c), 6, 2⟩

/-- `PMC_CNTc_SEL.INDEX`, RW, reset 0x00. -/
abbrev PMC_CNT_SEL_INDEX (c : Nat) : Fld := ⟨(PMC_CNT_SEL c), 8, 8⟩

/-- `PMC_CNTc_SEL.THRESH`, RW, reset 0x000. -/
abbrev PMC_CNT_SEL_THRESH (c : Nat) : Fld := ⟨(PMC_CNT_SEL c), 16, 10⟩

/-- `PMC_CNTc_SEL.SAMPLE_EN`, RW, reset 0x0. -/
abbrev PMC_CNT_SEL_SAMPLE_EN (c : Nat) : Fld := ⟨(PMC_CNT_SEL c), 27, 1⟩

/-- `PMC_CNTc_SEL.CORE`, RW, reset 0x0. -/
abbrev PMC_CNT_SEL_CORE (c : Nat) : Fld := ⟨(PMC_CNT_SEL c), 28, 4⟩

/-- `PMC_CNTc_LO` (R398). -/
abbrev PMC_CNT_LO (c : Nat) : Nat := 0x70104 + 0x10 * c

/-- `PMC_CNTc_LO.COUNT`, RW, reset 0x0000_0000. -/
abbrev PMC_CNT_LO_COUNT (c : Nat) : Fld := ⟨(PMC_CNT_LO c), 0, 32⟩

/-- `PMC_CNTc_HI` (R398). -/
abbrev PMC_CNT_HI (c : Nat) : Nat := 0x70108 + 0x10 * c

/-- `PMC_CNTc_HI.COUNT`, RW, reset 0x0000. -/
abbrev PMC_CNT_HI_COUNT (c : Nat) : Fld := ⟨(PMC_CNT_HI c), 0, 16⟩

/-- `PMC_BWp` (R398). -/
abbrev PMC_BW (p : Nat) : Nat := 0x70500 + 0x4 * p

/-- `PMC_BWp.UNITS`, RO, reset 0x0000_0000. -/
abbrev PMC_BW_UNITS (p : Nat) : Fld := ⟨(PMC_BW p), 0, 32⟩

/-- `MGT_CTRL` (R399). -/
abbrev MGT_CTRL : Nat := 0x200000

/-- `MGT_CTRL.SMB_EN`, RW, reset 0x1. -/
abbrev MGT_CTRL_SMB_EN : Fld := ⟨MGT_CTRL, 0, 1⟩

/-- `MGT_CTRL.PMB_EN`, RW, reset 0x0. -/
abbrev MGT_CTRL_PMB_EN : Fld := ⟨MGT_CTRL, 1, 1⟩

/-- `MGT_CTRL.PMB_FAST`, RW, reset 0x0. -/
abbrev MGT_CTRL_PMB_FAST : Fld := ⟨MGT_CTRL, 2, 1⟩

/-- `MGT_STATUS` (R399). -/
abbrev MGT_STATUS : Nat := 0x200004

/-- `MGT_STATUS.MISMATCH`, W1C, reset 0x0. -/
abbrev MGT_STATUS_MISMATCH : Fld := ⟨MGT_STATUS, 0, 1⟩

/-- `MGT_STATUS.PMB_ERR`, W1C, reset 0x0. -/
abbrev MGT_STATUS_PMB_ERR : Fld := ⟨MGT_STATUS, 1, 1⟩

/-- `MGT_STATUS.SMB_ERR`, W1C, reset 0x0. -/
abbrev MGT_STATUS_SMB_ERR : Fld := ⟨MGT_STATUS, 2, 1⟩

/-- `MGT_STATUS.FIRST`, RO, reset 0x0. -/
abbrev MGT_STATUS_FIRST : Fld := ⟨MGT_STATUS, 16, 4⟩

/-- `MGT_STATUS.OVF`, W1C, reset 0x0. -/
abbrev MGT_STATUS_OVF : Fld := ⟨MGT_STATUS, 20, 1⟩

/-- `MGT_IRQ_EN` (R399). -/
abbrev MGT_IRQ_EN : Nat := 0x200008

/-- `MGT_IRQ_EN.EN`, RW, reset 0x0. -/
abbrev MGT_IRQ_EN_EN : Fld := ⟨MGT_IRQ_EN, 0, 3⟩

/-- `MGT_SMB_CFG` (R399). -/
abbrev MGT_SMB_CFG : Nat := 0x20000c

/-- `MGT_SMB_CFG.ADDR`, RW, reset OTP. -/
abbrev MGT_SMB_CFG_ADDR : Fld := ⟨MGT_SMB_CFG, 0, 7⟩

/-- `MGT_SMB_CFG.PEC_REQ`, RW, reset 0x0. -/
abbrev MGT_SMB_CFG_PEC_REQ : Fld := ⟨MGT_SMB_CFG, 7, 1⟩

/-- `MGT_MISMATCH_INFO` (R399). -/
abbrev MGT_MISMATCH_INFO : Nat := 0x200010

/-- `MGT_MISMATCH_INFO.RAIL`, RO, reset 0x00. -/
abbrev MGT_MISMATCH_INFO_RAIL : Fld := ⟨MGT_MISMATCH_INFO, 0, 5⟩

/-- `MGT_MISMATCH_INFO.KIND`, RO, reset 0x0. -/
abbrev MGT_MISMATCH_INFO_KIND : Fld := ⟨MGT_MISMATCH_INFO, 8, 2⟩

/-- `MGT_ALIVE` (R399). -/
abbrev MGT_ALIVE : Nat := 0x200014

/-- `MGT_ALIVE.LEVEL`, RO, reset 0x0. -/
abbrev MGT_ALIVE_LEVEL : Fld := ⟨MGT_ALIVE, 0, 1⟩

/-- `MGT_ALIVE.RUN`, RO, reset 0x0. -/
abbrev MGT_ALIVE_RUN : Fld := ⟨MGT_ALIVE, 1, 1⟩

/-- `MGT_ALIVE.BLOCK`, RO, reset 0x00. -/
abbrev MGT_ALIVE_BLOCK : Fld := ⟨MGT_ALIVE, 2, 6⟩

/-- `MGT_UART_CFG` (R399). -/
abbrev MGT_UART_CFG : Nat := 0x200018

/-- `MGT_UART_CFG.DIV`, RW, reset 0x0088. -/
abbrev MGT_UART_CFG_DIV : Fld := ⟨MGT_UART_CFG, 0, 16⟩

/-- `MGT_UART_CFG.UART_HW`, RW, reset 0x0. -/
abbrev MGT_UART_CFG_UART_HW : Fld := ⟨MGT_UART_CFG, 16, 1⟩

/-- `MGT_UART_DATA` (R399). -/
abbrev MGT_UART_DATA : Nat := 0x20001c

/-- `MGT_UART_DATA.DATA`, RW, reset 0x00. -/
abbrev MGT_UART_DATA_DATA : Fld := ⟨MGT_UART_DATA, 0, 8⟩

/-- `MGT_UART_DATA.RX_VALID`, RO, reset 0x0. -/
abbrev MGT_UART_DATA_RX_VALID : Fld := ⟨MGT_UART_DATA, 8, 1⟩

/-- `MGT_UART_DATA.TX_FULL`, RO, reset 0x0. -/
abbrev MGT_UART_DATA_TX_FULL : Fld := ⟨MGT_UART_DATA, 9, 1⟩

/-- `MGT_SEVb` (R399). -/
abbrev MGT_SEV (b : Nat) : Nat := 0x200040 + 0x4 * b

/-- `MGT_SEVb.SEV`, RW, reset 0x0. -/
abbrev MGT_SEV_SEV (b : Nat) : Fld := ⟨(MGT_SEV b), 0, 32⟩

/-- `MGT_PMB_MAPr` (R399). -/
abbrev MGT_PMB_MAP (r : Nat) : Nat := 0x200100 + 0x4 * r

/-- `MGT_PMB_MAPr.ADDR`, RW, reset 0x00. -/
abbrev MGT_PMB_MAP_ADDR (r : Nat) : Fld := ⟨(MGT_PMB_MAP r), 0, 7⟩

/-- `MGT_PMB_MAPr.PAGE`, RW, reset 0x00. -/
abbrev MGT_PMB_MAP_PAGE (r : Nat) : Fld := ⟨(MGT_PMB_MAP r), 8, 8⟩

/-- `MGT_PMB_MAPr.EN`, RW, reset 0x0. -/
abbrev MGT_PMB_MAP_EN (r : Nat) : Fld := ⟨(MGT_PMB_MAP r), 31, 1⟩

/-- `MGT_PMB_Rr_VI` (R399). -/
abbrev MGT_PMB_R_VI (r : Nat) : Nat := 0x200200 + 0x8 * r

/-- `MGT_PMB_Rr_VI.VOUT`, RO, reset 0x0000. -/
abbrev MGT_PMB_R_VI_VOUT (r : Nat) : Fld := ⟨(MGT_PMB_R_VI r), 0, 16⟩

/-- `MGT_PMB_Rr_VI.IOUT`, RO, reset 0x0000. -/
abbrev MGT_PMB_R_VI_IOUT (r : Nat) : Fld := ⟨(MGT_PMB_R_VI r), 16, 16⟩

/-- `MGT_PMB_Rr_ST` (R399). -/
abbrev MGT_PMB_R_ST (r : Nat) : Nat := 0x200204 + 0x8 * r

/-- `MGT_PMB_Rr_ST.STATUS`, RO, reset 0x0000. -/
abbrev MGT_PMB_R_ST_STATUS (r : Nat) : Fld := ⟨(MGT_PMB_R_ST r), 0, 16⟩

/-- `MGT_PMB_Rr_ST.OPERATION`, RO, reset 0x00. -/
abbrev MGT_PMB_R_ST_OPERATION (r : Nat) : Fld := ⟨(MGT_PMB_R_ST r), 16, 8⟩

/-- `MGT_PMB_Rr_ST.VALID`, RO, reset 0x0. -/
abbrev MGT_PMB_R_ST_VALID (r : Nat) : Fld := ⟨(MGT_PMB_R_ST r), 31, 1⟩

/-- `MGT_MIRRORw` (R399). -/
abbrev MGT_MIRROR (w : Nat) : Nat := 0x200400 + 0x4 * w

/-- `MGT_MIRRORw.DATA`, RO, reset 0x0000_0000. -/
abbrev MGT_MIRROR_DATA (w : Nat) : Fld := ⟨(MGT_MIRROR w), 0, 32⟩

end Reg

end Sys2Proof.Machine
end

