-- ==== Sys2Proof/Machine/RegTable.lean ====
section
/-! DEFINITION. The register table: one row per register of the spec's register tables, with what a write may set (RW), what a
written 1 clears (W1C) and the reset word (R11, R12). Bits in neither mask are RO, WO or RSV: a write leaves the stored bit as it
is (R11); a WO or RSV bit is never stored, so it reads 0. -/

namespace Sys2Proof.Machine

/-- One register of the spec's tables. It stands at `base + i * s1 + j * s2 + l * s3` for `i < n1`, `j < n2`, `l < n3`; its reset
word is `reset`, plus `step` times the last index (only the identity map of R192 has a step). -/
structure RegRow where
  base : Nat
  n1 : Nat
  s1 : Nat
  n2 : Nat
  s2 : Nat
  n3 : Nat
  s3 : Nat
  rw : Nat
  w1c : Nat
  reset : Nat
  step : Nat
  deriving DecidableEq, Repr

/-- Registers of block 0 (R18). -/
def rowsOf0 : List RegRow :=
  [⟨0x0, 1, 0x400000, 1, 0x400000, 1, 0x400000, 0x0, 0x0, 0x8064a000, 0x0⟩ /- SYS_ID -/,
   ⟨0x4, 1, 0x400000, 1, 0x400000, 1, 0x400000, 0x0, 0x0, 0x1, 0x0⟩ /- SYS_STATE -/,
   ⟨0x8, 1, 0x400000, 1, 0x400000, 1, 0x400000, 0x0, 0x0, 0x0, 0x0⟩ /- SYS_STATE_REQ -/,
   ⟨0xc, 1, 0x400000, 1, 0x400000, 1, 0x400000, 0x0, 0x10000f, 0x0, 0x0⟩ /- SYS_STATUS -/,
   ⟨0x10, 1, 0x400000, 1, 0x400000, 1, 0x400000, 0xf, 0x0, 0x0, 0x0⟩ /- SYS_IRQ_EN -/,
   ⟨0x14, 1, 0x400000, 1, 0x400000, 1, 0x400000, 0x0, 0x0, 0x0, 0x0⟩ /- SYS_RESET -/,
   ⟨0x18, 1, 0x400000, 1, 0x400000, 1, 0x400000, 0xfff, 0x0, 0x0, 0x0⟩ /- SYS_CORE_RUN -/,
   ⟨0x1c, 1, 0x400000, 1, 0x400000, 1, 0x400000, 0x0, 0x0, 0x0, 0x0⟩ /- SYS_REFUSE -/,
   ⟨0x20, 1, 0x400000, 1, 0x400000, 1, 0x400000, 0x0, 0x0, 0x0, 0x0⟩ /- SYS_DOORBELL -/,
   ⟨0x24, 1, 0x400000, 1, 0x400000, 1, 0x400000, 0x1, 0x0, 0x0, 0x0⟩ /- SYS_AON_CFG -/,
   ⟨0x28, 1, 0x400000, 1, 0x400000, 1, 0x400000, 0x0, 0x1f, 0x1, 0x0⟩ /- SYS_RESET_CAUSE -/,
   ⟨0x2c, 1, 0x400000, 1, 0x400000, 1, 0x400000, 0x0, 0x0, 0x0, 0x0⟩ /- SYS_DECODE_INFO -/,
   ⟨0x30, 1, 0x400000, 1, 0x400000, 1, 0x400000, 0x1, 0x0, 0x0, 0x0⟩ /- SYS_BOOT_MAP -/]

/-- Registers of block 1 (R18). -/
def rowsOf1 : List RegRow :=
  [⟨0x10000, 1, 0x400000, 1, 0x400000, 1, 0x400000, 0x0, 0x0, 0x0, 0x0⟩ /- TIM_NOW_LO -/,
   ⟨0x10004, 1, 0x400000, 1, 0x400000, 1, 0x400000, 0x0, 0x0, 0x0, 0x0⟩ /- TIM_NOW_HI -/,
   ⟨0x10008, 1, 0x400000, 1, 0x400000, 1, 0x400000, 0xffff0003, 0x0, 0x0, 0x0⟩ /- TIM_SLEW -/,
   ⟨0x1000c, 1, 0x400000, 1, 0x400000, 1, 0x400000, 0xffffffff, 0x0, 0x0, 0x0⟩ /- TIM_STEP_LO -/,
   ⟨0x10010, 1, 0x400000, 1, 0x400000, 1, 0x400000, 0x0, 0x0, 0x0, 0x0⟩ /- TIM_STEP_HI -/,
   ⟨0x10014, 1, 0x400000, 1, 0x400000, 1, 0x400000, 0xffffffff, 0x0, 0x0, 0x0⟩ /- TIM_ALARM_LO -/,
   ⟨0x10018, 1, 0x400000, 1, 0x400000, 1, 0x400000, 0xffffffff, 0x0, 0x0, 0x0⟩ /- TIM_ALARM_HI -/,
   ⟨0x1001c, 1, 0x400000, 1, 0x400000, 1, 0x400000, 0x3, 0x0, 0x0, 0x0⟩ /- TIM_CTRL -/,
   ⟨0x10020, 1, 0x400000, 1, 0x400000, 1, 0x400000, 0x0, 0x100003, 0x0, 0x0⟩ /- TIM_STATUS -/,
   ⟨0x10024, 1, 0x400000, 1, 0x400000, 1, 0x400000, 0x3, 0x0, 0x0, 0x0⟩ /- TIM_IRQ_EN -/]

/-- Registers of block 2 (R18). -/
def rowsOf2 : List RegRow :=
  [⟨0x20000, 1, 0x400000, 1, 0x400000, 1, 0x400000, 0x0, 0x0, 0x0, 0x0⟩ /- CLK_CTRL -/,
   ⟨0x20004, 1, 0x400000, 1, 0x400000, 1, 0x400000, 0x0, 0x100003, 0x0, 0x0⟩ /- CLK_STATUS -/,
   ⟨0x20008, 1, 0x400000, 1, 0x400000, 1, 0x400000, 0x3, 0x0, 0x0, 0x0⟩ /- CLK_IRQ_EN -/,
   ⟨0x2000c, 1, 0x400000, 1, 0x400000, 1, 0x400000, 0x0, 0x0, 0x0, 0x0⟩ /- CLK_PLL -/,
   ⟨0x20010, 1, 0x400000, 1, 0x400000, 4, 0x4, 0x1ffff, 0x0, 0x3c, 0x0⟩ /- CLK_OUTj_CFG -/,
   ⟨0x20020, 1, 0x400000, 1, 0x400000, 4, 0x4, 0x0, 0x0, 0x3c, 0x0⟩ /- CLK_OUTj_LIVE -/,
   ⟨0x20100, 1, 0x400000, 1, 0x400000, 1, 0x400000, 0x0, 0x3, 0x0, 0x0⟩ /- CLK_AON_STATUS -/]

/-- Registers of block 3 (R18). -/
def rowsOf3 : List RegRow :=
  [⟨0x30000, 1, 0x400000, 1, 0x400000, 1, 0x400000, 0x1, 0x0, 0x0, 0x0⟩ /- PWR_CTRL -/,
   ⟨0x30004, 1, 0x400000, 1, 0x400000, 1, 0x400000, 0x0, 0x10003f, 0x0, 0x0⟩ /- PWR_STATUS -/,
   ⟨0x30008, 1, 0x400000, 1, 0x400000, 1, 0x400000, 0x3f, 0x0, 0x0, 0x0⟩ /- PWR_IRQ_EN -/,
   ⟨0x3000c, 1, 0x400000, 1, 0x400000, 1, 0x400000, 0x0, 0x0, 0x0, 0x0⟩ /- PWR_FIRST_SOURCE -/,
   ⟨0x30010, 1, 0x400000, 1, 0x400000, 1, 0x400000, 0x0, 0x0, 0x0, 0x0⟩ /- PWR_GOOD -/,
   ⟨0x30014, 1, 0x400000, 1, 0x400000, 1, 0x400000, 0x0, 0x0, 0x0, 0x0⟩ /- PWR_EN_STATE -/,
   ⟨0x30018, 1, 0x400000, 1, 0x400000, 1, 0x400000, 0x0, 0x0, 0x0, 0x0⟩ /- PWR_OFF_FAULT -/,
   ⟨0x3001c, 1, 0x400000, 1, 0x400000, 1, 0x400000, 0x0, 0x0, 0x0, 0x0⟩ /- PWR_SEQ_STATE -/,
   ⟨0x30024, 1, 0x400000, 1, 0x400000, 1, 0x400000, 0x0, 0x0, 0x0, 0x0⟩ /- PWR_SNAP_TIME_LO -/,
   ⟨0x30028, 1, 0x400000, 1, 0x400000, 1, 0x400000, 0x0, 0x0, 0x0, 0x0⟩ /- PWR_SNAP_TIME_HI -/,
   ⟨0x3002c, 1, 0x400000, 1, 0x400000, 1, 0x400000, 0x0, 0x0, 0x0, 0x0⟩ /- PWR_SNAP_INFO -/,
   ⟨0x30030, 1, 0x400000, 1, 0x400000, 1, 0x400000, 0x9f9f9f9f, 0x0, 0x0, 0x0⟩ /- PWR_LDRAIL0 -/,
   ⟨0x30034, 1, 0x400000, 1, 0x400000, 1, 0x400000, 0x9f9f9f9f, 0x0, 0x0, 0x0⟩ /- PWR_LDRAIL1 -/,
   ⟨0x30040, 1, 0x400000, 1, 0x400000, 32, 0x4, 0xffffff9f, 0x0, 0x0, 0x0⟩ /- PWR_SEQs -/,
   ⟨0x30100, 1, 0x400000, 1, 0x400000, 32, 0x10, 0xffffff, 0x0, 0x0, 0x0⟩ /- PWR_Rr_CFG -/,
   ⟨0x30104, 1, 0x400000, 1, 0x400000, 32, 0x10, 0xfff0fff, 0x0, 0xfff0000, 0x0⟩ /- PWR_Rr_SCAN -/,
   ⟨0x30108, 1, 0x400000, 1, 0x400000, 32, 0x10, 0x3fffffff, 0x0, 0x0, 0x0⟩ /- PWR_Rr_CMP -/,
   ⟨0x3010c, 1, 0x400000, 1, 0x400000, 32, 0x10, 0x0, 0x0, 0x0, 0x0⟩ /- PWR_Rr_CMD -/,
   ⟨0x30300, 1, 0x400000, 1, 0x400000, 32, 0x4, 0x0, 0x0, 0x0, 0x0⟩ /- PWR_Rr_CNT_FAULT -/,
   ⟨0x30400, 1, 0x400000, 1, 0x400000, 32, 0x4, 0x0, 0x0, 0x0, 0x0⟩ /- PWR_SNAPr -/]

/-- Registers of block 4 (R18). -/
def rowsOf4 : List RegRow :=
  [⟨0x40000, 1, 0x400000, 1, 0x400000, 1, 0x400000, 0x5, 0x0, 0x5, 0x0⟩ /- THM_CTRL -/,
   ⟨0x40004, 1, 0x400000, 1, 0x400000, 1, 0x400000, 0x0, 0x10001f, 0x0, 0x0⟩ /- THM_STATUS -/,
   ⟨0x40008, 1, 0x400000, 1, 0x400000, 1, 0x400000, 0x1f, 0x0, 0x0, 0x0⟩ /- THM_IRQ_EN -/,
   ⟨0x4000c, 1, 0x400000, 1, 0x400000, 1, 0x400000, 0x0, 0x0, 0xf0000000, 0x0⟩ /- THM_STATE -/,
   ⟨0x40010, 1, 0x400000, 1, 0x400000, 1, 0x400000, 0xffffff, 0x0, 0x80003c, 0x0⟩ /- THM_THROT -/,
   ⟨0x40014, 1, 0x400000, 1, 0x400000, 1, 0x400000, 0xffff, 0x0, 0x0, 0x0⟩ /- THM_PMEAS -/,
   ⟨0x40018, 1, 0x400000, 1, 0x400000, 1, 0x400000, 0x0, 0x0, 0x4000, 0x0⟩ /- THM_SCALE -/,
   ⟨0x4001c, 1, 0x400000, 1, 0x400000, 1, 0x400000, 0x0, 0x0, 0xf000, 0x0⟩ /- THM_PKG -/,
   ⟨0x40020, 1, 0x400000, 1, 0x400000, 1, 0x400000, 0x0, 0x0, 0x0, 0x0⟩ /- THM_BOARD -/,
   ⟨0x40024, 1, 0x400000, 1, 0x400000, 1, 0x400000, 0x0, 0x0, 0x0, 0x0⟩ /- THM_DIODE -/,
   ⟨0x40028, 1, 0x400000, 1, 0x400000, 1, 0x400000, 0x0, 0x0, 0x0, 0x0⟩ /- THM_CNT_THROTTLE -/,
   ⟨0x4002c, 1, 0x400000, 1, 0x400000, 1, 0x400000, 0x0, 0x0, 0x0, 0x0⟩ /- THM_TIME_THROTTLE -/,
   ⟨0x40100, 1, 0x400000, 1, 0x400000, 16, 0x4, 0x0, 0x0, 0xf000, 0x0⟩ /- THM_Zz -/]

/-- Registers of block 5 (R18). -/
def rowsOf5 : List RegRow :=
  [⟨0x50000, 1, 0x400000, 1, 0x400000, 1, 0x400000, 0x3, 0x0, 0x0, 0x0⟩ /- CAL_CTRL -/,
   ⟨0x50004, 1, 0x400000, 1, 0x400000, 1, 0x400000, 0x0, 0x10000f, 0x0, 0x0⟩ /- CAL_STATUS -/,
   ⟨0x50008, 1, 0x400000, 1, 0x400000, 1, 0x400000, 0xf, 0x0, 0x0, 0x0⟩ /- CAL_IRQ_EN -/,
   ⟨0x5000c, 1, 0x400000, 1, 0x400000, 1, 0x400000, 0x0, 0x0, 0x0, 0x0⟩ /- CAL_APPLY_COUNT -/,
   ⟨0x50010, 1, 0x400000, 1, 0x400000, 1, 0x400000, 0x3f7e, 0x0, 0x0, 0x0⟩ /- CAL_CHECK_CTRL -/,
   ⟨0x50014, 1, 0x400000, 1, 0x400000, 1, 0x400000, 0xffffffff, 0x0, 0x0, 0x0⟩ /- CAL_CHECK_A -/,
   ⟨0x50018, 1, 0x400000, 1, 0x400000, 1, 0x400000, 0xffffffff, 0x0, 0x0, 0x0⟩ /- CAL_CHECK_B -/,
   ⟨0x5001c, 1, 0x400000, 1, 0x400000, 1, 0x400000, 0xffffffff, 0x0, 0x0, 0x0⟩ /- CAL_CHECK_VALUE -/,
   ⟨0x50020, 1, 0x400000, 1, 0x400000, 1, 0x400000, 0xffff, 0x0, 0x0, 0x0⟩ /- CAL_CHECK_TOL -/,
   ⟨0x50024, 1, 0x400000, 1, 0x400000, 1, 0x400000, 0x0, 0x0, 0x0, 0x0⟩ /- CAL_CHECK_STATUS -/,
   ⟨0x50028, 1, 0x400000, 1, 0x400000, 1, 0x400000, 0x0, 0x0, 0x0, 0x0⟩ /- CAL_CNT_ACCEPT -/,
   ⟨0x5002c, 1, 0x400000, 1, 0x400000, 1, 0x400000, 0x0, 0x0, 0x0, 0x0⟩ /- CAL_CNT_REJECT -/,
   ⟨0x50030, 1, 0x400000, 1, 0x400000, 1, 0x400000, 0x0, 0x0, 0x0, 0x0⟩ /- CAL_SWITCH_ERR -/,
   ⟨0x50200, 1, 0x400000, 1, 0x400000, 64, 0x4, 0x0, 0x0, 0x0, 0x0⟩ /- CAL_En_APPLIED -/,
   ⟨0x51000, 1, 0x400000, 2, 0x800, 64, 0x20, 0xdf3fffff, 0x0, 0x10000000, 0x0⟩ /- CAL_Bb_En_TARGET -/,
   ⟨0x51004, 1, 0x400000, 2, 0x800, 64, 0x20, 0x1f1f, 0x0, 0x1f00, 0x0⟩ /- CAL_Bb_En_FIELD -/,
   ⟨0x51008, 2, 0x800, 64, 0x20, 5, 0x4, 0xffffffff, 0x0, 0x0, 0x0⟩ /- CAL_Bb_En_Pp -/]

/-- Registers of block 6 (R18). -/
def rowsOf6 : List RegRow :=
  [⟨0x60000, 1, 0x400000, 1, 0x400000, 1, 0x400000, 0x3, 0x0, 0x0, 0x0⟩ /- VSP_CTRL -/,
   ⟨0x60004, 1, 0x400000, 1, 0x400000, 1, 0x400000, 0x0, 0x100007, 0x0, 0x0⟩ /- VSP_STATUS -/,
   ⟨0x60008, 1, 0x400000, 1, 0x400000, 1, 0x400000, 0x7, 0x0, 0x0, 0x0⟩ /- VSP_IRQ_EN -/,
   ⟨0x6000c, 1, 0x400000, 1, 0x400000, 1, 0x400000, 0xffffffff, 0x0, 0x0, 0x0⟩ /- VSP_BASE_A -/,
   ⟨0x60010, 1, 0x400000, 1, 0x400000, 1, 0x400000, 0xffffffff, 0x0, 0x0, 0x0⟩ /- VSP_BASE_B -/,
   ⟨0x60014, 1, 0x400000, 1, 0x400000, 1, 0x400000, 0x0, 0x0, 0x0, 0x0⟩ /- VSP_NEXT -/,
   ⟨0x60018, 1, 0x400000, 1, 0x400000, 1, 0x400000, 0x0, 0x0, 0x0, 0x0⟩ /- VSP_SECONDS -/,
   ⟨0x6001c, 1, 0x400000, 1, 0x400000, 1, 0x400000, 0x0, 0x0, 0x0, 0x0⟩ /- VSP_BOOT -/,
   ⟨0x60020, 1, 0x400000, 1, 0x400000, 1, 0x400000, 0xffffffff, 0x0, 0x0, 0x0⟩ /- VSP_DRING_LO -/,
   ⟨0x60024, 1, 0x400000, 1, 0x400000, 1, 0x400000, 0xff, 0x0, 0x0, 0x0⟩ /- VSP_DRING_HI -/,
   ⟨0x60028, 1, 0x400000, 1, 0x400000, 1, 0x400000, 0x1fff, 0x0, 0x1000, 0x0⟩ /- VSP_DRING_CFG -/,
   ⟨0x6002c, 1, 0x400000, 1, 0x400000, 1, 0x400000, 0x0, 0x0, 0x0, 0x0⟩ /- VSP_DRING_USED -/,
   ⟨0x60030, 1, 0x400000, 1, 0x400000, 1, 0x400000, 0x0, 0x0, 0x0, 0x0⟩ /- VSP_LOST -/,
   ⟨0x60040, 1, 0x400000, 1, 0x400000, 1, 0x400000, 0xffff, 0x0, 0x0, 0x0⟩ /- VSP_RAISE_CODE -/,
   ⟨0x60044, 1, 0x400000, 1, 0x400000, 4, 0x4, 0xffffffff, 0x0, 0x0, 0x0⟩ /- VSP_RAISE_Pi -/,
   ⟨0x60060, 1, 0x400000, 1, 0x400000, 1, 0x400000, 0xffff, 0x0, 0x0, 0x0⟩ /- VSP_READ_IDX -/,
   ⟨0x60064, 1, 0x400000, 1, 0x400000, 1, 0x400000, 0x0, 0x0, 0x0, 0x0⟩ /- VSP_READ_STATUS -/,
   ⟨0x60080, 1, 0x400000, 1, 0x400000, 8, 0x4, 0x0, 0x0, 0x0, 0x0⟩ /- VSP_READ_Ww -/]

/-- Registers of block 7 (R18). -/
def rowsOf7 : List RegRow :=
  [⟨0x70000, 1, 0x400000, 1, 0x400000, 1, 0x400000, 0x3, 0x0, 0x0, 0x0⟩ /- PMC_CTRL -/,
   ⟨0x70004, 1, 0x400000, 1, 0x400000, 1, 0x400000, 0x0, 0x100007, 0x0, 0x0⟩ /- PMC_STATUS -/,
   ⟨0x70008, 1, 0x400000, 1, 0x400000, 1, 0x400000, 0x7, 0x0, 0x0, 0x0⟩ /- PMC_IRQ_EN -/,
   ⟨0x7000c, 1, 0x400000, 1, 0x400000, 1, 0x400000, 0xfff, 0x0, 0x0, 0x0⟩ /- PMC_PERM -/,
   ⟨0x70010, 1, 0x400000, 1, 0x400000, 1, 0x400000, 0x0, 0xffffffff, 0x0, 0x0⟩ /- PMC_WRAP_LO -/,
   ⟨0x70014, 1, 0x400000, 1, 0x400000, 1, 0x400000, 0x0, 0xffffffff, 0x0, 0x0⟩ /- PMC_WRAP_HI -/,
   ⟨0x70018, 1, 0x400000, 1, 0x400000, 1, 0x400000, 0xffffffff, 0x0, 0x0, 0x0⟩ /- PMC_DUMP_LO -/,
   ⟨0x7001c, 1, 0x400000, 1, 0x400000, 1, 0x400000, 0xff, 0x0, 0x0, 0x0⟩ /- PMC_DUMP_HI -/,
   ⟨0x70020, 1, 0x400000, 1, 0x400000, 1, 0x400000, 0xffffffff, 0x0, 0x0, 0x0⟩ /- PMC_DUMP_CFG -/,
   ⟨0x70024, 1, 0x400000, 1, 0x400000, 1, 0x400000, 0x0, 0x0, 0x0, 0x0⟩ /- PMC_DUMP_SEQ -/,
   ⟨0x70028, 1, 0x400000, 1, 0x400000, 1, 0x400000, 0xffff, 0x0, 0x3e8, 0x0⟩ /- PMC_BW_CFG -/,
   ⟨0x70100, 1, 0x400000, 1, 0x400000, 64, 0x10, 0xfbffffff, 0x0, 0x0, 0x0⟩ /- PMC_CNTc_SEL -/,
   ⟨0x70104, 1, 0x400000, 1, 0x400000, 64, 0x10, 0xffffffff, 0x0, 0x0, 0x0⟩ /- PMC_CNTc_LO -/,
   ⟨0x70108, 1, 0x400000, 1, 0x400000, 64, 0x10, 0xffff, 0x0, 0x0, 0x0⟩ /- PMC_CNTc_HI -/,
   ⟨0x70500, 1, 0x400000, 1, 0x400000, 25, 0x4, 0x0, 0x0, 0x0, 0x0⟩ /- PMC_BWp -/]

/-- Registers of block 8 (R18). -/
def rowsOf8 : List RegRow :=
  [⟨0x80000, 1, 0x400000, 1, 0x400000, 1, 0x400000, 0x0, 0x10ffff, 0x0, 0x0⟩ /- DMA_STATUS -/,
   ⟨0x80004, 1, 0x400000, 1, 0x400000, 1, 0x400000, 0xffff, 0x0, 0x0, 0x0⟩ /- DMA_IRQ_EN -/,
   ⟨0x80008, 1, 0x400000, 1, 0x400000, 1, 0x400000, 0x0, 0xffff, 0x0, 0x0⟩ /- DMA_DONE -/,
   ⟨0x8000c, 1, 0x400000, 1, 0x400000, 1, 0x400000, 0xffff, 0x0, 0x0, 0x0⟩ /- DMA_DONE_IRQ_EN -/,
   ⟨0x80010, 1, 0x400000, 1, 0x400000, 1, 0x400000, 0x0, 0x0, 0x0, 0x0⟩ /- DMA_BUSY -/,
   ⟨0x80100, 1, 0x400000, 1, 0x400000, 16, 0x40, 0xfc, 0x0, 0x0, 0x0⟩ /- DMA_Dn_CTRL -/,
   ⟨0x80104, 1, 0x400000, 1, 0x400000, 16, 0x40, 0x0, 0x0, 0x0, 0x0⟩ /- DMA_Dn_STATUS -/,
   ⟨0x80108, 1, 0x400000, 1, 0x400000, 16, 0x40, 0xffffffff, 0x0, 0x0, 0x0⟩ /- DMA_Dn_SRC_LO -/,
   ⟨0x8010c, 1, 0x400000, 1, 0x400000, 16, 0x40, 0xffffffff, 0x0, 0x0, 0x0⟩ /- DMA_Dn_SRC_HI -/,
   ⟨0x80110, 1, 0x400000, 1, 0x400000, 16, 0x40, 0xffffffff, 0x0, 0x0, 0x0⟩ /- DMA_Dn_DST_LO -/,
   ⟨0x80114, 1, 0x400000, 1, 0x400000, 16, 0x40, 0xffffffff, 0x0, 0x0, 0x0⟩ /- DMA_Dn_DST_HI -/,
   ⟨0x80118, 1, 0x400000, 1, 0x400000, 16, 0x40, 0xffffffff, 0x0, 0x0, 0x0⟩ /- DMA_Dn_LEN -/,
   ⟨0x8011c, 1, 0x400000, 1, 0x400000, 16, 0x40, 0xffffffff, 0x0, 0x0, 0x0⟩ /- DMA_Dn_FILL_LO -/,
   ⟨0x80120, 1, 0x400000, 1, 0x400000, 16, 0x40, 0xffffffff, 0x0, 0x0, 0x0⟩ /- DMA_Dn_FILL_HI -/,
   ⟨0x80124, 1, 0x400000, 1, 0x400000, 16, 0x40, 0x0, 0x0, 0x0, 0x0⟩ /- DMA_Dn_DONE_BYTES -/,
   ⟨0x80128, 1, 0x400000, 1, 0x400000, 16, 0x40, 0x0, 0x0, 0x0, 0x0⟩ /- DMA_Dn_ERR_ADDR_LO -/,
   ⟨0x8012c, 1, 0x400000, 1, 0x400000, 16, 0x40, 0x0, 0x0, 0x0, 0x0⟩ /- DMA_Dn_ERR_ADDR_HI -/,
   ⟨0x80130, 1, 0x400000, 1, 0x400000, 16, 0x40, 0x0, 0x0, 0x0, 0x0⟩ /- DMA_Dn_MM_OFS -/,
   ⟨0x80134, 1, 0x400000, 1, 0x400000, 16, 0x40, 0x0, 0x0, 0x0, 0x0⟩ /- DMA_Dn_MM_COUNT -/]

/-- Registers of block 9 (R18). -/
def rowsOf9 : List RegRow :=
  [⟨0x90000, 1, 0x400000, 1, 0x400000, 1, 0x400000, 0x0, 0x0, 0x0, 0x0⟩ /- VALE_CTRL -/,
   ⟨0x90004, 1, 0x400000, 1, 0x400000, 1, 0x400000, 0x0, 0x10000f, 0x0, 0x0⟩ /- VALE_STATUS -/,
   ⟨0x90008, 1, 0x400000, 1, 0x400000, 1, 0x400000, 0xf, 0x0, 0x0, 0x0⟩ /- VALE_IRQ_EN -/,
   ⟨0x9000c, 1, 0x400000, 1, 0x400000, 1, 0x400000, 0x0, 0x0, 0x0, 0x0⟩ /- VALE_ERR_INFO -/,
   ⟨0x90010, 1, 0x400000, 1, 0x400000, 1, 0x400000, 0x0, 0x0, 0x0, 0x0⟩ /- VALE_CNT_CORR -/,
   ⟨0x90014, 1, 0x400000, 1, 0x400000, 1, 0x400000, 0x0, 0x0, 0x0, 0x0⟩ /- VALE_CNT_SPLIT -/,
   ⟨0x90100, 1, 0x400000, 1, 0x400000, 16, 0x4, 0x0, 0x0, 0x0, 0x0⟩ /- VALE_CONFLICTm -/]

/-- Registers of block 10 (R18). -/
def rowsOf10 : List RegRow :=
  [⟨0xa0000, 1, 0x400000, 1, 0x400000, 1, 0x400000, 0x7, 0x0, 0x0, 0x0⟩ /- PSQ_CTRL -/,
   ⟨0xa0004, 1, 0x400000, 1, 0x400000, 1, 0x400000, 0x0, 0x1003ff, 0x0, 0x0⟩ /- PSQ_STATUS -/,
   ⟨0xa0008, 1, 0x400000, 1, 0x400000, 1, 0x400000, 0x3ff, 0x0, 0x0, 0x0⟩ /- PSQ_IRQ_EN -/,
   ⟨0xa000c, 1, 0x400000, 1, 0x400000, 1, 0x400000, 0xffffffff, 0x0, 0x789c40, 0x0⟩ /- PSQ_GAP_CFG -/,
   ⟨0xa0010, 1, 0x400000, 1, 0x400000, 1, 0x400000, 0xfff, 0x0, 0xbb8, 0x0⟩ /- PSQ_SPEED -/,
   ⟨0xa0014, 1, 0x400000, 1, 0x400000, 1, 0x400000, 0x0, 0x0, 0x1, 0x0⟩ /- PSQ_GAP_STATUS -/,
   ⟨0xa0018, 1, 0x400000, 1, 0x400000, 1, 0x400000, 0x0, 0x0, 0x0, 0x0⟩ /- PSQ_HOLD_STATUS -/,
   ⟨0xa001c, 1, 0x400000, 1, 0x400000, 1, 0x400000, 0x0, 0x0, 0x0, 0x0⟩ /- PSQ_HOLD_STALLS -/,
   ⟨0xa0020, 1, 0x400000, 1, 0x400000, 1, 0x400000, 0xffff0033, 0x0, 0xc80000, 0x0⟩ /- PSQ_PURGE_CFG -/,
   ⟨0xa0024, 1, 0x400000, 1, 0x400000, 1, 0x400000, 0xffffffff, 0x0, 0x0, 0x0⟩ /- PSQ_NEXT_SEQ -/,
   ⟨0xa0030, 1, 0x400000, 1, 0x400000, 1, 0x400000, 0x0, 0x0, 0x0, 0x0⟩ /- PSQ_CNT_COMMIT -/,
   ⟨0xa0034, 1, 0x400000, 1, 0x400000, 1, 0x400000, 0x0, 0x0, 0x0, 0x0⟩ /- PSQ_CNT_ABORT -/,
   ⟨0xa0038, 1, 0x400000, 1, 0x400000, 1, 0x400000, 0x0, 0x0, 0x0, 0x0⟩ /- PSQ_CNT_SPOIL -/,
   ⟨0xa003c, 1, 0x400000, 1, 0x400000, 1, 0x400000, 0x0, 0x0, 0x0, 0x0⟩ /- PSQ_CNT_WITHDRAW -/,
   ⟨0xa0040, 1, 0x400000, 1, 0x400000, 1, 0x400000, 0x0, 0x0, 0x0, 0x0⟩ /- PSQ_GAP_COUNT -/,
   ⟨0xa0044, 1, 0x400000, 1, 0x400000, 1, 0x400000, 0xffffff, 0x0, 0x0, 0x0⟩ /- PSQ_MOTION_BLD -/,
   ⟨0xa0048, 1, 0x400000, 1, 0x400000, 1, 0x400000, 0xffffffff, 0x0, 0x0, 0x0⟩ /- PSQ_MOTION_STP_LO -/,
   ⟨0xa004c, 1, 0x400000, 1, 0x400000, 1, 0x400000, 0xffff, 0x0, 0x0, 0x0⟩ /- PSQ_MOTION_STP_HI -/,
   ⟨0xa0200, 1, 0x400000, 8, 0x10, 4, 0x4, 0xffffffff, 0x0, 0x0, 0x0⟩ /- PSQ_LOOPMASKm_k -/,
   ⟨0xa1000, 1, 0x400000, 1, 0x400000, 64, 0x40, 0x800fffff, 0x0, 0x0, 0x0⟩ /- PSQ_SHn_CTRL -/,
   ⟨0xa1004, 1, 0x400000, 1, 0x400000, 64, 0x40, 0xffffffff, 0x0, 0x0, 0x0⟩ /- PSQ_SHn_COL_LO -/,
   ⟨0xa1008, 1, 0x400000, 1, 0x400000, 64, 0x40, 0xffffffff, 0x0, 0x0, 0x0⟩ /- PSQ_SHn_COL_HI -/,
   ⟨0xa100c, 1, 0x400000, 1, 0x400000, 64, 0x40, 0xffffffff, 0x0, 0x0, 0x0⟩ /- PSQ_SHn_EXP_OFS -/,
   ⟨0xa1010, 1, 0x400000, 1, 0x400000, 64, 0x40, 0xffffffff, 0x0, 0x0, 0x0⟩ /- PSQ_SHn_END_OFS -/,
   ⟨0xa1014, 1, 0x400000, 1, 0x400000, 64, 0x40, 0xffffffff, 0x0, 0x0, 0x0⟩ /- PSQ_SHn_EXIT_OFS -/,
   ⟨0xa1018, 1, 0x400000, 1, 0x400000, 64, 0x40, 0x3ff, 0x0, 0x0, 0x0⟩ /- PSQ_SHn_PEER -/,
   ⟨0xa101c, 1, 0x400000, 1, 0x400000, 64, 0x40, 0xffffffff, 0x0, 0x0, 0x0⟩ /- PSQ_SHn_PEER_SEQ -/,
   ⟨0xa1020, 1, 0x400000, 1, 0x400000, 64, 0x40, 0x0, 0x0, 0x0, 0x0⟩ /- PSQ_SHn_STATE -/,
   ⟨0xa1024, 1, 0x400000, 1, 0x400000, 64, 0x40, 0x0, 0x0, 0x0, 0x0⟩ /- PSQ_SHn_SEQ -/,
   ⟨0xa1028, 1, 0x400000, 1, 0x400000, 64, 0x40, 0x0, 0x0, 0x0, 0x0⟩ /- PSQ_SHn_SEEN -/]

/-- Registers of block 10 (R18), continued. -/
def rowsOf10x1 : List RegRow :=
  [⟨0xa102c, 1, 0x400000, 1, 0x400000, 64, 0x40, 0x0, 0x0, 0x0, 0x0⟩ /- PSQ_SHn_SEEN_FAB01 -/,
   ⟨0xa1030, 1, 0x400000, 1, 0x400000, 64, 0x40, 0x0, 0x0, 0x0, 0x0⟩ /- PSQ_SHn_SEEN_FAB23 -/,
   ⟨0xa4000, 1, 0x400000, 1, 0x400000, 256, 0x10, 0xffffffff, 0x0, 0x0, 0x0⟩ /- PSQ_PGn_ADDR_LO -/,
   ⟨0xa4004, 1, 0x400000, 1, 0x400000, 256, 0x10, 0x800fffff, 0x0, 0x0, 0x0⟩ /- PSQ_PGn_ADDR_HI -/,
   ⟨0xa4008, 1, 0x400000, 1, 0x400000, 256, 0x10, 0x0, 0x0, 0x0, 0x0⟩ /- PSQ_PGn_STATE -/,
   ⟨0xa400c, 1, 0x400000, 1, 0x400000, 256, 0x10, 0x0, 0x0, 0x0, 0x0⟩ /- PSQ_PGn_CHECK -/]

/-- Registers of block 11 (R18). -/
def rowsOf11 : List RegRow :=
  [⟨0xb8000, 1, 0x400000, 1, 0x400000, 1, 0x400000, 0xf, 0x0, 0x0, 0x0⟩ /- STR_PLN_CTRL -/,
   ⟨0xb8004, 1, 0x400000, 1, 0x400000, 1, 0x400000, 0x0, 0x0, 0x0, 0x0⟩ /- STR_PLN_ID -/,
   ⟨0xb8008, 1, 0x400000, 1, 0x400000, 1, 0x400000, 0xffffffff, 0x0, 0x0, 0x0⟩ /- STR_PLN_MAP_LO -/,
   ⟨0xb800c, 1, 0x400000, 1, 0x400000, 1, 0x400000, 0xff, 0x0, 0x0, 0x0⟩ /- STR_PLN_MAP_HI -/,
   ⟨0xb8010, 1, 0x400000, 1, 0x400000, 1, 0x400000, 0x1ffff, 0x0, 0x0, 0x0⟩ /- STR_PLN_FRAME_FIRST -/,
   ⟨0xb8014, 1, 0x400000, 1, 0x400000, 1, 0x400000, 0x3ffff, 0x0, 0x0, 0x0⟩ /- STR_PLN_FRAME_COUNT -/,
   ⟨0xb8018, 1, 0x400000, 1, 0x400000, 1, 0x400000, 0x0, 0x0, 0x0, 0x0⟩ /- STR_PLN_PINNED -/,
   ⟨0xb801c, 1, 0x400000, 1, 0x400000, 1, 0x400000, 0x3ffff, 0x0, 0x0, 0x0⟩ /- STR_PLN_RCACHE -/,
   ⟨0xb8020, 1, 0x400000, 1, 0x400000, 1, 0x400000, 0x0, 0x10007f, 0x0, 0x0⟩ /- STR_PLN_STATUS -/,
   ⟨0xb8024, 1, 0x400000, 1, 0x400000, 1, 0x400000, 0x7f, 0x0, 0x0, 0x0⟩ /- STR_PLN_IRQ_EN -/,
   ⟨0xb8028, 1, 0x400000, 1, 0x400000, 1, 0x400000, 0xff, 0x0, 0x0, 0x0⟩ /- STR_PLN_FENCE -/,
   ⟨0xb802c, 1, 0x400000, 1, 0x400000, 1, 0x400000, 0x0, 0x0, 0x0, 0x0⟩ /- STR_PLN_ADMIT_GO -/,
   ⟨0xb8030, 1, 0x400000, 1, 0x400000, 1, 0x400000, 0x0, 0x0, 0x31e, 0x0⟩ /- STR_PLN_ADMIT -/,
   ⟨0xb8034, 1, 0x400000, 1, 0x400000, 1, 0x400000, 0x0, 0x0, 0x0, 0x0⟩ /- STR_PLN_ADMIT_FAIL -/,
   ⟨0xb8038, 1, 0x400000, 1, 0x400000, 1, 0x400000, 0x0, 0x0, 0x0, 0x0⟩ /- STR_PLN_ADMIT_COUNT -/,
   ⟨0xb803c, 1, 0x400000, 1, 0x400000, 1, 0x400000, 0x0, 0x0, 0x0, 0x0⟩ /- STR_PLN_DIR_USED -/,
   ⟨0xb8040, 1, 0x400000, 1, 0x400000, 16, 0x4, 0x0, 0x0, 0x0, 0x0⟩ /- STR_PLN_ABSENT_DISCr -/,
   ⟨0xb8080, 1, 0x400000, 1, 0x400000, 1, 0x400000, 0x0, 0x0, 0x0, 0x0⟩ /- STR_PLN_CNT_IN_EVICT -/,
   ⟨0xb8084, 1, 0x400000, 1, 0x400000, 1, 0x400000, 0x0, 0x0, 0x0, 0x0⟩ /- STR_PLN_CNT_RECALL -/,
   ⟨0xb8088, 1, 0x400000, 1, 0x400000, 1, 0x400000, 0x0, 0x0, 0x0, 0x0⟩ /- STR_PLN_CNT_NVME_RD -/,
   ⟨0xb808c, 1, 0x400000, 1, 0x400000, 1, 0x400000, 0x0, 0x0, 0x0, 0x0⟩ /- STR_PLN_CNT_NVME_WR -/,
   ⟨0xb8090, 1, 0x400000, 1, 0x400000, 1, 0x400000, 0x0, 0x0, 0x0, 0x0⟩ /- STR_PLN_CNT_UNCACHED -/,
   ⟨0xb80a0, 1, 0x400000, 1, 0x400000, 1, 0x400000, 0x7, 0x0, 0x0, 0x0⟩ /- STR_PLN_NVME_CFG -/,
   ⟨0xb0000, 1, 0x400000, 1, 0x400000, 1, 0x400000, 0x1, 0x0, 0x0, 0x0⟩ /- STR_CTRL -/,
   ⟨0xb0004, 1, 0x400000, 1, 0x400000, 1, 0x400000, 0x0, 0x10000f, 0x0, 0x0⟩ /- STR_STATUS -/,
   ⟨0xb0008, 1, 0x400000, 1, 0x400000, 1, 0x400000, 0xf, 0x0, 0x0, 0x0⟩ /- STR_IRQ_EN -/,
   ⟨0xb000c, 1, 0x400000, 1, 0x400000, 1, 0x400000, 0x0, 0x0, 0x0, 0x0⟩ /- STR_FIRST_STATION -/,
   ⟨0xb0100, 1, 0x400000, 1, 0x400000, 8, 0x40, 0x3f01, 0x0, 0x0, 0x0⟩ /- STR_Sk_CTRL -/,
   ⟨0xb0104, 1, 0x400000, 1, 0x400000, 8, 0x40, 0x0, 0x0, 0x0, 0x0⟩ /- STR_Sk_STATE -/,
   ⟨0xb0108, 1, 0x400000, 1, 0x400000, 8, 0x40, 0xffffffff, 0x0, 0x0, 0x0⟩ /- STR_Sk_Q_TIME_LO -/]

/-- Registers of block 11 (R18), continued. -/
def rowsOf11x1 : List RegRow :=
  [⟨0xb010c, 1, 0x400000, 1, 0x400000, 8, 0x40, 0xffffffff, 0x0, 0x0, 0x0⟩ /- STR_Sk_Q_TIME_HI -/,
   ⟨0xb0110, 1, 0x400000, 1, 0x400000, 8, 0x40, 0x0, 0x0, 0x0, 0x0⟩ /- STR_Sk_Q_PUSH -/,
   ⟨0xb0114, 1, 0x400000, 1, 0x400000, 8, 0x40, 0x0, 0x0, 0x0, 0x0⟩ /- STR_Sk_CUR -/,
   ⟨0xb0118, 1, 0x400000, 1, 0x400000, 8, 0x40, 0x0, 0x0, 0x0, 0x0⟩ /- STR_Sk_CNT_BURSTS -/,
   ⟨0xb011c, 1, 0x400000, 1, 0x400000, 8, 0x40, 0x0, 0x0, 0x0, 0x0⟩ /- STR_Sk_CNT_WDRAW -/,
   ⟨0xb0120, 1, 0x400000, 1, 0x400000, 8, 0x40, 0x0, 0x0, 0x0, 0x0⟩ /- STR_Sk_CNT_UNDERRUN -/,
   ⟨0xb0124, 1, 0x400000, 1, 0x400000, 8, 0x40, 0x0, 0x0, 0x0, 0x0⟩ /- STR_Sk_CNT_BANDS -/]

/-- Registers of block 12 (R18). -/
def rowsOf12 : List RegRow :=
  [⟨0xc0000, 1, 0x400000, 1, 0x400000, 1, 0x400000, 0x1, 0x0, 0x0, 0x0⟩ /- CDC_CTRL -/,
   ⟨0xc0004, 1, 0x400000, 1, 0x400000, 1, 0x400000, 0x0, 0x10001f, 0x0, 0x0⟩ /- CDC_STATUS -/,
   ⟨0xc0008, 1, 0x400000, 1, 0x400000, 1, 0x400000, 0x1f, 0x0, 0x0, 0x0⟩ /- CDC_IRQ_EN -/,
   ⟨0xc0100, 1, 0x400000, 1, 0x400000, 4, 0x40, 0xc, 0x0, 0x0, 0x0⟩ /- CDC_Lm_CTRL -/,
   ⟨0xc0104, 1, 0x400000, 1, 0x400000, 4, 0x40, 0x0, 0x0, 0x0, 0x0⟩ /- CDC_Lm_STATUS -/,
   ⟨0xc0108, 1, 0x400000, 1, 0x400000, 4, 0x40, 0xffffffff, 0x0, 0x0, 0x0⟩ /- CDC_Lm_SRC_LO -/,
   ⟨0xc010c, 1, 0x400000, 1, 0x400000, 4, 0x40, 0xffffffff, 0x0, 0x0, 0x0⟩ /- CDC_Lm_SRC_HI -/,
   ⟨0xc0110, 1, 0x400000, 1, 0x400000, 4, 0x40, 0xffffff, 0x0, 0x0, 0x0⟩ /- CDC_Lm_SRC_STRIDE -/,
   ⟨0xc0114, 1, 0x400000, 1, 0x400000, 4, 0x40, 0xffff03ff, 0x0, 0x0, 0x0⟩ /- CDC_Lm_GEOM -/,
   ⟨0xc0118, 1, 0x400000, 1, 0x400000, 4, 0x40, 0xffffff, 0x0, 0x0, 0x0⟩ /- CDC_Lm_LINES -/,
   ⟨0xc011c, 1, 0x400000, 1, 0x400000, 4, 0x40, 0xffffffff, 0x0, 0x0, 0x0⟩ /- CDC_Lm_OVF_INDEX -/,
   ⟨0xc0120, 1, 0x400000, 1, 0x400000, 4, 0x40, 0xffffffff, 0x0, 0x0, 0x0⟩ /- CDC_Lm_SLOT_LO -/,
   ⟨0xc0124, 1, 0x400000, 1, 0x400000, 4, 0x40, 0xfffff, 0x0, 0x0, 0x0⟩ /- CDC_Lm_SLOT_HI -/,
   ⟨0xc0128, 1, 0x400000, 1, 0x400000, 4, 0x40, 0xffffffff, 0x0, 0x0, 0x0⟩ /- CDC_Lm_OVF_LO -/,
   ⟨0xc012c, 1, 0x400000, 1, 0x400000, 4, 0x40, 0xfffff, 0x0, 0x0, 0x0⟩ /- CDC_Lm_OVF_HI -/,
   ⟨0xc0130, 1, 0x400000, 1, 0x400000, 4, 0x40, 0xffffffff, 0x0, 0x0, 0x0⟩ /- CDC_Lm_BAND_LO -/,
   ⟨0xc0134, 1, 0x400000, 1, 0x400000, 4, 0x40, 0xfffff, 0x0, 0x0, 0x0⟩ /- CDC_Lm_BAND_HI -/,
   ⟨0xc0138, 1, 0x400000, 1, 0x400000, 4, 0x40, 0x0, 0x0, 0x0, 0x0⟩ /- CDC_Lm_LINES_DONE -/,
   ⟨0xc013c, 1, 0x400000, 1, 0x400000, 4, 0x40, 0x0, 0x0, 0x0, 0x0⟩ /- CDC_Lm_MAXOVF -/,
   ⟨0xc0200, 1, 0x400000, 1, 0x400000, 4, 0x10, 0x0, 0x0, 0x0, 0x0⟩ /- CDC_Lm_CNT_TILES -/,
   ⟨0xc0204, 1, 0x400000, 1, 0x400000, 4, 0x10, 0x0, 0x0, 0x0, 0x0⟩ /- CDC_Lm_CNT_NOFIT -/,
   ⟨0xc0208, 1, 0x400000, 1, 0x400000, 4, 0x10, 0x0, 0x0, 0x0, 0x0⟩ /- CDC_Lm_CNT_VERIFY -/,
   ⟨0xc020c, 1, 0x400000, 1, 0x400000, 4, 0x10, 0x0, 0x0, 0x0, 0x0⟩ /- CDC_Lm_CNT_FLUSH -/,
   ⟨0xc0300, 1, 0x400000, 1, 0x400000, 5, 0x4, 0x0, 0x0, 0x0, 0x0⟩ /- CDC_CNT_MODEx -/,
   ⟨0xc0400, 1, 0x400000, 1, 0x400000, 8, 0x10, 0x0, 0x0, 0x0, 0x0⟩ /- CDC_Sk_CNT_TILES -/,
   ⟨0xc0404, 1, 0x400000, 1, 0x400000, 8, 0x10, 0x0, 0x0, 0x0, 0x0⟩ /- CDC_Sk_CNT_RAW -/,
   ⟨0xc0408, 1, 0x400000, 1, 0x400000, 8, 0x10, 0x0, 0x0, 0x0, 0x0⟩ /- CDC_Sk_CNT_MM -/,
   ⟨0xc040c, 1, 0x400000, 1, 0x400000, 8, 0x10, 0x0, 0x0, 0x0, 0x0⟩ /- CDC_Sk_CNT_FLUSH -/,
   ⟨0xc0500, 1, 0x400000, 1, 0x400000, 1, 0x400000, 0x0, 0x0, 0x0, 0x0⟩ /- CDC_CHK_CNT_TILES -/,
   ⟨0xc0504, 1, 0x400000, 1, 0x400000, 1, 0x400000, 0x0, 0x0, 0x0, 0x0⟩ /- CDC_CHK_CNT_MM -/]

/-- Registers of block 12 (R18), continued. -/
def rowsOf12x1 : List RegRow :=
  [⟨0xc0600, 1, 0x400000, 1, 0x400000, 1, 0x400000, 0x0, 0x0, 0x0, 0x0⟩ /- CDC_MM_STATUS -/,
   ⟨0xc0604, 1, 0x400000, 1, 0x400000, 1, 0x400000, 0x0, 0x0, 0x0, 0x0⟩ /- CDC_MM_INFO0 -/,
   ⟨0xc0608, 1, 0x400000, 1, 0x400000, 1, 0x400000, 0x0, 0x0, 0x0, 0x0⟩ /- CDC_MM_INFO1 -/,
   ⟨0xc060c, 1, 0x400000, 1, 0x400000, 1, 0x400000, 0x0, 0x0, 0x0, 0x0⟩ /- CDC_MM_POP -/]

/-- Registers of block 13 (R18). -/
def rowsOf13 : List RegRow :=
  [⟨0xd0000, 1, 0x400000, 1, 0x400000, 8, 0x10000, 0xf, 0x0, 0x0, 0x0⟩ /- BTM_CTRL -/,
   ⟨0xd0004, 1, 0x400000, 1, 0x400000, 8, 0x10000, 0x0, 0x1000ff, 0x0, 0x0⟩ /- BTM_STATUS -/,
   ⟨0xd0008, 1, 0x400000, 1, 0x400000, 8, 0x10000, 0xff, 0x0, 0x0, 0x0⟩ /- BTM_IRQ_EN -/,
   ⟨0xd000c, 1, 0x400000, 1, 0x400000, 8, 0x10000, 0x0, 0x0, 0x10, 0x0⟩ /- BTM_STATE -/,
   ⟨0xd0010, 1, 0x400000, 1, 0x400000, 8, 0x10000, 0xffffffff, 0x0, 0x1295af5, 0x0⟩ /- BTM_DOT_PERIOD -/,
   ⟨0xd0014, 1, 0x400000, 1, 0x400000, 8, 0x10000, 0x7ff3fff, 0x0, 0x220028, 0x0⟩ /- BTM_FACET_CFG -/,
   ⟨0xd0018, 1, 0x400000, 1, 0x400000, 8, 0x10000, 0xffffff, 0x0, 0xa55d5, 0x0⟩ /- BTM_FACET_PERIOD -/,
   ⟨0xd001c, 1, 0x400000, 1, 0x400000, 8, 0x10000, 0xffff, 0x0, 0xbb8, 0x0⟩ /- BTM_SOS_WIN -/,
   ⟨0xd0020, 1, 0x400000, 1, 0x400000, 8, 0x10000, 0xffffff, 0x0, 0x7530, 0x0⟩ /- BTM_EOS_WIN -/,
   ⟨0xd0024, 1, 0x400000, 1, 0x400000, 8, 0x10000, 0xffffffff, 0x0, 0x800, 0x0⟩ /- BTM_LINE_OFS -/,
   ⟨0xd0028, 1, 0x400000, 1, 0x400000, 8, 0x10000, 0x1, 0x0, 0x0, 0x0⟩ /- BTM_TBL_CTRL -/,
   ⟨0xd002c, 1, 0x400000, 1, 0x400000, 8, 0x10000, 0xf, 0x0, 0x0, 0x0⟩ /- BTM_FACET_IDX -/,
   ⟨0xd0030, 1, 0x400000, 1, 0x400000, 8, 0x10000, 0x0, 0x0, 0x0, 0x0⟩ /- BTM_SOS_LO -/,
   ⟨0xd0034, 1, 0x400000, 1, 0x400000, 8, 0x10000, 0x0, 0x0, 0x0, 0x0⟩ /- BTM_SOS_HI -/,
   ⟨0xd0038, 1, 0x400000, 1, 0x400000, 8, 0x10000, 0x0, 0x0, 0x0, 0x0⟩ /- BTM_SCAN_LAST -/,
   ⟨0xd003c, 1, 0x400000, 1, 0x400000, 8, 0x10000, 0x0, 0x0, 0x0, 0x0⟩ /- BTM_PERIOD_LAST -/,
   ⟨0xd0040, 1, 0x400000, 1, 0x400000, 8, 0x10000, 0x0, 0x0, 0x0, 0x0⟩ /- BTM_EXP_SLIP -/,
   ⟨0xd0044, 1, 0x400000, 1, 0x400000, 8, 0x10000, 0x0, 0x0, 0x7, 0x0⟩ /- BTM_LSI -/,
   ⟨0xd0048, 1, 0x400000, 1, 0x400000, 8, 0x10000, 0xffff000f, 0x0, 0x0, 0x0⟩ /- BTM_CAL_CFG -/,
   ⟨0xd004c, 1, 0x400000, 1, 0x400000, 8, 0x10000, 0xffffffff, 0x0, 0x0, 0x0⟩ /- BTM_CAL_DOTS -/,
   ⟨0xd0050, 1, 0x400000, 1, 0x400000, 8, 0x10000, 0xffffffff, 0x0, 0x0, 0x0⟩ /- BTM_CAL_BEAMS_LO -/,
   ⟨0xd0054, 1, 0x400000, 1, 0x400000, 8, 0x10000, 0xffffffff, 0x0, 0x0, 0x0⟩ /- BTM_CAL_BEAMS_HI -/,
   ⟨0xd0080, 1, 0x400000, 1, 0x400000, 8, 0x10000, 0x0, 0x0, 0x0, 0x0⟩ /- BTM_CNT_FACETS -/,
   ⟨0xd0084, 1, 0x400000, 1, 0x400000, 8, 0x10000, 0x0, 0x0, 0x0, 0x0⟩ /- BTM_CNT_SOS_MISS -/,
   ⟨0xd0088, 1, 0x400000, 1, 0x400000, 8, 0x10000, 0x0, 0x0, 0x0, 0x0⟩ /- BTM_CNT_EOS_MISS -/,
   ⟨0xd008c, 1, 0x400000, 1, 0x400000, 8, 0x10000, 0x0, 0x0, 0x0, 0x0⟩ /- BTM_CNT_CALCUT -/,
   ⟨0xd0090, 1, 0x400000, 1, 0x400000, 8, 0x10000, 0x0, 0x0, 0x0, 0x0⟩ /- BTM_CNT_PARITY -/,
   ⟨0xd0094, 1, 0x400000, 1, 0x400000, 8, 0x10000, 0x0, 0x0, 0x0, 0x0⟩ /- BTM_CNT_LIVE_WRITE -/,
   ⟨0xd0098, 1, 0x400000, 1, 0x400000, 8, 0x10000, 0x0, 0x0, 0x0, 0x0⟩ /- BTM_CNT_EXP_REFUSED -/,
   ⟨0xd009c, 1, 0x400000, 1, 0x400000, 8, 0x10000, 0x0, 0x0, 0x0, 0x0⟩ /- BTM_CNT_DLL_UNLOCK -/]

/-- Registers of block 13 (R18), continued. -/
def rowsOf13x1 : List RegRow :=
  [⟨0xd0100, 1, 0x400000, 8, 0x10000, 64, 0x4, 0x0, 0x0, 0x0, 0x0⟩ /- BTM_DROPb -/,
   ⟨0xd0200, 1, 0x400000, 8, 0x10000, 12, 0x4, 0x0, 0x0, 0x0, 0x0⟩ /- BTM_SCANf -/]

/-- Registers of block 21 (R18). -/
def rowsOf21 : List RegRow :=
  [⟨0x150000, 1, 0x400000, 1, 0x400000, 1, 0x400000, 0x0, 0x0, 0x0, 0x0⟩ /- BMK_DEAD_SUMMARY -/,
   ⟨0x151000, 1, 0x400000, 1, 0x400000, 8, 0x1000, 0x0, 0x10000f, 0x0, 0x0⟩ /- BMK_Sk_STATUS -/,
   ⟨0x151004, 1, 0x400000, 1, 0x400000, 8, 0x1000, 0x10f, 0x0, 0x0, 0x0⟩ /- BMK_Sk_IRQ_EN -/,
   ⟨0x151008, 1, 0x400000, 1, 0x400000, 8, 0x1000, 0x3, 0x0, 0x0, 0x0⟩ /- BMK_Sk_SET_CTRL -/,
   ⟨0x15100c, 1, 0x400000, 1, 0x400000, 8, 0x1000, 0x0, 0x0, 0x0, 0x0⟩ /- BMK_Sk_SET_ERR -/,
   ⟨0x151010, 1, 0x400000, 1, 0x400000, 8, 0x1000, 0xffff0fff, 0x0, 0x12c0300, 0x0⟩ /- BMK_Sk_TEST_CFG -/,
   ⟨0x151014, 1, 0x400000, 1, 0x400000, 8, 0x1000, 0xffffffff, 0x0, 0xffffffff, 0x0⟩ /- BMK_Sk_TEST_MASK_LO -/,
   ⟨0x151018, 1, 0x400000, 1, 0x400000, 8, 0x1000, 0xffffffff, 0x0, 0xffffffff, 0x0⟩ /- BMK_Sk_TEST_MASK_HI -/,
   ⟨0x15101c, 1, 0x400000, 1, 0x400000, 8, 0x1000, 0x0, 0x0, 0x1, 0x0⟩ /- BMK_Sk_TEST_STATE -/,
   ⟨0x151020, 1, 0x400000, 1, 0x400000, 8, 0x1000, 0x0, 0x0, 0x0, 0x0⟩ /- BMK_Sk_TEST_XLAST -/,
   ⟨0x151024, 1, 0x400000, 1, 0x400000, 8, 0x1000, 0x0, 0xffffffff, 0x0, 0x0⟩ /- BMK_Sk_DEAD_LO -/,
   ⟨0x151028, 1, 0x400000, 1, 0x400000, 8, 0x1000, 0x0, 0xffffffff, 0x0, 0x0⟩ /- BMK_Sk_DEAD_HI -/,
   ⟨0x15102c, 1, 0x400000, 1, 0x400000, 8, 0x1000, 0x0, 0x0, 0x0, 0x0⟩ /- BMK_Sk_DEAD_INFO -/,
   ⟨0x151030, 1, 0x400000, 1, 0x400000, 8, 0x1000, 0x0, 0x0, 0x0, 0x0⟩ /- BMK_Sk_CNT_TESTS -/,
   ⟨0x151034, 1, 0x400000, 1, 0x400000, 8, 0x1000, 0x0, 0x0, 0x0, 0x0⟩ /- BMK_Sk_CNT_SKIPS -/,
   ⟨0x151038, 1, 0x400000, 1, 0x400000, 8, 0x1000, 0x0, 0x0, 0x0, 0x0⟩ /- BMK_Sk_CNT_SWITCH -/,
   ⟨0x151040, 1, 0x400000, 1, 0x400000, 8, 0x1000, 0x73f06, 0x0, 0x0, 0x0⟩ /- BMK_Sk_PWR_CTRL -/,
   ⟨0x151044, 1, 0x400000, 1, 0x400000, 8, 0x1000, 0xffffffff, 0x0, 0xbb80bb8, 0x0⟩ /- BMK_Sk_PWR_CFG -/,
   ⟨0x151048, 1, 0x400000, 1, 0x400000, 8, 0x1000, 0x0, 0x0, 0x0, 0x0⟩ /- BMK_Sk_PWR_STATUS -/,
   ⟨0x15104c, 1, 0x400000, 1, 0x400000, 8, 0x1000, 0x0, 0x0, 0x0, 0x0⟩ /- BMK_Sk_PWR_RESULT -/,
   ⟨0x151100, 1, 0x400000, 8, 0x1000, 64, 0x4, 0xffffff, 0x0, 0x0, 0x0⟩ /- BMK_Sk_XOFSb -/,
   ⟨0x151200, 1, 0x400000, 8, 0x1000, 64, 0x4, 0x0, 0x0, 0x0, 0x0⟩ /- BMK_Sk_MISSb -/,
   ⟨0x151400, 8, 0x1000, 4, 0x200, 16, 0x4, 0x3f3f3f3f, 0x0, 0x3020100, 0x4040404⟩ /- BMK_Sk_SETs_MAPw -/,
   ⟨0x151440, 8, 0x1000, 4, 0x200, 12, 0x18, 0xffffffff, 0x0, 0xffffffff, 0x0⟩ /- BMK_Sk_SETs_Ff_EN_LO -/,
   ⟨0x151444, 8, 0x1000, 4, 0x200, 12, 0x18, 0xffffffff, 0x0, 0xffffffff, 0x0⟩ /- BMK_Sk_SETs_Ff_EN_HI -/,
   ⟨0x151448, 8, 0x1000, 4, 0x200, 12, 0x18, 0xffffffff, 0x0, 0x0, 0x0⟩ /- BMK_Sk_SETs_Ff_OVA_LO -/,
   ⟨0x15144c, 8, 0x1000, 4, 0x200, 12, 0x18, 0xffffffff, 0x0, 0x0, 0x0⟩ /- BMK_Sk_SETs_Ff_OVA_HI -/,
   ⟨0x151450, 8, 0x1000, 4, 0x200, 12, 0x18, 0xffffffff, 0x0, 0x0, 0x0⟩ /- BMK_Sk_SETs_Ff_OVB_LO -/,
   ⟨0x151454, 8, 0x1000, 4, 0x200, 12, 0x18, 0xffffffff, 0x0, 0x0, 0x0⟩ /- BMK_Sk_SETs_Ff_OVB_HI -/]

/-- Registers of block 22 (R18). -/
def rowsOf22 : List RegRow :=
  [⟨0x160000, 1, 0x400000, 1, 0x400000, 1, 0x400000, 0x1, 0x0, 0x0, 0x0⟩ /- BLD_CTRL -/,
   ⟨0x160004, 1, 0x400000, 1, 0x400000, 1, 0x400000, 0x0, 0x10003f, 0x0, 0x0⟩ /- BLD_STATUS -/,
   ⟨0x160008, 1, 0x400000, 1, 0x400000, 1, 0x400000, 0x3f, 0x0, 0x0, 0x0⟩ /- BLD_IRQ_EN -/,
   ⟨0x16000c, 1, 0x400000, 1, 0x400000, 1, 0x400000, 0x0, 0x0, 0x0, 0x0⟩ /- BLD_FIRST_CHANNEL -/,
   ⟨0x160010, 1, 0x400000, 1, 0x400000, 1, 0x400000, 0x0, 0x0, 0x0, 0x0⟩ /- BLD_RUNNING -/,
   ⟨0x160100, 1, 0x400000, 1, 0x400000, 24, 0x40, 0x7f3c, 0x0, 0x20, 0x0⟩ /- BLD_Cn_CTRL -/,
   ⟨0x160104, 1, 0x400000, 1, 0x400000, 24, 0x40, 0x0, 0x0, 0x0, 0x0⟩ /- BLD_Cn_STATE -/,
   ⟨0x160108, 1, 0x400000, 1, 0x400000, 24, 0x40, 0x3f3fffff, 0x0, 0x140a61a8, 0x0⟩ /- BLD_Cn_PWM -/,
   ⟨0x16010c, 1, 0x400000, 1, 0x400000, 24, 0x40, 0xffffffff, 0x0, 0xf3330000, 0x0⟩ /- BLD_Cn_DUTY -/,
   ⟨0x160110, 1, 0x400000, 1, 0x400000, 24, 0x40, 0x1f0f3f3f, 0x0, 0x60a1e, 0x0⟩ /- BLD_Cn_BEMF -/,
   ⟨0x160114, 1, 0x400000, 1, 0x400000, 24, 0x40, 0xffffffff, 0x0, 0x641000, 0x0⟩ /- BLD_Cn_ALIGN -/,
   ⟨0x160118, 1, 0x400000, 1, 0x400000, 24, 0x40, 0xffffffff, 0x0, 0xa2000, 0x0⟩ /- BLD_Cn_RAMP -/,
   ⟨0x16011c, 1, 0x400000, 1, 0x400000, 24, 0x40, 0xffffff, 0x0, 0x1f4, 0x0⟩ /- BLD_Cn_RAMP_RATE -/,
   ⟨0x160120, 1, 0x400000, 1, 0x400000, 24, 0x40, 0xfffff, 0x0, 0x60064, 0x0⟩ /- BLD_Cn_HANDOVER -/,
   ⟨0x160124, 1, 0x400000, 1, 0x400000, 24, 0x40, 0xffff, 0x0, 0x1770, 0x0⟩ /- BLD_Cn_LIMIT -/,
   ⟨0x160128, 1, 0x400000, 1, 0x400000, 24, 0x40, 0xffffffff, 0x0, 0x27100032, 0x0⟩ /- BLD_Cn_DETECT -/,
   ⟨0x16012c, 1, 0x400000, 1, 0x400000, 24, 0x40, 0x0, 0x0, 0x0, 0x0⟩ /- BLD_Cn_PERIOD -/,
   ⟨0x160130, 1, 0x400000, 1, 0x400000, 24, 0x40, 0x0, 0x0, 0x0, 0x0⟩ /- BLD_Cn_CNT_SHORT -/,
   ⟨0x160134, 1, 0x400000, 1, 0x400000, 24, 0x40, 0x0, 0x0, 0x0, 0x0⟩ /- BLD_Cn_CNT_SKIP -/,
   ⟨0x160138, 1, 0x400000, 1, 0x400000, 24, 0x40, 0x0, 0x0, 0x0, 0x0⟩ /- BLD_Cn_CNT_PRED -/,
   ⟨0x16013c, 1, 0x400000, 1, 0x400000, 24, 0x40, 0x0, 0x0, 0x0, 0x0⟩ /- BLD_Cn_CNT_STARTS -/]

/-- Registers of block 23 (R18). -/
def rowsOf23 : List RegRow :=
  [⟨0x170000, 1, 0x400000, 1, 0x400000, 1, 0x400000, 0x1, 0x0, 0x0, 0x0⟩ /- STP_CTRL -/,
   ⟨0x170004, 1, 0x400000, 1, 0x400000, 1, 0x400000, 0x0, 0x10003f, 0x0, 0x0⟩ /- STP_STATUS -/,
   ⟨0x170008, 1, 0x400000, 1, 0x400000, 1, 0x400000, 0x3f, 0x0, 0x0, 0x0⟩ /- STP_IRQ_EN -/,
   ⟨0x17000c, 1, 0x400000, 1, 0x400000, 1, 0x400000, 0x0, 0x0, 0x0, 0x0⟩ /- STP_FIRST_CHANNEL -/,
   ⟨0x170010, 1, 0x400000, 1, 0x400000, 1, 0x400000, 0x0, 0x0, 0x0, 0x0⟩ /- STP_MOVING_LO -/,
   ⟨0x170014, 1, 0x400000, 1, 0x400000, 1, 0x400000, 0x0, 0x0, 0x0, 0x0⟩ /- STP_MOVING_HI -/,
   ⟨0x170100, 1, 0x400000, 1, 0x400000, 48, 0x80, 0x1c, 0x0, 0x10, 0x0⟩ /- STP_Cn_CTRL -/,
   ⟨0x170104, 1, 0x400000, 1, 0x400000, 48, 0x80, 0x0, 0x0, 0x20, 0x0⟩ /- STP_Cn_STATE -/,
   ⟨0x170108, 1, 0x400000, 1, 0x400000, 48, 0x80, 0x3fffff, 0x0, 0x1f40, 0x0⟩ /- STP_Cn_VSTART -/,
   ⟨0x17010c, 1, 0x400000, 1, 0x400000, 48, 0x80, 0x3fffff, 0x0, 0xfa00, 0x0⟩ /- STP_Cn_V1 -/,
   ⟨0x170110, 1, 0x400000, 1, 0x400000, 48, 0x80, 0x3fffff, 0x0, 0xfa00, 0x0⟩ /- STP_Cn_VMAX -/,
   ⟨0x170114, 1, 0x400000, 1, 0x400000, 48, 0x80, 0x3fffff, 0x0, 0x1f40, 0x0⟩ /- STP_Cn_VSTOP -/,
   ⟨0x170118, 1, 0x400000, 1, 0x400000, 48, 0x80, 0xffffff, 0x0, 0x61a80, 0x0⟩ /- STP_Cn_ACC1 -/,
   ⟨0x17011c, 1, 0x400000, 1, 0x400000, 48, 0x80, 0xffffff, 0x0, 0x61a80, 0x0⟩ /- STP_Cn_ACC2 -/,
   ⟨0x170120, 1, 0x400000, 1, 0x400000, 48, 0x80, 0xffffffff, 0x0, 0x0, 0x0⟩ /- STP_Cn_TARGET -/,
   ⟨0x170124, 1, 0x400000, 1, 0x400000, 48, 0x80, 0xffffffff, 0x0, 0x0, 0x0⟩ /- STP_Cn_XACT -/,
   ⟨0x170128, 1, 0x400000, 1, 0x400000, 48, 0x80, 0x0, 0x0, 0x0, 0x0⟩ /- STP_Cn_VACT -/,
   ⟨0x17012c, 1, 0x400000, 1, 0x400000, 48, 0x80, 0xffffff, 0x0, 0x404020, 0x0⟩ /- STP_Cn_KVAL -/,
   ⟨0x170130, 1, 0x400000, 1, 0x400000, 48, 0x80, 0xffff, 0x0, 0x0, 0x0⟩ /- STP_Cn_KFF -/,
   ⟨0x170134, 1, 0x400000, 1, 0x400000, 48, 0x80, 0x3f3fffff, 0x0, 0x140a61a8, 0x0⟩ /- STP_Cn_PWM -/,
   ⟨0x170138, 1, 0x400000, 1, 0x400000, 48, 0x80, 0x3f3fffff, 0x0, 0x32084080, 0x0⟩ /- STP_Cn_CHOP -/,
   ⟨0x17013c, 1, 0x400000, 1, 0x400000, 48, 0x80, 0x3f3f, 0x0, 0x0, 0x0⟩ /- STP_Cn_OFS -/,
   ⟨0x170140, 1, 0x400000, 48, 0x80, 4, 0x4, 0xffffffff, 0x0, 0x0, 0x0⟩ /- STP_Cn_PRESETp -/,
   ⟨0x170150, 1, 0x400000, 1, 0x400000, 48, 0x80, 0x0, 0x0, 0x0, 0x0⟩ /- STP_Cn_CNT_MOVES -/,
   ⟨0x170154, 1, 0x400000, 1, 0x400000, 48, 0x80, 0x0, 0x0, 0x0, 0x0⟩ /- STP_Cn_CNT_SHORT -/,
   ⟨0x170158, 1, 0x400000, 1, 0x400000, 48, 0x80, 0x0, 0x0, 0x0, 0x0⟩ /- STP_Cn_CNT_REFUSED -/]

/-- Registers of block 24 (R18). -/
def rowsOf24 : List RegRow :=
  [⟨0x180000, 1, 0x400000, 1, 0x400000, 1, 0x400000, 0x1, 0x0, 0x0, 0x0⟩ /- PRA_CTRL -/,
   ⟨0x180004, 1, 0x400000, 1, 0x400000, 1, 0x400000, 0x0, 0x10001f, 0x0, 0x0⟩ /- PRA_STATUS -/,
   ⟨0x180008, 1, 0x400000, 1, 0x400000, 1, 0x400000, 0x1f, 0x0, 0x0, 0x0⟩ /- PRA_IRQ_EN -/,
   ⟨0x18000c, 1, 0x400000, 1, 0x400000, 1, 0x400000, 0x0, 0x0, 0x0, 0x0⟩ /- PRA_FIRST_SLOT -/,
   ⟨0x180010, 1, 0x400000, 1, 0x400000, 1, 0x400000, 0x0, 0x0, 0x0, 0x0⟩ /- PRA_LOAD -/,
   ⟨0x180020, 1, 0x400000, 1, 0x400000, 4, 0x4, 0x0, 0x0, 0x0, 0x0⟩ /- PRA_LOCKEDk -/,
   ⟨0x180030, 1, 0x400000, 1, 0x400000, 4, 0x4, 0x0, 0x0, 0x0, 0x0⟩ /- PRA_POLICYk -/,
   ⟨0x180100, 1, 0x400000, 1, 0x400000, 48, 0x4, 0x7f07ffff, 0x0, 0x61a8, 0x0⟩ /- PRA_LPOj_CFG -/,
   ⟨0x181000, 1, 0x400000, 1, 0x400000, 128, 0x80, 0x718, 0x0, 0x0, 0x0⟩ /- PRA_Ln_CTRL -/,
   ⟨0x181004, 1, 0x400000, 1, 0x400000, 128, 0x80, 0x3f7f07, 0x0, 0x0, 0x0⟩ /- PRA_Ln_SRC -/,
   ⟨0x181008, 1, 0x400000, 1, 0x400000, 128, 0x80, 0xfffff, 0x0, 0x1, 0x0⟩ /- PRA_Ln_RATE -/,
   ⟨0x18100c, 1, 0x400000, 1, 0x400000, 128, 0x80, 0xfffff, 0x0, 0x0, 0x0⟩ /- PRA_Ln_PHASE -/,
   ⟨0x181010, 1, 0x400000, 1, 0x400000, 128, 0x80, 0xffffffff, 0x0, 0x0, 0x0⟩ /- PRA_Ln_SP -/,
   ⟨0x181014, 1, 0x400000, 1, 0x400000, 128, 0x80, 0xffffffff, 0x0, 0x0, 0x0⟩ /- PRA_Ln_KP -/,
   ⟨0x181018, 1, 0x400000, 1, 0x400000, 128, 0x80, 0xffffffff, 0x0, 0x0, 0x0⟩ /- PRA_Ln_KI -/,
   ⟨0x18101c, 1, 0x400000, 1, 0x400000, 128, 0x80, 0xffffffff, 0x0, 0x0, 0x0⟩ /- PRA_Ln_KD -/,
   ⟨0x181020, 1, 0x400000, 1, 0x400000, 128, 0x80, 0xffffffff, 0x0, 0xffff0000, 0x0⟩ /- PRA_Ln_LIMIT -/,
   ⟨0x181024, 1, 0x400000, 1, 0x400000, 128, 0x80, 0xffff, 0x0, 0xffff, 0x0⟩ /- PRA_Ln_CAP -/,
   ⟨0x181028, 1, 0x400000, 1, 0x400000, 128, 0x80, 0xffff, 0x0, 0x0, 0x0⟩ /- PRA_Ln_PRELOAD -/,
   ⟨0x18102c, 1, 0x400000, 1, 0x400000, 128, 0x80, 0xffffffff, 0x0, 0x4100000, 0x0⟩ /- PRA_Ln_LOCK -/,
   ⟨0x181030, 1, 0x400000, 1, 0x400000, 128, 0x80, 0xffffffff, 0x0, 0x0, 0x0⟩ /- PRA_Ln_REF_LO -/,
   ⟨0x181034, 1, 0x400000, 1, 0x400000, 128, 0x80, 0xffffffff, 0x0, 0x0, 0x0⟩ /- PRA_Ln_REF_HI -/,
   ⟨0x181038, 1, 0x400000, 1, 0x400000, 128, 0x80, 0x7f, 0x0, 0x0, 0x0⟩ /- PRA_Ln_SWAP -/,
   ⟨0x18103c, 1, 0x400000, 1, 0x400000, 128, 0x80, 0x0, 0x0, 0x0, 0x0⟩ /- PRA_Ln_STATE -/,
   ⟨0x181040, 1, 0x400000, 1, 0x400000, 128, 0x80, 0x0, 0x0, 0x0, 0x0⟩ /- PRA_Ln_OUT -/,
   ⟨0x181044, 1, 0x400000, 1, 0x400000, 128, 0x80, 0x0, 0x0, 0x0, 0x0⟩ /- PRA_Ln_PV -/,
   ⟨0x181048, 1, 0x400000, 1, 0x400000, 128, 0x80, 0x0, 0x0, 0x0, 0x0⟩ /- PRA_Ln_ERR -/,
   ⟨0x18104c, 1, 0x400000, 1, 0x400000, 128, 0x80, 0x0, 0x0, 0x0, 0x0⟩ /- PRA_Ln_I_LO -/,
   ⟨0x181050, 1, 0x400000, 1, 0x400000, 128, 0x80, 0x0, 0x0, 0x0, 0x0⟩ /- PRA_Ln_I_HI -/,
   ⟨0x181054, 1, 0x400000, 1, 0x400000, 128, 0x80, 0x0, 0x0, 0x0, 0x0⟩ /- PRA_Ln_DELAY -/]

/-- Registers of block 24 (R18), continued. -/
def rowsOf24x1 : List RegRow :=
  [⟨0x181058, 1, 0x400000, 1, 0x400000, 128, 0x80, 0x0, 0x0, 0x0, 0x0⟩ /- PRA_Ln_CNT_SAMPLES -/,
   ⟨0x18105c, 1, 0x400000, 1, 0x400000, 128, 0x80, 0x0, 0x0, 0x0, 0x0⟩ /- PRA_Ln_CNT_SAT -/]

/-- Registers of block 25 (R18). -/
def rowsOf25 : List RegRow :=
  [⟨0x190000, 1, 0x400000, 1, 0x400000, 1, 0x400000, 0x1, 0x0, 0x0, 0x0⟩ /- ADC_CTRL -/,
   ⟨0x190004, 1, 0x400000, 1, 0x400000, 1, 0x400000, 0x0, 0x100007, 0x0, 0x0⟩ /- ADC_STATUS -/,
   ⟨0x190008, 1, 0x400000, 1, 0x400000, 1, 0x400000, 0x7, 0x0, 0x0, 0x0⟩ /- ADC_IRQ_EN -/,
   ⟨0x19000c, 1, 0x400000, 1, 0x400000, 1, 0x400000, 0x0, 0x0, 0x0, 0x0⟩ /- ADC_FRAME -/,
   ⟨0x190010, 1, 0x400000, 1, 0x400000, 4, 0x4, 0x1, 0x0, 0x0, 0x0⟩ /- ADC_Aa_CTRL -/,
   ⟨0x190020, 1, 0x400000, 1, 0x400000, 4, 0x4, 0xfffffff, 0x0, 0x4000, 0x0⟩ /- ADC_Aa_TRIM -/,
   ⟨0x190100, 4, 0x80, 2, 0x40, 10, 0x4, 0xffffffff, 0x0, 0x0, 0x0⟩ /- ADC_Aa_SEQb_Ww -/,
   ⟨0x190400, 1, 0x400000, 1, 0x400000, 96, 0x4, 0x0, 0x0, 0x0, 0x0⟩ /- ADC_RESULTn -/,
   ⟨0x190600, 1, 0x400000, 1, 0x400000, 4, 0x4, 0x0, 0x0, 0x0, 0x0⟩ /- ADC_Aa_CNT_CONV -/]

/-- Registers of block 26 (R18). -/
def rowsOf26 : List RegRow :=
  [⟨0x1a0000, 1, 0x400000, 1, 0x400000, 1, 0x400000, 0x7, 0x0, 0x4, 0x0⟩ /- FAB_CTRL -/,
   ⟨0x1a0004, 1, 0x400000, 1, 0x400000, 1, 0x400000, 0x0, 0x1003ff, 0x0, 0x0⟩ /- FAB_STATUS -/,
   ⟨0x1a0008, 1, 0x400000, 1, 0x400000, 1, 0x400000, 0x3ff, 0x0, 0x0, 0x0⟩ /- FAB_IRQ_EN -/,
   ⟨0x1a000c, 1, 0x400000, 1, 0x400000, 1, 0x400000, 0x7ff0000, 0x0, 0x0, 0x0⟩ /- FAB_ID -/,
   ⟨0x1a0010, 1, 0x400000, 1, 0x400000, 1, 0x400000, 0x0, 0x0, 0x0, 0x0⟩ /- FAB_EUI_LO -/,
   ⟨0x1a0014, 1, 0x400000, 1, 0x400000, 1, 0x400000, 0x0, 0x0, 0x0, 0x0⟩ /- FAB_EUI_HI -/,
   ⟨0x1a0018, 1, 0x400000, 1, 0x400000, 1, 0x400000, 0x0, 0x0, 0x1110, 0x0⟩ /- FAB_VER -/,
   ⟨0x1a001c, 1, 0x400000, 1, 0x400000, 1, 0x400000, 0x0, 0x0, 0x0, 0x0⟩ /- FAB_DEVICES -/,
   ⟨0x1a0020, 1, 0x400000, 1, 0x400000, 1, 0x400000, 0xfffff1, 0x0, 0x30180, 0x0⟩ /- FAB_SYNC_CFG -/,
   ⟨0x1a0024, 1, 0x400000, 1, 0x400000, 1, 0x400000, 0x0, 0x0, 0x0, 0x0⟩ /- FAB_SYNC_STATE -/,
   ⟨0x1a0028, 1, 0x400000, 1, 0x400000, 1, 0x400000, 0x0, 0x0, 0x0, 0x0⟩ /- FAB_SYNC_OFS -/,
   ⟨0x1a002c, 1, 0x400000, 1, 0x400000, 1, 0x400000, 0xffff, 0x0, 0x3e8, 0x0⟩ /- FAB_RD_TIMEOUT -/,
   ⟨0x1a0030, 1, 0x400000, 1, 0x400000, 1, 0x400000, 0x0, 0x0, 0x0, 0x0⟩ /- FAB_LEQ_STATUS -/,
   ⟨0x1a0034, 1, 0x400000, 1, 0x400000, 1, 0x400000, 0x0, 0x0, 0x0, 0x0⟩ /- FAB_LEQ_INFO0 -/,
   ⟨0x1a0038, 1, 0x400000, 1, 0x400000, 1, 0x400000, 0x0, 0x0, 0x0, 0x0⟩ /- FAB_LEQ_INFO1 -/,
   ⟨0x1a003c, 1, 0x400000, 1, 0x400000, 1, 0x400000, 0x0, 0x0, 0x0, 0x0⟩ /- FAB_LEQ_INFO2 -/,
   ⟨0x1a0040, 1, 0x400000, 1, 0x400000, 1, 0x400000, 0x0, 0x0, 0x0, 0x0⟩ /- FAB_LEQ_POP -/,
   ⟨0x1a0044, 1, 0x400000, 1, 0x400000, 1, 0x400000, 0x0, 0x0, 0x0, 0x0⟩ /- FAB_LEQ_INFO3 -/,
   ⟨0x1a0050, 1, 0x400000, 1, 0x400000, 1, 0x400000, 0x0, 0x0, 0x0, 0x0⟩ /- FAB_EVQ_STATUS -/,
   ⟨0x1a0054, 1, 0x400000, 1, 0x400000, 1, 0x400000, 0x0, 0x0, 0x0, 0x0⟩ /- FAB_EVQ_INFO0 -/,
   ⟨0x1a0058, 1, 0x400000, 1, 0x400000, 1, 0x400000, 0x0, 0x0, 0x0, 0x0⟩ /- FAB_EVQ_INFO1 -/,
   ⟨0x1a005c, 1, 0x400000, 1, 0x400000, 1, 0x400000, 0x0, 0x0, 0x0, 0x0⟩ /- FAB_EVQ_POP -/,
   ⟨0x1a0060, 1, 0x400000, 1, 0x400000, 1, 0x400000, 0x0, 0x0, 0x0, 0x0⟩ /- FAB_CNT_LEQ_LOST -/,
   ⟨0x1a0064, 1, 0x400000, 1, 0x400000, 1, 0x400000, 0x0, 0x0, 0x0, 0x0⟩ /- FAB_CNT_RD_LATE -/,
   ⟨0x1a0068, 1, 0x400000, 1, 0x400000, 1, 0x400000, 0x0, 0x0, 0x0, 0x0⟩ /- FAB_CNT_EV_DROP -/,
   ⟨0x1a006c, 1, 0x400000, 1, 0x400000, 1, 0x400000, 0x0, 0x0, 0x0, 0x0⟩ /- FAB_CNT_MALFORMED -/,
   ⟨0x1a0070, 1, 0x400000, 1, 0x400000, 1, 0x400000, 0x0, 0x0, 0x0, 0x0⟩ /- FAB_CNT_ROUTE_ERR -/,
   ⟨0x1a0100, 1, 0x400000, 1, 0x400000, 8, 0x40, 0x7f, 0x0, 0x2, 0x0⟩ /- FAB_Pp_CFG -/,
   ⟨0x1a0104, 1, 0x400000, 1, 0x400000, 8, 0x40, 0x0, 0x0, 0x0, 0x0⟩ /- FAB_Pp_STATE -/,
   ⟨0x1a0108, 1, 0x400000, 1, 0x400000, 8, 0x40, 0x0, 0x0, 0x0, 0x0⟩ /- FAB_Pp_DELAY -/]

/-- Registers of block 26 (R18), continued. -/
def rowsOf26x1 : List RegRow :=
  [⟨0x1a010c, 1, 0x400000, 1, 0x400000, 8, 0x40, 0x0, 0x0, 0x0, 0x0⟩ /- FAB_Pp_CNT_REPLAY -/,
   ⟨0x1a0110, 1, 0x400000, 1, 0x400000, 8, 0x40, 0x0, 0x0, 0x0, 0x0⟩ /- FAB_Pp_CNT_CRC -/,
   ⟨0x1a0114, 1, 0x400000, 1, 0x400000, 8, 0x40, 0x0, 0x0, 0x0, 0x0⟩ /- FAB_Pp_CNT_TX -/,
   ⟨0x1a0118, 1, 0x400000, 1, 0x400000, 8, 0x40, 0x0, 0x0, 0x0, 0x0⟩ /- FAB_Pp_CNT_RX -/,
   ⟨0x1a011c, 1, 0x400000, 1, 0x400000, 8, 0x40, 0x0, 0x0, 0x0, 0x0⟩ /- FAB_Pp_CNT_FEC -/,
   ⟨0x1a1000, 1, 0x400000, 1, 0x400000, 1024, 0x4, 0x10f, 0x0, 0xf, 0x0⟩ /- FAB_ROUTEd -/]

/-- Registers of block 27 (R18). -/
def rowsOf27 : List RegRow :=
  [⟨0x1b0000, 1, 0x400000, 1, 0x400000, 1, 0x400000, 0x0, 0x0, 0x401310, 0x0⟩ /- HST_CAP -/,
   ⟨0x1b0004, 1, 0x400000, 1, 0x400000, 1, 0x400000, 0x0, 0x100007, 0x1, 0x0⟩ /- HST_STATUS -/,
   ⟨0x1b0008, 1, 0x400000, 1, 0x400000, 1, 0x400000, 0x7, 0x0, 0x0, 0x0⟩ /- HST_IRQ_EN -/,
   ⟨0x1b0010, 1, 0x400000, 1, 0x400000, 1, 0x400000, 0xffffffff, 0x0, 0x0, 0x0⟩ /- HST_EVQ_BASE_LO -/,
   ⟨0x1b0014, 1, 0x400000, 1, 0x400000, 1, 0x400000, 0xffffffff, 0x0, 0x0, 0x0⟩ /- HST_EVQ_BASE_HI -/,
   ⟨0x1b0018, 1, 0x400000, 1, 0x400000, 1, 0x400000, 0x1fff, 0x0, 0x0, 0x0⟩ /- HST_EVQ_CFG -/,
   ⟨0x1b001c, 1, 0x400000, 1, 0x400000, 1, 0x400000, 0xfff, 0x0, 0x0, 0x0⟩ /- HST_EVQ_HEAD -/,
   ⟨0x1b0020, 1, 0x400000, 1, 0x400000, 1, 0x400000, 0x0, 0x0, 0x0, 0x0⟩ /- HST_EVQ_TAIL -/,
   ⟨0x1b1000, 1, 0x400000, 1, 0x400000, 64, 0x40, 0xffffffff, 0x0, 0x0, 0x0⟩ /- HST_QPn_SQ_LO -/,
   ⟨0x1b1004, 1, 0x400000, 1, 0x400000, 64, 0x40, 0xffffffff, 0x0, 0x0, 0x0⟩ /- HST_QPn_SQ_HI -/,
   ⟨0x1b1008, 1, 0x400000, 1, 0x400000, 64, 0x40, 0xffffffff, 0x0, 0x0, 0x0⟩ /- HST_QPn_CQ_LO -/,
   ⟨0x1b100c, 1, 0x400000, 1, 0x400000, 64, 0x40, 0xffffffff, 0x0, 0x0, 0x0⟩ /- HST_QPn_CQ_HI -/,
   ⟨0x1b1010, 1, 0x400000, 1, 0x400000, 64, 0x40, 0x5fff1fff, 0x0, 0x0, 0x0⟩ /- HST_QPn_CFG -/,
   ⟨0x1b1014, 1, 0x400000, 1, 0x400000, 64, 0x40, 0xff, 0x0, 0x10, 0x0⟩ /- HST_QPn_VER -/,
   ⟨0x1b1018, 1, 0x400000, 1, 0x400000, 64, 0x40, 0xfff, 0x0, 0x0, 0x0⟩ /- HST_QPn_SQ_TAIL -/,
   ⟨0x1b101c, 1, 0x400000, 1, 0x400000, 64, 0x40, 0xfff, 0x0, 0x0, 0x0⟩ /- HST_QPn_CQ_HEAD -/,
   ⟨0x1b1020, 1, 0x400000, 1, 0x400000, 64, 0x40, 0x0, 0x0, 0x0, 0x0⟩ /- HST_QPn_SQ_HEAD -/]

/-- Registers of block 28 (R18). -/
def rowsOf28 : List RegRow :=
  [⟨0x1c0000, 1, 0x400000, 1, 0x400000, 1, 0x400000, 0x1, 0x0, 0x0, 0x0⟩ /- JRN_CTRL -/,
   ⟨0x1c0004, 1, 0x400000, 1, 0x400000, 1, 0x400000, 0x0, 0x10001f, 0x0, 0x0⟩ /- JRN_STATUS -/,
   ⟨0x1c0008, 1, 0x400000, 1, 0x400000, 1, 0x400000, 0x1f, 0x0, 0x0, 0x0⟩ /- JRN_IRQ_EN -/,
   ⟨0x1c000c, 1, 0x400000, 1, 0x400000, 1, 0x400000, 0xffffffff, 0x0, 0x0, 0x0⟩ /- JRN_BASE_A -/,
   ⟨0x1c0010, 1, 0x400000, 1, 0x400000, 1, 0x400000, 0xffffffff, 0x0, 0x0, 0x0⟩ /- JRN_BASE_B -/,
   ⟨0x1c0014, 1, 0x400000, 1, 0x400000, 1, 0x400000, 0x1f, 0x0, 0x14, 0x0⟩ /- JRN_SIZE -/,
   ⟨0x1c0018, 1, 0x400000, 1, 0x400000, 1, 0x400000, 0x0, 0x0, 0x1, 0x0⟩ /- JRN_NEXT_SEQ_LO -/,
   ⟨0x1c001c, 1, 0x400000, 1, 0x400000, 1, 0x400000, 0x0, 0x0, 0x0, 0x0⟩ /- JRN_NEXT_SEQ_HI -/,
   ⟨0x1c0020, 1, 0x400000, 1, 0x400000, 1, 0x400000, 0x0, 0x0, 0x0, 0x0⟩ /- JRN_DURABLE_SEQ_LO -/,
   ⟨0x1c0024, 1, 0x400000, 1, 0x400000, 1, 0x400000, 0x0, 0x0, 0x0, 0x0⟩ /- JRN_DURABLE_SEQ_HI -/,
   ⟨0x1c0028, 1, 0x400000, 1, 0x400000, 1, 0x400000, 0x0, 0x0, 0x0, 0x0⟩ /- JRN_OLDEST_SEQ_LO -/,
   ⟨0x1c002c, 1, 0x400000, 1, 0x400000, 1, 0x400000, 0x0, 0x0, 0x0, 0x0⟩ /- JRN_OLDEST_SEQ_HI -/,
   ⟨0x1c0030, 1, 0x400000, 1, 0x400000, 1, 0x400000, 0xffffffff, 0x0, 0x0, 0x0⟩ /- JRN_DRING_LO -/,
   ⟨0x1c0034, 1, 0x400000, 1, 0x400000, 1, 0x400000, 0xff, 0x0, 0x0, 0x0⟩ /- JRN_DRING_HI -/,
   ⟨0x1c0038, 1, 0x400000, 1, 0x400000, 1, 0x400000, 0x1ffff, 0x0, 0x10000, 0x0⟩ /- JRN_DRING_CFG -/,
   ⟨0x1c003c, 1, 0x400000, 1, 0x400000, 1, 0x400000, 0x0, 0x0, 0x0, 0x0⟩ /- JRN_DRING_USED -/,
   ⟨0x1c0040, 1, 0x400000, 1, 0x400000, 1, 0x400000, 0x800003ff, 0x0, 0x0, 0x0⟩ /- JRN_MATE -/,
   ⟨0x1c0044, 1, 0x400000, 1, 0x400000, 1, 0x400000, 0xffffffff, 0x0, 0x0, 0x0⟩ /- JRN_MIRROR_BASE -/,
   ⟨0x1c0048, 1, 0x400000, 1, 0x400000, 1, 0x400000, 0x0, 0x0, 0x0, 0x0⟩ /- JRN_LOST -/,
   ⟨0x1c004c, 1, 0x400000, 1, 0x400000, 1, 0x400000, 0x0, 0x0, 0x0, 0x0⟩ /- JRN_GAPS -/,
   ⟨0x1c0050, 1, 0x400000, 1, 0x400000, 1, 0x400000, 0x0, 0x0, 0x0, 0x0⟩ /- JRN_CNT_WRITES -/]

/-- Registers of block 29 (R18). -/
def rowsOf29 : List RegRow :=
  [⟨0x1d0000, 1, 0x400000, 1, 0x400000, 1, 0x400000, 0x3, 0x0, 0x0, 0x0⟩ /- XSP_CTRL -/,
   ⟨0x1d0004, 1, 0x400000, 1, 0x400000, 1, 0x400000, 0x0, 0x100003, 0x0, 0x0⟩ /- XSP_STATUS -/,
   ⟨0x1d0008, 1, 0x400000, 1, 0x400000, 1, 0x400000, 0x3, 0x0, 0x0, 0x0⟩ /- XSP_IRQ_EN -/,
   ⟨0x1d000c, 1, 0x400000, 1, 0x400000, 1, 0x400000, 0xff1f0f, 0x0, 0x141404, 0x0⟩ /- XSP_CFG -/,
   ⟨0x1d0010, 1, 0x400000, 1, 0x400000, 1, 0x400000, 0x0, 0x8, 0x0, 0x0⟩ /- XSP_BOOT -/,
   ⟨0x1d0014, 1, 0x400000, 1, 0x400000, 1, 0x400000, 0xffffffff, 0x0, 0x0, 0x0⟩ /- XSP_BANK0_BASE -/,
   ⟨0x1d0018, 1, 0x400000, 1, 0x400000, 1, 0x400000, 0xffffffff, 0x0, 0x0, 0x0⟩ /- XSP_BANK1_BASE -/,
   ⟨0x1d001c, 1, 0x400000, 1, 0x400000, 1, 0x400000, 0xff00, 0x0, 0x400, 0x0⟩ /- XSP_CMD -/,
   ⟨0x1d0020, 1, 0x400000, 1, 0x400000, 1, 0x400000, 0xffffffff, 0x0, 0x0, 0x0⟩ /- XSP_CMD_ADDR -/,
   ⟨0x1d0024, 1, 0x400000, 1, 0x400000, 1, 0x400000, 0x0, 0x0, 0x0, 0x0⟩ /- XSP_CMD_DATA -/,
   ⟨0x1d0028, 1, 0x400000, 1, 0x400000, 1, 0x400000, 0x0, 0x0, 0x0, 0x0⟩ /- XSP_CNT_WRITES -/]

/-- Registers of block 30 (R18). -/
def rowsOf30 : List RegRow :=
  [⟨0x1e0000, 1, 0x400000, 1, 0x400000, 1, 0x400000, 0x7, 0x0, 0x0, 0x0⟩ /- CSM_CTRL -/,
   ⟨0x1e0004, 1, 0x400000, 1, 0x400000, 1, 0x400000, 0x0, 0x10000f, 0x0, 0x0⟩ /- CSM_STATUS -/,
   ⟨0x1e0008, 1, 0x400000, 1, 0x400000, 1, 0x400000, 0xf, 0x0, 0x0, 0x0⟩ /- CSM_IRQ_EN -/,
   ⟨0x1e000c, 1, 0x400000, 1, 0x400000, 1, 0x400000, 0x0, 0x0, 0x0, 0x0⟩ /- CSM_FIRST_UNIT -/,
   ⟨0x1e0010, 1, 0x400000, 1, 0x400000, 1, 0x400000, 0xffffffff, 0x0, 0x0, 0x0⟩ /- CSM_NVM_BASE -/,
   ⟨0x1e0014, 1, 0x400000, 1, 0x400000, 1, 0x400000, 0xff, 0x0, 0xa, 0x0⟩ /- CSM_AUTH_WAIT -/,
   ⟨0x1e0100, 1, 0x400000, 1, 0x400000, 16, 0x20, 0x80ff07ff, 0x0, 0x0, 0x0⟩ /- CSM_Uu_CFG -/,
   ⟨0x1e0104, 1, 0x400000, 1, 0x400000, 16, 0x20, 0x0, 0x0, 0x0, 0x0⟩ /- CSM_Uu_CTRL -/,
   ⟨0x1e0108, 1, 0x400000, 1, 0x400000, 16, 0x20, 0x0, 0x0, 0x0, 0x0⟩ /- CSM_Uu_STATE -/,
   ⟨0x1e010c, 1, 0x400000, 1, 0x400000, 16, 0x20, 0x0, 0x0, 0x0, 0x0⟩ /- CSM_Uu_UID_LO -/,
   ⟨0x1e0110, 1, 0x400000, 1, 0x400000, 16, 0x20, 0x0, 0x0, 0x0, 0x0⟩ /- CSM_Uu_UID_HI -/,
   ⟨0x1e0114, 1, 0x400000, 1, 0x400000, 16, 0x20, 0x0, 0x0, 0x0, 0x0⟩ /- CSM_Uu_COUNT -/,
   ⟨0x1e0118, 1, 0x400000, 1, 0x400000, 16, 0x20, 0x0, 0x0, 0x0, 0x0⟩ /- CSM_Uu_CELLS -/]

/-- Registers of block 31 (R18). -/
def rowsOf31 : List RegRow :=
  [⟨0x1f0000, 1, 0x400000, 1, 0x400000, 1, 0x400000, 0x0, 0x0, 0x0, 0x0⟩ /- PMX_CTRL -/,
   ⟨0x1f0004, 1, 0x400000, 1, 0x400000, 1, 0x400000, 0x0, 0x1000001, 0x0, 0x0⟩ /- PMX_STATUS -/,
   ⟨0x1f0008, 1, 0x400000, 1, 0x400000, 1, 0x400000, 0x1, 0x0, 0x0, 0x0⟩ /- PMX_IRQ_EN -/,
   ⟨0x1f0100, 1, 0x400000, 1, 0x400000, 256, 0x4, 0x80ffffff, 0x0, 0x0, 0x0⟩ /- PMX_CLAIMn -/,
   ⟨0x1f000c, 1, 0x400000, 1, 0x400000, 1, 0x400000, 0x0, 0xffffffff, 0x0, 0x0⟩ /- PMX_TMR_MISS -/,
   ⟨0x1f0010, 1, 0x400000, 1, 0x400000, 1, 0x400000, 0xffffffff, 0x0, 0x0, 0x0⟩ /- PMX_TMR_IRQ_EN -/,
   ⟨0x1f0800, 1, 0x400000, 1, 0x400000, 32, 0x20, 0x9, 0x0, 0x0, 0x0⟩ /- PMX_TMRt_CTRL -/,
   ⟨0x1f0804, 1, 0x400000, 1, 0x400000, 32, 0x20, 0xffffffff, 0x0, 0x0, 0x0⟩ /- PMX_TMRt_START_LO -/,
   ⟨0x1f0808, 1, 0x400000, 1, 0x400000, 32, 0x20, 0xffffffff, 0x0, 0x0, 0x0⟩ /- PMX_TMRt_START_HI -/,
   ⟨0x1f080c, 1, 0x400000, 1, 0x400000, 32, 0x20, 0xffffffff, 0x0, 0x0, 0x0⟩ /- PMX_TMRt_END_LO -/,
   ⟨0x1f0810, 1, 0x400000, 1, 0x400000, 32, 0x20, 0xffffffff, 0x0, 0x0, 0x0⟩ /- PMX_TMRt_END_HI -/,
   ⟨0x1f0814, 1, 0x400000, 1, 0x400000, 32, 0x20, 0xffffffff, 0x0, 0x0, 0x0⟩ /- PMX_TMRt_PERIOD -/,
   ⟨0x1f0818, 1, 0x400000, 1, 0x400000, 32, 0x20, 0x0, 0x0, 0x0, 0x0⟩ /- PMX_TMRt_CAP_LO -/,
   ⟨0x1f081c, 1, 0x400000, 1, 0x400000, 32, 0x20, 0x0, 0x0, 0x0, 0x0⟩ /- PMX_TMRt_CAP_HI -/]

/-- Registers of block 32 (R18). -/
def rowsOf32 : List RegRow :=
  [⟨0x200000, 1, 0x400000, 1, 0x400000, 1, 0x400000, 0x7, 0x0, 0x1, 0x0⟩ /- MGT_CTRL -/,
   ⟨0x200004, 1, 0x400000, 1, 0x400000, 1, 0x400000, 0x0, 0x100007, 0x0, 0x0⟩ /- MGT_STATUS -/,
   ⟨0x200008, 1, 0x400000, 1, 0x400000, 1, 0x400000, 0x7, 0x0, 0x0, 0x0⟩ /- MGT_IRQ_EN -/,
   ⟨0x20000c, 1, 0x400000, 1, 0x400000, 1, 0x400000, 0xff, 0x0, 0x0, 0x0⟩ /- MGT_SMB_CFG -/,
   ⟨0x200010, 1, 0x400000, 1, 0x400000, 1, 0x400000, 0x0, 0x0, 0x0, 0x0⟩ /- MGT_MISMATCH_INFO -/,
   ⟨0x200014, 1, 0x400000, 1, 0x400000, 1, 0x400000, 0x0, 0x0, 0x0, 0x0⟩ /- MGT_ALIVE -/,
   ⟨0x200018, 1, 0x400000, 1, 0x400000, 1, 0x400000, 0x1ffff, 0x0, 0x88, 0x0⟩ /- MGT_UART_CFG -/,
   ⟨0x20001c, 1, 0x400000, 1, 0x400000, 1, 0x400000, 0xff, 0x0, 0x0, 0x0⟩ /- MGT_UART_DATA -/,
   ⟨0x200040, 1, 0x400000, 1, 0x400000, 33, 0x4, 0xffffffff, 0x0, 0x0, 0x0⟩ /- MGT_SEVb -/,
   ⟨0x200100, 1, 0x400000, 1, 0x400000, 32, 0x4, 0x8000ff7f, 0x0, 0x0, 0x0⟩ /- MGT_PMB_MAPr -/,
   ⟨0x200200, 1, 0x400000, 1, 0x400000, 32, 0x8, 0x0, 0x0, 0x0, 0x0⟩ /- MGT_PMB_Rr_VI -/,
   ⟨0x200204, 1, 0x400000, 1, 0x400000, 32, 0x8, 0x0, 0x0, 0x0, 0x0⟩ /- MGT_PMB_Rr_ST -/,
   ⟨0x200400, 1, 0x400000, 1, 0x400000, 16, 0x4, 0x0, 0x0, 0x0, 0x0⟩ /- MGT_MIRRORw -/]

/-- The register rows of block `b`. The rows of a BTM block are shared by blocks 13 to 20. -/
def rowsOf (b : Nat) : List RegRow :=
  match b with
  | 0 => rowsOf0
  | 1 => rowsOf1
  | 2 => rowsOf2
  | 3 => rowsOf3
  | 4 => rowsOf4
  | 5 => rowsOf5
  | 6 => rowsOf6
  | 7 => rowsOf7
  | 8 => rowsOf8
  | 9 => rowsOf9
  | 10 => rowsOf10 ++ rowsOf10x1
  | 11 => rowsOf11 ++ rowsOf11x1
  | 12 => rowsOf12 ++ rowsOf12x1
  | 13 | 14 | 15 | 16 | 17 | 18 | 19 | 20 => rowsOf13 ++ rowsOf13x1
  | 21 => rowsOf21
  | 22 => rowsOf22
  | 23 => rowsOf23
  | 24 => rowsOf24 ++ rowsOf24x1
  | 25 => rowsOf25
  | 26 => rowsOf26 ++ rowsOf26x1
  | 27 => rowsOf27
  | 28 => rowsOf28
  | 29 => rowsOf29
  | 30 => rowsOf30
  | 31 => rowsOf31
  | 32 => rowsOf32
  | _ => []

end Sys2Proof.Machine
end

