-- ==== Sys2Proof/Machine/State.lean ====
section
/-! DEFINITION. The state of the device, as plain data: the control registers, the memories, and what the spec gives the machine
beside them, block by block. -/

namespace Sys2Proof.Machine

/-- Why the machine stops with a fault. No command of the table has such an effect: a core's access to an address that does not
exist raises the exceptions of R198, a control access the flags of R17 to R23, a DMA access the error of R142. Nobody raises a
fault, which is safe. -/
inductive Fault where
  deriving DecidableEq, Repr

/-- Why a command has no meaning. -/
inductive Refusal where
  /-- Raised by the dispatch alone, for a command that has no meaning in this model yet; safe: the machine stops. -/
  | notModelled (mnemonic : String)
  deriving DecidableEq, Repr

/-- A command sent by EMIT (R204): the block and unit it names, its `OP` and `OPERAND`, its effect time, the tick from which it may
take effect (its time, or the end of its lead if that is later, R208), its class, its tag with the sequence number (R205), and the core
and the clock of its EMIT (R207). -/
structure Cmd where
  block : Nat
  unit : Nat
  op : Nat
  operand : Nat
  time : Nat
  due : Nat
  irrev : Bool
  tag : Option (Nat × Nat)
  core : Nat
  issued : Nat
  deriving DecidableEq, Repr

/-- The open region of a core (R211). -/
structure Region where
  tag : Nat
  seq : Nat
  joined : Bool
  deriving DecidableEq, Repr

/-- An entry of a core's sheet-event queue (R220): outcome 0 COMMIT, 1 ABORT, 2 SPOIL. -/
structure ShEv where
  tag : Nat
  seq : Nat
  outcome : Nat
  reason : Nat
  deriving DecidableEq, Repr

/-- What a core waits for: WAITT (R203) until `t`, SAMPLE (R210) until `t`, a stalled EMIT, whose stall on a full hold queue has been
counted or not (R57, R207), or WFI. -/
inductive Wait where
  | none
  | waitt (rd : Fin 32) (t issued : Nat)
  | sample (rd : Fin 32) (t sel : Nat)
  | emit (irrev : Bool) (rd ra rb : Fin 32) (counted : Bool)
  | wfi
  deriving DecidableEq, Repr

/-- One Novdon core: its general registers, pc and core registers (R193, R221), its region, its queues and what it waits for. -/
structure CoreX where
  x : Vector Word 32 := Vector.replicate 32 0
  pc : Nat := 0
  ie : Bool := false
  krn : Bool := true
  hdl : Bool := false
  absent : Bool := false
  epc : Nat := 0
  causeCode : Nat := 0
  causeDetail : Nat := 0
  causeInt : Bool := false
  tval : Word := 0
  vbase : Nat := 0
  ien : Nat := 0
  doorbell : Bool := false
  tcmp : Nat := 0
  region : Option Region := none
  shev : List ShEv := []
  shevLost : Bool := false
  savedIe : Bool := false
  savedKrn : Bool := false
  scratch : Vector RegWord 4 := Vector.replicate 4 0
  wait : Wait := .none
  halted : Bool := false
  /-- Posted control writes not yet in effect, oldest first (R20): offset in the control window and value. -/
  posted : List (Nat × RegWord) := []
  deriving DecidableEq, Repr

/-- A diverter pulse (R53, R54, R64): the sheet's tag, and once the output is driven, which of PURGEk or SPOILk it is and the tick at which
its drive ends. -/
structure Pulse where
  tag : Nat
  drive : Option (Nat × Nat)
  deriving DecidableEq, Repr

/-- What PSQ keeps of one sheet beside its registers: the code of the first precondition that failed at the last tick at which they
were evaluated (R51), and whether the sheet became a spoil after its spoil decision point (R64). -/
structure SheetX where
  lastFail : Nat := 0
  lateSpoil : Bool := false
  deriving DecidableEq, Repr

/-- What the device keeps of one page beside its registers: the host's identifier and job (R82, R335), and what the admission test
took from the descriptor and reserved (R82, R86 to R90). -/
structure PageX where
  hostId : Nat := 0
  job : Nat := 0
  mismatch : Bool := false
  checking : Bool := false
  pinned : Bool := false
  speed : Nat := 0
  deriving DecidableEq, Repr

/-- The page sequencer beside its registers (R42 to R75): its sheets, the hold queue (R57), the pulses, whether the present Gap
has been opened, the clock in which a drive was lost, while that awaits the next tick (R66, R70), and the clock of its last action with the
place of that action in the order of a tick (R214). -/
structure PsqX where
  sheet : Vector SheetX 64 := Vector.replicate 64 {}
  page : Vector PageX 256 := Vector.replicate 256 {}
  hold : List Cmd := []
  purges : List Pulse := []
  spoils : List Pulse := []
  gapOpen : Bool := true
  driveLost : Option Nat := none
  actAt : Nat := 0
  actRank : Nat := 0
  deriving DecidableEq, Repr

/-- A journal entry (R335); its `CRC` and its copy and hold-up flags are added when it is written. -/
structure JrnEntry where
  seq : Nat
  kind : Nat
  flags : Nat
  time : Nat
  boot : Nat
  qp : Nat
  cmdId : Nat
  opcode : Nat
  reason : Nat
  job : Nat
  sheetSeq : Nat
  hostId : Nat
  args : Nat
  origin : Nat
  deriving DecidableEq, Repr

/-- A completion (R326, R328, R331): the queue pair, the command's number, `SQ_HEAD` after it, status, whether it is durable and
mirrored, the entry's sequence number, the result and the sheet sequence number. -/
structure Cpl where
  qp : Nat
  cmdId : Nat
  sqHead : Nat
  status : Nat := 0
  durable : Bool := false
  mirrored : Bool := false
  jseq : Nat := 0
  result : Nat := 0
  sheetSeq : Nat := 0
  deriving DecidableEq, Repr

/-- The journal beside its registers (R331 to R346): the entries waiting in the DRAM ring and those kept there after they reached
NVM, the first dropped entry and the number dropped since the last RING_LOSS, the entries the mate has not acknowledged, each with the
clock by which it is to, whether the mate is silent, the jobs that are closed, and the completions that wait. -/
structure JrnX where
  ring : List JrnEntry := []
  kept : List JrnEntry := []
  lostFirst : Nat := 0
  lostCount : Nat := 0
  unacked : List (Nat × JrnEntry) := []
  mateLost : Bool := false
  closedJobs : List Nat := []
  waiting : List Cpl := []
  scanned : Bool := false
  /-- Entries raised before the scan has given the next number, and entries raised in a thermal hold-up (R337, R339). -/
  prescan : List JrnEntry := []
  night : List JrnEntry := []
  /-- Entries of the mate that wait for their mirror write: the device that sent them, the tag and the 64 bytes (R346). -/
  mirror : List (Nat × Nat × List Byte) := []
  deriving DecidableEq, Repr

/-- A Vesper record (R385), without the copy flag and the CRC, which are added when it is written. -/
structure VspRec where
  code : Nat
  flags : Nat
  src : Nat
  seconds : Nat
  boot : Nat
  subsec : Nat
  p0 : Nat
  p1 : Nat
  p2 : Nat
  p3 : Nat
  deriving DecidableEq, Repr

/-- Vesper beside its registers (R386 to R390): the DRAM ring, the records dropped since record 0x0002, the raise registers of each
core (R24), whether the power-on scan is done, and the slot of the read under way (R390). -/
structure VspX where
  ring : List VspRec := []
  lostSince : Nat := 0
  raiseCode : Vector Nat 15 := Vector.replicate 15 0
  raiseP : Vector (Vector Nat 4) 15 := Vector.replicate 15 (Vector.replicate 4 0)
  scanned : Bool := false
  readSlot : Nat := 0
  deriving DecidableEq, Repr

/-- The finisher handshake (R409): the frames queued, the frame count, the clock at which the last bit of the frame on the
wire is sent, and the clock at which FIN_REL and FIN_SPOIL fall. -/
structure FinX where
  queue : List (List Byte) := []
  count : Nat := 0
  frameEnd : Option Nat := none
  relUntil : Option Nat := none
  spoil : Bool := false
  deriving DecidableEq, Repr

/-- An entry of the late-error queue (R369). -/
structure LateErr where
  tag : Nat
  src : Nat
  code : Nat
  addr : Nat
  deriving DecidableEq, Repr

/-- An entry of the fabric event queue (R371). -/
structure FabEvent where
  src : Nat
  seq : Nat
  tag : Nat
  code : Nat
  spec : Nat
  deriving DecidableEq, Repr

/-- An entry of the peer outcome table (R371): the outcome code of a sheet of another device, and the tick from which PSQ sees it. -/
structure PeerOutcome where
  dev : Nat
  seq : Nat
  code : Nat
  from_ : Nat
  deriving DecidableEq, Repr

/-- A device known to the discovery of this fabric (R360): its EUI and the id it holds. -/
structure FabDevice where
  eui : Nat
  id : Nat
  deriving DecidableEq, Repr

/-- A remote read that waits for its answer (R357, R370): its tag, home and Plain address, its length, and when it times out. -/
structure FabRead where
  tag : Nat
  home : Nat
  addr : Nat
  len : Nat
  until_ : Nat
  deriving DecidableEq, Repr

/-- The fabric beside its registers (R353 to R374): messages queued at the ports and those that have left, the late-error and event
queues, the peer outcomes, oldest first, the known devices, the reads that wait and those that timed out, the messages that wait at this
home for data, the floods already passed on, the routes that the neighbours advertise (port, destination, hops), the runs of offsets
inside and outside the lock band, the tick of the last SYNC and whether a master is known, per port the frame last replayed and how often,
and the stamp of a DELAY_REQ under way. -/
structure FabX where
  tx : List (Nat × FabMsg) := []
  out : List (Nat × FabMsg) := []
  leq : List LateErr := []
  evq : List FabEvent := []
  peers : List PeerOutcome := []
  devices : List FabDevice := []
  reads : List FabRead := []
  timedOut : List FabRead := []
  waitIn : List FabMsg := []
  floods : List Nat := []
  adv : List (Nat × Nat × Nat) := []
  inBand : Nat := 0
  outBand : Nat := 0
  lastSync : Nat := 0
  syncTime : Nat := 0
  masterKnown : Bool := false
  replayFrame : Vector (Option Nat) 8 := Vector.replicate 8 none
  replays : Vector Nat 8 := Vector.replicate 8 0
  delayReq : Vector (Option Nat) 8 := Vector.replicate 8 none
  /-- Per port the frame that last failed its CRC here, how often, and the EUI of the neighbour. -/
  rxFrame : Vector (Option Nat) 8 := Vector.replicate 8 none
  rxFails : Vector Nat 8 := Vector.replicate 8 0
  peerEui : Vector (Option Nat) 8 := Vector.replicate 8 none
  /-- Per port the codewords that the FEC has corrected (R375). -/
  fec : Vector RegWord 8 := Vector.replicate 8 0
  /-- The floods this device has begun, and whether a root of lower EUI has been heard (R360). -/
  floodsSent : Nat := 0
  demoted : Bool := false
  deriving DecidableEq, Repr

/-- A FW_STAGE operation in progress (R345): a WRITE with its bytes' place and source and the completion that waits, or a VERIFY with
the command that asked for it. -/
inductive FwOp where
  | write (offset len src : Nat) (cpl : Cpl)
  | verify (cpl : Cpl) (entry : JrnEntry)
  deriving DecidableEq, Repr

/-- The host endpoint beside its registers (R325 to R332, R345): the link, for each queue pair the CQ tail and phase, the completions
that wait for room in their CQ, the queue pair whose turn it is, the MSI-X vectors sent, oldest first, and the firmware operation in
progress. -/
structure HstX where
  linkUp : Bool := false
  cqTail : Vector Nat 64 := Vector.replicate 64 0
  phase : Vector Bool 64 := Vector.replicate 64 true
  ready : List Cpl := []
  turn : Nat := 0
  msix : List Nat := []
  fw : Option FwOp := none
  deriving DecidableEq, Repr

/-- Whose NVM write the xSPI controller carries out (R348): an entry of this device, one of the mate with the device that sent it and its
tag, a Vesper record, or an increment of consumable unit `u`. -/
inductive XspClient where
  | own (e : JrnEntry)
  | mate (src tag : Nat) (b : List Byte)
  | record (r : VspRec)
  | cell (u : Nat)
  deriving DecidableEq, Repr

/-- An NVM write in progress: its client, and the address and bytes of each program operation, in their order (R336, R387, R320). -/
structure XspJob where
  client : XspClient
  writes : List (Nat × List Byte)
  deriving DecidableEq, Repr

/-- The xSPI controller beside its registers (R296, R348, R349): whether the next transaction is the first since the device left EVENING
(erratum A0-10), and the NVM write in progress. -/
structure XspX where
  first : Bool := false
  job : Option XspJob := none
  deriving DecidableEq, Repr

/-- A resource held since the last claim commit (R36): its kind and index, the feature and instance that holds it, the entry, and the clock
from which a feature that is new to its balls drives and hears them (R401). -/
structure Grant where
  kind : Nat
  index : Nat
  func : Nat
  user : Nat
  entry : Nat
  liveAt : Nat := 0
  deriving DecidableEq, Repr

/-- PMX beside its registers: the resources held, the entries denied since `CLAIM_DENIED` was last clear, and for each armed timer its working `START`, `END` and
`PERIOD`, the tick it was armed at, and whether its present window has caught its edge (R37). -/
structure PmxX where
  grants : List Grant := []
  denied : List Nat := []
  start : Vector Nat 32 := Vector.replicate 32 0
  stop : Vector Nat 32 := Vector.replicate 32 0
  period : Vector Nat 32 := Vector.replicate 32 0
  armedAt : Vector Nat 32 := Vector.replicate 32 0
  caught : Vector Bool 32 := Vector.replicate 32 false
  deriving DecidableEq, Repr

/-- A granule of another home's data held here (R91): its Plain address, whether it is OWNED, the pages that pin it, and its 4 KiB. -/
structure Granule where
  addr : Nat
  owned : Bool
  dirty : Bool
  pins : List Nat
  data : List Byte
  deriving DecidableEq, Repr

/-- An entry of the home's tracking directory (R91, R95): a granule of this device, the devices that hold it shared, the one that
owns it, and the devices whose pages pin it. -/
structure DirEntry where
  addr : Nat
  sharers : List Nat
  owner : Option Nat
  pinners : List Nat
  deriving DecidableEq, Repr

/-- A SNOOP that waits at the home for recalled copies (R91, R94): the requester and its tag, the granule, the intent, and the devices
whose answer is still due. -/
structure Recall where
  req : Nat
  tag : Nat
  addr : Nat
  intentO : Bool
  due : List Nat
  deriving DecidableEq, Repr

/-- The Plain engine beside its registers (R76 to R99): the frames in load order with their extents, the loads that wait for a
frame, the extents being written back to be evicted and to be flushed, the NVMe Flush commands issued, the page under test and the pages
whose admission found an extent missing, the extents each page pins, the remote granules held, the SNOOPs sent, the directory, the
recalls that wait, and the granules whose EVICT was answered ABSENT. -/
structure PlainX where
  frames : List (Nat × Nat) := []
  waitLoads : List Nat := []
  evicting : List Nat := []
  flushing : List Nat := []
  nvmeFlushes : Nat := 0
  admission : Option Nat := none
  waitingOn : List (Nat × Nat) := []
  pinExt : List (Nat × Nat) := []
  rcache : List Granule := []
  /-- UNCACHED granules that serve one DMA read (R91). -/
  uncached : List Granule := []
  snoops : List (Nat × Bool) := []
  dir : List DirEntry := []
  recalls : List Recall := []
  evictRetry : List Nat := []
  /-- OWNED granules sent home by an EVICT that has not been refused. -/
  evicted : List Granule := []
  deriving DecidableEq, Repr

/-- A stream entry (R122): page, tag and sequence number of its sheet, prefetch time, and whether its fetch has started. -/
structure StrEntry where
  page : Nat
  tag : Nat
  seq : Nat
  time : Nat
  started : Bool
  deriving DecidableEq, Repr

/-- What a burst carries: the band's table entry, a part of its slots, or a part of its raw tiles (R123). -/
inductive BurstKind where
  | table
  | slots
  | raw
  deriving DecidableEq, Repr

/-- A burst of 4 KiB (R123): what it carries, its Plain address, and whether its entry has not been withdrawn or retired (R130). -/
structure Burst where
  kind : BurstKind
  addr : Nat
  live : Bool
  deriving DecidableEq, Repr

/-- A raw slot entered in the raw index (R123): its pointer, tile row, column and CRC-32C, and its `FLUSH` bit. -/
structure RawSlot where
  ptr : Nat
  row : Nat
  col : Nat
  crc : Nat
  flush : Bool
  deriving DecidableEq, Repr

/-- A fill in progress (R123, R125, R129): its band, whether it is end padding, the bursts of its two passes not yet issued, the number of
the present pass not yet consumed, the band's `OVF_FIRST` and `OVF_COUNT`, the raw index, and the clock in which its last line write was
accepted. -/
structure Fill where
  band : Nat
  pad : Bool
  todo : List Burst
  left : Nat
  pass2 : Bool
  tableBad : Bool
  first : Nat
  count : Nat
  rawIndex : List RawSlot
  doneAt : Option Nat
  deriving DecidableEq, Repr

/-- A landed burst that the streamer has not consumed (R119, R124): its place in the staging ring, and whether it failed (R131). -/
structure Landed where
  burst : Burst
  place : Nat
  failed : Bool
  deriving DecidableEq, Repr

/-- A tile in the decoders whose check will fail (R115, R117): the mismatch's kind, the tile's row and column, its page and tag, and the
clock in which its entry left the queue, if it has. -/
structure BadTile where
  kind : Nat
  row : Nat
  col : Nat
  page : Nat
  tag : Nat
  goneAt : Option Nat := none
  deriving DecidableEq, Repr

/-- The streamer and the decoders of one station (R115 to R131): the queue, the next band to fill, the fill in progress, the bursts in
flight, the staging ring, oldest first, with its next place, the clock of the last burst, the band each half holds, the bands of the
head entry that BTMk has released, the failing tiles in the decoders, and whether the station was fenced when last looked at. -/
structure StrX where
  queue : List StrEntry := []
  next : Nat := 0
  fill : Option Fill := none
  flight : List Burst := []
  ring : List Landed := []
  ringNext : Nat := 0
  lastIssue : Option Nat := none
  bandOf : Vector Nat 2 := Vector.replicate 2 0
  released : Nat := 0
  bad : List BadTile := []
  fenced : Bool := true
  deriving DecidableEq, Repr

/-- The counts of Vale memory that grow by what this model does not hold (R132, R134, R145): corrected errors, and for each master the
ticks in which it waited. -/
structure ValeX where
  corr : RegWord := 0
  waits : Vector RegWord 16 := Vector.replicate 16 0
  deriving DecidableEq, Repr

/-- An entry of the mismatch queue (R117, R118). -/
structure Mismatch where
  path : Nat
  station : Nat
  kind : Nat
  page : Nat
  sheet : Nat
  committed : Bool
  column : Nat
  row : Nat
  deriving DecidableEq, Repr

/-- The job of a compressor lane as `GO` latched it (R109). -/
structure LaneJob where
  srcKind : Nat
  src : Nat
  stride : Nat
  width : Nat
  firstBand : Nat
  lines : Nat
  slotBase : Nat
  ovfBase : Nat
  bandBase : Nat
  index : Nat
  /-- The lines received when `FLUSH` was written (R111). -/
  flushAt : Option Nat
  deriving DecidableEq, Repr

/-- The job of a DMA channel as `GO` latched it (R138), and how far it has come (R140, R142): the 4 KiB blocks and the bytes moved, the
first difference and the number of differing 64-byte blocks (R139), the clock in which its last block completed, and whether it has lost
a claim. -/
structure DmaJob where
  mode : Nat
  srcKind : Nat
  dstKind : Nat
  src : Nat
  dst : Nat
  len : Nat
  fill : Nat
  done : Nat := 0
  bytes : Nat := 0
  diff : Option Nat := none
  diffs : Nat := 0
  doneAt : Option Nat := none
  lost : Bool := false
  deriving DecidableEq, Repr

/-- The settings of BTM that are applied at a Gap (R167): `BTM_DOT_PERIOD`, `BTM_LINE_OFS` and the word of `BTM_FACET_CFG`. -/
structure BtmSet where
  period : Nat := 0x01295AF5
  ofs : Nat := 0x800
  cfg : Nat := 0x220028
  deriving DecidableEq, Repr

/-- The settings of BTM that are applied at the next SOS window (R167). -/
structure BtmWin where
  period : Nat := 0xA55D5
  half : Nat := 0xBB8
  eos : Nat := 0x7530
  deriving DecidableEq, Repr

/-- What a facet's edges are computed from (R156): the start L0 in taps (the SOS, `BTM_LINE_OFS` and `FOFS`), `P`, and the merge and
minimum settings. -/
structure FacetBase where
  start : Int := 0
  p : Int := 0
  merge : Nat := 0
  minPulse : Nat := 0
  deriving DecidableEq, Repr

/-- A page exposure of a station (R170, R171): page, tag, sequence number, effect time, the band of the present facet, and whether its
first SOS has come. -/
structure Exposure where
  page : Nat
  tag : Nat
  seq : Nat
  effect : Nat
  band : Nat
  begun : Bool
  deriving DecidableEq, Repr

/-- One beam timing block beside its registers (R148 to R173): the settings applied, those of the present facet and those of the SOS
window, the last SOS in taps and whether it was captured, the last capture (R210), the open SOS window with its predicted SOS in taps and
its closing tick, until when the sync beam stays lit after a capture, the runs of misses and captures, the facet number to assign, the
end of dot 51,023 of the present facet, the end of the EOS window and the last EOS capture, and the exposures: the page's, and the number
of facets that the calibration exposure has lit. -/
structure BtmX where
  /-- Reset not yet ended by a lock of the station DLL (R96). -/
  inReset : Bool := true
  app : BtmSet := {}
  cur : BtmSet := {}
  win : BtmWin := {}
  sos : Option Nat := none
  captured : Bool := false
  sosCap : Nat := 0
  open_ : Option (Nat × Nat) := none
  syncUntil : Nat := 0
  misses : Nat := 0
  caps : Nat := 0
  numbered : Bool := false
  idxArm : Option Nat := none
  imageEnd : Option Nat := none
  eosUntil : Option Nat := none
  eosAt : Option Nat := none
  exp : Option Exposure := none
  cal : Option Nat := none
  calNext : Bool := false
  /-- The last SOS in taps, as `BTM_SOS_LO` gives it, and `BTM_SOS_HI` as latched for each master (R176). -/
  sosLast : Nat := 0
  sosHi : Vector RegWord 15 := Vector.replicate 15 0
  /-- The present facet: what its edges are computed from, and the tick of its first dot 0, at which its lines are read, while that is
  to come (R156, R177). -/
  base : FacetBase := {}
  dotsAt : Option Nat := none
  /-- The copy of the tables and the mask set that the present facet started with (R168, R182). -/
  copy : Nat := 0
  set : Nat := 0
  /-- The pulses of the beams, with their rising and falling edges in taps of Meridian, and the pulses that are dropped, with the time of
  each, not yet counted (R156, R157, R161). -/
  pulses : List (Nat × Int × Int) := []
  drops : List (Nat × Int) := []
  deriving DecidableEq, Repr

/-- The laser safety interlock (R174, R175): the levels of its inputs, since when both have been high, whether it is latched active
and whether they disagreed. -/
structure LsiX where
  in0 : Bool := false
  in1 : Bool := false
  highSince : Option Nat := none
  active : Bool := true
  disagree : Bool := false
  deriving DecidableEq, Repr

/-- A beam test that runs (R185): the beam and where its window opens and closes, in taps of Meridian. -/
structure BeamTest where
  beam : Nat
  opens : Nat
  closes : Nat
  deriving DecidableEq, Repr

/-- A beam-power measurement as `GO` latched it (R189). -/
structure PowerJob where
  cal : Bool
  dark : Bool
  beam : Nat
  avg : Nat
  delay : Nat
  ticks : Nat
  deriving DecidableEq, Repr

/-- The BMK of one station beside its registers (R183 to R190): the facets since the start point, a test that is due, the beam after
which the rotation goes on, the test that runs, the beam that a passed test leaves lit and until when; the clock in which a mask set was
last written or switched, with the outgoing set and the words overwritten; and the power measurement, its facet values, its run of skips
and whether the present facet is settled. -/
structure BmkX where
  facets : Nat := 0
  due : Bool := false
  last : Option Nat := none
  test : Option BeamTest := none
  lit : Option (Nat × Nat) := none
  setAt : Nat := 0
  outgoing : Option Nat := none
  wrote : List (Nat × RegWord) := []
  job : Option PowerJob := none
  values : List Nat := []
  skipRun : Nat := 0
  facetDone : Bool := false
  deriving DecidableEq, Repr

/-- The start parameters of a BLDC channel, read at each START (R240). -/
structure BldStart where
  alignDuty : Nat := 0
  alignMs : Nat := 0
  rampDuty : Nat := 0
  f0 : Nat := 0
  rate : Nat := 0
  hoHz : Nat := 0
  hoN : Nat := 0
  quietMs : Nat := 0
  timeoutMs : Nat := 0
  deriving DecidableEq, Repr

/-- One BLDC channel beside its registers (R225 to R239): the start parameters; the tick at which its present state began; its last
crossing with the sector that it names, the last sector period and the times of its last crossings, newest first; the tick of the next
commutation, whether a prediction set it, and the tick of the last commutation; whether a valid sample showed no crossing since; the run
of good crossings in RAMP; the duty at which the speed limit holds it. Of its PWM: the clock at which the present period began, the
period in force in RUN, the loop output that it took, whether its on-time is skipped and whether its sample is taken; the run of skipped
samples; the clock of a commutation under way. Of the present peripheral clock: a loss of synchronism, a handover, a driver fault. Then the
fault input, low for more than 1 µs. -/
structure BldX where
  prm : BldStart := {}
  since : Nat := 0
  cross : Option Nat := none
  crossSec : Nat := 0
  sector : Nat := 0
  times : List Nat := []
  commAt : Option Nat := none
  predicted : Bool := false
  commLast : Nat := 0
  unseen : Bool := false
  good : Nat := 0
  cap : Option Nat := none
  pwmAt : Nat := 0
  period : Nat := 0
  loopY : Nat := 0
  short : Bool := false
  sampled : Bool := false
  skips : Nat := 0
  turned : Option Nat := none
  lost : Bool := false
  joined : Bool := false
  faulted : Bool := false
  flt : Bool := false
  deriving DecidableEq, Repr

/-- The parameters of a move, read when it is accepted (R249, R256). -/
structure StpParams where
  vstart : Nat
  v1 : Nat
  vmax : Nat
  vstop : Nat
  acc1 : Nat
  acc2 : Nat
  deriving DecidableEq, Repr

/-- The move of a stepper channel (R248, R250): its parameters, its target, its direction, the speed in 10^-6 of 1/16 full step/s, the
way not yet stepped in 4 × 10^-15 of 1/256 full step, and the resolution that waits for its first position. -/
structure StpMove where
  prm : StpParams
  target : Nat
  back : Bool
  speed : Nat
  way : Nat
  want : Nat
  deriving DecidableEq, Repr

/-- What a stepper channel held before the first command that it accepted in the present peripheral clock: `STATE`, the target and the moves
counted (R255). -/
structure StpBefore where
  state : Nat
  target : Nat
  moves : Nat
  deriving DecidableEq, Repr

/-- One stepper channel beside its registers: its move, the target written last and the clock of the next profile update (R250); the clock
at which its PWM period began and whether each winding's on-time is skipped (R243, R244); for each winding whether it is driven, the clock
at which that began or ended, the chopper cycles sampled and those that fell above the target (R245, R246); of the present peripheral
clock the commands accepted, what stood before them, and a fault or claim loss (R255); and the fault input, low for more than 1 µs. -/
structure StpX where
  move : Option StpMove := none
  written : Nat := 0
  nextAt : Nat := 0
  pwmAt : Nat := 0
  short : Vector Bool 2 := Vector.replicate 2 false
  drive : Vector Bool 2 := Vector.replicate 2 true
  turnedAt : Vector Nat 2 := Vector.replicate 2 0
  cycles : Vector Nat 2 := Vector.replicate 2 0
  above : Vector Nat 2 := Vector.replicate 2 0
  taken : Nat := 0
  before : Option StpBefore := none
  faulted : Bool := false
  flt : Bool := false
  deriving DecidableEq, Repr

/-- A loop slot beside its registers (R257 to R266): the samples of the history, newest first (at most 16), the error of its last
computation, the encoder count at its last sample, the runs of samples in and out of the lock band, and the last frame in which it
was sampled. -/
structure SlotX where
  hist : List Int := []
  ePrev : Option Int := none
  encPrev : Option Int := none
  inRun : Nat := 0
  outRun : Nat := 0
  sampled : Option Nat := none
  deriving DecidableEq, Repr

/-- The result of one computation of the loop arithmetic (R261, R263). -/
structure Loop where
  pf : Int
  e : Int
  y : Nat
  sat : Bool
  policy : Bool
  integ : Int
  deriving DecidableEq, Repr

/-- The computation that the arithmetic unit works on: its slot, its sample instant, the clock at which it ends, and its result (R259, R261). -/
structure LoopRun where
  slot : Nat
  from_ : Nat
  stop : Nat
  res : Loop
  deriving DecidableEq, Repr

/-- A loop output's PWM: the clock at which its present period began and the output that it took (R270). -/
structure LpoX where
  since : Nat := 0
  y : Nat := 0
  deriving DecidableEq, Repr

/-- The Prairie engine beside its registers: its slots, the computations that wait (slot, clock of the sample instant), the one that runs
and the clock from which the unit is free (R259), the slots whose due exchange waits for their computation (R269); the frame number of 64
bits (none until the main PLL has locked, R257) and the clock at which the frame started, the due slots of the present frame; the next
sequence entry of each converter (R272), the end of the latest conversion of each analog input (R210), the bank that each converter is to
take at the next frame start (R274), the trim in effect there (`OFS` and `GAIN`, R275); and the loop outputs. -/
structure PraX where
  slot : Vector SlotX 128 := Vector.replicate 128 {}
  queue : List (Nat × Nat) := []
  run : Option LoopRun := none
  freeAt : Nat := 0
  swapWait : List Nat := []
  frame : Option Nat := none
  frameAt : Nat := 0
  due : Nat := 0
  conv : Vector Nat 4 := Vector.replicate 4 0
  ask : Vector (Option Nat) 4 := Vector.replicate 4 none
  convEnd : Vector Nat 96 := Vector.replicate 96 0
  trim : Vector (Int × Nat) 4 := Vector.replicate 4 (0, 0x4000)
  lpo : Vector LpoX 48 := Vector.replicate 48 {}
  deriving DecidableEq, Repr

/-- The sheet sensor inputs SS00 to SS63 after their filters and the quadrature encoders QE00 to QE15 (R210): the level, the last edge
with its direction, and the signed counts. -/
structure SenseX where
  level : Vector Bool 64 := Vector.replicate 64 false
  edge : Vector Nat 64 := Vector.replicate 64 0
  rising : Vector Bool 64 := Vector.replicate 64 false
  enc : Vector Word 16 := Vector.replicate 16 0
  deriving DecidableEq, Repr

/-- What a rail under RETRY waits for (R285): nothing, the end of `RETRY_MS` with its EN low, or power-good with its EN high. -/
inductive Retry where
  | none
  | off
  | up
  deriving DecidableEq, Repr

/-- A rail of the supervisor beside its registers (R279 to R285): supervision runs, the last trimmed scan reading, the consecutive
readings outside the limits, and the RETRY reaction with the failed attempts and the clock at which its timer ends; and
the side on which a rail that a fault has found outside its window still lies, above it or not (R377). -/
structure RailX where
  sup : Bool := false
  code : Nat := 0
  run : Nat := 0
  retry : Retry := .none
  tries : Nat := 0
  due : Nat := 0
  out : Option Bool := none
  deriving DecidableEq, Repr

/-- The supervisor beside its registers (R279 to R287): its rails; whether the present up step has driven its EN and waits for
power-good; the clocks at which the present step's delay and its power-good timeout, or the wait for NVM, end; whether the present
down sequence has begun; whether the sequence covers the `EVE_OFF` rails only; and whether a RESET
reaction runs, which brings the rails up after the down sequence and then resets the system. -/
structure PwrX where
  rail : Vector RailX 32 := Vector.replicate 32 {}
  wait : Bool := false
  due : Nat := 0
  limit : Nat := 0
  begun : Bool := false
  eve : Bool := false
  reset : Bool := false
  deriving DecidableEq, Repr

/-- The thermal model beside its registers (R291 to R297): the unbroken runs of updates that meet the set and the clear condition of
throttle and dusk, the set condition of night, and the range of the NVM window; the clock of the last write to `THM_PMEAS`; the
tenths of a millisecond of throttling not yet counted; and whether a diode calibration runs. -/
structure ThmX where
  throtSet : Nat := 0
  throtClr : Nat := 0
  duskSet : Nat := 0
  duskClr : Nat := 0
  night : Nat := 0
  nvm : Nat := 0
  pmeasAt : Nat := 0
  tenths : Nat := 0
  cal : Bool := false
  deriving DecidableEq, Repr

/-- The consumable block beside its registers (R318): how often the entropy source was drawn from, the draw that gave each unit its
challenge, and the clock from which its response is read. -/
structure CsmX where
  draws : Nat := 0
  drawn : Vector Nat 16 := Vector.replicate 16 0
  replyAt : Vector Nat 16 := Vector.replicate 16 0
  deriving DecidableEq, Repr

/-- The performance counters beside their registers (R391 to R396): the events of the present tick, by event × 256 + index, the counters
that take no further increment in it, and the next dump sequence number. -/
structure PmcX where
  events : List (Nat × Nat) := []
  done : List Nat := []
  seq : Nat := 0
  deriving DecidableEq, Repr

/-- What the UART's hardware responder sends (R382): the value of a register as eight hex digits, or `?`; each with CR/LF. -/
inductive UartLine where
  | value (w : RegWord)
  | unknown
  deriving DecidableEq, Repr

/-- The management path beside its registers (R381 to R384): the last answer to an SMBus call (none: a byte count of 0); the bytes
received for N11, those in the transmit FIFO and when the one on the wire ends, those sent, and the lines the responder sent; and for
each rail whether it was polled since it was last compared, and the disagreements of that comparison (bit 0 enable, bit 1 power-good). -/
structure MgtX where
  smb : Option (Option RegWord) := none
  uartRx : List Byte := []
  uartTx : List Byte := []
  txEnd : Nat := 0
  uartSent : List Byte := []
  uartLines : List UartLine := []
  fresh : Vector Bool 32 := Vector.replicate 32 false
  differs : Vector Nat 32 := Vector.replicate 32 0
  deriving DecidableEq, Repr

/-- What lives in the always-on domain or in OTP, fuses, straps and pins (R2, R3, R38, R298, R410 to R413). -/
structure AonX where
  /-- The always-on supply is good. -/
  power : Bool := true
  /-- The station fuses: stations S4 to S7 removed (R3). -/
  fuse4 : Bool := false
  /-- The NVMe namespaces attached whose LBA format is not 4,096 bytes (R80). -/
  otherLba : List Nat := []
  /-- OTP: AUTO_DAWN (R38), the wake phrase (R411), and the register words that a reset loads from OTP, by offset. -/
  otpAutoDawn : Bool := false
  otpWakePhrase : Nat := 0
  otpRegs : List (Nat × RegWord) := []
  otpEui : Nat := 0
  otpReqId : Nat := 0
  otpReqValid : Bool := false
  otpKeyHash : Nat := 0
  /-- OTP: the keys of the consumable authentication, by key slot (R317). -/
  otpKeys : List (Nat × Nat) := []
  strapRoot : Bool := false
  strapBif : Bool := false
  /-- A thermal hold-up runs (R298), and a wake phrase completed in it (R413). -/
  holdUp : Bool := false
  wakeAtEnd : Bool := false
  /-- The boot bank held in NVM (R344). -/
  nvmBootBank : Nat := 0
  deriving DecidableEq, Repr

/-- The clocks at which what comes at fixed times comes next: the update of the thermal model (R290), the end of a diode calibration
(R292), the application of a calibration bank (R309), a step of ALIVE (R380), the mirror (R384), a PMBus slot (R383), an operating second
(R386), a counter dump (R396), a bandwidth window (R395), SYNC and the delay measurement (R372), the repeat of an EVICT (R98), the end of
a thermal hold-up (R298), and the 100 ms after which each port runs on one lane (R354). -/
structure DueX where
  model : Nat := 0
  diode : Nat := 0
  cal : Nat := 0
  alive : Nat := 1500000
  mirror : Nat := 0
  pmbus : Nat := 0
  second : Nat := 3000000000
  dump : Nat := 0
  window : Nat := 0
  sync : Nat := 0
  delay : Nat := 0
  evict : Nat := 0
  hold : Nat := 0
  lane : Vector Nat 8 := Vector.replicate 8 0
  deriving DecidableEq, Repr

/-- The state of the device. Registers the spec's tables name stand in `regs`, by offset in the control window, in canonical form
against their reset words; what else the spec gives the machine stands beside them. -/
structure State where
  regs : List (Nat × RegWord) := []
  /-- Meridian (R27). -/
  meridian : Nat := 0
  /-- The periods of the core clock that have passed, and what of them had passed when the main PLL last locked (R7, R26, R299): unlike
  Meridian, neither a slew nor a step moves them. -/
  clock : Nat := 0
  lockAt : Nat := 0
  /-- The clocks since the slew in progress began or last changed a tick (R28). -/
  slewRun : Nat := 0
  /-- For each status register, the clock of its block's domain in which `FIRST` last took a source (R376). -/
  firstAt : List (Nat × Nat) := []
  /-- The memories of the local bus (R18), and the times the on-die memories and the DRAM lost their contents (R419). -/
  mem : List Host.Cell := []
  dieEpoch : Nat := 0
  dramEpoch : Nat := 0
  /-- Addresses at which a memory holds an uncorrectable error (R131, R134, R136, R198). -/
  badAt : List Nat := []
  nvm : List Host.Cell := []
  nvme : List Host.Cell := []
  hostMem : List Host.Cell := []
  aon : AonX := {}
  /-- The private copies of `TIM_NOW_HI` (R30) by master, and the armed alarm (R420). -/
  nowShadow : Vector RegWord 15 := Vector.replicate 15 0
  alarmArmed : Bool := false
  /-- A write of 0 to `SYS_BOOT_MAP.ROM` waits for N11's next taken jump (R38). -/
  bootClear : Bool := false
  /-- The boot ROM has loaded a valid image (R344), and N11 has been released since the last entry to DAWN (R195). -/
  imageLoaded : Bool := false
  released : Bool := false
  /-- A block came to hold unmasked fault status in EVENING (R33). -/
  faultWake : Bool := false
  due : DueX := {}
  cores : Vector CoreX 12 := Vector.replicate 12 {}
  /-- The commands in the blocks' pending queues (R207), ordered by the tick from which they may take effect. -/
  pend : List Cmd := []
  psq : PsqX := {}
  jrn : JrnX := {}
  vsp : VspX := {}
  fin : FinX := {}
  fab : FabX := {}
  hst : HstX := {}
  pmx : PmxX := {}
  plain : PlainX := {}
  str : Vector StrX 8 := Vector.replicate 8 {}
  vale : ValeX := {}
  /-- The mismatch queue (R117). -/
  mmq : List Mismatch := []
  btm : Vector BtmX 8 := Vector.replicate 8 {}
  lsi : LsiX := {}
  bmk : Vector BmkX 8 := Vector.replicate 8 {}
  bld : Vector BldX 24 := Vector.replicate 24 {}
  stp : Vector StpX 48 := Vector.replicate 48 {}
  lanes : Vector (Option LaneJob) 4 := Vector.replicate 4 none
  dma : Vector (Option DmaJob) 16 := Vector.replicate 16 none
  /-- The channel from which the DMA engine looks for its next block (R140). -/
  dmaNext : Nat := 0
  pra : PraX := {}
  sense : SenseX := {}
  pwr : PwrX := {}
  thm : ThmX := {}
  csm : CsmX := {}
  xsp : XspX := {}
  pmc : PmcX := {}
  mgt : MgtX := {}
  pending : List Instr := []
  deriving DecidableEq, Repr

/-- The device right after reset: the point at which a power-on has brought it to DAWN (log 2, log 3, log 8). -/
def State.reset : State := {}

end Sys2Proof.Machine
end

