-- ==== Sys2Proof/Machine/Ops.lean ====
section
/-! DEFINITION. The named operations on the state: sparse storage in canonical form, the control registers and their fields, and
the memories (R9 to R12, R18, R419). -/

namespace Sys2Proof.Machine

/-! ## Sparse storage

A list of keys and values, keys strictly rising, no value equal to what an unlisted key reads as (`d`). -/

/-- The value at key `a`: the listed one, else the default. -/
def sparseGet {β : Type} (d : Nat → β) : List (Nat × β) → Nat → β
  | [], a => d a
  | (k, v) :: rest, a => if a = k then v else sparseGet d rest a

/-- The list without key `a`. -/
def sparseErase {β : Type} (m : List (Nat × β)) (a : Nat) : List (Nat × β) := m.filter fun e => e.1 ≠ a

/-- The list with `v` at key `a`. -/
def sparseInsert {β : Type} : List (Nat × β) → Nat → β → List (Nat × β)
  | [], a, v => [(a, v)]
  | (k, w) :: rest, a, v =>
    if a = k then (a, v) :: rest else if a < k then (a, v) :: (k, w) :: rest else (k, w) :: sparseInsert rest a v

/-- A write in canonical form: the value an unlisted key reads as removes the entry. -/
def sparseSet {β : Type} [DecidableEq β] (d : Nat → β) (m : List (Nat × β)) (a : Nat) (v : β) : List (Nat × β) :=
  if v = d a then sparseErase m a else sparseInsert m a v

/-- The canonical form: keys strictly rising, no listed value equal to the default. -/
abbrev sparseWf {β : Type} (d : Nat → β) (m : List (Nat × β)) : Prop :=
  m.Pairwise (fun x y => x.1 < y.1) ∧ ∀ e ∈ m, e.2 ≠ d e.1

/-- The entries whose key lies outside `[lo, hi)`. -/
def sparseDrop {β : Type} (lo hi : Nat) (m : List (Nat × β)) : List (Nat × β) :=
  m.filter fun e => decide (e.1 < lo) || decide (hi ≤ e.1)

/-! ## Bits of numbers -/

/-- Bits [lsb + width - 1 : lsb] of `w`. -/
def bitsOf (w lsb width : Nat) : Nat := w / 2 ^ lsb % 2 ^ width

/-- `w` with bits [lsb + width - 1 : lsb] replaced by `v`. -/
def bitsSet (w lsb width v : Nat) : Nat :=
  w - bitsOf w lsb width * 2 ^ lsb + v % 2 ^ width * 2 ^ lsb

/-- Bit `i` of `w`. -/
def bitAt (w i : Nat) : Bool := w / 2 ^ i % 2 = 1

/-- `w` with bit `i` set to `b`. -/
def bitPut (w i : Nat) (b : Bool) : Nat := bitsSet w i 1 (if b then 1 else 0)

/-- 1 for true, 0 for false. -/
def boolNat (b : Bool) : Nat := if b then 1 else 0

/-- Signed reading of the low `width` bits of `w`. -/
def signedOf (w width : Nat) : Int :=
  let u := w % 2 ^ width
  if 2 ^ width ≤ 2 * u then (u : Int) - 2 ^ width else u

/-- The low `width` bits of a signed number. -/
def toBits (i : Int) (width : Nat) : Nat := (i % (2 ^ width : Int)).toNat

/-- A number as a field of `width` bits takes it where the spec names neither a limit nor a wrap (log 50). -/
def fitNat (width v : Nat) : Nat := if v < 2 ^ width then v else Config.pastWidth width v % 2 ^ width

/-- A signed number as a 32-bit register takes it where the spec names neither a limit nor a wrap (log 50). -/
def fitInt (v : Int) : Int := if -(2 ^ 31) ≤ v ∧ v < 2 ^ 31 then v else signedOf (Config.pastWidth 32 v % 2 ^ 32) 32

/-- A quotient that the spec states without a rounding (log 21). -/
def quotient (num den : Nat) : Nat := num / den + if num % den = 0 then 0 else if Config.roundsUp num den then 1 else 0

/-! ## The control registers (R9 to R12, R17, R18) -/

/-- The index of the register at offset `off` within row `r`: the last index and whether the row holds the offset. -/
def RegRow.index? (r : RegRow) (off : Nat) : Option Nat :=
  if off < r.base then none
  else
    let d := off - r.base
    let i := d / r.s1
    let d1 := d % r.s1
    let j := d1 / r.s2
    let d2 := d1 % r.s2
    let l := d2 / r.s3
    if i < r.n1 ∧ j < r.n2 ∧ l < r.n3 ∧ d2 % r.s3 = 0 then some l else none

/-- The first row of `rows` that holds offset `off`, with the index. -/
def findRow : List RegRow → Nat → Option (RegRow × Nat)
  | [], _ => none
  | r :: rest, off =>
    match r.index? off with
    | some l => some (r, l)
    | none => findRow rest off

/-- The row of the register table that holds the register at offset `off` of the control window. -/
def regRow (off : Nat) : Option (RegRow × Nat) := findRow (rowsOf (off / 0x10000)) off

/-- A register stands at offset `off` (R17). -/
def regExists (off : Nat) : Bool := (regRow off).isSome

/-- The reset word of the register at `off`; 0 where no register stands (R12, R17). -/
def regReset (off : Nat) : RegWord :=
  match regRow off with
  | some (r, l) => BitVec.ofNat 32 (r.reset + r.step * l)
  | none => 0

/-- The bits of the register at `off` that a write sets (access RW, R11). -/
def regRwMask (off : Nat) : Nat :=
  match regRow off with
  | some (r, _) => r.rw
  | none => 0

/-- The bits of the register at `off` that a written 1 clears (access W1C, R11). -/
def regW1cMask (off : Nat) : Nat :=
  match regRow off with
  | some (r, _) => r.w1c
  | none => 0

/-- The stored word of the register at `off`. -/
def State.getReg (s : State) (off : Nat) : RegWord := sparseGet regReset s.regs off

/-- `s` with `w` stored in the register at `off`. -/
def State.setReg (s : State) (off : Nat) (w : RegWord) : State :=
  { s with regs := sparseSet regReset s.regs off w }

/-- The value of field `f`. -/
def State.rd (s : State) (f : Fld) : Nat := bitsOf (s.getReg f.off).toNat f.lsb f.width

/-- Field `f` is not 0. -/
def State.on (s : State) (f : Fld) : Bool := s.rd f ≠ 0

/-- `s` with field `f` holding `v`, cut to the field's width. -/
def State.wr (s : State) (f : Fld) (v : Nat) : State :=
  s.setReg f.off (BitVec.ofNat 32 (bitsSet (s.getReg f.off).toNat f.lsb f.width v))

/-- The whole word of the register at `off`, as a number. -/
def State.rdw (s : State) (off : Nat) : Nat := (s.getReg off).toNat

/-- `s` with the whole word of the register at `off` holding `v`, cut to 32 bits. -/
def State.wrw (s : State) (off v : Nat) : State := s.setReg off (BitVec.ofNat 32 v)

/-- The 64-bit number held in a register and the one that holds its upper half. -/
def State.rd64 (s : State) (lo hi : Nat) : Nat := s.rdw lo + s.rdw hi * 2 ^ 32

/-- `s` with a 64-bit number stored in a register and the one that holds its upper half. -/
def State.wr64 (s : State) (lo hi v : Nat) : State := (s.wrw lo v).wrw hi (v / 2 ^ 32)

/-- Field `f` counts one more, and wraps at its width. -/
def State.inc (s : State) (f : Fld) : State := s.wr f (s.rd f + 1)

/-- Field `f` counts `n` more, and wraps at its width. -/
def State.addTo (s : State) (f : Fld) (n : Nat) : State := s.wr f (s.rd f + n)

/-- Field `f` counts one more and stays at its greatest value. -/
def State.incSat (s : State) (f : Fld) : State :=
  if s.rd f + 1 < 2 ^ f.width then s.inc f else s

/-- The plain register write of R11: RW bits take the written value, W1C bits are cleared by a written 1, every other bit stays. -/
def plainWord (off : Nat) (old v : Nat) : Nat :=
  let rw := regRwMask off
  let w1c := regW1cMask off
  ((old &&& (0xFFFFFFFF ^^^ rw)) ||| (v &&& rw)) &&& (0xFFFFFFFF ^^^ (v &&& w1c))

/-- `s` after the plain write of `v` to the register at `off` (R11). -/
def State.plainWrite (s : State) (off v : Nat) : State :=
  s.wrw off (plainWord off (s.rdw off) v)

/-! ## The memories (R18, R419) -/

/-- The first local bus address of the DRAM (R18). -/
def dramBase : Nat := 0x4000000000

/-- The first address after the DRAM (R18). -/
def dramEnd : Nat := 0x8000000000

/-- What an unlisted byte reads as: 0 until the memory first loses its contents (log 1), then a free value (R419, log 11). -/
def lostOr0 (epoch addr : Nat) : Byte := if epoch = 0 then 0 else Config.lostByte epoch addr

/-- What an unlisted byte of the local bus reads as, by the memory it lies in. -/
def unlistedByte (dieEpoch dramEpoch addr : Nat) : Byte :=
  lostOr0 (if dramBase ≤ addr then dramEpoch else dieEpoch) addr

/-- The byte at local bus address `a`. -/
def State.readByte (s : State) (a : Nat) : Byte := sparseGet (unlistedByte s.dieEpoch s.dramEpoch) s.mem a

/-- The memories of the local bus are in canonical form. -/
abbrev Memory.wf (s : State) : Prop := sparseWf (unlistedByte s.dieEpoch s.dramEpoch) s.mem

/-- `s` with byte `b` at local bus address `a`. -/
def State.writeByte (s : State) (a : Nat) (b : Byte) : State :=
  { s with mem := sparseSet (unlistedByte s.dieEpoch s.dramEpoch) s.mem a b }

/-- The `n` bytes from address `a`, little-endian (R9). -/
def State.readLE (s : State) (a : Nat) : Nat → Nat
  | 0 => 0
  | n + 1 => (s.readByte a).toNat + 256 * s.readLE (a + 1) n

/-- `s` with the low `n` bytes of `v` from address `a`, little-endian (R9). -/
def State.writeLE (s : State) (a : Nat) : Nat → Nat → State
  | 0, _ => s
  | n + 1, v => (s.writeByte a (BitVec.ofNat 8 v)).writeLE (a + 1) n (v / 256)

/-- The `n` bytes from address `a`. -/
def State.readBytes (s : State) (a : Nat) : Nat → List Byte
  | 0 => []
  | n + 1 => s.readByte a :: s.readBytes (a + 1) n

/-- `s` with bytes `bs` from address `a`. -/
def State.writeBytes (s : State) (a : Nat) : List Byte → State
  | [] => s
  | b :: bs => (s.writeByte a b).writeBytes (a + 1) bs

/-- The bytes of a number, least significant first. -/
def leBytes : Nat → Nat → List Byte
  | 0, _ => []
  | n + 1, v => BitVec.ofNat 8 v :: leBytes n (v / 256)

/-- The number whose bytes these are, least significant first. -/
def ofLe : List Byte → Nat
  | [] => 0
  | b :: bs => b.toNat + 256 * ofLe bs

/-- What an unlisted byte of the external NVM reads as (log 1). -/
def nvmErased : Nat → Byte := fun _ => 0xFF

/-- What an unlisted byte of the NVMe storage and of host memory reads as (log 1). -/
def zeroByte : Nat → Byte := fun _ => 0

/-- The bytes of a byte store `m` with default `d`, from address `a`. -/
def storeRead (d : Nat → Byte) (m : List Host.Cell) (a : Nat) : Nat → List Byte
  | 0 => []
  | n + 1 => sparseGet d m a :: storeRead d m (a + 1) n

/-- The byte store `m` with default `d`, with bytes `bs` from address `a`. -/
def storeWrite (d : Nat → Byte) (m : List Host.Cell) (a : Nat) : List Byte → List Host.Cell
  | [] => m
  | b :: bs => storeWrite d (sparseSet d m a b) (a + 1) bs

/-- Bytes of the external NVM. -/
def State.nvmRead (s : State) (a n : Nat) : List Byte := storeRead nvmErased s.nvm a n

/-- `s` with bytes in the external NVM. -/
def State.nvmWrite (s : State) (a : Nat) (bs : List Byte) : State := { s with nvm := storeWrite nvmErased s.nvm a bs }

/-- Bytes of the NVMe storage. -/
def State.nvmeRead (s : State) (a n : Nat) : List Byte := storeRead zeroByte s.nvme a n

/-- `s` with bytes in the NVMe storage. -/
def State.nvmeWrite (s : State) (a : Nat) (bs : List Byte) : State := { s with nvme := storeWrite zeroByte s.nvme a bs }

/-- Bytes of host memory. -/
def State.hostRead (s : State) (a n : Nat) : List Byte := storeRead zeroByte s.hostMem a n

/-- `s` with bytes in host memory. -/
def State.hostWrite (s : State) (a : Nat) (bs : List Byte) : State := { s with hostMem := storeWrite zeroByte s.hostMem a bs }

/-! ## Lists -/

/-- `s` after `f` for every element of the list, in order. -/
def forEach {α σ : Type} (l : List α) (s : σ) (f : σ → α → σ) : σ := l.foldl f s

/-- `s` after `f` for 0, 1, …, n - 1, in order. -/
def forUpTo {σ : Type} (n : Nat) (s : σ) (f : σ → Nat → σ) : σ := (List.range n).foldl f s

/-- The number of the lowest bit set among the `n` lowest bits of `w`. -/
def lowestBit (w n : Nat) : Option Nat := (List.range n).find? (bitAt w)

/-! ## The cores -/

/-- `s` with core `n` changed by `f`. -/
def State.updCore (s : State) (n : Fin 12) (f : CoreX → CoreX) : State :=
  { s with cores := s.cores.set n (f s.cores[n]) }

/-- Core `n`. -/
def State.core (s : State) (n : Fin 12) : CoreX := s.cores[n]

/-- The states of the device (R33). -/
def stNight : Nat := 0
@[inherit_doc stNight] def stDawn : Nat := 1
@[inherit_doc stNight] def stMorning : Nat := 2
@[inherit_doc stNight] def stNoon : Nat := 3
@[inherit_doc stNight] def stDusk : Nat := 4
@[inherit_doc stNight] def stEvening : Nat := 5

/-- The device state, `SYS_STATE.STATE` (R33). -/
def State.dev (s : State) : Nat := s.rd Reg.SYS_STATE_STATE

/-- `s` in device state `d`; `LAST` takes the state it leaves (R38). -/
def State.goTo (s : State) (d : Nat) : State :=
  (s.wr Reg.SYS_STATE_LAST s.dev).wr Reg.SYS_STATE_STATE d

/-- The number of stations enabled: the station fuses (R2, R38). -/
def State.stations (s : State) : Nat := if s.aon.fuse4 then 4 else 8

/-- An event of the performance counters: event `ev` of instance `idx` happens `n` times in the present tick (R391, R392). -/
def State.count (s : State) (ev idx n : Nat) : State :=
  let k := ev * 256 + idx
  let now := sparseGet (fun _ => 0) s.pmc.events k
  { s with pmc := { s.pmc with events := sparseSet (fun _ => 0) s.pmc.events k (now + n) } }

end Sys2Proof.Machine
end

