-- ==== Sys2Proof/Machine/Eozan.lean ====
section
/-! DEFINITION. The Eozan block code (R100 to R108): tiles, slots, the decoder and the canonical compressor. A tile is the list of its
512 dot codes in raster order; a slot is the number its 64 bytes spell little-endian, so that stream bit k of its payload is bit
16 + k. -/

namespace Sys2Proof.Machine

/-- The tile of one code (R104). -/
def tileFill (c : Nat) : List Nat := List.replicate 512 c

/-- The dot codes of a tile from its 256 raw bytes: the even dot in the low nibble (R100). -/
def tileOfBytes (l : List Byte) : List Nat := l.flatMap fun b => [b.toNat % 16, b.toNat / 16]

/-- The 256 raw bytes of a tile (R100). -/
def tileBytes : List Nat → List Byte
  | a :: b :: rest => BitVec.ofNat 8 (a + 16 * b) :: tileBytes rest
  | _ => []

/-- The check value of a tile (R108). -/
def tileCrc (t : List Nat) : Nat := crc32c (tileBytes t)

/-- Line `l` of a tile. -/
def tileLine (t : List Nat) (l : Nat) : List Nat := (t.drop (64 * l)).take 64

/-! ## Slots (R101, R102) -/

/-- The header of a slot. -/
def slotHeader (s : Nat) : Nat := bitsOf s 0 16
/-- `MODE`. -/
def slotMode (s : Nat) : Nat := bitsOf s 0 4
/-- `RAW`. -/
def slotRaw (s : Nat) : Bool := bitAt s 4
/-- `FLUSH`. -/
def slotFlush (s : Nat) : Bool := bitAt s 5
/-- `LINES_VALID`. -/
def slotLinesValid (s : Nat) : Nat := bitsOf s 6 3
/-- The payload bits from stream bit `k` (R103). -/
def slotBits (s k w : Nat) : Nat := bitsOf s (16 + k) w
/-- `PTR` of a raw slot (R104). -/
def slotPtr (s : Nat) : Nat := slotBits s 0 32
/-- The stored check value (R101). -/
def slotCrc (s : Nat) : Nat := bitsOf s 480 32

/-- The header breaks no rule of R106. -/
def headerOk (s : Nat) : Bool :=
  bitsOf s 9 7 = 0 && (slotRaw s || decide (slotMode s ≤ 3)) && (!slotRaw s || slotMode s = 0)
    && (slotLinesValid s = 0 || (slotRaw s && slotFlush s))

/-! ## The decoder (R104, R106) -/

/-- The explicit maps and repeated lines of a BITMAP2 slot, from line `l` and stream bit `p` (R104). -/
def decodeBitmap (s a b : Nat) : Nat → Nat → Nat → List Nat → List Nat
  | 0, _, _, _ => []
  | n + 1, l, p, prev =>
    if l ≠ 0 ∧ bitAt (slotBits s 8 7) (l - 1) then prev ++ decodeBitmap s a b n (l + 1) p prev
    else
      let line := (List.range 64).map fun d => if bitAt (slotBits s p 64) d then b else a
      line ++ decodeBitmap s a b n (l + 1) (p + 64) line

/-- The runs of a RUNS slot from stream bit `p`, with `need` dots to come; none where they do not end at 512 within the entries
left (R104, R106). -/
def decodeRuns (s : Nat) : Nat → Nat → Nat → Option (List Nat)
  | 0, _, need => if need = 0 then some [] else none
  | n + 1, p, need =>
    if need = 0 then some []
    else
      let len := slotBits s (p + 4) 6 + 1
      if need < len then none
      else (decodeRuns s n (p + 10) (need - len)).map fun rest => List.replicate len (slotBits s p 4) ++ rest

/-- The tile of a slot that is not raw; none for a malformed one (R104, R106). -/
def decodeTile (s : Nat) : Option (List Nat) :=
  if !headerOk s then none
  else
    match slotMode s with
    | 0 => some (tileFill (slotBits s 0 4))
    | 1 => if slotBits s 8 7 = 0 then none else some (decodeBitmap s (slotBits s 0 4) (slotBits s 4 4) 8 0 15 [])
    | 2 =>
      let p := slotBits s 0 4 + 1
      if 14 < p then none
      else some ((List.range 512).map fun i => slotBits s (4 + 4 * (p * (i / 64) + i % 64 % p)) 4)
    | _ => decodeRuns s 46 0 512

/-- What a decoder makes of a slot: the tile that is printed, and the kind of its mismatch if it has one (R106, R108, R118): 0
CRC-32C, 1 malformed, 2 raw pointer range; a raw slot with both faults is reported as malformed, where R106 does not choose (DESIGN CHOICE,
log 63). `raw` gives the raw tile at an index; `first` and `count` are the band's range. -/
def decodeSlot (s first count : Nat) (raw : Nat → List Nat) : List Nat × Option Nat :=
  if slotRaw s then
    if !headerOk s then (tileFill 0, some 1)
    else if slotPtr s < first ∨ first + count ≤ slotPtr s then (tileFill 0, some 2)
    else
      let t := raw (slotPtr s)
      (t, if tileCrc t = slotCrc s then none else some 0)
  else
    match decodeTile s with
    | none => (tileFill 0, some 1)
    | some t => (t, if tileCrc t = slotCrc s then none else some 0)

/-! ## The compressor (R105) -/

/-- The number whose bit fields, least significant first, are the given values and widths (R103). -/
def packBits : List (Nat × Nat) → Nat
  | [] => 0
  | (v, w) :: rest => v % 2 ^ w + 2 ^ w * packBits rest

/-- A slot from its header, payload and tile (R101). -/
def makeSlot (header payload : Nat) (t : List Nat) : Nat := packBits [(header, 16), (payload, 464), (tileCrc t, 32)]

/-- The codes of a tile, each once, in ascending order. -/
def tileCodes (t : List Nat) : List Nat := (List.range 16).filter fun c => t.contains c

/-- `REP`: bit j - 1 is 1 where line j equals the line above it (R104). -/
def repBits (t : List Nat) : Nat := ofBits ((List.range 7).map fun j => tileLine t (j + 1) = tileLine t j)
where
  /-- The number with these bits, least significant first. -/
  ofBits : List Bool → Nat
    | [] => 0
    | b :: rest => boolNat b + 2 * ofBits rest

/-- The 64-bit map of a line: bit d is 1 where dot d has code `b` (R104). -/
def lineMap (b : Nat) (line : List Nat) : Nat := packBits (line.map fun c => (boolNat (c = b), 1))

/-- Every line of the tile is periodic with period `p` (R105). -/
def periodic (t : List Nat) (p : Nat) : Bool :=
  (List.range 512).all fun i => t.getD i 0 = t.getD (i / 64 * 64 + i % 64 % p) 0

/-- The maximal runs of a list, split at 64 dots (R105). -/
def runsOf : List Nat → List (Nat × Nat)
  | [] => []
  | c :: rest =>
    match runsOf rest with
    | (d, n) :: more => if c = d then (c, n + 1) :: more else (c, 1) :: (d, n) :: more
    | [] => [(c, 1)]

/-- A run longer than 64 becomes 64-dot runs and a remainder (R105). -/
def splitRun (c n : Nat) : List (Nat × Nat) :=
  List.replicate (n / 64) (c, 64) ++ (if n % 64 = 0 then [] else [(c, n % 64)])

/-- The canonical slot of a tile that fits one, with its mode; none for a tile that must be stored raw (R105). -/
def encodeTile (t : List Nat) : Option (Nat × Nat) :=
  let codes := tileCodes t
  let rep := repBits t
  match codes with
  | [c] => some (0, makeSlot 0 c t)
  | _ =>
    if codes.length = 2 ∧ rep ≠ 0 then
      let a := codes.getD 0 0
      let b := codes.getD 1 0
      let maps := ((List.range 8).filter fun l => l = 0 || !bitAt rep (l - 1)).map fun l => (lineMap b (tileLine t l), 64)
      some (1, makeSlot 1 (packBits ([(a, 4), (b, 4), (rep, 7)] ++ maps)) t)
    else
      match ((List.range 14).map (· + 1)).find? (periodic t) with
      | some p =>
        let pats := (List.range 8).flatMap fun l => (List.range p).map fun j => (t.getD (64 * l + j) 0, 4)
        some (2, makeSlot 2 (packBits ((p - 1, 4) :: pats)) t)
      | none =>
        let runs := (runsOf t).flatMap fun r => splitRun r.1 r.2
        if runs.length ≤ 46 then some (3, makeSlot 3 (packBits (runs.flatMap fun r => [(r.1, 4), (r.2 - 1, 6)])) t)
        else none

/-- The slot of a raw tile at index `i`; `flush` and `lines` as R102 gives. -/
def rawSlot (i : Nat) (flush : Bool) (lines : Nat) (t : List Nat) : Nat :=
  makeSlot (16 + 32 * boolNat flush + 64 * lines) i t

/-- The FILL slot that a flush writes (R111). -/
def flushSlot : Nat := makeSlot 32 0 (tileFill 0)

end Sys2Proof.Machine
end

