-- ==== Sys2Proof/Machine/Flags.lean ====
section
/-! DEFINITION. The status registers of the blocks: source bits, FIRST, OVF, severities, interrupt enables and the ALIVE hold (R376
to R380). -/

namespace Sys2Proof.Machine

/-- The status registers with source bits, of block `b` (R376). The enable register stands 4 bytes above its status register. -/
def statusRegsOf (b : Nat) : List Nat :=
  match b with
  | 0 => [Reg.SYS_STATUS]
  | 1 => [Reg.TIM_STATUS]
  | 2 => [Reg.CLK_STATUS]
  | 3 => [Reg.PWR_STATUS]
  | 4 => [Reg.THM_STATUS]
  | 5 => [Reg.CAL_STATUS]
  | 6 => [Reg.VSP_STATUS]
  | 7 => [Reg.PMC_STATUS]
  | 8 => [Reg.DMA_STATUS]
  | 9 => [Reg.VALE_STATUS]
  | 10 => [Reg.PSQ_STATUS]
  | 11 => [Reg.STR_STATUS, Reg.STR_PLN_STATUS]
  | 12 => [Reg.CDC_STATUS]
  | 13 | 14 | 15 | 16 | 17 | 18 | 19 | 20 => [Reg.BTM_STATUS (b - 13)]
  | 21 => (List.range 8).map Reg.BMK_S_STATUS
  | 22 => [Reg.BLD_STATUS]
  | 23 => [Reg.STP_STATUS]
  | 24 => [Reg.PRA_STATUS]
  | 25 => [Reg.ADC_STATUS]
  | 26 => [Reg.FAB_STATUS]
  | 27 => [Reg.HST_STATUS]
  | 28 => [Reg.JRN_STATUS]
  | 29 => [Reg.XSP_STATUS]
  | 30 => [Reg.CSM_STATUS]
  | 31 => [Reg.PMX_STATUS]
  | 32 => [Reg.MGT_STATUS]
  | _ => []

/-- The source bits of status register `st` that read 1. -/
def State.srcs (s : State) (st : Nat) : Nat := s.rdw st &&& (regW1cMask st % 65536)

/-- The source bits of `st` that read 1 and are enabled: unmasked fault status (R379). -/
def State.unmasked (s : State) (st : Nat) : Nat := s.srcs st &&& s.rdw (st + 4)

/-- Block `b` holds unmasked fault status (R379). -/
def State.blockFault (s : State) (b : Nat) : Bool := (statusRegsOf b).any fun st => s.unmasked st ≠ 0

/-- The lowest-numbered block that holds unmasked fault status (R380). -/
def State.firstFaultBlock (s : State) : Option Nat := (List.range 33).find? s.blockFault

/-- Some core has halted (R219). -/
def State.anyHalted (s : State) : Bool := s.cores.toList.any (·.halted)

/-- Something stops the ALIVE pin (R380). -/
def State.aliveStopped (s : State) : Bool := s.firstFaultBlock.isSome || s.anyHalted

/-- An MSI-X message of vector `v` goes to the host while the link is up (R325). -/
def State.msixSend (s : State) (v : Nat) : State :=
  if s.hst.linkUp then { s with hst := { s.hst with msix := s.hst.msix ++ [v] } } else s

/-- What follows at once when a block comes to hold unmasked fault status: ALIVE stops (R380), that of HST reaches the host (R325, R379),
and a device in EVENING is to wake (R33); `was` tells whether the block held it before. -/
def State.faultHeld (s : State) (b : Nat) (was : Bool) : State :=
  if !was && s.blockFault b then
    let s := s.wr Reg.MGT_ALIVE_RUN 0
    let s := if b = 27 then s.msixSend 65 else s
    if s.dev = stEvening then { s with faultWake := true } else s
  else s

/-- The severity of source `i` of block `b` (R378). -/
def State.severity (s : State) (b i : Nat) : Nat := bitsOf (s.rdw (Reg.MGT_SEV b)) (2 * i) 2

/-- The source that FIRST takes among those that set together: the highest severity, then the lowest index (R376). -/
def State.pickFirst (s : State) (b : Nat) : List Nat → Nat
  | [] => 0
  | [i] => i
  | i :: rest =>
    let j := s.pickFirst b rest
    if s.severity b j < s.severity b i ∨ (s.severity b j = s.severity b i ∧ i ≤ j) then i else j

/-- Block `b` runs in the peripheral domain (R25). -/
def periphBlock (b : Nat) : Bool := b = 3 || (decide (22 ≤ b) && decide (b ≤ 25)) || b = 29

/-- The number of the present clock of block `b`'s domain: a peripheral clock is 12 clocks of the core domain, and the always-on clock of
the supervisor 120; every other domain is taken at the core's (R25, R278, R286, R376; DEDUCED, log 56). -/
def State.domainClock (s : State) (b : Nat) : Nat :=
  if b = 3 then s.clock / 120 else if periphBlock b then (s.clock - s.lockAt) / 12 else s.clock

/-- `FIRST` of status register `st` took its source in the present clock (R376). -/
def State.firstNow (s : State) (st : Nat) : Bool :=
  decide (sparseGet (fun _ => 0) s.firstAt st = s.domainClock (st / 0x10000))

/-- The sources among which `FIRST` of status register `st` chooses when the sources `fresh` set: these alone on a clear register, with the
one it holds where that set in the same clock; none else (R376). -/
def State.firstAmong (s : State) (st : Nat) (fresh : List Nat) : List Nat :=
  if s.srcs st = 0 then fresh else if s.firstNow st then bitsOf (s.rdw st) 16 4 :: fresh else []

/-- The sources of the list set in status register `st` in this clock (R376). -/
def State.raiseAll (s : State) (st : Nat) (l : List Nat) : State :=
  let b := st / 0x10000
  let w := s.rdw st
  let fresh := l.filter fun i => !bitAt w i
  if fresh.isEmpty then s
  else
    let was := s.blockFault b
    let among := s.firstAmong st fresh
    let w := fresh.foldl (fun w i => bitPut w i true) w
    let w := if among.isEmpty then bitPut w 20 true else bitsSet w 16 4 (s.pickFirst b among)
    let at_ := if among.isEmpty then s.firstAt else sparseSet (fun _ => 0) s.firstAt st (s.domainClock b)
    ({ s with firstAt := at_ }.wrw st w).faultHeld b was

/-- One source sets in status register `st` (R376). -/
def State.raise (s : State) (st i : Nat) : State := s.raiseAll st [i]

/-- The instance register of `st` takes instance `n`, which raises source `i`: `FIRST` takes the source now, or holds it since this very
clock from a higher instance (R376). -/
def State.takesInst (s : State) (st i : Nat) (inst : Fld) (n : Nat) : Bool :=
  if bitAt (s.rdw st) i then s.firstNow st && bitsOf (s.rdw st) 16 4 = i && decide (n < s.rd inst)
  else
    let among := s.firstAmong st [i]
    !among.isEmpty && s.pickFirst (st / 0x10000) among = i

/-- One source sets, raised by instance `n`, which the instance register takes if FIRST takes the source (R376). -/
def State.raiseInst (s : State) (st i : Nat) (inst : Fld) (n : Nat) : State :=
  let takes := s.takesInst st i inst n
  let s := s.raise st i
  if takes then s.wr inst n else s

/-- A W1C write of `v` to status register `st` (R377). -/
def State.clearStatus (s : State) (st v : Nat) : State :=
  s.wrw st (s.rdw st &&& (0xFFFFFFFF ^^^ (v &&& regW1cMask st)))

/-- A write of `v` to the enable register that belongs to status register `st` (R379). -/
def State.writeIrqEn (s : State) (st v : Nat) : State :=
  let b := st / 0x10000
  let was := s.blockFault b
  (s.plainWrite (st + 4) v).faultHeld b was

end Sys2Proof.Machine
end

