-- ==== Sys2Proof/Machine/Records.lean ====
section
/-! DEFINITION. What the device records and tells: journal entries (R335, R338), Vesper records (R385, R387), sheet events to cores,
host, finisher and fabric devices (R59, R60, R220, R334, R359, R409), and the fabric's sending side (R361, R362, R368). -/

namespace Sys2Proof.Machine

/-- A number kept between two bounds. -/
def clamp (lo hi v : Nat) : Nat := if v < lo then lo else if hi < v then hi else v

/-! ## Vesper -/

/-- The 1/256 s within the present operating second (R385, R386, log 12). -/
def State.subsec (s : State) : Nat := min 255 ((3000000000 - (s.due.second - s.clock)) * 256 / 3000000000)

/-- The entries that the Vesper DRAM ring holds (R387, R397). -/
def State.vspEntries (s : State) : Nat := clamp 256 4096 (s.rd Reg.VSP_DRING_CFG_ENTRIES)

/-- A record enters the DRAM ring, or is dropped and counted when the ring is full (R387, R389). -/
def State.vesper (s : State) (code flags src p0 p1 p2 p3 : Nat) : State :=
  if s.vsp.ring.length < s.vspEntries then
    let frozen := if s.on Reg.VSP_CTRL_FREEZE then 8 else 0
    let r : VspRec := { code := code, flags := flags ||| frozen, src := src, seconds := s.rd Reg.VSP_SECONDS_S,
                        boot := s.rd Reg.VSP_BOOT_COUNT, subsec := s.subsec, p0 := p0, p1 := p1, p2 := p2, p3 := p3 }
    { s with vsp := { s.vsp with ring := s.vsp.ring ++ [r] } }
  else
    let s := { s with vsp := { s.vsp with lostSince := s.vsp.lostSince + 1 } }
    (s.inc Reg.VSP_LOST_COUNT).raise Reg.VSP_STATUS 0

/-- The always-on domain raises a record (R385, R388; its `SRC` is open, log 12). -/
def State.vesperAo (s : State) (code p0 p1 p2 p3 : Nat) : State := s.vesper code 2 (Config.raiseSrc code).toNat p0 p1 p2 p3

/-- The 32 bytes of a record with copy flag `copy` (R385). -/
def VspRec.bytes (r : VspRec) (flags : Nat) : List Byte :=
  let b := leBytes 2 r.code ++ leBytes 1 (r.flags ||| flags) ++ leBytes 1 r.src ++ leBytes 4 r.seconds ++ leBytes 3 r.boot
    ++ leBytes 1 r.subsec ++ leBytes 4 r.p0 ++ leBytes 4 r.p1 ++ leBytes 4 r.p2 ++ leBytes 4 r.p3
  b ++ leBytes 4 (crc32c b)

/-! ## The journal -/

/-- The device's own id (R360). -/
def State.devId (s : State) : Nat := s.rd Reg.FAB_ID_DEV_ID

/-- The next journal sequence number (R335, R351). -/
def State.jrnNext (s : State) : Nat := s.rd64 Reg.JRN_NEXT_SEQ_LO Reg.JRN_NEXT_SEQ_HI

/-- The entries that the journal's DRAM ring holds (R338, R351). -/
def State.jrnEntries (s : State) : Nat := clamp 4096 65536 (s.rd Reg.JRN_DRING_CFG_ENTRIES)

/-- The entries not yet in NVM (R351). -/
def State.jrnUsed (s : State) : Nat := s.jrn.ring.length + s.jrn.night.length + s.jrn.prescan.length

/-- The 64 bytes of an entry with further `flags` (R335). -/
def JrnEntry.bytes (e : JrnEntry) (flags : Nat) : List Byte :=
  let b := leBytes 6 e.seq ++ leBytes 1 e.kind ++ leBytes 1 (e.flags ||| flags) ++ leBytes 8 e.time ++ leBytes 3 e.boot
    ++ leBytes 1 e.qp ++ leBytes 2 e.cmdId ++ leBytes 1 e.opcode ++ leBytes 1 e.reason ++ leBytes 4 e.job ++ leBytes 4 e.sheetSeq
    ++ leBytes 8 e.hostId ++ leBytes 16 e.args ++ leBytes 4 e.origin
  b ++ leBytes 4 (crc32c b)

/-- A fabric message is queued at a port: it moves to virtual channel 1 at a dateline port, and a message that meets a second
dateline is dropped and counted (R362). A LATE_ERROR that crosses a link of version 0x10 loses its address (R364). -/
def State.fabQueue (s : State) (port : Nat) (m : FabMsg) : State :=
  let dateline := s.on (Reg.FAB_P_CFG_DATELINE port) && m.cls ≠ 5
  if dateline && m.vc = 1 then (s.inc Reg.FAB_CNT_ROUTE_ERR_COUNT).raise Reg.FAB_STATUS 9
  else
    let m := if dateline then { m with vc := 1 } else m
    let m := if m.cls = 2 ∧ m.kind = 1 ∧ s.rd (Reg.FAB_P_STATE_VER port) = 0x10 then
        { m with payload := m.payload.take 8 ++ List.replicate 8 0 ++ m.payload.drop 16 }
      else m
    let flits := 1 + (m.payload.length + 31 - 16) / 32
    let s := s.addTo (Reg.FAB_P_CNT_TX_COUNT port) flits
    let s := s.count 22 port flits
    { s with fab := { s.fab with tx := s.fab.tx ++ [(port, m)] } }

/-- The port by which a message for device `d` leaves: none when the entry names no port or a port that is down (R361). -/
def State.fabPort (s : State) (d : Nat) : Option Nat :=
  let p := s.rd (Reg.FAB_ROUTE_PORT d)
  if p < 8 ∧ s.rd (Reg.FAB_P_STATE_STATE p) = 3 then some p else none

/-- This device may send a message of class other than Link: it holds an id (R360). -/
def State.fabReady (s : State) : Bool := s.on Reg.FAB_CTRL_EN && s.on Reg.FAB_ID_VALID

/-- The port that a message of this device for `d` takes, if it can leave (R360, R361). -/
def State.fabRoute (s : State) (d : Nat) : Option Nat := if s.fabReady then s.fabPort d else none

/-- A message of this device leaves for its destination, or is dropped and counted as an event is (R368). -/
def State.fabEvent (s : State) (m : FabMsg) : State :=
  match s.fabRoute m.dst with
  | some p => s.fabQueue p m
  | none => s.inc Reg.FAB_CNT_EV_DROP_COUNT

/-- An entry enters the late-error queue, or is lost (R369). -/
def State.leqPush (s : State) (e : LateErr) : State :=
  if s.fab.leq.length < 64 then
    ({ s with fab := { s.fab with leq := s.fab.leq ++ [e] } }).raise Reg.FAB_STATUS 4
  else (s.inc Reg.FAB_CNT_LEQ_LOST_COUNT).raise Reg.FAB_STATUS 5

/-- A posted WRITE fails at this device: the Vesper record 0x0F01 (R367, R388). -/
def State.writeFailed (s : State) (src tag addr code : Nat) : State :=
  s.vesper 0x0F01 0 26 tag (src + code * 65536) addr (addr / 2 ^ 32)

/-- The LATE_ERROR for a WRITE of device `src` that failed here, with its record (R359, R367). -/
def State.lateError (s : State) (src tag addr code : Nat) : State :=
  let payload := leBytes 4 tag ++ leBytes 1 code ++ [0, 0, 0] ++ leBytes 8 addr ++ leBytes 8 s.meridian ++ List.replicate 8 0
  (s.writeFailed src tag addr code).fabEvent
    { cls := 2, kind := 1, dst := src, src := s.devId, vc := 0, tag := 0, addr := 0, payload := payload }

/-- A posted WRITE of this device leaves, or comes back as a late error 0x5 at once where no route stands (R365, R367, R368). -/
def State.fabWrite (s : State) (dst tag addr : Nat) (payload : List Byte) : State :=
  let m : FabMsg := { cls := 0, kind := 0, dst := dst, src := s.devId, vc := 0, tag := tag, addr := addr, payload := payload }
  match s.fabRoute dst with
  | some p => s.fabQueue p m
  | none => (s.writeFailed s.devId tag addr 5).leqPush { tag := tag, src := s.devId, code := 5, addr := addr }

/-- The journal mirror: a numbered entry goes to the mate with a posted write (R346, R366; the address is open, log 13). -/
def State.mirror (s : State) (e : JrnEntry) : State :=
  if s.on Reg.JRN_MATE_EN then
    let s := { s with jrn := { s.jrn with unacked := s.jrn.unacked ++ [(s.clock + 3000000, e)] } }
    s.fabWrite (s.rd Reg.JRN_MATE_MATE_ID) (2 * 2 ^ 28 + e.seq % 2 ^ 28) 0 (e.bytes 2)
  else s

/-- An entry takes the next sequence number and enters the ring (R335, R338), or the hold-up's own queue (R339). -/
def State.jrnNumber (s : State) (e : JrnEntry) : State :=
  let n := s.jrnNext
  let e := { e with seq := n }
  let s := s.wr64 Reg.JRN_NEXT_SEQ_LO Reg.JRN_NEXT_SEQ_HI (fitNat 48 (n + 1))
  let s := if s.aon.holdUp then { s with jrn := { s.jrn with night := s.jrn.night ++ [e] } }
    else { s with jrn := { s.jrn with ring := s.jrn.ring ++ [e] } }
  s.mirror e

/-- The bare fields of an entry that the device creates (R335). -/
def State.devEntry (s : State) (kind reason sheetSeq hostId args : Nat) : JrnEntry :=
  { seq := 0, kind := kind, flags := 0, time := s.meridian, boot := s.rd Reg.VSP_BOOT_COUNT, qp := 0xFF, cmdId := 0, opcode := 0,
    reason := reason, job := 0, sheetSeq := sheetSeq, hostId := hostId, args := args, origin := s.devId }

/-- A RING_LOSS entry is written when space returns (R338). -/
def State.ringLoss (s : State) : State :=
  if s.jrn.lostCount ≠ 0 ∧ s.jrnUsed < s.jrnEntries then
    let args := s.jrn.lostFirst + s.jrn.lostCount * 2 ^ 64
    let s := { s with jrn := { s.jrn with lostCount := 0 } }
    s.jrnNumber (s.devEntry 0x22 0 0 0 args)
  else s

/-- The device creates a journal entry (R68, R335): dropped and counted when the reserve too is used up (R338); kept unnumbered
until the scan of this DAWN has given the next number (R337, log 14). -/
def State.jrnDevice (s : State) (e : JrnEntry) : State :=
  if s.jrnEntries ≤ s.jrnUsed then
    let s := (s.inc Reg.JRN_LOST_COUNT).raise Reg.JRN_STATUS 1
    if s.jrn.scanned then
      let n := s.jrnNext
      let s := s.wr64 Reg.JRN_NEXT_SEQ_LO Reg.JRN_NEXT_SEQ_HI (fitNat 48 (n + 1))
      let first := if s.jrn.lostCount = 0 then n else s.jrn.lostFirst
      { s with jrn := { s.jrn with lostFirst := first, lostCount := s.jrn.lostCount + 1 } }
    else s
  else if s.jrn.scanned then (s.ringLoss).jrnNumber e
  else { s with jrn := { s.jrn with prescan := s.jrn.prescan ++ [e] } }

/-- Page `n` beside its registers. -/
def State.pageOf (s : State) (n : Nat) : PageX :=
  match s.psq.page[n]? with
  | some x => x
  | none => {}

/-- A journal entry of a PSQ outcome: page entry and tag stand in `ARGS` (R335). -/
def State.jrnOutcome (s : State) (kind reason sheetSeq page tag : Nat) : State :=
  s.jrnDevice (s.devEntry kind reason sheetSeq (s.pageOf page).hostId (page + tag * 256))

/-- The BOOT entry of every DAWN (R335). -/
def State.jrnBoot (s : State) : State :=
  s.jrnDevice (s.devEntry 0x20 0 0 0 (s.rd Reg.SYS_STATE_DAWN_KIND + 4 * s.rd Reg.XSP_BOOT_BANK))

/-! ## Sheet events -/

/-- An event enters the sheet-event queue of core `n`, or is lost (R220). -/
def State.shevPush (s : State) (n : Fin 12) (e : ShEv) : State :=
  s.updCore n fun c => if c.shev.length < 16 then { c with shev := c.shev ++ [e] } else { c with shevLost := true }

/-- The host link is up and the event ring takes entries: its size is 2 to 4,096 (R334, R350). -/
def State.hostRing (s : State) : Bool :=
  s.hst.linkUp && decide (2 ≤ s.rd Reg.HST_EVQ_CFG_SIZE) && decide (s.rd Reg.HST_EVQ_CFG_SIZE ≤ 4096)

/-- A sheet event for the host is written to the event ring, or is dropped (R332, R334; full at one entry below its size, log 15). -/
def State.hostEvent (s : State) (seq tag code spec reason : Nat) : State :=
  if !s.hostRing then s
  else
    let size := s.rd Reg.HST_EVQ_CFG_SIZE
    let tail := s.rd Reg.HST_EVQ_TAIL_TAIL
    let next := (tail + 1) % size
    if next = s.rd Reg.HST_EVQ_HEAD_HEAD then s.raise Reg.HST_STATUS 2
    else
      let bytes := leBytes 4 seq ++ leBytes 1 tag ++ leBytes 1 code ++ leBytes 1 spec ++ leBytes 1 reason ++ leBytes 8 s.meridian
        ++ leBytes 16 0
      let base := s.rd64 Reg.HST_EVQ_BASE_LO Reg.HST_EVQ_BASE_HI
      ((s.hostWrite (base + 32 * tail) bytes).wr Reg.HST_EVQ_TAIL_TAIL next).msixSend 64

/-- The 10 bytes of a finisher frame (R409). -/
def finFrame (count seq code spec reason : Nat) : List Byte :=
  let b := leBytes 1 count ++ leBytes 4 seq ++ leBytes 1 code ++ leBytes 1 spec ++ leBytes 1 reason
  (0x7E : Byte) :: b ++ [b.foldl (· ^^^ ·) 0]

/-- A frame enters the finisher's transmit queue; one that finds 32 is dropped, and only the frame count shows it (R409). -/
def State.finEvent (s : State) (seq code spec reason : Nat) : State :=
  let f := finFrame s.fin.count seq code spec reason
  let q := if s.fin.queue.length < 32 then s.fin.queue ++ [f] else s.fin.queue
  { s with fin := { s.fin with queue := q, count := (s.fin.count + 1) % 256 } }

/-- A sheet event for a fabric device (R359). -/
def State.fabSheetEvent (s : State) (dev seq tag code spec reason : Nat) : State :=
  let payload := leBytes 4 seq ++ leBytes 1 code ++ leBytes 1 spec ++ leBytes 1 reason ++ leBytes 1 tag ++ leBytes 8 s.meridian
    ++ leBytes 16 0
  s.fabEvent { cls := 2, kind := 0, dst := dev, src := s.devId, vc := 0, tag := 0, addr := 0, payload := payload }

/-! ## Consumables -/

/-- One pending increment for consumable unit `u`, if it is AUTH_OK (R321). -/
def State.csmInc (s : State) (u : Nat) : State :=
  if s.on Reg.CSM_CTRL_EN ∧ s.rd (Reg.CSM_U_STATE_STATE u) = 2 then s.incSat (Reg.CSM_U_STATE_PENDING u) else s

/-- A page printed by the stations of `mask` leaves PRINTING: every AUTH_OK unit that serves one of them gains an increment (R321). -/
def State.csmPage (s : State) (mask : Nat) : State :=
  forUpTo 16 s fun s u => if s.rd (Reg.CSM_U_CFG_STATIONS u) &&& mask = 0 then s else s.csmInc u

end Sys2Proof.Machine
end

