-- ==== Sys2Proof/Machine/Plain.lean ====
section
/-! DEFINITION. The Plain engine (R76 to R99, R421): Plain addresses, the extent map, frames and residency, pins, page descriptors and
band tables, the remote cache. -/

namespace Sys2Proof.Machine

/-! ## Addresses and the extent map (R76, R78) -/

/-- The home device of a Plain address (R76). -/
def plainDev (a : Nat) : Nat := a / 2 ^ 42 % 1024
/-- The extent of a Plain address (R76). -/
def plainExt (a : Nat) : Nat := a / 2 ^ 21 % 2 ^ 21
/-- The offset within the extent (R76). -/
def plainOfs (a : Nat) : Nat := a % 2 ^ 21

/-- The mark of a granule of another home in the list of what pages wait for, apart from every local extent. -/
def remoteKey (a : Nat) : Nat := 2 ^ 60 + a / 4096 * 4096

/-- This device's id as the Plain sees it: 0 while `REMOTE_EN` = 0 (R76). -/
def State.plainId (s : State) : Nat := if s.on Reg.STR_PLN_CTRL_REMOTE_EN then s.rd Reg.STR_PLN_ID_DEV_ID else 0

/-- Where the map entry of extent `e` lies (R78). -/
def State.extAddr (s : State) (e : Nat) : Nat := s.rd64 Reg.STR_PLN_MAP_LO Reg.STR_PLN_MAP_HI + 8 * e

/-- The map entry of extent `e` (R78). -/
def State.extEntry (s : State) (e : Nat) : Nat := s.readLE (s.extAddr e) 8

/-- `s` with bits of the map entry of extent `e` replaced (R78). -/
def State.extSet (s : State) (e lsb width v : Nat) : State :=
  s.writeLE (s.extAddr e) 8 (bitsSet (s.extEntry e) lsb width v)

/-- `FRAME` of a map entry (R78). -/
def extFrame (w : Nat) : Nat := bitsOf w 0 17
/-- The first NVMe byte of the extent of a map entry, with the namespace above bit 44 (R78). -/
def extNvme (w : Nat) : Nat := bitsOf w 38 2 * 2 ^ 44 + bitsOf w 17 21 * 2 ^ 21
/-- `PINS` of a map entry (R78). -/
def extPins (w : Nat) : Nat := bitsOf w 40 16
/-- `STATE` of a map entry (R78): 0 NVME_ONLY, 1 LOADING, 2 RESIDENT, 3 DIRTY, 4 WRITEBACK. -/
def extState (w : Nat) : Nat := bitsOf w 60 3
/-- `VALID` of a map entry (R78). -/
def extValid (w : Nat) : Bool := bitAt w 63

/-- The local address of frame `f` (R79). -/
def frameAddr (f : Nat) : Nat := dramBase + f * 2 ^ 21

/-- How a Plain access finds its data: in local DRAM at an address, in a granule held here, not there yet, in an invalid extent, or
answered ABSENT (R78, R79, R91, R421). -/
inductive PlainStatus where
  | atLocal (addr : Nat)
  | held
  | missing
  | invalid
  | absent
  deriving DecidableEq, Repr

/-- The granule held here that contains Plain address `a` (R91). -/
def State.granule (s : State) (a : Nat) : Option Granule := s.plain.rcache.find? fun g => g.addr = a / 4096 * 4096

/-- Other homes can be asked: `REMOTE_EN` is set and discovery has run (R76). -/
def State.remoteOn (s : State) : Bool := s.on Reg.STR_PLN_CTRL_REMOTE_EN && s.on Reg.FAB_ID_VALID

/-- Where the byte at Plain address `a` is (R76 to R79, R91, R421). -/
def State.plainStatus (s : State) (a : Nat) : PlainStatus :=
  if !s.on Reg.STR_PLN_CTRL_EN then .absent
  else if plainDev a = s.plainId then
    let w := s.extEntry (plainExt a)
    if !extValid w then .invalid
    else if extState w = 0 ∨ extState w = 1 then .missing
    else .atLocal (frameAddr (extFrame w) + plainOfs a)
  else if !s.remoteOn then .absent
  else if (s.granule a).isSome then .held
  else .missing

/-- The byte at Plain address `a`; 0 where it is not held (R97, R199). -/
def State.plainByte (s : State) (a : Nat) : Byte :=
  match s.plainStatus a with
  | .atLocal l => s.readByte l
  | .held => match s.granule a with
    | some g => g.data.getD (a % 4096) 0
    | none => 0
  | _ => 0

/-- What an error at address `u` spoils: a byte of a table bank, which carries parity by byte (R136), or a word of 64 bits, as SEC-DED covers
it (R134). The first address and the length. -/
def badUnit (u : Nat) : Nat × Nat := if 0xE2000000 ≤ u ∧ u < 0xE2100000 then (u, 1) else (u / 8 * 8, 8)

/-- An uncorrectable error lies in `n` bytes from local address `a` (R131, R134, R136). -/
def State.rangeBad (s : State) (a n : Nat) : Bool :=
  s.badAt.any fun u => decide (a < (badUnit u).1 + (badUnit u).2 ∧ (badUnit u).1 < a + n)

/-- The 64-byte block at `l` holds an uncorrectable error. -/
def State.blockBad (s : State) (l : Nat) : Bool := s.rangeBad (l / 64 * 64) 64

/-- `n` bytes from Plain address `a`. -/
def State.plainRead (s : State) (a n : Nat) : List Byte := (List.range n).map fun i => s.plainByte (a + i)

/-- The 64-byte blocks that `n` bytes from `a` touch. -/
def blocks64 (a n : Nat) : List Nat :=
  if n = 0 then [] else (List.range ((a + n - 1) / 64 - a / 64 + 1)).map fun i => (a / 64 + i) * 64

/-- The 4 KiB blocks that `n` bytes from `a` touch, in ascending address. -/
def blocks4k (a n : Nat) : List Nat :=
  if n = 0 then [] else (List.range ((a + n - 1) / 4096 - a / 4096 + 1)).map fun i => (a / 4096 + i) * 4096

/-- How a read of a 64-byte block of the Plain fails: ABSENT or an invalid extent, data not there, or an uncorrectable error. -/
inductive PlainFail where
  | absent
  | invalid
  | missing
  | bad
  deriving DecidableEq, Repr

/-- Why the block at Plain address `a` cannot be read now, if it cannot. -/
def State.plainFail (s : State) (a : Nat) : Option PlainFail :=
  match s.plainStatus a with
  | .atLocal l => if s.blockBad l then some .bad else none
  | .held => none
  | .missing => some .missing
  | .invalid => some .invalid
  | .absent => some .absent

/-- The first failure among the blocks that `n` bytes from `a` touch. -/
def State.plainFails (s : State) (a n : Nat) : Option PlainFail := (blocks64 a n).findSome? s.plainFail

/-- The first block that cannot be read among those that `n` bytes from `a` touch. -/
def State.plainFailAt (s : State) (a n : Nat) : Option Nat := (blocks64 a n).find? fun b => (s.plainFail b).isSome

/-! ## Residency (R79, R81) -/

/-- The frames that hold local extents: the pool less the remote cache at its top (R79, R99). -/
def State.poolSize (s : State) : Nat := s.rd Reg.STR_PLN_FRAME_COUNT_COUNT - s.rd Reg.STR_PLN_RCACHE_FRAMES

/-- The lowest frame of the pool that no extent holds. -/
def State.freeFrame (s : State) : Option Nat :=
  ((List.range s.poolSize).map fun i => s.rd Reg.STR_PLN_FRAME_FIRST_FRAME + i).find? fun f =>
    !s.plain.frames.any fun e => e.1 = f

/-- The unpinned frame that was loaded longest ago (R79). -/
def State.victim (s : State) : Option (Nat × Nat) :=
  s.plain.frames.find? fun e =>
    let w := s.extEntry e.2
    extPins w = 0 ∧ (extState w = 2 ∨ extState w = 3)

/-- Extent `e` begins to load into frame `f`. -/
def State.loadInto (s : State) (e f : Nat) : State :=
  let s := { s with plain := { s.plain with frames := s.plain.frames ++ [(f, e)], waitLoads := s.plain.waitLoads.erase e } }
  (s.extSet e 0 17 f).extSet e 60 3 1

/-- The load of extent `e` waits for a frame. -/
def State.loadWaits (s : State) (e : Nat) : State :=
  if s.plain.waitLoads.contains e then s else { s with plain := { s.plain with waitLoads := s.plain.waitLoads ++ [e] } }

/-- Every frame of the pool holds a pinned extent (R79). -/
def State.allPinned (s : State) : Bool := s.plain.frames.all fun x => decide (0 < extPins (s.extEntry x.2))

/-- A load of extent `e` starts, evicting the oldest unpinned frame where none is free, or waits; `PIN_LIMIT` tells that every frame is
pinned (R79). While `NVME_EN` = 0, a case that R79 does not name, no load starts and the access waits (DESIGN CHOICE, log 57). -/
def State.load (s : State) (e : Nat) : State :=
  if !s.on Reg.STR_PLN_CTRL_NVME_EN then s
  else
    match s.freeFrame with
    | some f => s.loadInto e f
    | none =>
      match s.victim with
      | none => if s.allPinned then (s.loadWaits e).raise Reg.STR_PLN_STATUS 2 else s.loadWaits e
      | some (f, v) =>
        if extState (s.extEntry v) = 3 then
          let s := { s with plain := { s.plain with evicting := s.plain.evicting ++ [v] } }
          (s.extSet v 60 3 4).loadWaits e
        else
          let s := { s with plain := { s.plain with frames := s.plain.frames.filter fun x => x.1 ≠ f } }
          (s.extSet v 60 3 0).loadInto e f

/-- Loads that wait for a frame start again, in order (R79). -/
def State.retryLoads (s : State) : State :=
  let l := s.plain.waitLoads
  forEach l { s with plain := { s.plain with waitLoads := [] } } State.load

/-- `s` with bytes `bs` of a memory range replaced by what a byte store holds from `src` (default `d`). -/
def State.copyIn (s : State) (d : Nat → Byte) (m : List Host.Cell) (src dst n : Nat) : State :=
  s.writeBytes dst (storeRead d m src n)

/-- A message of the ownership class leaves for its destination; false where no route stands (R357, R368). -/
def State.ownSend (s : State) (kind dst tag addr : Nat) (payload : List Byte) : State × Bool :=
  match s.fabRoute dst with
  | some p =>
    (s.fabQueue p { cls := 4, kind := kind, dst := dst, src := s.devId, vc := 0, tag := tag, addr := addr, payload := payload }, true)
  | none => (s, false)

/-- A SNOOP for the granule of Plain address `a` goes to its home, unless one is out already (R91; the place of the intent in the
message is open, log 13). -/
def State.snoop (s : State) (a : Nat) (intentO : Bool) : State :=
  let g := a / 4096 * 4096
  if s.plain.snoops.any fun e => e.1 = g then s
  else
    let (s, sent) := s.ownSend 0 (plainDev g) (boolNat intentO) g []
    if sent then { s with plain := { s.plain with snoops := s.plain.snoops ++ [(g, intentO)] } }.count 21 0 1 else s

/-- What an access to Plain address `a` starts where the data are not there: `MAP_ERR` for an invalid extent, a load, a SNOOP (R78,
R79, R91). -/
def State.plainTouch (s : State) (a : Nat) : State :=
  match s.plainStatus a with
  | .invalid => s.raise Reg.STR_PLN_STATUS 0
  | .missing =>
    if plainDev a = s.plainId then
      if extState (s.extEntry (plainExt a)) = 0 then s.load (plainExt a) else s
    else s.snoop a false
  | _ => s

/-! ## Pins and writes (R86, R88, R92) -/

/-- Page `p` pins extent `e` (R78, R86). -/
def State.pinExtent (s : State) (p e : Nat) : State :=
  if s.plain.pinExt.contains (p, e) then s
  else
    let n := extPins (s.extEntry e)
    let s := { s with plain := { s.plain with pinExt := s.plain.pinExt ++ [(p, e)] } }
    let s := s.extSet e 40 16 (n + 1)
    if n = 0 then s.inc Reg.STR_PLN_PINNED_COUNT else s

/-- Extent `e` loses one pin. -/
def State.unpinExtent (s : State) (e : Nat) : State :=
  let n := extPins (s.extEntry e)
  let s := s.extSet e 40 16 (n - 1)
  if n = 1 then s.wr Reg.STR_PLN_PINNED_COUNT (s.rd Reg.STR_PLN_PINNED_COUNT - 1) else s

/-- Page `p` pins the granule of another home that holds Plain address `a`; the first pin tells the home (R91). -/
def State.pinGranule (s : State) (p a : Nat) : State :=
  match s.granule a with
  | none => s
  | some g =>
    if g.pins.contains p then s
    else
      let rc := s.plain.rcache.map fun x => if x.addr = g.addr then { x with pins := x.pins ++ [p] } else x
      let s := { s with plain := { s.plain with rcache := rc } }
      if g.pins.isEmpty then (s.ownSend 4 (plainDev g.addr) 3 g.addr []).1 else s

/-- Page `p` releases the granule `g`; the last release tells the home (R91). -/
def State.unpinGranule (s : State) (p : Nat) (g : Granule) : State :=
  if g.pins.contains p then
    let rc := s.plain.rcache.map fun x => if x.addr = g.addr then { x with pins := x.pins.erase p } else x
    let s := { s with plain := { s.plain with rcache := rc } }
    if g.pins = [p] then (s.ownSend 5 (plainDev g.addr) 4 g.addr []).1 else s
  else s

/-- Page `p` gives back every pin and its reservation, and loads that waited for a frame may go on (R79, R86, R88). -/
def State.unpinPage (s : State) (p : Nat) : State :=
  let s := forEach (s.plain.pinExt.filter fun x => x.1 = p) s fun s x => s.unpinExtent x.2
  let s := { s with plain := { s.plain with pinExt := s.plain.pinExt.filter fun x => x.1 ≠ p } }
  let s := { s with plain := { s.plain with waitingOn := s.plain.waitingOn.filter fun x => x.1 ≠ p } }
  (forEach s.plain.rcache s fun s g => s.unpinGranule p g).retryLoads

/-- The local or held data at Plain address `a` are pinned by a page of any device (R92). -/
def State.plainPinned (s : State) (a : Nat) : Bool :=
  if plainDev a = s.plainId then
    decide (0 < extPins (s.extEntry (plainExt a))) || s.plain.dir.any fun d => d.addr = a / 4096 * 4096 && !d.pinners.isEmpty
  else match s.granule a with
    | some g => !g.pins.isEmpty
    | none => false

/-- `s` with bytes at Plain address `a` in local DRAM or in an OWNED granule; a local extent becomes DIRTY, one that is
being written back too (R78, R91; for the latter DEDUCED, log 66). -/
def State.plainStore (s : State) (a : Nat) (bs : List Byte) : State :=
  match s.plainStatus a with
  | .atLocal l => (s.writeBytes l bs).extSet (plainExt a) 60 3 3
  | .held =>
    let put (g : Granule) : Granule :=
      { g with dirty := true, data := g.data.take (a % 4096) ++ bs ++ g.data.drop (a % 4096 + bs.length) }
    let rc := s.plain.rcache.map fun g => if g.addr = a / 4096 * 4096 then put g else g
    { s with plain := { s.plain with rcache := rc } }
  | _ => s

/-- `s` after an accepted write through the Plain engine: into local DRAM or an OWNED granule, else a posted write to the home with
`tag` (R78, R91, R365, R366). -/
def State.plainPut (s : State) (tag a : Nat) (bs : List Byte) : State :=
  let here := match s.plainStatus a with
    | .atLocal _ => true
    | .held => match s.granule a with
      | some g => g.owned
      | none => false
    | _ => false
  if here then s.plainStore a bs else s.fabWrite (plainDev a) tag a bs

/-- What a write through the Plain engine meets: accepted, pinned, ABSENT, an invalid extent, or data that must be fetched first. -/
inductive PlainWrite where
  | ok
  | pinned
  | absent
  | invalid
  | missing
  deriving DecidableEq, Repr

/-- What a local master's write to the 64-byte block at Plain address `a` meets (R78, R92, R98, R421). A write to another home is
posted (R365), so it is accepted where the fabric serves it. -/
def State.plainWriteCheck (s : State) (a : Nat) : PlainWrite :=
  match s.plainStatus a with
  | .absent => .absent
  | .invalid => .invalid
  | .missing => if plainDev a = s.plainId then .missing else if s.plainPinned a then .pinned else .ok
  | _ => if s.plainPinned a then .pinned else .ok

/-! ## Descriptors (R82 to R85) -/

/-- The Plain address of page entry `n`'s descriptor (R74). -/
def State.descAddr (s : State) (n : Nat) : Nat := s.rd (Reg.PSQ_PG_ADDR_LO_ADDR n) + s.rd (Reg.PSQ_PG_ADDR_HI_ADDR n) * 2 ^ 32

/-- A number of `w` bytes at offset `o` of page entry `n`'s descriptor (R82). -/
def State.descField (s : State) (n o w : Nat) : Nat := ofLe (s.plainRead (s.descAddr n + o) w)

/-- `LINES` (R82). -/
def State.pgLines (s : State) (n : Nat) : Nat := s.descField n 0x10 4
/-- `WIDTH_TILES` (R82). -/
def State.pgWidth (s : State) (n : Nat) : Nat := s.descField n 0x14 2
/-- `LEFT_DOT` (R82). -/
def State.pgLeft (s : State) (n : Nat) : Nat := s.descField n 0x16 2
/-- `STATIONS` (R82). -/
def State.pgStations (s : State) (n : Nat) : Nat := s.descField n 0x18 1
/-- The bands of the page (R84). -/
def State.pgBands (s : State) (n : Nat) : Nat := s.pgLines n / 64
/-- `SLOT_BASE` of station `k` (R83). -/
def State.pgSlot (s : State) (n k : Nat) : Nat := s.descField n (0x40 + 32 * k) 8
/-- `OVF_BASE` of station `k` (R83). -/
def State.pgOvf (s : State) (n k : Nat) : Nat := s.descField n (0x48 + 32 * k) 8
/-- `BAND_BASE` of station `k` (R83). -/
def State.pgBand (s : State) (n k : Nat) : Nat := s.descField n (0x50 + 32 * k) 8
/-- `OVF_TILES` of station `k` (R83). -/
def State.pgOvfTiles (s : State) (n k : Nat) : Nat := s.descField n (0x58 + 32 * k) 4

/-- The stations that page entry `n` names (R82). -/
def State.pgStationList (s : State) (n : Nat) : List Nat := (List.range 8).filter (bitAt (s.pgStations n))

/-- `OVF_COUNT` of band `b` of station `k` (R85). -/
def State.bandCount (s : State) (n k b : Nat) : Nat := ofLe (s.plainRead (s.pgBand n k + 8 * b) 2)
/-- `OVF_FIRST` of band `b` of station `k` (R85). -/
def State.bandFirst (s : State) (n k b : Nat) : Nat := ofLe (s.plainRead (s.pgBand n k + 8 * b + 4) 4)

/-- The Plain address of the slot of the tile in row `r` and column `c` of station `k` (R84). -/
def State.slotAddr (s : State) (n k r c : Nat) : Nat := s.pgSlot n k + 64 * (r * s.pgWidth n + c)

/-- Whether page entry `n`'s descriptor is well formed (R82, R84, R86 step 1). A station record that names an address of 2^52 or more, which
is no Plain address (R76), counts as malformed (DEDUCED, log 61). -/
def State.descOk (s : State) (n : Nat) : Bool :=
  let raw := s.plainRead (s.descAddr n) 320
  let zeroed := raw.take 0x1C ++ leBytes 4 0 ++ raw.drop 0x20
  s.descAddr n % 64 = 0 && s.descField n 0 4 = 0x00595047 && s.descField n 4 2 = 1 && s.descField n 0x1C 4 = crc32c zeroed
    && s.pgLines n ≠ 0 && s.pgLines n % 64 = 0 && decide (1 ≤ s.pgWidth n ∧ s.pgWidth n ≤ 798)
    && decide (s.pgLeft n + 64 * s.pgWidth n ≤ 51072 ∧ s.pgLeft n ≤ 51023) && s.pgStations n ≠ 0
    && (s.pgStationList n).all fun k => s.pgSlot n k % 64 = 0 && s.pgOvf n k % 256 = 0 && s.pgBand n k % 64 = 0
      && decide (s.pgSlot n k < 2 ^ 52 ∧ s.pgOvf n k < 2 ^ 52 ∧ s.pgBand n k < 2 ^ 52)

/-- The band tables of station `k` agree with themselves and with `OVF_TILES`, and their reserved bits are 0 (R85; that a reserved bit counts
as an inconsistency is DEDUCED, log 62). -/
def State.bandsOk (s : State) (n k : Nat) : Bool :=
  let sums := (List.range (s.pgBands n)).foldl
    (fun (acc : Nat × Bool) b => (acc.1 + s.bandCount n k b, acc.2 && s.bandFirst n k b = acc.1
      && ofLe (s.plainRead (s.pgBand n k + 8 * b + 2) 2) = 0)) (0, true)
  sums.2 && sums.1 = s.pgOvfTiles n k

/-- `OVF_MAX` (R87). -/
def ovfMax (v : Nat) : Nat := min 6384 (2394 * 3000 / v - 1596)

/-- The admission reservation of page entry `n` is held (R88). -/
def State.reserved (s : State) (n : Nat) : Bool :=
  (s.pageOf n).pinned && decide (s.rd Reg.PSQ_SPEED_MM_S ≤ (s.pageOf n).speed)

/-! ## Station fences (R96) -/

/-- The laser-driver rail that PWR assigns to station `k` is on and inside its window, or none is assigned (R96). -/
def State.ldRailGood (s : State) (k : Nat) : Bool :=
  let w := s.rdw (if k < 4 then Reg.PWR_LDRAIL0 else Reg.PWR_LDRAIL1)
  let rail := bitsOf w (8 * (k % 4)) 5
  !bitAt w (8 * (k % 4) + 7) || (bitAt (s.rd Reg.PWR_GOOD_GOOD) rail && bitAt (s.rd Reg.PWR_EN_STATE_EN) rail)

/-- BTMk has been reset and its station DLL has not locked since (R96). -/
def State.btmReset (s : State) (k : Nat) : Bool :=
  match s.btm[k]? with
  | some b => b.inReset
  | none => true

/-- Station `k` is fenced: by software, by the reset of its BTM, by its core held in reset, by its laser-driver rail, or by a fuse
(R96). -/
def State.fenced (s : State) (k : Nat) : Bool :=
  bitAt (s.rd Reg.STR_PLN_FENCE_STATION) k || s.btmReset k || !bitAt (s.rd Reg.SYS_CORE_RUN_RUN) (k + 2) || !s.ldRailGood k
    || decide (s.stations ≤ k)

end Sys2Proof.Machine
end

