-- ==== Sys2Proof/Machine/StrBase.lean ====
section
/-! DEFINITION. The streamers' queues and halves, and withdrawal (R119 to R122, R129, R130). -/

namespace Sys2Proof.Machine

/-- The streamer of station `k`; an idle one for a number past 7. -/
def State.strOf (s : State) (k : Nat) : StrX :=
  match s.str[k]? with
  | some x => x
  | none => {}

/-- `s` with the streamer of station `k` changed by `f`. -/
def State.updStr (s : State) (k : Nat) (f : StrX → StrX) : State :=
  { s with str := s.str.setIfInBounds k (f (s.strOf k)) }

/-- The state field of half `h` of station `k` (R125, R144). -/
def halfFld (k h : Nat) : Fld := if h = 0 then Reg.STR_S_STATE_HALF0 k else Reg.STR_S_STATE_HALF1 k

/-- The state of half `h` of station `k`: 0 EMPTY, 1 FILLING, 2 FILLED, 3 READING (R125). -/
def State.half (s : State) (k h : Nat) : Nat := s.rd (halfFld k h)

/-- The local address of half `h` of station `k`'s area (R119). -/
def State.halfAddr (s : State) (k h : Nat) : Nat :=
  0xE0000000 + s.rd (Reg.STR_S_CTRL_FIRST_BANK k) * 0x80000 + h * 0x18F000

/-- The head entry's fill is dropped and both halves become EMPTY; bursts in flight will be discarded (R129, R130). A failing tile that its
decoder finds in this very tick is still reported (R116). -/
def State.dropHead (s : State) (k : Nat) : State :=
  let now := s.clock
  let s := s.updStr k fun x => { x with fill := none, next := 0, ring := [], released := 0,
                                        bad := x.bad.map fun t => { t with goneAt := t.goneAt.or (some now) },
                                        flight := x.flight.map fun b => { b with live := false } }
  ((s.wr (halfFld k 0) 0).wr (halfFld k 1) 0).wr (Reg.STR_S_STATE_PAD k) 0

/-- The queued entries of station `k` that `p` selects are withdrawn (R130). -/
def State.withdraw (s : State) (k : Nat) (p : StrEntry → Bool) : State :=
  let started := match (s.strOf k).queue with
    | e :: _ => p e && e.started
    | [] => false
  let s := s.updStr k fun x => { x with queue := x.queue.filter fun e => !p e }
  if started then s.dropHead k else s

/-- The entries of every station that `p` selects are withdrawn (R130). -/
def State.withdrawAll (s : State) (p : StrEntry → Bool) : State := forUpTo 8 s fun s k => s.withdraw k p

/-- The entry at the head of station `k`'s queue is that of the sheet with tag `t` and sequence number `q`. -/
def State.headIs (s : State) (k t q : Nat) : Bool :=
  match (s.strOf k).queue with
  | e :: _ => e.tag = t && e.seq = q
  | [] => false

/-- The streamer entry of the sheet `t`, `q` retires at the end of its exposure on station `k`, where it is still at the head: it leaves the
queue and both halves become EMPTY (R129). -/
def State.retire (s : State) (k t q : Nat) : State :=
  if s.headIs k t q then (s.updStr k fun x => { x with queue := x.queue.tail }).dropHead k else s

/-- `n` accesses by requester `r` are discarded at a fence (R97). -/
def State.absentDisc (s : State) (r n : Nat) : State :=
  if n = 0 then s else (s.addTo (Reg.STR_PLN_ABSENT_DISC_COUNT r) n).raise Reg.STR_PLN_STATUS 4

/-- The resource of kind `kind` and number `index` is held by feature `func` of instance `user` (R36). -/
def State.granted (s : State) (kind index func user : Nat) : Bool :=
  s.pmx.grants.any fun g => g.kind = kind && g.index = index && g.func = func && g.user = user

/-- Ball group `index` is held under `func`, by whatever instance its entry names (R400, R401). -/
def State.ballGranted (s : State) (index func : Nat) : Bool :=
  s.pmx.grants.any fun g => g.kind = 0 && g.index = index && g.func = func

/-- Ball group `index` is held under `func`, and the feature drives it and hears its edges: from the second peripheral clock after the commit
that gave it (R401). -/
def State.ballLive (s : State) (index func : Nat) : Bool :=
  s.pmx.grants.any fun g => g.kind = 0 && g.index = index && g.func = func && decide (g.liveAt ≤ s.clock)

/-- The seven banks of station `k`'s area are held for it (R121). -/
def State.areaGranted (s : State) (k : Nat) : Bool :=
  (List.range 7).all fun i => s.granted 2 (s.rd (Reg.STR_S_CTRL_FIRST_BANK k) + i) 0 k

/-- Station `k`'s streamer is disarmed: its entries are withdrawn (R121, R130). -/
def State.disarm (s : State) (k : Nat) : State :=
  ((s.withdraw k fun _ => true).wr (Reg.STR_S_CTRL_EN k) 0).wr (Reg.STR_S_STATE_ARMED k) 0

/-- The station whose armed area holds Vale bank `b` (R133). -/
def State.areaOf (s : State) (b : Nat) : Option Nat :=
  (List.range 8).find? fun k => s.on (Reg.STR_S_STATE_ARMED k)
    && decide (s.rd (Reg.STR_S_CTRL_FIRST_BANK k) ≤ b ∧ b < s.rd (Reg.STR_S_CTRL_FIRST_BANK k) + 7)

end Sys2Proof.Machine
end

