-- ==== Sys2Proof/Machine/Tim.lean ====
section
/-! DEFINITION. Meridian, its slew and step, and the alarm (R27 to R30, R39, R420). -/

namespace Sys2Proof.Machine

/-- Meridian counts: the main PLL runs (R27). -/
def State.counting (s : State) : Bool := s.on Reg.CLK_PLL_LOCKED

/-- The peripheral clock runs: the main PLL is locked, in EVENING and through a thermal hold-up too (R25, R298). -/
def State.periphClock (s : State) : Bool := s.on Reg.CLK_PLL_LOCKED

/-- The always-on domain holds beams, LDEN, BLD, STP and LPO outputs off: the PLL does not run, or the device is in NIGHT, its thermal
hold-up too (R298, R300). -/
def State.outputsHeld (s : State) : Bool := !s.periphClock || s.dev = stNight

/-- The core tree runs: PLL locked, and the device in DAWN, MORNING, NOON or DUSK (R33, R34, R299). -/
def State.coreClock (s : State) : Bool :=
  s.on Reg.CLK_PLL_LOCKED && decide (stDawn ≤ s.dev) && decide (s.dev ≤ stDusk)

/-- Meridian advances by `n` at once (R27, R28); what a count past 64 bits reads as is open (R29, log 40). -/
def State.advance (s : State) (n : Nat) : State :=
  let m := s.meridian + n
  { s with meridian := if m < 2 ^ 64 then m else (Config.meridianPast m).toNat }

/-- The peripheral clock, one period in 12 of the core clock, has its edge in this clock (R26, R208). -/
def State.periphEdge (s : State) : Bool := decide ((s.clock - s.lockAt) % 12 = 0)

/-- A slew of `count` ticks in `mode` replaces the one in progress; with mode 0 the count reads 0, and mode 3 changes nothing (R39). Its
1,024 clocks count from here (DEDUCED, log 52). -/
def State.slew (s : State) (mode count : Nat) : State :=
  if mode = 3 then s
  else
    let count := if mode = 0 then 0 else count
    let s := { s with slewRun := 0 }
    (s.wr Reg.TIM_SLEW_COUNT count).wr Reg.TIM_SLEW_MODE (if count % 65536 = 0 then 0 else mode)

/-- A write of `v` to `TIM_SLEW` (R39). -/
def State.slewWrite (s : State) (v : Nat) : State := s.slew (bitsOf v 0 2) (bitsOf v 16 16)

/-- The clock in 1,024 that a slew changes: an added tick advances Meridian by 2, a dropped one holds it (R28). The count falls, and at
0 the mode returns to 0 (R39). -/
def State.slewTick (s : State) : State :=
  let mode := s.rd Reg.TIM_SLEW_MODE
  let s := if mode = 1 then s.advance 2 else s
  let n := s.rd Reg.TIM_SLEW_COUNT - 1
  { (s.wr Reg.TIM_SLEW_COUNT n).wr Reg.TIM_SLEW_MODE (if n = 0 then 0 else mode) with slewRun := 0 }

/-- A slew is in progress, and the next clock is the one in 1,024 that it changes (R28). -/
def State.slewDue (s : State) : Bool := s.on Reg.TIM_SLEW_MODE && decide (1023 ≤ s.slewRun)

/-- One clock passes: Meridian counts it, but for what a slew adds or drops (R27, R28). -/
def State.clockTick (s : State) : State :=
  let s := { s with clock := s.clock + 1 }
  if s.slewDue then s.slewTick else { s.advance 1 with slewRun := if s.on Reg.TIM_SLEW_MODE then s.slewRun + 1 else 0 }

/-- A forward step of `n` ticks: accepted in DAWN only (R28). -/
def State.forwardStep (s : State) (n : Nat) : State :=
  if s.dev = stDawn then s.advance n else s.raise Reg.TIM_STATUS 1

/-- A write of `v` to `TIM_STEP_HI` applies the whole step, or is refused (R28, R39). -/
def State.stepWrite (s : State) (v : Nat) : State := s.forwardStep (s.rdw Reg.TIM_STEP_LO + v % 2 ^ 32 * 2 ^ 32)

/-- The alarm time (R420). -/
def State.alarmTime (s : State) : Nat := s.rd64 Reg.TIM_ALARM_LO Reg.TIM_ALARM_HI

/-- A write of `v` to `TIM_CTRL`: raising `ALARM_EN` arms the alarm, and lowering it disarms (R420). -/
def State.timCtrl (s : State) (v : Nat) : State :=
  let was := s.on Reg.TIM_CTRL_ALARM_EN
  let s := s.plainWrite Reg.TIM_CTRL v
  let en := s.on Reg.TIM_CTRL_ALARM_EN
  { s with alarmArmed := if en && !was then true else en && s.alarmArmed }

/-- A write of `v` to a half of the alarm time arms the alarm again while it is enabled (R420). -/
def State.alarmHalf (s : State) (o v : Nat) : State :=
  let s := s.plainWrite o v
  if s.on Reg.TIM_CTRL_ALARM_EN then { s with alarmArmed := true } else s

/-- The alarm is due: armed, enabled, and its time has come (R29, R420). -/
def State.alarmDue (s : State) : Bool :=
  s.alarmArmed && s.on Reg.TIM_CTRL_ALARM_EN && decide (s.alarmTime ≤ s.meridian)

/-- A write of `v` at offset `o` of block TIM (R39). -/
def State.timWrite (s : State) (o v : Nat) : State :=
  if o = Reg.TIM_SLEW then s.slewWrite v
  else if o = Reg.TIM_STEP_HI then s.stepWrite v
  else if o = Reg.TIM_ALARM_LO ∨ o = Reg.TIM_ALARM_HI then s.alarmHalf o v
  else if o = Reg.TIM_CTRL then s.timCtrl v
  else if o = Reg.TIM_STATUS then s.clearStatus o v
  else if o = Reg.TIM_IRQ_EN then s.writeIrqEn Reg.TIM_STATUS v
  else s.plainWrite o v

end Sys2Proof.Machine
end

