-- ==== Sys2Proof/Machine/Psq.lean ====
section
/-! DEFINITION. The page sequencer: pages, sheets, the Col, commit, abort and spoil, the hold queue, the seen set, the Gap (R42 to R75). -/

namespace Sys2Proof.Machine

/-! ## Pages and sheets -/

/-- Page states (R42, R74). -/
def pgFree : Nat := 0
@[inherit_doc pgFree] def pgSubmitted : Nat := 1
@[inherit_doc pgFree] def pgAdmitted : Nat := 2
@[inherit_doc pgFree] def pgVerified : Nat := 3
@[inherit_doc pgFree] def pgBound : Nat := 4
@[inherit_doc pgFree] def pgPrinting : Nat := 5
@[inherit_doc pgFree] def pgPrinted : Nat := 6
@[inherit_doc pgFree] def pgWithdrawn : Nat := 7
@[inherit_doc pgFree] def pgSuspect : Nat := 8

/-- Sheet states (R46, R74). -/
def shFree : Nat := 0
@[inherit_doc shFree] def shBound : Nat := 1
@[inherit_doc shFree] def shLaunched : Nat := 2
@[inherit_doc shFree] def shCommitted : Nat := 3
@[inherit_doc shFree] def shAborted : Nat := 4
@[inherit_doc shFree] def shSpoil : Nat := 5
@[inherit_doc shFree] def shDone : Nat := 6

/-- The state of page entry `n` (R42). -/
def State.pg (s : State) (n : Nat) : Nat := s.rd (Reg.PSQ_PG_STATE_STATE n)
/-- The state of sheet entry `t` (R46). -/
def State.sh (s : State) (t : Nat) : Nat := s.rd (Reg.PSQ_SH_STATE_STATE t)
/-- The sequence number of sheet entry `t` (R45). -/
def State.shSeq (s : State) (t : Nat) : Nat := s.rd (Reg.PSQ_SH_SEQ_SEQ t)
/-- The page of sheet entry `t` (R45, R75). -/
def State.shPage (s : State) (t : Nat) : Nat := s.rd (Reg.PSQ_SH_CTRL_PAGE t)
/-- The Col of sheet entry `t` (R47). -/
def State.col (s : State) (t : Nat) : Nat := s.rd64 (Reg.PSQ_SH_COL_LO t) (Reg.PSQ_SH_COL_HI t)
/-- The first exposure start (R48). -/
def State.expStart (s : State) (t : Nat) : Nat := s.col t + s.rdw (Reg.PSQ_SH_EXP_OFS t)
/-- The last exposure end (R48). -/
def State.expEnd (s : State) (t : Nat) : Nat := s.col t + s.rdw (Reg.PSQ_SH_END_OFS t)
/-- The spoil decision point (R48). -/
def State.exitTime (s : State) (t : Nat) : Nat := s.col t + s.rdw (Reg.PSQ_SH_EXIT_OFS t)
/-- The engine runs frames on a web (R69). -/
def State.web (s : State) : Bool := s.on Reg.PSQ_CTRL_WEB

/-- Sheet `t` beside its registers. -/
def State.sheetOf (s : State) (t : Nat) : SheetX :=
  match s.psq.sheet[t]? with
  | some x => x
  | none => {}

/-- `s` with what sheet `t` holds beside its registers changed. -/
def State.updSheet (s : State) (t : Nat) (f : SheetX → SheetX) : State :=
  { s with psq := { s.psq with sheet := s.psq.sheet.setIfInBounds t (f (s.sheetOf t)) } }

/-- `s` with what page `n` holds beside its registers changed. -/
def State.updPage (s : State) (n : Nat) (f : PageX → PageX) : State :=
  { s with psq := { s.psq with page := s.psq.page.setIfInBounds n (f (s.pageOf n)) } }

/-- The sheets in flight: LAUNCHED, COMMITTED, ABORTED or SPOIL (R33). -/
def State.inFlight (s : State) : Bool :=
  (List.range 64).any fun t => s.sh t = shLaunched || s.sh t = shCommitted || s.sh t = shAborted || s.sh t = shSpoil

/-- Some page is bound (R33). -/
def State.pageBound (s : State) : Bool := (List.range 256).any fun n => s.pg n = pgBound

/-- The sheets past their launch and not ended: LAUNCHED, COMMITTED or SPOIL (R49, R70). -/
def State.windowed (s : State) (t : Nat) : Bool := s.sh t = shLaunched || s.sh t = shCommitted || s.sh t = shSpoil

/-! ## The order of a tick (R214) -/

/-- The places of PSQ's actions in a tick: mismatches that withdraw a page, first those of the check path, whose `REASON` stands, then those
of the station decoders (R116), region instructions in core order from `rankRegion` on, commit grants, and the judging of EMITs; a Col
acts before them all. -/
def rankCheck : Nat := 1
@[inherit_doc rankCheck] def rankDecoder : Nat := 2
@[inherit_doc rankCheck] def rankRegion : Nat := 3
@[inherit_doc rankCheck] def rankGrant : Nat := 20
@[inherit_doc rankCheck] def rankEmit : Nat := 30

/-- PSQ may still take an action of place `rank` in this clock: none of a later place has been taken in it. -/
def State.inTurn (s : State) (rank : Nat) : Bool := !(decide (s.psq.actAt = s.clock) && decide (rank < s.psq.actRank))

/-- An action of place `rank` is taken in this clock. -/
def State.acted (s : State) (rank : Nat) : State := { s with psq := { s.psq with actAt := s.clock, actRank := rank } }

/-- PSQ takes the action `f` of place `rank`; one that comes after its turn has to come in the next clock (R214, log 4). -/
def State.turn (s : State) (rank : Nat) (f : State → State) : State := if s.inTurn rank then f (s.acted rank) else s

/-- The Gap is open: outside the exposure window of every sheet in LAUNCHED, COMMITTED or SPOIL (R70). -/
def State.gapOpen (s : State) : Bool :=
  !((List.range 64).any fun t => s.windowed t && decide (s.expStart t ≤ s.meridian ∧ s.meridian < s.expEnd t))

/-! ## Sheet events and the seen set (R59, R60) -/

/-- The event code of an outcome: 0 COMMIT, 1 ABORT, 2 SPOIL (R334, R359). -/
def outcomeCode (o : Nat) : Nat := 0xF0 + o

/-- The fabric devices in sheet `t`'s seen set (R60, R74). -/
def State.seenFab (s : State) (t : Nat) : List Nat :=
  [s.rd (Reg.PSQ_SH_SEEN_FAB01_ID0 t), s.rd (Reg.PSQ_SH_SEEN_FAB01_ID1 t), s.rd (Reg.PSQ_SH_SEEN_FAB23_ID2 t),
    s.rd (Reg.PSQ_SH_SEEN_FAB23_ID3 t)].take (s.rd (Reg.PSQ_SH_SEEN_FAB_COUNT t))

/-- The outcome event `o` of sheet `t` goes to every member of its seen set, and to the finisher where `fin` says so (R60, R64,
R69, R213). -/
def State.sendOutcome (s : State) (t o : Nat) (fin : Bool) : State :=
  let reason := s.rd (Reg.PSQ_SH_STATE_REASON t)
  let seq := s.shSeq t
  let cores := s.rd (Reg.PSQ_SH_SEEN_CORES t)
  let s := forEach (List.finRange 12) s fun s n =>
    if bitAt cores n.val then s.shevPush n { tag := t, seq := seq, outcome := o, reason := reason } else s
  let s := if s.on (Reg.PSQ_SH_SEEN_HOST t) then s.hostEvent seq t (outcomeCode o) 0 reason else s
  let s := if s.on (Reg.PSQ_SH_SEEN_FINISHER t) || fin then s.finEvent seq (outcomeCode o) 0 reason else s
  forEach (s.seenFab t) s fun s d => s.fabSheetEvent d seq t (outcomeCode o) 0 reason

/-- Core `n` enters sheet `t`'s seen set (R213). -/
def State.seeCore (s : State) (t : Nat) (n : Fin 12) : State :=
  s.wr (Reg.PSQ_SH_SEEN_CORES t) (bitPut (s.rd (Reg.PSQ_SH_SEEN_CORES t)) n.val true)

/-- Fabric device `d` enters sheet `t`'s seen set; none where four others are in it (R60). -/
def State.seeFab (s : State) (t d : Nat) : Option State :=
  let l := s.seenFab t
  if l.contains d then some s
  else
    match l.length with
    | 0 => some ((s.wr (Reg.PSQ_SH_SEEN_FAB01_ID0 t) d).wr (Reg.PSQ_SH_SEEN_FAB_COUNT t) 1)
    | 1 => some ((s.wr (Reg.PSQ_SH_SEEN_FAB01_ID1 t) d).wr (Reg.PSQ_SH_SEEN_FAB_COUNT t) 2)
    | 2 => some ((s.wr (Reg.PSQ_SH_SEEN_FAB23_ID2 t) d).wr (Reg.PSQ_SH_SEEN_FAB_COUNT t) 3)
    | 3 => some ((s.wr (Reg.PSQ_SH_SEEN_FAB23_ID3 t) d).wr (Reg.PSQ_SH_SEEN_FAB_COUNT t) 4)
    | _ => none

/-! ## The pending queues and the hold queue (R56, R57, R207, R208) -/

/-- The lead of a block in ticks (R208): 96 for BLD, STP, PRA, ADC and PWR, 16 for PSQ and the BTM blocks. -/
def leadOf (block : Nat) : Nat := if block = 3 ∨ block = 22 ∨ block = 23 ∨ block = 24 ∨ block = 25 then 96 else 16

/-- Command `c` comes before `d`: by effect time, then by the clock of its EMIT, then by its core (R207). -/
def Cmd.before (c d : Cmd) : Bool :=
  decide (c.time < d.time) || (decide (c.time = d.time) &&
    (decide (c.issued < d.issued) || (decide (c.issued = d.issued) && decide (c.core < d.core))))

/-- A command takes its place in a queue (R207). -/
def cmdInsert (c : Cmd) : List Cmd → List Cmd
  | [] => [c]
  | d :: rest => if c.before d then c :: d :: rest else d :: cmdInsert c rest

/-- A command reaches its block's pending queue; its lead counts from tick `done` on (R207, R208). -/
def State.enqueue (s : State) (c : Cmd) (done : Nat) : State :=
  { s with pend := cmdInsert { c with due := max c.time (done + leadOf c.block) } s.pend }

/-- The entries of block `b`'s pending queue that are taken or reserved for held commands (R207). -/
def State.pendCount (s : State) (b : Nat) : Nat :=
  (s.pend.filter fun c => c.block = b).length + (s.psq.hold.filter fun c => c.block = b).length

/-- Command `c` of block `b` may take effect now (R208). -/
def State.cmdDue (s : State) (b : Nat) (c : Cmd) : Bool := c.block = b && decide (c.due ≤ s.meridian)

/-- Block `b` acts on commands in this clock: one of the peripheral domain at an edge of its clock, which runs in EVENING too, the others
while the core tree runs (R25, R208). -/
def State.blockTurn (s : State) (b : Nat) : Bool := if leadOf b = 96 then s.counting && s.periphEdge else s.coreClock

/-- The first command of block `b`'s pending queue that may take effect now (R207, R208). -/
def State.dueCmd (s : State) (b : Nat) : Option Cmd := if s.blockTurn b then s.pend.find? (s.cmdDue b) else none

/-- `s` without the command that `dueCmd` finds. -/
def State.popCmd (s : State) (b : Nat) : State := { s with pend := s.pend.eraseP (s.cmdDue b) }

/-- The held commands of sheet `t` go to their blocks in issue order; their leads count from the grant (R56, R208). -/
def State.releaseHeld (s : State) (t : Nat) : State :=
  let mine := s.psq.hold.filter fun c => c.tag = some (t, s.shSeq t)
  let s := { s with psq := { s.psq with hold := s.psq.hold.filter fun c => c.tag ≠ some (t, s.shSeq t) } }
  forEach mine s fun s c => s.enqueue c s.meridian

/-- Every held command of tag `t` is discarded and its reservation freed (R53). -/
def State.dropHeld (s : State) (t : Nat) : State :=
  { s with psq := { s.psq with hold := s.psq.hold.filter fun c => (c.tag.map Prod.fst) ≠ some t } }

/-! ## How a page leaves its sheet -/

/-- A bound page returns to VERIFIED or ADMITTED, as its check stands (R42). -/
def State.pageBack (s : State) (n : Nat) : State :=
  if s.pg n = pgBound then
    s.wr (Reg.PSQ_PG_STATE_STATE n) (if s.on (Reg.PSQ_PG_CHECK_DONE n) then pgVerified else pgAdmitted)
  else s

/-- Sheet `t` becomes DONE; its page, if PRINTING, becomes PRINTED or SUSPECT, its reservation is released and the
consumables count it (R42, R46, R68, R321). -/
def State.sheetDone (s : State) (t : Nat) : State :=
  let s := s.wr (Reg.PSQ_SH_STATE_STATE t) shDone
  let n := s.shPage t
  if s.pg n = pgPrinting then
    let s := s.wr (Reg.PSQ_PG_STATE_STATE n) (if (s.pageOf n).mismatch then pgSuspect else pgPrinted)
    let s := (s.unpinPage n).updPage n fun p => { p with pinned := false }
    let s := s.csmPage (s.rd (Reg.PSQ_SH_CTRL_STATIONS t))
    s.jrnOutcome (if (s.pageOf n).mismatch then 0x14 else 0x13) 0 (s.shSeq t) n t
  else s

/-- A drive of output `out` that starts now: the output, and the tick at which it ends (R53, R64). -/
def State.pulseDrive (s : State) (out : Nat) : Nat × Nat := (out, s.meridian + s.rd Reg.PSQ_PURGE_CFG_PULSE_MS * 3000000)

/-- A drive of PURGEk that starts now (R53). -/
def State.purgeDrive (s : State) : Nat × Nat := s.pulseDrive (s.rd Reg.PSQ_PURGE_CFG_PURGE_OUT)

/-- A LAUNCHED sheet enters ABORTED with `reason` (R46, R53, R54, R69): its held commands are discarded, its stream entries
withdrawn, its ABORT events queued, and on a cut-sheet engine its purge pulse scheduled at the Col, or at once after it. -/
def State.abortSheet (s : State) (t reason : Nat) : State :=
  let s := ((s.wr (Reg.PSQ_SH_STATE_STATE t) shAborted).wr (Reg.PSQ_SH_STATE_ARMED t) 0).wr (Reg.PSQ_SH_STATE_REASON t) reason
  let s := (s.inc Reg.PSQ_CNT_ABORT_COUNT).count 15 0 1
  let s := s.dropHeld t
  let s := s.withdrawAll fun e => e.tag = t
  let s := s.sendOutcome t 1 s.web
  let s := s.jrnOutcome 0x11 reason (s.shSeq t) (s.shPage t) t
  let s := s.pageBack (s.shPage t)
  if s.web then s
  else
    let p : Pulse := { tag := t, drive := if s.col t ≤ s.meridian then some s.purgeDrive else none }
    { s with psq := { s.psq with purges := s.psq.purges ++ [p] } }

/-- A COMMITTED sheet enters SPOIL with `reason` (R63, R64, R69). At the very tick of the spoil decision point, which R64 names neither
before nor after, it counts as after it (DESIGN CHOICE, log 55). -/
def State.spoilSheet (s : State) (t reason : Nat) : State :=
  let late := s.web || decide (s.exitTime t ≤ s.meridian)
  let s := (s.wr (Reg.PSQ_SH_STATE_STATE t) shSpoil).wr (Reg.PSQ_SH_STATE_REASON t) reason
  let s := (s.inc Reg.PSQ_CNT_SPOIL_COUNT).raise Reg.PSQ_STATUS 2
  let s := s.updSheet t fun x => { x with lateSpoil := late }
  let s := s.sendOutcome t 2 late
  s.jrnOutcome 0x12 reason (s.shSeq t) (s.shPage t) t

/-- The COMMITTED sheet `t` becomes a spoil; a sheet in another state stays (R63). -/
def State.spoilIf (s : State) (t reason : Nat) : State := if s.sh t = shCommitted then s.spoilSheet t reason else s

/-- A BOUND sheet ends as DONE without a launch: no purge and no events (R46). -/
def State.endBound (s : State) (t reason : Nat) : State :=
  let s := (s.wr (Reg.PSQ_SH_STATE_STATE t) shDone).wr (Reg.PSQ_SH_STATE_REASON t) reason
  s.withdrawAll fun e => e.tag = t

/-- Page entry `n` enters WITHDRAWN with `reason`; its pins go back, and the sheet bound to it ends with `shReason` as R46 gives
(R42, R46, R68, R130). -/
def State.withdrawPage (s : State) (n reason shReason : Nat) : State :=
  let was := s.pg n
  let t := s.rd (Reg.PSQ_PG_STATE_SHEET n)
  let s := (s.wr (Reg.PSQ_PG_STATE_STATE n) pgWithdrawn).wr (Reg.PSQ_PG_STATE_REASON n) reason
  let s := (s.inc Reg.PSQ_CNT_WITHDRAW_COUNT).raise Reg.PSQ_STATUS 1
  let s := (s.unpinPage n).updPage n fun p => { p with pinned := false, checking := false }
  let s := s.withdrawAll fun e => e.page = n
  let s := s.jrnOutcome 0x15 reason (if was = pgBound then s.shSeq t else 0) n (if was = pgBound then t else 0)
  if was = pgBound then
    if s.sh t = shBound then s.endBound t shReason
    else if s.sh t = shLaunched then s.abortSheet t shReason
    else s
  else s

/-! ## Binding and freeing (R45, R46, R74, R75) -/

/-- N1 sets `VALID` of the FREE sheet entry `t`: it is bound, or the binding fails with `REASON` 0x15 (R45). -/
def State.bindSheet (s : State) (t : Nat) : State :=
  let n := s.shPage t
  if s.pg n = pgAdmitted ∨ s.pg n = pgVerified then
    let seq := s.rd Reg.PSQ_NEXT_SEQ_SEQ
    let s := (s.wr (Reg.PSQ_SH_SEQ_SEQ t) seq).wr Reg.PSQ_NEXT_SEQ_SEQ (fitNat 32 (seq + 1))
    let s := (s.wr (Reg.PSQ_SH_STATE_STATE t) shBound).wr (Reg.PSQ_SH_STATE_REASON t) 0
    let s := (s.wr (Reg.PSQ_SH_CTRL_VALID t) 1).wr (Reg.PSQ_SH_STATE_ARMED t) 0
    let s := ((s.wrw (Reg.PSQ_SH_SEEN t) 0).wrw (Reg.PSQ_SH_SEEN_FAB01 t) 0).wrw (Reg.PSQ_SH_SEEN_FAB23 t) 0
    let s := s.updSheet t fun _ => {}
    (s.wr (Reg.PSQ_PG_STATE_STATE n) pgBound).wr (Reg.PSQ_PG_STATE_SHEET n) t
  else (s.wr (Reg.PSQ_SH_CTRL_VALID t) 0).wr (Reg.PSQ_SH_STATE_REASON t) 0x15

/-- N1 clears `VALID` of a sheet entry in BOUND or DONE: the tag is free, and a bound page returns (R46). -/
def State.freeSheet (s : State) (t : Nat) : State :=
  if s.sh t = shBound then
    let s := (s.wr (Reg.PSQ_SH_STATE_STATE t) shFree).wr (Reg.PSQ_SH_CTRL_VALID t) 0
    s.pageBack (s.shPage t)
  else if s.sh t = shDone then (s.wr (Reg.PSQ_SH_STATE_STATE t) shFree).wr (Reg.PSQ_SH_CTRL_VALID t) 0
  else s

/-- `SYS_STATUS.OWN_ERR` sets, with the offset, the direction and the master latched (R17, R23, R38, R75). -/
def State.ownErr (s : State) (src off : Nat) (master : Nat) : State :=
  let s := s.raise Reg.SYS_STATUS src
  let s := (s.wr Reg.SYS_DECODE_INFO_OFFSET off).wr Reg.SYS_DECODE_INFO_WRITE 1
  s.wr Reg.SYS_DECODE_INFO_MASTER master

/-- A write of `v` to `PSQ_SHn_CTRL` by `master` (R45, R74, R75). -/
def State.sheetCtrl (s : State) (t v master : Nat) : State :=
  let off := Reg.PSQ_SH_CTRL t
  let old := s.rdw off
  let st := s.sh t
  let page := bitsOf v 0 8
  let others := bitsOf v 8 12
  let badPage := st ≠ shFree ∧ page ≠ bitsOf old 0 8
  let locked := shLaunched ≤ st ∧ st ≤ shSpoil
  let badOther := locked ∧ others ≠ bitsOf old 8 12
  let s := if badPage ∨ badOther then s.ownErr 2 off master else s
  let s := if badPage then s else s.wr (Reg.PSQ_SH_CTRL_PAGE t) page
  let s := if badOther then s else s.wrw off (bitsSet (s.rdw off) 8 12 others)
  if bitAt v 31 then (if st = shFree then s.bindSheet t else s) else s.freeSheet t

/-- A write of `v` to another register of sheet entry `t` that holds fields fixed from the launch to DONE (R74, R75). -/
def State.sheetField (s : State) (t off v master : Nat) : State :=
  let st := s.sh t
  if shLaunched ≤ st ∧ st ≤ shSpoil then
    if plainWord off (s.rdw off) v = s.rdw off then s else s.ownErr 2 off master
  else s.plainWrite off v

/-- A write of `v` to `PSQ_PGn_ADDR_HI`: 1 in `VALID` submits a FREE entry, 0 frees one that is PRINTED, SUSPECT or WITHDRAWN (R42,
R74). -/
def State.pageHi (s : State) (n v : Nat) : State :=
  let s := s.wr (Reg.PSQ_PG_ADDR_HI_ADDR n) v
  let st := s.pg n
  if bitAt v 31 then
    if st = pgFree then
      let s := (s.wr (Reg.PSQ_PG_ADDR_HI_VALID n) 1).wr (Reg.PSQ_PG_STATE_STATE n) pgSubmitted
      let s := (s.wr (Reg.PSQ_PG_STATE_REASON n) 0).wrw (Reg.PSQ_PG_CHECK n) 0
      s.updPage n fun p => { p with mismatch := false, checking := false, pinned := false }
    else s
  else if st = pgPrinted ∨ st = pgSuspect ∨ st = pgWithdrawn then
    ((s.unpinPage n).wr (Reg.PSQ_PG_ADDR_HI_VALID n) 0).wr (Reg.PSQ_PG_STATE_STATE n) pgFree
  else s

/-! ## Launch and commit (R49 to R52, R71, R73) -/

/-- The dusk threshold of 121 °C in 1/64 °C (R50, R294), and a temperature field read as signed. -/
def State.tmax (s : State) : Int := signedOf (s.rd Reg.THM_STATE_TMAX) 16

/-- The effective Gap minimum in ticks (R71). -/
def State.gapMin (s : State) : Nat :=
  let v := s.rd Reg.PSQ_SPEED_MM_S
  max (s.rd Reg.PSQ_GAP_CFG_MIN_US * 3000) ((s.rd Reg.PSQ_GAP_CFG_PAPER_MM * 3000000000 + v - 1) / v)

/-- The other sheets in LAUNCHED, COMMITTED or SPOIL. -/
def State.others (s : State) (t : Nat) : List Nat := (List.range 64).filter fun u => u ≠ t && s.windowed u

/-- The latest last-exposure end among the earlier sheets: that of the sheet with the latest Col (R49). -/
def State.lastEnd (s : State) (t : Nat) : Option Nat :=
  (s.others t).foldl (fun acc u => match acc with
    | none => some u
    | some w => if s.col w < s.col u then some u else some w) none |>.map s.expEnd

/-- The launch checks in order: 0, or the `REASON` of the first that fails (R49). -/
def State.launchCheck (s : State) (t : Nat) : Nat :=
  if !((s.dev = stMorning ∨ s.dev = stNoon) ∧ s.on Reg.PSQ_CTRL_EN ∧ !s.on Reg.PSQ_CTRL_LAUNCH_HOLD) then 0x14
  else if s.sh t ≠ shBound then 0x15
  else if (s.others t).any fun u => decide (s.col t ≤ s.col u) then 0x10
  else if s.col t < s.meridian + 3000000 then 0x12
  else if !s.web && s.rdw (Reg.PSQ_SH_EXP_OFS t) = 0 then 0x13
  else
    match s.lastEnd t with
    | some e => if s.expStart t < e + s.gapMin + s.rd Reg.PSQ_GAP_STATUS_STRETCH_MS * 3000000 then 0x11 else 0
    | none => 0

/-- Dusk cause present (R33, R294). -/
def State.duskCause (s : State) : Bool := s.on Reg.THM_STATE_DUSK_CAUSE

/-- PSQ opens the first speculative launch: MORNING becomes NOON, and DUSK at once where the dusk cause is set (R33). The Gap, open
throughout MORNING, stays open: that is no opening that `PSQ_GAP_COUNT` counts (R70; DESIGN CHOICE, log 54). -/
def State.enterNoon (s : State) : State :=
  if s.dev = stMorning then
    let s := s.goTo stNoon
    let s := { s with psq := { s.psq with gapOpen := true } }
    if s.duskCause then s.goTo stDusk else s
  else s

/-- The peer's outcome for sheet `t` that PSQ sees now (R61, R62, R371). -/
def State.peerCode (s : State) (t : Nat) : Option Nat :=
  (s.fab.peers.find? fun p => p.dev = s.rd (Reg.PSQ_SH_PEER_PEER_ID t) && p.seq = s.rdw (Reg.PSQ_SH_PEER_SEQ t)
    && decide (p.from_ ≤ s.meridian)).map PeerOutcome.code

/-- The loops that sheet `t`'s loop set requires are locked (R50 d). -/
def State.loopsLocked (s : State) (t : Nat) : Bool :=
  (List.range 4).all fun k =>
    let m := s.rdw (Reg.PSQ_LOOPMASK (s.rd (Reg.PSQ_SH_CTRL_LOOPSET t)) k)
    s.rdw (Reg.PRA_LOCKED k) &&& m = m

/-- The first commit precondition of sheet `t` that fails, as its `REASON`; 0 where all hold (R50). -/
def State.precondition (s : State) (t : Nat) : Nat :=
  let n := s.shPage t
  if !(s.pg n = pgVerified ∨ (s.pg n = pgBound ∧ s.on (Reg.PSQ_PG_CHECK_DONE n))) then 0x02
  else if !s.reserved n then 0x03
  else if !((List.range 8).all fun k => !bitAt (s.rd (Reg.PSQ_SH_CTRL_STATIONS t)) k || s.on (Reg.BTM_STATE_READY k)) then 0x04
  else if !s.loopsLocked t then 0x05
  else if !(s.dev = stNoon ∧ s.tmax < 121 * 64) then 0x06
  else if s.on (Reg.PSQ_SH_CTRL_PAIR t) then
    match s.peerCode t with
    | none => 0x07
    | some c => if c = 0xF0 then 0 else 0x08
  else 0

/-- Sheet `t`'s commit is granted: it is COMMITTED, its page PRINTING, its held commands go to their blocks and its COMMIT events are
sent (R46, R51, R56, R60). -/
def State.grantCommit (s : State) (t : Nat) : State :=
  let s := (s.wr (Reg.PSQ_SH_STATE_STATE t) shCommitted).wr (Reg.PSQ_SH_STATE_ARMED t) 0
  let s := s.wr (Reg.PSQ_PG_STATE_STATE (s.shPage t)) pgPrinting
  let s := (s.inc Reg.PSQ_CNT_COMMIT_COUNT).count 14 0 1
  let s := s.releaseHeld t
  let s := s.sendOutcome t 0 false
  s.jrnOutcome 0x10 0 (s.shSeq t) (s.shPage t) t

/-- The commit preconditions of sheet `t` are evaluated at this tick (R51). -/
def State.evalSheet (s : State) (t : Nat) : State := s.updSheet t fun x => { x with lastFail := s.precondition t }

/-- The `REASON` of a Col abort (R51): 0x01 where no COMMIT armed the sheet, else the precondition that failed at the last tick it was
evaluated; where none has been recorded, the one that fails now (log 16). -/
def State.colReason (s : State) (t : Nat) : Nat :=
  if !s.on (Reg.PSQ_SH_STATE_ARMED t) then 0x01
  else if (s.sheetOf t).lastFail ≠ 0 then (s.sheetOf t).lastFail
  else s.precondition t

/-- The fate of a tagged irreversible command and of other commands, as the verdict of R205: sent, held, discarded, early, or of
another sheet (R56, R205). -/
def State.verdict (s : State) (irrev : Bool) (time : Nat) (tag : Option (Nat × Nat)) : Nat :=
  match tag with
  | none => 0
  | some (t, q) =>
    if s.shSeq t ≠ q then 4
    else if !irrev then 0
    else if (s.sh t = shLaunched ∨ s.sh t = shCommitted) ∧ time < s.col t then 3
    else if s.sh t = shLaunched then 1
    else if s.sh t = shCommitted then 0
    else 2

/-- A mismatch enters the queue of R117, or is lost. -/
def State.mmPush (s : State) (m : Mismatch) : State :=
  if s.mmq.length < 16 then { s with mmq := s.mmq ++ [m] } else s.raise Reg.CDC_STATUS 4

/-- What a station decoder's mismatch does, by the state of its sheet (R115). -/
def State.streamMismatch (s : State) (n t : Nat) : State :=
  if s.sh t = shBound ∨ s.sh t = shLaunched then
    if s.pg n = pgBound then s.withdrawPage n 0x05 0x0A else s
  else if s.sh t = shCommitted ∨ s.sh t = shSpoil then
    (s.updPage n fun p => { p with mismatch := true }).spoilIf t 0x20
  else s

end Sys2Proof.Machine
end

