-- ==== Sys2Proof/Machine/Vale.lean ====
section
/-! DEFINITION. The local bus as masters other than the streamer see it: which memory an address lies in, Vale banks, table banks and
their fences, and reads and writes of a block (R18, R97, R132 to R136, R197). -/

namespace Sys2Proof.Machine

/-- The memories of the local bus (R18, R197). -/
inductive Place where
  | vale
  | table
  | coreMem (n : Nat)
  | control
  | dram
  | unmapped
  deriving DecidableEq, Repr

/-- The memory that local bus address `a` lies in (R18). -/
def placeOf (a : Nat) : Place :=
  if 0xE0000000 ≤ a ∧ a < 0xE2000000 then .vale
  else if 0xE2000000 ≤ a ∧ a < 0xE2100000 then .table
  else if 0xE4000000 ≤ a ∧ a < 0xE4300000 then
    let o := (a - 0xE4000000) % 0x40000
    if o < 0x10000 ∨ 0x20000 ≤ o then .coreMem ((a - 0xE4000000) / 0x40000) else .unmapped
  else if 0xF0000000 ≤ a ∧ a < 0xF0400000 then .control
  else if dramBase ≤ a ∧ a < dramEnd then .dram
  else .unmapped

/-- The single-port bank of a Vale address (R18). -/
def valeBank (a : Nat) : Nat := (a - 0xE0000000) / 0x80000

/-- The station of a table-bank address: banks 2k and 2k + 1 belong to Sk (R136). -/
def tableStation (a : Nat) : Nat := (a - 0xE2000000) / 0x20000

/-- The station whose line buffers hold Vale address `a` (R97, R119). -/
def State.lineStation (s : State) (a : Nat) : Option Nat :=
  match s.areaOf (valeBank a) with
  | some k => if a < s.halfAddr k 0 + 0x31E000 then some k else none
  | none => none

/-- The station whose line buffers or table banks hold local address `a` (R97). -/
def State.stationAt (s : State) (a : Nat) : Option Nat :=
  match placeOf a with
  | .vale => s.lineStation a
  | .table => some (tableStation a)
  | _ => none

/-- A request to `a` is answered ABSENT: its station is fenced (R97), or it is the DRAM of a core program load of a fused station. -/
def State.absentAt (s : State) (a : Nat) : Bool :=
  match s.stationAt a with
  | some k => s.fenced k
  | none => false

/-- `VALE_ERR_INFO` latches an error at local address `a` (R145); `m` is the master index of R132. -/
def State.valeErr (s : State) (src a m : Nat) (write : Bool) : State :=
  let s := s.raise Reg.VALE_STATUS src
  let s := (s.wr Reg.VALE_ERR_INFO_OFFSET (a - 0xE0000000)).wr Reg.VALE_ERR_INFO_WRITE (boolNat write)
  s.wr Reg.VALE_ERR_INFO_MASTER m

/-- The copy of station tables that offset `o` of a table bank lies in; `odd` for bank 2k + 1 (R162). -/
def tableCopy (odd : Bool) (o : Nat) : Option Nat :=
  if !odd then (if o < 0x4000 then some 0 else if o < 0x8000 then some 1 else none)
  else if o < 0x40 then some 0
  else if o < 0x80 then some 1
  else if o < 0xE0 then some 0
  else if 0x100 ≤ o ∧ o < 0x160 then some 1
  else none

/-- Table-bank address `a` lies in the live copy of its station's tables (R165). -/
def State.liveTable (s : State) (a : Nat) : Bool :=
  tableCopy ((a - 0xE2000000) / 0x10000 % 2 = 1) ((a - 0xE2000000) % 0x10000) = some (s.rd (Reg.BTM_TBL_CTRL_LIVE (tableStation a)))

/-- A port B write to a table bank: bytes in the live copy are dropped, flagged and counted once (R165). -/
def State.tableWrite (s : State) (a : Nat) (bs : List Byte) : State :=
  let cells := bs.zipIdx.map fun x => (a + x.2, x.1)
  let s := if cells.any fun c => s.liveTable c.1 then
      (s.raise (Reg.BTM_STATUS (tableStation a)) 3).inc (Reg.BTM_CNT_LIVE_WRITE_COUNT (tableStation a))
    else s
  forEach cells s fun s c => if s.liveTable c.1 then s else s.writeByte c.1 c.2

/-- Local address `a` lies in the memories of a core that a fuse holds in reset: they take no program load (R3). -/
def State.fusedCore (s : State) (a : Nat) : Bool :=
  match placeOf a with
  | .coreMem n => s.aon.fuse4 && decide (6 ≤ n ∧ n ≤ 9)
  | _ => false

/-- A write of bytes by master index `m` (R132) to local address `a`: into a bank of an armed streamer area it is dropped and
`AREA_WRITE` sets (R133); into the live copy of a table, or a fused core's memory, it is dropped (R3, R165); the rest of the memories
take it. -/
def State.busWrite (s : State) (m a : Nat) (bs : List Byte) : State :=
  if s.fusedCore a then s
  else if placeOf a = .vale ∧ (s.areaOf (valeBank a)).isSome then s.valeErr 3 a m true
  else if placeOf a = .table then s.tableWrite a bs
  else s.writeBytes a bs

/-- The bytes that master reads from local address `a`: zeros from a fenced station (R97). -/
def State.busRead (s : State) (a n : Nat) : List Byte :=
  if s.absentAt a then List.replicate n 0 else s.readBytes a n

/-- `n` bytes from `a` set to zero. Where unlisted bytes read 0 this drops the listed ones. -/
def State.zeroRange (s : State) (a n : Nat) : State :=
  if (if dramBase ≤ a then s.dramEpoch else s.dieEpoch) = 0 then { s with mem := sparseDrop a (a + n) s.mem }
  else s.writeBytes a (List.replicate n 0)

end Sys2Proof.Machine
end

