-- ==== Sys2Proof/Machine/Stream.lean ====
section
/-! DEFINITION. The streamer (R119 to R131): arming, pushes, fills in two passes, bursts, and the station decoders (R115). -/

namespace Sys2Proof.Machine

/-! ## Registers of the streamer (R121, R122, R144) -/

/-- A write of `v` to `STR_CTRL`: `EN` written 0 withdraws every entry (R144). -/
def State.strCtrl (s : State) (v : Nat) : State :=
  let s := s.wr Reg.STR_CTRL_EN v
  if bitAt v 0 then s else s.withdrawAll fun _ => true

/-- A write of `v` to `STR_Sk_CTRL`: arming, disarming and withdrawal (R121, R130, R144). -/
def State.strStation (s : State) (k v : Nat) : State :=
  let armed := s.on (Reg.STR_S_STATE_ARMED k)
  let s := if armed then s else s.wr (Reg.STR_S_CTRL_FIRST_BANK k) (bitsOf v 8 6)
  let s := if bitAt v 1 then s.withdraw k fun _ => true else s
  if bitAt v 0 then
    if armed then s
    else if s.rd (Reg.STR_S_CTRL_FIRST_BANK k) ≤ 57 ∧ s.areaGranted k ∧ k < s.stations then
      (s.wr (Reg.STR_S_CTRL_EN k) 1).wr (Reg.STR_S_STATE_ARMED k) 1
    else s.raiseInst Reg.STR_STATUS 1 Reg.STR_FIRST_STATION_STATION k
  else if armed then s.disarm k
  else s

/-- A write of `v` to `STR_Sk_Q_PUSH`: with `PUSH` it queues a stream entry, or refuses it with `QUEUE_ERR` (R122). -/
def State.strPush (s : State) (k v : Nat) : State :=
  if !bitAt v 31 then s
  else
    let n := bitsOf v 0 8
    let t := bitsOf v 8 6
    if s.on Reg.STR_CTRL_EN ∧ s.on (Reg.STR_S_STATE_ARMED k) ∧ !s.fenced k ∧ (s.strOf k).queue.length < 2 ∧ s.pg n = pgBound
        ∧ s.rd (Reg.PSQ_PG_STATE_SHEET n) = t ∧ bitAt (s.pgStations n) k ∧ bitAt (s.rd (Reg.PSQ_SH_CTRL_STATIONS t)) k then
      let e : StrEntry := { page := n, tag := t, seq := s.shSeq t,
                            time := s.rd64 (Reg.STR_S_Q_TIME_LO k) (Reg.STR_S_Q_TIME_HI k), started := false }
      s.updStr k fun x => { x with queue := x.queue ++ [e] }
    else s.raiseInst Reg.STR_STATUS 3 Reg.STR_FIRST_STATION_STATION k

/-! ## Starting a fill (R123, R129) -/

/-- The bursts of pass 1 of band `b`: the table entry, then the slots in ascending address (R123). -/
def State.pass1 (s : State) (n k b : Nat) : List Burst :=
  { kind := .table, addr := (s.pgBand n k + 8 * b) / 4096 * 4096, live := true }
    :: (blocks4k (s.slotAddr n k (8 * b) 0) (512 * s.pgWidth n)).map fun a => { kind := .slots, addr := a, live := true }

/-- The check of failing tile `t` still counts: its entry has not left the queue before this tick (R116, R130). -/
def State.tileCounts (s : State) (t : BadTile) : Bool := t.goneAt.all fun c => c = s.clock

/-- The fill of band `b` of the head entry begins: its half is FILLING, all its dots code 0 until the decoders write them (R120, R123,
R129). -/
def State.startFill (s : State) (k : Nat) (e : StrEntry) : State :=
  let b := (s.strOf k).next
  let h := b % 2
  let pad := decide (s.pgBands e.page ≤ b)
  let todo := if pad then [] else s.pass1 e.page k b
  let f : Fill := { band := b, pad := pad, todo := todo, left := todo.length, pass2 := false, tableBad := false, first := 0,
                    count := 0, rawIndex := [], doneAt := none }
  let bad := (s.strOf k).bad.filter s.tileCounts
  let s := s.updStr k fun x => { x with fill := some f, bad := bad, bandOf := x.bandOf.setIfInBounds h b }
  let s := s.wr (halfFld k h) 1
  let s := if pad then s.wr (Reg.STR_S_STATE_PAD k) 1 else s
  s.zeroRange (s.halfAddr k h) 1634304

/-- The next band of the head entry may be filled: its half is EMPTY, no fill runs, and for a band of the page `CDC_CTRL.EN` is 1
(R123). -/
def State.fillDue (s : State) (k : Nat) (e : StrEntry) : Bool :=
  let x := s.strOf k
  s.on Reg.STR_CTRL_EN && s.on (Reg.STR_S_STATE_ARMED k) && x.fill.isNone && s.half k (x.next % 2) = 0
    && (decide (s.pgBands e.page ≤ x.next) || s.on Reg.CDC_CTRL_EN)

/-- The head entry of station `k` starts fetching: its prefetch time has come and both halves are EMPTY (R123). -/
def State.prefetch (s : State) (k : Nat) : State :=
  match (s.strOf k).queue with
  | e :: rest =>
    if !e.started ∧ e.time ≤ s.meridian ∧ s.half k 0 = 0 ∧ s.half k 1 = 0 ∧ s.on Reg.STR_CTRL_EN
        ∧ s.on (Reg.STR_S_STATE_ARMED k) then
      let s := s.updStr k fun x => { x with queue := { e with started := true } :: rest, next := 0 }
      if s.fillDue k e then s.startFill k e else s
    else s
  | [] => s

/-- A band or end-padding fill starts into a half that has become EMPTY (R123, R129). -/
def State.bandFill (s : State) (k : Nat) : State :=
  match (s.strOf k).queue with
  | e :: _ => if e.started ∧ s.fillDue k e then s.startFill k e else s
  | [] => s

/-- The bursts of station `k` that a place of the staging ring is kept for: those in flight and those not consumed (R119, R124; DEDUCED, log
72). -/
def State.ringUsed (s : State) (k : Nat) : Nat := (s.strOf k).flight.length + (s.strOf k).ring.length

/-- Station `k` may issue a burst now: 2,268 ticks after the last one, with fewer than 8 in flight and room in the staging ring (R124). -/
def State.mayIssue (s : State) (k : Nat) : Bool :=
  (s.strOf k).lastIssue.all (fun t => decide (t + 2268 ≤ s.clock)) && decide ((s.strOf k).flight.length < 8) && decide (s.ringUsed k < 82)

/-- Station `k` issues the next burst of its fill (R123, R124). -/
def State.issueBurst (s : State) (k : Nat) : State :=
  match (s.strOf k).fill with
  | some f =>
    match f.todo with
    | b :: rest =>
      if s.mayIssue k then
        let now := s.clock
        (s.updStr k fun x => { x with fill := some { f with todo := rest }, flight := x.flight ++ [b], lastIssue := some now }).count 6 k 1
      else s
    | [] => s
  | none => s

/-- `s` with the fill of station `k` changed, where one runs. -/
def State.updFill (s : State) (k : Nat) (f : Fill → Fill) : State := s.updStr k fun x => { x with fill := x.fill.map f }

/-! ## Decoding into a half (R115, R120, R123, R131) -/

/-- `s` with one nibble of a byte written (R100). -/
def State.writeNibble (s : State) (a : Nat) (high : Bool) (v : Nat) : State :=
  s.writeByte a (BitVec.ofNat 8 (bitsSet (s.readByte a).toNat (if high then 4 else 0) 4 v))

/-- A tile is written into half `h` of station `k` at row `r` of the band and column `c`; dots at positions 51,024 and above are
discarded (R84, R120). -/
def State.writeTile (s : State) (k h left r c : Nat) (t : List Nat) : State :=
  let base := s.halfAddr k h
  (t.zipIdx).foldl (fun s p =>
    let pos := left + 64 * c + p.2 % 64
    if pos < 51024 then s.writeNibble (base + (8 * r + p.2 / 64) * 0x63C0 + pos / 2) (pos % 2 = 1) p.1 else s) s

/-- The check of failing tile `t` of station `k` ends (R115, R117). -/
def State.decoderMismatch (s : State) (k : Nat) (t : BadTile) : State :=
  let committed := s.sh t.tag = shCommitted ∨ s.sh t.tag = shSpoil
  let s := s.mmPush { path := 0, station := k, kind := t.kind, page := t.page, sheet := t.tag, committed := committed,
                      column := t.col, row := t.row }
  let s := (s.raise Reg.CDC_STATUS 2).inc (Reg.CDC_S_CNT_MM_COUNT k)
  s.streamMismatch t.page t.tag

/-- A tile in station `k`'s decoders will fail its check with `kind` (R115). -/
def State.badTile (s : State) (k : Nat) (e : StrEntry) (kind row col : Nat) : State :=
  let t : BadTile := { kind := kind, row := row, col := col, page := e.page, tag := e.tag }
  s.updStr k fun x => { x with bad := x.bad ++ [t] }

/-- A tile `t` of station `k` at row `r` of the band and column `c` is decoded into half `h`, with the mismatch `mm` where it has one
(R115, R118, R120). -/
def State.tileDone (s : State) (k : Nat) (e : StrEntry) (h row col : Nat) (flush : Bool) (t : List Nat) (mm : Option Nat) : State :=
  let s := (s.inc (Reg.CDC_S_CNT_TILES_COUNT k)).count 9 k 1
  let s := if flush then s.inc (Reg.CDC_S_CNT_FLUSH_COUNT k) else s
  let s := s.writeTile k h (s.pgLeft e.page) (row % 8) col t
  match mm with
  | some kind => s.badTile k e kind row col
  | none => s

/-- The place of the staging ring at which the byte at Plain address `a` of burst `b` lies (R119). -/
def State.ringByte (s : State) (k : Nat) (b : Landed) (a : Nat) : Nat :=
  s.halfAddr k 0 + 0x31E000 + 4096 * b.place + (a - b.burst.addr)

/-- `n` bytes of landed burst `b` from Plain address `a`. -/
def State.ringRead (s : State) (k : Nat) (b : Landed) (a n : Nat) : Nat := s.readLE (s.ringByte k b a) n

/-- A raw slot is entered in the raw index, whose tables are private to the streamer (R119, R123; log 68). -/
def State.indexRaw (s : State) (k : Nat) (f : Fill) (r : RawSlot) : State :=
  let n := f.rawIndex.length
  let s := s.writeBytes (s.halfAddr k 0 + 0x370000 + 8 * n) ((List.range 8).map (Config.rawIndexByte k s.clock n))
  s.updFill k fun f => { f with rawIndex := f.rawIndex ++ [r] }

/-- One slot of landed burst `b` is handed to its decoder or entered in the raw index (R115, R123, R131). -/
def State.takeSlot (s : State) (k : Nat) (e : StrEntry) (b : Landed) (row col : Nat) : State :=
  match (s.strOf k).fill with
  | none => s
  | some f =>
    let h := f.band % 2
    if b.failed ∨ f.tableBad then s.tileDone k e h row col false (tileFill 0) (some 1)
    else
      let w := s.ringRead k b (s.slotAddr e.page k row col) 64
      if slotRaw w ∧ headerOk w ∧ f.first ≤ slotPtr w ∧ slotPtr w < f.first + f.count then
        s.indexRaw k f { ptr := slotPtr w, row := row, col := col, crc := slotCrc w, flush := slotFlush w }
      else
        let d := decodeSlot w f.first f.count fun _ => tileFill 0
        s.tileDone k e h row col (slotFlush w) d.1 d.2

/-- The raw tile of slot `r` in landed burst `b` is written to the slot's position and checked against its CRC-32C (R115, R118, R123,
R131). -/
def State.placeRaw (s : State) (k : Nat) (e : StrEntry) (b : Landed) (r : RawSlot) : State :=
  match (s.strOf k).fill with
  | none => s
  | some f =>
    let s := s.inc (Reg.CDC_S_CNT_RAW_COUNT k)
    if b.failed then s.tileDone k e (f.band % 2) r.row r.col r.flush (tileFill 0) (some 1)
    else
      let t := tileOfBytes (s.readBytes (s.ringByte k b (s.pgOvf e.page k + 256 * r.ptr)) 256)
      s.tileDone k e (f.band % 2) r.row r.col r.flush t (if tileCrc t = r.crc then none else some 0)

/-- What landed burst `b` carries is used (R123, R131). -/
def State.takeBurst (s : State) (k : Nat) (e : StrEntry) (f : Fill) (b : Landed) : State :=
  match b.burst.kind with
  | .table =>
    let a := s.pgBand e.page k + 8 * f.band
    if b.failed then s.updFill k fun f => { f with tableBad := true }
    else
      let first := s.ringRead k b (a + 4) 4
      let count := s.ringRead k b a 2
      s.updFill k fun f => { f with first := first, count := count }
  | .slots =>
    let w := s.pgWidth e.page
    let base := s.slotAddr e.page k (8 * f.band) 0
    let mine := (List.range (8 * w)).filter fun i => (base + 64 * i) / 4096 * 4096 = b.burst.addr
    forEach mine s fun s i => s.takeSlot k e b (8 * f.band + i / w) (i % w)
  | .raw =>
    let ovf := s.pgOvf e.page k
    let mine := f.rawIndex.filter fun r => (ovf + 256 * r.ptr) / 4096 * 4096 = b.burst.addr
    forEach mine s fun s r => s.placeRaw k e b r

/-- Pass 2 begins once pass 1 has parsed the band's last slot (R123). -/
def State.beginPass2 (s : State) (k : Nat) (e : StrEntry) : State :=
  match (s.strOf k).fill with
  | some f =>
    if !f.pad ∧ !f.pass2 ∧ f.left = 0 then
      let raws := (blocks4k (s.pgOvf e.page k + 256 * f.first) (256 * f.count)).map fun a =>
        ({ kind := .raw, addr := a, live := true } : Burst)
      s.updFill k fun f => { f with pass2 := true, todo := raws, left := raws.length }
    else s
  | none => s

/-- The oldest landed burst is consumed, and its place in the staging ring is free (R123, R124). -/
def State.consume (s : State) (k : Nat) : State :=
  match (s.strOf k).ring, (s.strOf k).fill, (s.strOf k).queue with
  | b :: rest, some f, e :: _ =>
    let s := (s.updStr k fun x => { x with ring := rest }).takeBurst k e f b
    (s.updFill k fun f => { f with left := f.left - 1 }).beginPass2 k e
  | _, _, _ => s

/-- The `n` oldest landed bursts are consumed, or as many as there are (R124). -/
def State.drain (s : State) (k n : Nat) : State := forUpTo (min n (s.strOf k).ring.length) s fun s _ => s.consume k

/-- The streamer has consumed `n` bursts by now and issues the next one (R124, log 7). -/
def State.burstIssue (s : State) (k n : Nat) : State := (s.drain k n).issueBurst k

/-- The bytes that burst `b` brings: those of the Plain, or, where it failed, bytes of which the spec says nothing (R131, log 68). -/
def State.burstBytes (s : State) (b : Burst) (failed : Bool) : List Byte :=
  if failed then (List.range 4096).map (Config.failedByte b.addr s.clock) else s.plainRead b.addr 4096

/-- A burst of the fill lands in the staging ring, failed or not (R119, R123, R131). -/
def State.landLive (s : State) (k : Nat) (b : Burst) (failed : Bool) : State :=
  let s := if failed then (s.plainTouch b.addr).raiseInst Reg.STR_STATUS 2 Reg.STR_FIRST_STATION_STATION k else s
  let l : Landed := { burst := b, place := (s.strOf k).ringNext, failed := failed }
  let s := s.writeBytes (s.ringByte k l b.addr) (s.burstBytes b failed)
  s.updStr k fun x => { x with ring := x.ring ++ [l], ringNext := (x.ringNext + 1) % 82 }

/-- The burst that was issued first completes: it lands in the staging ring, or its data are discarded and counted where its entry is gone
(R123, R130, R144). Where data have to be loaded first, it stays in flight. -/
def State.burstDone (s : State) (k : Nat) : State :=
  match (s.strOf k).flight with
  | [] => s
  | b :: rest =>
    let fail := if b.live then s.plainFails b.addr 4096 else none
    if fail = some .missing then s.plainTouch b.addr
    else
      let s := ((s.updStr k fun x => { x with flight := rest }).inc (Reg.STR_S_CNT_BURSTS_COUNT k)).count 16 0 64
      if b.live then s.landLive k b fail.isSome else s.inc (Reg.STR_S_CNT_WDRAW_COUNT k)

/-- The burst that was issued first completes, and the streamer has consumed `n` landed bursts by then (R123, R124, log 7). -/
def State.burstLand (s : State) (k n : Nat) : State := (s.burstDone k).drain k n

/-- The first failing tile of the columns c with c mod 8 = `j` ends its check in decoder `j` of station `k` (R114 to R117). -/
def State.decoderCheck (s : State) (k j : Nat) : State :=
  match (s.strOf k).bad.find? fun t => t.col % 8 = j && s.tileCounts t with
  | some t => (s.updStr k fun x => { x with bad := x.bad.erase t }).decoderMismatch k t
  | none => s

/-- Every burst of the fill has been issued and consumed, or it is end padding (R125, R129). -/
def fillEnded (f : Fill) : Bool := f.pad || (f.pass2 && f.todo.isEmpty && f.left = 0)

/-- The last line write of a band is accepted, after every check of the band's tiles; the half changes at the next tick (R125). -/
def State.fillComplete (s : State) (k : Nat) : State :=
  let s := s.drain k 82
  match (s.strOf k).fill with
  | none => s
  | some f =>
    if fillEnded f ∧ ((s.strOf k).bad.all fun t => t.goneAt.isSome) ∧ f.doneAt.isNone then
      let now := s.clock
      s.updFill k fun f => { f with doneAt := some now }
    else s

/-- In the tick after the last line write the half becomes FILLED, or EMPTY where BTMk has released its band (R125). -/
def State.fillSettle (s : State) (k : Nat) : State :=
  match (s.strOf k).fill with
  | none => s
  | some f =>
    if f.doneAt.any fun c => decide (c < s.clock) then
      let gone := decide (f.band < (s.strOf k).released)
      let s := (s.updStr k fun x => { x with fill := none, next := f.band + 1 }).inc (Reg.STR_S_CNT_BANDS_COUNT k)
      s.wr (halfFld k (f.band % 2)) (if gone then 0 else 2)
    else s

/-- Station `k`'s fence begins: decoder writes in flight, and replies to a DMA channel that uses its memories, are discarded and counted, and
every entry is withdrawn (R97, R130). -/
def State.fenceBegins (s : State) (k : Nat) : State :=
  let s := if (s.strOf k).fill.isSome then s.absentDisc 14 (Config.fenceWrites s.clock k) else s
  let uses (kind a n : Nat) : Bool := kind = 0 && (s.stationAt a = some k || s.stationAt (a + n - 1) = some k)
  let s := if s.dma.toList.any fun j => j.any fun j => uses j.srcKind j.src j.len || uses j.dstKind j.dst j.len then
      s.absentDisc 13 (Config.fenceReplies s.clock k)
    else s
  s.withdraw k fun _ => true

/-- The fence of station `k` stands as its causes say (R96). -/
def State.fenceFollows (s : State) (k : Nat) : State :=
  let now := s.fenced k
  let s := if now ∧ !(s.strOf k).fenced then s.fenceBegins k else s
  s.updStr k fun x => { x with fenced := now }

/-! ## The beams' side (R125, R128) -/

/-- BTMk reads line `l` of band `b` for the sheet of tag `t` and sequence number `q`: the half is FILLED or READING and holds it without
an uncorrectable error, or the line underruns (R125, R128, R134). The answer tells whether the line is there. -/
def State.lineRead (s : State) (k b t q l : Nat) : State × Bool :=
  let h := b % 2
  let x := s.half k h
  let there := s.headIs k t q && (x = 2 || x = 3) && (s.strOf k).bandOf.toList.getD h 0 = b
  let a := s.halfAddr k h + l * 0x63C0
  let bad := there && s.rangeBad a 0x63C0
  let s := if there then s.wr (halfFld k h) 3 else s
  let s := if bad then s.valeErr 0 a (Config.btmMaster k) false else s
  if there ∧ !bad then (s, true)
  else
    let s := (s.inc (Reg.STR_S_CNT_UNDERRUN_COUNT k)).raiseInst Reg.STR_STATUS 0 Reg.STR_FIRST_STATION_STATION k
    ((s.count 8 k 1).spoilIf t 0x21, false)

/-- BTMk releases the half of band `b` of the sheet `t`, `q` (R125); a fill of that band that ends later leaves its half EMPTY. -/
def State.releaseHalf (s : State) (k b t q : Nat) : State :=
  if s.headIs k t q then
    let h := b % 2
    let x := s.half k h
    let s := s.updStr k fun x => { x with released := max x.released (b + 1) }
    if (x = 2 ∨ x = 3) ∧ (s.strOf k).bandOf.toList.getD h 0 = b then s.wr (halfFld k h) 0 else s
  else s

/-- The dot code at position `p` of line `l` of band `b` in station `k`'s half (R120). -/
def State.dotCode (s : State) (k b l p : Nat) : Nat :=
  let w := (s.readByte (s.halfAddr k (b % 2) + l * 0x63C0 + p / 2)).toNat
  if p % 2 = 0 then w % 16 else w / 16

end Sys2Proof.Machine
end

