-- ==== Sys2Proof/Machine/Pages.lean ====
section
/-! DEFINITION. Extent loads and write-backs (R79, R81), the admission test (R86, R87) and the morning check (R90). -/

namespace Sys2Proof.Machine

/-! ## Loads, write-backs and Flush (R79, R81) -/

/-- The frame that extent `e` holds is free. -/
def State.dropFrame (s : State) (e : Nat) : State :=
  { s with plain := { s.plain with frames := s.plain.frames.filter fun x => x.2 ≠ e } }

/-- Extent `e` lies in a namespace that was refused at initialisation for its LBA format (R80). -/
def State.nsRefused (s : State) (e : Nat) : Bool := s.aon.otherLba.contains (bitsOf (s.extEntry e) 38 2)

/-- The NVMe load of extent `e` completes: it is RESIDENT, or it stays NVME_ONLY, `NVME_ERR` sets and every page that waits on it is
withdrawn with `REASON` 0x07 (R79, R81); from a refused namespace it fails (R80). An extent that is not LOADING has no load to complete,
and while `EN` = 0, a case that R421 does not name, none completes (DESIGN CHOICE, log 58). -/
def State.extentLoaded (s : State) (e : Nat) (ok : Bool) : State :=
  let w := s.extEntry e
  if extState w ≠ 1 ∨ !s.on Reg.STR_PLN_CTRL_EN then s
  else if ok ∧ !s.nsRefused e then
    let s := s.copyIn zeroByte s.nvme (extNvme w) (frameAddr (extFrame w)) (2 ^ 21)
    let s := (s.addTo Reg.STR_PLN_CNT_NVME_RD_COUNT 512).count 20 0 512
    let s := s.extSet e 60 3 2
    { s with plain := { s.plain with waitingOn := s.plain.waitingOn.filter fun x => x.2 ≠ e } }.retryLoads
  else
    let s := ((s.extSet e 60 3 0).dropFrame e).raise Reg.STR_PLN_STATUS 1
    let mine := s.plain.waitingOn.filter fun x => x.2 = e
    let s := { s with plain := { s.plain with waitingOn := s.plain.waitingOn.filter fun x => x.2 ≠ e } }
    let s := forEach mine s fun s x => if s.pg x.1 = pgSubmitted then s.withdrawPage x.1 7 0x0A else s
    s.retryLoads

/-- Flush goes to each namespace in use (R80, R81). -/
def State.nvmeFlush (s : State) : State :=
  { s with plain := { s.plain with nvmeFlushes := s.plain.nvmeFlushes + s.rd Reg.STR_PLN_NVME_CFG_NS_COUNT + 1 } }

/-- `NVME_EN` sets: a namespace in use whose LBA format is not 4,096 bytes is refused (R80). -/
def State.nvmeInit (s : State) : State :=
  if s.aon.otherLba.any fun n => decide (n ≤ s.rd Reg.STR_PLN_NVME_CFG_NS_COUNT) then s.raise Reg.STR_PLN_STATUS 1 else s

/-- A write of `v` to `STR_PLN_CTRL`: `NVME_EN` initialises the namespaces (R80), and with `FLUSH` every DIRTY frame is written back, then
Flush goes to each namespace (R81). -/
def State.plainCtrl (s : State) (v : Nat) : State :=
  let was := s.on Reg.STR_PLN_CTRL_NVME_EN
  let s := s.plainWrite Reg.STR_PLN_CTRL v
  let s := if s.on Reg.STR_PLN_CTRL_NVME_EN ∧ !was then s.nvmeInit else s
  if bitAt v 4 ∧ s.on Reg.STR_PLN_CTRL_EN ∧ s.on Reg.STR_PLN_CTRL_NVME_EN then
    let dirty := (s.plain.frames.map Prod.snd).filter fun e => extState (s.extEntry e) = 3
    if dirty.isEmpty then s.nvmeFlush
    else
      let s := { s with plain := { s.plain with flushing := s.plain.flushing ++ dirty } }
      forEach dirty s fun s e => s.extSet e 60 3 4
  else s

/-- The write-back of extent `e` completes: the frame is clean, or it stays DIRTY with `NVME_ERR` and is retried at the next eviction
(R79, R81). A frame written to meanwhile stays DIRTY and is not evicted. -/
def State.writtenBack (s : State) (e : Nat) (ok : Bool) : State :=
  let w := s.extEntry e
  let evicting := s.plain.evicting.contains e
  let flushing := s.plain.flushing.contains e
  if !(evicting || flushing) ∨ !s.on Reg.STR_PLN_CTRL_EN then s
  else
    let s := { s with plain := { s.plain with evicting := s.plain.evicting.erase e, flushing := s.plain.flushing.erase e } }
    let s : State := if ok ∧ !s.nsRefused e then
        let s := s.nvmeWrite (extNvme w) (s.readBytes (frameAddr (extFrame w)) (2 ^ 21))
        let s := s.addTo Reg.STR_PLN_CNT_NVME_WR_COUNT 512
        if extState w ≠ 4 then s
        else if evicting ∧ extPins w = 0 then (s.extSet e 60 3 0).dropFrame e
        else s.extSet e 60 3 2
      else (s.extSet e 60 3 3).raise Reg.STR_PLN_STATUS 1
    let s := if flushing ∧ s.plain.flushing.isEmpty then s.nvmeFlush else s
    if evicting then s.retryLoads else s

/-! ## The remote cache gives a granule up (R91, R93) -/

/-- The granule `g` leaves the cache with an EVICT of tag `tag`; an OWNED one goes home with its data, a SHARED one is dropped without
(R93). The granule stays where the message cannot leave; one that is OWNED is remembered, for its EVICT may be answered ABSENT (R98). -/
def State.evictGranule (s : State) (g : Granule) (tag : Nat) : State :=
  let (s, sent) := s.ownSend 3 (plainDev g.addr) tag g.addr (if g.owned then g.data else [])
  if sent then
    { s with plain := { s.plain with rcache := s.plain.rcache.filter fun x => x.addr ≠ g.addr,
                                     evicted := if g.owned then s.plain.evicted ++ [g] else s.plain.evicted } }
  else s

/-! ## The admission test (R86) -/

/-- A write of `v` to `STR_PLN_ADMIT_GO` (R86). -/
def State.admitGo (s : State) (v : Nat) : State :=
  if bitAt v 8 ∧ s.pg (bitsOf v 0 8) = pgSubmitted ∧ !s.on Reg.STR_PLN_ADMIT_BUSY ∧ s.on Reg.STR_PLN_CTRL_EN then
    { s.wr Reg.STR_PLN_ADMIT_BUSY 1 with plain := { s.plain with admission := some (bitsOf v 0 8) } }
  else s

/-- What a range of the Plain is loaded and pinned by: extents of this device, granules of another (R78, R91). -/
def State.units (s : State) (a n : Nat) : List Nat :=
  if n = 0 then []
  else if plainDev a = s.plainId then
    (List.range ((a + n - 1) / 2 ^ 21 - a / 2 ^ 21 + 1)).map fun i => max a ((a / 2 ^ 21 + i) * 2 ^ 21)
  else blocks4k a n

/-- Why the unit at `a` cannot be pinned now; an OWNED granule cannot be pinned (R91). -/
def State.unitFail (s : State) (a : Nat) : Option PlainFail :=
  match s.plainStatus a with
  | .atLocal _ => none
  | .held => match s.granule a with
    | some g => if g.owned then some .missing else none
    | none => some .missing
  | .missing => some .missing
  | .invalid => some .invalid
  | .absent => some .absent

/-- Page `p` pins the unit at `a`, or its data are sent for and the page is noted as waiting on them (R79, R86, R91). -/
def State.takeUnit (s : State) (p a : Nat) : State :=
  match s.plainStatus a with
  | .atLocal _ => s.pinExtent p (plainExt a)
  | .held => match s.granule a with
    | some g => if g.owned then s.evictGranule g 2 else s.pinGranule p a
    | none => s
  | .missing =>
    let key := if plainDev a = s.plainId then plainExt a else remoteKey a
    { s with plain := { s.plain with waitingOn := s.plain.waitingOn ++ [(p, key)] } }.plainTouch a
  | _ => s.plainTouch a

/-- Page `p` loads and pins a range. -/
def State.takeRange (s : State) (p a n : Nat) : State := forEach (s.units a n) s fun s u => s.takeUnit p u

/-- The first failure among the units of a range. -/
def State.rangeFail (s : State) (a n : Nat) : Option PlainFail := (s.units a n).findSome? s.unitFail

/-- The ranges that page entry `n` pins in step 3: its band tables (R86). -/
def State.tableRanges (s : State) (n : Nat) : List (Nat × Nat) :=
  (s.pgStationList n).map fun k => (s.pgBand n k, 8 * s.pgBands n)

/-- The ranges that page entry `n` pins in step 5: its slot arrays and overflow extents (R86). -/
def State.rasterRanges (s : State) (n : Nat) : List (Nat × Nat) :=
  (s.pgStationList n).flatMap fun k =>
    [(s.pgSlot n k, 64 * (s.pgLines n / 8) * s.pgWidth n), (s.pgOvf n k, 256 * s.pgOvfTiles n k)]

/-- The first failure among ranges that are read in full (descriptor, band tables). -/
def State.readFail (s : State) (l : List (Nat × Nat)) : Option PlainFail :=
  l.findSome? fun r => (s.rangeFail r.1 r.2).or (s.plainFails r.1 r.2)

/-- The first band over the limit: its station, its number and its `OVF_COUNT` (R86 step 4). -/
def State.overBudget (s : State) (n : Nat) : Option (Nat × Nat × Nat) :=
  (List.range (s.pgBands n)).findSome? fun b => (s.pgStationList n).findSome? fun k =>
    if ovfMax (s.rd Reg.PSQ_SPEED_MM_S) < s.bandCount n k b then some (k, b, s.bandCount n k b) else none

/-- The page waits for data that are not there yet: `REASON` 0x01, and it stays SUBMITTED (R44, R86). -/
def State.admitWaits (s : State) (n : Nat) : State := s.wr (Reg.PSQ_PG_STATE_REASON n) 1

/-- The page ends as WITHDRAWN for a read that failed (R42, R81, R421). -/
def State.admitReadFailed (s : State) (n : Nat) (f : PlainFail) : State :=
  if f = .missing then s.admitWaits n else s.withdrawPage n 7 0x0A

/-- A malformed descriptor or band table: `DESC_ERR`, and WITHDRAWN with `REASON` 0x07 (R86). -/
def State.admitMalformed (s : State) (n : Nat) : State := (s.raise Reg.STR_PLN_STATUS 5).withdrawPage n 7 0x0A

/-- Steps 5 and 6 of the admission test of page entry `n` (R86). -/
def State.admitRaster (s : State) (n : Nat) : State :=
  let s := forEach (s.rasterRanges n) s fun s r => s.takeRange n r.1 r.2
  match (s.rasterRanges n).findSome? fun r => s.rangeFail r.1 r.2 with
  | some f => s.admitReadFailed n f
  | none =>
    let v := s.rd Reg.PSQ_SPEED_MM_S
    (s.wr (Reg.PSQ_PG_STATE_STATE n) pgAdmitted).updPage n fun p => { p with pinned := true, speed := v, checking := true }

/-- Steps 3 and 4 of the admission test of page entry `n` (R86). -/
def State.admitTables (s : State) (n : Nat) : State :=
  let s := forEach (s.tableRanges n) s fun s r => s.takeRange n r.1 r.2
  match s.readFail (s.tableRanges n) with
  | some f => s.admitReadFailed n f
  | none =>
    if !(s.pgStationList n).all (s.bandsOk n) then s.admitMalformed n
    else match s.overBudget n with
      | some (k, b, c) =>
        let s := ((s.wr Reg.STR_PLN_ADMIT_FAIL_PAGE n).wr Reg.STR_PLN_ADMIT_FAIL_STATION k).wr Reg.STR_PLN_ADMIT_FAIL_BAND b
        (s.wr Reg.STR_PLN_ADMIT_COUNT_OVF_COUNT c).withdrawPage n 2 0x0A
      | none => s.admitRaster n

/-- The steps of the admission test of page entry `n`, whose descriptor has been taken, or could not be read (R86). -/
def State.admitDesc (s : State) (n : Nat) : Option PlainFail → State
  | some f => s.admitReadFailed n f
  | none =>
    if !s.descOk n then s.admitMalformed n
    else if (s.pgStationList n).any fun k => decide (s.stations ≤ k) then s.withdrawPage n 4 0x0A
    else s.admitTables n

/-- The steps of the admission test of page entry `n` (R86). -/
def State.admitSteps (s : State) (n : Nat) : State :=
  let s := s.takeRange n (s.descAddr n) 320
  s.admitDesc n (s.readFail [(s.descAddr n, 320)])

/-- The admission test that runs ends (R86). -/
def State.admitComplete (s : State) : State :=
  match s.plain.admission with
  | none => s
  | some n =>
    let s := { s.wr Reg.STR_PLN_ADMIT_BUSY 0 with plain := { s.plain with admission := none } }
    if s.pg n = pgSubmitted then s.admitSteps n else s

/-! ## The morning check (R90) -/

/-- Why the morning check ends early: a mismatch of a station at a kind, column and row, or a failed Plain read of the block at an
address. -/
inductive CheckStop where
  | mismatch (station kind column row : Nat)
  | readFailed (addr : Nat)
  deriving DecidableEq, Repr

/-- The morning check's progress: slots read, raw flags counted in the present band, and why it ended. -/
structure CheckRun where
  slots : Nat
  raws : Nat
  stop : Option CheckStop
  deriving DecidableEq, Repr

/-- The check of one slot (R90). -/
def State.checkSlot (s : State) (n k b : Nat) (r : CheckRun) (i : Nat) : CheckRun :=
  if r.stop.isSome then r
  else
    let w := s.pgWidth n
    let row := 8 * b + i / w
    let col := i % w
    let a := s.slotAddr n k row col
    if (s.plainFail a).isSome then { r with stop := some (.readFailed a) }
    else
      let slot := ofLe (s.plainRead a 64)
      let first := s.bandFirst n k b
      let count := s.bandCount n k b
      let ra := s.pgOvf n k + 256 * slotPtr slot
      let usesRaw := slotRaw slot && headerOk slot && decide (first ≤ slotPtr slot ∧ slotPtr slot < first + count)
      match (if usesRaw then s.plainFailAt ra 256 else none) with
      | some a => { r with slots := r.slots + 1, stop := some (.readFailed a) }
      | none =>
        let mm := (decodeSlot slot first count fun _ => tileOfBytes (s.plainRead ra 256)).2
        { slots := r.slots + 1, raws := r.raws + boolNat (slotRaw slot),
          stop := mm.map fun kind => .mismatch k kind col row }

/-- The check of one station's band: every slot, then the raw count (R90). -/
def State.checkBand (s : State) (n : Nat) (r : CheckRun) (bk : Nat × Nat) : CheckRun :=
  if r.stop.isSome then r
  else
    let r := (List.range (8 * s.pgWidth n)).foldl (s.checkSlot n bk.2 bk.1) { r with raws := 0 }
    if r.stop.isNone ∧ r.raws ≠ s.bandCount n bk.2 bk.1 then { r with stop := some (.mismatch bk.2 3 0 (8 * bk.1)) } else r

/-- The whole morning check of page entry `n`: band by band, within a band S0 first (R90). -/
def State.checkPage (s : State) (n : Nat) : CheckRun :=
  match ((s.descAddr n, 320) :: s.tableRanges n).findSome? fun r => s.plainFailAt r.1 r.2 with
  | some a => { slots := 0, raws := 0, stop := some (.readFailed a) }
  | none =>
    let order := (List.range (s.pgBands n)).flatMap fun b => (s.pgStationList n).map fun k => (b, k)
    order.foldl (s.checkBand n) { slots := 0, raws := 0, stop := none }

/-- The morning check of page entry `n` runs: the check path is enabled and the page is ADMITTED or BOUND with its check to do (R42,
R90, R118). -/
def State.checkRuns (s : State) (n : Nat) : Bool :=
  s.on Reg.CDC_CTRL_EN && (s.pageOf n).checking && (s.pg n = pgAdmitted || s.pg n = pgBound)

/-- The slots that the check has read are counted (R90, R118). -/
def State.checkCounts (s : State) (n slots : Nat) : State :=
  let s := s.wr (Reg.PSQ_PG_CHECK_SLOTS_DONE n) slots
  ((s.addTo Reg.CDC_CHK_CNT_TILES_COUNT slots).count 10 0 slots).updPage n fun p => { p with checking := false }

/-- The morning check of page entry `n` has read every slot without a mismatch (R42, R90). -/
def State.checkComplete (s : State) (n : Nat) : State :=
  if s.checkRuns n then
    let r := s.checkPage n
    if r.stop.isSome then s
    else
      let s := (s.checkCounts n r.slots).wr (Reg.PSQ_PG_CHECK_DONE n) 1
      if s.pg n = pgAdmitted then s.wr (Reg.PSQ_PG_STATE_STATE n) pgVerified else s
  else s

/-- A check of page entry `n` ended as `r` tells, at a mismatch or at a failed read, which may raise `MAP_ERR` (R78, R90, R116). -/
def State.checkStopped (s : State) (n : Nat) (r : CheckRun) : State :=
  match r.stop with
  | none => s
  | some (.readFailed a) => ((s.checkCounts n r.slots).plainTouch a).withdrawPage n 7 0x0A
  | some (.mismatch k kind col row) =>
    let s := (s.checkCounts n r.slots).mmPush { path := 1, station := k, kind := kind, page := n, sheet := 0, committed := false,
                                                column := col, row := row }
    ((s.raise Reg.CDC_STATUS 3).inc Reg.CDC_CHK_CNT_MM_COUNT).withdrawPage n 3 0x0A

/-- The morning check of page entry `n` ends at a mismatch or at a failed read, and the page is withdrawn (R42, R90, R116). -/
def State.checkMismatch (s : State) (n : Nat) : State :=
  if s.checkRuns n then s.checkStopped n (s.checkPage n) else s

/-- A write to `CDC_MM_POP` removes the head of the mismatch queue (R117). -/
def State.mmPop (s : State) (v : Nat) : State := if bitAt v 0 then { s with mmq := s.mmq.tail } else s

end Sys2Proof.Machine
end

