-- ==== Sys2Proof/Machine/Lanes.lean ====
section
/-! DEFINITION. The compressor lanes (R109 to R113). -/

namespace Sys2Proof.Machine

/-- The job of lane `m` as its registers give it (R109, R118). -/
def State.laneJob (s : State) (m : Nat) : LaneJob :=
  { srcKind := s.rd (Reg.CDC_L_CTRL_SRC_KIND m), src := s.rd64 (Reg.CDC_L_SRC_LO m) (Reg.CDC_L_SRC_HI m),
    stride := s.rd (Reg.CDC_L_SRC_STRIDE_BYTES m), width := s.rd (Reg.CDC_L_GEOM_WIDTH_TILES m),
    firstBand := s.rd (Reg.CDC_L_GEOM_FIRST_BAND m), lines := s.rd (Reg.CDC_L_LINES_LINES m),
    slotBase := s.rd64 (Reg.CDC_L_SLOT_LO m) (Reg.CDC_L_SLOT_HI m), ovfBase := s.rd64 (Reg.CDC_L_OVF_LO m) (Reg.CDC_L_OVF_HI m),
    bandBase := s.rd64 (Reg.CDC_L_BAND_LO m) (Reg.CDC_L_BAND_HI m), index := s.rd (Reg.CDC_L_OVF_INDEX_INDEX m), flushAt := none }

/-- The job passes the checks of R109. -/
def LaneJob.valid (j : LaneJob) : Bool :=
  decide (1 ≤ j.width ∧ j.width ≤ 798) && j.lines ≠ 0 && j.lines % 64 = 0 && j.stride % 32 = 0 && decide (32 * j.width ≤ j.stride)
    && j.slotBase % 64 = 0 && j.bandBase % 64 = 0 && j.ovfBase % 256 = 0

/-- Lane `m` ends its job with `ERR` `e`, 0 for none (R109, R112). -/
def State.laneEnd (s : State) (m e : Nat) : State :=
  let s := (s.wr (Reg.CDC_L_STATUS_BUSY m) 0).wr (Reg.CDC_L_STATUS_ERR m) e
  let s := { s with lanes := s.lanes.setIfInBounds m none }
  if e = 0 then s.wr (Reg.CDC_L_STATUS_DONE m) 1 else s.raise Reg.CDC_STATUS 1

/-- A write of `GO` to lane `m`: the job starts, is refused with `ERR` 0x4, or is ignored while one runs (R109, R112). -/
def State.laneGo (s : State) (m : Nat) : State :=
  if s.on (Reg.CDC_L_STATUS_BUSY m) then s.wr (Reg.CDC_L_STATUS_GO_IGNORED m) 1
  else
    let j := s.laneJob m
    let s := (s.wr (Reg.CDC_L_STATUS_DONE m) 0).wr (Reg.CDC_L_STATUS_FLUSHED m) 0
    if j.valid then
      let s := ((s.wr (Reg.CDC_L_STATUS_GO_IGNORED m) 0).wr (Reg.CDC_L_STATUS_ERR m) 0).wr (Reg.CDC_L_STATUS_BUSY m) 1
      let s := (s.wrw (Reg.CDC_L_LINES_DONE m) 0).wrw (Reg.CDC_L_MAXOVF m) 0
      { s with lanes := s.lanes.setIfInBounds m (some j) }
    else s.laneEnd m 4

/-- Why a lane's work stops short of its end: the Plain engine refused a write, a source line could not be read, or the data of the
destination must be loaded first. -/
inductive LaneStop where
  | refused
  | source
  | waits (addr : Nat)
  deriving DecidableEq, Repr

/-- A lane's work so far: the state, and why it stopped. -/
structure LaneRun where
  st : State
  stop : Option LaneStop

/-- A lane's write of bytes at Plain address `a` (R92, R112). -/
def LaneRun.put (r : LaneRun) (tag a : Nat) (bs : List Byte) : LaneRun :=
  if r.stop.isSome then r
  else
    match r.st.plainWriteCheck a with
    | .ok => { r with st := r.st.plainPut tag a bs }
    | .pinned => { st := r.st.raise Reg.STR_PLN_STATUS 6, stop := some .refused }
    | .absent => { r with stop := some .refused }
    | .invalid => { st := r.st.plainTouch a, stop := some .refused }
    | .missing => { r with stop := some (.waits a) }

/-- A change of the state that a lane makes while it runs. -/
def LaneRun.upd (r : LaneRun) (f : State → State) : LaneRun := if r.stop.isSome then r else { r with st := f r.st }

/-- The source bytes of line `n` from offset `o` (R109, R113). -/
def State.laneSource (s : State) (j : LaneJob) (n o len : Nat) : List Byte :=
  if j.srcKind = 0 then s.readBytes (j.src % 2 ^ 40 + n * j.stride + o) len else s.hostRead (j.src + n * j.stride + o) len

/-- The source bytes of line `n` cannot be read: an uncorrectable error lies in them, or the host link is down (R112, R113). -/
def State.laneLineBad (s : State) (j : LaneJob) (n : Nat) : Bool :=
  if j.srcKind = 0 then s.rangeBad (j.src % 2 ^ 40 + n * j.stride) (32 * j.width) else !s.hst.linkUp

/-- The tile of job row `r` and column `c`, of which the first `have` lines have been received; the rest is dot code 0 (R109,
R111). -/
def State.laneTile (s : State) (j : LaneJob) (r c got : Nat) : List Nat :=
  tileOfBytes ((List.range 8).flatMap fun l =>
    if l < got then s.laneSource j (8 * r + l) (32 * c) 32 else List.replicate 32 0)

/-- The tag of a lane's posted writes (R366). -/
def laneTag (m r : Nat) : Nat := 2 ^ 28 + m * 2 ^ 24 + r % 2 ^ 24

/-- A slot in mode `x` (4 raw) of job row `r` and column `c` is written and counted (R109, R118). -/
def LaneRun.slot (run : LaneRun) (m : Nat) (j : LaneJob) (r c x slot : Nat) : LaneRun :=
  let a := j.slotBase + 64 * ((8 * j.firstBand + r) * j.width + c)
  (run.put (laneTag m r) a (leBytes 64 slot)).upd fun s =>
    ((s.inc (Reg.CDC_L_CNT_TILES_COUNT m)).inc (Reg.CDC_CNT_MODE_COUNT x)).count 11 m 1

/-- A tile stored raw at the next index, with its slot (R104, R109). -/
def LaneRun.raw (run : LaneRun) (m : Nat) (j : LaneJob) (r c : Nat) (flush : Bool) (lines : Nat) (t : List Nat) : LaneRun :=
  let i := run.st.rd (Reg.CDC_L_OVF_INDEX_INDEX m)
  let run := run.put (laneTag m r) (j.ovfBase + 256 * i) (tileBytes t)
  let run := run.slot m j r c 4 (rawSlot i flush lines t)
  run.upd fun s => (s.inc (Reg.CDC_L_OVF_INDEX_INDEX m)).count 12 m 1

/-- One tile is compressed, decoded again and written; `differs` where the decoded slot differs from the tile (R105, R109, R110). -/
def LaneRun.tile (run : LaneRun) (m : Nat) (j : LaneJob) (r c : Nat) (differs : Bool) : LaneRun :=
  let t := run.st.laneTile j r c 8
  match encodeTile t with
  | none => (run.raw m j r c false 0 t).upd fun s => s.inc (Reg.CDC_L_CNT_NOFIT_COUNT m)
  | some (x, slot) =>
    if differs then
      (run.raw m j r c false 0 t).upd fun s => (s.inc (Reg.CDC_L_CNT_VERIFY_COUNT m)).raise Reg.CDC_STATUS 0
    else run.slot m j r c x slot

/-- The band table entry of job band `b`, whose raw tiles began at index `first` (R85, R109, R110). -/
def LaneRun.bandEntry (run : LaneRun) (m : Nat) (j : LaneJob) (b first : Nat) : LaneRun :=
  let n := run.st.rd (Reg.CDC_L_OVF_INDEX_INDEX m) - first
  let band := j.firstBand + b
  let run := run.put (laneTag m (8 * b + 7)) (j.bandBase + 8 * band) (leBytes 4 n ++ leBytes 4 first)
  run.upd fun s =>
    if s.rd (Reg.CDC_L_MAXOVF_COUNT m) < n ∨ b = 0 then (s.wr (Reg.CDC_L_MAXOVF_COUNT m) n).wr (Reg.CDC_L_MAXOVF_BAND m) band else s

/-- `n` source lines have been consumed, and the line after them cannot be read (R112). -/
def LaneRun.sourceFails (run : LaneRun) (m n : Nat) : LaneRun :=
  if run.stop.isSome then run else { st := run.st.wr (Reg.CDC_L_LINES_DONE_LINES m) n, stop := some .source }

/-- The source lines `lo` to `hi - 1` are received, or the first that cannot be read ends the work (R112). -/
def LaneRun.receive (run : LaneRun) (m : Nat) (j : LaneJob) (lo hi : Nat) : LaneRun :=
  match ((List.range (hi - lo)).map (lo + ·)).find? (run.st.laneLineBad j) with
  | some n => run.sourceFails m n
  | none => run

/-- The full tile rows `lo` to `hi - 1` of the job. -/
def LaneRun.rows (run : LaneRun) (m : Nat) (j : LaneJob) (diffs : List Nat) (lo hi : Nat) : LaneRun :=
  ((List.range (hi - lo)).map (lo + ·)).foldl (fun run r =>
    ((List.range j.width).foldl (fun run c => run.tile m j r c (diffs.contains (r * j.width + c)))
      (run.receive m j (8 * r) (8 * r + 8))).upd fun s => s.wr (Reg.CDC_L_LINES_DONE_LINES m) (8 * (r + 1))) run

/-- A whole band of the job. -/
def LaneRun.band (run : LaneRun) (m : Nat) (j : LaneJob) (diffs : List Nat) (b : Nat) : LaneRun :=
  let first := run.st.rd (Reg.CDC_L_OVF_INDEX_INDEX m)
  (run.rows m j diffs (8 * b) (8 * b + 8)).bandEntry m j b first

/-- The whole bands 0 to `n - 1` of the job. -/
def LaneRun.bands (run : LaneRun) (m : Nat) (j : LaneJob) (diffs : List Nat) (n : Nat) : LaneRun :=
  (List.range n).foldl (fun run b => run.band m j diffs b) run

/-- The band that a flush cuts short after `lines` received lines of it (R111). -/
def LaneRun.cutBand (run : LaneRun) (m : Nat) (j : LaneJob) (diffs : List Nat) (b lines : Nat) : LaneRun :=
  let first := run.st.rd (Reg.CDC_L_OVF_INDEX_INDEX m)
  let full := 8 * b + lines / 8
  let run := run.rows m j diffs (8 * b) full
  let got := lines % 8
  let run := if got = 0 then run
    else (List.range j.width).foldl (fun run c => run.raw m j full c true got (run.st.laneTile j full c got))
      (run.receive m j (8 * full) (8 * full + got))
  let from_ := if got = 0 then full else full + 1
  let run := ((List.range (8 * b + 8 - from_)).map (from_ + ·)).foldl (fun run r =>
    (List.range j.width).foldl (fun run c => run.slot m j r c 0 flushSlot) run) run
  run.bandEntry m j b first

/-- The work of a job up to a flush after `lines` received lines (R111); a flush at a band boundary finds no band begun (R112). -/
def LaneRun.upTo (run : LaneRun) (m : Nat) (j : LaneJob) (diffs : List Nat) (lines : Nat) : LaneRun :=
  let run := run.bands m j diffs (lines / 64)
  let run := if lines % 64 = 0 then run else run.cutBand m j diffs (lines / 64) (lines % 64)
  run.upd fun s => s.wr (Reg.CDC_L_LINES_DONE_LINES m) lines

/-- The job that lane `m` runs, if its lane is enabled and its source exists (R109, R113, R118, log 17). -/
def State.laneRunning (s : State) (m : Nat) : Option LaneJob :=
  match s.lanes[m]? with
  | some (some j) => if s.on Reg.CDC_CTRL_EN ∧ j.srcKind ≤ 1 then some j else none
  | _ => none

/-- The work that is left of a job: all of it, or up to the flush that has been written (R109, R111). -/
def State.laneWork (s : State) (m : Nat) (j : LaneJob) (diffs : List Nat) : LaneRun :=
  match j.flushAt with
  | none => LaneRun.bands { st := s, stop := none } m j diffs (j.lines / 64)
  | some n => LaneRun.upTo { st := s, stop := none } m j diffs n

/-- Lane `m`'s job comes to its end: every write was accepted; where a source line cannot be read it halts, and where data of the destination
have to be loaded first, the load starts and the job goes on (R79, R109, R111, R112). `diffs` are the tiles whose decoded slot differs from
the tile (R110, log 7). -/
def State.laneDone (s : State) (m : Nat) (diffs : List Nat) : State :=
  match s.laneRunning m with
  | none => s
  | some j =>
    let run := s.laneWork m j diffs
    match run.stop with
    | none =>
      let s := run.st.laneEnd m 0
      if j.flushAt.isSome then (s.wr (Reg.CDC_L_STATUS_FLUSHED m) 1).inc (Reg.CDC_L_CNT_FLUSH_COUNT m) else s
    | some (.waits a) => s.plainTouch a
    | some .source => run.st.laneEnd m 2
    | some .refused => s

/-- Lane `m`'s job meets a write that the Plain engine refuses: the writes before it stay (R112). -/
def State.laneRefused (s : State) (m : Nat) (diffs : List Nat) : State :=
  match s.laneRunning m with
  | none => s
  | some j =>
    let run := s.laneWork m j diffs
    match run.stop with
    | some .refused => run.st.laneEnd m 3
    | _ => s

/-- Lane `m`'s source read fails after `lines` source lines; the writes accepted for the tile rows before stay (R112). -/
def State.laneSourceError (s : State) (m lines : Nat) (diffs : List Nat) : State :=
  match s.lanes[m]? with
  | some (some j) =>
    let lines := min lines j.lines
    let run : LaneRun := { st := s, stop := none }
    let run := (run.bands m j diffs (lines / 64)).rows m j diffs (lines / 64 * 8) (lines / 8)
    if j.srcKind ≤ 1 then (run.sourceFails m lines).st.laneEnd m 2 else s.laneEnd m 2
  | _ => s

/-- A write of `FLUSH` to lane `m` when `lines` source lines have been received (R111, R112): an idle lane, and a job whose last line
has been received, are not touched by it. -/
def State.laneFlush (s : State) (m lines : Nat) (diffs : List Nat) : State :=
  match s.laneRunning m with
  | none => s
  | some j =>
    if j.lines ≤ lines ∨ j.flushAt.isSome then s
    else
      let s := { s with lanes := s.lanes.setIfInBounds m (some { j with flushAt := some lines }) }
      let run := s.laneWork m { j with flushAt := some lines } diffs
      match run.stop with
      | some .refused => run.st.laneEnd m 3
      | _ => s.laneDone m diffs

/-- A write of `v` to `CDC_Lm_CTRL` (R111, R112, R118). A flush through the bus finds the lines that `LINES_DONE` counts; of a `FLUSH` and a
`GO` in one write, which the spec does not order, the flush comes first (DESIGN CHOICE, log 64). -/
def State.laneCtrl (s : State) (m v : Nat) : State :=
  let s := s.plainWrite (Reg.CDC_L_CTRL m) v
  let s := if bitAt v 1 then s.laneFlush m (s.rd (Reg.CDC_L_LINES_DONE_LINES m)) [] else s
  if bitAt v 0 then s.laneGo m else s

end Sys2Proof.Machine
end

