-- ==== Sys2Proof/Machine/Dma.lean ====
section
/-! DEFINITION. The DMA channels (R137 to R143). -/

namespace Sys2Proof.Machine

/-- An address as kind `k` reads it: 40 bits on the local bus, 52 in the Plain, 64 in host memory (R137, R146). -/
def dmaAddr (k a : Nat) : Nat := if k = 0 then a % 2 ^ 40 else if k = 1 then a % 2 ^ 52 else a

/-- The job of channel `n` as its registers give it (R138, R146). -/
def State.dmaJob (s : State) (n : Nat) : DmaJob :=
  let sk := s.rd (Reg.DMA_D_CTRL_SRC_KIND n)
  let dk := s.rd (Reg.DMA_D_CTRL_DST_KIND n)
  { mode := s.rd (Reg.DMA_D_CTRL_MODE n), srcKind := sk, dstKind := dk,
    src := dmaAddr sk (s.rd64 (Reg.DMA_D_SRC_LO n) (Reg.DMA_D_SRC_HI n)),
    dst := dmaAddr dk (s.rd64 (Reg.DMA_D_DST_LO n) (Reg.DMA_D_DST_HI n)), len := s.rdw (Reg.DMA_D_LEN n),
    fill := s.rd64 (Reg.DMA_D_FILL_LO n) (Reg.DMA_D_FILL_HI n) }

/-- The sides that a job checks and touches: kind, address and length (R138). -/
def DmaJob.sides (j : DmaJob) : List (Nat × Nat × Nat) :=
  match j.mode with
  | 1 => [(j.dstKind, j.dst, j.len)]
  | 3 => [(j.dstKind, j.dst, 64)]
  | _ => [(j.srcKind, j.src, j.len), (j.dstKind, j.dst, j.len)]

/-- A kind 0 range lies in the memories of R18 and not in the control window. -/
def rangeInMemories (a n : Nat) : Bool :=
  (blocks64 a n).all fun b => placeOf b ≠ .control && placeOf b ≠ .unmapped

/-- The single-port Vale banks that a range touches. -/
def banksOf (a n : Nat) : List Nat := ((blocks64 a n).filter fun b => placeOf b = .vale).map valeBank

/-- Channel `n` holds every Vale bank that a kind 0 side touches (R138). -/
def State.dmaClaimed (s : State) (n : Nat) (l : List (Nat × Nat × Nat)) : Bool :=
  l.all fun x => x.1 ≠ 0 || (banksOf x.2.1 x.2.2).all fun b => s.granted 2 b 1 n

/-- The first check of R138 that a job of channel `n` fails, as its `ERR`; 0 where all pass. -/
def State.dmaCheck (s : State) (n : Nat) (j : DmaJob) : Nat :=
  if j.sides.any fun x => x.1 = 3 || (x.1 = 0 && !rangeInMemories x.2.1 x.2.2) then 6
  else if j.sides.any fun x => x.2.1 % 64 ≠ 0 || x.2.2 % 64 ≠ 0 || x.2.2 = 0 then 1
  else if j.mode = 0 ∧ j.srcKind = j.dstKind ∧ j.src < j.dst ∧ j.dst < j.src + j.len then 2
  else if !s.dmaClaimed n j.sides then 3
  else 0

/-- Channel `n` is not running any more. -/
def State.dmaIdle (s : State) (n : Nat) : State :=
  let s := (s.wr (Reg.DMA_D_STATUS_BUSY n) 0).wr Reg.DMA_BUSY_BUSY (bitPut (s.rd Reg.DMA_BUSY_BUSY) n false)
  { s with dma := s.dma.setIfInBounds n none }

/-- Channel `n` halts with `ERR` `e` on side `write` at block `a` (R142). -/
def State.dmaHalt (s : State) (n e : Nat) (write : Bool) (a : Nat) : State :=
  let s := ((s.dmaIdle n).wr (Reg.DMA_D_STATUS_ERR n) e).wr (Reg.DMA_D_STATUS_ERR_DIR n) (boolNat write)
  (s.wr64 (Reg.DMA_D_ERR_ADDR_LO n) (Reg.DMA_D_ERR_ADDR_HI n) a).raise Reg.DMA_STATUS n

/-- Channel `n` completes (R141). -/
def State.dmaEnd (s : State) (n : Nat) (stopped : Bool) : State :=
  let s := (s.dmaIdle n).wr (if stopped then Reg.DMA_D_STATUS_STOPPED n else Reg.DMA_D_STATUS_DONE n) 1
  s.wr Reg.DMA_DONE_DONE (bitPut (s.rd Reg.DMA_DONE_DONE) n true)

/-- The tag of channel `n`'s fence read of a remote block (R357: the length in [31:24]). -/
def fenceTag (n : Nat) : Nat := 2 ^ 24 + 16 * n

/-- A fence of a remote Plain address sends its READ_REQ (R141, R358); with no route it fails as READ_ERR 0x4 (R368). -/
def State.dmaFenceRead (s : State) (n : Nat) (j : DmaJob) : State :=
  if j.mode = 3 ∧ j.dstKind = 1 ∧ plainDev j.dst ≠ s.plainId ∧ s.on Reg.STR_PLN_CTRL_EN ∧ s.on Reg.STR_PLN_CTRL_REMOTE_EN then
    match s.fabRoute (plainDev j.dst) with
    | some p =>
      let m : FabMsg := { cls := 1, kind := 0, dst := plainDev j.dst, src := s.devId, vc := 0, tag := fenceTag n, addr := j.dst,
                          payload := [] }
      let r : FabRead := { tag := fenceTag n, home := plainDev j.dst, addr := j.dst, len := 64,
                           until_ := s.clock + s.rd Reg.FAB_RD_TIMEOUT_US * 3000 }
      let s := s.fabQueue p m
      { s with fab := { s.fab with reads := s.fab.reads ++ [r] } }
    | none => s.dmaHalt n 4 false j.dst
  else s

/-- A write of `GO` to channel `n` (R138, R142, R143): the results of the job before go. -/
def State.dmaGo (s : State) (n : Nat) : State :=
  if s.on (Reg.DMA_D_STATUS_BUSY n) then s.wr (Reg.DMA_D_STATUS_GO_IGNORED n) 1
  else
    let j := s.dmaJob n
    let e := s.dmaCheck n j
    if e = 0 then
      let s := (s.wrw (Reg.DMA_D_STATUS n) 1).wr Reg.DMA_BUSY_BUSY (bitPut (s.rd Reg.DMA_BUSY_BUSY) n true)
      let s := ((s.wrw (Reg.DMA_D_DONE_BYTES n) 0).wrw (Reg.DMA_D_MM_OFS n) 0).wrw (Reg.DMA_D_MM_COUNT n) 0
      { s with dma := s.dma.setIfInBounds n (some j) }.dmaFenceRead n j
    else (s.wr (Reg.DMA_D_STATUS_ERR n) e).raise Reg.DMA_STATUS n

/-- Why a channel's work stops short: a failure of a block, or Plain data that must be fetched first. -/
inductive DmaStop where
  | failed (err : Nat) (write : Bool) (kind addr : Nat)
  | waits (addr : Nat)
  deriving DecidableEq, Repr

/-- A channel's work so far: the state, the bytes moved, the first difference and the number of differing blocks. -/
structure DmaRun where
  st : State
  bytes : Nat
  diff : Option Nat
  diffs : Nat
  stop : Option DmaStop

/-- The 64 bytes of the block at `a` of kind `k`, or why they cannot be read (R134, R136, R142, R97). -/
def State.dmaRead (s : State) (k a : Nat) : DmaStop ⊕ List Byte :=
  if k = 0 then
    if s.absentAt a then .inl (.failed 5 false k a)
    else if s.blockBad a then .inl (.failed 4 false k a)
    else .inr (s.readBytes a 64)
  else if k = 1 then
    match s.plainFail a with
    | none => .inr (s.plainRead a 64)
    | some .absent => .inl (.failed 5 false k a)
    | some .missing => match s.plain.uncached.find? fun g => g.addr = a / 4096 * 4096 with
      | some g => .inr ((g.data.drop (a % 4096)).take 64)
      | none => .inl (.waits a)
    | some _ => .inl (.failed 4 false k a)
  else if s.hst.linkUp then .inr (s.hostRead a 64)
  else .inl (.failed 4 false k a)

/-- What a failed block leaves in the flags of the memory that failed (R78, R92, R134, R136). -/
def State.dmaBlame (s : State) (k a : Nat) (write : Bool) : State :=
  if k = 0 then
    if s.blockBad a ∧ !s.absentAt a then
      match placeOf a with
      | .vale => s.valeErr 0 a 13 write
      | .table => s.valeErr 1 a 13 write
      | _ => s
    else s
  else if k = 1 then
    if write ∧ s.plainWriteCheck a = .pinned then s.raise Reg.STR_PLN_STATUS 6 else s.plainTouch a
  else s

/-- Why the block at `a` of kind `k` cannot be written, if it cannot (R92, R97, R142). -/
def State.dmaWriteStop (s : State) (k a : Nat) : Option DmaStop :=
  if k = 0 then if s.absentAt a then some (.failed 5 true k a) else none
  else if k = 1 then
    match s.plainWriteCheck a with
    | .ok => none
    | .absent => some (.failed 5 true k a)
    | .missing => some (.waits a)
    | _ => some (.failed 4 true k a)
  else if s.hst.linkUp then none
  else some (.failed 4 true k a)

/-- `s` after channel `n` has written 64 bytes at `a` of kind `k`; `i` is the block's index in the job (R133, R366). -/
def State.dmaPut (s : State) (n k a i : Nat) (bs : List Byte) : State :=
  if k = 0 then s.busWrite 13 a bs
  else if k = 1 then s.plainPut (n * 2 ^ 24 + i % 2 ^ 24) a bs
  else s.hostWrite a bs

/-- The 64-byte blocks of a side read into a buffer, in ascending address. -/
def State.dmaReadAll (s : State) (k : Nat) (l : List Nat) : DmaStop ⊕ List (Nat × List Byte) :=
  l.foldr (fun a acc => match s.dmaRead k a with
    | .inl e => .inl e
    | .inr bs => match acc with
      | .inl e => .inl e
      | .inr rest => .inr ((a, bs) :: rest)) (.inr [])

/-- The work of a channel stops. -/
def DmaRun.halt (r : DmaRun) (e : DmaStop) : DmaRun := { r with stop := some e }

/-- One 64-byte block of a copy or fill is written (R139). -/
def DmaRun.write (r : DmaRun) (n k a : Nat) (bs : List Byte) : DmaRun :=
  if r.stop.isSome then r
  else
    match r.st.dmaWriteStop k a with
    | some e => r.halt e
    | none => { r with st := r.st.dmaPut n k a (r.bytes / 64) bs, bytes := r.bytes + 64 }

/-- The fill pattern over 64 bytes (R139). -/
def fillBytes (p : Nat) : List Byte := (List.replicate 8 (leBytes 8 p)).flatten

/-- The 64-byte offsets of the `i`-th 4 KiB block of a job. -/
def DmaJob.block (j : DmaJob) (i : Nat) : List Nat :=
  (List.range (min 64 ((j.len - 4096 * i) / 64))).map fun x => 4096 * i + 64 * x

/-- A compare of the blocks at offsets `l`, read from both sides (R139). -/
def DmaRun.compare (r : DmaRun) (l : List Nat) (a b : List (Nat × List Byte)) : DmaRun :=
  let bad := ((a.zip b).zip l).filter fun x => x.1.1.2 ≠ x.1.2.2
  { r with bytes := r.bytes + 64 * l.length, diffs := r.diffs + bad.length, diff := r.diff.or ((bad.head?).map (·.2)) }

/-- The 4 KiB block number `i` of a job of channel `n` (R139, R142): a copy reads the block in full before it writes. -/
def DmaRun.step (r : DmaRun) (n : Nat) (j : DmaJob) (i : Nat) : DmaRun :=
  let l := j.block i
  let r := { r with st := r.st.count 19 n 1 }
  match j.mode with
  | 0 =>
    match r.st.dmaReadAll j.srcKind (l.map (j.src + ·)) with
    | .inl e => r.halt e
    | .inr bs => (bs.zip l).foldl (fun r x => r.write n j.dstKind (j.dst + x.2) x.1.2) r
  | 1 => l.foldl (fun r o => r.write n j.dstKind (j.dst + o) (fillBytes j.fill)) r
  | 2 =>
    match r.st.dmaReadAll j.srcKind (l.map (j.src + ·)), r.st.dmaReadAll j.dstKind (l.map (j.dst + ·)) with
    | .inl e, _ => r.halt e
    | _, .inl e => r.halt e
    | .inr a, .inr b => r.compare l a b
  | _ => r

/-- The 4 KiB blocks of a job. -/
def DmaJob.blocks (j : DmaJob) : Nat := if j.mode = 3 then 0 else (j.len + 4095) / 4096

/-- The next block of channel `n`'s job, on top of what it has done. -/
def State.dmaBlock (s : State) (n : Nat) (j : DmaJob) : DmaRun :=
  DmaRun.step { st := s, bytes := j.bytes, diff := j.diff, diffs := j.diffs, stop := none } n j j.done

/-- The result registers of channel `n` after a run: `DONE_BYTES`, and for a compare the difference, whose offset A0 aligns down to 64
(R139, R146, A0-03). -/
def DmaRun.results (r : DmaRun) (n : Nat) (j : DmaJob) : State :=
  let s := r.st.wrw (Reg.DMA_D_DONE_BYTES n) r.bytes
  if j.mode = 2 then
    match r.diff with
    | some o => ((s.wr (Reg.DMA_D_STATUS_MISMATCH n) 1).wrw (Reg.DMA_D_MM_OFS n) o).wrw (Reg.DMA_D_MM_COUNT n) r.diffs
    | none => s
  else s

/-- UNCACHED data are gone once a DMA job has used them (R91). -/
def State.dropUncached (s : State) (j : DmaJob) : State :=
  let mine (g : Granule) : Bool := j.sides.any fun x => x.1 = 1 && decide (x.2.1 / 4096 * 4096 ≤ g.addr ∧ g.addr < x.2.1 + x.2.2)
  { s with plain := { s.plain with uncached := s.plain.uncached.filter fun g => !mine g } }

/-- Channel `n` halts where its run stopped (R142). -/
def DmaRun.fail (r : DmaRun) (n : Nat) (j : DmaJob) (e : Nat) (write : Bool) (k a : Nat) : State :=
  ((r.results n j).dmaBlame k a write).dmaHalt n e write a

/-- The read of a fence, if it fails here or waits (R141). -/
def State.fenceStop (s : State) (n : Nat) (j : DmaJob) : Option DmaStop :=
  if j.dstKind = 1 ∧ plainDev j.dst ≠ s.plainId ∧ s.on Reg.STR_PLN_CTRL_EN ∧ s.on Reg.STR_PLN_CTRL_REMOTE_EN then
    if s.fab.reads.any fun r => r.tag = fenceTag n then some (.waits j.dst) else none
  else match s.dmaRead j.dstKind j.dst with
    | .inl e => some e
    | .inr _ => none

/-- The job that channel `n` runs. -/
def State.dmaRunning (s : State) (n : Nat) : Option DmaJob :=
  match s.dma[n]? with
  | some j => j
  | none => none

/-- Channel `n` cannot go on with `e`: it halts, or the data that it waits for are fetched (R79, R91, R142). -/
def DmaRun.stopped (r : DmaRun) (n : Nat) (j : DmaJob) (e : DmaStop) (s : State) : State :=
  match e with
  | .failed e w k a => r.fail n j e w k a
  | .waits a => if j.mode = 3 ∧ plainDev a ≠ s.plainId then s else s.plainTouch a

/-- Channel `n`'s read of a fence returns, or it has not yet (R141). -/
def State.dmaFence (s : State) (n : Nat) (j : DmaJob) : State :=
  match s.fenceStop n j with
  | none => s.dmaEnd n false
  | some e => DmaRun.stopped { st := s, bytes := 0, diff := none, diffs := 0, stop := none } n j e s

/-- A 4 KiB block of channel `n` moves (R139, R140, R142); the data that it has to wait for are fetched first. -/
def State.dmaMove (s : State) (n : Nat) (j : DmaJob) : State :=
  let r := s.dmaBlock n j
  match r.stop with
  | some e => r.stopped n j e s
  | none =>
    let now := if j.done + 1 = j.blocks then some s.clock else none
    let j := { j with done := j.done + 1, bytes := r.bytes, diff := r.diff, diffs := r.diffs, doneAt := now }
    { r.results n j with dma := s.dma.setIfInBounds n (some j) }

/-- Channel `n` has the engine: it ends once its last write has left (R141), a claim lost halts it at its next block (R142), or its next
block moves. -/
def State.dmaTurn (s : State) (n : Nat) : State :=
  match s.dmaRunning n with
  | none => s
  | some j =>
    if j.mode = 3 then s.dmaFence n j
    else if j.blocks ≤ j.done then (s.dropUncached j).dmaEnd n false
    else if j.lost then s.dmaHalt n 3 (j.mode = 1) (j.dst + 4096 * j.done)
    else s.dmaMove n j

/-- The active channel whose turn it is, round robin (R140). -/
def State.dmaPick (s : State) : Option Nat :=
  ((List.range 16).map fun i => (s.dmaNext + i) % 16).find? fun n => (s.dmaRunning n).isSome

/-- The engine serves the next active channel (R140). -/
def State.dmaStep (s : State) : State :=
  match s.dmaPick with
  | some n => { s.dmaTurn n with dmaNext := (n + 1) % 16 }
  | none => s

/-- The engine runs, for at most `fuel` turns, until channel `n` has moved `k` blocks or does not run (R140). -/
def State.dmaUntil (s : State) (n k : Nat) : Nat → State
  | 0 => s
  | fuel + 1 =>
    match s.dmaRunning n with
    | none => s
    | some j => if k ≤ j.done then s else s.dmaStep.dmaUntil n k fuel

/-- The engine runs until channel `n` has moved `k` blocks of its job, or as many as it has (R140). -/
def State.dmaReach (s : State) (n k : Nat) : State :=
  match s.dmaRunning n with
  | none => s
  | some j => s.dmaUntil n (min k j.blocks) (16 * (min k j.blocks - j.done))

/-- Channel `n`'s last write leaves the engine (R141); a job that has not come so far by the state of the device does not end. -/
def State.dmaDone (s : State) (n : Nat) : State :=
  match s.dmaRunning n with
  | none => s
  | some j =>
    let s := s.dmaReach n j.blocks
    match s.dmaRunning n with
    | none => s
    | some j => if j.blocks ≤ j.done then s.dmaTurn n else s

/-- Side `write` of a job lies outside this device: host memory, or the Plain of another home. -/
def State.dmaFar (s : State) (j : DmaJob) (write : Bool) : Bool :=
  let k := if write || j.mode = 3 then j.dstKind else j.srcKind
  let a := if write || j.mode = 3 then j.dst else j.src
  k = 2 || (k = 1 && plainDev a ≠ s.plainId)

/-- The blocks of 64 bytes that channel `n` has written when its write at offset `ofs` of the present 4 KiB block fails (R142). -/
def State.dmaPartial (s : State) (n : Nat) (j : DmaJob) (ofs : Nat) : DmaRun :=
  let r : DmaRun := { st := s, bytes := j.bytes, diff := j.diff, diffs := j.diffs, stop := none }
  ((j.block j.done).filter fun o => decide (o < ofs)).foldl (fun r o =>
    if j.mode = 1 then r.write n j.dstKind (j.dst + o) (fillBytes j.fill)
    else match s.dmaRead j.srcKind (j.src + o) with
      | .inr bs => r.write n j.dstKind (j.dst + o) bs
      | .inl e => r.halt e) r

/-- The block at offset `ofs` of channel `n`'s job, on a side that lies outside this device, fails: as ABSENT or as a bus error (R142, log
7). -/
def State.dmaFarError (s : State) (n : Nat) (j : DmaJob) (ofs : Nat) (write absent : Bool) : State :=
  let ofs := if j.mode = 3 then 0 else ofs / 64 * 64
  let r := if write then s.dmaPartial n j ofs
    else { st := s, bytes := j.bytes, diff := j.diff, diffs := j.diffs, stop := none }
  let a := (if write || j.mode = 3 then j.dst else j.src) + ofs
  match r.stop with
  | none => (r.results n j).dmaHalt n (if absent then 5 else 4) write a
  | some e => r.stopped n j e s

/-- A block of channel `n` fails (R142): the engine comes to the first block that fails by the state of this device, or to the block at
offset `ofs` of a side that lies outside it. -/
def State.dmaError (s : State) (n ofs : Nat) (write absent : Bool) : State :=
  match s.dmaRunning n with
  | none => s
  | some j =>
    let far := s.dmaFar j write ∧ (ofs < j.len ∨ j.mode = 3) ∧ !(write ∧ (j.mode = 2 ∨ j.mode = 3))
    let s := s.dmaReach n (if far then ofs / 4096 else j.blocks)
    match s.dmaRunning n with
    | none => s
    | some j =>
      if far ∧ (j.mode = 3 ∨ j.done = ofs / 4096) then s.dmaFarError n j ofs write absent
      else if j.mode = 3 then s.dmaFence n j
      else s

/-- Channel `n` loses a claim that its job uses: it halts at its next block (R142). -/
def State.dmaClaimLost (s : State) (n : Nat) (before : List Grant) : State :=
  match s.dmaRunning n with
  | none => s
  | some j =>
    let gone := j.sides.any fun x => x.1 = 0 && (banksOf x.2.1 x.2.2).any fun b =>
      !s.granted 2 b 1 n && before.any fun g => g.kind = 2 && g.index = b && g.func = 1 && g.user = n
    if gone then { s with dma := s.dma.setIfInBounds n (some { j with lost := true }) } else s

/-- Channel `n` stops: its outstanding fence read is over (R143). -/
def State.dmaStopped (s : State) (n : Nat) (j : DmaJob) : State :=
  let s := { s with fab := { s.fab with reads := s.fab.reads.filter fun r => r.tag ≠ fenceTag n } }
  (s.dropUncached j).dmaEnd n true

/-- A write of `STOP` to channel `n` while it works on block number `block`; in the very tick in which its last block completes, the job is
DONE (R143). -/
def State.dmaStop (s : State) (n block : Nat) : State :=
  let s := s.dmaReach n block
  match s.dmaRunning n with
  | none => s
  | some j =>
    if j.mode = 3 then s.dmaStopped n j
    else if j.blocks ≤ j.done then if j.doneAt = some s.clock then (s.dropUncached j).dmaEnd n false else s.dmaStopped n j
    else
      let s := s.dmaReach n (j.done + 1)
      match s.dmaRunning n with
      | none => s
      | some j => s.dmaStopped n j

/-- A write of `v` to `DMA_Dn_CTRL` (R138, R143, R146). A stop through the bus finds the channel in the block that the
engine has come to. -/
def State.dmaCtrl (s : State) (n v : Nat) : State :=
  let s := s.plainWrite (Reg.DMA_D_CTRL n) v
  let s := if bitAt v 1 then s.dmaStop n 0 else s
  if bitAt v 0 then s.dmaGo n else s

end Sys2Proof.Machine
end

