-- ==== Sys2Proof/Machine/Btm.lean ====
section
/-! DEFINITION. The beam timing blocks: the start-of-scan and end-of-scan gates, facets, edge arithmetic, tables, exposures, READY and
the laser safety interlock (R147 to R176). -/

namespace Sys2Proof.Machine

/-- The beam timing block of station `k`. -/
def State.btmOf (s : State) (k : Nat) : BtmX :=
  match s.btm[k]? with
  | some b => b
  | none => {}

/-- `s` with the beam timing block of station `k` changed by `f`. -/
def State.updBtm (s : State) (k : Nat) (f : BtmX → BtmX) : State :=
  { s with btm := s.btm.setIfInBounds k (f (s.btmOf k)) }

/-- The BMK of station `k`. -/
def State.bmkOf (s : State) (k : Nat) : BmkX :=
  match s.bmk[k]? with
  | some b => b
  | none => {}

/-- `s` with the BMK of station `k` changed by `f`. -/
def State.updBmk (s : State) (k : Nat) (f : BmkX → BmkX) : State :=
  { s with bmk := s.bmk.setIfInBounds k (f (s.bmkOf k)) }

/-- A field of an applied `BTM_FACET_CFG` word. -/
def BtmSet.facets (b : BtmSet) : Nat := bitsOf b.cfg 0 4
@[inherit_doc BtmSet.facets] def BtmSet.missMax (b : BtmSet) : Nat := bitsOf b.cfg 4 4
@[inherit_doc BtmSet.facets] def BtmSet.sosBeam (b : BtmSet) : Nat := bitsOf b.cfg 8 6
@[inherit_doc BtmSet.facets] def BtmSet.merge (b : BtmSet) : Nat := bitsOf b.cfg 16 4
@[inherit_doc BtmSet.facets] def BtmSet.minPulse (b : BtmSet) : Nat := bitsOf b.cfg 20 7

/-- Station `k` follows its gates: it exists, is enabled and has its clock (R3, R148, R173). -/
def State.btmRuns (s : State) (k : Nat) : Bool := decide (k < s.stations) && s.on (Reg.BTM_CTRL_EN k) && s.coreClock

/-- The gates and beam outputs of station `k` belong to it (R400, R401). -/
def State.btmBalls (s : State) (k : Nat) : Bool := s.ballGranted (209 + k) 0

/-! ## The end of an exposure, and READY (R171, R173) -/

/-- The exposure of station `k` ends; the streamer retires its entry (R129, R171). -/
def State.endExposure (s : State) (k : Nat) : State :=
  match (s.btmOf k).exp with
  | none => s
  | some e => ((s.updBtm k fun b => { b with exp := none }).wr (Reg.BTM_STATE_EXPOSING k) 0).retire k e.tag e.seq

/-- The beams of station `k` go off from this tick on for the rest of the facet (R171, R172). -/
def State.cutBeams (s : State) (k : Nat) : State :=
  let now : Int := s.meridian * 32
  s.updBtm k fun b =>
    let begun := b.pulses.filter fun p => decide (p.2.1 < now)
    { b with dotsAt := none, drops := [], pulses := begun.map fun p => (p.1, p.2.1, min p.2.2 now) }

/-- A power measurement of station `k` ends with error `e` (R190). -/
def State.powerError (s : State) (k e : Nat) : State :=
  let s := (s.updBmk k fun x => { x with job := none }).wr (Reg.BMK_S_PWR_STATUS_BUSY k) 0
  (s.wr (Reg.BMK_S_PWR_STATUS_ERR k) e).raise (Reg.BMK_S_STATUS k) 3

/-- The measurement of station `k` that still has facets to integrate (R189). -/
def State.powerJob (s : State) (k : Nat) : Option PowerJob :=
  (s.bmkOf k).job.filter fun j => decide ((s.bmkOf k).values.length < 2 ^ j.avg)

/-- The present facet of station `k` is not integrated by the measurement that runs (R190). -/
def State.powerSkip (s : State) (k : Nat) : State :=
  if (s.powerJob k).isNone ∨ (s.bmkOf k).facetDone then s
  else
    let n := (s.bmkOf k).skipRun + 1
    let s := (s.incSat (Reg.BMK_S_PWR_STATUS_SKIPS k)).updBmk k fun x => { x with skipRun := n, facetDone := true }
    if 16 ≤ n then s.powerError k 2 else s

/-- The calibration exposure of station `k` ends (R172), and with it a power measurement that integrates it (R190). -/
def State.endCal (s : State) (k : Nat) : State :=
  let s := (s.updBtm k fun b => { b with cal := none, calNext := false }).wr (Reg.BTM_STATE_CAL_ON k) 0
  if (s.powerJob k).any (·.cal) then s.powerError k 5 else s

/-- A beam test of station `k` took beam `b`: it passed, missed or was skipped (R185, R186, R192). -/
def State.testShown (s : State) (k b : Nat) (pass skip : Bool) : State :=
  let s := (s.wr (Reg.BMK_S_TEST_STATE_LAST_BEAM k) b).wr (Reg.BMK_S_TEST_STATE_LAST_PASS k) (boolNat pass)
  s.wr (Reg.BMK_S_TEST_STATE_LAST_SKIP k) (boolNat skip)

/-- The test of beam `b` is skipped (R186). -/
def State.skipTest (s : State) (k b : Nat) : State := (s.testShown k b false true).inc (Reg.BMK_S_CNT_SKIPS_COUNT k)

/-- A beam test of station `k` that runs turns into a skipped one (R186). -/
def State.dropTest (s : State) (k : Nat) : State :=
  match (s.bmkOf k).test with
  | some t => (s.updBmk k fun x => { x with test := none }).skipTest k t.beam
  | none => s

/-- The conditions of READY (R173). -/
def State.readyNow (s : State) (k : Nat) : Bool :=
  decide (k < s.stations) && s.on (Reg.BTM_CTRL_EN k) && s.on (Reg.BTM_STATE_DLL_LOCK k) && s.on (Reg.BTM_STATE_SOS_OK k)
    && !s.lsi.active && s.on (Reg.BTM_STATE_TBL_OK k) && !s.fenced k

/-- Station `k` falls from READY: `READY_LOST`, its exposure ends at once with the beams off, and every committed sheet that names it
becomes a spoil (R63, R171, R173). -/
def State.readyLost (s : State) (k : Nat) : State :=
  let s := s.raise (Reg.BTM_STATUS k) 0
  let s := forUpTo 64 s fun s t => if bitAt (s.rd (Reg.PSQ_SH_CTRL_STATIONS t)) k then s.spoilIf t 0x22 else s
  if (s.btmOf k).exp.isSome then (s.cutBeams k).endExposure k else s

/-- The fence, `READY` and `LSI_OK` of station `k` follow their conditions (R96, R130, R173). -/
def State.updStation (s : State) (k : Nat) : State :=
  let s := s.fenceFollows k
  let was := s.on (Reg.BTM_STATE_READY k)
  let now := s.readyNow k
  let s := s.wr (Reg.BTM_STATE_LSI_OK k) (boolNat (decide (k < s.stations) && !s.lsi.active))
  let s := s.wr (Reg.BTM_STATE_READY k) (boolNat now)
  if was && !now then s.readyLost k else s

/-- `READY` of every station follows its conditions (R96, R173). -/
def State.updStations (s : State) : State := forUpTo 8 s State.updStation

/-! ## Settings applied at a Gap (R165 to R168) -/

/-- The settings of station `k` as its registers stand. -/
def State.btmRegs (s : State) (k : Nat) : BtmSet :=
  { period := s.rdw (Reg.BTM_DOT_PERIOD k), ofs := s.rdw (Reg.BTM_LINE_OFS k), cfg := s.rdw (Reg.BTM_FACET_CFG k) }

/-- Station `k` applies its settings, its facet number and its table exchange; `TBL_OK` sets where an exchange was carried out, and in
a Gap opening (`gap`) always (R151, R165, R166, R167). -/
def State.btmApply (s : State) (k : Nat) (gap : Bool) : State :=
  let arm := if s.on (Reg.BTM_FACET_IDX_IDX_PENDING k) then some (s.rd (Reg.BTM_FACET_IDX_NEXT_IDX k)) else (s.btmOf k).idxArm
  let app := s.btmRegs k
  let s := s.updBtm k fun b => { b with app := app, idxArm := arm }
  let s := s.wr (Reg.BTM_FACET_IDX_IDX_PENDING k) 0
  let swap := s.on (Reg.BTM_TBL_CTRL_PENDING k)
  let s := (s.wr (Reg.BTM_TBL_CTRL_LIVE k) (s.rd (Reg.BTM_TBL_CTRL_NEXT k))).wr (Reg.BTM_TBL_CTRL_PENDING k) 0
  if swap || gap then (s.wr (Reg.BTM_STATE_TBL_OK k) 1).updStation k else s

/-- Settings written in DAWN or MORNING are applied at once (R167). -/
def State.btmSoon (s : State) (k : Nat) : State :=
  if s.dev = stDawn ∨ s.dev = stMorning then s.btmApply k false else s

/-! ## Table reads (R162 to R166) -/

/-- A port A read of station `k` at local address `a` meets a parity error (R145, R166; log 69). -/
def State.tableParity (s : State) (k a : Nat) : State :=
  let s := ((s.raise (Reg.BTM_STATUS k) 2).valeErr 1 a (Config.btmMaster k) false).inc (Reg.BTM_CNT_PARITY_COUNT k)
  (s.wr (Reg.BTM_STATE_TBL_OK k) 0).updStation k

/-- The local address of offset `o` of station `k`'s even (delay) or odd bank (R136, R162). -/
def tableAddr (k : Nat) (odd : Bool) (o : Nat) : Nat := 0xE2000000 + (2 * k + boolNat odd) * 0x10000 + o

/-- The word that BTMk reads through port A: 0 where it is damaged (R166). -/
def State.tableWord (s : State) (k : Nat) (odd : Bool) (o : Nat) : Nat :=
  let a := tableAddr k odd o
  if s.rangeBad a 4 then 0 else s.readLE a 4

/-- The damaged words among those that BTMk reads are reported (R166). -/
def State.reportWords (s : State) (k : Nat) (odd : Bool) (l : List Nat) : State :=
  forEach ((l.map (tableAddr k odd)).filter fun a => s.rangeBad a 4) s fun s a => s.tableParity k a

/-- Offset of entry `c` of the pulse table in the copy that the present facet uses (R162, R168). -/
def State.pulseOfs (s : State) (k c : Nat) : Nat := 0x40 * (s.btmOf k).copy + 4 * c
/-- Offset of the facet table's entry `f` in that copy (R162, R168). -/
def State.facetOfs (s : State) (k f : Nat) : Nat := 0x80 + 0x80 * (s.btmOf k).copy + 8 * f
/-- Offset of beam `b`'s knot `j` in that copy (R162, R168). -/
def State.knotOfs (s : State) (k b j : Nat) : Nat := 0x4000 * (s.btmOf k).copy + 0x100 * b + 4 * j

/-! ## Edge arithmetic (R156 to R161) -/

/-- The dot positions of a line (R119, R156). -/
def dotCount : Nat := 51024

/-- A pulse entry's width, clipped so that the pulse ends in its dot, and its position (R158). -/
def pulseWidth (w : Nat) : Nat := min (min 64 (bitsOf w 0 7)) (64 - bitsOf w 8 6)
@[inherit_doc pulseWidth] def pulsePos (w : Nat) : Nat := bitsOf w 8 6

/-- The delay of dot `n` by its knot, in 1/65,536 tap (R156, R163). -/
def knotDelay (knot n : Nat) : Int :=
  signedOf knot 16 * 65536 + signedOf (bitsOf knot 16 16) 16 * ((n : Int) - 798 * (n / 798 : Nat))

/-- The edge of dot `n` at `frac` 64ths of the dot, in taps (R156). -/
def FacetBase.edge (f : FacetBase) (knot n frac : Nat) : Int :=
  (f.start * 65536 + n * f.p + (frac * f.p) / 64 + knotDelay knot n + 32768) / 65536

/-- The pulse of dot `n` through pulse entry `w`: its rising and falling edges in taps, none for width 0 (R156, R158). -/
def FacetBase.pulse (f : FacetBase) (knot n w : Nat) : Option (Int × Int) :=
  if pulseWidth w = 0 then none
  else some (f.edge knot n (pulsePos w), f.edge knot n (pulsePos w + pulseWidth w))

/-- Consecutive pulses closer than `m` taps join (R160). -/
def mergePulses (m : Nat) : List (Int × Int) → List (Int × Int)
  | [] => []
  | p :: rest => go p rest
where
  /-- The pulses after `p`, which may join those that follow. -/
  go (p : Int × Int) : List (Int × Int) → List (Int × Int)
    | [] => [p]
    | q :: rest => if q.1 - p.2 < m then go (p.1, max p.2 q.2) rest else p :: go q rest

/-- The least width in taps that is not dropped (R161). -/
def FacetBase.floor (f : FacetBase) : Int := (f.minPulse * f.p) / 64 / 65536

/-- The pulses of one beam's line: the code of each dot in order, the pulse entry of each code and the knot of each dot (R156 to
R161). The second list holds those dropped. -/
def FacetBase.line (f : FacetBase) (codes : List Nat) (entry knot : Nat → Nat) : List (Int × Int) × List (Int × Int) :=
  let raw := (codes.zipIdx).filterMap fun c => f.pulse (knot (min 63 (c.2 / 798))) c.2 (entry c.1)
  (mergePulses f.merge raw).partition fun p => decide (f.floor ≤ p.2 - p.1)

/-- `P` lies in its range (R157). -/
def FacetBase.inRange (f : FacetBase) : Bool := decide (64 * 65536 ≤ f.p ∧ f.p ≤ 65535 * 65536)

/-- What one beam's line gives: the pulses it emits, and the time of each that is dropped (R157, R161). -/
def FacetBase.beamLine (f : FacetBase) (codes : List Nat) (entry knot : Nat → Nat) : List (Int × Int) × List Int :=
  if f.inRange then ((f.line codes entry knot).1, (f.line codes entry knot).2.map Prod.fst)
  else ([], ((codes.zipIdx).filter fun c => bitsOf (entry c.1) 0 7 ≠ 0).map fun c => f.edge (knot (min 63 (c.2 / 798))) c.2 0)

/-! ## Masks (R177 to R179) -/

/-- The live mask set of station `k` (R181). -/
def State.liveSet (s : State) (k : Nat) : Nat := s.rd (Reg.BMK_S_SET_CTRL_LIVE k)

/-- `LINE`[b] of set `i` of station `k` (R177). -/
def State.lineMap (s : State) (k i b : Nat) : Nat := bitsOf (s.rdw (Reg.BMK_S_SET_MAP k i (b / 4))) (8 * (b % 4)) 6

/-- The `EN`, `OVA` and `OVB` masks of facet `f` of set `i` of station `k` (R178). -/
def State.maskEn (s : State) (k i f : Nat) : Nat := s.rd64 (Reg.BMK_S_SET_F_EN_LO k i f) (Reg.BMK_S_SET_F_EN_HI k i f)
@[inherit_doc State.maskEn] def State.maskOva (s : State) (k i f : Nat) : Nat :=
  s.rd64 (Reg.BMK_S_SET_F_OVA_LO k i f) (Reg.BMK_S_SET_F_OVA_HI k i f)
@[inherit_doc State.maskEn] def State.maskOvb (s : State) (k i f : Nat) : Nat :=
  s.rd64 (Reg.BMK_S_SET_F_OVB_LO k i f) (Reg.BMK_S_SET_F_OVB_HI k i f)

/-- The lines that beam `b` prints in facet `f`: its own and those it carries, none where its `EN` bit is 0 (R177, R178); entries at or
above `FACETS` are not read (R180). -/
def State.beamLines (s : State) (k f b : Nat) : List Nat :=
  let i := (s.btmOf k).set
  if !bitAt (s.maskEn k i f) b ∨ (s.btmOf k).cur.facets ≤ f then []
  else
    let l := s.lineMap k i b
    l :: ((if bitAt (s.maskOva k i f) b && l ≠ 0 then [l - 1] else []) ++ (if bitAt (s.maskOvb k i f) b && l ≠ 63 then [l + 1] else []))

/-! ## A facet (R148 to R151, R156, R170, R172, R177) -/

/-- The facet whose SOS fell at `taps` is computed from: settings, `FOFS` and `TRIM` (R156, R164). -/
def State.facetBase (s : State) (k f taps : Nat) : FacetBase :=
  let b := s.btmOf k
  let read := decide (f < b.cur.facets)
  let fofs : Int := if read then signedOf (s.tableWord k true (s.facetOfs k f)) 32 else 0
  let trim : Int := if read then signedOf (s.tableWord k true (s.facetOfs k f + 4)) 32 else 0
  { start := (taps : Int) + b.cur.ofs + fofs, p := (b.cur.period : Int) + trim, merge := b.cur.merge, minPulse := b.cur.minPulse }

/-- The tick at which dot 51,023 ends (R150). -/
def FacetBase.endTick (f : FacetBase) : Nat := (max (f.start / 32) ((f.start * 65536 + dotCount * f.p) / 2097152)).toNat

/-- The damaged words of the pulse table and the delay table that these printing beams read are reported (R166). -/
def State.reportBeams (s : State) (k : Nat) (beams : List Nat) : State :=
  if beams.isEmpty then s
  else (s.reportWords k true ((List.range 16).map (s.pulseOfs k))).reportWords k false
    (beams.flatMap fun b => (List.range 64).map (s.knotOfs k b))

/-- The lines of the band that a facet prints are read, in ascending order; the answer lists those that are there (R128, R177). -/
def State.readLines (s : State) (k : Nat) (e : Exposure) (lines : List Nat) : State × List Nat :=
  lines.foldl (fun acc l =>
    let r := acc.1.lineRead k e.band e.tag e.seq l
    (r.1, if r.2 then acc.2 ++ [l] else acc.2)) (s, [])

/-- The codes that a beam prints: at each dot the largest of the lines `mine` that were read, `got` (R177, R179). -/
def State.beamCodes (s : State) (k band : Nat) (got mine : List Nat) : List Nat :=
  let code (l n : Nat) : Nat := if got.contains l then s.dotCode k band l n else 0
  (List.range dotCount).map fun n => mine.foldl (fun c l => max c (code l n)) 0

/-- The beams of station `k` that print in facet `f`, with their lines (R177). -/
def State.beamsOf (s : State) (k f : Nat) : List (Nat × List Nat) :=
  ((List.range 64).map fun b => (b, s.beamLines k f b)).filter fun x => !x.2.isEmpty

/-- The pulses and the dropped pulses of the present facet, from the beams that print with their dot codes (R156 to R161). -/
def State.draw (s : State) (k : Nat) (beams : List (Nat × List Nat)) : List (Nat × Int × Int) × List (Nat × Int) :=
  let entry (c : Nat) : Nat := s.tableWord k true (s.pulseOfs k c)
  let drawn := beams.map fun x => (x.1, (s.btmOf k).base.beamLine x.2 entry fun j => s.tableWord k false (s.knotOfs k x.1 j))
  (drawn.flatMap fun x => x.2.1.map fun p => (x.1, p), drawn.flatMap fun x => x.2.2.map fun t => (x.1, t))

/-- The pulses of the present facet join those that are still being driven. -/
def State.emitFacet (s : State) (k : Nat) (d : List (Nat × Int × Int) × List (Nat × Int)) : State :=
  let now : Int := s.meridian * 32
  s.updBtm k fun b => { b with pulses := (b.pulses.filter fun p => decide (now < p.2.2)) ++ d.1, drops := b.drops ++ d.2 }

/-- The present facet of the page exposure `e` is printed: its lines are read and its edges computed (R156, R177 to R179). -/
def State.printPage (s : State) (k : Nat) (e : Exposure) : State :=
  let beams := s.beamsOf k (s.rd (Reg.BTM_STATE_FACET k))
  let need := (List.range 64).filter fun l => beams.any fun x => x.2.contains l
  let r := (s.reportBeams k (beams.map Prod.fst)).readLines k e need
  if (r.1.btmOf k).exp.isNone then r.1
  else r.1.emitFacet k (r.1.draw k (beams.map fun x => (x.1, r.1.beamCodes k e.band r.2 x.2)))

/-- The beams that a calibration exposure lights, with their dot codes (R172). -/
def State.calBeams (s : State) (k : Nat) : List (Nat × List Nat) :=
  let first := s.rd (Reg.BTM_CAL_DOTS_FIRST k)
  let last := s.rd (Reg.BTM_CAL_DOTS_LAST k)
  let code := s.rd (Reg.BTM_CAL_CFG_CODE k)
  let codes := (List.range dotCount).map fun n => if first ≤ n ∧ n ≤ last then code else 0
  ((List.range 64).filter (bitAt (s.rd64 (Reg.BTM_CAL_BEAMS_LO k) (Reg.BTM_CAL_BEAMS_HI k)))).map fun b => (b, codes)

/-- The present facet of the calibration exposure is printed (R172). -/
def State.printCal (s : State) (k : Nat) : State :=
  let s := s.reportBeams k ((s.calBeams k).map Prod.fst)
  s.emitFacet k (s.draw k (s.calBeams k))

/-- The first dot 0 of the facet comes: what it prints is read and computed (R156, R172, R177; DEDUCED, log 73). -/
def State.facetDots (s : State) (k : Nat) : State :=
  if (s.btmOf k).dotsAt.any fun t => decide (t ≤ s.meridian) then
    let s := s.updBtm k fun b => { b with dotsAt := none }
    match (s.btmOf k).exp with
    | some e => if e.begun then s.printPage k e else if (s.btmOf k).cal.isSome then s.printCal k else s
    | none => if (s.btmOf k).cal.isSome then s.printCal k else s
  else s

/-- A setting of the calibration exposure has been written: it acts at once, on what is still to be printed of the facet (R26, R167). -/
def State.calRedraw (s : State) (k : Nat) : State :=
  let b := s.btmOf k
  if b.cal.isSome ∧ !b.exp.any (·.begun) ∧ b.imageEnd.isSome ∧ b.dotsAt.isNone then
    let now : Int := s.meridian * 32
    let d := s.draw k (s.calBeams k)
    s.updBtm k fun b => { b with pulses := (b.pulses.filter fun p => decide (p.2.1 < now)) ++ d.1.filter (fun p => decide (now ≤ p.2.1)),
                                 drops := d.2.filter fun x => decide (now ≤ x.2) }
  else s

/-- The dropped pulses of the ticks before this one are counted (R157, R161). -/
def State.dropsCounted (s : State) (k : Nat) : State :=
  let now : Int := s.meridian * 32
  let due := (s.btmOf k).drops.filter fun d => decide (d.2 < now)
  if due.isEmpty then s
  else
    let s := s.updBtm k fun b => { b with drops := b.drops.filter fun d => decide (now ≤ d.2) }
    forEach due s fun s d => (s.inc (Reg.BTM_DROP_COUNT k d.1)).count 28 k 1

/-- An EXPOSE that waits begins at this SOS, at Meridian tick `t` (R170). -/
def State.beginExposure (s : State) (k t : Nat) : State :=
  match (s.btmOf k).exp with
  | some e =>
    if !e.begun ∧ e.effect ≤ t then
      let s := s.updBtm k fun b => { b with exp := some { e with begun := true } }
      let s := (s.wr (Reg.BTM_EXP_SLIP_TICKS k) (fitNat 24 (t - e.effect))).wr (Reg.BTM_STATE_EXPOSING k) 1
      (s.wr (Reg.BTM_STATE_PAGE k) e.page).wr (Reg.BTM_STATE_TAG k) e.tag
    else s
  | none => s

/-- A CAL_START that waits begins at this SOS (R172). -/
def State.beginCal (s : State) (k : Nat) : State :=
  if (s.btmOf k).calNext then
    (s.updBtm k fun b => { b with cal := some 0, calNext := false }).wr (Reg.BTM_STATE_CAL_ON k) 1
  else s

/-- BMK counts the facet; the N-th makes a beam test due in it (R184). -/
def State.bmkFacet (s : State) (k : Nat) : State :=
  let n := s.rd (Reg.BMK_S_TEST_CFG_INTERVAL k)
  s.updBmk k fun b => { b with facets := b.facets + 1, due := n ≠ 0 && (b.facets + 1) % n = 0, facetDone := false }

/-- The facet number advances, or takes the number set; what a number not below `FACETS` gives is not stated (R151; log 71). -/
def State.nextFacet (s : State) (k : Nat) : Nat :=
  let b := s.btmOf k
  match b.idxArm with
  | some i => if i < b.app.facets then i else Config.facetPast i b.app.facets % b.app.facets
  | none => if b.numbered then (s.rd (Reg.BTM_STATE_FACET k) + 1) % b.app.facets else 0

/-- A facet of the calibration exposure is over, if one runs (R172). -/
def State.calFacet (s : State) (k : Nat) : State :=
  match (s.btmOf k).cal with
  | some n =>
    let s := s.updBtm k fun b => { b with cal := some (n + 1) }
    let most := s.rd (Reg.BTM_CAL_CFG_FACETS k)
    if most ≠ 0 ∧ most ≤ n + 1 then s.endCal k else s
  | none => s

/-- The facet's line is over: the half of its band is released, the page exposure ends after the last band, the calibration exposure after
its last facet (R125, R171, R172). -/
def State.lineFinish (s : State) (k : Nat) : State :=
  match (s.btmOf k).exp with
  | some e =>
    if e.begun then
      let s := s.releaseHalf k e.band e.tag e.seq
      let s := s.updBtm k fun b => { b with exp := some { e with band := e.band + 1 } }
      if s.pgBands e.page ≤ e.band + 1 then s.endExposure k else s
    else s.calFacet k
  | none => s.calFacet k

/-- The facet before an SOS is over: a line not yet at its end ends here (DEDUCED, log 73), an EOS window still open has had no edge (R150),
and a facet not integrated is skipped (R190). -/
def State.facetOver (s : State) (k : Nat) : State :=
  let s := if (s.btmOf k).imageEnd.isSome then s.lineFinish k else s
  let s := if (s.btmOf k).eosUntil.isSome then s.inc (Reg.BTM_CNT_EOS_MISS_COUNT k) else s
  if (s.btmOf k).sos.isSome then s.powerSkip k else s

/-- The beams that print in facet `f` (R172, R177). -/
def State.printers (s : State) (k f : Nat) : List Nat :=
  if (s.btmOf k).exp.any (·.begun) then (s.beamsOf k f).map Prod.fst
  else if (s.btmOf k).cal.isSome then
    (List.range 64).filter (bitAt (s.rd64 (Reg.BTM_CAL_BEAMS_LO k) (Reg.BTM_CAL_BEAMS_HI k)))
  else []

/-- The tick of the first dot 0 of the beams that print (R156). -/
def State.firstDotTick (s : State) (k : Nat) (beams : List Nat) : Nat :=
  let base := (s.btmOf k).base
  (beams.foldl (fun acc b => min acc (base.edge (s.tableWord k false (s.knotOfs k b 0)) 0 0)) base.start / 32).toNat

/-- The facet `f` that begins is computed from its base; its first dot 0 and its end are set (R150, R156, R164, R166). -/
def State.planFacet (s : State) (k f taps : Nat) : State :=
  let base := s.facetBase k f taps
  let s := s.updBtm k fun b => { b with base := base, imageEnd := some base.endTick }
  let beams := s.printers k f
  let first := s.firstDotTick k beams
  let s := s.updBtm k fun b => { b with dotsAt := if beams.isEmpty then none else some first }
  if f < (s.btmOf k).cur.facets then s.reportWords k true [s.facetOfs k f, s.facetOfs k f + 4] else s

/-- What the facet that begins at the SOS `taps` takes over: the settings, the copy of the tables and the mask set as they stand (R168,
R182). -/
def State.facetSettings (s : State) (k taps : Nat) (captured : Bool) : State :=
  let copy := s.rd (Reg.BTM_TBL_CTRL_LIVE k)
  let set := s.liveSet k
  s.updBtm k fun b => { b with cur := b.app, sos := some taps, sosLast := taps, captured := captured, open_ := none, idxArm := none,
                               numbered := true, eosUntil := none, eosAt := none, copy := copy, set := set }

/-- The time since the SOS before is shown (R176). -/
def State.periodShown (s : State) (k taps : Nat) : State :=
  match (s.btmOf k).sos with
  | some t => s.wrw (Reg.BTM_PERIOD_LAST k) (fitNat 32 (taps - t))
  | none => s

/-- Facet `f` begins and is counted (R151, R168, R184). -/
def State.facetShown (s : State) (k f taps : Nat) (captured : Bool) : State :=
  let s := (s.facetSettings k taps captured).wrw (Reg.BTM_SOS_LO k) (taps / 32)
  let s := (s.wr (Reg.BTM_STATE_FACET k) f).wr (Reg.BTM_FACET_IDX_IDX k) f
  (s.inc (Reg.BTM_CNT_FACETS_COUNT k)).bmkFacet k

/-- A measurement of a calibration exposure skips a facet in which none runs (R190). -/
def State.powerNoCal (s : State) (k : Nat) : State :=
  match (s.btmOf k).cal, s.powerJob k with
  | none, some j => if j.cal then s.powerSkip k else s
  | _, _ => s

/-- A facet begins at the SOS that fell at `taps` of Meridian, captured or synthesized (R148, R151, R156, R168, R170, R172, R177). -/
def State.beginFacet (s : State) (k taps : Nat) (captured : Bool) : State :=
  let s := s.facetOver k
  let f := s.nextFacet k
  let s := (s.periodShown k taps).facetShown k f taps captured
  (((s.beginExposure k (taps / 32)).beginCal k).planFacet k f taps).powerNoCal k

/-- The SOS that station `k` predicts, in taps (R148). -/
def State.predicted (s : State) (k : Nat) : Option Nat := (s.btmOf k).sos.map fun t => t + (s.btmOf k).win.period * 32

/-- The tick at which the next SOS window opens (R148). -/
def State.windowOpens (s : State) (k : Nat) : Option Nat := (s.predicted k).map fun p => p / 32 - (s.btmOf k).win.half

/-- The settings that wait for an SOS window are applied (R167). -/
def State.windowSettings (s : State) (k : Nat) : State :=
  let w : BtmWin := { period := s.rd (Reg.BTM_FACET_PERIOD_TICKS k), half := s.rd (Reg.BTM_SOS_WIN_HALF k),
                      eos := s.rd (Reg.BTM_EOS_WIN_TICKS k) }
  s.updBtm k fun b => { b with win := w }

/-- The SOS window of station `k` opens, and the settings that wait for it are applied (R148, R167). -/
def State.sosWindow (s : State) (k : Nat) : State :=
  match s.windowOpens k, s.predicted k with
  | some t, some p =>
    if s.btmRuns k ∧ !s.on (Reg.BTM_STATE_ACQUIRE k) ∧ (s.btmOf k).open_.isNone ∧ t ≤ s.meridian then
      (s.windowSettings k).updBtm k fun b => { b with open_ := some (p, p / 32 + b.win.half) }
    else s
  | _, _ => s

/-- Station `k` enters acquisition, where the window is open all the time (R149); the settings that wait for a window are applied there
too (R167; DEDUCED, log 74). -/
def State.acquire (s : State) (k : Nat) : State :=
  ((s.wr (Reg.BTM_STATE_SOS_OK k) 0).wr (Reg.BTM_STATE_ACQUIRE k) 1).windowSettings k

/-- The SOS edge of station `k` is captured at this tick and at `tap` (R148, R149). -/
def State.sosCapture (s : State) (k tap : Nat) : State :=
  let s := s.sosWindow k
  let acquiring := s.on (Reg.BTM_STATE_ACQUIRE k)
  let inWindow := (s.btmOf k).open_.any fun w => decide (s.meridian ≤ w.2)
  if s.btmRuns k ∧ s.btmBalls k ∧ (acquiring ∨ inWindow) then
    let n := (s.btmOf k).caps + 1
    let at_ := s.meridian * 32 + tap % 32
    let dark := if acquiring then s.meridian else s.meridian + 4
    let s := s.updBtm k fun b => { b with misses := 0, caps := n, sosCap := at_, syncUntil := dark }
    let s := if acquiring then (s.windowSettings k).wr (Reg.BTM_STATE_ACQUIRE k) 0 else s
    let s := if 4 ≤ n then (s.wr (Reg.BTM_STATE_SOS_OK k) 1).updStation k else s
    s.beginFacet k at_ true
  else s

/-- The SOS window of station `k` closes without an edge: the SOS is synthesized (R149). -/
def State.sosMiss (s : State) (k : Nat) : State :=
  match (s.btmOf k).open_ with
  | some (p, close) =>
    if s.btmRuns k ∧ close < s.meridian then
      let n := (s.btmOf k).misses + 1
      let s := s.updBtm k fun b => { b with misses := n, caps := 0 }
      let s := ((s.raise (Reg.BTM_STATUS k) 1).inc (Reg.BTM_CNT_SOS_MISS_COUNT k)).count 29 k 1
      let s := if (s.btmOf k).cur.missMax ≤ n then (s.acquire k).updStation k else s
      s.beginFacet k p false
    else s
  | none => s

/-! ## The end of the line, and beam power (R150, R189, R190) -/

/-- The tick at which dot `n` of the present facet begins (R156). -/
def State.dotTick (s : State) (k n : Nat) : Nat := (((s.btmOf k).base.start * 65536 + n * (s.btmOf k).base.p) / 2097152).toNat

/-- The tick at which the window of measurement `j` ends in the present facet, once it is known (R189). -/
def State.powerEnd (s : State) (k : Nat) (j : PowerJob) : Option Nat :=
  if j.cal then
    if (s.btmOf k).cal.isSome ∧ (s.btmOf k).sos.isSome then some (s.dotTick k (s.rd (Reg.BTM_CAL_DOTS_LAST k) + 1)) else none
  else (s.btmOf k).eosAt.map fun t => t + j.delay + j.ticks

/-- The window of a source 0 measurement would end too late in the present facet (R190). -/
def State.powerLate (s : State) (k : Nat) (j : PowerJob) : Bool :=
  match s.powerEnd k j, s.windowOpens k with
  | some t, some w => !j.cal && decide (w < t + 64)
  | _, _ => false

/-- The measured facet of station `k` ends its window: its mean conversion `v`, in 1/16 code, counts (R189, R190). -/
def State.powerFacet (s : State) (k v : Nat) : State :=
  match s.powerJob k with
  | none => s
  | some j =>
    if (s.bmkOf k).facetDone ∨ !(s.powerEnd k j).any fun t => decide (t ≤ s.meridian) then s
    else if !j.cal ∧ s.on (Reg.BTM_STATE_ACQUIRE k) then s.powerSkip k
    else
      let s := s.updBmk k fun x => { x with values := x.values ++ [v % 65536], skipRun := 0, facetDone := true }
      s.wr (Reg.BMK_S_PWR_STATUS_FACETS k) (min 128 (s.bmkOf k).values.length)

/-- The window of the measured facet is over, with a value that the spec cannot give (R189; log 7). -/
def State.powerDue (s : State) (k : Nat) : State := s.powerFacet k (Config.photodiode s.clock k)

/-- Dot 51,023 ends: the line is over, and the EOS window opens from there (R125, R150, R171, R172). -/
def State.lineEnd (s : State) (k : Nat) : State :=
  match (s.btmOf k).imageEnd with
  | some t =>
    if s.btmRuns k ∧ t ≤ s.meridian then
      let s := (s.facetDots k).powerDue k
      (s.updBtm k fun b => { b with imageEnd := none, eosUntil := some (t + b.win.eos) }).lineFinish k
    else s
  | none => s

/-- EOSk is captured in its window (R150); a power window that would end too late is skipped (R190). -/
def State.eosCapture (s : State) (k tap : Nat) : State :=
  let s := s.lineEnd k
  match (s.btmOf k).eosUntil, (s.btmOf k).sos with
  | some t, some sos =>
    if s.btmRuns k ∧ s.btmBalls k ∧ s.meridian ≤ t then
      let taps := s.meridian * 32 + tap % 32 - sos
      let now := s.meridian
      let s := s.updBtm k fun b => { b with eosUntil := none, eosAt := some now }
      let s := (s.wrw (Reg.BTM_SCAN_LAST k) taps).wrw (Reg.BTM_SCAN k (s.rd (Reg.BTM_STATE_FACET k))) taps
      if (s.powerJob k).any (s.powerLate k) then s.powerSkip k else s
    else s
  | _, _ => s

/-- The EOS window ends without an edge (R150); a source 0 measurement skips the facet (R190). -/
def State.eosMiss (s : State) (k : Nat) : State :=
  match (s.btmOf k).eosUntil with
  | some t =>
    if s.btmRuns k ∧ t < s.meridian then
      let s := (s.updBtm k fun b => { b with eosUntil := none }).inc (Reg.BTM_CNT_EOS_MISS_COUNT k)
      if (s.powerJob k).any fun j => !j.cal then s.powerSkip k else s
    else s
  | none => s

/-! ## The DLL, and starting and stopping (R152) -/

/-- The scan engine of station `k` stops, with its beams (R34, R152, R186). -/
def State.btmStop (s : State) (k : Nat) : State :=
  let s := (s.cutBeams k).updBtm k fun b => { b with sos := none, captured := false, open_ := none, misses := 0, caps := 0,
                                                     numbered := false, imageEnd := none, eosUntil := none, eosAt := none }
  let s := (s.wr (Reg.BTM_STATE_SOS_OK k) 0).wr (Reg.BTM_STATE_ACQUIRE k) 0
  ((s.dropTest k).endCal k).updStation k

/-- The scan engine of station `k` starts in acquisition, with the settings applied (R149, R168). -/
def State.btmStart (s : State) (k : Nat) : State := ((s.btmStop k).updBtm k fun b => { b with cur := b.app }).acquire k

/-- The station DLL of `k` locks (R96, R152). -/
def State.dllLock (s : State) (k : Nat) : State :=
  if k < s.stations ∧ s.coreClock ∧ !s.on (Reg.BTM_STATE_DLL_LOCK k) then
    ((s.updBtm k fun b => { b with inReset := false }).wr (Reg.BTM_STATE_DLL_LOCK k) 1).updStation k
  else s

/-- The station DLL of `k` reports unlock (R152). -/
def State.dllUnlock (s : State) (k : Nat) : State :=
  if s.on (Reg.BTM_STATE_DLL_LOCK k) then
    let s := ((s.wr (Reg.BTM_STATE_DLL_LOCK k) 0).raise (Reg.BTM_STATUS k) 7).inc (Reg.BTM_CNT_DLL_UNLOCK_COUNT k)
    s.updStation k
  else s

/-- The core tree of the stations stops: the DLLs with it (R34, R152). -/
def State.btmHalt (s : State) : State :=
  forUpTo 8 s fun s k => (s.wr (Reg.BTM_STATE_DLL_LOCK k) 0).btmStop k

/-- The core tree runs again: enabled stations go into acquisition, and settings that waited are applied (R149, R167). -/
def State.btmResume (s : State) : State :=
  forUpTo 8 s fun s k =>
    let s := s.btmSoon k
    if s.on (Reg.BTM_CTRL_EN k) then s.btmStart k else s

/-! ## Commands of BTM (R169 to R172) -/

/-- A command of BTMk is refused (R169, R170): a committed sheet whose EXPOSE is refused becomes a spoil. -/
def State.btmRefuse (s : State) (k : Nat) (c : Cmd) : State :=
  let s := (s.raise (Reg.BTM_STATUS k) 4).inc (Reg.BTM_CNT_EXP_REFUSED_COUNT k)
  match c.tag with
  | some (t, q) => if c.op = 1 ∧ s.shSeq t = q then s.spoilIf t 0x21 else s
  | none => s

/-- The EXPOSE `c` takes effect at BTMk (R58, R170). -/
def State.expose (s : State) (k : Nat) (c : Cmd) : State :=
  let page := c.operand % 256
  match c.tag with
  | none => s.btmRefuse k c
  | some (t, q) =>
    let head : Bool := match (s.strOf k).queue with
      | e :: _ => e.page = page && e.tag = t
      | [] => false
    if s.on (Reg.BTM_STATE_READY k) ∧ (s.btmOf k).exp.isNone ∧ head then
      let e : Exposure := { page := page, tag := t, seq := q, effect := c.due, band := 0, begun := false }
      s.updBtm k fun b => { b with exp := some e }
    else s.btmRefuse k c

/-- The CAL_START `c` takes effect at BTMk (R58, R169, R172). -/
def State.calStart (s : State) (k : Nat) (c : Cmd) : State :=
  if s.gapOpen then s.updBtm k fun b => { b with calNext := true } else s.btmRefuse k c

/-- The calibration exposure of station `k` ends with the beams off (R172). -/
def State.calOff (s : State) (k : Nat) : State :=
  if (s.btmOf k).cal.isSome ∧ !(s.btmOf k).exp.any (·.begun) then (s.cutBeams k).endCal k else s.endCal k

/-- The CAL_STOP takes effect at BTMk (R172). -/
def State.calStop (s : State) (k : Nat) : State :=
  if (s.btmOf k).cal.isSome ∨ (s.btmOf k).calNext then s.calOff k else s

/-- The Gap closes: a calibration exposure still lit is cut and counted (R58, R172). -/
def State.calCut (s : State) (k : Nat) : State :=
  if (s.btmOf k).cal.isSome then
    ((s.raise (Reg.BTM_STATUS k) 5).inc (Reg.BTM_CNT_CALCUT_COUNT k)).calOff k
  else s.updBtm k fun b => { b with calNext := false }

/-! ## The laser safety interlock (R174, R175) -/

/-- The word of `BTM_LSI` (R175, R176). -/
def State.lsiWord (s : State) : Nat :=
  boolNat s.lsi.in0 + 2 * boolNat s.lsi.in1 + 4 * boolNat s.lsi.active + 8 * boolNat s.lsi.disagree

/-- The interlock becomes active: every station, the record of the always-on domain, and the measurements that end (R174, R175, R190,
R388). -/
def State.lsiActive (s : State) : State :=
  let s := { s with lsi := { s.lsi with active := true } }
  let s := if s.dev = stNight then s
    else s.vesperAo 0x0012 s.lsiWord 0 s.meridian (s.meridian / 2 ^ 32)
  let s := forUpTo s.stations s fun s k =>
    let s := s.raise (Reg.BTM_STATUS k) 6
    let s := if (s.bmkOf k).job.isSome then s.powerError k 3 else s
    s.dropTest k
  s.updStations

/-- An interlock input has been low for more than 0.5 µs (R174); `low1` tells which. -/
def State.lsiLow (s : State) (low1 : Bool) : State :=
  let l := if low1 then { s.lsi with in1 := false, highSince := none } else { s.lsi with in0 := false, highSince := none }
  let s := { s with lsi := l }
  if s.lsi.active then s else s.lsiActive

/-- An interlock input returns high; when both are, the unbroken time that a re-arm needs begins (R175). -/
def State.lsiHigh (s : State) (in1 : Bool) : State :=
  let l := if in1 then { s.lsi with in1 := true } else { s.lsi with in0 := true }
  let since := if l.in0 && l.in1 then (if l.highSince.isSome then l.highSince else some s.clock) else none
  { s with lsi := { l with highSince := since } }

/-- The inputs have disagreed for more than 10 ms (R175). -/
def State.lsiDisagree (s : State) : State :=
  if s.lsi.in0 = s.lsi.in1 then s else { s with lsi := { s.lsi with disagree := true } }

/-- A write of `v` to `BTM0_LSI` (R175, R176): a re-arm counts only after both inputs have been high for 1 ms. -/
def State.lsiRearm (s : State) (v : Nat) : State :=
  let long : Bool := match s.lsi.highSince with
    | some t => decide (t + 3000000 ≤ s.clock)
    | none => false
  if bitAt v 4 ∧ bitsOf v 8 8 = 0x5A ∧ long then
    { s with lsi := { s.lsi with active := false, disagree := false } }.updStations
  else s

/-! ## Register writes (R155, R165, R167, R176) -/

/-- A write of `v` to the register at offset `o` of BTMk (R151, R155, R165, R167, R176). -/
def State.btmWrite (s : State) (k o v : Nat) : State :=
  match o with
  | 0x000 =>
    let was := s.on (Reg.BTM_CTRL_EN k)
    let s := s.plainWrite (Reg.BTM_CTRL k) v
    if bitAt v 0 ∧ !was then (if s.coreClock then s.btmStart k else s)
    else if !bitAt v 0 ∧ was then ((if (s.bmkOf k).job.isSome then s.powerError k 4 else s)).btmStop k
    else s
  | 0x010 => (s.plainWrite (Reg.BTM_DOT_PERIOD k) v).btmSoon k
  | 0x014 =>
    let s := s.plainWrite (Reg.BTM_FACET_CFG k) v
    let f := s.rd (Reg.BTM_FACET_CFG_FACETS k)
    let s := if 4 ≤ f ∧ f ≤ 12 then s else s.wr (Reg.BTM_FACET_CFG_FACETS k) 8
    let s := if s.rd (Reg.BTM_FACET_CFG_SOS_MISS_MAX k) = 0 then s.wr (Reg.BTM_FACET_CFG_SOS_MISS_MAX k) 1 else s
    s.btmSoon k
  | 0x01C => s.wr (Reg.BTM_SOS_WIN_HALF k) (max 32 (bitsOf v 0 16))
  | 0x024 => (s.wr (Reg.BTM_LINE_OFS_TAPS k) (max 2048 v)).btmSoon k
  | 0x028 =>
    let s := s.plainWrite (Reg.BTM_TBL_CTRL k) v
    let s := s.wr (Reg.BTM_TBL_CTRL_PENDING k)
      (boolNat (s.rd (Reg.BTM_TBL_CTRL_NEXT k) ≠ s.rd (Reg.BTM_TBL_CTRL_LIVE k)))
    s.btmSoon k
  | 0x02C =>
    let s := s.plainWrite (Reg.BTM_FACET_IDX k) v
    if bitAt v 4 then (s.wr (Reg.BTM_FACET_IDX_IDX_PENDING k) 1).btmSoon k else s
  | 0x044 => if k = 0 then s.lsiRearm v else s
  | 0x048 | 0x04C | 0x050 | 0x054 => (s.plainWrite (0xD0000 + 0x10000 * k + o) v).calRedraw k
  | _ => s.plainWrite (0xD0000 + 0x10000 * k + o) v

end Sys2Proof.Machine
end

