-- ==== Sys2Proof/Machine/Bmk.lean ====
section
/-! DEFINITION. The mask sets, the beam tests and the beam-power measurement (R177 to R192). -/

namespace Sys2Proof.Machine

/-! ## Mask sets (R180 to R183) -/

/-- The first beam whose `LINE` equals that of a lower-numbered beam (R180). -/
def State.doubledLine (s : State) (k i : Nat) : Option Nat :=
  (List.range 64).find? fun b => (List.range b).any fun a => s.lineMap k i a = s.lineMap k i b

/-- The first facet and beam that carries a line across the band's edge: `ova` the line above line 0, else the line below line 63
(R180). -/
def State.carryFault (s : State) (k i : Nat) (ova : Bool) : Option (Nat × Nat) :=
  (List.range (min 12 (s.rd (Reg.BTM_FACET_CFG_FACETS k)))).findSome? fun f =>
    ((List.range 64).find? fun b =>
      if ova then s.lineMap k i b = 0 && bitAt (s.maskOva k i f) b else s.lineMap k i b = 63 && bitAt (s.maskOvb k i f) b).map
        fun b => (f, b)

/-- The first check of R180 that set `i` fails: its code, facet and beam. -/
def State.setFault (s : State) (k i : Nat) : Option (Nat × Nat × Nat) :=
  match s.doubledLine k i with
  | some b => some (1, 0, b)
  | none =>
    match s.carryFault k i true with
    | some (f, b) => some (2, f, b)
    | none => (s.carryFault k i false).map fun x => (3, x.1, x.2)

/-! ## Beam tests (R184 to R187) -/

/-- Beam `b` is in the rotation of station `k`, whose sync beam is `sync` (R184). -/
def State.inRotation (s : State) (k sync b : Nat) : Bool :=
  bitAt (s.rd64 (Reg.BMK_S_TEST_MASK_LO k) (Reg.BMK_S_TEST_MASK_HI k)) b && b ≠ sync

/-- The beam that the next test takes, with sync beam `sync` (R184). -/
def State.nextBeam (s : State) (k sync : Nat) : Option Nat :=
  let first := match (s.bmkOf k).last with
    | some b => b + 1
    | none => 0
  ((List.range 64).map fun i => (first + i) % 64).find? (s.inRotation k sync)

/-- The DEAD register that holds beam `b`. -/
def deadReg (k b : Nat) : Nat := if b < 32 then Reg.BMK_S_DEAD_LO k else Reg.BMK_S_DEAD_HI k

/-- Beam `b` becomes dead (R187). -/
def State.beamDead (s : State) (k b : Nat) : State :=
  let s := s.wrw (deadReg k b) (bitPut (s.rdw (deadReg k b)) (b % 32) true)
  let s := s.raise (Reg.BMK_S_STATUS k) 0
  let s := s.wrw (Reg.BMK_S_DEAD_INFO k) b
  if s.on (Reg.BTM_STATE_EXPOSING k) then
    let s := (s.wr (Reg.BMK_S_DEAD_INFO_TAG k) (s.rd (Reg.BTM_STATE_TAG k))).wr (Reg.BMK_S_DEAD_INFO_PAGE k)
      (s.rd (Reg.BTM_STATE_PAGE k))
    s.wr (Reg.BMK_S_DEAD_INFO_EXPOSING k) 1
  else s

/-- Beam `b` is dead: its `CONSEC` has reached `MISS_LIMIT` (R187). -/
def State.dead (s : State) (k b : Nat) : Bool :=
  decide (s.rd (Reg.BMK_S_TEST_CFG_MISS_LIMIT k) ≤ s.rd (Reg.BMK_S_MISS_CONSEC k b))

/-- The earliest dot 0 of any beam in the present facet, in taps of Meridian (R156, R186). -/
def State.firstDot (s : State) (k : Nat) : Int :=
  let dot (b : Nat) : Int := (s.btmOf k).base.edge (s.tableWord k false (s.knotOfs k b 0)) 0 0
  (List.range 64).foldl (fun acc b => min acc (dot b)) (dot 0)

/-- The test of beam `b` in the present facet is skipped (R186). -/
def State.testSkipped (s : State) (k b : Nat) : Bool :=
  let x := s.btmOf k
  let sos := x.sos.getD 0
  let ofs := s.rd (Reg.BMK_S_XOFS_TICKS k b)
  let half := s.rd (Reg.BMK_S_TEST_CFG_WIN_HALF k)
  !x.captured || s.on (Reg.BTM_STATE_ACQUIRE k) || s.lsi.active || !s.on (Reg.BTM_CTRL_EN k) || decide (ofs < half + 8)
    || decide (s.firstDot k < (sos + (ofs + half + 64) * 32 : Nat))

/-- The window of a test of beam `b` at station `k`, about the captured SOS (R185). -/
def State.testWindow (s : State) (k b : Nat) : BeamTest :=
  let sos := (s.btmOf k).sos.getD 0
  let ofs := s.rd (Reg.BMK_S_XOFS_TICKS k b)
  let half := s.rd (Reg.BMK_S_TEST_CFG_WIN_HALF k)
  { beam := b, opens := sos + (ofs - half) * 32, closes := sos + (ofs + half) * 32 }

/-- The test of beam `b` at station `k` begins, or is skipped (R184 to R186). -/
def State.testOf (s : State) (k b : Nat) : State :=
  if s.testSkipped k b then s.skipTest k b else s.updBmk k fun x => { x with test := some (s.testWindow k b) }

/-- The beam of station `k` that a test may take, if any, is tested (R184, R185). -/
def State.testMaybe (s : State) (k : Nat) : Option Nat → State
  | none => s
  | some b => (s.updBmk k fun x => { x with last := some b }).testOf k b

/-- The beam test that is due in the present facet of station `k` begins, or is skipped (R184 to R186). -/
def State.beamTest (s : State) (k : Nat) : State :=
  if !(s.bmkOf k).due then s
  else
    let s := s.updBmk k fun b => { b with due := false, test := none }
    s.testMaybe k (s.nextBeam k (s.btmOf k).cur.sosBeam)

/-- The test of beam `b` that ran has passed or missed; the beam stays lit until tick `lit` (R185). -/
def State.testOver (s : State) (k b : Nat) (pass : Bool) (lit : Nat) : State :=
  ((s.updBmk k fun x => { x with test := none, lit := some (b, lit) }).testShown k b pass false).inc (Reg.BMK_S_CNT_TESTS_COUNT k)

/-- A SOSk edge arrives at this tick and at `tap` in the test window (R185). -/
def State.testPass (s : State) (k tap : Nat) : State :=
  match (s.bmkOf k).test with
  | some t =>
    let at_ := s.meridian * 32 + tap % 32
    if t.opens ≤ at_ ∧ at_ ≤ t.closes ∧ s.btmBalls k then
      let s := (s.testOver k t.beam true (s.meridian + 4)).wr (Reg.BMK_S_MISS_CONSEC k t.beam) 0
      s.wrw (Reg.BMK_S_TEST_XLAST k) (at_ - (s.btmOf k).sos.getD 0)
    else s
  | none => s

/-- The test window closes without an edge (R185, R187). -/
def State.testMiss (s : State) (k : Nat) : State :=
  match (s.bmkOf k).test with
  | some t =>
    if t.closes < s.meridian * 32 then
      let was := s.dead k t.beam
      let s := (s.testOver k t.beam false 0).incSat (Reg.BMK_S_MISS_CONSEC k t.beam)
      let s := s.inc (Reg.BMK_S_MISS_TOTAL k t.beam)
      if !was && s.dead k t.beam then s.beamDead k t.beam else s
    else s
  | none => s

/-! ## The switch of mask sets (R181 to R183, R188) -/

/-- Offset `o` of a station's group lies in mask set `i` (R192). -/
def inSet (o i : Nat) : Bool := decide (0x400 ≤ o ∧ o < 0xC00) && (o - 0x400) / 0x200 = i

/-- What station `k`'s BMK remembers of this very tick: the set that a switch took out of use, and the words of sets overwritten. -/
def State.setsNow (s : State) (k : Nat) : Option Nat × List (Nat × RegWord) :=
  if (s.bmkOf k).setAt = s.clock then ((s.bmkOf k).outgoing, (s.bmkOf k).wrote) else (none, [])

/-- Set `i` of station `k` as it stood before the writes of this tick (R183). -/
def State.beforeWrites (s : State) (k i : Nat) : State :=
  forEach ((s.setsNow k).2.reverse.filter fun e => inSet (e.1 - (0x151000 + 0x1000 * k)) i) s fun s e => s.setReg e.1 e.2

/-- Set `i` of station `k` becomes live (R182); on A0 the switch resets every `CONSEC` of the station (R188). -/
def State.setLive (s : State) (k i : Nat) : State :=
  let old := s.liveSet k
  let now := s.clock
  let s := s.updBmk k fun x => { x with setAt := now, outgoing := some old, wrote := [] }
  let s := ((s.wr (Reg.BMK_S_SET_CTRL_LIVE k) i).wr (Reg.BMK_S_SET_CTRL_PENDING k) 0).inc (Reg.BMK_S_CNT_SWITCH_COUNT k)
  forUpTo 64 s fun s b => s.wr (Reg.BMK_S_MISS_CONSEC k b) 0

/-- A pending mask-set switch of station `k` is applied, or refused (R182): the set is checked as it stood before this tick's writes to it,
which are dropped, and a beam test whose window has closed declares its beam first (R183). -/
def State.maskApply (s : State) (k : Nat) : State :=
  let i := s.rd (Reg.BMK_S_SET_CTRL_NEXT k)
  if i = s.liveSet k then s
  else
    let s := s.testMiss k
    let t := s.beforeWrites k i
    match t.setFault k i with
    | none => t.setLive k i
    | some (c, f, b) =>
      let s := (s.wr (Reg.BMK_S_SET_ERR_CODE k) c).wr (Reg.BMK_S_SET_ERR_BEAM k) b
      let s := (s.wr (Reg.BMK_S_SET_ERR_FACET k) f).wr (Reg.BMK_S_SET_ERR_SET k) i
      s.raise (Reg.BMK_S_STATUS k) 1

/-- A write of `v` to offset `o` of station `k`'s group, in a mask set: dropped where the set is live, or was live before a switch in this
tick (R181, R183). -/
def State.setWrite (s : State) (k o v : Nat) : State :=
  let off := 0x151000 + 0x1000 * k + o
  let x := s.setsNow k
  let now := s.clock
  if inSet o (s.liveSet k) ∨ x.1.any (inSet o) then s.raise (Reg.BMK_S_STATUS k) 2
  else
    let w := s.getReg off
    (s.updBmk k fun b => { b with setAt := now, outgoing := x.1, wrote := x.2 ++ [(off, w)] }).plainWrite off v

/-- A write of `v` to `BMK_Sk_TEST_CFG` (R184, R187, R192): a change of `INTERVAL` restarts the count; beams that a lower `MISS_LIMIT`
makes dead are declared. -/
def State.testCfg (s : State) (k v : Nat) : State :=
  let alive := (List.range 64).filter fun b => !s.dead k b
  let n := s.rd (Reg.BMK_S_TEST_CFG_INTERVAL k)
  let s := s.plainWrite (Reg.BMK_S_TEST_CFG k) v
  let s := if s.rd (Reg.BMK_S_TEST_CFG_MISS_LIMIT k) = 0 then s.wr (Reg.BMK_S_TEST_CFG_MISS_LIMIT k) 1 else s
  let s := if bitsOf v 0 8 = n then s else s.updBmk k fun x => { x with facets := 0, due := false }
  forEach alive s fun s b => if s.dead k b then s.beamDead k b else s

/-- A W1C write of `v` to a DEAD register whose first beam is `b0`: a bit whose beam is still dead sets again at once (R187). -/
def State.deadClear (s : State) (k b0 v : Nat) : State :=
  let off := deadReg k b0
  let w := s.rdw off &&& (0xFFFFFFFF ^^^ v)
  let w := (List.range 32).foldl (fun w i => if bitAt v i && bitAt (s.rdw off) i && s.dead k (b0 + i) then bitPut w i true else w) w
  s.wrw off w

/-! ## Beam power (R189 to R191) -/

/-- The measurement that the registers of station `k` ask for (R189). -/
def State.powerAsked (s : State) (k : Nat) : PowerJob :=
  { cal := s.on (Reg.BMK_S_PWR_CTRL_SRC k), dark := s.on (Reg.BMK_S_PWR_CTRL_DARK k), beam := s.rd (Reg.BMK_S_PWR_CTRL_BEAM k),
    avg := s.rd (Reg.BMK_S_PWR_CTRL_AVG k), delay := s.rd (Reg.BMK_S_PWR_CFG_DELAY k), ticks := s.rd (Reg.BMK_S_PWR_CFG_TICKS k) }

/-- The present facet of station `k` cannot be measured whole by `j` any more: its window has begun, or there is none (DEDUCED, log 75). -/
def State.powerTooLate (s : State) (k : Nat) (j : PowerJob) : Bool :=
  if j.cal then (s.btmOf k).cal.isNone || decide (s.dotTick k (s.rd (Reg.BTM_CAL_DOTS_FIRST k)) ≤ s.meridian)
  else (s.btmOf k).imageEnd.isNone && (s.btmOf k).eosUntil.isNone

/-- A write of `GO` to `BMK_Sk_PWR_CTRL` (R189, R190). -/
def State.powerGo (s : State) (k : Nat) : State :=
  if s.on (Reg.BMK_S_PWR_STATUS_BUSY k) then s.wr (Reg.BMK_S_PWR_STATUS_GO_IGNORED k) 1
  else
    let j := s.powerAsked k
    let late := s.powerTooLate k j
    let s := (s.updBmk k fun x => { x with values := [], skipRun := 0, facetDone := late }).wrw (Reg.BMK_S_PWR_STATUS k) 0
    if (!j.cal ∧ j.ticks = 0) ∨ (j.cal ∧ s.rd (Reg.BTM_CAL_DOTS_LAST k) < s.rd (Reg.BTM_CAL_DOTS_FIRST k)) then s.powerError k 1
    else if s.lsi.active then s.powerError k 3
    else if !s.on (Reg.BTM_CTRL_EN k) then s.powerError k 4
    else (s.updBmk k fun x => { x with job := some j }).wr (Reg.BMK_S_PWR_STATUS_BUSY k) 1

/-- The last facet of the measurement has been integrated (R191). -/
def State.powerDone (s : State) (k : Nat) : State :=
  let l := (s.bmkOf k).values
  if (s.bmkOf k).job.any fun j => l.length = 2 ^ j.avg then
    let hi := l.foldl max 0
    let lo := l.foldl min hi
    let s := s.updBmk k fun x => { x with job := none }
    let s := (s.wr (Reg.BMK_S_PWR_STATUS_BUSY k) 0).wr (Reg.BMK_S_PWR_STATUS_DONE k) 1
    (s.wr (Reg.BMK_S_PWR_RESULT_MEAN k) (quotient (l.foldl (· + ·) 0) l.length)).wr (Reg.BMK_S_PWR_RESULT_SPREAD k) (quotient (hi - lo) 16)
  else s

/-! ## The beam outputs (R148, R149, R150, R156, R172, R174, R185, R189) -/

/-- A pulse of beam `b` of station `k` is driven in the present tick (R156, R172). -/
def State.pulseLit (s : State) (k b : Nat) : Bool :=
  let now : Int := s.meridian * 32
  (s.btmOf k).pulses.any fun p => p.1 = b && decide (p.2.1 < now + 32 ∧ now < p.2.2)

/-- Beam `b` is the sync beam of station `k`, and lit for the start-of-scan or the end-of-scan gate (R148 to R150). -/
def State.syncLit (s : State) (k b : Nat) : Bool :=
  let x := s.btmOf k
  s.btmRuns k && s.on (Reg.BTM_CTRL_SYNC_EN k) && b = x.cur.sosBeam
    && (s.on (Reg.BTM_STATE_ACQUIRE k) || x.open_.isSome || decide (s.meridian < x.syncUntil) || x.eosUntil.isSome)

/-- Beam `b` of station `k` is lit for a beam test (R185). -/
def State.testLit (s : State) (k b : Nat) : Bool :=
  let now := s.meridian * 32
  ((s.bmkOf k).test.any fun t => t.beam = b && decide (t.opens < now + 32 ∧ now ≤ t.closes))
    || (s.bmkOf k).lit.any fun x => x.1 = b && decide (s.meridian < x.2)

/-- Beam `b` of station `k` is lit for a power measurement: beam `BEAM` alone in the retrace window, none for a dark one (R189). -/
def State.powerLit (s : State) (k b : Nat) : Bool :=
  match s.powerJob k, (s.btmOf k).eosAt with
  | some j, some t => !j.cal && !j.dark && b = j.beam && !(s.bmkOf k).facetDone
      && decide (t + j.delay ≤ s.meridian ∧ s.meridian < t + j.delay + j.ticks)
  | _, _ => false

/-- The output of beam `b` of station `k` is on in the present tick: nothing lights a beam while the interlock is active or the
outputs are held off (R174, R298, R300, R401). -/
def State.beamOut (s : State) (k b : Nat) : Bool :=
  !s.lsi.active && !s.outputsHeld && s.ballLive (209 + k) 0 && (s.pulseLit k b || s.syncLit k b || s.testLit k b || s.powerLit k b)

/-- The laser-driver enable LDENk (R174, R175, R298, R300). -/
def State.lden (s : State) (k : Nat) : Bool := s.on (Reg.BTM_CTRL_EN k) && !s.lsi.active && !s.outputsHeld

/-! ## Register writes (R181, R182, R192) -/

/-- A write of `v` to offset `o` of station `k`'s register group (R181, R182, R187, R189, R192). -/
def State.bmkWrite (s : State) (k o v : Nat) : State :=
  if s.stations ≤ k then s
  else if 0x400 ≤ o ∧ o < 0xC00 then s.setWrite k o v
  else
    match o with
    | 0x008 =>
      let s := s.plainWrite (Reg.BMK_S_SET_CTRL k) v
      let s := s.wr (Reg.BMK_S_SET_CTRL_PENDING k)
        (boolNat (s.rd (Reg.BMK_S_SET_CTRL_NEXT k) ≠ s.rd (Reg.BMK_S_SET_CTRL_LIVE k)))
      if s.dev = stDawn ∨ s.dev = stMorning then s.maskApply k else s
    | 0x010 => s.testCfg k v
    | 0x024 => s.deadClear k 0 v
    | 0x028 => s.deadClear k 32 v
    | 0x040 =>
      let s := s.plainWrite (Reg.BMK_S_PWR_CTRL k) v
      if bitAt v 0 then s.powerGo k else s
    | _ => s.plainWrite (0x151000 + 0x1000 * k + o) v

end Sys2Proof.Machine
end

