-- ==== Sys2Proof/Machine/Bld.lean ====
section
/-! DEFINITION. The BLDC motor channels (R225 to R240). -/

namespace Sys2Proof.Machine

/-- Channel states (R233). -/
def blOff : Nat := 0
@[inherit_doc blOff] def blCoast : Nat := 1
@[inherit_doc blOff] def blDetect : Nat := 2
@[inherit_doc blOff] def blAlign : Nat := 3
@[inherit_doc blOff] def blRamp : Nat := 4
@[inherit_doc blOff] def blRun : Nat := 5

/-- Channel `n` beside its registers. -/
def State.bldOf (s : State) (n : Nat) : BldX :=
  match s.bld[n]? with
  | some x => x
  | none => {}

/-- `s` with channel `n` changed by `f`. -/
def State.updBld (s : State) (n : Nat) (f : BldX → BldX) : State :=
  { s with bld := s.bld.setIfInBounds n (f (s.bldOf n)) }

/-- The state of channel `n` (R233). -/
def State.bl (s : State) (n : Nat) : Nat := s.rd (Reg.BLD_C_STATE_STATE n)

/-- The sector of channel `n`. -/
def State.bldSector (s : State) (n : Nat) : Nat := s.rd (Reg.BLD_C_STATE_SECTOR n)

/-! ## The duty (R226 to R228, R236, R237) -/

/-- The PWM period of channel `n`, in 2 ns: a `PERIOD` written in RUN waits for the next period (R226). -/
def State.bldPeriod (s : State) (n : Nat) : Nat :=
  if s.bl n = blRun then (s.bldOf n).period else s.rd (Reg.BLD_C_PWM_PERIOD n)

/-- The effective duty limit in 1/65,536 (R227). -/
def State.bldLimit (s : State) (n : Nat) : Nat :=
  let off := (2 * s.rd (Reg.BLD_C_PWM_DT n) + s.rd (Reg.BLD_C_PWM_MIN_ON n)) * 5
  min (s.rd (Reg.BLD_C_DUTY_DUTY_MAX n)) (65536 * (s.bldPeriod n - off) / s.bldPeriod n)

/-- The duty asked of channel `n`: that of ALIGN or RAMP, and in RUN `DUTY` or the loop output that the period took (R233, R236, R261, R270). -/
def State.bldAsked (s : State) (n : Nat) : Nat :=
  if s.bl n = blAlign then (s.bldOf n).prm.alignDuty
  else if s.bl n = blRamp then (s.bldOf n).prm.rampDuty
  else if s.on (Reg.BLD_C_CTRL_DUTY_SRC n) then (s.bldOf n).loopY
  else s.rd (Reg.BLD_C_DUTY_DUTY n)

/-- The duty applied to channel `n` (R227, R237). -/
def State.bldApplied (s : State) (n : Nat) : Nat :=
  let d := min (s.bldAsked n) (s.bldLimit n)
  match (s.bldOf n).cap with
  | some c => min d c
  | none => d

/-- The ramp's electrical frequency at tick `t`, in Hz × 3,000,000,000 (R233). -/
def State.rampFreq (s : State) (n t : Nat) : Nat :=
  let b := s.bldOf n
  b.prm.f0 * 3000000000 + b.prm.rate * (t - b.since)

/-- The electrical frequency of channel `n` is at or above `FMAX_HZ`: that of the present sector in RAMP, that of `PERIOD` in RUN (R236,
R237). -/
def State.bldFast (s : State) (n : Nat) : Bool :=
  let top := s.rd (Reg.BLD_C_LIMIT_FMAX_HZ n)
  let p := s.rdw (Reg.BLD_C_PERIOD n)
  if s.bl n = blRamp then decide (top * 3000000000 ≤ s.rampFreq n (s.bldOf n).commLast)
  else p ≠ 0 && decide (top * p ≤ 3000000000)

/-- `SAT` and `SPEED_LIM` of channel `n`, and the duty at which the speed limit holds it (R227, R237). -/
def State.bldLimits (s : State) (n : Nat) : State :=
  if s.bl n < blAlign then s
  else
    let now := s.bldApplied n
    let fast := s.bldFast n
    let s := s.updBld n fun b => { b with cap := if fast then some (b.cap.getD now) else none }
    let s := s.wr (Reg.BLD_C_STATE_SPEED_LIM n) (boolNat fast)
    s.wr (Reg.BLD_C_STATE_SAT n) (boolNat (fast || decide (s.bldLimit n < s.bldAsked n)))

/-- A DUTY command of `d` reaches channel `n` (R236, R238). -/
def State.bldDuty (s : State) (n d : Nat) : State :=
  if s.on (Reg.BLD_C_CTRL_DUTY_SRC n) then s else (s.wr (Reg.BLD_C_DUTY_DUTY n) d).bldLimits n

/-- The high-side on-time of a period, in 2 ns (R226). -/
def State.bldOn (s : State) (n : Nat) : Nat := s.bldApplied n * s.bldPeriod n / 65536

/-- An on-time as short as this is skipped (R228). -/
def State.bldShort (s : State) (n : Nat) : Bool :=
  decide (s.bldOn n < (s.rd (Reg.BLD_C_PWM_DT n) + s.rd (Reg.BLD_C_PWM_MIN_ON n)) * 5)

/-- The sample of the present period is skipped (R231). -/
def State.bldBlind (s : State) (n : Nat) : Bool :=
  (s.bldOf n).short || decide (s.bldOn n < s.rd (Reg.BLD_C_BEMF_BLANK n) * 5 + s.rd (Reg.BLD_C_BEMF_SAMPLE_MIN n) * 5)

/-! ## The sectors and the outputs (R225, R226, R228, R229, R234, R235) -/

/-- The sector after sector `x` (R229). -/
def State.nextSector (s : State) (n x : Nat) : Nat := if s.on (Reg.BLD_C_CTRL_DIR n) then (x + 5) % 6 else (x + 1) % 6

/-- The PWM leg of sector `x`: 0 U, 1 V, 2 W (R229). -/
def pwmLeg (x : Nat) : Nat := x / 2

/-- The floating phase of sector `x` (R229). -/
def floatLeg (x : Nat) : Nat := 2 - x % 3

/-- The low leg of sector `x` (R229). -/
def lowLeg (x : Nat) : Nat := 3 - pwmLeg x - floatLeg x

/-- The watched crossing of sector `x` rises (R229). -/
def watchedUp (x : Nat) (dir : Bool) : Bool := decide (x % 2 = 0) != dir

/-- The sector whose watched crossing is that of phase `p`, rising or falling (R229). -/
def crossSector (p : Nat) (up dir : Bool) : Nat := (4 * (2 - p) + 3 * boolNat (up == dir)) % 6

/-- The clocks since the present PWM period of channel `n` began. -/
def State.bldPhase (s : State) (n : Nat) : Nat := s.clock - (s.bldOf n).pwmAt

/-- Leg `p` of channel `n` takes another part at the commutation under way, and its dead time still runs (R226). -/
def State.bldDead (s : State) (n p : Nat) : Bool :=
  match (s.bldOf n).turned with
  | some c =>
    let x := s.bldSector n
    let before := if s.on (Reg.BLD_C_CTRL_DIR n) then (x + 1) % 6 else (x + 5) % 6
    decide (s.clock < c + 30 * s.rd (Reg.BLD_C_PWM_DT n))
      && ((pwmLeg x = p && pwmLeg before ≠ p) || (lowLeg x = p && lowLeg before ≠ p))
  | none => false

/-- The channel drives its bridge: in ALIGN, RAMP and RUN, with its balls granted, unless the outputs are held off (R225, R233, R234,
R298, R300, R401). -/
def State.bldDrives (s : State) (n : Nat) : Bool := decide (blAlign ≤ s.bl n) && s.ballLive n 0 && !s.outputsHeld

/-- The high-side gate of leg `p` of channel `n`: BLnn_UH, BLnn_VH or BLnn_WH (R225, R226, R228, R229). -/
def State.bldHigh (s : State) (n p : Nat) : Bool :=
  s.bldDrives n && pwmLeg (s.bldSector n) = p && !s.bldDead n p && !(s.bldOf n).short
    && decide (s.bldPhase n < 6 * s.bldOn n)

/-- The low-side gate of leg `p` of channel `n`: the low leg stays on; with `COMPL` the PWM leg's is on in the off-time, a dead time away
from the high side's turn-off and from its next turn-on (R225, R226, R228, R229; log 77). -/
def State.bldLow (s : State) (n p : Nat) : Bool :=
  let x := s.bldSector n
  let dead := 30 * s.rd (Reg.BLD_C_PWM_DT n)
  let from_ := if (s.bldOf n).short then 0 else 6 * s.bldOn n + dead
  s.bldDrives n && !s.bldDead n p
    && (lowLeg x = p || (pwmLeg x = p && s.on (Reg.BLD_C_CTRL_COMPL n)
          && decide (from_ ≤ s.bldPhase n ∧ s.bldPhase n + dead < 6 * s.bldPeriod n)))

/-! ## The channel's states (R233) -/

/-- A PWM period of channel `n` begins: it takes `PERIOD` and the loop output, and its on-time is driven or skipped (R226, R228, R270). -/
def State.bldPeriodStart (s : State) (n : Nat) : State :=
  let now := s.clock
  let y := s.rd (Reg.PRA_L_OUT_Y (s.rd (Reg.BLD_C_CTRL_LOOP n)))
  let per := s.rd (Reg.BLD_C_PWM_PERIOD n)
  let s := (s.updBld n fun b => { b with pwmAt := now, period := per, loopY := y, sampled := false }).bldLimits n
  let short := s.bldShort n
  let s := s.updBld n fun b => { b with short := short }
  if short then (s.inc (Reg.BLD_C_CNT_SHORT_COUNT n)).count 32 n 1 else s

/-- Channel `n` enters state `x`, which begins now (R233, R236, R240). -/
def State.blGo (s : State) (n x : Nat) : State :=
  let now := s.meridian
  let s := s.wr (Reg.BLD_C_STATE_STATE n) x
  let s := s.updBld n fun b => { b with since := now }
  if x = blRun then s.wr Reg.BLD_RUNNING_RUN (bitPut (s.rd Reg.BLD_RUNNING_RUN) n true)
  else
    let s := (s.wr Reg.BLD_RUNNING_RUN (bitPut (s.rd Reg.BLD_RUNNING_RUN) n false)).wrw (Reg.BLD_C_PERIOD n) 0
    let s := ((s.wr (Reg.BLD_C_STATE_SAT n) 0).wr (Reg.BLD_C_STATE_SPEED_LIM n) 0).wr (Reg.BLD_C_STATE_PRED_RUN n) 0
    s.updBld n fun b => { b with commAt := none, predicted := false, cap := none, times := [], skips := 0, turned := none }

/-- Source `i` of BLD sets, raised by channel `n` (R240, R376). -/
def State.bldRaise (s : State) (i n : Nat) : State := s.raiseInst Reg.BLD_STATUS i Reg.BLD_FIRST_CHANNEL_CHANNEL n

/-- A named channel loses drive (R66). -/
def State.driveLostBld (s : State) (n : Nat) : State :=
  if bitAt (s.rd Reg.PSQ_MOTION_BLD_CH) n then { s with psq := { s.psq with driveLost := some s.clock } } else s

/-- A COAST or a claim loss overrules a loss of synchronism and a handover of the same peripheral clock (R239). -/
def State.bldOverrule (s : State) (n : Nat) : State := s.updBld n fun b => { b with lost := false, joined := false }

/-- Channel `n` coasts with `LAST_FAIL` `f` and source `i` (R233, R239); a channel in RUN that moves the paper loses drive (R66). -/
def State.bldFail (s : State) (n i f : Nat) : State :=
  let s := if s.bl n = blRun then s.driveLostBld n else s
  let s := (s.blGo n blCoast).wr (Reg.BLD_C_STATE_LAST_FAIL n) f
  (s.bldOverrule n).bldRaise i n

/-- The start parameters of channel `n` as its registers stand (R240). -/
def State.bldStartPrm (s : State) (n : Nat) : BldStart :=
  { alignDuty := s.rd (Reg.BLD_C_ALIGN_DUTY n), alignMs := s.rd (Reg.BLD_C_ALIGN_MS n), rampDuty := s.rd (Reg.BLD_C_RAMP_RAMP_DUTY n),
    f0 := s.rd (Reg.BLD_C_RAMP_F0_HZ n), rate := s.rd (Reg.BLD_C_RAMP_RATE_HZ_S n), hoHz := s.rd (Reg.BLD_C_HANDOVER_HZ n),
    hoN := s.rd (Reg.BLD_C_HANDOVER_N n), quietMs := s.rd (Reg.BLD_C_DETECT_QUIET_MS n), timeoutMs := s.rd (Reg.BLD_C_DETECT_TIMEOUT_MS n) }

/-- A START reaches channel `n` (R225, R233); in the peripheral clock of a driver fault the channel stays in COAST (R239). -/
def State.bldStart (s : State) (n : Nat) : State :=
  if s.bl n ≠ blCoast ∨ (s.bldOf n).faulted then s
  else if !s.ballGranted n 0 then s.wr (Reg.BLD_C_STATE_LAST_FAIL n) 5
  else
    let p := s.bldStartPrm n
    (s.blGo n blDetect).updBld n fun b => { b with cross := none, good := 0, prm := p }

/-- A COAST reaches channel `n` (R233, R234, R239). -/
def State.bldCoast (s : State) (n : Nat) : State :=
  (if blDetect ≤ s.bl n then s.blGo n blCoast else s).bldOverrule n

/-! ## Crossings and commutation (R229 to R233) -/

/-- The delay from a crossing to the commutation (R230). -/
def State.bldDelay (s : State) (n period : Nat) : Nat := (30 - s.rd (Reg.BLD_C_BEMF_ADVANCE n)) * period / 60

/-- A crossing of channel `n` is time-stamped `t` (R230, R236). -/
def State.bldStamp (s : State) (n t : Nat) : State :=
  s.updBld n fun b => { b with cross := some t, sector := match b.cross with
                                 | some c => t - c
                                 | none => b.sector,
                               times := (t :: b.times).take 7 }

/-- `PERIOD` of channel `n`: the time of the last six crossings (R236). -/
def State.bldRevolution (s : State) (n : Nat) : State :=
  match (s.bldOf n).times with
  | [a, _, _, _, _, _, g] => s.wrw (Reg.BLD_C_PERIOD n) (fitNat 32 (a - g))
  | _ => s

/-- Channel `n` enters RUN in sector `x`, after the crossing stamped last (R233); `CNT_STARTS` counts it at the end of the peripheral clock
(R239). -/
def State.bldRun (s : State) (n x : Nat) : State :=
  let driven := decide (blAlign ≤ s.bl n)
  let per := s.rd (Reg.BLD_C_PWM_PERIOD n)
  let s := (s.blGo n blRun).wr (Reg.BLD_C_STATE_SECTOR n) x
  let at_ := s.meridian + s.bldDelay n (s.bldOf n).sector
  let now := s.meridian
  let s := s.updBld n fun b => { b with commAt := some at_, predicted := false, commLast := now, unseen := false, period := per, joined := true }
  let s := s.bldRevolution n
  if driven then s.bldLimits n else s.bldPeriodStart n

/-- A crossing of the rotor's sector `x` is seen now in DETECT (R233): the sectors tell which way the rotor turns. -/
def State.bldDetect (s : State) (n x : Nat) : State :=
  let b := s.bldOf n
  let s := (s.bldStamp n s.meridian).updBld n fun b => { b with crossSec := x }
  match b.cross with
  | some c =>
    if b.crossSec = s.nextSector n x then (s.updBld n fun b => { b with times := b.times.take 1 }).bldRaise 2 n
    else if x = s.nextSector n b.crossSec ∧ s.on (Reg.BLD_C_CTRL_CATCH_EN n) ∧ c < s.meridian
        ∧ b.prm.hoHz * (6 * (s.meridian - c)) ≤ 3000000000 then s.bldRun n x
    else s
  | none => s

/-- A crossing is seen now in RAMP (R233): it counts towards the handover once the ramp has reached `HANDOVER.HZ`, if it comes within
±25 % of the ramp's own sector period. -/
def State.bldRampCross (s : State) (n : Nat) : State :=
  let b := s.bldOf n
  let f := s.rampFreq n s.meridian
  let good : Bool := match b.cross with
    | some c =>
      let x : Int := 6 * ((s.meridian - c : Nat) : Int) * f - 9000000000000000000
      decide (4 * x.natAbs ≤ 9000000000000000000)
    | none => false
  let reached := decide (b.prm.hoHz * 3000000000 ≤ f)
  let s := s.bldStamp n s.meridian
  let s := s.updBld n fun b => { b with good := if good && reached then b.good + 1 else 0 }
  if b.prm.hoN ≤ (s.bldOf n).good then s.bldRun n (s.bldSector n) else s

/-- The sample of the present period of channel `n` is due: the midpoint of the sampling window has come (R230). -/
def State.bldSampleDue (s : State) (n : Nat) : Bool :=
  s.bl n = blRun && !(s.bldOf n).sampled && decide (30 * s.rd (Reg.BLD_C_BEMF_BLANK n) + 6 * s.bldOn n ≤ 2 * s.bldPhase n)

/-- Channel `n` has lost synchronism: `PRED_MAX` sectors ran from predictions, or valid samples show no crossing within twice the last sector
period after a commutation (R232). -/
def State.bldOut (s : State) (n : Nat) : Bool :=
  let b := s.bldOf n
  s.bl n = blRun && (decide (s.rd (Reg.BLD_C_BEMF_PRED_MAX n) ≤ s.rd (Reg.BLD_C_STATE_PRED_RUN n))
    || (b.commAt.isNone && b.unseen && decide (b.commLast + 2 * b.sector ≤ s.meridian)))

/-- Channel `n` loses synchronism: its outputs go off in this tick; `SYNC_LOST` sets at the end of the peripheral clock, if no COAST overrules it
(R232, R239). -/
def State.bldSyncLost (s : State) (n : Nat) : State :=
  if s.bldOut n then ((s.driveLostBld n).blGo n blCoast).updBld n fun b => { b with lost := true, joined := false } else s

/-- A valid sample of channel `n` shows the watched level: a crossing, and the commutation that follows it (R230, R236). -/
def State.bldSeen (s : State) (n : Nat) : State :=
  let s := s.updBld n fun b => { b with sampled := true, skips := 0 }
  if (s.bldOf n).commAt.isSome then s
  else
    let s := (s.bldStamp n s.meridian).bldRevolution n
    let at_ := s.meridian + s.bldDelay n (s.bldOf n).sector
    let s := s.updBld n fun b => { b with commAt := some at_, predicted := false }
    (s.wr (Reg.BLD_C_STATE_PRED_RUN n) 0).bldLimits n

/-- Comparator `p` of channel `n` crosses, rising or falling: in DETECT and RAMP as it is watched, in RUN as the sample of the floating phase
that is due (R225, R229, R230, R233). -/
def State.bldCrossing (s : State) (n p : Nat) (up : Bool) : State :=
  let x := crossSector p up (s.on (Reg.BLD_C_CTRL_DIR n))
  if s.bl n = blDetect then s.bldDetect n x
  else if x ≠ s.bldSector n ∨ s.bldOut n then s
  else if s.bl n = blRamp then s.bldRampCross n
  else if s.bldSampleDue n ∧ !s.bldBlind n then s.bldSeen n
  else s

/-- The drift of a predicted crossing on A0, at most 2° of a sector of 60° either way (A0-09). -/
def driftOf (period : Nat) (drift : Int) : Int :=
  let m : Int := ((2 * period / 60 : Nat) : Int)
  if drift < -m then -m else if m < drift then m else drift

/-- The predicted crossing of channel `n`: the last one and a sector period; on A0 it may drift once two consecutive samples are skipped
(R231, A0-09). -/
def State.bldPrediction (s : State) (n c : Nat) : Nat :=
  let b := s.bldOf n
  let drift := if 2 ≤ b.skips then driftOf b.sector (Config.bemfDrift s.clock n) else 0
  ((c + b.sector : Nat) + drift : Int).toNat

/-- The skipped sample of channel `n`: taken at or after the prediction it counts as a crossing at the predicted time (R231). -/
def State.bldSkip (s : State) (n : Nat) : State :=
  let s := (s.updBld n fun b => { b with sampled := true, skips := b.skips + 1 }).inc (Reg.BLD_C_CNT_SKIP_COUNT n)
  match (s.bldOf n).commAt, (s.bldOf n).cross with
  | none, some c =>
    let t := s.bldPrediction n c
    if t ≤ s.meridian then
      let at_ := t + s.bldDelay n (s.bldOf n).sector
      let s := s.updBld n fun b => { b with cross := some t, times := (t :: b.times).take 7, commAt := some at_, predicted := true }
      (s.bldRevolution n).bldLimits n
    else s
  | _, _ => s

/-- The sample of the present period of channel `n` has come and no crossing with it (R230, R231). -/
def State.bldSample (s : State) (n : Nat) : State :=
  if !s.bldSampleDue n then s
  else if s.bldBlind n then s.bldSkip n
  else
    let waits := (s.bldOf n).commAt.isNone
    s.updBld n fun b => { b with sampled := true, skips := 0, unseen := b.unseen || waits }

/-- The present PWM period of channel `n` ends and the next begins (R226). -/
def State.bldPwm (s : State) (n : Nat) : State :=
  if blAlign ≤ s.bl n ∧ 6 * s.bldPeriod n ≤ s.bldPhase n then s.bldPeriodStart n else s

/-- Channel `n` commutates to the next sector now (R229). -/
def State.bldStep (s : State) (n : Nat) : State :=
  let now := s.meridian
  let clk := s.clock
  let s := s.wr (Reg.BLD_C_STATE_SECTOR n) (s.nextSector n (s.bldSector n))
  (s.updBld n fun b => { b with commAt := none, predicted := false, commLast := now, unseen := false, turned := some clk }).bldLimits n

/-- A commutation of channel `n` falls due: after a crossing or a prediction, or blind in RAMP (R230, R231, R233). -/
def State.bldCommutate (s : State) (n : Nat) : State :=
  let b := s.bldOf n
  if s.bl n = blRamp then
    if 9000000000000000000 ≤ 6 * (s.meridian - b.commLast) * s.rampFreq n b.commLast then s.bldStep n else s
  else if s.bl n = blRun ∧ !s.bldOut n ∧ b.commAt.any fun t => decide (t ≤ s.meridian) then
    (if b.predicted then (s.inc (Reg.BLD_C_CNT_PRED_COUNT n)).incSat (Reg.BLD_C_STATE_PRED_RUN n) else s).bldStep n
  else s

/-- The tick of the last crossing in DETECT, or its start (R233). -/
def State.bldQuietSince (s : State) (n : Nat) : Nat :=
  match (s.bldOf n).cross with
  | some c => max c (s.bldOf n).since
  | none => (s.bldOf n).since

/-- The tick at which DETECT has been quiet for `QUIET_MS` (R233). -/
def State.bldQuietAt (s : State) (n : Nat) : Nat := s.bldQuietSince n + (s.bldOf n).prm.quietMs * 3000000

/-- No crossing for `QUIET_MS` in DETECT (R233). -/
def State.bldQuiet (s : State) (n : Nat) : State :=
  if s.bl n = blDetect ∧ s.bldQuietAt n ≤ s.meridian then ((s.blGo n blAlign).wr (Reg.BLD_C_STATE_SECTOR n) 0).bldPeriodStart n else s

/-- Crossings are still seen at `TIMEOUT_MS` (R233). -/
def State.bldTimeout (s : State) (n : Nat) : State :=
  if s.bl n = blDetect ∧ (s.bldOf n).since + (s.bldOf n).prm.timeoutMs * 3000000 ≤ s.meridian ∧ s.meridian < s.bldQuietAt n
    then s.bldFail n 0 1
  else s

/-- `ALIGN.MS` elapses (R233). -/
def State.bldAligned (s : State) (n : Nat) : State :=
  if s.bl n = blAlign ∧ (s.bldOf n).since + (s.bldOf n).prm.alignMs * 3000000 ≤ s.meridian then
    let now := s.meridian
    ((s.blGo n blRamp).updBld n fun b => { b with commLast := now, cross := none, good := 0 }).bldLimits n
  else s

/-- The ramp reaches 2 × `HANDOVER.HZ` without a handover (R233). -/
def State.bldRampFail (s : State) (n : Nat) : State :=
  if s.bl n = blRamp ∧ 2 * (s.bldOf n).prm.hoHz * 3000000000 ≤ s.rampFreq n s.meridian then s.bldFail n 0 2 else s

/-- BLnn_FLT_N has been low for more than 1 µs: COAST with `DRV_FAULT`, whatever else happens in the peripheral clock (R233, R239). -/
def State.bldFault (s : State) (n : Nat) : State :=
  if s.bl n = blOff ∨ 24 ≤ n ∨ !s.ballGranted n 0 then s else (s.bldFail n 3 4).updBld n fun b => { b with faulted := true }

/-- BLnn_FLT_N has been low for more than 1 µs, or is high again (R225, R233). -/
def State.bldFltInput (s : State) (n : Nat) (low : Bool) : State :=
  let s := s.updBld n fun b => { b with flt := low }
  if low then s.bldFault n else s

/-- Channel `n` loses its claim (R225, R233). -/
def State.bldClaimLost (s : State) (n : Nat) : State := if s.bl n = blOff then s else s.bldFail n 4 5

/-- Every channel not in OFF coasts on entry to EVENING (R235). -/
def State.bldEvening (s : State) : State :=
  forUpTo 24 s fun s n => if s.bl n = blOff then s else (s.blGo n blCoast).bldOverrule n

/-- Channel `n` meets the times that have come; while its fault input stays low it leaves no COAST (R230 to R233). -/
def State.bldDue (s : State) (n : Nat) : State :=
  if s.bl n < blDetect then s
  else if (s.bldOf n).flt ∧ s.ballGranted n 0 then s.bldFault n
  else
    let s := (((s.bldQuiet n).bldTimeout n).bldAligned n).bldRampFail n
    (((s.bldPwm n).bldSample n).bldCommutate n).bldSyncLost n

/-- The peripheral clock ends: what it left of a loss of synchronism or a handover takes effect on the registers (R232, R233, R239). -/
def State.bldEnd (s : State) (n : Nat) : State :=
  let b := s.bldOf n
  let s := if b.lost ∨ b.joined ∨ b.faulted then s.updBld n fun b => { b with lost := false, joined := false, faulted := false } else s
  if b.lost then (s.wr (Reg.BLD_C_STATE_LAST_FAIL n) 3).bldRaise 1 n
  else if b.joined then s.inc (Reg.BLD_C_CNT_STARTS_COUNT n)
  else s

/-! ## Register writes (R226, R230 to R240) -/

/-- A write of `v` to `BLD_CTRL` (R233). -/
def State.bldEnable (s : State) (v : Nat) : State :=
  let s := s.plainWrite Reg.BLD_CTRL v
  forUpTo 24 s fun s n =>
    if bitAt v 0 then
      if s.bl n = blOff then
        let s := s.blGo n blCoast
        if (s.bldOf n).flt then s.bldFault n else s
      else s
    else (s.blGo n blOff).bldOverrule n

/-- A write of `v` to `BLD_Cn_CTRL` (R233, R238, R239): where both are written, COAST comes after START. -/
def State.bldCtrl (s : State) (n v : Nat) : State :=
  let dir := s.rd (Reg.BLD_C_CTRL_DIR n)
  let s := s.plainWrite (Reg.BLD_C_CTRL n) v
  let s := if s.bl n = blOff ∨ s.bl n = blCoast then s else s.wr (Reg.BLD_C_CTRL_DIR n) dir
  let s := if bitAt v 0 then s.bldStart n else s
  let s := if bitAt v 1 then s.bldCoast n else s
  s.bldLimits n

/-- A write of `v` at offset `o` of channel `n`'s registers (R226, R232, R236, R237, R240). -/
def State.bldChannelWrite (s : State) (n o v : Nat) : State :=
  match o with
  | 0x00 => s.bldCtrl n v
  | 0x08 =>
    let s := s.plainWrite (Reg.BLD_C_PWM n) v
    (s.wr (Reg.BLD_C_PWM_PERIOD n) (clamp 5000 50000 (bitsOf v 0 16))).bldLimits n
  | 0x0C =>
    let old := s.rd (Reg.BLD_C_DUTY_DUTY n)
    let s := s.plainWrite (Reg.BLD_C_DUTY n) v
    (if s.on (Reg.BLD_C_CTRL_DUTY_SRC n) then s.wr (Reg.BLD_C_DUTY_DUTY n) old else s).bldLimits n
  | 0x10 =>
    let s := s.plainWrite (Reg.BLD_C_BEMF n) v
    let s := if s.rd (Reg.BLD_C_BEMF_PRED_MAX n) = 0 then s.wr (Reg.BLD_C_BEMF_PRED_MAX n) 1 else s
    s.wr (Reg.BLD_C_BEMF_ADVANCE n) (min 30 (s.rd (Reg.BLD_C_BEMF_ADVANCE n)))
  | 0x20 =>
    let s := s.plainWrite (Reg.BLD_C_HANDOVER n) v
    if s.rd (Reg.BLD_C_HANDOVER_N n) = 0 then s.wr (Reg.BLD_C_HANDOVER_N n) 1 else s
  | 0x24 => (s.wr (Reg.BLD_C_LIMIT_FMAX_HZ n) (min 6000 (bitsOf v 0 16))).bldLimits n
  | _ => s.plainWrite (0x160100 + 0x40 * n + o) v

end Sys2Proof.Machine
end

