-- ==== Sys2Proof/Machine/Stp.lean ====
section
/-! DEFINITION. The stepper channels (R241 to R256). -/

namespace Sys2Proof.Machine

/-- Channel states (R256). -/
def stpOff : Nat := 0
@[inherit_doc stpOff] def stpIdle : Nat := 1
@[inherit_doc stpOff] def stpMoving : Nat := 2
@[inherit_doc stpOff] def stpFree : Nat := 3

/-- Channel `n` beside its registers. -/
def State.stpOf (s : State) (n : Nat) : StpX :=
  match s.stp[n]? with
  | some x => x
  | none => {}

/-- `s` with channel `n` changed by `f`. -/
def State.updStp (s : State) (n : Nat) (f : StpX → StpX) : State :=
  { s with stp := s.stp.setIfInBounds n (f (s.stpOf n)) }

/-- The state of channel `n`. -/
def State.sp (s : State) (n : Nat) : Nat := s.rd (Reg.STP_C_STATE_STATE n)

/-- The position of channel `n` (R247). -/
def State.xact (s : State) (n : Nat) : Nat := s.rdw (Reg.STP_C_XACT n)

/-- Source `i` of STP sets, raised by channel `n` (R256, R376). -/
def State.stpRaise (s : State) (i n : Nat) : State := s.raiseInst Reg.STP_STATUS i Reg.STP_FIRST_CHANNEL_CHANNEL n

/-- The MOVING bit of channel `n` (R256). -/
def State.stpMovingBit (s : State) (n : Nat) (b : Bool) : State :=
  if n < 32 then s.wr Reg.STP_MOVING_LO_MOVING (bitPut (s.rd Reg.STP_MOVING_LO_MOVING) n b)
  else s.wr Reg.STP_MOVING_HI_MOVING (bitPut (s.rd Reg.STP_MOVING_HI_MOVING) (n - 32) b)

/-- Channel `n` ends its stepping in state `x` (R253). -/
def State.stpEnd (s : State) (n x : Nat) : State :=
  let s := ((s.wr (Reg.STP_C_STATE_STATE n) x).wr (Reg.STP_C_STATE_PHASE n) 0).wrw (Reg.STP_C_VACT n) 0
  (s.stpMovingBit n false).updStp n fun c => { c with move := none }

/-- The position of channel `n` is lost (R253). -/
def State.stpLost (s : State) (n : Nat) : State := (s.wr (Reg.STP_C_STATE_POS_LOST n) 1).stpRaise 2 n

/-- Channel `n` comes to hold or drive its windings from now on: their chopper cycles begin with the drive (R245). -/
def State.stpRise (s : State) (n : Nat) : State :=
  let now := s.clock
  s.updStp n fun c => { c with drive := Vector.replicate 2 true, turnedAt := Vector.replicate 2 now }

/-- The outputs of channel `n` go low, in state `x` (R253). -/
def State.stpDrop (s : State) (n x : Nat) : State :=
  let was := s.sp n
  let s := s.stpEnd n x
  if was = stpIdle ∨ was = stpMoving then s.stpLost n else s

/-- A named channel loses drive (R66). -/
def State.driveLostStp (s : State) (n : Nat) : State :=
  if bitAt (s.rd64 Reg.PSQ_MOTION_STP_LO Reg.PSQ_MOTION_STP_HI) n then { s with psq := { s.psq with driveLost := some s.clock } } else s

/-- The commands that channel `n` accepted in this peripheral clock are refused after all: a driver fault or a claim loss comes with them
(R255). -/
def State.stpRevoke (s : State) (n : Nat) : State :=
  match (s.stpOf n).before with
  | some b =>
    let k := (s.stpOf n).taken
    let s := s.updStp n fun c => { c with taken := 0, before := none }
    let s := (s.wr (Reg.STP_C_STATE_STATE n) b.state).wrw (Reg.STP_C_TARGET n) b.target
    (s.wrw (Reg.STP_C_CNT_MOVES n) b.moves).addTo (Reg.STP_C_CNT_REFUSED_COUNT n) k
  | none => s

/-- Channel `n` is freed by a cause that no command gave, with source `i` and `LAST_FAIL` `f` (R66, R253, R255). -/
def State.stpForced (s : State) (n i f : Nat) : State :=
  if s.sp n = stpOff then s
  else
    let s := s.stpRevoke n
    let s := if s.sp n = stpIdle ∨ s.sp n = stpMoving then s.driveLostStp n else s
    let s := ((s.stpDrop n stpFree).wr (Reg.STP_C_STATE_LAST_FAIL n) f).stpRaise i n
    s.updStp n fun c => { c with faulted := true }

/-- STnn_FLT_N has been low for more than 1 µs (R253). -/
def State.stpFault (s : State) (n : Nat) : State := if n < 48 ∧ s.ballGranted (24 + n) 0 then s.stpForced n 3 3 else s

/-- STnn_FLT_N has been low for more than 1 µs, or is high again (R241, R253). -/
def State.stpFltInput (s : State) (n : Nat) (low : Bool) : State :=
  let s := s.updStp n fun c => { c with flt := low }
  if low then s.stpFault n else s

/-- Channel `n` loses its claim (R253). -/
def State.stpClaimLost (s : State) (n : Nat) : State := s.stpForced n 4 4

/-- Every channel is freed on entry to EVENING (R253). -/
def State.stpEvening (s : State) : State := forUpTo 48 s fun s n => if s.sp n = stpOff then s else s.stpDrop n stpFree

/-! ## Moves (R249 to R252) -/

/-- The move parameters of channel `n` as its registers stand (R249). -/
def State.stpParams (s : State) (n : Nat) : StpParams :=
  { vstart := s.rd (Reg.STP_C_VSTART_SPEED n), v1 := s.rd (Reg.STP_C_V1_SPEED n), vmax := s.rd (Reg.STP_C_VMAX_SPEED n),
    vstop := s.rd (Reg.STP_C_VSTOP_SPEED n), acc1 := s.rd (Reg.STP_C_ACC1_ACC n), acc2 := s.rd (Reg.STP_C_ACC2_ACC n) }

/-- The parameters are those of a move that is accepted (R249). -/
def StpParams.ok (p : StpParams) : Bool :=
  decide (p.vstart ≤ p.v1 ∧ p.v1 ≤ p.vmax ∧ p.vstop ≤ p.v1 ∧ 1 ≤ p.vstart ∧ 1 ≤ p.vstop ∧ 1 ≤ p.acc1 ∧ 1 ≤ p.acc2)

/-- A command of channel `n` is refused with `LAST_FAIL` `f` (R241, R249, R252). -/
def State.stpRefuse (s : State) (n f : Nat) : State :=
  (s.wr (Reg.STP_C_STATE_LAST_FAIL n) f).inc (Reg.STP_C_CNT_REFUSED_COUNT n)

/-- Channel `n` accepts a command in this peripheral clock (R255). -/
def State.stpTakes (s : State) (n : Nat) : State :=
  let b : StpBefore := { state := s.sp n, target := s.rdw (Reg.STP_C_TARGET n), moves := s.rdw (Reg.STP_C_CNT_MOVES n) }
  s.updStp n fun c => { c with taken := c.taken + 1, before := some (c.before.getD b) }

/-- The target of channel `n` is reached (R250). -/
def State.stpComplete (s : State) (n : Nat) : State :=
  match (s.stpOf n).move with
  | some m =>
    if s.sp n = stpMoving ∧ s.xact n = m.target then (s.stpEnd n stpIdle).inc (Reg.STP_C_CNT_MOVES_COUNT n) else s
  | none => s

/-- The way still to go, in 1/256 full step (R250). -/
def State.stpRest (s : State) (n : Nat) (m : StpMove) : Nat := (signedOf (m.target + 2 ^ 32 - s.xact n) 32).natAbs

/-- The largest log2 n, at most `top`, with v × n within `limit` full steps/s (R248). -/
def fitRes (speed limit : Nat) : Nat → Nat
  | 0 => 0
  | r + 1 => if speed * 2 ^ (r + 1) ≤ limit * 16000000 then r + 1 else fitRes speed limit r

/-- The resolution that a step chooses at speed `v`, from the present one (R248). -/
def chooseRes (v res : Nat) : Nat :=
  let down := fitRes v 200000 res
  if down < res then down
  else if res < 8 ∧ v * 2 ^ (res + 1) ≤ 175000 * 16000000 then res + 1
  else res

/-- The resolution that the next step of a move wants, `rest` before its target, at resolution `res` (R248): a step into the last full step
is taken at the resolution that VSTOP gives. -/
def wantRes (m : StpMove) (rest res : Nat) : Nat :=
  let last := fitRes (m.prm.vstop * 1000000) 200000 8
  let v := chooseRes m.speed (if m.want = res then res else m.want)
  if rest ≤ 256 then last else if rest < 256 + 2 ^ (8 - v) then max v last else v

/-- The resolution in force at position `x`: a change waits for a position that is a multiple of its step (R248). -/
def resAt (x want res : Nat) : Nat := if x % 2 ^ (8 - want) = 0 then want else res

/-- The next step of channel `n` takes its resolution (R248). -/
def State.stpChoose (s : State) (n : Nat) : State :=
  match (s.stpOf n).move with
  | none => s
  | some m =>
    let now := s.rd (Reg.STP_C_STATE_RES n)
    let want := wantRes m (s.stpRest n m) now
    (s.wr (Reg.STP_C_STATE_RES n) (resAt (s.xact n) want now)).updStp n fun c => { c with move := some { m with want := want } }

/-- Channel `n` starts its move to `target` (R250): the speed steps to VSTART, and the profile is computed anew every 1 µs. -/
def State.stpLaunch (s : State) (n target : Nat) : State :=
  let p := s.stpParams n
  let m : StpMove := { prm := p, target := target, back := decide (signedOf (target + 2 ^ 32 - s.xact n) 32 < 0),
                       speed := p.vstart * 1000000, way := 0, want := s.rd (Reg.STP_C_STATE_RES n) }
  let next := s.clock + 3000
  let s := (s.wr (Reg.STP_C_STATE_STATE n) stpMoving).wr (Reg.STP_C_STATE_PHASE n) 1
  let s := (s.wr (Reg.STP_C_VACT_SPEED n) p.vstart).stpMovingBit n true
  (s.updStp n fun c => { c with move := some m, nextAt := next }).stpChoose n

/-- A move of channel `n` to `target` is asked for (R241, R249 to R252, R255). A channel that is OFF takes no move (log 18). -/
def State.stpGoto (s : State) (n target : Nat) : State :=
  if s.sp n = stpOff then s
  else
    let s := s.stpComplete n
    if (s.stpOf n).faulted then s.inc (Reg.STP_C_CNT_REFUSED_COUNT n)
    else if !s.ballGranted (24 + n) 0 then s.stpRefuse n 4
    else if s.sp n = stpMoving then (s.stpRefuse n 2).stpRaise 1 n
    else if !(s.stpParams n).ok then (s.stpRefuse n 1).stpRaise 0 n
    else
      let s := s.stpTakes n
      let s := if s.sp n = stpFree then s.stpRise n else s
      let s := s.wrw (Reg.STP_C_TARGET n) target
      if target = s.xact n then (s.wr (Reg.STP_C_STATE_STATE n) stpIdle).inc (Reg.STP_C_CNT_MOVES_COUNT n)
      else s.stpLaunch n target

/-- A MOVE by the signed `d` from the position (R251). -/
def State.stpMove (s : State) (n d : Nat) : State := s.stpGoto n ((s.xact n + d) % 2 ^ 32)

/-- A GOTO_PRESET (R251). -/
def State.stpPreset (s : State) (n p : Nat) : State := s.stpGoto n (s.rdw (Reg.STP_C_PRESET n (p % 4)))

/-- A STOP (R253, R255): a channel that is not OFF holds its position in IDLE. -/
def State.stpStop (s : State) (n : Nat) : State :=
  if s.sp n = stpOff then s
  else
    let s := s.stpComplete n
    if (s.stpOf n).faulted then s.inc (Reg.STP_C_CNT_REFUSED_COUNT n)
    else
      let s := s.stpTakes n
      if s.sp n = stpMoving then ((s.stpEnd n stpIdle).wr (Reg.STP_C_STATE_LAST_FAIL n) 5).stpLost n
      else if s.sp n = stpFree then (s.wr (Reg.STP_C_STATE_STATE n) stpIdle).stpRise n
      else s

/-- The remaining way no longer exceeds the braking distance (R250): with v in 1/16 full step/s, braking from v takes
(v² − V1²) ÷ (512 × ACC2) + (V1² − VSTOP²) ÷ (512 × ACC1) full steps above V1 and (v² − VSTOP²) ÷ (512 × ACC1) below. -/
def brakes (m : StpMove) (rest : Nat) : Bool :=
  let p := m.prm
  let e := 1000000000000
  let v2 := m.speed * m.speed
  let left : Int := ((rest * e * 250 : Nat) - m.way : Int)
  if p.v1 * 1000000 < m.speed then
    decide (2 * p.acc1 * p.acc2 * left
      ≤ (250 * ((v2 - p.v1 * p.v1 * e) * p.acc1 + (p.v1 * p.v1 - p.vstop * p.vstop) * e * p.acc2) : Nat))
  else decide (2 * p.acc1 * left ≤ ((250 * (v2 - p.vstop * p.vstop * e) : Nat) : Int))

/-- The speed after one more microsecond in phase `ph`, and the phase it leaves (R250). -/
def nextSpeed (m : StpMove) (ph : Nat) : Nat × Nat :=
  let p := m.prm
  let e := 1000000
  if ph = 3 then
    if p.v1 * e < m.speed then (max (p.v1 * e) (m.speed - 16 * p.acc2), 3)
    else (max (min m.speed (p.vstop * e)) (m.speed - 16 * p.acc1), 3)
  else if m.speed < p.v1 * e then (min (p.v1 * e) (m.speed + 16 * p.acc1), 1)
  else
    let v := min (p.vmax * e) (m.speed + 16 * p.acc2)
    (v, if v = p.vmax * e then 2 else 1)

/-- A peripheral clock of channel `n`'s move: its way grows with the speed, and a step that it completes is made (R247, R248, R250). -/
def State.stpAdvance (s : State) (n : Nat) : State :=
  match (s.stpOf n).move with
  | none => s
  | some m =>
    let rest := s.stpRest n m
    if s.sp n ≠ stpMoving ∨ rest = 0 then s
    else
      let way := m.way + 16 * m.speed
      let d := min (2 ^ (8 - s.rd (Reg.STP_C_STATE_RES n))) rest
      let unit := 250000000000000
      if d * unit ≤ way then
        let x := if m.back then (s.xact n + 2 ^ 32 - d) % 2 ^ 32 else (s.xact n + d) % 2 ^ 32
        ((s.wrw (Reg.STP_C_XACT n) x).updStp n fun c => { c with move := some { m with way := way - d * unit } }).stpChoose n
      else s.updStp n fun c => { c with move := some { m with way := way } }

/-! ## The windings in voltage mode (R241 to R244) -/

/-- π × 2^60, rounded. -/
def piFix : Nat := 3622009729038561421

/-- |sin| of the angle `i` of 1,024, in 1/2^48 (R242). -/
def sinFix (i : Nat) : Nat :=
  let i := i % 512
  let i := if 256 < i then 512 - i else i
  let x : Int := (2 * piFix * i / 1024 / 2 ^ 12 : Nat)
  let sq (t : Int) : Int := t * x / 2 ^ 48 * x / 2 ^ 48
  let t1 := x
  let t3 := sq t1 / 6
  let t5 := sq t3 / 20
  let t7 := sq t5 / 42
  let t9 := sq t7 / 72
  let t11 := sq t9 / 110
  let t13 := sq t11 / 156
  let t15 := sq t13 / 210
  let t17 := sq t15 / 272
  (t1 - t3 + t5 - t7 + t9 - t11 + t13 - t15 + t17).toNat

/-- The electrical angle of winding `w` (0 A, 1 B) of channel `n`, in 1/1,024: that of sin, and for B a quarter more; `DIR_INV` turns the
rotation round (R242, R247; log 78). -/
def State.stpAngle (s : State) (n w : Nat) : Nat :=
  let x := s.xact n % 1024
  let x := if s.on (Reg.STP_C_CTRL_DIR_INV n) then 1024 - x else x
  (x + 128 + 256 * w) % 1024

/-- The winding is driven towards a positive value, which raises its output 1 (R242). -/
def anglePositive (i : Nat) : Bool := decide (i % 1024 < 512)

/-- The denominator of the amplitude (R243). -/
def ampDen : Nat := 256 * 65536 * 16

/-- The amplitude A of channel `n` in voltage mode, over `ampDen` (R243). -/
def State.stpAmp (s : State) (n : Nat) : Nat :=
  let ph := s.rd (Reg.STP_C_STATE_PHASE n)
  let kval := if ph = 0 then s.rd (Reg.STP_C_KVAL_HOLD n) else if ph = 2 then s.rd (Reg.STP_C_KVAL_RUN n)
    else s.rd (Reg.STP_C_KVAL_ACC n)
  min ampDen (kval * 65536 * 16 + s.rd (Reg.STP_C_KFF_KFF n) * s.rd (Reg.STP_C_VACT_SPEED n))

/-- The on-time of winding `w` in a PWM period, in 2 ns over `ampDen` × 2^48 (R243). -/
def State.stpOn (s : State) (n w : Nat) : Nat := s.stpAmp n * sinFix (s.stpAngle n w) * s.rd (Reg.STP_C_PWM_PERIOD n)

/-- The on-time of winding `w` is skipped in voltage mode (R244). -/
def State.stpShort (s : State) (n w : Nat) : Bool :=
  decide (s.stpOn n w < (s.rd (Reg.STP_C_PWM_DT n) + s.rd (Reg.STP_C_PWM_MIN_ON n)) * 5 * ampDen * 2 ^ 48)

/-- Channel `n` holds or drives its motor: IDLE or MOVING, with its balls granted, unless the outputs are held off (R241, R253, R298, R300,
R401). -/
def State.stpDrives (s : State) (n : Nat) : Bool :=
  (s.sp n = stpIdle || s.sp n = stpMoving) && s.ballLive (24 + n) 0 && !s.outputsHeld

/-- Channel `n` regulates current (R245). -/
def State.stpChops (s : State) (n : Nat) : Bool := s.stpDrives n && s.on (Reg.STP_C_CTRL_CHOP_EN n)

/-- Output `o` of winding `w` of channel `n`, 0 for STnn_A1 or B1 and 1 for STnn_A2 or B2 (R241 to R245, R253): high turns on the upper
switch, low the lower one. -/
def State.stpOutput (s : State) (n w o : Nat) : Bool :=
  let x := s.stpOf n
  s.stpDrives n && (anglePositive (s.stpAngle n w) == decide (o = 0))
    && (if s.on (Reg.STP_C_CTRL_CHOP_EN n) then x.drive.toList.getD w false
        else !x.short.toList.getD w false && decide ((s.clock - x.pwmAt) * ampDen * 2 ^ 48 < 6 * s.stpOn n w))

/-- A PWM period of channel `n` ends and the next begins: its on-times are driven, or skipped and counted (R243, R244). -/
def State.stpPulses (s : State) (n : Nat) : State :=
  if !s.stpDrives n ∨ s.on (Reg.STP_C_CTRL_CHOP_EN n) ∨ s.clock < (s.stpOf n).pwmAt + 6 * s.rd (Reg.STP_C_PWM_PERIOD n) then s
  else
    let now := s.clock
    let a := s.stpShort n 0
    let b := s.stpShort n 1
    let k := boolNat a + boolNat b
    let s := s.updStp n fun c => { c with pwmAt := now, short := ⟨#[a, b], rfl⟩ }
    if k = 0 then s else (s.addTo (Reg.STP_C_CNT_SHORT_COUNT n) k).count 33 n k

/-- The profile update of channel `n`, once in a microsecond (R250): the phase and the speed. -/
def State.stpProfile (s : State) (n : Nat) : State :=
  match (s.stpOf n).move with
  | some m =>
    if s.sp n ≠ stpMoving ∨ s.xact n = m.target ∨ s.clock < (s.stpOf n).nextAt then s
    else
      let ph := if s.rd (Reg.STP_C_STATE_PHASE n) = 3 ∨ brakes m (s.stpRest n m) then 3 else 1
      let (v, ph) := nextSpeed m ph
      let s := (s.wr (Reg.STP_C_STATE_PHASE n) ph).wr (Reg.STP_C_VACT_SPEED n) (v / 1000000)
      s.updStp n fun c => { c with move := some { m with speed := v }, nextAt := c.nextAt + 3000 }
  | none => s

/-! ## The current chopper (R245, R246) -/

/-- The offset field of winding `w` (0 A, 1 B). -/
def ofsFld (n w : Nat) : Fld := if w = 0 then Reg.STP_C_OFS_OFS_A n else Reg.STP_C_OFS_OFS_B n

/-- `SAT_A` and `SAT_B` follow the offsets (R246). -/
def State.ofsSat (s : State) (n : Nat) : State :=
  let lim (v : Nat) : Nat := boolNat (v = 31 || v = 32)
  (s.wr (Reg.STP_C_OFS_SAT_A n) (lim (s.rd (Reg.STP_C_OFS_OFS_A n)))).wr (Reg.STP_C_OFS_SAT_B n)
    (lim (s.rd (Reg.STP_C_OFS_OFS_B n)))

/-- After 16 cycles the offset of winding `w` moves one step towards the side of the majority (R246). Below −30 °C A0 moves it towards a
limit, which one is open (A0-04, log 7). -/
def State.stpAdapt (s : State) (n w : Nat) : State :=
  let c := s.stpOf n
  let k := c.cycles.toList.getD w 0
  if k < 16 ∨ !s.on (Reg.STP_C_CTRL_ADAPT_EN n) ∨ !s.on (Reg.STP_C_CTRL_CHOP_EN n) then s
  else
    let a := c.above.toList.getD w 0
    let o := signedOf (s.rd (ofsFld n w)) 6
    let up := if s.tmax < -(30 * 64) then Config.coldOffsetUp n w else decide (k < 2 * a)
    let down := if s.tmax < -(30 * 64) then !Config.coldOffsetUp n w else decide (2 * a < k)
    let o : Int := if up then min 31 (o + 1) else if down then max (-32) (o - 1) else o
    let s := s.updStp n fun c => { c with cycles := c.cycles.setIfInBounds w 0, above := c.above.setIfInBounds w 0 }
    (s.wr (ofsFld n w) (toBits o 6)).ofsSat n

/-- The chopper's target |T| of winding `w`, in 1/256 of full scale over 2^48 (R245). -/
def State.stpTarget (s : State) (n w : Nat) : Nat :=
  (if s.sp n = stpMoving then s.rd (Reg.STP_C_CHOP_IRUN n) else s.rd (Reg.STP_C_CHOP_IHOLD n)) * sinFix (s.stpAngle n w)

/-- The sensed current `i` of winding `w`, in 2^-16 of full scale, has passed the threshold of its present half of the cycle, and the time
for which the comparator is ignored, or for which it decays at least, is over (R245). -/
def State.stpCrosses (s : State) (n w i : Nat) : Bool :=
  let c := s.stpOf n
  let h : Int := ((s.rd (Reg.STP_C_CHOP_HYST n) : Nat) : Int)
  let t : Int := ((s.stpTarget n w : Nat) : Int) * 2 + 2 * signedOf (s.rd (ofsFld n w)) 6 * 2 ^ 48
  let i : Int := (i : Int) * 2 ^ 41
  let for_ := s.clock - c.turnedAt.toList.getD w 0
  if c.drive.toList.getD w true then decide (t + h * 2 ^ 48 ≤ i) && decide (30 * s.rd (Reg.STP_C_PWM_MIN_ON n) ≤ for_)
  else decide (i ≤ t - h * 2 ^ 48) && decide (30 * s.rd (Reg.STP_C_CHOP_TOFF_MIN n) ≤ for_)

/-- The sensed current of winding `w` is `i`: past its threshold the winding switches between drive and decay; a cycle ends when drive
begins again, with the midpoint sample `above` the target or not (R245, R246). -/
def State.stpChop (s : State) (n w i : Nat) (above : Bool) : State :=
  if !s.stpChops n ∨ !s.stpCrosses n w i then s
  else
    let now := s.clock
    let driven := (s.stpOf n).drive.toList.getD w true
    let s := s.updStp n fun c => { c with drive := c.drive.setIfInBounds w (!driven), turnedAt := c.turnedAt.setIfInBounds w now }
    if driven ∨ !s.on (Reg.STP_C_CTRL_ADAPT_EN n) then s
    else
      let s := s.stpAdapt n w
      let k := (s.stpOf n).cycles.toList.getD w 0
      let a := (s.stpOf n).above.toList.getD w 0
      s.updStp n fun c => { c with cycles := c.cycles.setIfInBounds w (k + 1),
                                   above := c.above.setIfInBounds w (if above then a + 1 else a) }

/-- Channel `n` meets the times that have come; while its fault input stays low it is freed (R243, R246, R250, R253). -/
def State.stpDue (s : State) (n : Nat) : State :=
  if s.sp n = stpOff ∨ s.sp n = stpFree then s
  else if (s.stpOf n).flt ∧ s.ballGranted (24 + n) 0 then s.stpFault n
  else ((((s.stpComplete n).stpProfile n).stpPulses n).stpAdapt n 0).stpAdapt n 1

/-- The peripheral clock ends (R250, R255): the way of the move grows, and the next clock's commands meet no fault of this one. -/
def State.stpClock (s : State) (n : Nat) : State :=
  let c := s.stpOf n
  let s := if c.faulted ∨ c.before.isSome then s.updStp n fun c => { c with taken := 0, before := none, faulted := false } else s
  s.stpAdvance n

/-! ## Register writes (R247, R249, R251, R253, R256) -/

/-- A write of `v` to `STP_CTRL` (R253). -/
def State.stpEnable (s : State) (v : Nat) : State :=
  let s := s.plainWrite Reg.STP_CTRL v
  forUpTo 48 s fun s n =>
    if bitAt v 0 then
      if s.sp n = stpOff then
        let s := (s.wr (Reg.STP_C_STATE_STATE n) stpIdle).stpRise n
        if (s.stpOf n).flt then s.stpFault n else s
      else s
    else if s.sp n = stpOff then s
    else s.stpDrop n stpOff

/-- A write of `v` to `STP_Cn_XACT`, after a move that completes in the same clock (R247, R253, R255). -/
def State.xactWrite (s : State) (n v : Nat) : State :=
  let s := s.stpComplete n
  if s.sp n = stpMoving then s.stpRaise 1 n
  else (s.wrw (Reg.STP_C_XACT n) v).wr (Reg.STP_C_STATE_POS_LOST n) 0

/-- A write of `v` to `STP_Cn_CTRL` (R247, R251, R253, R256). -/
def State.stpCtrl (s : State) (n v : Nat) : State :=
  let old := s.rdw (Reg.STP_C_CTRL n)
  let s := s.plainWrite (Reg.STP_C_CTRL n) v
  let s := if s.sp n = stpOff ∨ s.sp n = stpIdle then s else s.wr (Reg.STP_C_CTRL_DIR_INV n) (bitsOf old 2 1)
  let s := if n < 40 then s.wrw (Reg.STP_C_CTRL n) (bitsSet (s.rdw (Reg.STP_C_CTRL n)) 3 2 0) else s
  let s := if bitAt v 5 then s.wr (Reg.STP_C_STATE_POS_LOST n) 0 else s
  let s := if bitAt v 0 then s.stpGoto n (s.stpOf n).written else s
  if bitAt v 1 then s.stpStop n else s

/-- A write of `v` at offset `o` of channel `n`'s registers (R249, R251, R256). -/
def State.stpChannelWrite (s : State) (n o v : Nat) : State :=
  match o with
  | 0x00 => s.stpCtrl n v
  | 0x08 => s.wr (Reg.STP_C_VSTART_SPEED n) (min 3200000 (bitsOf v 0 22))
  | 0x0C => s.wr (Reg.STP_C_V1_SPEED n) (min 3200000 (bitsOf v 0 22))
  | 0x10 => s.wr (Reg.STP_C_VMAX_SPEED n) (min 3200000 (bitsOf v 0 22))
  | 0x14 => s.wr (Reg.STP_C_VSTOP_SPEED n) (min 3200000 (bitsOf v 0 22))
  | 0x20 => s.updStp n fun c => { c with written := v % 2 ^ 32 }
  | 0x24 => s.xactWrite n v
  | 0x34 =>
    let s := s.plainWrite (Reg.STP_C_PWM n) v
    s.wr (Reg.STP_C_PWM_PERIOD n) (clamp 5000 50000 (bitsOf v 0 16))
  | 0x38 => if n < 40 then s else s.plainWrite (Reg.STP_C_CHOP n) v
  | 0x3C => if n < 40 then s else (s.plainWrite (Reg.STP_C_OFS n) v).ofsSat n
  | _ => s.plainWrite (0x170100 + 0x80 * n + o) v

end Sys2Proof.Machine
end

