-- ==== Sys2Proof/Machine/Pra.lean ====
section
/-! DEFINITION. The Prairie loop engine, its sensors and the ADC front end (R210, R257 to R277). -/

namespace Sys2Proof.Machine

/-- Slot states (R264). -/
def prOff : Nat := 0
@[inherit_doc prOff] def prPreload : Nat := 1
@[inherit_doc prOff] def prRun : Nat := 2
@[inherit_doc prOff] def prHold : Nat := 3

/-- Slot `n` beside its registers. -/
def State.slotOf (s : State) (n : Nat) : SlotX :=
  match s.pra.slot[n]? with
  | some x => x
  | none => {}

/-- `s` with slot `n` changed by `f`. -/
def State.updSlot (s : State) (n : Nat) (f : SlotX → SlotX) : State :=
  { s with pra := { s.pra with slot := s.pra.slot.setIfInBounds n (f (s.slotOf n)) } }

/-- The state of slot `n` (R264). -/
def State.pr (s : State) (n : Nat) : Nat := s.rd (Reg.PRA_L_STATE_STATE n)

/-- Source `i` of PRA sets, raised by slot `n` (R276, R376). -/
def State.praRaise (s : State) (i n : Nat) : State := s.raiseInst Reg.PRA_STATUS i Reg.PRA_FIRST_SLOT_SLOT n

/-! ## Lock (R266) -/

/-- `LOCKED` of slot `n`, in its own register and in `PRA_LOCKEDk`. -/
def State.setLocked (s : State) (n : Nat) (b : Bool) : State :=
  let s := s.wr (Reg.PRA_L_STATE_LOCKED n) (boolNat b)
  let r := Reg.PRA_LOCKED_LOCKED (n / 32)
  s.wr r (bitPut (s.rd r) (n % 32) b)

/-- The loop set of sheet `t` includes slot `n` (R50, R266). -/
def State.needsLoop (s : State) (t n : Nat) : Bool :=
  bitAt (s.rdw (Reg.PSQ_LOOPMASK (s.rd (Reg.PSQ_SH_CTRL_LOOPSET t)) (n / 32))) (n % 32)

/-- Slot `n` loses lock, if it had it: a watched one sets `LOCK_LOST`, and the committed sheets that require it become spoils (R63,
R266). -/
def State.unlock (s : State) (n : Nat) : State :=
  if s.on (Reg.PRA_L_STATE_LOCKED n) then
    let s := s.setLocked n false
    let s := if s.on (Reg.PRA_L_CTRL_LOCK_WATCH n) then s.praRaise 3 n else s
    forUpTo 64 s fun s t => if s.needsLoop t n then s.spoilIf t 0x23 else s
  else s

/-! ## Slot states (R264, R265) -/

/-- The output of slot `n` takes `y`; what it drives takes it at its next PWM period (R259, R270). -/
def State.praOutput (s : State) (n y : Nat) : State := s.wr (Reg.PRA_L_OUT_Y n) y

/-- The coefficient sets of slots `n` and `m` are exchanged (R268). -/
def State.praExchange (s : State) (n m : Nat) : State :=
  forEach [0x14, 0x18, 0x1C, 0x20] s fun s o =>
    let a := s.rdw (0x181000 + 0x80 * n + o)
    let b := s.rdw (0x181000 + 0x80 * m + o)
    (s.wrw (0x181000 + 0x80 * n + o) b).wrw (0x181000 + 0x80 * m + o) a

/-- The pending exchange of slot `n`, the shadow slots in `taken` being claimed by lower slots: carried out, or refused (R268). -/
def State.praSwap (s : State) (n : Nat) (taken : List Nat) : State :=
  let m := s.rd (Reg.PRA_L_SWAP_WITH n)
  let s := s.wr (Reg.PRA_L_SWAP_PENDING n) 0
  if s.pr m = prOff ∧ m ≠ n ∧ !taken.contains m then s.praExchange n m else s.praRaise 1 n

/-- Slot `n` is being computed (R269). -/
def State.praComputes (s : State) (n : Nat) : Bool := s.pra.run.any (·.slot = n)

/-- The computation of slot `n` is over, and the unit free from clock `t` on; an exchange that waited for it follows (R259, R269). -/
def State.praFree (s : State) (n t : Nat) : State :=
  let waits := s.pra.swapWait.contains n
  let s := { s with pra := { s.pra with run := none, freeAt := t, swapWait := s.pra.swapWait.filter (· ≠ n) } }
  if waits ∧ s.on (Reg.PRA_L_SWAP_PENDING n) then s.praSwap n [] else s

/-- The computations of slot `n` that wait or run are discarded (R264, R269; log 79). -/
def State.praDiscard (s : State) (n : Nat) : State :=
  let s := { s with pra := { s.pra with queue := s.pra.queue.filter fun e => e.1 ≠ n } }
  if s.praComputes n then s.praFree n s.clock else s

/-- Slot `n` leaves RUN or stays out of it, in state `x`: the lock is lost and the runs start anew (R264, R266). -/
def State.praGo (s : State) (n x : Nat) : State :=
  let s := s.unlock n
  (s.wr (Reg.PRA_L_STATE_STATE n) x).updSlot n fun l => { l with inRun := 0, outRun := 0 }

/-- The integrator of slot `n` (R261). -/
def State.praI (s : State) (n : Nat) : Int := signedOf (s.rdw (Reg.PRA_L_I_LO n) + s.rd (Reg.PRA_L_I_HI_I n) * 2 ^ 32) 48

/-- `s` with the integrator of slot `n` at `i`, kept within 48 bits (R261). -/
def State.setPraI (s : State) (n : Nat) (i : Int) : State :=
  let i := if i < -140737488355328 then -140737488355328 else if 140737488355327 < i then 140737488355327 else i
  let u := toBits i 48
  (s.wrw (Reg.PRA_L_I_LO n) u).wr (Reg.PRA_L_I_HI_I n) (u / 2 ^ 32)

/-- A synchronizing reset of slot `n` into PRELOAD (R265). -/
def State.praSync (s : State) (n : Nat) : State :=
  let s := (s.praDiscard n).praGo n prPreload
  let s := (s.updSlot n fun l => { l with hist := [], ePrev := none, encPrev := none }).wr (Reg.PRA_L_STATE_HIST n) 0
  let p := s.rd (Reg.PRA_L_PRELOAD_PRELOAD n)
  (s.setPraI n ((p * 65536 : Nat) : Int)).praOutput n p

/-- Slot `n` goes OFF with output 0 (R264). -/
def State.praOffNow (s : State) (n : Nat) : State :=
  if s.pr n = prOff then s else ((s.praDiscard n).praGo n prOff).praOutput n 0

/-- An ON reaches slot `n` (R258, R264): another source kind sets `CMD_ERR` and the slot stays OFF. -/
def State.praOn (s : State) (n : Nat) : State :=
  if s.pr n ≠ prOff ∨ !s.on Reg.PRA_CTRL_EN then s
  else if 4 < s.rd (Reg.PRA_L_SRC_KIND n) then s.praRaise 2 n
  else s.praSync n

/-- A SYNC reaches slot `n` (R264). -/
def State.praSyncCmd (s : State) (n : Nat) : State := if s.pr n = prOff then s else s.praSync n

/-- Every slot goes OFF, on `EN` = 0 or entry to EVENING (R264). -/
def State.praAllOff (s : State) : State := forUpTo 128 s State.praOffNow

/-! ## The ADC (R272 to R275) -/

/-- The field of entry `e` of converter `a` in bank `b`: the register word shifted to the entry (R277). -/
def State.adcEntry (s : State) (a b e : Nat) : Nat := bitsOf (s.rdw (Reg.ADC_A_SEQ_W a b (e / 4))) (8 * (e % 4)) 8

/-- Entry `e` of converter `a` in bank `b` names an input and is enabled; entry 10`a` belongs to the supervisor (R273). -/
def State.adcInput (s : State) (a b e : Nat) : Option Nat :=
  if e ≠ 10 * a ∧ bitAt (s.adcEntry a b e) 7 then some (bitsOf (s.adcEntry a b e) 0 7) else none

/-- The first entry of the live sequence of its converter that names input `i` (R258). -/
def State.adcFirst (s : State) (i : Nat) : Option Nat :=
  let a := i % 4
  if s.on Reg.ADC_CTRL_EN then (List.range 40).find? fun e => s.adcInput a (s.rd (Reg.ADC_A_CTRL_LIVE a)) e = some i else none

/-- The balls of input `i` are granted to the ADC, or held by the supervisor (R273, R289). -/
def State.adcBall (s : State) (i : Nat) : Bool := decide (64 ≤ i) || s.ballGranted (265 + i) 0

/-- The trim in effect at converter `a`: `OFS` and `GAIN` (R275). -/
def State.trimOf (s : State) (a : Nat) : Int × Nat := s.pra.trim.toList.getD a (0, 0x4000)

/-- Converter `a` takes the trim that its register holds: at a frame start, or at once where CAL has written it (R275, R310). -/
def State.takeTrim (s : State) (a : Nat) : State :=
  let t := (signedOf (s.rd (Reg.ADC_A_TRIM_OFS a)) 12, s.rd (Reg.ADC_A_TRIM_GAIN a))
  { s with pra := { s.pra with trim := s.pra.trim.setIfInBounds a t } }

/-- The trimmed code of a raw conversion of converter `a` (R275). -/
def State.adcTrim (s : State) (a raw : Nat) : Nat :=
  let v := ((raw : Int) - (s.trimOf a).1) * ((s.trimOf a).2 : Int) / 16384
  if v < 0 then 0 else min 4095 v.toNat

/-- The result of entry `e` is stored in input `i` (R273, R275). -/
def State.adcStore (s : State) (i e code : Nat) : State :=
  let ok := s.adcBall i
  let now := s.meridian
  let s := s.wrw (Reg.ADC_RESULT i) (bitsSet (bitsSet (boolNat ok * 2 ^ 31) 16 6 e) 0 12 (if ok then code else 0))
  { s with pra := { s.pra with convEnd := s.pra.convEnd.setIfInBounds i now } }

/-- Rail `r` beside its registers. -/
def State.railOf (s : State) (r : Nat) : RailX :=
  match s.pwr.rail[r]? with
  | some x => x
  | none => {}

/-- `s` with rail `r` changed by `f`. -/
def State.updRail (s : State) (r : Nat) (f : RailX → RailX) : State :=
  { s with pwr := { s.pwr with rail := s.pwr.rail.setIfInBounds r (f (s.railOf r)) } }

/-- Scan reading `code` of rail `r` lies inside the limits (R283). -/
def State.scanIn (s : State) (r code : Nat) : Bool :=
  decide (s.rd (Reg.PWR_R_SCAN_UV_CODE r) ≤ code ∧ code ≤ s.rd (Reg.PWR_R_SCAN_OV_CODE r))

/-- The supervisor takes a reading of rail `r` (R273, R283). -/
def State.scanReading (s : State) (r code : Nat) : State :=
  let inside := s.scanIn r code
  s.updRail r fun x => { x with code := code, run := if inside then 0 else x.run + 1 }

/-- The clocks since the present frame started (R257). -/
def State.framePhase (s : State) : Nat := s.clock - s.pra.frameAt

/-- Entry `e` of converter `a` has ended, and is the next of the converter's sequence (R272). -/
def State.convDue (s : State) (a e : Nat) : Bool :=
  s.pra.frame.isSome && s.periphClock && s.pra.conv.toList.getD a 40 = e && decide (e < 40 ∧ 300 * (e + 1) ≤ s.framePhase)

/-- The conversion of entry `e` of converter `a` completes with `raw` (R272, R273, R275). -/
def State.adcConversion (s : State) (a e raw : Nat) : State :=
  if !s.convDue a e then s
  else
    let s := { s with pra := { s.pra with conv := s.pra.conv.setIfInBounds a (e + 1) } }
    let code := s.adcTrim a raw
    if e = 10 * a then
      let r := 4 * (s.pra.frame.getD 0 % 8) + a
      ((s.adcStore (64 + r) e code).scanReading r code).inc (Reg.ADC_A_CNT_CONV_COUNT a)
    else if !s.on Reg.ADC_CTRL_EN then s
    else
      match s.adcInput a (s.rd (Reg.ADC_A_CTRL_LIVE a)) e with
      | some i => if i < 96 then (s.adcStore i e code).inc (Reg.ADC_A_CNT_CONV_COUNT a) else s
      | none => s

/-- The conversion of converter `a` that has ended and came with no command (R272, log 80). -/
def State.adcDue (s : State) (a : Nat) : State :=
  let e := s.pra.conv.toList.getD a 40
  if s.convDue a e then s.adcConversion a e (Config.adcRaw s.clock a).toNat else s

/-- Converter `a` is to take bank `b` at the next frame start (R274). -/
def State.askBank (s : State) (a b : Nat) : State :=
  { s with pra := { s.pra with ask := s.pra.ask.setIfInBounds a (some (b % 2)) } }

/-- At a frame start converter `a` takes the bank asked for, or refuses it where an enabled entry names an input of another converter
(R274). -/
def State.adcSwitch (s : State) (a : Nat) : State :=
  match s.pra.ask[a]? with
  | some (some b) =>
    let s := { s with pra := { s.pra with ask := s.pra.ask.setIfInBounds a none } }
    if (List.range 40).all fun e => match s.adcInput a b e with
        | some i => i % 4 = a
        | none => true
      then s.wr (Reg.ADC_A_CTRL_LIVE a) b
    else s.raise Reg.ADC_STATUS 0
  | _ => s

/-- SEQ_SEL of bank `b` for the converter of input `u` (R274). -/
def State.seqSel (s : State) (u b : Nat) : State := if u < 96 then s.askBank (u % 4) b else s.raise Reg.ADC_STATUS 1

/-- A write of `v` to `ADC_Aa_CTRL` selects the bank that `NEXT` names (R274). -/
def State.adcNext (s : State) (a v : Nat) : State := (s.plainWrite (Reg.ADC_A_CTRL a) v).askBank a v

/-! ## Frames and samples (R257 to R260) -/

/-- `DELAY` of slot `n` after a computation of a sample taken at clock `t` that ends at clock `u` (R259). -/
def State.praDelay (s : State) (n t u : Nat) : State :=
  let d := min 65535 ((u - t) / 12)
  (s.wr (Reg.PRA_L_DELAY_LAST n) d).wr (Reg.PRA_L_DELAY_MAX n) (max d (s.rd (Reg.PRA_L_DELAY_MAX n)))

/-- The lock of slot `n` after a sample with error `e` (R266). -/
def State.praLock (s : State) (n : Nat) (e : Int) : State :=
  if s.pr n ≠ prRun then s
  else
    let inside := decide (e.natAbs ≤ s.rd (Reg.PRA_L_LOCK_BAND n))
    let s := s.updSlot n fun l => if inside then { l with inRun := l.inRun + 1, outRun := 0 } else { l with inRun := 0, outRun := l.outRun + 1 }
    let l := s.slotOf n
    if inside then
      if !s.on (Reg.PRA_L_STATE_LOCKED n) ∧ s.rd (Reg.PRA_L_LOCK_LOCK_N n) ≤ l.inRun then s.setLocked n true else s
    else if s.rd (Reg.PRA_L_LOCK_UNLOCK_N n) ≤ l.outRun then s.unlock n
    else s

/-- `POLICY_LIMITED` of slot `n`, in its own register and in `PRA_POLICYk` (R263). -/
def State.setPolicy (s : State) (n : Nat) (b : Bool) : State :=
  let s := s.wr (Reg.PRA_L_STATE_POLICY_LIMITED n) (boolNat b)
  let r := Reg.PRA_POLICY_LIMITED (n / 32)
  s.wr r (bitPut (s.rd r) (n % 32) b)

/-- The result `l` of slot `n` is applied (R259, R261 to R266). -/
def State.praApply (s : State) (n : Nat) (l : Loop) : State :=
  let s := (s.wrw (Reg.PRA_L_PV n) (toBits (fitInt l.pf) 32)).wrw (Reg.PRA_L_ERR n) (toBits (fitInt l.e) 32)
  let s := (s.setPraI n l.integ).updSlot n fun x => { x with ePrev := some l.e }
  let s := (s.inc (Reg.PRA_L_CNT_SAMPLES_COUNT n)).wr (Reg.PRA_L_STATE_SAT n) (boolNat l.sat)
  let s := if l.sat then s.inc (Reg.PRA_L_CNT_SAT_COUNT n) else s
  (((s.setPolicy n l.policy).praOutput n l.y).praLock n l.e).count 30 0 1

/-- The computation that runs ends, 20 peripheral clocks after it started (R259). -/
def State.loopComputation (s : State) : State :=
  match s.pra.run with
  | none => s
  | some r =>
    if !s.periphClock ∨ s.clock < r.stop then s
    else ((s.praApply r.slot r.res).praDelay r.slot r.from_ r.stop).praFree r.slot r.stop

/-- The computations that the present frame leaves to the next: `OVERRUN`, raised by the slot that runs or comes first (R260). -/
def State.praOverrun (s : State) : State :=
  match s.pra.run, s.pra.queue with
  | some r, _ => s.praRaise 0 r.slot
  | none, e :: _ => s.praRaise 0 e.1
  | none, [] => s

/-- A frame of 4 µs starts, 1,000 peripheral clocks after the one before; what ends with the old one comes first (R257, R260, R272, R274). -/
def State.frameStart (s : State) : State :=
  match s.pra.frame with
  | none => s
  | some f =>
    if !s.periphClock ∨ s.framePhase < 12000 then s
    else
      let s := (forUpTo 4 s.loopComputation State.adcDue).praOverrun
      let due := min 255 s.pra.due
      let s := (s.wr Reg.PRA_LOAD_LAST due).wr Reg.PRA_LOAD_MAX (max due (s.rd Reg.PRA_LOAD_MAX))
      let f := (f + 1) % 2 ^ 64
      let s := { s with pra := { s.pra with frame := some f, frameAt := s.pra.frameAt + 12000, due := 0, conv := Vector.replicate 4 0 } }
      forUpTo 4 (s.wrw Reg.ADC_FRAME f) fun s a => (s.takeTrim a).adcSwitch a

/-- The input of slot `n` is valid (R258). -/
def State.praValid (s : State) (n : Nat) : Bool :=
  let i := s.rd (Reg.PRA_L_SRC_INDEX n)
  match s.rd (Reg.PRA_L_SRC_KIND n) with
  | 0 => decide (i < 96) && (s.adcFirst i).isSome && s.on (Reg.ADC_RESULT_VALID i)
  | 1 => decide (i < 24) && decide (s.bl i = blRun)
  | 2 => decide (i < 8) && s.on (Reg.BTM_CTRL_EN i) && s.on (Reg.BTM_STATE_SOS_OK i)
  | 3 | 4 => decide (i < 16)
  | _ => false

/-- The signed count of encoder `i` (R210). -/
def State.encoder (s : State) (i : Nat) : Int :=
  match s.sense.enc[i]? with
  | some c => c.toInt
  | none => 0

/-- The phase of an SOS capture at tick `t` against `ref`, folded about 0 (R258). -/
def sosPhase (t ref p : Nat) : Int :=
  let x := ((t : Int) - ref) % p
  if 2 * x < p then x else x - p

/-- The process value of slot `n` now (R258), for kind 2 that of the station's last SOS capture; with a period of 0 the quotient of kind 1 and the remainder of kind 2 are not stated, and
the value is free. -/
def State.praPv (s : State) (n : Nat) : Int :=
  let i := s.rd (Reg.PRA_L_SRC_INDEX n)
  let free := Config.praUnstated (s.pra.frame.getD 0) n
  match s.rd (Reg.PRA_L_SRC_KIND n) with
  | 0 => ((s.rd (Reg.ADC_RESULT_CODE i) : Nat) : Int)
  | 1 => if s.rdw (Reg.BLD_C_PERIOD i) = 0 then free else (quotient 48000000000 (s.rdw (Reg.BLD_C_PERIOD i)) : Int)
  | 2 =>
    let b := s.btmOf i
    if b.win.period = 0 then free
    else sosPhase (b.sosCap / 32) (s.rd64 (Reg.PRA_L_REF_LO n) (Reg.PRA_L_REF_HI n)) b.win.period
  | 3 => s.encoder i
  | _ =>
    match (s.slotOf n).encPrev with
    | some c => s.encoder i - c
    | none => 0

/-- Slot `n` is due in frame `f`: kind 0 whose first conversion is entry 39 is served in the frame after its own (R257, R260). -/
def State.praDue (s : State) (n f : Nat) : Bool :=
  let d := s.rd (Reg.PRA_L_RATE_DIV n)
  let ph := s.rd (Reg.PRA_L_PHASE_PHASE n) % d
  let late : Bool := s.rd (Reg.PRA_L_SRC_KIND n) = 0 && s.adcFirst (s.rd (Reg.PRA_L_SRC_INDEX n)) = some 39
  if late then decide (1 ≤ f ∧ (f - 1) % d = ph) else f % d = ph

/-- A computation takes its place: in order of sample instant, then of slot number (R259). -/
def praInsert (n t : Nat) : List (Nat × Nat) → List (Nat × Nat)
  | [] => [(n, t)]
  | (m, u) :: rest => if t < u ∨ (t = u ∧ n < m) then (n, t) :: (m, u) :: rest else (m, u) :: praInsert n t rest

/-- The history depth of slot `n` (R261). -/
def State.praDepth (s : State) (n : Nat) : Nat := 2 ^ min 4 (s.rd (Reg.PRA_L_CTRL_FILT n))

/-- The sample of slot `n` enters its history, and its computation waits once the history is deep enough (R261, R264). -/
def State.praTake (s : State) (n : Nat) : State :=
  let pv := s.praPv n
  let enc := s.encoder (s.rd (Reg.PRA_L_SRC_INDEX n))
  let d := s.praDepth n
  let s := s.updSlot n fun l => { l with hist := (pv :: l.hist).take d, encPrev := some enc }
  let s := s.wr (Reg.PRA_L_STATE_HIST n) (s.slotOf n).hist.length
  if (s.slotOf n).hist.length < d then s
  else
    let now := s.clock
    let s := if s.pr n = prPreload then s.wr (Reg.PRA_L_STATE_STATE n) prRun else s
    { s with pra := { s.pra with queue := praInsert n now s.pra.queue } }

/-- The sample instant of slot `n` in a frame, in clocks from its start (R258, R260): the end of the first conversion of its input, or `AT`;
an input outside the live sequence is met at the start (log 79). -/
def State.praInstant (s : State) (n : Nat) : Nat :=
  if s.rd (Reg.PRA_L_SRC_KIND n) = 0 then
    match s.adcFirst (s.rd (Reg.PRA_L_SRC_INDEX n)) with
    | some e => 300 * (e + 1) % 12000
    | none => 0
  else 300 * s.rd (Reg.PRA_L_SRC_AT n)

/-- The sample instant of slot `n` in frame `f` has come, and the slot has not sampled in the frame (R257, R258). -/
def State.sampleNow (s : State) (n f : Nat) : Bool :=
  s.pr n ≠ prOff && s.periphClock && (s.slotOf n).sampled ≠ some f && s.praDue n f && decide (s.praInstant n ≤ s.framePhase)

/-- The sample instant of slot `n` in the present frame (R257, R258, R264): an input that is not valid takes the slot to HOLD, where nothing
is computed. -/
def State.slotSample (s : State) (n : Nat) : State :=
  match s.pra.frame with
  | none => s
  | some f =>
    if 128 ≤ n ∨ !s.sampleNow n f then s
    else
      let s := forUpTo 4 s State.adcDue
      let s := s.updSlot n fun l => { l with sampled := some f }
      let s := { s with pra := { s.pra with due := s.pra.due + 1 } }
      if s.praValid n then (if s.pr n = prHold then (s.praSync n).praTake n else s.praTake n)
      else if s.pr n = prHold then s
      else ((s.praDiscard n).praGo n prHold).praRaise 4 n

/-! ## The loop arithmetic (R261 to R263, R266) -/

/-- A BLD channel that takes its duty from slot `n` reads `SAT` (R262). -/
def State.extSat (s : State) (n : Nat) : Bool :=
  (List.range 24).any fun c =>
    s.on (Reg.BLD_C_CTRL_DUTY_SRC c) && decide (s.rd (Reg.BLD_C_CTRL_LOOP c) = n) && s.on (Reg.BLD_C_STATE_SAT c)

/-- The loop arithmetic of slot `n` (R261 to R263). -/
def State.loop (s : State) (n : Nat) : Loop :=
  let x := s.slotOf n
  let d := s.praDepth n
  let pf := (x.hist.take d).foldl (· + ·) 0 / (d : Int)
  let sp := signedOf (s.rdw (Reg.PRA_L_SP n)) 32
  let e := if s.on (Reg.PRA_L_CTRL_INV n) then pf - sp else sp - pf
  let gain (r : Nat) : Int := signedOf (s.rdw r) 32
  let i := s.praI n
  let raw := (gain (Reg.PRA_L_KP n) * e + i + gain (Reg.PRA_L_KD n) * (e - x.ePrev.getD e)) / 65536
  let cap := s.rd (Reg.PRA_L_CAP_CAP n)
  let top := s.rd (Reg.PRA_L_LIMIT_OUT_MAX n)
  let hi := min top cap
  let lo := min (s.rd (Reg.PRA_L_LIMIT_OUT_MIN n)) hi
  let y := if (hi : Int) < raw then hi else if raw < lo then lo else raw.toNat
  let sat := decide ((hi : Int) < raw) || decide (raw < lo) || s.extSat n
  { pf := pf, e := e, y := y, sat := sat, policy := decide ((cap : Int) < raw) && decide (cap < top),
    integ := if sat then i else i + gain (Reg.PRA_L_KI n) * e }

/-- The unit starts on the slot that comes first, at the later of its sample instant and the end of the computation before: in the first of the
20 clocks it reads what it computes with (R259, R261). -/
def State.praStart (s : State) : State :=
  match s.pra.run, s.pra.queue with
  | none, (n, t) :: rest =>
    let start := max t s.pra.freeAt
    if !s.periphClock ∨ s.clock < start + 12 then s
    else
      let r : LoopRun := { slot := n, from_ := t, stop := start + 240, res := s.loop n }
      { s with pra := { s.pra with queue := rest, run := some r } }
  | _, _ => s

/-! ## Commands and swaps (R268, R271) -/

/-- A SET of setpoint `v` reaches slot `n` (R271). -/
def State.praSet (s : State) (n v : Nat) : State := s.wrw (Reg.PRA_L_SP n) v

/-- A CAP of `v` reaches slot `n` (R263, R271). -/
def State.praCap (s : State) (n v : Nat) : State := s.wr (Reg.PRA_L_CAP_CAP n) v

/-- Every pending exchange is applied, in ascending slot number; that of a slot under computation waits for its end (R72, R268, R269). -/
def State.praSwaps (s : State) : State :=
  (forUpTo 128 (s, ([] : List Nat)) fun (s, taken) n =>
    if s.on (Reg.PRA_L_SWAP_PENDING n) then
      let m := s.rd (Reg.PRA_L_SWAP_WITH n)
      (if s.praComputes n then { s with pra := { s.pra with swapWait := n :: s.pra.swapWait } } else s.praSwap n taken, m :: taken)
    else (s, taken)).1

/-- A write of `v` to `PRA_Ln_SWAP`: with `REQ` a request, carried out at once in DAWN and MORNING (R268). -/
def State.swapRequest (s : State) (n v : Nat) : State :=
  let s := s.plainWrite (Reg.PRA_L_SWAP n) v
  if bitAt v 8 then
    let s := s.wr (Reg.PRA_L_SWAP_PENDING n) 1
    if s.dev = stDawn ∨ s.dev = stMorning then s.praSwaps else s
  else s

/-- A write of `v` to `PRA_Ln_CTRL`: where several commands are written, ON, OFF and SYNC act in this order (R271). -/
def State.praSlotCtrl (s : State) (n v : Nat) : State :=
  let s := s.plainWrite (Reg.PRA_L_CTRL n) v
  let s := s.wr (Reg.PRA_L_CTRL_FILT n) (min 4 (bitsOf v 8 3))
  let s := if bitAt v 0 then s.praOn n else s
  let s := if bitAt v 1 then s.praOffNow n else s
  if bitAt v 2 then s.praSyncCmd n else s

/-- A write of `v` at offset `o` of slot `n`'s registers (R257, R258, R261, R266, R268). -/
def State.praSlotWrite (s : State) (n o v : Nat) : State :=
  match o with
  | 0x00 => s.praSlotCtrl n v
  | 0x04 => (s.plainWrite (Reg.PRA_L_SRC n) v).wr (Reg.PRA_L_SRC_AT n) (min 39 (bitsOf v 16 6))
  | 0x08 => (s.plainWrite (Reg.PRA_L_RATE n) v).wr (Reg.PRA_L_RATE_DIV n) (max 1 (bitsOf v 0 20))
  | 0x2C =>
    let s := s.plainWrite (Reg.PRA_L_LOCK n) v
    (s.wr (Reg.PRA_L_LOCK_LOCK_N n) (max 1 (bitsOf v 16 8))).wr (Reg.PRA_L_LOCK_UNLOCK_N n) (max 1 (bitsOf v 24 8))
  | 0x38 => s.swapRequest n v
  | _ => s.plainWrite (0x181000 + 0x80 * n + o) v

/-- A write of `v` to `PRA_CTRL` (R264). -/
def State.praCtrl (s : State) (v : Nat) : State :=
  let s := s.plainWrite Reg.PRA_CTRL v
  if bitAt v 0 then s else s.praAllOff

/-- A write of `v` to `PRA_LOAD` (R276). -/
def State.praLoad (s : State) (v : Nat) : State := if bitAt v 31 then s.wr Reg.PRA_LOAD_MAX 0 else s

/-- A write of `v` at offset `o` of PRA (R270, R276). -/
def State.praWrite (s : State) (o v : Nat) : State :=
  if 0x1000 ≤ o then s.praSlotWrite ((o - 0x1000) / 0x80) (o % 0x80) v
  else if o = 0 then s.praCtrl v
  else if o = 0x10 then s.praLoad v
  else if 0x100 ≤ o ∧ o < 0x1C0 then
    (s.plainWrite (0x180000 + o) v).wr (Reg.PRA_LPO_CFG_PERIOD ((o - 0x100) / 4)) (max 1 (bitsOf v 0 16))
  else s.plainWrite (0x180000 + o) v

/-- A write of `v` at offset `o` of ADC: a live bank takes no write, and the fields of entry 10`a` take none (R273, R274). -/
def State.adcWrite (s : State) (o v : Nat) : State :=
  if 0x100 ≤ o ∧ o < 0x300 then
    let a := (o - 0x100) / 0x80
    let b := (o - 0x100) / 0x40 % 2
    if s.rd (Reg.ADC_A_CTRL_LIVE a) = b then s.raise Reg.ADC_STATUS 2
    else
      let w := o % 0x40 / 4
      let v := if w = 10 * a / 4 then bitsSet v (8 * (10 * a % 4)) 8 0 else v
      s.plainWrite (0x190000 + o) v
  else if 0x10 ≤ o ∧ o < 0x20 then s.adcNext ((o - 0x10) / 4) v
  else s.plainWrite (0x190000 + o) v

/-! ## The loop outputs (R264, R270) -/

/-- The PWM of loop output `j`. -/
def State.lpoOf (s : State) (j : Nat) : LpoX :=
  match s.pra.lpo[j]? with
  | some x => x
  | none => {}

/-- Loop output `j` runs: enabled, and the outputs are not held off (R264, R270, R298, R300). -/
def State.lpoRuns (s : State) (j : Nat) : Bool := s.on (Reg.PRA_LPO_CFG_EN j) && !s.outputsHeld

/-- The PWM period of loop output `j`, in clocks (R270). -/
def State.lpoPeriod (s : State) (j : Nat) : Nat :=
  s.rd (Reg.PRA_LPO_CFG_PERIOD j) * (if s.on (Reg.PRA_LPO_CFG_UNIT j) then 30000 else 6)

/-- The waveform of loop output `j`: high for y ÷ 65,536 of the period, inverted with `POL`; low where it does not run (R264, R270). -/
def State.lpoWave (s : State) (j : Nat) : Bool :=
  s.lpoRuns j && (decide (65536 * (s.clock - (s.lpoOf j).since) < (s.lpoOf j).y * s.lpoPeriod j) != s.on (Reg.PRA_LPO_CFG_POL j))

/-- The level of ball LPOj (R270, R401). -/
def State.lpoLevel (s : State) (j : Nat) : Bool := s.ballLive (72 + j) 0 && s.lpoWave j

/-- The level of ball ENr where the supervisor has left it to the copy of LPOr (R289, R400). -/
def State.enCopy (s : State) (r : Nat) : Bool := s.ballLive (221 + r) 1 && s.lpoWave r

/-- A PWM period of loop output `j` ends, and the next takes the output of its slot (R270). -/
def State.lpoDue (s : State) (j : Nat) : State :=
  if s.lpoRuns j ∧ (s.lpoOf j).since + s.lpoPeriod j ≤ s.clock then
    let x : LpoX := { since := s.clock, y := s.rd (Reg.PRA_L_OUT_Y (s.rd (Reg.PRA_LPO_CFG_SLOT j))) }
    { s with pra := { s.pra with lpo := s.pra.lpo.setIfInBounds j x } }
  else s

/-- The engine and the converters meet the times that have come (R257 to R260, R270, R272). -/
def State.praDueNow (s : State) : State :=
  let s := forUpTo 4 s.loopComputation.frameStart State.adcDue
  forUpTo 48 (forUpTo 128 s State.slotSample).praStart State.lpoDue

/-! ## Sensors and encoders (R210, R401) -/

/-- An edge on sheet sensor `n` passes its filter, at an edge of the peripheral clock: its new level is `up` (R210). -/
def State.sensorEdge (s : State) (n : Nat) (up : Bool) : State :=
  if 64 ≤ n ∨ !s.periphClock ∨ !s.periphEdge ∨ !s.ballLive (120 + n) 0 then s
  else
    match s.sense.level[n]? with
    | some l =>
      if l = up then s
      else
        let now := s.meridian
        { s with sense := { s.sense with level := s.sense.level.setIfInBounds n up, edge := s.sense.edge.setIfInBounds n now,
                                         rising := s.sense.rising.setIfInBounds n up } }
    | none => s

/-- An edge of encoder `n`, taken at an edge of the peripheral clock, counts one up or down (R210). -/
def State.encoderEdge (s : State) (n : Nat) (up : Bool) : State :=
  if 16 ≤ n ∨ !s.periphClock ∨ !s.periphEdge ∨ !s.ballLive (184 + n) 0 then s
  else
    match s.sense.enc[n]? with
    | some c => { s with sense := { s.sense with enc := s.sense.enc.setIfInBounds n (if up then c + 1 else c - 1) } }
    | none => s

end Sys2Proof.Machine
end

