-- ==== Sys2Proof/Machine/Pwr.lean ====
section
/-! DEFINITION. The supply supervisor and the clock outputs (R278 to R289, R301 to R303). -/

namespace Sys2Proof.Machine

/-- Phases of a supply sequence (R303). -/
def phIdle : Nat := 0
@[inherit_doc phIdle] def phUp : Nat := 1
@[inherit_doc phIdle] def phUpDone : Nat := 2
@[inherit_doc phIdle] def phDown : Nat := 3
@[inherit_doc phIdle] def phFailed : Nat := 4

/-- The phase of the present sequence. -/
def State.phase (s : State) : Nat := s.rd Reg.PWR_SEQ_STATE_PHASE

/-- The level of ENr (R279). -/
def State.enHigh (s : State) (r : Nat) : Bool := bitAt (s.rd Reg.PWR_EN_STATE_EN) r

/-- Rail `r` is power-good (R279). -/
def State.railGood (s : State) (r : Nat) : Bool := bitAt (s.rd Reg.PWR_GOOD_GOOD) r

/-- Rail `r` is named by a used step (R279). -/
def State.stepOf (s : State) (r : Nat) : Option Nat :=
  (List.range 32).find? fun i => s.on (Reg.PWR_SEQ_USED i) && decide (s.rd (Reg.PWR_SEQ_RAIL i) = r)

/-- The steps of the present sequence: the used ones, and of those on the way to and from EVENING the ones of `EVE_OFF` rails (R279,
R280, R281). -/
def State.inSequence (s : State) (i : Nat) : Bool :=
  s.on (Reg.PWR_SEQ_USED i) && (!s.pwr.eve || s.on (Reg.PWR_R_CFG_EVE_OFF (s.rd (Reg.PWR_SEQ_RAIL i))))

/-- The rail of the present step. -/
def State.stepRail (s : State) : Nat := s.rd (Reg.PWR_SEQ_RAIL (s.rd Reg.PWR_SEQ_STATE_STEP))

/-- ENr takes level `up`; with a low EN the rail is neither power-good nor supervised (R279, R284). -/
def State.setEn (s : State) (r : Nat) (up : Bool) : State :=
  let s := s.wr Reg.PWR_EN_STATE_EN (bitPut (s.rd Reg.PWR_EN_STATE_EN) r up)
  if up then s
  else
    let s := s.wr Reg.PWR_GOOD_GOOD (bitPut (s.rd Reg.PWR_GOOD_GOOD) r false)
    (s.updRail r fun x => { x with sup := false, run := 0, out := none }).updStations

/-- `DELAY` of step `i`, in clocks (R279, R280). -/
def State.stepDelay (s : State) (i : Nat) : Nat := s.rd (Reg.PWR_SEQ_DELAY i) * 30000

/-- `PG_TIMEOUT` of step `i`, in clocks (R279). -/
def State.stepTimeout (s : State) (i : Nat) : Nat := max 1 (s.rd (Reg.PWR_SEQ_PG_TIMEOUT i)) * 300000

/-- The sequence goes on to the first step of the list that belongs to it, which waits its delay from now on, or ends in phase `done`
(R279). -/
def State.toStep (s : State) (steps : List Nat) (done : Nat) : State :=
  match steps.find? s.inSequence with
  | some i =>
    let at_ := s.clock + s.stepDelay i
    { s.wr Reg.PWR_SEQ_STATE_STEP i with pwr := { s.pwr with wait := false, due := at_ } }
  | none => { s.wr Reg.PWR_SEQ_STATE_PHASE done with pwr := { s.pwr with wait := false } }

/-- The steps after step `i`, in ascending order. -/
def stepsAbove (i : Nat) : List Nat := (List.range 32).filter fun j => i < j
/-- The steps before step `i`, in descending order. -/
def stepsBelow (i : Nat) : List Nat := (List.range i).reverse

/-- The up sequence begins; the rails that a GROUP reaction holds off come under it again (R279, R285). On the way out of EVENING it
covers the `EVE_OFF` rails; those that no step names come up at once (R281, log 27). -/
def State.upSequence (s : State) (eve : Bool) : State :=
  let s := { s with pwr := { s.pwr with eve := eve } }
  let s := if eve then s else s.wrw Reg.PWR_OFF_FAULT 0
  let s := if eve then forUpTo 32 s fun s r =>
      if s.on (Reg.PWR_R_CFG_EVE_OFF r) ∧ (s.stepOf r).isNone ∧ !bitAt (s.rd Reg.PWR_OFF_FAULT_OFF) r then s.setEn r true else s
    else s
  (s.wr Reg.PWR_SEQ_STATE_PHASE phUp).toStep (List.range 32) phUpDone

/-- The down sequence is due to begin, after at most 5 ms; on the way into EVENING the `EVE_OFF` rails that no step names go down first
(R280, R281). -/
def State.downSequence (s : State) (eve : Bool) : State :=
  let s := { s with pwr := { s.pwr with eve := eve, begun := eve, wait := false, limit := s.clock + 15000000 } }
  let s := if eve then forUpTo 32 s fun s r =>
      if s.on (Reg.PWR_R_CFG_EVE_OFF r) ∧ (s.stepOf r).isNone then s.setEn r false else s
    else s
  let s := (s.wr Reg.PWR_SEQ_STATE_PHASE phDown).toStep (List.range 32).reverse phIdle
  { s with pwr := { s.pwr with due := s.clock } }

/-- An up step drives its rail's EN high after its delay; a rail that is power-good already does not hold the sequence up (R279). -/
def State.upStep (s : State) : State :=
  if s.phase ≠ phUp ∨ s.pwr.wait ∨ s.clock < s.pwr.due then s
  else
    let r := s.stepRail
    let s := s.setEn r true
    let i := s.rd Reg.PWR_SEQ_STATE_STEP
    if s.railGood r then s.toStep (stepsAbove i) phUpDone
    else { s with pwr := { s.pwr with wait := true, limit := s.clock + s.stepTimeout i } }

/-- Rail `r` becomes power-good (R279, R284, R285). -/
def State.railUp (s : State) (r : Nat) : State :=
  if 32 ≤ r ∨ !s.enHigh r ∨ s.railGood r then s
  else
    let s := s.wr Reg.PWR_GOOD_GOOD (bitPut (s.rd Reg.PWR_GOOD_GOOD) r true)
    let s := (s.updRail r fun x => { x with sup := true, run := 0, retry := .none, tries := 0, out := none }).updStations
    if s.phase = phUp ∧ s.pwr.wait ∧ s.stepRail = r then s.toStep (stepsAbove (s.rd Reg.PWR_SEQ_STATE_STEP)) phUpDone else s

/-- The present up step misses `PG_TIMEOUT` (R279). -/
def State.upTimeout (s : State) : State :=
  if s.phase ≠ phUp ∨ !s.pwr.wait ∨ s.clock < s.pwr.limit then s
  else
    let r := s.stepRail
    let s := (s.wr Reg.PWR_SEQ_STATE_PHASE phFailed).wr Reg.PWR_SEQ_STATE_FAIL_RAIL r
    let s := { s with pwr := { s.pwr with wait := false, reset := false } }
    s.raiseInst Reg.PWR_STATUS 2 Reg.PWR_FIRST_SOURCE_SOURCE r

/-- The down sequence begins: no NVM write is in progress, or 5 ms have passed, which cuts it short (R280). -/
def State.downBegin (s : State) : State :=
  if s.phase = phDown ∧ !s.pwr.begun ∧ (s.xsp.job.isNone ∨ s.pwr.limit ≤ s.clock) then
    { s with pwr := { s.pwr with begun := true, due := s.clock }, xsp := { s.xsp with job := none } }
  else s

/-- A down step drives its rail's EN low, and the next comes `DELAY` of this step later (R280). A RESET reaction goes on with the up
sequence (R285). -/
def State.downStep (s : State) : State :=
  if s.phase ≠ phDown ∨ !s.pwr.begun ∨ s.clock < s.pwr.due then s
  else
    let i := s.rd Reg.PWR_SEQ_STATE_STEP
    let s := (s.setEn s.stepRail false).toStep (stepsBelow i) phIdle
    let s := { s with pwr := { s.pwr with due := s.clock + s.stepDelay i } }
    if s.phase = phIdle ∧ s.pwr.reset then s.upSequence false else s

/-! ## Faults (R282 to R287) -/

/-- The snapshot freezes, if it is armed: the source, how it was detected, and the tick (R287). -/
def State.snapshot (s : State) (source : Nat) (cmp high : Bool) : State :=
  if s.on Reg.PWR_SNAP_INFO_VALID then s
  else
    let s := s.wr64 Reg.PWR_SNAP_TIME_LO Reg.PWR_SNAP_TIME_HI s.meridian
    let s := s.wrw Reg.PWR_SNAP_INFO (source + boolNat cmp * 64 + boolNat high * 128 + 256)
    forUpTo 32 s fun s r => s.wrw (Reg.PWR_SNAP r) ((s.railOf r).code + boolNat (s.scanIn r (s.railOf r).code) * 65536)

/-- A GROUP reaction for rail `r`: every rail of its group goes down and stays off (R285). -/
def State.groupReaction (s : State) (r : Nat) : State :=
  let g := s.rd (Reg.PWR_R_CFG_GROUP r)
  forUpTo 32 s fun s q =>
    if s.rd (Reg.PWR_R_CFG_GROUP q) = g then
      let s := (s.setEn q false).updRail q fun x => { x with retry := .none, tries := 0 }
      s.wr Reg.PWR_OFF_FAULT_OFF (bitPut (s.rd Reg.PWR_OFF_FAULT_OFF) q true)
    else s

/-- A RESET reaction begins with the down sequence (R280, R285). -/
def State.resetReaction (s : State) : State :=
  let s := ({ s with pwr := { s.pwr with reset := true } }).downSequence false
  if s.phase = phIdle then s.upSequence false else s

/-- The severity of the reaction of source `r`, a rail or the PLL (R286, R300). -/
def State.reactOf (s : State) (r : Nat) : Nat := if r < 32 then s.rd (Reg.PWR_R_CFG_REACT r) else 3

/-- Fault source `i` of rail `r` sets. Of the rails in fault in one always-on clock `PWR_FIRST_SOURCE` takes the one with the most severe
reaction, then the lowest (R286, R376). -/
def State.railRaise (s : State) (i r : Nat) : State :=
  let old := s.rd Reg.PWR_FIRST_SOURCE_SOURCE
  let worse := s.reactOf old < s.reactOf r || (s.reactOf old = s.reactOf r && decide (r < old))
  let takes := if s.srcs Reg.PWR_STATUS = 0 then true else s.firstNow Reg.PWR_STATUS && worse
  let s := s.raise Reg.PWR_STATUS i
  if takes then s.wr Reg.PWR_FIRST_SOURCE_SOURCE r else s

/-- Rail `r` goes low for `RETRY_MS` after `tries` failed attempts (R285). -/
def State.retryOff (s : State) (r tries : Nat) : State :=
  let ends := s.clock + max 1 (s.rd (Reg.PWR_R_CFG_RETRY_MS r)) * 3000000
  (s.setEn r false).updRail r fun x => { x with retry := .off, tries := tries, due := ends }

/-- The reaction of rail `r` (R285). A RESET that runs overrides it (R286, log 82). -/
def State.railReact (s : State) (r : Nat) : State :=
  if s.pwr.reset then s
  else
    match s.rd (Reg.PWR_R_CFG_REACT r) with
    | 0 => s
    | 1 => s.retryOff r 0
    | 2 => s.groupReaction r
    | _ => s.resetReaction

/-- Rail `r` is in fault: status, snapshot and its reaction (R284 to R287). -/
def State.railFault (s : State) (r : Nat) (cmp high : Bool) : State :=
  let s := (s.inc (Reg.PWR_R_CNT_FAULT_COUNT r)).snapshot r cmp high
  let s := s.railRaise (boolNat high) r
  let s := s.wr Reg.PWR_GOOD_GOOD (bitPut (s.rd Reg.PWR_GOOD_GOOD) r false)
  ((s.updRail r fun x => { x with run := 0, out := some high }).updStations).railReact r

/-- A fault of rail `r` is taken notice of: its EN is high and it is supervised, and a RESET reaction that runs has not taken it down (R284,
R286, log 82). -/
def State.railNoticed (s : State) (r : Nat) : Bool :=
  s.enHigh r && (s.railOf r).sup && (!s.pwr.reset || s.phase = phDown || (s.stepOf r).isNone)

/-- A window comparator sees rail `r` outside its window for its filter time (R282). -/
def State.comparatorFault (s : State) (r : Nat) (high : Bool) : State :=
  if r < 12 ∧ s.railNoticed r then s.railFault r true high else s

/-- The last `SCAN_N` scan readings of rail `r` lie outside its limits (R283). -/
def State.scanFault (s : State) (r : Nat) : State :=
  let x := s.railOf r
  if r < 32 ∧ s.on Reg.PWR_CTRL_EN ∧ s.on (Reg.PWR_R_CFG_SCAN_EN r) ∧ s.railNoticed r
      ∧ max 1 (s.rd (Reg.PWR_R_CFG_SCAN_N r)) ≤ x.run then
    s.railFault r false (decide (s.rd (Reg.PWR_R_SCAN_OV_CODE r) < x.code))
  else s

/-- A failed attempt of rail `r` under RETRY: after `RETRY_MAX` of them the reaction becomes GROUP (R285). -/
def State.retryFailed (s : State) (r : Nat) : State :=
  let n := (s.railOf r).tries + 1
  if max 1 (s.rd (Reg.PWR_R_CFG_RETRY_MAX r)) ≤ n then
    (s.raiseInst Reg.PWR_STATUS 3 Reg.PWR_FIRST_SOURCE_SOURCE r).groupReaction r
  else s.retryOff r n

/-- The clocks that an attempt of rail `r` has to become power-good: `PG_TIMEOUT` of its step, or 10 ms (R285). -/
def State.retryLimit (s : State) (r : Nat) : Nat :=
  match s.stepOf r with
  | some i => s.stepTimeout i
  | none => 30000000

/-- The retry timer of rail `r`: `RETRY_MS` ends and EN goes high again, or the power-good timeout ends an attempt (R285). -/
def State.retryTimer (s : State) (r : Nat) : State :=
  if s.clock < (s.railOf r).due then s
  else
    match (s.railOf r).retry with
    | .none => s
    | .off =>
      let limit := s.clock + s.retryLimit r
      (s.setEn r true).updRail r fun x => { x with retry := .up, due := limit }
    | .up => s.retryFailed r

/-- What the supervisor does at the present clock: the sequence's step, its timeouts, and the retry timers (R279, R280, R285). -/
def State.pwrDue (s : State) : State :=
  let s := ((s.upStep.upTimeout).downBegin).downStep
  forUpTo 32 s State.retryTimer

/-! ## Commands and registers (R288, R289, R303) -/

/-- PWR refuses a command for rail `u` (R288, R376). -/
def State.pwrCmdError (s : State) (u : Nat) : State :=
  if u < 32 then s.raiseInst Reg.PWR_STATUS 5 Reg.PWR_FIRST_SOURCE_SOURCE u else s.raise Reg.PWR_STATUS 5

/-- Commands act on rail `u`: they are enabled and the rail is switchable (R288, R303). -/
def State.railSwitch (s : State) (u : Nat) (act : State → State) : State :=
  if !s.on Reg.PWR_CTRL_EN then s
  else if 32 ≤ u ∨ !s.on (Reg.PWR_R_CFG_SW u) then s.pwrCmdError u
  else act s

/-- An ON reaches rail `u` (R288). -/
def State.pwrOn (s : State) (u : Nat) : State :=
  s.railSwitch u fun s => (s.setEn u true).wr Reg.PWR_OFF_FAULT_OFF (bitPut (s.rd Reg.PWR_OFF_FAULT_OFF) u false)

/-- An OFF reaches rail `u` (R288). -/
def State.pwrOff (s : State) (u : Nat) : State := s.railSwitch u fun s => s.setEn u false

/-- The EN ball of rail `r` is free for other features: no step names the rail and `SW` = 0 (R289). -/
def State.enFree (s : State) (r : Nat) : Bool := (s.stepOf r).isNone && !s.on (Reg.PWR_R_CFG_SW r)

/-- A write of `v` to `PWR_CTRL` (R287). -/
def State.pwrCtrl (s : State) (v : Nat) : State :=
  let s := s.plainWrite Reg.PWR_CTRL v
  if bitAt v 1 then s.wr Reg.PWR_SNAP_INFO_VALID 0 else s

/-- A write of `v` to `PWR_Rr_CFG` (R285, R303). -/
def State.railCfg (s : State) (r v : Nat) : State :=
  let s := s.plainWrite (Reg.PWR_R_CFG r) v
  let s := s.wr (Reg.PWR_R_CFG_RETRY_MAX r) (max 1 (bitsOf v 4 4))
  let s := s.wr (Reg.PWR_R_CFG_RETRY_MS r) (max 1 (bitsOf v 8 8))
  s.wr (Reg.PWR_R_CFG_SCAN_N r) (max 1 (bitsOf v 20 4))

/-- A write of `v` at offset `o` of PWR (R279, R282, R287, R288). -/
def State.pwrWrite (s : State) (o v : Nat) : State :=
  let off := 0x30000 + o
  if o = 0 then s.pwrCtrl v
  else if o = 0x30 ∨ o = 0x34 then (s.plainWrite off v).updStations
  else if 0x40 ≤ o ∧ o < 0xC0 then
    (s.plainWrite off v).wr (Reg.PWR_SEQ_PG_TIMEOUT ((o - 0x40) / 4)) (max 1 (bitsOf v 20 12))
  else if 0x100 ≤ o ∧ o < 0x300 then
    let r := (o - 0x100) / 0x10
    match o % 0x10 with
    | 0x0 => s.railCfg r v
    | 0x8 =>
      if r < 12 then (s.plainWrite off v).wr (Reg.PWR_R_CMP_FILT r) (clamp 1 1000 (bitsOf v 20 10)) else s
    | 0xC =>
      let s := if bitAt v 0 then s.pwrOn r else s
      if bitAt v 1 then s.pwrOff r else s
    | _ => s.plainWrite off v
  else s.plainWrite off v

/-! ## Clock outputs (R301, R302) -/

/-- CLKOUTj runs: enabled, with its ball granted, outside NIGHT, and from the VCO only while the PLL is locked; else it is low (R301). -/
def State.clkRuns (s : State) (j : Nat) : Bool :=
  bitAt (s.rdw (Reg.CLK_OUT_LIVE j)) 16 && s.ballLive (217 + j) 0 && decide (s.dev ≠ stNight)
    && (decide (bitsOf (s.rdw (Reg.CLK_OUT_LIVE j)) 12 2 ≠ 0) || s.on Reg.CLK_PLL_LOCKED)

/-- A clock output configuration keeps R301. -/
def clockLegal (w : Nat) : Bool :=
  let d := bitsOf w 0 12
  let src := bitsOf w 12 2
  let fmt := bitsOf w 14 2
  let f := if src = 0 then 6000 else if src = 1 then 100 else 25
  let top := if fmt = 0 then 1000 else if fmt = 1 then 250 else 200
  decide (src < 3) && decide (fmt < 3) && decide ((if src = 0 then 6 else 1) ≤ d) && decide (f ≤ top * d)

/-- The shadows of all four outputs are applied; one that breaks R301 keeps its live configuration (R302). -/
def State.divApply (s : State) : State :=
  let s := s.wr Reg.CLK_CTRL_COMMIT_PENDING 0
  forUpTo 4 s fun s j =>
    let w := bitsOf (s.rdw (Reg.CLK_OUT_CFG j)) 0 17
    if w = s.rdw (Reg.CLK_OUT_LIVE j) then s
    else if clockLegal w then s.wrw (Reg.CLK_OUT_LIVE j) w
    else s.raise Reg.CLK_STATUS 0

/-- A write of `DIV_COMMIT`: applied at once in DAWN and MORNING, else at the next Gap (R302). -/
def State.divCommit (s : State) : State :=
  let s := s.wr Reg.CLK_CTRL_COMMIT_PENDING 1
  if s.dev = stDawn ∨ s.dev = stMorning then s.divApply else s

/-- A write of `v` at offset `o` of CLK (R302). -/
def State.clkWrite (s : State) (o v : Nat) : State :=
  if o = 0 then (if bitAt v 0 then s.divCommit else s) else s.plainWrite (0x20000 + o) v

end Sys2Proof.Machine
end

