-- ==== Sys2Proof/Machine/Cal.lean ====
section
/-! DEFINITION. Calibration sets (R306 to R316, R323), and the writes to the six blocks they may name. -/

namespace Sys2Proof.Machine

/-! ## Writes to ADC, PRA, BLD, STP, BTM and BMK -/

/-- A write of `v` at offset `o` of BLD. -/
def State.bldWrite (s : State) (o v : Nat) : State :=
  if 0x100 ≤ o then s.bldChannelWrite ((o - 0x100) / 0x40) (o % 0x40) v
  else if o = 0 then s.bldEnable v
  else s.plainWrite (0x160000 + o) v

/-- A write of `v` at offset `o` of STP. -/
def State.stpWrite (s : State) (o v : Nat) : State :=
  if 0x100 ≤ o then s.stpChannelWrite ((o - 0x100) / 0x80) (o % 0x80) v
  else if o = 0 then s.stpEnable v
  else s.plainWrite (0x170000 + o) v

/-- A write of `v` to the register at `off` of one of the blocks that a calibration entry may name, by whatever master (R307). A
station that is fused off takes none (R3). -/
def State.engineWrite (s : State) (off v : Nat) : State :=
  let b := off / 0x10000
  let o := off % 0x10000
  if 13 ≤ b ∧ b ≤ 20 then (if b - 13 < s.stations then s.btmWrite (b - 13) o v else s)
  else if b = 21 then (if 0x1000 ≤ o then s.bmkWrite (o / 0x1000 - 1) (o % 0x1000) v else s.plainWrite off v)
  else if b = 22 then s.bldWrite o v
  else if b = 23 then s.stpWrite o v
  else if b = 24 then s.praWrite o v
  else if b = 25 then s.adcWrite o v
  else s

/-- The block of `off` is one that a calibration entry may name (R307). -/
def calBlock (off : Nat) : Bool := decide (13 ≤ off / 0x10000 ∧ off / 0x10000 ≤ 25)

/-! ## Interpolation (R308) -/

/-- The five temperatures in 1/64 °C (R308). -/
def calTemp (k : Nat) : Int :=
  match k with
  | 0 => -2560
  | 1 => 0
  | 2 => 2560
  | 3 => 5440
  | _ => 8000

/-- The temperature of an entry's zone (R306). -/
def State.zoneTemp (s : State) (z : Nat) : Int := if z < 16 then signedOf (s.rd (Reg.THM_Z_T z)) 16 else s.tmax

/-- Point `p` of entry `n` of bank `b`. -/
def State.calPoint (s : State) (b n p : Nat) : Int := signedOf (s.rdw (Reg.CAL_B_E_P b n p)) 32

/-- The interpolated value of entry `n` of bank `b`, without the clamp to its field (R308). -/
def State.calValue (s : State) (b n : Nat) : Int :=
  let t0 := s.zoneTemp (s.rd (Reg.CAL_B_E_TARGET_ZONE b n))
  let t := if t0 < -2560 then -2560 else if 8000 < t0 then 8000 else t0
  let i := if 5440 ≤ t then 3 else if 2560 ≤ t then 2 else if 0 ≤ t then 1 else 0
  let sp := calTemp (i + 1) - calTemp i
  let d := (s.calPoint b n (i + 1) - s.calPoint b n i) * (t - calTemp i)
  s.calPoint b n i + (2 * d + sp) / (2 * sp)

/-- A value kept within a field of width `w` (R308). -/
def fieldClamp (signed : Bool) (w : Nat) (v : Int) : Int :=
  let lo : Int := if signed then -(2 ^ (w - 1) : Int) else 0
  let hi : Int := if signed then 2 ^ (w - 1) - 1 else 2 ^ w - 1
  if v < lo then lo else if hi < v then hi else v

/-! ## Application (R309 to R313) -/

/-- The fault of entry `n` of bank `b`, as `CAL_SWITCH_ERR.CODE`; 0 where it passes (R313). -/
def State.calFault (s : State) (b n : Nat) : Nat :=
  let off := s.rd (Reg.CAL_B_E_TARGET_OFFSET b n)
  let lsb := s.rd (Reg.CAL_B_E_FIELD_LSB b n)
  let w := s.rd (Reg.CAL_B_E_FIELD_WIDTH_M1 b n) + 1
  if !calBlock off then 1
  else if off % 4 ≠ 0 ∨ !((List.range w).all fun i => decide (31 < lsb + i) || bitAt (regRwMask off) (lsb + i)) then 2
  else if 32 < lsb + w then 3
  else 0

/-- The first valid entry of bank `b` that fails the check of R313, with its code. -/
def State.calCheckBank (s : State) (b : Nat) : Option (Nat × Nat) :=
  ((List.range 64).find? fun n => s.on (Reg.CAL_B_E_TARGET_VALID b n) && s.calFault b n ≠ 0).map fun n => (n, s.calFault b n)

/-- Entry `n` of bank `b` is written to its register, the other bits of which stay (R309). -/
def State.calEntry (s : State) (b n : Nat) : State :=
  if !s.on (Reg.CAL_B_E_TARGET_VALID b n) then s
  else
    let off := s.rd (Reg.CAL_B_E_TARGET_OFFSET b n)
    let w := s.rd (Reg.CAL_B_E_FIELD_WIDTH_M1 b n) + 1
    let raw := s.calValue b n
    let v := fieldClamp (s.on (Reg.CAL_B_E_TARGET_SIGNED b n)) w raw
    let s := if v = raw then s else s.raise Reg.CAL_STATUS 0
    let s := s.wrw (Reg.CAL_E_APPLIED n) (toBits v 32)
    let s := s.engineWrite off (bitsSet (s.rdw off &&& regRwMask off) (s.rd (Reg.CAL_B_E_FIELD_LSB b n)) w (toBits v w))
    if Reg.ADC_A_TRIM 0 ≤ off ∧ off ≤ Reg.ADC_A_TRIM 3 then s.takeTrim ((off - Reg.ADC_A_TRIM 0) / 4) else s

/-- The live bank is applied (R309). -/
def State.calApply (s : State) : State :=
  if s.on Reg.CAL_CTRL_EN then
    let b := s.rd Reg.CAL_CTRL_LIVE
    (forUpTo 64 s fun s n => s.calEntry b n).inc Reg.CAL_APPLY_COUNT_COUNT
  else s

/-- A pending bank switch is checked and made, or refused (R313). -/
def State.calSwitch (s : State) : State :=
  let b := s.rd Reg.CAL_CTRL_NEXT
  if b = s.rd Reg.CAL_CTRL_LIVE then s
  else
    match s.calCheckBank b with
    | none => (s.wr Reg.CAL_CTRL_LIVE b).wr Reg.CAL_CTRL_PENDING 0
    | some (n, c) =>
      let s := s.raise Reg.CAL_STATUS 2
      (s.wr Reg.CAL_SWITCH_ERR_ENTRY n).wr Reg.CAL_SWITCH_ERR_CODE c

/-- Step 4 of R72 and every later application: the switch, then the live bank (R309, R313). -/
def State.calStep (s : State) : State := s.calSwitch.calApply

/-- The application of every 10 ms in DAWN and MORNING, the periods counted from the lock of the PLL (R309, log 83). -/
def State.calTick (s : State) : State :=
  if s.clock < s.due.cal then s
  else
    let next := s.clock + 30000000
    let s := { s with due := { s.due with cal := next } }
    if s.counting ∧ (s.dev = stDawn ∨ s.dev = stMorning) then s.calStep else s

/-- A write of `v` to `CAL_CTRL`: a bank switch is made at once in DAWN and MORNING, with an application (R72, R309, R313). -/
def State.calCtrl (s : State) (v : Nat) : State :=
  let s := s.plainWrite Reg.CAL_CTRL v
  let wants := s.rd Reg.CAL_CTRL_NEXT ≠ s.rd Reg.CAL_CTRL_LIVE
  let s := s.wr Reg.CAL_CTRL_PENDING (boolNat (decide wants))
  if wants ∧ (s.dev = stDawn ∨ s.dev = stMorning) then
    let t := s.calSwitch
    if t.on Reg.CAL_CTRL_PENDING then t else t.calApply
  else s

/-! ## Acceptance by repeat (R314 to R316) -/

/-- Measurement and repeat agree (R314). -/
def calAgree (kind : Nat) (a b : Int) (tol : Nat) : Bool :=
  let d := (a - b).natAbs
  match kind with
  | 0 => decide (d * 200 ≤ a.natAbs)
  | 1 => decide (d ≤ 2)
  | 2 => decide (d * 100 ≤ a.natAbs)
  | _ => decide (d ≤ tol)

/-- The accepted value goes into entry `n` of the bank that is not live (R315). -/
def State.calInstall (s : State) (n : Nat) : State :=
  let b := 1 - s.rd Reg.CAL_CTRL_LIVE
  let v := signedOf (s.rdw Reg.CAL_CHECK_VALUE) 32
  if s.on Reg.CAL_CHECK_CTRL_MODE then
    let d := v - s.calValue b n
    forUpTo 5 s fun s p => s.wrw (Reg.CAL_B_E_P b n p) (toBits (fitInt (s.calPoint b n p + d)) 32)
  else s.wrw (Reg.CAL_B_E_P b n (s.rd Reg.CAL_CHECK_CTRL_POINT)) (toBits v 32)

/-- A `GO` of a check (R314, R315). -/
def State.calCheck (s : State) : State :=
  let kind := s.rd Reg.CAL_CHECK_CTRL_KIND
  let mode := s.rd Reg.CAL_CHECK_CTRL_MODE
  let point := s.rd Reg.CAL_CHECK_CTRL_POINT
  let entry := s.rd Reg.CAL_CHECK_CTRL_ENTRY
  let a := s.rdw Reg.CAL_CHECK_A
  let b := s.rdw Reg.CAL_CHECK_B
  if mode = 0 ∧ 4 < point then s.wr Reg.CAL_CHECK_STATUS_RESULT 3
  else if calAgree kind (signedOf a 32) (signedOf b 32) (s.rd Reg.CAL_CHECK_TOL_TOL) then
    ((s.calInstall entry).wr Reg.CAL_CHECK_STATUS_RESULT 1).inc Reg.CAL_CNT_ACCEPT_COUNT
  else
    let s := ((s.wr Reg.CAL_CHECK_STATUS_RESULT 2).inc Reg.CAL_CNT_REJECT_COUNT).raise Reg.CAL_STATUS 3
    s.vesper 0x0501 0 5 (entry + kind * 256 + mode * 4096 + point * 65536) a b (s.rdw Reg.CAL_CHECK_VALUE)

/-- A write of `v` to `CAL_CHECK_CTRL` (R314). -/
def State.calCheckCtrl (s : State) (v : Nat) : State :=
  let s := s.plainWrite Reg.CAL_CHECK_CTRL v
  if bitAt v 0 then s.calCheck else s

/-- A write of `v` at offset `o` of CAL: the live bank takes none (R306, R323). -/
def State.calWrite (s : State) (o v : Nat) : State :=
  if 0x1000 ≤ o then
    let b := (o - 0x1000) / 0x800
    if b = s.rd Reg.CAL_CTRL_LIVE then s.raise Reg.CAL_STATUS 1
    else
      let s := s.plainWrite (0x50000 + o) v
      if o % 0x20 = 0 then s.wr (Reg.CAL_B_E_TARGET_ZONE b (o % 0x800 / 0x20)) (min 16 (bitsOf v 24 5)) else s
  else if o = 0 then s.calCtrl v
  else if o = 0x10 then s.calCheckCtrl v
  else s.plainWrite (0x50000 + o) v

end Sys2Proof.Machine
end

