-- ==== Sys2Proof/Machine/Sha.lean ====
section
/-! DEFINITION. SHA-256 and HMAC-SHA-256, which the consumable authentication names (R318). R318 names the functions and does not write
them out: they stand here as published, each constant computed from what defines it (log 31). -/

namespace Sys2Proof.Machine

/-! ## The constants -/

/-- The primes below 312: the first 64. -/
def primes64 : List Nat := (List.range 312).filter fun n => decide (1 < n) && (List.range n).all fun d => d < 2 || n % d ≠ 0

/-- The largest `r` with `r ^ k ≤ v` that agrees with `acc` above its `bits` lowest bits. -/
def rootBits (k v : Nat) : (bits acc : Nat) → Nat
  | 0, acc => acc
  | i + 1, acc => rootBits k v i (if (acc + 2 ^ i) ^ k ≤ v then acc + 2 ^ i else acc)

/-- The first 32 bits of the fraction of the `k`-th root of `p`. -/
def rootFraction (k p : Nat) : RegWord := BitVec.ofNat 32 (rootBits k (p * 2 ^ (32 * k)) 37 0)

/-- The hash before the first block: from the square roots of the first 8 primes. -/
def shaStart : List RegWord := (primes64.take 8).map (rootFraction 2)

/-- The constant of each of the 64 rounds: from the cube roots of the first 64 primes. -/
def shaRoundWords : List RegWord := primes64.map (rootFraction 3)

/-! ## A block -/

/-- A word rotated right by each of the amounts, and added without carries. -/
def rotations (x : RegWord) (amounts : List Nat) : RegWord := amounts.foldl (fun acc n => acc ^^^ x.rotateRight n) 0

/-- The message words, newest first, extended by `n` more. -/
def messageWords : (n : Nat) → List RegWord → List RegWord
  | 0, l => l
  | n + 1, l =>
    let at_ (i : Nat) : RegWord := l.getD (i - 1) 0
    let near := rotations (at_ 2) [17, 19] ^^^ (at_ 2 >>> 10)
    let far := rotations (at_ 15) [7, 18] ^^^ (at_ 15 >>> 3)
    messageWords n ((near + at_ 7 + far + at_ 16) :: l)

/-- One round on the eight working words, with the sum of its constant and its message word. -/
def shaRound (kw : RegWord) : List RegWord → List RegWord
  | [a, b, c, d, e, f, g, h] =>
    let pick := g ^^^ (e &&& (f ^^^ g))
    let most := (a &&& (b ||| c)) ||| (b &&& c)
    let step := kw + h + rotations e [6, 11, 25] + pick
    [step + rotations a [2, 13, 22] + most, a, b, c, d + step, e, f, g]
  | other => other

/-- The hash after a block of 16 message words. -/
def shaBlock (hash block : List RegWord) : List RegWord :=
  let words := (messageWords 48 block.reverse).reverse
  let sums := shaRoundWords.zipWith (· + ·) words
  hash.zipWith (· + ·) (sums.foldl (fun x kw => shaRound kw x) hash)

/-! ## A message -/

/-- The bytes of number `v`, the most significant of `n` first. -/
def bigBytes (n v : Nat) : List Byte := (leBytes n v).reverse

/-- The first `n` words of a string of bytes, the first byte of each most significant. -/
def bigWords : (n : Nat) → List Byte → List RegWord
  | 0, _ => []
  | n + 1, b => BitVec.ofNat 32 (ofLe (b.take 4).reverse) :: bigWords n (b.drop 4)

/-- The hash after `n` blocks of a padded message. -/
def shaBlocks : (n : Nat) → List RegWord → List Byte → List RegWord
  | 0, hash, _ => hash
  | n + 1, hash, b => shaBlocks n (shaBlock hash (bigWords 16 b)) (b.drop 64)

/-- SHA-256 of a byte string. -/
def sha256 (m : List Byte) : List Byte :=
  let blocks := (m.length + 8) / 64 + 1
  let zeros := 64 * blocks - 9 - m.length
  let padded := m ++ (0x80 :: List.replicate zeros 0) ++ bigBytes 8 (8 * m.length)
  (shaBlocks blocks shaStart padded).flatMap fun w => bigBytes 4 w.toNat

/-- HMAC-SHA-256 with a key of at most 64 bytes. -/
def hmacSha256 (key m : List Byte) : List Byte :=
  let padded (x : Byte) : List Byte := (List.range 64).map fun i => key.getD i 0 ^^^ x
  sha256 (padded 0x5C ++ sha256 (padded 0x36 ++ m))

end Sys2Proof.Machine
end

