-- ==== Sys2Proof/Machine/Csm.lean ====
section
/-! DEFINITION. Consumable authentication and the page counters (R317 to R322, R324). -/

namespace Sys2Proof.Machine

/-- The state of unit `u` (R324): 0 idle, 1 authenticating, 2 AUTH_OK, 3 AUTH_FAIL. -/
def State.unitState (s : State) (u : Nat) : Nat := s.rd (Reg.CSM_U_STATE_STATE u)

/-- Source `i` of CSM sets, raised by unit `u` (R324, R376). -/
def State.csmRaise (s : State) (i u : Nat) : State := s.raiseInst Reg.CSM_STATUS i Reg.CSM_FIRST_UNIT_UNIT u

/-- An `AUTH` write to unit `u` draws a challenge and starts the authentication; while one runs it is ignored (R318, R322). -/
def State.csmAuth (s : State) (u : Nat) : State :=
  if !s.on Reg.CSM_CTRL_EN ∨ !s.on (Reg.CSM_U_CFG_EN u) ∨ s.unitState u = 1 then s
  else
    let d := s.csm.draws
    let reads := s.clock + max 1 (s.rd Reg.CSM_AUTH_WAIT_MS) * 3000000
    let s := { s with csm := { draws := d + 1, drawn := s.csm.drawn.setIfInBounds u d,
                               replyAt := s.csm.replyAt.setIfInBounds u reads } }
    s.wr (Reg.CSM_U_STATE_STATE u) 1

/-- The challenge of unit `u` (R318). -/
def State.challenge (s : State) (u : Nat) : List Byte :=
  match s.csm.drawn[u]? with
  | some d => (List.range 32).map (Config.entropy d)
  | none => []

/-- Key `k` in OTP, as 32 bytes (R318). -/
def State.otpKey (s : State) (k : Nat) : List Byte := leBytes 32 (sparseGet (fun _ => 0) s.aon.otpKeys k)

/-- The MAC that unit `u` must return for its UID (R318). -/
def State.expectedMac (s : State) (u : Nat) (uid : List Byte) : List Byte :=
  hmacSha256 (hmacSha256 (s.otpKey (s.rd (Reg.CSM_U_CFG_KEYSLOT u))) uid) (s.challenge u ++ uid)

/-! ## Counter cells (R320, R321) -/

/-- The address of cell `c` of unit `u` (R320). -/
def State.cellAddr (s : State) (u c : Nat) : Nat := s.rdw Reg.CSM_NVM_BASE + 512 * u + 32 * c

/-- The 16 bytes of a copy of a cell (R320). -/
def cellCopy (count uid : Nat) : List Byte :=
  let b := leBytes 4 count ++ leBytes 8 uid
  b ++ leBytes 4 (crc32c b)

/-- The count in a copy that passes its CRC and carries `uid` (R320). -/
def copyCount (uid : Nat) (b : List Byte) : Option Nat :=
  if ofLe (b.drop 12) = crc32c (b.take 12) ∧ ofLe ((b.drop 4).take 8) = uid then some (ofLe (b.take 4)) else none

/-- The count of cell `c` of unit `u`, if either copy is valid; of two valid copies the larger counts (R320). -/
def State.cellCount (s : State) (u c uid : Nat) : Option Nat :=
  let a := s.cellAddr u c
  match copyCount uid (s.nvmRead a 16), copyCount uid (s.nvmRead (a + 16) 16) with
  | some x, some y => some (max x y)
  | some x, none => some x
  | none, y => y

/-- The UID of unit `u`. -/
def State.unitUid (s : State) (u : Nat) : Nat := s.rd64 (Reg.CSM_U_UID_LO u) (Reg.CSM_U_UID_HI u)

/-- The count of unit `u` is loaded from its valid cells (R320). -/
def State.csmLoad (s : State) (u uid : Nat) : State :=
  let cells := (List.range 16).map fun c => s.cellCount u c uid
  let count := (cells.map fun x => x.getD 0).foldl max 0
  let valid := (List.range 16).foldl (fun m c => bitPut m c ((cells.getD c none).isSome)) 0
  let s := (s.wrw (Reg.CSM_U_COUNT u) count).wrw (Reg.CSM_U_CELLS u) valid
  s.wr (Reg.CSM_U_STATE_NEXT_CELL u) ((count + 1) % 16)

/-- Unit `u` proves itself with `uid`: another UID discards the pending increments (R318, R322). -/
def State.csmAccept (s : State) (u uid : Nat) : State :=
  let s := if s.unitUid u = uid then s else s.wr (Reg.CSM_U_STATE_PENDING u) 0
  let s := (s.wr64 (Reg.CSM_U_UID_LO u) (Reg.CSM_U_UID_HI u) uid).wr (Reg.CSM_U_STATE_STATE u) 2
  (s.wr (Reg.CSM_U_STATE_LAST_ERR u) 0).csmLoad u uid

/-- The response of unit `u` is read `CSM_AUTH_WAIT` after its challenge was written, not before (R318). -/
def State.replyEarly (s : State) (u : Nat) (r : ChipReply) : Bool :=
  match r with
  | .data _ => decide (s.clock < s.csm.replyAt.toList.getD u 0)
  | .error _ => false

/-- The answer of unit `u`'s chip: the MAC is checked, or the transaction ended in an error, which ends the authentication (R317,
R318, log 31). -/
def State.authReply (s : State) (u : Nat) (r : ChipReply) : State :=
  if 16 ≤ u ∨ s.unitState u ≠ 1 ∨ s.replyEarly u r then s
  else
    match r with
    | .error e => ((s.wr (Reg.CSM_U_STATE_STATE u) 0).wr (Reg.CSM_U_STATE_LAST_ERR u) (e.val + 1)).csmRaise 1 u
    | .data b =>
      let uid := b.take 8
      if b.length = 40 ∧ b.drop 8 = s.expectedMac u uid then s.csmAccept u (ofLe uid)
      else ((s.wr (Reg.CSM_U_STATE_STATE u) 3).wr (Reg.CSM_U_STATE_LAST_ERR u) 4).csmRaise 0 u

/-- A write of `v` to `CSM_Uu_CTRL`: where both are written, the increment comes before the authentication (R321, R322). -/
def State.csmUnitCtrl (s : State) (u v : Nat) : State :=
  let s := if bitAt v 1 then s.csmInc u else s
  if bitAt v 0 then s.csmAuth u else s

/-- A write of `v` at offset `o` of CSM (R324). -/
def State.csmWrite (s : State) (o v : Nat) : State :=
  if 0x100 ≤ o ∧ o < 0x300 ∧ o % 0x20 = 4 then s.csmUnitCtrl ((o - 0x100) / 0x20) v
  else if o = 0x14 then s.wr Reg.CSM_AUTH_WAIT_MS (max 1 (bitsOf v 0 8))
  else s.plainWrite (0x1E0000 + o) v

end Sys2Proof.Machine
end

