-- ==== Sys2Proof/Machine/Jrn.lean ====
section
/-! DEFINITION. The xSPI controller and the journal in NVM (R335 to R346, R348 to R352). -/

namespace Sys2Proof.Machine

/-! ## The xSPI controller (R348, R349, R352) -/

/-- NVM writes may start: `XSP_CTRL.EN`, and the NVM window is open (R296, R349). -/
def State.nvmOpen (s : State) : Bool := s.on Reg.XSP_CTRL_EN && s.on Reg.THM_STATE_NVM_OK

/-- The bytes that a transaction takes over at `a`, where they are `bs`: on A0 the first one after EVENING can be latched wrongly (R349,
A0-10). -/
def State.xspLatch (s : State) (a : Nat) (bs : List Byte) : List Byte :=
  if s.xsp.first then (List.range bs.length).map (Config.latchedByte a) else bs

/-- The delay lines settle on the first strobe they see (R349). -/
def State.xspSettled (s : State) : State := { s with xsp := { s.xsp with first := false } }

/-- A program operation at `a` (R349, R352). -/
def State.xspProgram (s : State) (a : Nat) (bs : List Byte) : State :=
  ((s.nvmWrite a (s.xspLatch a bs)).xspSettled).inc Reg.XSP_CNT_WRITES_COUNT

/-- A failed program operation is reported (R352). -/
def State.xspFail (s : State) (r : NvmResult) : State :=
  match r with
  | .ok => s
  | .differs => s.raise Reg.XSP_STATUS 1
  | .timeout => s.raise Reg.XSP_STATUS 0

/-- A `GO` of a manual read; one while it is busy starts nothing (R352). -/
def State.xspGo (s : State) : State := s.wr Reg.XSP_CMD_BUSY 1

/-- The manual read completes (R349, R352). -/
def State.xspDone (s : State) : State :=
  if !s.on Reg.XSP_CMD_BUSY then s
  else
    let a := s.rdw Reg.XSP_CMD_ADDR
    let n := s.rd Reg.XSP_CMD_LEN
    let read := s.xspLatch a (s.nvmRead a 4)
    let b := (List.range 4).map fun i => if n ≤ i then Config.unreadByte a i else read.getD i 0
    (s.xspSettled.wrw Reg.XSP_CMD_DATA (ofLe b)).wr Reg.XSP_CMD_BUSY 0

/-! ## Entries in NVM (R336, R337, R342) -/

/-- The number of entries of the journal in NVM (R336). -/
def State.jrnSize (s : State) : Nat := 2 ^ s.rd Reg.JRN_SIZE_LOG2_N

/-- The `SEQ` of a 64-byte copy that is valid in slot `slot` (R336). -/
def State.copySeq (s : State) (slot : Nat) (b : List Byte) : Option Nat :=
  let q := ofLe (b.take 6)
  if ofLe (b.drop 60) = crc32c (b.take 60) ∧ q % s.jrnSize = slot then some q else none

/-- The entry of slot `slot` of the ring whose copies start at `a` and `b`: the valid copy with the higher `SEQ` (R336). -/
def State.slotEntry (s : State) (a b slot : Nat) : Option (Nat × List Byte) :=
  let x := s.xspLatch (a + 64 * slot) (s.nvmRead (a + 64 * slot) 64)
  let y := s.nvmRead (b + 64 * slot) 64
  match s.copySeq slot x, s.copySeq slot y with
  | some p, some q => if p < q then some (q, y) else some (p, x)
  | some p, none => some (p, x)
  | none, some q => some (q, y)
  | none, none => none

/-- The slot that NVM address `x` lies in, of a ring copy that starts at `base`. -/
def slotAt (base n x : Nat) : Option Nat := if base ≤ x ∧ x < base + 64 * n then some ((x - base) / 64) else none

/-- The slots of the ring that hold any written byte: the others read as erased and have no valid copy (R336). -/
def State.writtenSlots (s : State) (a b : Nat) : List Nat :=
  let n := s.jrnSize
  (s.nvm.foldl (fun acc c =>
    let acc := match slotAt a n c.1 with
      | some i => if acc.contains i then acc else i :: acc
      | none => acc
    match slotAt b n c.1 with
      | some i => if acc.contains i then acc else i :: acc
      | none => acc) []).reverse

/-- The sequence numbers of the valid slots of the ring (R337). -/
def State.validSeqs (s : State) : List Nat :=
  let a := s.rdw Reg.JRN_BASE_A
  let b := s.rdw Reg.JRN_BASE_B
  (s.writtenSlots a b).filterMap fun i => (s.slotEntry a b i).map Prod.fst

/-- The DAWN scan ends: the next, durable and oldest sequence numbers and the gaps are set, and the entries that waited for a number
take theirs, the BOOT entry of this DAWN last (R335, R337). -/
def State.jrnScan (s : State) : State :=
  if s.dev ≠ stDawn ∨ s.jrn.scanned ∨ !s.coreClock then s
  else
    let l := s.validSeqs
    let hi := l.foldl max 0
    let lo := l.foldl min hi
    let gaps := if l.isEmpty then 0 else hi - lo + 1 - l.length
    let s := s.wr64 Reg.JRN_NEXT_SEQ_LO Reg.JRN_NEXT_SEQ_HI (fitNat 48 (hi + 1))
    let s := (s.wr64 Reg.JRN_DURABLE_SEQ_LO Reg.JRN_DURABLE_SEQ_HI hi).wr64 Reg.JRN_OLDEST_SEQ_LO Reg.JRN_OLDEST_SEQ_HI lo
    let s := s.wrw Reg.JRN_GAPS (fitNat 32 gaps)
    let s := if gaps = 0 then s else s.raise Reg.JRN_STATUS 4
    let early := s.jrn.prescan
    let s := { s with jrn := { s.jrn with scanned := true, prescan := [] } }
    (forEach early s fun s e => s.jrnNumber e).jrnBoot

/-! ## Moving entries to NVM (R338, R339) -/

/-- `JRN_DURABLE_SEQ` (R331). -/
def State.jrnDurable (s : State) : Nat := s.rd64 Reg.JRN_DURABLE_SEQ_LO Reg.JRN_DURABLE_SEQ_HI

/-- An entry is kept in the DRAM ring after it has reached NVM; the last 65,536 stay (R338). -/
def State.jrnKeep (s : State) (e : JrnEntry) : State :=
  let l := s.jrn.kept ++ [e]
  { s with jrn := { s.jrn with kept := l.drop (l.length - 65536) } }

/-- Both copies of an entry are in NVM: the durable and oldest sequence numbers follow (R331, R336). -/
def State.jrnWritten (s : State) (e : JrnEntry) : State :=
  let lowest := ((s.jrn.ring ++ s.jrn.night).map JrnEntry.seq).foldl min s.jrnNext
  let d := max s.jrnDurable (lowest - 1)
  let s := s.wr64 Reg.JRN_DURABLE_SEQ_LO Reg.JRN_DURABLE_SEQ_HI d
  let o := s.rd64 Reg.JRN_OLDEST_SEQ_LO Reg.JRN_OLDEST_SEQ_HI
  let o := if o = 0 then e.seq else max o (e.seq + 1 - s.jrnSize)
  ((s.wr64 Reg.JRN_OLDEST_SEQ_LO Reg.JRN_OLDEST_SEQ_HI o).inc Reg.JRN_CNT_WRITES_COUNT).count 26 0 1

/-- The writes of an entry: copy A in full before copy B (R336, R339). -/
def State.jrnCopies (s : State) (e : JrnEntry) : List (Nat × List Byte) :=
  let slot := e.seq % s.jrnSize
  let hold := if s.aon.holdUp then 4 else 0
  [(s.rdw Reg.JRN_BASE_A + 64 * slot, e.bytes hold), (s.rdw Reg.JRN_BASE_B + 64 * slot, e.bytes (hold + 1))]

/-- The start of the mirror ring's copy B: it follows copy A (R346, log 13). -/
def State.mirrorB (s : State) : Nat := s.rdw Reg.JRN_MIRROR_BASE + 64 * s.jrnSize

/-- The writes of an entry of the mate, bytes `b`, in the mirror ring: copies that carry `FLAGS` bit 1 (R335, R346). -/
def State.mirrorCopies (s : State) (b : List Byte) : List (Nat × List Byte) :=
  let slot := ofLe (b.take 6) % s.jrnSize
  let flagged (copy : Nat) : List Byte :=
    let h := b.take 7 ++ [(b.getD 7 0 &&& 0xFE ||| 2) ||| BitVec.ofNat 8 copy] ++ (b.drop 8).take 52
    h ++ leBytes 4 (crc32c h)
  [(s.rdw Reg.JRN_MIRROR_BASE + 64 * slot, flagged 0), (s.mirrorB + 64 * slot, flagged 1)]

/-- JRN may write now: in a thermal hold-up whatever the window, else while it is enabled and NVM writes may start (R298, R338). -/
def State.jrnWrites (s : State) : Bool := s.jrn.scanned && (s.aon.holdUp || (s.on Reg.JRN_CTRL_EN && s.nvmOpen))

/-- The JOURNAL_ACK of a mate's entry (R346, R359). -/
def State.sendAck (s : State) (dst seq : Nat) : State :=
  let payload := leBytes 6 seq ++ [0, 0] ++ leBytes 8 s.meridian ++ List.replicate 16 0
  s.fabEvent { cls := 2, kind := 2, dst := dst, src := s.devId, vc := 0, tag := 0, addr := 0, payload := payload }

/-! ## Reading the journal (R342) -/

/-- The entry of sequence number `q` in the DRAM ring (R338). -/
def State.jrnHeld (s : State) (q : Nat) : Option JrnEntry := (s.jrn.kept ++ s.jrn.ring ++ s.jrn.night).find? fun e => e.seq = q

/-- The 64 bytes that JOURNAL_READ gives for sequence number `q`, if the device holds the entry (R338, R342). -/
def State.jrnFetch (s : State) (q : Nat) : Option (List Byte) :=
  match s.jrnHeld q with
  | some e => some (e.bytes 0)
  | none =>
    match s.slotEntry (s.rdw Reg.JRN_BASE_A) (s.rdw Reg.JRN_BASE_B) (q % s.jrnSize) with
    | some (p, b) => if p = q then some b else none
    | none => none

/-- The 64 bytes of entry `q` in the mirror that this device keeps for its mate (R342, R346). -/
def State.mirrorFetch (s : State) (q : Nat) : Option (List Byte) :=
  match s.slotEntry (s.rdw Reg.JRN_MIRROR_BASE) s.mirrorB (q % s.jrnSize) with
  | some (p, b) => if p = q then some b else none
  | none => none

/-- The highest sequence number in the mirror (R342, log 35). -/
def State.mirrorTop (s : State) : Nat :=
  let a := s.rdw Reg.JRN_MIRROR_BASE
  ((s.writtenSlots a s.mirrorB).filterMap fun i => (s.slotEntry a s.mirrorB i).map Prod.fst).foldl max 0

/-! ## The mated pair (R346) -/

/-- The entries that the mate has not acknowledged are all sent again, in order (R346). -/
def State.mateResend (s : State) : State :=
  let by_ := s.clock + 3000000
  let l := s.jrn.unacked
  let s := { s with jrn := { s.jrn with unacked := l.map fun e => (by_, e.2) } }
  forEach l s fun s e => s.fabWrite (s.rd Reg.JRN_MATE_MATE_ID) (2 * 2 ^ 28 + e.2.seq % 2 ^ 28) 0 (e.2.bytes 2)

/-- A JOURNAL_ACK of entry `q` arrives. A mate that answers again is sent every entry it has not acknowledged (R346). -/
def State.mateAck (s : State) (q : Nat) : State :=
  let was := s.jrn.mateLost
  let s := { s with jrn := { s.jrn with unacked := s.jrn.unacked.filter fun e => e.2.seq ≠ q, mateLost := false } }
  if was then s.mateResend else s

/-- No acknowledgement of an entry has come within 1 ms (R346). -/
def State.mateSilent (s : State) : State :=
  if s.on Reg.JRN_MATE_EN ∧ (s.jrn.unacked.any fun e => decide (e.1 ≤ s.clock)) ∧ !s.jrn.mateLost then
    ({ s with jrn := { s.jrn with mateLost := true } }).raise Reg.JRN_STATUS 2
  else s

/-! ## Register writes (R351) -/

/-- A write of `v` at offset `o` of JRN. -/
def State.jrnWrite (s : State) (o v : Nat) : State :=
  if o = 0x14 then
    let n := bitsOf v 0 5
    s.wr Reg.JRN_SIZE_LOG2_N (if 12 ≤ n ∧ n ≤ 22 then n else 20)
  else s.plainWrite (0x1C0000 + o) v

end Sys2Proof.Machine
end

