-- ==== Sys2Proof/Machine/FabMem.lean ====
section
/-! DEFINITION. The fabric's memory traffic: stopped messages, posted writes and reads at the home, late answers, and the ownership
class (R91 to R98, R357 to R370). -/

namespace Sys2Proof.Machine

/-! ## Answers and stopped messages (R361, R368) -/

/-- An answer of this device to device `dst`; it is lost where no route stands (R368). -/
def State.fabReply (s : State) (cls kind dst tag addr : Nat) (payload : List Byte) : State :=
  match s.fabRoute dst with
  | some p =>
    s.fabQueue p { cls := cls, kind := kind, dst := dst, src := s.devId, vc := 0, tag := tag, addr := addr, payload := payload }
  | none => s

/-- The tag of a READ_ERR with `code` for a read of tag `tag` (R357). -/
def errTag (tag code : Nat) : Nat := tag / 16 * 16 + code

/-- The channel of a fence read (R141). -/
def fenceChannel (tag : Nat) : Nat := tag % 2 ^ 24 / 16

/-- A read of this device fails with `code` of READ_ERR: its DMA channel halts (R142, R357); a read that has timed out is over. -/
def State.readFailed (s : State) (tag code : Nat) : State :=
  match s.fab.reads.find? fun r => r.tag / 16 = tag / 16 with
  | some r =>
    let s := { s with fab := { s.fab with reads := s.fab.reads.erase r } }
    if (s.dmaRunning (fenceChannel r.tag)).any fun j => j.mode = 3 then
      s.dmaHalt (fenceChannel r.tag) (if code = 1 then 5 else 4) false r.addr
    else s
  | none => { s with fab := { s.fab with timedOut := s.fab.timedOut.filter fun r => r.tag / 16 ≠ tag / 16 } }

/-- An ABSENT answer to the message of tag `tag` about granule `g` arrives (R91, R98): the SNOOP is over and the pages that wait for the
granule end as for a failed read; an OWNED copy whose EVICT was refused comes back and is sent again later. -/
def State.absentArrives (s : State) (tag g : Nat) : State :=
  if tag = 0 ∨ tag = 1 then
    let mine := s.plain.waitingOn.filter fun x => x.2 = remoteKey g
    let s := { s with plain := { s.plain with snoops := s.plain.snoops.filter fun x => x.1 ≠ g,
                                              waitingOn := s.plain.waitingOn.filter fun x => x.2 ≠ remoteKey g } }
    forEach mine s fun s x => if s.pg x.1 = pgSubmitted then s.withdrawPage x.1 7 0x0A else s
  else if tag = 2 then
    match s.plain.evicted.find? fun x => x.addr = g with
    | some x =>
      let at_ := if s.plain.evictRetry.isEmpty then s.clock + 3000000 else s.due.evict
      { s with plain := { s.plain with evicted := s.plain.evicted.filter fun y => y.addr ≠ g,
                                       rcache := s.plain.rcache ++ [x], evictRetry := s.plain.evictRetry ++ [g] },
               due := { s.due with evict := at_ } }
    | none => s
  else s

/-- A kind of the ownership class that asks or tells, and is answered ABSENT where it stops (R357, R368). -/
def ownRequest (kind : Nat) : Bool := kind = 0 || kind = 2 || kind = 3 || kind = 4 || kind = 5

/-- A message stops at this device and is answered for (R368). -/
def State.fabStopped (s : State) (m : FabMsg) : State :=
  match m.cls with
  | 0 =>
    if m.src = s.devId then
      (s.writeFailed m.src m.tag m.addr 5).leqPush { tag := m.tag, src := s.devId, code := 5, addr := m.addr }
    else s.lateError m.src m.tag m.addr 5
  | 1 =>
    if m.kind ≠ 0 then s
    else if m.src = s.devId then s.readFailed m.tag 4
    else s.fabReply 1 2 m.src (errTag m.tag 4) m.addr []
  | 4 =>
    if !ownRequest m.kind then s
    else if m.src = s.devId then s.absentArrives m.tag m.addr
    else s.fabReply 4 11 m.src m.tag m.addr []
  | 2 => s.inc Reg.FAB_CNT_EV_DROP_COUNT
  | 3 => if m.kind = 0 then s.inc Reg.FAB_CNT_EV_DROP_COUNT else s
  | _ => s

/-- A message for another device goes on by its route, or stops here (R361). -/
def State.fabForward (s : State) (m : FabMsg) : State :=
  match s.fabPort m.dst with
  | some p => s.fabQueue p m
  | none => s.fabStopped m

/-- A port passes messages of class `cls`: the device is not in NIGHT, the port is UP, or past block lock for the Link class, and a
device without an id deals in Link messages alone (R359, R360). -/
def State.fabOpen (s : State) (p cls : Nat) : Bool :=
  s.dev ≠ stNight && s.on Reg.FAB_CTRL_EN && decide (p < 8)
    && (if cls = 5 then decide (2 ≤ s.rd (Reg.FAB_P_STATE_STATE p)) else s.rd (Reg.FAB_P_STATE_STATE p) = 3 && s.on Reg.FAB_ID_VALID)

/-- A message arrives at port `p`: it is taken by `home` if it is for this device, else it goes on (R361). -/
def State.fabArrive (s : State) (p : Nat) (m : FabMsg) (home : State → State) : State :=
  if !s.fabOpen p m.cls then s else if m.dst = s.devId then home s else s.fabForward m

/-- A malformed message is discarded and counted (R356). -/
def State.malformed (s : State) : State := s.inc Reg.FAB_CNT_MALFORMED_COUNT

/-! ## At the home (R92, R98, R365 to R370, R421) -/

/-- The Plain of this device does not serve others now: not remote, off, or fenced or in EVENING, which a request that it accepted before
(`taken`) no longer meets (R98, R367, R421). -/
def State.plainShut (s : State) (taken : Bool) : Bool :=
  (!taken && (s.dev = stEvening || s.on Reg.STR_PLN_CTRL_DEVICE_FENCE))
    || !s.on Reg.STR_PLN_CTRL_REMOTE_EN || !s.on Reg.STR_PLN_CTRL_EN

/-- Where Plain address `a` stands at this home; an address that another device homes is none of it (log 37). -/
def State.homeStatus (s : State) (a : Nat) : PlainStatus := if plainDev a = s.plainId then s.plainStatus a else .absent

/-- A message waits at the home for its data. -/
def State.waitHere (s : State) (m : FabMsg) : State := { s with fab := { s.fab with waitIn := s.fab.waitIn ++ [m] } }

/-- A message has to stay behind one that waits here (R94, R358): of the same source and class, or a read behind a write. -/
def State.behind (s : State) (m : FabMsg) : Bool :=
  s.fab.waitIn.any fun w => w.src = m.src && (w.cls = m.cls || (w.cls = 0 && m.cls = 1))

/-- The local addresses of the 64-byte blocks of `n` bytes at Plain address `a` that hold an uncorrectable error, if any. -/
def State.plainBad (s : State) (a n : Nat) : Bool :=
  (blocks64 a n).any fun b => match s.plainStatus b with
    | .atLocal l => s.blockBad l
    | _ => false

/-- The length and place of a WRITE are legal (R357). -/
def writeLegal (m : FabMsg) : Bool :=
  let n := m.payload.length
  (n = 64 || n = 128 || n = 192 || n = 256) && m.addr % 64 = 0 && decide (m.addr % 4096 + n ≤ 4096)

/-- A journal entry of the mate waits for its mirror write; from any other device it fails (R346, R366, R367, log 37). -/
def State.mirrorArrives (s : State) (m : FabMsg) : State :=
  if s.on Reg.JRN_MATE_EN ∧ s.rd Reg.JRN_MATE_MATE_ID = m.src ∧ m.payload.length = 64 then
    { s with jrn := { s.jrn with mirror := s.jrn.mirror ++ [(m.src, m.tag, m.payload)] } }
  else s.lateError m.src m.tag m.addr 6

/-- A posted WRITE at its home (R365 to R367). -/
def State.homeWrite (s : State) (m : FabMsg) (taken : Bool) : State :=
  if !writeLegal m then s.malformed
  else if m.tag / 2 ^ 28 = 2 then s.mirrorArrives m
  else if s.plainShut taken then s.lateError m.src m.tag m.addr 3
  else if s.behind m then s.waitHere m
  else
    match s.homeStatus m.addr with
    | .invalid => (s.plainTouch m.addr).lateError m.src m.tag m.addr 2
    | .missing => if s.plainPinned m.addr then s.lateError m.src m.tag m.addr 1 else (s.plainTouch m.addr).waitHere m
    | .atLocal _ =>
      if s.plainPinned m.addr then s.lateError m.src m.tag m.addr 1
      else if s.plainBad m.addr m.payload.length then s.lateError m.src m.tag m.addr 4
      else s.plainStore m.addr m.payload
    | _ => s.lateError m.src m.tag m.addr 2

/-- The bytes that a READ_REQ asks for (R357). -/
def readLen (tag : Nat) : Nat := tag / 2 ^ 24 % 256 * 64

/-- A READ_REQ at its home (R357, R358, R421). -/
def State.homeRead (s : State) (m : FabMsg) (taken : Bool) : State :=
  let n := readLen m.tag
  let fail (s : State) (code : Nat) : State := s.fabReply 1 2 m.src (errTag m.tag code) m.addr []
  if n = 0 ∨ 256 < n then s.malformed
  else if s.plainShut taken then fail s 1
  else if s.behind m then s.waitHere m
  else
    match s.homeStatus m.addr with
    | .invalid => fail (s.plainTouch m.addr) 2
    | .missing => (s.plainTouch m.addr).waitHere m
    | .atLocal _ => if s.plainBad m.addr n then fail s 3 else s.fabReply 1 1 m.src m.tag m.addr (s.plainRead m.addr n)
    | _ => fail s 2

/-! ## Ownership at the home (R91 to R95) -/

/-- The tag of a RECALL; SNOOPs carry their intent, 0 or 1, and a spontaneous EVICT 2 (log 13). -/
def recallTag : Nat := 5

/-- The tracking entry of granule `g`. -/
def State.dirEntry (s : State) (g : Nat) : Option DirEntry := s.plain.dir.find? fun d => d.addr = g

/-- `s` with the tracking entry of granule `g` changed by `f`; one that names no device any more is free. -/
def State.dirPut (s : State) (g : Nat) (f : DirEntry → DirEntry) : State :=
  let d := f ((s.dirEntry g).getD { addr := g, sharers := [], owner := none, pinners := [] })
  let rest := s.plain.dir.filter fun e => e.addr ≠ g
  let used := !(d.sharers.isEmpty && d.owner.isNone && d.pinners.isEmpty)
  { s with plain := { s.plain with dir := if used then rest ++ [d] else rest } }

/-- The home answers a SNOOP of device `req` for granule `g` with its data, as message `kind` (R91, R94). -/
def State.grantGranule (s : State) (req tag g : Nat) (intentO : Bool) (kind : Nat) : State :=
  let take (d : DirEntry) : DirEntry :=
    if intentO then { d with sharers := [], owner := some req }
    else { d with sharers := if d.sharers.contains req then d.sharers else d.sharers ++ [req], owner := none }
  (s.dirPut g take).fabReply 4 kind req tag g (s.plainRead g 4096)

/-- The home sends a RECALL to every device of `l` and keeps the SNOOP until they have answered (R91). -/
def State.recallFrom (s : State) (m : FabMsg) (g : Nat) (intentO : Bool) (l : List Nat) : State :=
  let r : Recall := { req := m.src, tag := m.tag, addr := g, intentO := intentO, due := l }
  let s := { s with plain := { s.plain with recalls := s.plain.recalls ++ [r] } }
  forEach l s fun s d => (s.inc Reg.STR_PLN_CNT_RECALL_COUNT).fabReply 4 2 d recallTag g []

/-- The home's answer to a SNOOP for granule `g` whose data are here: where several rows of R91's table fit, a full directory comes first,
then the pin (R91, R95; the order is a DESIGN CHOICE, log 59). -/
def State.answerSnoop (s : State) (m : FabMsg) (g : Nat) (intentO : Bool) : State :=
  let d := (s.dirEntry g).getD { addr := g, sharers := [], owner := none, pinners := [] }
  if (s.dirEntry g).isNone ∧ 1048576 ≤ s.plain.dir.length then
    (s.raise Reg.STR_PLN_STATUS 3).fabReply 4 6 m.src m.tag g []
  else if intentO && s.plainPinned g then s.fabReply 4 7 m.src m.tag g []
  else
    match d.owner.filter (· ≠ m.src) with
    | some o => s.recallFrom m g intentO [o]
    | none =>
      let others := d.sharers.filter (· ≠ m.src)
      if intentO then
        if others.isEmpty then s.grantGranule m.src m.tag g true 1 else s.recallFrom m g true others
      else if d.sharers.contains m.src ∨ d.sharers.length < 8 then s.grantGranule m.src m.tag g false 1
      else s.fabReply 4 8 m.src m.tag g (s.plainRead g 4096)

/-- The owner of granule `g` whose EVICT with the data waits here to be written, and which is not device `d` (R94). -/
def State.evictHere (s : State) (g d : Nat) : Option Nat :=
  (s.fab.waitIn.find? fun w => w.cls = 4 && w.kind = 3 && w.addr / 4096 = g / 4096 && w.payload.length = 4096 && w.src ≠ d
    && (s.dirEntry g).any fun e => e.owner = some w.src).map FabMsg.src

/-- A SNOOP waits for the EVICT of device `d` that is on its way already: no RECALL is sent (R94). -/
def State.awaitEvict (s : State) (m : FabMsg) (g d : Nat) : State :=
  let r : Recall := { req := m.src, tag := m.tag, addr := g, intentO := m.tag % 2 = 1, due := [d] }
  { s with plain := { s.plain with recalls := s.plain.recalls ++ [r] } }

/-- A SNOOP at its home (R91, R94, R95, R98). -/
def State.homeSnoop (s : State) (m : FabMsg) (taken : Bool) : State :=
  let g := m.addr / 4096 * 4096
  if s.plainShut taken then s.fabReply 4 11 m.src m.tag g []
  else if s.behind m ∨ s.plain.recalls.any (·.addr = g) then s.waitHere m
  else if let some d := s.evictHere g m.src then s.awaitEvict m g d
  else
    match s.homeStatus g with
    | .missing => (s.plainTouch g).waitHere m
    | .atLocal _ => s.answerSnoop m g (m.tag % 2 = 1)
    | .invalid => (s.plainTouch g).fabReply 4 11 m.src m.tag g []
    | _ => s.fabReply 4 11 m.src m.tag g []

/-- Device `d` has given granule `g` up; a SNOOP that waited for it alone is answered with `kind` (R91, R94). -/
def State.recallAnswered (s : State) (d g kind : Nat) : State :=
  match s.plain.recalls.find? fun r => r.addr = g && r.due.contains d with
  | none => s
  | some r =>
    let rest := s.plain.recalls.erase r
    let due := r.due.erase d
    if due.isEmpty then
      let s := { s with plain := { s.plain with recalls := rest } }
      let s := if kind = 9 then s.inc Reg.STR_PLN_CNT_IN_EVICT_COUNT else s
      s.grantGranule r.req r.tag g r.intentO kind
    else { s with plain := { s.plain with recalls := rest ++ [{ r with due := due }] } }

/-- An EVICT at its home (R93, R94, R98): refused as ABSENT while the Plain is shut, unless it answers a RECALL. -/
def State.homeEvict (s : State) (m : FabMsg) (taken : Bool) : State :=
  let g := m.addr / 4096 * 4096
  if s.plainShut taken ∧ m.tag ≠ recallTag then s.fabReply 4 11 m.src m.tag g []
  else if s.behind m then s.waitHere m
  else
    let owned := (s.dirEntry g).any fun d => d.owner = some m.src
    let data := owned && m.payload.length = 4096
    let missing := match s.homeStatus g with
      | .missing => true
      | _ => false
    if data && missing then (s.plainTouch g).waitHere m
    else
      let s := if data then s.plainStore g m.payload else s
      let drop (d : DirEntry) : DirEntry :=
        { d with sharers := d.sharers.filter (· ≠ m.src), owner := d.owner.filter (· ≠ m.src),
                 pinners := d.pinners.filter (· ≠ m.src) }
      let s := if (s.dirEntry g).isSome then s.dirPut g drop else s
      s.recallAnswered m.src g (if data && m.tag ≠ recallTag then 9 else 1)

/-- A PIN or UNPIN at its home (R91, R421). -/
def State.homePin (s : State) (m : FabMsg) (pin : Bool) : State :=
  let g := m.addr / 4096 * 4096
  if !s.on Reg.STR_PLN_CTRL_REMOTE_EN ∨ !s.on Reg.STR_PLN_CTRL_EN then s.fabReply 4 11 m.src m.tag g []
  else if (s.dirEntry g).isNone then s
  else s.dirPut g fun d =>
    let l := d.pinners.filter (· ≠ m.src)
    { d with pinners := if pin then l ++ [m.src] else l }

/-- A message that needs data of this home; `taken` tells that the home accepted it before. -/
def State.homeServe (s : State) (m : FabMsg) (taken : Bool) : State :=
  if m.cls = 0 then s.homeWrite m taken
  else if m.cls = 1 then s.homeRead m taken
  else if m.kind = 0 then s.homeSnoop m taken
  else s.homeEvict m taken

/-- The messages that wait at this home are served again, in order; a fence that has come meanwhile does not stop them (R98). -/
def State.retryIn (s : State) : State :=
  let l := s.fab.waitIn
  forEach l { s with fab := { s.fab with waitIn := [] } } fun s m => s.homeServe m true

/-! ## Answers that arrive at the requester (R91 to R94, R357, R370) -/

/-- READ_DATA of tag `tag` arrives: the read is complete, or the data come too late and are counted (R370). -/
def State.readData (s : State) (tag : Nat) : State :=
  match s.fab.reads.find? fun r => r.tag = tag with
  | some r => { s with fab := { s.fab with reads := s.fab.reads.erase r } }
  | none =>
    match s.fab.timedOut.find? fun r => r.tag = tag with
    | some r => { s with fab := { s.fab with timedOut := s.fab.timedOut.erase r } }.inc Reg.FAB_CNT_RD_LATE_COUNT
    | none => s

/-- The read that has waited longest exceeds `FAB_RD_TIMEOUT` (R370). -/
def State.readTimeout (s : State) : State :=
  match s.fab.reads with
  | [] => s
  | r :: rest =>
    if r.until_ ≤ s.clock then
      let s := { s with fab := { s.fab with reads := rest, timedOut := s.fab.timedOut ++ [r] } }
      (s.raise Reg.FAB_STATUS 7).dmaHalt (fenceChannel r.tag) 4 false r.addr
    else s

/-- The granules that the remote cache holds at most (R99). -/
def State.cacheRoom (s : State) : Nat := s.rd Reg.STR_PLN_RCACHE_FRAMES * 512

/-- The SNOOP for granule `g` has been answered. -/
def State.snoopOver (s : State) (g : Nat) : State :=
  { s with plain := { s.plain with snoops := s.plain.snoops.filter fun x => x.1 ≠ g,
                                   waitingOn := s.plain.waitingOn.filter fun x => x.2 ≠ remoteKey g } }

/-- UNCACHED data serve one read and are not held (R91). -/
def State.uncachedData (s : State) (g : Granule) : State :=
  { s with plain := { s.plain with uncached := s.plain.uncached.filter (fun x => x.addr ≠ g.addr) ++ [g] } }

/-- The remote cache makes room for a granule by evicting one that nobody has pinned (R91, log 39). -/
def State.cacheMakeRoom (s : State) : State :=
  if s.plain.rcache.length < s.cacheRoom then s
  else match s.plain.rcache.find? fun y => y.pins.isEmpty with
    | some y => s.evictGranule y 2
    | none => s

/-- Granule `x` enters the remote cache; with no room its data are used uncached (R91, log 39). -/
def State.cacheAdd (s : State) (x : Granule) : State :=
  if s.plain.rcache.length < s.cacheRoom then { s with plain := { s.plain with rcache := s.plain.rcache ++ [x] } }
  else s.uncachedData x

/-- DATA or IN_EVICT for granule `g` arrive: it is held SHARED or OWNED as its SNOOP asked; the granule held longest without a pin makes
room, and where none can the data serve one read (R91, R93, R94, log 39). -/
def State.dataArrives (s : State) (g : Nat) (data : List Byte) : State :=
  match s.plain.snoops.find? fun x => x.1 = g with
  | none => s
  | some (_, intentO) =>
    let s := s.snoopOver g
    let s := { s with plain := { s.plain with evicted := s.plain.evicted.filter fun y => y.addr ≠ g } }
    s.cacheMakeRoom.cacheAdd { addr := g, owned := intentO, dirty := false, pins := [], data := data }

/-- UNCACHED data for granule `g` arrive and are counted (R91). -/
def State.uncachedArrives (s : State) (g : Nat) (data : List Byte) : State :=
  if s.plain.snoops.any fun x => x.1 = g then
    let x : Granule := { addr := g, owned := false, dirty := false, pins := [], data := data }
    ((s.snoopOver g).uncachedData x).inc Reg.STR_PLN_CNT_UNCACHED_COUNT
  else s

/-- RETRY or PINNED for granule `g` arrives: the SNOOP is over and nothing is held (R91, R92, R95). -/
def State.snoopRefused (s : State) (g : Nat) : State := s.snoopOver g

/-- A RECALL of granule `g` from device `home` arrives: the copy goes back in an EVICT with the RECALL's tag, and pages that pinned it lose
their reservation; or NOT_HELD says that it has gone already (R88, R93, R94). -/
def State.recallArrives (s : State) (home tag g : Nat) : State :=
  match s.granule g with
  | some x =>
    let s := { s with plain := { s.plain with rcache := s.plain.rcache.filter fun y => y.addr ≠ x.addr,
                                              evictRetry := s.plain.evictRetry.filter (· ≠ x.addr) } }
    let s := forEach x.pins s fun s p => s.updPage p fun y => { y with pinned := false }
    s.fabReply 4 3 home tag g (if x.owned then x.data else [])
  | none => s.fabReply 4 10 home tag g []

/-- Every 1 ms, each EVICT that was answered ABSENT is sent again (R98). -/
def State.evictAgain (s : State) : State :=
  if s.dev = stNight ∨ s.clock < s.due.evict then s
  else
    let next := s.clock + 3000000
    let s := { s with due := { s.due with evict := next } }
    forEach s.plain.evictRetry s fun s g =>
      match s.plain.rcache.find? fun y => y.addr = g with
      | some y =>
        let t := s.evictGranule y 2
        if t.plain.rcache.any fun z => z.addr = g then t
        else { t with plain := { t.plain with evictRetry := t.plain.evictRetry.filter (· ≠ g) } }
      | none => { s with plain := { s.plain with evictRetry := s.plain.evictRetry.filter (· ≠ g) } }

end Sys2Proof.Machine
end

