-- ==== Sys2Proof/Machine/Hst.lean ====
section
/-! DEFINITION. The host protocol: link, queue pairs, commands, completions and firmware staging (R325 to R334, R341 to R345, R350). -/

namespace Sys2Proof.Machine

/-! ## Queue pairs and completions (R326, R328, R331) -/

/-- A 64-bit register pair of queue pair `n`. -/
def State.sqBase (s : State) (n : Nat) : Nat := s.rd64 (Reg.HST_QP_SQ_LO n) (Reg.HST_QP_SQ_HI n)
@[inherit_doc State.sqBase] def State.cqBase (s : State) (n : Nat) : Nat := s.rd64 (Reg.HST_QP_CQ_LO n) (Reg.HST_QP_CQ_HI n)

/-- The next CQ entry of queue pair `n`, and the phase it takes (R326). -/
def State.cqTailOf (s : State) (n : Nat) : Nat := s.hst.cqTail.toList.getD n 0
@[inherit_doc State.cqTailOf] def State.phaseOf (s : State) (n : Nat) : Bool := s.hst.phase.toList.getD n true

/-- The CQ of queue pair `n` is full (R326). -/
def State.cqFull (s : State) (n : Nat) : Bool :=
  decide ((s.cqTailOf n + 1) % s.rd (Reg.HST_QP_CFG_CQ_SIZE n) = s.rd (Reg.HST_QP_CQ_HEAD_HEAD n))

/-- The 32 bytes of a completion (R328). -/
def Cpl.bytes (c : Cpl) (phase : Bool) : List Byte :=
  leBytes 2 c.cmdId ++ leBytes 2 c.sqHead ++ leBytes 2 c.status
    ++ leBytes 1 (boolNat phase + 2 * boolNat c.durable + 4 * boolNat c.mirrored) ++ [0] ++ leBytes 8 (c.jseq % 2 ^ 48)
    ++ leBytes 8 c.result ++ leBytes 4 c.sheetSeq ++ [0, 0, 0, 0]

/-- A completion is written to its CQ, which has room, and the pair's vector is sent (R325, R326). -/
def State.cplWrite (s : State) (c : Cpl) : State :=
  let n := c.qp
  let t := s.cqTailOf n
  let s := s.hostWrite (s.cqBase n + 32 * t) (c.bytes (s.phaseOf n))
  let next := (t + 1) % s.rd (Reg.HST_QP_CFG_CQ_SIZE n)
  let ph := if next = 0 then !s.phaseOf n else s.phaseOf n
  { s with hst := { s.hst with cqTail := s.hst.cqTail.setIfInBounds n next, phase := s.hst.phase.setIfInBounds n ph } }.msixSend n

/-- A completion is posted: it waits while its CQ is full, and is lost when its queue pair is disabled (R326, R332). -/
def State.post (s : State) (c : Cpl) : State :=
  if !s.on (Reg.HST_QP_CFG_EN c.qp) then s
  else if s.cqFull c.qp ∨ s.hst.ready.any (fun r => r.qp = c.qp) then { s with hst := { s.hst with ready := s.hst.ready ++ [c] } }
  else s.cplWrite c

/-- The completions of queue pair `n` that wait for room are posted as far as there is room (R326). -/
def State.drainReady (s : State) (n : Nat) : State :=
  forEach s.hst.ready ({ s with hst := { s.hst with ready := [] } }) fun s c =>
    if c.qp = n then s.post c else { s with hst := { s.hst with ready := s.hst.ready ++ [c] } }

/-- Completions wait for their entries to be durable (R331). -/
def State.durableMode (s : State) : Bool := s.nvmOpen

/-- A waiting completion may be posted: its entry is durable and the mate has answered or is silent, or nothing is waited for now
(R331, R346). -/
def State.cplDue (s : State) (c : Cpl) : Bool :=
  !s.durableMode || (decide (c.jseq ≤ s.jrnDurable)
    && (!s.on Reg.JRN_MATE_EN || s.jrn.mateLost || !(s.jrn.unacked.any fun e => e.2.seq = c.jseq)))

/-- The flags of a completion posted now (R331, R346). -/
def State.cplFlags (s : State) (c : Cpl) : Cpl :=
  { c with durable := decide (c.jseq ≤ s.jrnDurable)
           mirrored := s.on Reg.JRN_MATE_EN && !s.jrn.mateLost && decide (0x13 ≤ s.rd (Reg.HST_QP_VER_VERSION c.qp))
             && !(s.jrn.unacked.any fun e => e.2.seq = c.jseq) }

/-- The waiting completions that are due are posted, oldest first (R331). -/
def State.pumpCpl (s : State) : State :=
  forEach s.jrn.waiting ({ s with jrn := { s.jrn with waiting := [] } }) fun s c =>
    if s.cplDue c then s.post (s.cplFlags c) else { s with jrn := { s.jrn with waiting := s.jrn.waiting ++ [c] } }

/-- The completion of an accepted command: posted at once, or when its entry is durable (R331). -/
def State.complete (s : State) (c : Cpl) : State :=
  ({ s with jrn := { s.jrn with waiting := s.jrn.waiting ++ [c] } }).pumpCpl

/-! ## The link (R325, R332) -/

/-- Every queue pair is disabled; completions not yet written are lost (R332). -/
def State.dropQueues (s : State) : State :=
  let s := forUpTo 64 s fun s n => s.wr (Reg.HST_QP_CFG_EN n) 0
  { s with hst := { s.hst with ready := [] }, jrn := { s.jrn with waiting := [] } }

/-- The link trains up (R325). -/
def State.linkUp (s : State) : State :=
  if s.dev = stNight then s else { s with hst := { s.hst with linkUp := true } }

/-- The link goes down (R332). -/
def State.linkDown (s : State) : State :=
  if s.hst.linkUp then (({ s with hst := { s.hst with linkUp := false } }).dropQueues).raise Reg.HST_STATUS 0 else s

/-- A write of `v` to `HST_QPn_CFG`: an enable needs an offered version, aligned bases and legal sizes, and starts both queues anew
(R326, R327, log 34). -/
def State.qpCfg (s : State) (n v : Nat) : State :=
  let was := s.on (Reg.HST_QP_CFG_EN n)
  let s := s.plainWrite (Reg.HST_QP_CFG n) v
  let ver := s.rd (Reg.HST_QP_VER_VERSION n)
  let size (x : Nat) : Bool := decide (2 ≤ x ∧ x ≤ 4096)
  if !bitAt v 30 then { s with hst := { s.hst with ready := s.hst.ready.filter fun c => c.qp ≠ n } }
  else if was then s
  else if 0x10 ≤ ver ∧ ver ≤ 0x13 ∧ s.sqBase n % 4096 = 0 ∧ s.cqBase n % 4096 = 0 ∧ size (bitsOf v 0 13) ∧ size (bitsOf v 16 13) then
    let s := ((s.wr (Reg.HST_QP_SQ_HEAD_HEAD n) 0).wr (Reg.HST_QP_SQ_TAIL_TAIL n) 0).wr (Reg.HST_QP_CQ_HEAD_HEAD n) 0
    { s with hst := { s.hst with cqTail := s.hst.cqTail.setIfInBounds n 0, phase := s.hst.phase.setIfInBounds n true } }
  else (s.wr (Reg.HST_QP_CFG_EN n) 0).raise Reg.HST_STATUS 1

/-- A write of `v` to `HST_QPn_CQ_HEAD` frees CQ space (R326). -/
def State.cqHead (s : State) (n v : Nat) : State := (s.plainWrite (Reg.HST_QP_CQ_HEAD n) v).drainReady n

/-- A write of `v` at offset `o` of HST. -/
def State.hstWrite (s : State) (o v : Nat) : State :=
  if 0x1000 ≤ o ∧ o % 0x40 = 0x10 then s.qpCfg ((o - 0x1000) / 0x40) v
  else if 0x1000 ≤ o ∧ o % 0x40 = 0x1C then s.cqHead ((o - 0x1000) / 0x40) v
  else s.plainWrite (0x1B0000 + o) v

/-! ## Fetching a command (R328, R329) -/

/-- A submission as the host wrote it (R328); `args` holds its 48 bytes as a number. -/
structure Sub where
  opcode : Nat
  flags : Nat
  cmdId : Nat
  job : Nat
  hostId : Nat
  args : Nat

/-- The SQ entry at the head of queue pair `n` (R328). -/
def State.subAt (s : State) (n : Nat) : Sub :=
  let b := s.hostRead (s.sqBase n + 64 * s.rd (Reg.HST_QP_SQ_HEAD_HEAD n)) 64
  let f (o k : Nat) : Nat := ofLe ((b.drop o).take k)
  { opcode := f 0 1, flags := f 1 1, cmdId := f 2 2, job := f 4 4, hostId := f 8 8, args := f 16 48 }

/-- The version from which opcode `op` exists; none for an unknown opcode (R327, R329). -/
def opVersion (op : Nat) : Option Nat :=
  if op = 5 then some 0x11 else if op = 8 then some 0x12 else if 1 ≤ op ∧ op ≤ 9 then some 0x10 else none

/-- The opcode is accepted in the present state (R329). -/
def State.opAccepted (s : State) (op : Nat) : Bool :=
  if op = 7 ∨ op = 9 then decide (s.dev ≠ stNight)
  else if op = 8 then decide (stDawn ≤ s.dev ∧ s.dev ≤ stDusk)
  else decide (stMorning ≤ s.dev ∧ s.dev ≤ stDusk)

/-- The command at the head of queue pair `n` is journaled once it is accepted, and waits until the scan has given the next number (R337,
log 14). -/
def State.awaitsScan (s : State) (n : Nat) : Bool :=
  let op := (s.subAt n).opcode
  !s.jrn.scanned && s.opAccepted op && op ≠ 7 && op ≠ 9

/-- A command of queue pair `n` can be taken: the link is up, the pair enabled, its SQ not empty and its CQ not full, and what is
journaled does not wait for the scan (R326, R337, log 14). -/
def State.subReady (s : State) (n : Nat) : Bool :=
  s.hst.linkUp && s.coreClock && decide (n < 64) && s.on (Reg.HST_QP_CFG_EN n)
    && decide (s.rd (Reg.HST_QP_SQ_HEAD_HEAD n) ≠ s.rd (Reg.HST_QP_SQ_TAIL_TAIL n)) && !s.cqFull n && !s.awaitsScan n

/-- The queue pair whose command N0 takes next: one from each in turn, in ascending number (R328). -/
def State.nextPair (s : State) : Option Nat := ((List.range 64).map fun i => (s.hst.turn + i) % 64).find? s.subReady

/-- N0 takes the next command from queue pair `n` (R326, R328). -/
def State.subWaits (s : State) (n : Nat) : Bool := s.subReady n && s.nextPair = some n

/-- A command taken from queue pair `n`, with `SQ_HEAD` moved past it: the turn goes on to the pairs after it (R328). -/
def State.subTake (s : State) (n : Nat) : State :=
  let h := (s.rd (Reg.HST_QP_SQ_HEAD_HEAD n) + 1) % s.rd (Reg.HST_QP_CFG_SQ_SIZE n)
  { s.wr (Reg.HST_QP_SQ_HEAD_HEAD n) h with hst := { s.hst with turn := (n + 1) % 64 } }

/-- The bare completion of the command just taken from queue pair `n`. -/
def State.cplOf (s : State) (n : Nat) (c : Sub) : Cpl :=
  { qp := n, cmdId := c.cmdId, sqHead := s.rd (Reg.HST_QP_SQ_HEAD_HEAD n) }

/-- A refusal with status `st` (R330); refusal 0x07 sets `RESERVE` (R338). -/
def State.refuse (s : State) (n : Nat) (c : Sub) (st : Nat) : State :=
  let s := if st = 7 then s.raise Reg.JRN_STATUS 0 else s
  s.post { s.cplOf n c with status := st }

/-- The command would take an entry from the reserve (R338). -/
def State.atReserve (s : State) : Bool := decide (s.jrnEntries ≤ s.jrnUsed + 1024)

/-- The journal entry of an accepted command (R335). -/
def State.cmdEntry (s : State) (n : Nat) (c : Sub) (sheetSeq : Nat) : JrnEntry :=
  { seq := 0, kind := 1, flags := 0, time := s.meridian, boot := s.rd Reg.VSP_BOOT_COUNT, qp := n, cmdId := c.cmdId,
    opcode := c.opcode, reason := 0, job := c.job, sheetSeq := sheetSeq, hostId := c.hostId, args := c.args % 2 ^ 128,
    origin := s.devId }

/-- The command is accepted: its entry is created, and after it the command takes effect and its completion is due (R329, R331). -/
def State.accept (s : State) (n : Nat) (c : Sub) (sheetSeq result : Nat) (effect : State → State) : State :=
  let q := s.jrnNext
  let cpl := { s.cplOf n c with jseq := q, result := result, sheetSeq := sheetSeq }
  ((effect (s.jrnNumber (s.cmdEntry n c sheetSeq))).complete cpl).count 25 0 1

/-- The status of a command by the checks that need no more than its head: version, state, and reserved fields outside `mask` (R327,
R329, R330, log 33). -/
def State.headStatus (s : State) (n : Nat) (c : Sub) (mask : Nat) : Nat :=
  match opVersion c.opcode with
  | none => 1
  | some v =>
    if s.rd (Reg.HST_QP_VER_VERSION n) < v then 2
    else if !s.opAccepted c.opcode then 3
    else if c.flags ≠ 0 ∨ c.args &&& mask ≠ c.args then 4
    else 0

/-- Command `op` is taken from queue pair `n`: an unknown opcode completes with 0x01; another opcode is not this command's. `mask`
holds the bits of `ARGS` that have a meaning, `status` the command's own checks, `act` what an accepted command does. -/
def State.hostCommand (s : State) (n op mask : Nat) (mine : Sub → Bool) (status : State → Sub → Nat)
    (act : State → Sub → State) : State :=
  let c := s.subAt n
  if !s.subWaits n then s
  else if (opVersion c.opcode).isNone then (s.subTake n).refuse n c 1
  else if c.opcode ≠ op ∨ !mine c then s
  else
    let h := s.headStatus n c mask
    if h ≠ 0 then (s.subTake n).refuse n c h
    else
      let st := status s c
      if st ≠ 0 then (s.subTake n).refuse n c st else act (s.subTake n) c

/-- A command that is journaled meets the reserve (R338). -/
def State.journaled (s : State) (n op mask : Nat) (mine : Sub → Bool) (status : State → Sub → Nat)
    (act : State → Sub → State) : State :=
  s.hostCommand n op mask mine (fun s c =>
    let st := status s c
    if st ≠ 0 then st else if s.atReserve then 7 else 0) act

/-! ## The commands (R329) -/

/-- JOB_OPEN from queue pair `n`: the job's settings are in its entry; a job closed before is open again (R329, R333, log 35). -/
def State.jobOpen (s : State) (n : Nat) : State :=
  s.journaled n 1 0x0FFF00FF (fun _ => true) (fun _ _ => 0) fun s c =>
    s.accept n c 0 0 fun s => { s with jrn := { s.jrn with closedJobs := s.jrn.closedJobs.filter fun j => j ≠ c.job } }

/-- JOB_CLOSE from queue pair `n` (R329, R333). -/
def State.jobClose (s : State) (n : Nat) : State :=
  s.journaled n 2 0 (fun _ => true) (fun _ _ => 0) fun s c =>
    s.accept n c 0 0 fun s =>
      { s with jrn := { s.jrn with closedJobs := c.job :: s.jrn.closedJobs.filter fun j => j ≠ c.job } }

/-- The lowest FREE page entry. -/
def State.freePage (s : State) : Option Nat := (List.range 256).find? fun p => s.pg p = pgFree

/-- The lowest FREE sheet entry. -/
def State.freeTag (s : State) : Option Nat := (List.range 64).find? fun t => s.sh t = shFree

/-- PAGE_SUBMIT from queue pair `n` (R329, R333). -/
def State.pageSubmit (s : State) (n : Nat) : State :=
  s.journaled n 3 (2 ^ 52 - 1) (fun _ => true)
    (fun s c => if s.jrn.closedJobs.contains c.job then 4 else if s.freePage.isNone then 5 else 0) fun s c =>
      match s.freePage with
      | none => s
      | some p => s.accept n c 0 p fun s =>
          let s := (s.wrw (Reg.PSQ_PG_ADDR_LO p) c.args).pageHi p (c.args / 2 ^ 32 % 2 ^ 20 + 2 ^ 31)
          s.updPage p fun x => { x with hostId := c.hostId, job := c.job }

/-- PAGE_BIND from queue pair `n`: N1 writes the sheet entry under R45 (R329, log 35). -/
def State.pageBind (s : State) (n : Nat) : State :=
  s.journaled n 4 (0x1FFFFFFFF0003FFFF) (fun _ => true)
    (fun s c =>
      let p := bitsOf c.args 0 8
      if !(s.pg p = pgAdmitted ∨ s.pg p = pgVerified) then 4 else if s.freeTag.isNone then 5 else 0) fun s c =>
      match s.freeTag with
      | none => s
      | some t => s.accept n c (s.rd Reg.PSQ_NEXT_SEQ_SEQ) t fun s =>
          let s := (s.wr (Reg.PSQ_SH_CTRL_PAGE t) (bitsOf c.args 0 8)).wr (Reg.PSQ_SH_CTRL_PAIR t) (bitsOf c.args 64 1)
          let s := (s.wr (Reg.PSQ_SH_PEER_PEER_ID t) (bitsOf c.args 8 10)).wrw (Reg.PSQ_SH_PEER_SEQ t) (bitsOf c.args 32 32)
          s.bindSheet t

/-- COMMIT_POLICY from queue pair `n`: the policy is in its entry (R329). -/
def State.commitPolicy (s : State) (n : Nat) : State :=
  s.journaled n 5 0x3FF (fun _ => true) (fun _ _ => 0) fun s c => s.accept n c 0 0 fun s => s

/-- The pages that a CANCEL withdraws: the one it names, or those of its job that are not FREE or PRINTING (R43, R329, log 35). -/
def State.cancelled (s : State) (c : Sub) : List Nat :=
  if bitAt c.args 8 then
    (List.range 256).filter fun p => s.pg p ≠ pgFree && s.pg p ≠ pgPrinting && decide ((s.pageOf p).job = c.job)
  else [bitsOf c.args 0 8]

/-- CANCEL from queue pair `n` (R42, R43, R329). -/
def State.cancel (s : State) (n : Nat) : State :=
  s.journaled n 6 0x1FF (fun _ => true)
    (fun s c =>
      let p := bitsOf c.args 0 8
      if bitAt c.args 8 then 0 else if s.pg p = pgFree then 4 else if s.pg p = pgPrinting then 6 else 0) fun s c =>
      let l := s.cancelled c
      s.accept n c 0 l.length fun s => forEach l s fun s p => s.withdrawPage p 0x06 0x0B

/-- STATUS from queue pair `n` (R329). -/
def State.status (s : State) (n : Nat) : State :=
  s.hostCommand n 7 0 (fun _ => true) (fun _ _ => 0) fun s c =>
    let pages := ((List.range 256).filter fun p => s.pg p ≠ pgFree).length
    let sheets := ((List.range 64).filter fun t => s.sh t ≠ shFree).length
    let r := s.dev + pages % 256 * 2 ^ 8 + sheets % 256 * 2 ^ 16 + s.rd Reg.THM_STATE_NVM_OK * 2 ^ 24
    s.post { s.cplOf n c with result := r }

/-- `k` entries from sequence number `q` on are copied to host memory at `a`, none above `top` (R342). -/
def State.jrnCopyOut (s : State) (mirror : Bool) (q a top : Nat) : Nat → State
  | 0 => s
  | k + 1 =>
    if top < q then s
    else
      let b := ((if mirror then s.mirrorFetch q else s.jrnFetch q).getD (List.replicate 64 0))
      let s := if mirror || (s.jrnHeld q).isNone then s.xspSettled else s
      (s.hostWrite a b).jrnCopyOut mirror (q + 1) (a + 64) top k

/-- JOURNAL_READ from queue pair `n` (R327, R329, R342). -/
def State.journalRead (s : State) (n : Nat) : State :=
  s.hostCommand n 9 (2 ^ 48 - 1 + 0xFFFF * 2 ^ 64 + (2 ^ 64 - 1) * 2 ^ 128 + 2 ^ 192) (fun _ => true) (fun _ _ => 0) fun s c =>
    let mirror := bitAt c.args 192 && decide (0x13 ≤ s.rd (Reg.HST_QP_VER_VERSION n))
    let q := bitsOf c.args 0 48
    let k := bitsOf c.args 64 16 + 1
    let top := if mirror then s.mirrorTop else s.jrnNext - 1
    let got := min k (top + 1 - q)
    let s := s.jrnCopyOut mirror q (bitsOf c.args 128 64) top k
    s.post { s.cplOf n c with result := got }

/-! ## Firmware staging (R343 to R345) -/

/-- The base of the bank that `BANK` does not name. -/
def State.otherBank (s : State) : Nat := if s.on Reg.XSP_BOOT_BANK then s.rdw Reg.XSP_BANK0_BASE else s.rdw Reg.XSP_BANK1_BASE

/-- A FW_STAGE operation or a pending switch is in progress (R345). -/
def State.fwBusy (s : State) : Bool := s.hst.fw.isSome || s.on Reg.XSP_BOOT_SWITCH_PENDING

/-- Bits of `ARGS` that FW_STAGE operation `op` gives a meaning (R345). -/
def fwMask (op : Nat) : Nat := if op = 0 then 3 + (2 ^ 128 - 2 ^ 64) + (2 ^ 64 - 1) * 2 ^ 128 else 3

/-- FW_STAGE operation `op` from queue pair `n`, with its own checks and effect (R345). -/
def State.fwStage (s : State) (n op : Nat) (status : State → Sub → Nat) (act : State → Sub → State) : State :=
  s.journaled n 8 (fwMask op) (fun c => decide (bitsOf c.args 0 2 = op)) (fun s c => if s.fwBusy then 9 else status s c) act

/-- FW_STAGE WRITE (R345). -/
def State.fwWrite (s : State) (n : Nat) : State :=
  s.fwStage n 0 (fun _ c => if bitsOf c.args 64 32 % 256 ≠ 0 ∨ bitsOf c.args 96 32 % 256 ≠ 0 then 4 else 0) fun s c =>
    let q := s.jrnNext
    let len := bitsOf c.args 96 32
    let cpl := { s.cplOf n c with jseq := q, result := len }
    let s := (s.jrnNumber (s.cmdEntry n c 0)).wr Reg.XSP_BOOT_STAGED 0
    { s with hst := { s.hst with fw := some (.write (bitsOf c.args 64 32) len (bitsOf c.args 128 64) cpl) } }

/-- FW_STAGE VERIFY starts (R345). -/
def State.fwVerify (s : State) (n : Nat) : State :=
  s.fwStage n 1 (fun _ _ => 0) fun s c =>
    { s with hst := { s.hst with fw := some (.verify (s.cplOf n c) (s.cmdEntry n c 0)) } }

/-- A FW_STAGE WRITE or VERIFY in progress ends; `valid` says whether the staged bank holds a valid image (R343, R345, log 7). A write
that is latched wrongly fails, and is made again (A0-10, R352, log 32). -/
def State.fwDone (s : State) (valid : Bool) : State :=
  match s.hst.fw with
  | none => s
  | some (.write ofs len src cpl) =>
    if !s.on Reg.XSP_CTRL_EN then s
    else
      let bytes := s.hostRead src len
      let a := s.otherBank + ofs
      if s.xspLatch a bytes ≠ bytes then (s.xspProgram a bytes).xspFail .differs
      else (({ s with hst := { s.hst with fw := none } }).xspProgram a bytes).complete cpl
  | some (.verify cpl e) =>
    let s := { s with hst := { s.hst with fw := none } }.xspSettled
    if valid then
      let q := s.jrnNext
      ((s.jrnNumber { e with time := s.meridian }).wr Reg.XSP_BOOT_STAGED 1).complete { cpl with jseq := q }
    else s.post { cpl with status := 8 }

/-- Step 6 of R72: a pending bank switch (R345). -/
def State.bankSwitch (s : State) : State :=
  if s.on Reg.XSP_BOOT_SWITCH_PENDING then
    let b := 1 - s.rd Reg.XSP_BOOT_BANK
    let s := ((s.wr Reg.XSP_BOOT_BANK b).wr Reg.XSP_BOOT_SWITCH_PENDING 0).wr Reg.XSP_BOOT_STAGED 0
    { s with aon := { s.aon with nvmBootBank := b } }
  else s

/-- FW_STAGE SWITCH: requested at a Gap, or at once in DAWN and MORNING (R72, R345). -/
def State.fwSwitch (s : State) (n : Nat) : State :=
  s.fwStage n 2 (fun s _ => if s.on Reg.XSP_BOOT_STAGED then 0 else 4) fun s c =>
    s.accept n c 0 0 fun s =>
      let s := s.wr Reg.XSP_BOOT_SWITCH_PENDING 1
      if s.dev = stDawn ∨ s.dev = stMorning then s.bankSwitch else s

/-- A write of `v` at offset `o` of XSP (R331, R352). -/
def State.xspWrite (s : State) (o v : Nat) : State :=
  let s := s.plainWrite (0x1D0000 + o) v
  if o = 0 then s.pumpCpl
  else if o = 0x1C ∧ bitAt v 0 then s.xspGo
  else s

end Sys2Proof.Machine
end

