-- ==== Sys2Proof/Machine/FabLink.lean ====
section
/-! DEFINITION. The fabric's ports, link frames, discovery, routes, events, time synchronisation and registers (R353 to R375). -/

namespace Sys2Proof.Machine

/-- The ports of the device. -/
def ports : List Nat := List.range 8

/-- Port `p` is UP. -/
def State.portUp (s : State) (p : Nat) : Bool := s.rd (Reg.FAB_P_STATE_STATE p) = 3

/-- A message of the Link or Sync class leaves by port `p`, for the neighbour (R357). -/
def State.fabOut (s : State) (p cls kind tag : Nat) (payload : List Byte) : State :=
  s.fabQueue p { cls := cls, kind := kind, dst := 0, src := s.devId, vc := 0, tag := tag, addr := 0, payload := payload }

/-! ## Routes (R361) -/

/-- The better of two routes to one destination, as port and hops: fewer hops, then the lower port (R361). -/
def betterRoute (a b : Nat × Nat) : Nat × Nat := if b.2 < a.2 ∨ (b.2 = a.2 ∧ b.1 < a.1) then b else a

/-- The shortest path to device `d` that the neighbours of ports that are UP offer (R361). -/
def State.shortest (s : State) (d : Nat) : Option (Nat × Nat) :=
  let l := s.fab.adv.filterMap fun e => if e.2.1 = d ∧ e.2.2 < 254 ∧ s.portUp e.1 then some (e.1, e.2.2 + 1) else none
  match l with
  | [] => none
  | x :: rest => some (rest.foldl betterRoute x)

/-- The automatic route to device `d` is written; a static one and the device's own stay (R361, R375). -/
def State.routeTo (s : State) (d : Nat) : State :=
  if s.on (Reg.FAB_ROUTE_STATIC d) ∨ (s.on Reg.FAB_ID_VALID ∧ d = s.devId) ∨ 1024 ≤ d then s
  else
    match s.shortest d with
    | some (p, h) => (s.wr (Reg.FAB_ROUTE_PORT d) p).wr (Reg.FAB_ROUTE_HOPS d) h
    | none => (s.wr (Reg.FAB_ROUTE_PORT d) 15).wr (Reg.FAB_ROUTE_HOPS d) 0

/-- What this device tells its neighbours about its route to `d`: the hops, or 255 where it has none (log 41). -/
def State.routeInfo (s : State) (d : Nat) : Nat :=
  if s.on Reg.FAB_ID_VALID ∧ d = s.devId then 0
  else if s.rd (Reg.FAB_ROUTE_PORT d) = 15 then 255 else s.rd (Reg.FAB_ROUTE_HOPS d)

/-- ROUTE messages about the devices of `l` leave by port `p`, 64 entries in each (log 41). -/
def State.sendRoutes (s : State) (p : Nat) (l : List Nat) : State :=
  let entry (d : Nat) : List Byte := leBytes 2 d ++ leBytes 1 (s.routeInfo d) ++ [0]
  forUpTo ((l.length + 63) / 64) s fun s i => s.fabOut p 5 3 0 (((l.drop (64 * i)).take 64).flatMap entry)

/-- The routes to the devices of `l` are computed again, and the neighbours hear of those that changed (R361). -/
def State.reroute (s : State) (l : List Nat) : State :=
  if !s.on Reg.FAB_CTRL_AUTO_ROUTE then s
  else
    let before := s
    let s := forEach l s State.routeTo
    let changed := l.filter fun d => before.routeInfo d ≠ s.routeInfo d
    if changed.isEmpty then s else forEach (ports.filter s.portUp) s fun s p => s.sendRoutes p changed

/-- The devices that the neighbours have spoken of. -/
def State.advertised (s : State) : List Nat := (s.fab.adv.map fun e => e.2.1).eraseDups

/-- A ROUTE message with destinations and hops arrives at port `p` (R361). -/
def State.routeArrives (s : State) (p : Nat) (l : List (Nat × Nat)) : State :=
  if !s.fabOpen p 5 then s
  else
    let keep := s.fab.adv.filter fun e => !(e.1 = p && l.any fun x => x.1 = e.2.1)
    let fresh : List (Nat × Nat × Nat) := l.map fun (x : Nat × Nat) => (p, x.1, x.2)
    let s := { s with fab := { s.fab with adv := keep ++ fresh } }
    s.reroute (l.map Prod.fst).eraseDups

/-- A write of `v` to `FAB_ROUTEd` (R375). -/
def State.routeWrite (s : State) (d v : Nat) : State :=
  if s.on Reg.FAB_ID_VALID ∧ d = s.devId then s
  else
    let s := s.plainWrite (Reg.FAB_ROUTE d) v
    let p := s.rd (Reg.FAB_ROUTE_PORT d)
    let s := if 8 < p then s.wr (Reg.FAB_ROUTE_PORT d) 15 else s
    let s := s.wr (Reg.FAB_ROUTE_HOPS d) 0
    if s.on (Reg.FAB_ROUTE_STATIC d) then s else s.reroute [d]

/-! ## Ports and frames (R354 to R356, R368) -/

/-- Port `p` goes down: its messages are answered as stopped, and the routes are computed again (R361, R368). -/
def State.portDown (s : State) (p : Nat) : State :=
  let was := s.rd (Reg.FAB_P_STATE_STATE p)
  if was = 0 then s
  else
    let s := ((s.wr (Reg.FAB_P_STATE_STATE p) 0).wr (Reg.FAB_P_STATE_LANES p) 0).wr (Reg.FAB_P_STATE_PEER_VALID p) 0
    let s := if was = 3 then s.raise Reg.FAB_STATUS 0 else s
    let mine := s.fab.tx.filter fun x => x.1 = p
    let lost := s.fab.adv.filter fun e => e.1 = p
    let s := { s with fab := { s.fab with tx := s.fab.tx.filter (fun x => x.1 ≠ p), adv := s.fab.adv.filter (fun e => e.1 ≠ p),
                                          peerEui := s.fab.peerEui.setIfInBounds p none } }
    let s := forEach mine s fun s x => s.fabStopped x.2
    s.reroute (lost.map fun e => e.2.1).eraseDups

/-- Port `p` may train: the fabric and the port are enabled and the device is awake (R375). -/
def State.portEnabled (s : State) (p : Nat) : Bool :=
  s.dev ≠ stNight && s.on Reg.FAB_CTRL_EN && decide (p < 8) && s.on (Reg.FAB_P_CFG_EN p)

/-- The HELLO that this device sends: its EUI, versions and ids (R360; the layout is open, log 13). -/
def State.sendHello (s : State) (p : Nat) : State :=
  let eui := s.rd64 Reg.FAB_EUI_LO Reg.FAB_EUI_HI
  s.fabOut p 5 0 0 (leBytes 8 eui ++ leBytes 1 (s.rd Reg.FAB_VER_VER_MIN) ++ leBytes 1 (s.rd Reg.FAB_VER_VER_MAX)
    ++ leBytes 4 (s.rdw Reg.FAB_ID))

/-- Port `p` has reached block lock on the lanes of `lanes` and exchanges HELLO (R354, R360). -/
def State.portLocked (s : State) (p lanes : Nat) : State :=
  ((s.wr (Reg.FAB_P_STATE_LANES p) lanes).wr (Reg.FAB_P_STATE_STATE p) 2).sendHello p

/-- Port `p` begins to train: 100 ms from now it runs on one lane, if only one has locked (R354). -/
def State.trainFrom (s : State) (p : Nat) : State :=
  let until_ := s.clock + 300000000
  { s.wr (Reg.FAB_P_STATE_STATE p) 1 with due := { s.due with lane := s.due.lane.setIfInBounds p until_ } }

/-- Lanes of port `p` reach block lock, given which, and which arrive inverted (R354): with both the port runs striped, with one it
trains on. `RX_INV` is applied before any detection; P7 does not detect inversion, and a lane that stays inverted never locks there (A0-05). -/
def State.blockLock (s : State) (p : Nat) (lane0 lane1 inv0 inv1 : Bool) : State :=
  if !s.portEnabled p ∨ 2 ≤ s.rd (Reg.FAB_P_STATE_STATE p) then s
  else
    let inv0 := inv0 != s.on (Reg.FAB_P_CFG_RX_INV0 p)
    let inv1 := inv1 != s.on (Reg.FAB_P_CFG_RX_INV1 p)
    let lock0 := lane0 && !(p = 7 && inv0)
    let lock1 := lane1 && !(p = 7 && inv1)
    let s := (s.wr (Reg.FAB_P_STATE_INV0 p) (boolNat (lock0 && inv0))).wr (Reg.FAB_P_STATE_INV1 p) (boolNat (lock1 && inv1))
    if lock0 && lock1 then s.portLocked p 3
    else
      let s := if s.rd (Reg.FAB_P_STATE_STATE p) = 1 then s else s.trainFrom p
      s.wr (Reg.FAB_P_STATE_LANES p) (boolNat lock0 + 2 * boolNat lock1)

/-- 100 ms have passed with one lane of port `p` locked: it runs degraded (R354). -/
def State.laneTimeout (s : State) (p : Nat) : State :=
  let lanes := s.rd (Reg.FAB_P_STATE_LANES p)
  if s.portEnabled p ∧ s.rd (Reg.FAB_P_STATE_STATE p) = 1 ∧ (lanes = 1 ∨ lanes = 2) ∧ s.due.lane.toList.getD p 0 ≤ s.clock then (s.raise Reg.FAB_STATUS 1).portLocked p lanes
  else s

/-- The KIND values of a class (R357). -/
def kindsOf (cls : Nat) : Nat :=
  match cls with
  | 0 => 1
  | 1 => 3
  | 2 => 3
  | 3 => 3
  | 4 => 12
  | 5 => 4
  | _ => 0

/-- A message header, bits of R356, has no reserved bit set and names a known class and kind. -/
def headerLegal (h : BitVec 128) : Bool :=
  let n := h.toNat
  bitsOf n 29 3 = 0 && bitsOf n 41 7 = 0 && bitsOf n 126 2 = 0 && decide (bitsOf n 4 4 < kindsOf (bitsOf n 0 4))

/-- A link frame with sequence number `frame` arrives at port `p` (R355, R356): its malformed headers are discarded and counted, or the
frame fails its CRC and is dropped, and beyond 16 replays of one frame the link goes down. -/
def State.frameArrives (s : State) (p frame : Nat) (crcOk : Bool) (headers : List (BitVec 128)) : State :=
  if !s.fabOpen p 5 then s
  else
    let s := s.addTo (Reg.FAB_P_CNT_RX_COUNT p) 8
    if crcOk then
      let s := { s with fab := { s.fab with rxFrame := s.fab.rxFrame.setIfInBounds p none } }
      s.addTo Reg.FAB_CNT_MALFORMED_COUNT (headers.filter fun h => !headerLegal h).length
    else
      let again := s.fab.rxFrame.toList.getD p none = some frame
      let n := if again then s.fab.rxFails.toList.getD p 0 + 1 else 1
      let s := s.inc (Reg.FAB_P_CNT_CRC_COUNT p)
      let s := { s with fab := { s.fab with rxFrame := s.fab.rxFrame.setIfInBounds p (some frame),
                                            rxFails := s.fab.rxFails.setIfInBounds p n } }
      if 16 < n then s.portDown p else s

/-- A replay request for frame `frame` arrives at port `p`, and `count` frames are sent again out of the replay buffer of 64; beyond 16
replays of one frame the link goes down (R355). -/
def State.replay (s : State) (p frame count : Nat) : State :=
  if !s.fabOpen p 5 ∨ 64 < count then s
  else
    let again := s.fab.replayFrame.toList.getD p none = some frame
    let n := if again then s.fab.replays.toList.getD p 0 + 1 else 1
    let s := (s.addTo (Reg.FAB_P_CNT_REPLAY_COUNT p) count).count 23 p count
    let s := { s with fab := { s.fab with replayFrame := s.fab.replayFrame.setIfInBounds p (some frame),
                                          replays := s.fab.replays.setIfInBounds p n } }
    if 16 < n then s.portDown p else s

/-! ## Discovery (R360, R364) -/

/-- A device's id becomes known here (R360, R375). -/
def State.learn (s : State) (eui id : Nat) : State :=
  let devices : List FabDevice := s.fab.devices.filter (fun d => d.eui ≠ eui) ++ [{ eui := eui, id := id }]
  let s := { s with fab := { s.fab with devices := devices } }
  let s := s.wr Reg.FAB_DEVICES_COUNT s.fab.devices.length
  forEach ports s fun s p =>
    if s.fab.peerEui.toList.getD p none = some eui then (s.wr (Reg.FAB_P_STATE_PEER_ID p) id).wr (Reg.FAB_P_STATE_PEER_VALID p) 1 else s

/-- The device takes id `id`: `STR_PLN_ID` follows, and the entry for the own id is local (R360, R375). -/
def State.takeId (s : State) (id : Nat) : State :=
  let s := ((s.wr Reg.FAB_ID_DEV_ID id).wr Reg.FAB_ID_VALID 1).wr Reg.STR_PLN_ID_DEV_ID id
  let s := (s.wr (Reg.FAB_ROUTE_PORT id) 8).wr (Reg.FAB_ROUTE_HOPS id) 0
  forEach (ports.filter s.portUp) s fun s p => s.sendRoutes p [id]

/-- The device acts as the discovery root (R360). -/
def State.isRoot (s : State) : Bool := s.on Reg.FAB_CTRL_ROOT && !s.fab.demoted

/-- The EUI of this device (R360). -/
def State.eui (s : State) : Nat := s.rd64 Reg.FAB_EUI_LO Reg.FAB_EUI_HI

/-- Another device than `eui` holds `id`, as far as is known here. -/
def State.idTaken (s : State) (eui id : Nat) : Bool := s.fab.devices.any fun d => d.id = id && d.eui ≠ eui

/-- The id that the root grants (R360): a held id that no other device holds, else a requested one that is free, else, for a device that
requests none, the lowest free id; a device that holds an id of another gets none. -/
def State.grantId (s : State) (eui : Nat) (held wanted : Option Nat) : Option Nat :=
  match held, wanted with
  | some h, _ => if s.idTaken eui h then none else some h
  | none, some w => if s.idTaken eui w then none else some w
  | none, none => (List.range 1024).find? fun i => !s.idTaken eui i

/-- A flood passes on by every UP port but `from_` (R360). -/
def State.flood (s : State) (from_ : Option Nat) (kind number : Nat) (payload : List Byte) : State :=
  let s := { s with fab := { s.fab with floods := s.fab.floods ++ [number] } }
  forEach (ports.filter fun p => s.portUp p && some p ≠ from_) s fun s p => s.fabOut p 5 kind 0 (leBytes 12 number ++ payload)

/-- The number of a flood that this device begins. -/
def State.nextFlood (s : State) : Nat := s.eui * 2 ^ 32 + s.fab.floodsSent % 2 ^ 32

/-- A flood of this device begins. -/
def State.beginFlood (s : State) (kind : Nat) (payload : List Byte) : State :=
  let n := s.nextFlood
  { s with fab := { s.fab with floodsSent := s.fab.floodsSent + 1 } }.flood none kind n payload

/-- An id that may be absent, as bytes of a Link message (log 13). -/
def idBytes (i : Option Nat) : List Byte :=
  match i with
  | some i => leBytes 2 (i + 2 ^ 15)
  | none => [0, 0]

/-- The bytes of an ASSIGN message (log 13). -/
def assignBytes : Assign → List Byte
  | .request eui held wanted => [0] ++ leBytes 8 eui ++ idBytes held ++ idBytes wanted
  | .grant eui id => [1] ++ leBytes 8 eui ++ idBytes id

/-- The id that this device holds, if any. -/
def State.heldId (s : State) : Option Nat := if s.on Reg.FAB_ID_VALID then some s.devId else none

/-- The id that this device requests, if any. -/
def State.wantedId (s : State) : Option Nat := if s.on Reg.FAB_ID_REQ_VALID then some (s.rd Reg.FAB_ID_REQ_ID) else none

/-- Discovery runs at this device: HELLO on every port past block lock, and at the root its own id and the DISCOVER flood (R360). -/
def State.discover (s : State) : State :=
  if s.dev = stNight ∨ !s.on Reg.FAB_CTRL_EN then s
  else
    let s := forEach (ports.filter fun p => decide (2 ≤ s.rd (Reg.FAB_P_STATE_STATE p))) s State.sendHello
    if s.isRoot then
      let s := match s.grantId s.eui s.heldId s.wantedId with
        | some i => (s.takeId i).learn s.eui i
        | none => s.raise Reg.FAB_STATUS 3
      s.beginFlood 1 (leBytes 8 s.eui)
    else s

/-- A HELLO arrives at port `p` (R360, R364): the link runs the highest version both ends offer, or stays down with none. -/
def State.helloArrives (s : State) (p eui verMin verMax : Nat) (held : Option Nat) : State :=
  if !s.fabOpen p 5 then s
  else
    let s := { s with fab := { s.fab with peerEui := s.fab.peerEui.setIfInBounds p (some eui) } }
    let hi := min verMax (s.rd Reg.FAB_VER_VER_MAX)
    let lo := max verMin (s.rd Reg.FAB_VER_VER_MIN)
    if hi < lo then (s.raise Reg.FAB_STATUS 2).portDown p
    else
      let was := s.rd (Reg.FAB_P_STATE_STATE p)
      let s := (s.wr (Reg.FAB_P_STATE_VER p) hi).wr (Reg.FAB_P_STATE_STATE p) 3
      let s := match held with
        | some i => ((s.wr (Reg.FAB_P_STATE_PEER_ID p) i).wr (Reg.FAB_P_STATE_PEER_VALID p) 1)
        | none => s.wr (Reg.FAB_P_STATE_PEER_VALID p) 0
      if was = 3 then s
      else
        let s := if s.on Reg.FAB_CTRL_AUTO_ROUTE then s.sendRoutes p (s.advertised ++ s.heldId.toList) else s
        if s.isRoot then s.discover else s

/-- A flooded DISCOVER of the root with EUI `root` arrives at port `p` (R360): it passes on once, and every device but that root answers
with its ASSIGN request; a root that hears one of lower EUI takes part as an ordinary device. -/
def State.discoverArrives (s : State) (p number root : Nat) : State :=
  if !s.fabOpen p 5 ∨ s.fab.floods.contains number then s
  else
    let s := s.flood (some p) 1 number (leBytes 8 root)
    let s := if s.isRoot ∧ root < s.eui then ({ s with fab := { s.fab with demoted := true } }).raise Reg.FAB_STATUS 3 else s
    if s.isRoot then s else s.beginFlood 2 (assignBytes (.request s.eui s.heldId s.wantedId))

/-- A grant of id `id`, or of none, for the device with EUI `eui` is heard here (R360). -/
def State.grantHeard (s : State) (eui : Nat) (id : Option Nat) : State :=
  match id with
  | some i => if eui = s.eui then (s.takeId i).learn eui i else s.learn eui i
  | none => if eui = s.eui then (s.wr Reg.FAB_ID_VALID 0).raise Reg.FAB_STATUS 3 else s

/-- An ASSIGN arrives at port `p` with flood number `number` (R360). -/
def State.assignArrives (s : State) (p number : Nat) (a : Assign) : State :=
  if !s.fabOpen p 5 ∨ s.fab.floods.contains number then s
  else
    let s := s.flood (some p) 2 number (assignBytes a)
    match a with
    | .request eui held wanted =>
      if s.isRoot then
        let id := s.grantId eui held wanted
        (s.grantHeard eui id).beginFlood 2 (assignBytes (.grant eui id))
      else s
    | .grant eui id => s.grantHeard eui id

/-! ## Events (R62, R359, R369, R371) -/

/-- What an outcome of a peer's sheet does to the sheets that name it (R62): an ABORT aborts a LAUNCHED one, and an ABORT or SPOIL marks
a COMMITTED one SPOIL, with `REASON` 0x08. -/
def State.peerAction (s : State) (dev seq code : Nat) : State :=
  forUpTo 64 s fun s t =>
    if s.on (Reg.PSQ_SH_CTRL_PAIR t) ∧ s.rd (Reg.PSQ_SH_PEER_PEER_ID t) = dev ∧ s.rdw (Reg.PSQ_SH_PEER_SEQ t) = seq then
      if code = 0xF1 ∧ s.sh t = shLaunched then s.abortSheet t 8
      else if code = 0xF1 ∨ code = 0xF2 then s.spoilIf t 8
      else s
    else s

/-- The outcome `code` of sheet `seq` of device `dev` enters the peer outcome table (R371). -/
def State.peerOutcome (s : State) (dev seq code : Nat) : State :=
  let o : PeerOutcome := { dev := dev, seq := seq, code := code, from_ := s.meridian + 1 }
  match s.fab.peers.find? fun p => p.dev = dev && p.seq = seq with
  | some old =>
    if old.code = 0xF0 then { s with fab := { s.fab with peers := s.fab.peers.map fun p => if p = old then o else p } } else s
  | none =>
    let l := if s.fab.peers.length < 256 then s.fab.peers else s.fab.peers.tail
    { s with fab := { s.fab with peers := l ++ [o] } }

/-- A SHEET_EVENT of device `dev` arrives (R59, R62, R359, R371). -/
def State.sheetEventArrives (s : State) (dev : Nat) (b : List Byte) : State :=
  let byte (i : Nat) : Nat := (b.getD i 0).toNat
  let e : FabEvent := { src := dev, seq := ofLe (b.take 4), tag := byte 7, code := byte 4, spec := byte 5 }
  let s := if s.fab.evq.length < 64 then { s with fab := { s.fab with evq := s.fab.evq ++ [e] } } else s.raise Reg.FAB_STATUS 6
  if e.spec = 0 ∧ 0xF0 ≤ e.code ∧ e.code ≤ 0xF2 then (s.peerOutcome dev e.seq e.code).peerAction dev e.seq e.code else s

/-- A LATE_ERROR of device `dev` arrives at port `p` (R359, R364, R369). -/
def State.lateErrorArrives (s : State) (p dev : Nat) (b : List Byte) : State :=
  let addr := if s.rd (Reg.FAB_P_STATE_VER p) = 0x10 then 0 else ofLe ((b.drop 8).take 8)
  s.leqPush { tag := ofLe (b.take 4), src := dev, code := (b.getD 4 0).toNat, addr := addr }

/-- A JOURNAL_ACK of device `dev` arrives (R346, R359). -/
def State.journalAck (s : State) (dev : Nat) (b : List Byte) : State :=
  if s.on Reg.JRN_MATE_EN ∧ s.rd Reg.JRN_MATE_MATE_ID = dev then
    let q := ofLe (b.take 4) + (b.getD 4 0).toNat * 2 ^ 32 + (b.getD 5 0).toNat * 2 ^ 40
    (s.mateAck q).pumpCpl
  else s

/-! ## Time synchronisation (R372, R373; the election and the message's content are open, log 38) -/

/-- An offset in 1/8 tick rounded to whole ticks, halves away from zero (R373). -/
def wholeTicks (ofs : Int) : Int := if 0 ≤ ofs then (ofs + 4) / 8 else -((-ofs + 4) / 8)

/-- The correction of Meridian from an offset (R373). -/
def State.syncCorrect (s : State) (ofs : Int) : State :=
  let r := wholeTicks ofs
  if !s.on Reg.TIM_CTRL_FABRIC_SYNC ∨ s.on Reg.FAB_SYNC_STATE_MASTER ∨ s.dev = stEvening then s
  else if s.dev = stDawn ∧ 1024 < r then (s.forwardStep r.toNat).wr Reg.FAB_SYNC_STATE_STEPPED 1
  else s.slew (if 0 < r then 1 else if r < 0 then 2 else 0) (min r.natAbs 65535)

/-- The lock judgement of an offset (R373). -/
def State.syncLock (s : State) (ofs : Int) : State :=
  if ofs.natAbs ≤ 8 * s.rd Reg.FAB_SYNC_CFG_LOCK_TICKS then
    let s := { s with fab := { s.fab with inBand := s.fab.inBand + 1, outBand := 0 } }
    if 16 ≤ s.fab.inBand then s.wr Reg.FAB_SYNC_STATE_LOCKED 1 else s
  else
    let s := { s with fab := { s.fab with inBand := 0, outBand := s.fab.outBand + 1 } }
    if 4 ≤ s.fab.outBand ∧ s.on Reg.FAB_SYNC_STATE_LOCKED then (s.wr Reg.FAB_SYNC_STATE_LOCKED 0).raise Reg.FAB_STATUS 8 else s

/-- A SYNC of master `src` arrives at port `p`, sent at `sent` with `acc` of delay on its way, both in 1/8 tick (R372, R373): it passes
on with this link's delay added, and gives the offset. -/
def State.syncArrives (s : State) (p src prio sent acc : Nat) : State :=
  if !s.fabOpen p 3 ∨ src = s.devId ∨ s.on Reg.FAB_SYNC_STATE_MASTER then s
  else if s.fab.masterKnown ∧ (s.rd Reg.FAB_SYNC_STATE_MASTER_ID ≠ src ∨ sent ≤ s.fab.syncTime) then s
  else
    let acc := acc + s.rd (Reg.FAB_P_DELAY_DELAY p)
    let ofs := fitInt ((sent + acc : Nat) - (8 * s.meridian : Nat) : Int)
    let s := (s.wr Reg.FAB_SYNC_STATE_MASTER_ID src).wrw Reg.FAB_SYNC_OFS (toBits ofs 32)
    let s := { s with fab := { s.fab with masterKnown := true, syncTime := sent, lastSync := s.clock } }
    let s := forEach (ports.filter fun q => s.portUp q && q ≠ p) s fun s q =>
      s.fabQueue q { cls := 3, kind := 0, dst := 0, src := src, vc := 0, tag := prio, addr := 0,
                     payload := leBytes 8 sent ++ leBytes 8 acc }
    (s.syncCorrect ofs).syncLock ofs

/-- Every `INTERVAL` the time master sends SYNC with its Meridian; a device that may be master becomes it where none is known (R372). -/
def State.syncSend (s : State) : State :=
  let may := s.on Reg.FAB_SYNC_STATE_MASTER || (s.on Reg.FAB_SYNC_CFG_MASTER_EN && !s.fab.masterKnown)
  if s.dev = stNight ∨ !s.fabReady ∨ !s.counting ∨ !may ∨ s.clock < s.due.sync then s
  else
    let next := s.clock + s.rd Reg.FAB_SYNC_CFG_INTERVAL * 3000000
    let s := { s with due := { s.due with sync := next } }
    let s := (s.wr Reg.FAB_SYNC_STATE_MASTER 1).wr Reg.FAB_SYNC_STATE_MASTER_ID s.devId
    let s := { s with fab := { s.fab with masterKnown := true } }
    forEach (ports.filter s.portUp) s fun s p =>
      s.fabOut p 3 0 (s.rd Reg.FAB_SYNC_CFG_PRIO) (leBytes 8 (8 * s.meridian) ++ leBytes 8 0)

/-- No SYNC has come for 10 × `INTERVAL` (R373). -/
def State.syncTimeout (s : State) : State :=
  if s.fab.masterKnown ∧ !s.on Reg.FAB_SYNC_STATE_MASTER ∧
      s.fab.lastSync + 10 * s.rd Reg.FAB_SYNC_CFG_INTERVAL * 3000000 ≤ s.clock then
    let s := { s with fab := { s.fab with masterKnown := false, inBand := 0, outBand := 0 } }
    if s.on Reg.FAB_SYNC_STATE_LOCKED then (s.wr Reg.FAB_SYNC_STATE_LOCKED 0).raise Reg.FAB_STATUS 8 else s
  else s

/-- Every 100 ms a DELAY_REQ leaves by each port that is UP (R372). -/
def State.delayMeasure (s : State) : State :=
  if s.dev = stNight ∨ !s.fabReady ∨ s.clock < s.due.delay then s
  else
    let next := s.clock + 300000000
    let s := { s with due := { s.due with delay := next } }
    forEach (ports.filter s.portUp) s fun s p =>
    { s with fab := { s.fab with delayReq := s.fab.delayReq.setIfInBounds p (some (8 * s.meridian)) } }.fabOut p 3 1 0 []

/-- A DELAY_REQ arrives at port `p` and is answered after `residence` 1/8 ticks (R372). -/
def State.delayAnswer (s : State) (p residence : Nat) : State :=
  if s.fabOpen p 3 then s.fabOut p 3 2 0 (leBytes 8 residence) else s

/-- A DELAY_RESP arrives at port `p`, `part` 1/8 ticks into the present tick; the neighbour held the request for `residence` (R372). -/
def State.delayArrives (s : State) (p part residence : Nat) : State :=
  if !s.fabOpen p 3 then s
  else
    match s.fab.delayReq.toList.getD p none with
    | none => s
    | some t =>
      let s := { s with fab := { s.fab with delayReq := s.fab.delayReq.setIfInBounds p none } }
      s.wr (Reg.FAB_P_DELAY_DELAY p) (fitNat 24 (quotient (8 * s.meridian + part - t - residence) 2))

/-! ## Register writes (R375) -/

/-- The device leaves the fabric: the ports go down and the id is released (R360, R372, R375). -/
def State.fabLeave (s : State) : State :=
  let s := forEach ports s State.portDown
  let own := s.devId
  let s := if s.on Reg.FAB_ID_VALID then (s.wr (Reg.FAB_ROUTE_PORT own) 15).wr (Reg.FAB_ROUTE_HOPS own) 0 else s
  let s := ((s.wr Reg.FAB_ID_VALID 0).wr Reg.FAB_ID_DEV_ID 0).wr Reg.STR_PLN_ID_DEV_ID 0
  let s := (s.wr Reg.FAB_DEVICES_COUNT 0).wr Reg.FAB_SYNC_STATE_MASTER 0
  { s with fab := { s.fab with devices := [], demoted := false, masterKnown := false } }

/-- A write of `v` to `FAB_CTRL` (R360, R375). -/
def State.fabCtrl (s : State) (v : Nat) : State :=
  let was := s.on Reg.FAB_CTRL_EN
  let s := s.plainWrite Reg.FAB_CTRL v
  let en := s.on Reg.FAB_CTRL_EN
  let s := if was && !en then s.fabLeave
    else if en && !was then forEach (ports.filter fun p => s.portEnabled p) s fun s p => s.trainFrom p
    else s
  if bitAt v 3 then s.discover else s

/-- A write of `v` to `FAB_Pp_CFG` (R375). -/
def State.portCfg (s : State) (p v : Nat) : State :=
  let s := s.plainWrite (Reg.FAB_P_CFG p) v
  if !s.on (Reg.FAB_P_CFG_EN p) then s.portDown p
  else if s.portEnabled p ∧ s.rd (Reg.FAB_P_STATE_STATE p) = 0 then s.trainFrom p
  else s

/-- The head entry of the late-error queue is removed (R375). -/
def State.leqPop (s : State) (v : Nat) : State :=
  if bitAt v 0 then { s with fab := { s.fab with leq := s.fab.leq.tail } } else s

/-- The head entry of the event queue is removed (R375). -/
def State.evqPop (s : State) (v : Nat) : State :=
  if bitAt v 0 then { s with fab := { s.fab with evq := s.fab.evq.tail } } else s

/-- A field whose value 0 stores 1 (R375). -/
def State.atLeast1 (s : State) (f : Fld) : State := if s.on f then s else s.wr f 1

/-- A write of `v` at offset `o` of block FAB (R375). -/
def State.fabWriteReg (s : State) (o v : Nat) : State :=
  if o = Reg.FAB_CTRL then s.fabCtrl v
  else if o = Reg.FAB_STATUS then s.clearStatus o v
  else if o = Reg.FAB_IRQ_EN then s.writeIrqEn Reg.FAB_STATUS v
  else if o = Reg.FAB_SYNC_CFG then
    ((s.plainWrite o v).atLeast1 Reg.FAB_SYNC_CFG_INTERVAL).atLeast1 Reg.FAB_SYNC_CFG_LOCK_TICKS
  else if o = Reg.FAB_RD_TIMEOUT then (s.plainWrite o v).atLeast1 Reg.FAB_RD_TIMEOUT_US
  else if o = Reg.FAB_LEQ_POP then s.leqPop v
  else if o = Reg.FAB_EVQ_POP then s.evqPop v
  else if Reg.FAB_ROUTE 0 ≤ o ∧ o < Reg.FAB_ROUTE 1024 then s.routeWrite ((o - Reg.FAB_ROUTE 0) / 4) v
  else
    match (List.range 8).find? fun p => o = Reg.FAB_P_CFG p with
    | some p => s.portCfg p v
    | none => s.plainWrite o v

end Sys2Proof.Machine
end

