-- ==== Sys2Proof/Machine/Pmx.lean ====
section
/-! DEFINITION. Claims on shared resources and the shared compare timers (R35 to R37, R40, R41, R121, R289, R400, R401). -/

namespace Sys2Proof.Machine

/-! ## Classes (R36, R37, R121, R400) -/

/-- The class of the feature that function `func` of ball group `i` names; 0 where it names none (R400). -/
def ballClass (func i : Nat) : Nat :=
  if func = 0 then
    if i < 24 then 5 else if i < 72 then 6 else if i < 120 then 7 else if i < 200 then 8 else if i < 208 then 3
    else if i < 209 then 9 else if i < 217 then 4 else if i < 221 then 12 else if i < 265 then 2 else if i < 361 then 10
    else if i = 361 then 1 else 0
  else if func = 1 then
    if 221 ≤ i ∧ i < 253 then 7 else if 329 ≤ i ∧ i < 361 then 2 else 0
  else 0

/-- The class of the feature that a claim entry names; 0 where it names none (R36, R40). -/
def claimClass (kind func index : Nat) : Nat :=
  match kind with
  | 0 => ballClass func index
  | 1 => if index < 32 ∧ func < 2 then 8 else 0
  | 2 => if index < 64 then (if func = 0 then 4 else if func < 3 then 11 else 0) else 0
  | _ => 0

/-- The class that holds ball group `i` from power-on: the supervisor its EN, VWC and rail sense balls, the interlock its own (R289,
R400). -/
def heldClass (i : Nat) : Option Nat :=
  if (221 ≤ i ∧ i < 265) ∨ (329 ≤ i ∧ i < 361) then some 2 else if i = 361 then some 1 else none

/-- A valid claim entry: its number, the resource it names, feature, instance and class. -/
structure Claim where
  entry : Nat
  kind : Nat
  index : Nat
  func : Nat
  user : Nat
  cls : Nat
  deriving DecidableEq, Repr

/-- Claim entry `n` as it stands. -/
def State.claimOf (s : State) (n : Nat) : Claim :=
  let kind := s.rd (Reg.PMX_CLAIM_KIND n)
  let index := s.rd (Reg.PMX_CLAIM_INDEX n)
  let func := s.rd (Reg.PMX_CLAIM_FUNC n)
  { entry := n, kind := kind, index := index, func := func, user := s.rd (Reg.PMX_CLAIM_USER n), cls := claimClass kind func index }

/-- The valid claim entries, in order. -/
def State.claims (s : State) : List Claim := ((List.range 256).filter fun n => s.on (Reg.PMX_CLAIM_VALID n)).map s.claimOf

/-- The entry may be granted at all: it names a feature, and its resource is not held from power-on by another class; an EN ball that
the supervisor leaves free is not (R36, R289). -/
def State.claimable (s : State) (c : Claim) : Bool :=
  if c.cls = 0 then false
  else if c.kind ≠ 0 then true
  else match heldClass c.index with
    | none => true
    | some h => c.cls = h || (decide (221 ≤ c.index ∧ c.index < 253) && s.enFree (c.index - 221))

/-- Entry `a` wins against entry `b` for the same resource (R36). -/
def Claim.beats (a b : Claim) : Bool := a.cls < b.cls || (a.cls = b.cls && a.entry < b.entry)

/-- Entry `c` wins its resource among the claimable entries `l`. -/
def Claim.wins (c : Claim) (l : List Claim) : Bool :=
  l.contains c && l.all fun d => d.kind ≠ c.kind || d.index ≠ c.index || d.entry = c.entry || c.beats d

/-! ## A claim commit (R35, R36, R401) -/

/-- The denied entries enter `PMX_STATUS`: `FIRST` is the lowest denied since the last clear, and `OVF` sets with the second (R36, R40). -/
def State.claimDenied (s : State) (l : List Nat) : State :=
  match l with
  | [] => s
  | n :: _ =>
    let was := s.blockFault 31
    let held := s.on Reg.PMX_STATUS_CLAIM_DENIED
    let before := if held then s.pmx.denied else []
    let denied := before ++ l.filter fun n => !before.contains n
    let first := if held then min n (s.rd Reg.PMX_STATUS_FIRST) else n
    let s := (s.wr Reg.PMX_STATUS_CLAIM_DENIED 1).wr Reg.PMX_STATUS_FIRST first
    let s := if 1 < denied.length then s.wr Reg.PMX_STATUS_OVF 1 else s
    { s with pmx := { s.pmx with denied := denied } }.faultHeld 31 was

/-- The feature that holds timer `t`: function and instance. -/
def State.timerHolder (s : State) (t : Nat) : Option Grant := s.pmx.grants.find? fun g => g.kind = 1 && g.index = t

/-- The finisher's balls are taken away: the frame on the wire is cut short and discarded, and a pulse ends (R409). -/
def State.finCut (s : State) : State :=
  let q := if s.fin.frameEnd.isSome then s.fin.queue.tail else s.fin.queue
  { s with fin := { s.fin with queue := q, frameEnd := none, relUntil := none, spoil := false } }

/-- Features that have lost a resource stop (R37, R66, R121, R229, R401, R409): armed areas, timers, motors, stations, the finisher. -/
def State.claimsLost (s : State) (before : List Grant) : State :=
  let had (kind i func : Nat) : Bool := before.any fun g => g.kind = kind && g.index = i && g.func = func
  let lostBall (s : State) (i : Nat) : Bool := had 0 i 0 && !s.ballGranted i 0
  let s := forUpTo 8 s fun s k =>
    if s.on (Reg.STR_S_STATE_ARMED k) ∧ !s.areaGranted k then (s.disarm k).raiseInst Reg.STR_STATUS 1 Reg.STR_FIRST_STATION_STATION k else s
  let s := forUpTo 32 s fun s t =>
    let was := before.find? fun g => g.kind = 1 && g.index = t
    let now := s.timerHolder t
    if s.on (Reg.PMX_TMR_CTRL_ARMED t) ∧ ((was.map fun g => (g.func, g.user)) ≠ now.map fun g => (g.func, g.user)) then
      s.wr (Reg.PMX_TMR_CTRL_ARMED t) 0 else s
  let s := forUpTo 16 s fun s n => s.dmaClaimLost n before
  let s := forUpTo 24 s fun s n => if lostBall s n then s.bldClaimLost n else s
  let s := forUpTo 48 s fun s n => if lostBall s (24 + n) then s.stpClaimLost n else s
  let s := if lostBall s 208 then s.finCut else s
  s.updStations

/-- The grant of claim `c`: what held the resource before goes on, a feature new to it drives it from the second peripheral clock on (R36,
R401). -/
def State.grantOf (s : State) (c : Claim) : Grant :=
  let fresh := s.lockAt + 12 * ((s.clock - s.lockAt) / 12 + 2)
  let old := s.pmx.grants.find? fun g => g.kind = c.kind && g.index = c.index && g.func = c.func
  { kind := c.kind, index := c.index, func := c.func, user := c.user, entry := c.entry, liveAt := (old.map Grant.liveAt).getD fresh }

/-- A claim commit (R35, R36): every valid entry is resolved at once. -/
def State.claimCommit (s : State) : State :=
  let all := s.claims
  let able := all.filter s.claimable
  let won := all.filter fun c => c.wins able
  let before := s.pmx.grants
  let grants := won.map s.grantOf
  let s := s.wr Reg.PMX_CTRL_COMMIT_PENDING 0
  let s := forUpTo 256 s fun s n =>
    if s.on (Reg.PMX_CLAIM_GRANTED n) ∨ won.any fun c => c.entry = n then
      s.wr (Reg.PMX_CLAIM_GRANTED n) (boolNat (won.any fun c => c.entry = n)) else s
  let s := { s with pmx := { s.pmx with grants := grants } }
  let s := s.claimDenied ((all.filter fun c => !c.wins able).map Claim.entry)
  s.claimsLost before

/-- A claim commit is requested: at once in DAWN, MORNING and EVENING, else at the next Gap (R35). -/
def State.claimRequest (s : State) : State :=
  if s.dev = stNoon ∨ s.dev = stDusk then s.wr Reg.PMX_CTRL_COMMIT_PENDING 1 else s.claimCommit

/-! ## The shared compare timers (R37) -/

/-- Timer `t` is armed. -/
def State.timerArmed (s : State) (t : Nat) : Bool := decide (t < 32) && s.on (Reg.PMX_TMR_CTRL_ARMED t)

/-- The working `START`, `END` and `PERIOD` of timer `t`. -/
def State.timerTimes (s : State) (t : Nat) : Nat × Nat × Nat :=
  (s.pmx.start.toList.getD t 0, s.pmx.stop.toList.getD t 0, s.pmx.period.toList.getD t 0)

/-- A write of `v` to `PMX_TMRt_CTRL` arms the timer while its claim is granted, or disarms it (R37). -/
def State.timerCtrl (s : State) (t v : Nat) : State :=
  let s := s.plainWrite (Reg.PMX_TMR_CTRL t) v
  if bitAt v 0 then
    if (s.timerHolder t).isSome then
      let start := s.rd64 (Reg.PMX_TMR_START_LO t) (Reg.PMX_TMR_START_HI t)
      let stop := s.rd64 (Reg.PMX_TMR_END_LO t) (Reg.PMX_TMR_END_HI t)
      let period := s.rdw (Reg.PMX_TMR_PERIOD t)
      let now := s.meridian
      let s := (s.wr (Reg.PMX_TMR_CTRL_ARMED t) 1).wr (Reg.PMX_TMR_CTRL_HIT t) 0
      { s with pmx := { s.pmx with start := s.pmx.start.setIfInBounds t start, stop := s.pmx.stop.setIfInBounds t stop,
                                   period := s.pmx.period.setIfInBounds t period, armedAt := s.pmx.armedAt.setIfInBounds t now,
                                   caught := s.pmx.caught.setIfInBounds t false } }
    else s
  else s.wr (Reg.PMX_TMR_CTRL_ARMED t) 0

/-- Timer `t` has acted: it disarms, or goes on by `PERIOD` (R37). -/
def State.timerNext (s : State) (t : Nat) : State :=
  let (start, stop, period) := s.timerTimes t
  if period = 0 then s.wr (Reg.PMX_TMR_CTRL_ARMED t) 0
  else { s with pmx := { s.pmx with start := s.pmx.start.setIfInBounds t (start + period),
                                    stop := s.pmx.stop.setIfInBounds t (stop + period),
                                    caught := s.pmx.caught.setIfInBounds t false } }

/-- A periodic window that has caught its edge goes on once its `END` has passed (R37). -/
def State.timerRoll (s : State) (t : Nat) : State :=
  if s.pmx.caught.toList.getD t false ∧ (s.timerTimes t).2.1 ≤ s.meridian then s.timerNext t else s

/-- Timer `t` captures or latches `value` (R37). -/
def State.timerCap (s : State) (t value : Nat) : State :=
  (s.wr64 (Reg.PMX_TMR_CAP_LO t) (Reg.PMX_TMR_CAP_HI t) value).wr (Reg.PMX_TMR_CTRL_HIT t) 1

/-- The armed window of timer `t` captures its sensor's last edge, if that lies in it and has the polarity set (R37, R210). -/
def State.windowCapture (s : State) (t : Nat) : State :=
  let s := if s.timerArmed t then s.timerRoll t else s
  match s.timerHolder t with
  | some g =>
    let (start, stop, period) := s.timerTimes t
    let e := s.sense.edge.toList.getD g.user 0
    let fits := decide (start ≤ e ∧ e < stop ∧ s.pmx.armedAt.toList.getD t 0 ≤ e)
      && s.sense.rising.toList.getD g.user false ≠ s.on (Reg.PMX_TMR_CTRL_POL t)
    if s.timerArmed t ∧ g.func = 0 ∧ g.user < 64 ∧ fits ∧ !s.pmx.caught.toList.getD t false then
      let s := s.timerCap t e
      if period = 0 then s.timerNext t else { s with pmx := { s.pmx with caught := s.pmx.caught.setIfInBounds t true } }
    else s
  | none => s

/-- The armed window of timer `t` reaches `END`: without an edge its `MISS` bit sets, and the timer goes on or disarms (R37). -/
def State.windowEnd (s : State) (t : Nat) : State :=
  match s.timerHolder t with
  | some g =>
    if s.timerArmed t ∧ g.func = 0 ∧ (s.timerTimes t).2.1 ≤ s.meridian then
      if s.pmx.caught.toList.getD t false then s.timerNext t
      else (s.wr Reg.PMX_TMR_MISS_MISS (bitPut (s.rd Reg.PMX_TMR_MISS_MISS) t true)).timerNext t
    else s
  | none => s

/-- The armed encoder latch of timer `t` reaches `START` (R37). -/
def State.encoderLatch (s : State) (t : Nat) : State :=
  match s.timerHolder t with
  | some g =>
    if s.timerArmed t ∧ g.func = 1 ∧ g.user < 16 ∧ (s.timerTimes t).1 ≤ s.meridian then
      (s.timerCap t (s.sense.enc.toList.getD g.user 0).toNat).timerNext t
    else s
  | none => s

/-- A write of `v` at offset `o` of block PMX (R40, R41). -/
def State.pmxWrite (s : State) (o v : Nat) : State :=
  if o = Reg.PMX_CTRL then (if bitAt v 0 then s.claimRequest else s)
  else if o = Reg.PMX_STATUS then s.clearStatus o v
  else if o = Reg.PMX_IRQ_EN then s.writeIrqEn Reg.PMX_STATUS v
  else
    match (List.range 32).find? fun t => o = Reg.PMX_TMR_CTRL t with
    | some t => s.timerCtrl t v
    | none => s.plainWrite o v

end Sys2Proof.Machine
end

