-- ==== Sys2Proof/Machine/Thm.lean ====
section
/-! DEFINITION. The thermal model: updates, the conditions of throttle, dusk and night, the NVM window, self-heating and calibration
(R290 to R297, R304, R423). Thermal NIGHT itself is the system's. -/

namespace Sys2Proof.Machine

/-- A temperature in 1/64 °C. -/
def celsius (t : Int) : Int := 64 * t

/-- `THM_PMEAS` has not been written for 10 ms (R291). -/
def State.pmeasStale (s : State) : Bool := decide (s.thm.pmeasAt + 30000000 ≤ s.clock)

/-- A run of updates grows by one, or is broken (R294). -/
def runOf (n : Nat) (holds : Bool) : Nat := if holds then n + 1 else 0

/-- The hottest zone of a list of temperatures: the lowest of them, with its temperature (R290). -/
def hottest (l : List (BitVec 16)) : Nat × BitVec 16 :=
  (l.zipIdx).foldl (fun acc x => if acc.2.toInt < x.1.toInt then (x.2, x.1) else acc) (0, l.headD 0)

/-- The temperatures of an update: zones, package and scale; `K` holds while the telemetry is stale and else lies within 0.5 and 2.0
(R290, R291). The coefficients are not published, so the values are the command's (R422, log 9). -/
def State.modelValues (s : State) (t p : Vector (BitVec 16) 16) (pkg k : BitVec 16) : State :=
  let s := forUpTo 16 s fun s z =>
    (s.wr (Reg.THM_Z_T z) (t.toList.getD z 0).toNat).wr (Reg.THM_Z_P z) (p.toList.getD z 0).toNat
  let s := s.wr Reg.THM_PKG_T pkg.toNat
  let s := if s.pmeasStale then s else s.wr Reg.THM_SCALE_K (clamp 0x2000 0x8000 k.toNat)
  if s.on Reg.THM_STATE_CAL_DONE then
    let (z, h) := hottest t.toList
    (s.wr Reg.THM_STATE_TMAX h.toNat).wr Reg.THM_STATE_HOT_ZONE z
  else s

/-- The throttle condition sets (R295). -/
def State.throttleOn (s : State) : State :=
  let s := (s.wr Reg.THM_STATE_THROTTLE 1).raise Reg.THM_STATUS 0
  (s.inc Reg.THM_CNT_THROTTLE_COUNT).wr Reg.PSQ_GAP_STATUS_STRETCH_MS (s.rd Reg.THM_THROT_STRETCH_MS)

/-- The throttle condition clears (R295). -/
def State.throttleOff (s : State) : State := (s.wr Reg.THM_STATE_THROTTLE 0).wr Reg.PSQ_GAP_STATUS_STRETCH_MS 0

/-- Throttling pauses the codec lanes, the morning check, DMA and the counter dumps in the present part of the update period: they run for
`PACE` ÷ 256 of it (R295). -/
def State.paced (s : State) : Bool :=
  s.on Reg.THM_STATE_THROTTLE && decide (s.rd Reg.THM_THROT_PACE * 300000 ≤ 256 * (s.clock + 300000 - s.due.model))

/-- 100 µs of throttling are counted (R304). -/
def State.throttleTime (s : State) : State :=
  let n := s.thm.tenths + 1
  let s := { s with thm := { s.thm with tenths := n % 10 } }
  if n = 10 then s.inc Reg.THM_TIME_THROTTLE_MS else s

/-- The throttle condition at an update (R294, R295). -/
def State.evalThrottle (s : State) : State :=
  let t := s.tmax
  let up := runOf s.thm.throtSet (decide (celsius 112 ≤ t))
  let down := runOf s.thm.throtClr (decide (t ≤ celsius 109))
  let s := { s with thm := { s.thm with throtSet := up, throtClr := down } }
  let was := s.on Reg.THM_STATE_THROTTLE
  let s := if !was && decide (101 ≤ up) then s.throttleOn else if was && decide (101 ≤ down) then s.throttleOff else s
  if was || s.on Reg.THM_STATE_THROTTLE then s.throttleTime else s

/-- The dusk condition at an update: NOON becomes DUSK where it sets (R33, R294). -/
def State.evalDusk (s : State) : State :=
  let t := s.tmax
  let up := runOf s.thm.duskSet (decide (celsius 121 ≤ t))
  let down := runOf s.thm.duskClr (decide (t ≤ celsius 118))
  let s := { s with thm := { s.thm with duskSet := up, duskClr := down } }
  if !s.duskCause && decide (101 ≤ up) then
    let s := (s.wr Reg.THM_STATE_DUSK_CAUSE 1).raise Reg.THM_STATUS 1
    if s.dev = stNoon then s.goTo stDusk else s
  else if s.duskCause && decide (101 ≤ down) then s.wr Reg.THM_STATE_DUSK_CAUSE 0
  else s

/-- The NVM window at an update: it opens after its dwell and closes without one (R296); completions that waited for NVM go out (R331). -/
def State.evalNvm (s : State) : State :=
  let t := s.tmax
  let inside := s.on Reg.THM_STATE_CAL_DONE && decide (0 ≤ t) && decide (t ≤ celsius 105)
  let n := runOf s.thm.nvm inside
  let s := { s with thm := { s.thm with nvm := n } }
  if s.on Reg.THM_STATE_NVM_OK then
    if inside then s else ((s.wr Reg.THM_STATE_NVM_OK 0).raise Reg.THM_STATUS 2).pumpCpl
  else if 101 ≤ n then s.wr Reg.THM_STATE_NVM_OK 1 else s

/-- Self-heating (R297). -/
def State.evalHeat (s : State) : State :=
  let cold := if s.on Reg.THM_STATE_HEATING then decide (s.tmax < celsius 5) else decide (s.tmax < 0)
  let heat := (s.dev = stDawn || s.dev = stMorning) && s.on Reg.THM_CTRL_HEAT_EN && cold
  s.wr Reg.THM_STATE_HEATING (boolNat heat)

/-- `TELEM_STALE` sets as soon as `THM_PMEAS` has not been written for 10 ms (R291). -/
def State.staleDue (s : State) : State :=
  if s.pmeasStale ∧ s.counting ∧ s.dev ≠ stNight then s.raise Reg.THM_STATUS 3 else s

/-- An update, one in 100 µs, but for the night condition's action; the second part tells whether that condition sets (R290 to R297,
R423). -/
def State.modelUpdate (s : State) (t p : Vector (BitVec 16) 16) (pkg k : BitVec 16) : State × Bool :=
  if s.dev = stNight ∨ !s.counting ∨ s.clock < s.due.model then (s, false)
  else
    let next := s.clock + 300000
    let s := { s with due := { s.due with model := next } }.staleDue
    let s := if s.on Reg.THM_CTRL_EN then s.modelValues t p pkg k else s
    let s := ((s.evalThrottle.evalDusk).evalNvm).evalHeat
    let n := runOf s.thm.night (decide (celsius 127 ≤ s.tmax))
    ({ s with thm := { s.thm with night := n } }, decide (101 ≤ n))

/-- A diode calibration starts, and takes 2 ms (R292). -/
def State.calibrate (s : State) : State :=
  let ends := s.clock + 6000000
  { s with thm := { s.thm with cal := true }, due := { s.due with diode := ends } }

/-- The diode read ends with readings `d0` and `d1` (R292). -/
def State.calibrated (s : State) (d0 d1 : BitVec 16) : State :=
  if !s.thm.cal ∨ s.clock < s.due.diode then s
  else
    let sum := d0.toInt + d1.toInt
    let mean := if sum % 2 = 0 then sum / 2 else sum / 2 + (boolNat (Config.diodeMeanUp d0.toInt d1.toInt) : Int)
    let m := toBits mean 16
    let s := { s with thm := { s.thm with cal := false } }
    let s := forUpTo 16 s fun s z => s.wr (Reg.THM_Z_T z) m
    let s := ((s.wr Reg.THM_PKG_T m).wr Reg.THM_STATE_TMAX m).wr Reg.THM_STATE_HOT_ZONE 0
    let p := s.rd Reg.THM_PMEAS_POWER
    let s := s.wr Reg.THM_BOARD_T (if p = 0 then m else (Config.boardTemp mean p).toNat)
    let s := (s.wr Reg.THM_DIODE_D0 d0.toNat).wr Reg.THM_DIODE_D1 d1.toNat
    let s := s.wr Reg.THM_STATE_CAL_DONE 1
    if 320 < (d0.toInt - d1.toInt).natAbs then s.raise Reg.THM_STATUS 4 else s

/-- A write of `v` to `THM_CTRL`: `HEAT_EN` acts at once, and with `CAL` in DAWN a calibration starts (R292, R297, R304). -/
def State.thmCtrl (s : State) (v : Nat) : State :=
  let s := (s.plainWrite Reg.THM_CTRL v).evalHeat
  if bitAt v 1 ∧ s.dev = stDawn then s.calibrate else s

/-- A write of `v` at offset `o` of THM (R291, R295, R304). -/
def State.thmWrite (s : State) (o v : Nat) : State :=
  if o = Reg.THM_CTRL then s.thmCtrl v
  else if o = Reg.THM_THROT then
    let s := s.plainWrite o v
    let s := if s.on Reg.THM_THROT_PACE then s else s.wr Reg.THM_THROT_PACE 1
    if s.on Reg.THM_STATE_THROTTLE then s.wr Reg.PSQ_GAP_STATUS_STRETCH_MS (s.rd Reg.THM_THROT_STRETCH_MS) else s
  else if o = Reg.THM_PMEAS then
    let now := s.clock
    { s.plainWrite o v with thm := { s.thm with pmeasAt := now } }
  else s.plainWrite o v

end Sys2Proof.Machine
end

