-- ==== Sys2Proof/Machine/Sys.lean ====
section
/-! DEFINITION. The device's states: what survives NIGHT and a reset, the transitions of R33, the Gap's changes, the release of the
cores, and the PLL (R27, R33 to R38, R65, R70, R72, R194, R195, R298 to R300, R344, R410 to R413, R419). -/

namespace Sys2Proof.Machine

/-! ## Reset words from OTP, fuses, straps and NVM (R12, R38, R278, R410) -/

/-- Registers of the always-on group, which NIGHT and a system reset leave as they are (R278, R419); the levels of the enables, and what
follows from them, are as the rails stand. -/
def keptReg (o : Nat) : Bool :=
  o = Reg.SYS_AON_CFG || o = Reg.SYS_RESET_CAUSE || o = Reg.CLK_AON_STATUS || o = Reg.VSP_SECONDS || o = Reg.VSP_BOOT
    || o = Reg.PWR_STATUS || (decide (Reg.PWR_FIRST_SOURCE ≤ o) && decide (o ≤ Reg.PWR_SNAP_INFO) && o ≠ Reg.PWR_OFF_FAULT)
    || (decide (Reg.PWR_SEQ 0 ≤ o) && decide (o < Reg.PWR_R_CNT_FAULT 0)) || (decide (Reg.PWR_SNAP 0 ≤ o) && decide (o < Reg.PWR_SNAP 32))

/-- The registers that OTP, straps and NVM load (log 3); those of the always-on group at power-on only. -/
def State.loadOtp (s : State) (power : Bool) : State :=
  let s := forEach s.aon.otpRegs s fun s e => if power || !keptReg e.1 then s.setReg e.1 e.2 else s
  let s := if power then s.wr Reg.SYS_AON_CFG_AUTO_DAWN (boolNat s.aon.otpAutoDawn) else s
  let s := s.wr64 Reg.FAB_EUI_LO Reg.FAB_EUI_HI s.aon.otpEui
  let s := (s.wr Reg.FAB_ID_REQ_ID s.aon.otpReqId).wr Reg.FAB_ID_REQ_VALID (boolNat s.aon.otpReqValid)
  let s := (s.wr Reg.FAB_CTRL_ROOT (boolNat s.aon.strapRoot)).wr Reg.STR_PLN_NVME_CFG_BIFURCATE (boolNat s.aon.strapBif)
  s.wr Reg.XSP_BOOT_BANK s.aon.nvmBootBank

/-- What is left of the device after its state has been lost (R419), with the interlock latched as its registers reset (R12, R175, R176): with `die` the on-die memories and the host link too, as in NIGHT;
else the DRAM alone beside the registers, as in a system reset; with `power` the always-on group as well. -/
def State.lost (s : State) (die power : Bool) : State :=
  let cause := if power then [] else s.regs.filter fun e => keptReg e.1
  let mem := if die then [] else s.mem.filter fun e => decide (e.1 < dramBase)
  let bad := if die then [] else s.badAt.filter fun a => decide (a < dramBase)
  let die' := if die then s.dieEpoch + 1 else s.dieEpoch
  let lsi := { s.lsi with active := true, disagree := false }
  let t : State := { clock := s.clock, lockAt := s.lockAt, regs := cause, mem := mem, dieEpoch := die', dramEpoch := s.dramEpoch + 1,
                     badAt := bad, nvm := s.nvm, nvme := s.nvme, hostMem := s.hostMem, aon := s.aon, lsi := lsi, pending := s.pending,
                     due := s.due, xsp := { job := if die && !power then s.xsp.job else none },
                     csm := { draws := s.csm.draws }, hst := { linkUp := s.hst.linkUp && !die },
                     pwr := if power then {} else { s.pwr with reset := false } }
  t.loadOtp power

/-! ## The release of the cores (R38, R194, R195) -/

/-- Core `n` stops at once, and its region closes (R194, R211). -/
def State.coreStop (s : State) (n : Fin 12) : State := s.updCore n fun c => { c with region := none, wait := .none }

/-- Core `n` comes out of reset; stores that it posted before are still on their way (R20, R194). -/
def State.coreRelease (s : State) (n : Fin 12) : State := s.updCore n fun c => { posted := c.posted }

/-- `SYS_CORE_RUN` takes `v`; the bits of the cores of absent stations ignore writes (R3, R38, R194). -/
def State.runCores (s : State) (v : Nat) : State :=
  let v := if s.aon.fuse4 then v &&& 0xC3F else v &&& 0xFFF
  let old := s.rd Reg.SYS_CORE_RUN_RUN
  let s := s.wr Reg.SYS_CORE_RUN_RUN v
  let s := forEach (List.finRange 12) s fun s n =>
    if bitAt v n.val && !bitAt old n.val then s.coreRelease n
    else if bitAt old n.val && !bitAt v n.val then s.coreStop n
    else s
  s.updStations

/-- The hardware releases N11 once in a DAWN: the main PLL has locked, the model has calibrated and no up sequence runs; for an image load
it sets `ROM` first (R195, R281). -/
def State.releaseN11 (s : State) : State :=
  if s.dev = stDawn ∧ !s.released ∧ s.counting ∧ s.on Reg.THM_STATE_CAL_DONE ∧ s.phase ≠ phUp then
    let s := if s.rd Reg.SYS_STATE_DAWN_KIND = 3 then s else s.wr Reg.SYS_BOOT_MAP_ROM 1
    { s.runCores (bitPut (s.rd Reg.SYS_CORE_RUN_RUN) 11 true) with released := true }
  else s

/-! ## Changes applied at a Gap (R72) -/

/-- The pending changes are applied in the order of R72: at a Gap opening (`opens`) or the move to MORNING, or, where `cal` is not set, at a
resume. -/
def State.gapChanges (s : State) (opens cal : Bool) : State :=
  let s := if s.on Reg.PMX_CTRL_COMMIT_PENDING then s.claimCommit else s
  let s := if s.on Reg.CLK_CTRL_COMMIT_PENDING then s.divApply else s
  let s := forUpTo s.stations s fun s k => (s.maskApply k).btmApply k opens
  let s := if cal then s.calStep else s
  s.praSwaps.bankSwitch

/-- A Gap opens in NOON or DUSK (R70, R72). -/
def State.gapOpening (s : State) : State :=
  if (s.dev = stNoon ∨ s.dev = stDusk) ∧ s.gapOpen ∧ !s.psq.gapOpen then
    let s := { s with psq := { s.psq with gapOpen := true } }
    (s.inc Reg.PSQ_GAP_COUNT_COUNT).gapChanges true true
  else s

/-- The Gap closes at an exposure window's start: calibration exposures still lit are cut (R58, R70, R172). -/
def State.gapClosing (s : State) : State :=
  if (s.dev = stNoon ∨ s.dev = stDusk) ∧ !s.gapOpen ∧ s.psq.gapOpen then
    forUpTo 8 { s with psq := { s.psq with gapOpen := false } } State.calCut
  else s

/-- The device moves to MORNING, where the Gap is open, and applies what is pending (R33, R70, R72). -/
def State.backToMorning (s : State) : State :=
  let s := s.goTo stMorning
  { s with psq := { s.psq with gapOpen := true } }.gapChanges false true

/-! ## Entering DAWN (R33, R281, R299, R335) -/

/-- Every core is held in reset at the entry to DAWN (R194, R195). -/
def State.holdCores (s : State) : State := { (s.runCores 0).wr Reg.SYS_BOOT_MAP_ROM 0 with released := false, bootClear := false }

/-- The device goes from NIGHT to DAWN, and the supervisor starts the EN sequence (R33, R279). -/
def State.dawn (s : State) (kind : Nat) : State :=
  if s.dev = stNight ∧ s.aon.power ∧ !s.aon.holdUp then
    let s := { s with meridian := 0 }
    (((s.goTo stDawn).wr Reg.SYS_STATE_DAWN_KIND kind).holdCores).upSequence false
  else s

/-- The device goes from EVENING to DAWN: rails that were off come up again, stations acquire, pending changes are applied, and the cores
start again at offset 0 (R33, R72, R149, R194, R268, R281, R335). -/
def State.resume (s : State) : State :=
  if s.dev = stEvening then
    let s := ((s.goTo stDawn).wr Reg.SYS_STATE_DAWN_KIND 3).holdCores
    let s := { s with faultWake := false, xsp := { s.xsp with first := true } }
    (((s.upSequence true).gapChanges false false).btmResume).jrnBoot.releaseN11
  else s

/-- A system reset (R33, R65, R299, R332, R419): `cause` is the bit of `SYS_RESET_CAUSE`. -/
def State.systemReset (s : State) (cause : Nat) : State :=
  if s.dev = stNight then s
  else
    let s := s.lost false false
    let s := s.wrw Reg.SYS_RESET_CAUSE (bitPut (s.rdw Reg.SYS_RESET_CAUSE) cause true)
    (s.wr Reg.SYS_STATE_STATE stDawn).wr Reg.SYS_STATE_DAWN_KIND 2

/-- A supply sequence has moved on: a RESET reaction ends in a system reset (R285), and a resume may release N11 (R281). -/
def State.afterSequence (s : State) : State :=
  if s.pwr.reset ∧ s.phase = phUpDone then s.systemReset 2 else s.releaseN11

/-- A block has come to hold unmasked fault status in EVENING, which wakes the device (R33). -/
def State.settle (s : State) : State := if s.dev = stEvening ∧ s.faultWake then s.resume else s

/-! ## Entering NIGHT and EVENING (R33, R34, R280, R298) -/

/-- A requested entry to NIGHT: the PLL stops, the contents are lost, and the EN sequence is reversed (R27, R33, R280, R419). -/
def State.night (s : State) : State :=
  let prev := s.dev
  let s := s.lost true false
  ((s.wr Reg.SYS_STATE_STATE stNight).wr Reg.SYS_STATE_LAST prev).downSequence false

/-- The sheets in flight end as a thermal NIGHT gives, with no diverter driven (R298). -/
def State.nightSheets (s : State) : State :=
  let s := forUpTo 64 s fun s t =>
    if s.sh t = shCommitted then s.spoilSheet t 0x24 else if s.sh t = shLaunched then s.abortSheet t 6 else s
  { s with psq := { s.psq with purges := [], spoils := [] } }

/-- The NIGHT entry: the first entry that still waits in the ring, and how many wait (R335, R339). -/
def State.nightEntry (s : State) : State :=
  let first := match s.jrn.ring with
    | e :: _ => e.seq
    | [] => 0
  s.jrnDevice (s.devEntry 0x21 0 0 0 (first + s.jrn.ring.length * 2 ^ 64))

/-- The outputs are held off and the cores halted (R34, R298). -/
def State.outputsOff (s : State) : State := (((s.btmHalt).bldEvening).stpEvening).praAllOff

/-- The night condition sets (R33, R298): the hold-up begins, in which the PLL runs on and the night records are written. -/
def State.thermalNight (s : State) : State :=
  if s.dev = stNight then s
  else
    let ends := s.clock + 15000000
    let s := { s with aon := { s.aon with holdUp := true, wakeAtEnd := false }, faultWake := false, due := { s.due with hold := ends } }
    let s := s.vesperAo 0x0010 (s.rd Reg.THM_STATE_TMAX) (s.rd Reg.THM_STATE_HOT_ZONE) s.meridian (s.meridian / 2 ^ 32)
    let s := (s.nightSheets.nightEntry).outputsOff
    let s := ((s.goTo stNight).runCores 0).wrw Reg.MGT_ALIVE 0
    let s := s.wr Reg.SYS_RESET_CAUSE_THERMAL 1
    let s := (s.wr Reg.PWR_SEQ_STATE_PHASE phIdle)
    let s := { s with pwr := { s.pwr with reset := false, wait := false, begun := false } }
    forUpTo 32 s fun s r => if s.on (Reg.PWR_R_CFG_HOLD r) then s else s.setEn r false

/-- The thermal model's update; the night condition takes the device to NIGHT, and completions that waited for NVM alone go out when its
window closes (R290, R298, R331). -/
def State.modelStep (s : State) (t p : Vector (BitVec 16) 16) (pkg k : BitVec 16) : State :=
  let r := s.modelUpdate t p pkg k
  if r.2 then r.1.thermalNight else r.1.pumpCpl

/-- No part of the device runs on any more: every rail is off and the NVM transaction under way is cut (R298). -/
def State.holdUpCut (s : State) : State :=
  let s := forUpTo 32 s fun s r => s.setEn r false
  { s with aon := { s.aon with holdUp := false, wakeAtEnd := false }, xsp := { s.xsp with job := none } }

/-- The device in NIGHT after the hold-up, with `LAST` still at the state of before (R298). -/
def State.holdUpNight (s : State) : State :=
  (((s.holdUpCut.lost true false).wr Reg.SYS_STATE_STATE stNight).wr Reg.SYS_STATE_LAST (s.rd Reg.SYS_STATE_LAST))

/-- The hold-up ends, and an NVM write in progress is torn: the HOLD rails go down and the PLL stops; a wake phrase that completed in it wakes the
device (R298, R413, R419). -/
def State.holdUpEnd (s : State) : State :=
  if s.aon.holdUp then if s.aon.wakeAtEnd then s.holdUpNight.dawn 1 else s.holdUpNight else s

/-- The hold-up ends 5 ms after the night condition has set (R298). -/
def State.holdUpDue (s : State) : State := if s.due.hold ≤ s.clock then s.holdUpEnd else s

/-- The device enters EVENING: DRAM in self-refresh, motors coast, beams off, loops off, NVM writes off, `EVE_OFF` rails down (R33, R34,
R152, R235, R253, R264, R281, R349). -/
def State.evening (s : State) : State :=
  let s := (s.goTo stEvening).outputsOff
  (s.wr Reg.XSP_CTRL_EN 0).downSequence true

/-! ## Requests (R33, R38) -/

/-- A rail that the supply sequence names is out of its window: the rails that MORNING needs (R33, log 42). -/
def State.railOut (s : State) : Bool :=
  (List.range 32).any fun r => (s.stepOf r).isSome && !s.railGood r

/-- The DAWN self-test has passed: the ROM has loaded a valid image and cleared `ROM` (R344). -/
def State.selfTestPassed (s : State) : Bool := s.imageLoaded && !s.on Reg.SYS_BOOT_MAP_ROM

/-- The first failing condition of the request for state `target`, as its `REASON`; 0 where all hold (R33, R38). -/
def State.refusal (s : State) (target : Nat) : Nat :=
  let kind := s.rd Reg.SYS_STATE_DAWN_KIND
  if s.dev = stDawn ∧ target = stMorning then
    if !s.counting then 1
    else if s.railOut then 2
    else if kind ≠ 3 ∧ !s.selfTestPassed then 4
    else if s.tmax < 0 then 3
    else if kind ≠ 3 ∧ (!s.jrn.scanned ∨ (kind = 0 ∧ !s.vsp.scanned)) then 8
    else 0
  else if s.dev = stDawn ∧ target = stNight then 0
  else if s.dev = stMorning ∧ target = stEvening then
    if s.pageBound ∨ s.inFlight then 5 else if s.firstFaultBlock.isSome then 0x0A else 0
  else if s.dev = stMorning ∧ target = stNight then if s.pageBound ∨ s.inFlight then 5 else 0
  else if s.dev = stNoon ∧ target = stDusk then 0
  else if s.dev = stDusk ∧ target = stNoon then
    if s.duskCause then 7 else if !s.inFlight then 9 else 0
  else 6

/-- A request for state `target` (R33, R38). -/
def State.request (s : State) (target : Nat) : State :=
  let e := s.refusal target
  if e ≠ 0 then (s.raise Reg.SYS_STATUS 3).wr Reg.SYS_REFUSE_REASON e
  else if target = stNight then s.night
  else if target = stEvening then s.evening
  else s.goTo target

/-- A write of `v` to `SYS_STATE_REQ` (R38). -/
def State.requestWrite (s : State) (v : Nat) : State := if bitAt v 3 then s.request (bitsOf v 0 3) else s

/-- NOON or DUSK ends at the first tick at which nothing keeps it, after a Gap that opens in this tick (R33, R70). -/
def State.noonEnds (s : State) : State :=
  let s := s.gapOpening
  if s.dev = stNoon ∧ !s.inFlight ∧ !s.pageBound then s.backToMorning else s

@[inherit_doc State.noonEnds] def State.duskEnds (s : State) : State :=
  let s := s.gapOpening
  if s.dev = stDusk ∧ !s.inFlight then s.backToMorning else s

/-! ## Waking (R33, R411 to R413, R420) -/

/-- A wake phrase is accepted (R33, R413). -/
def State.wake (s : State) : State :=
  if s.dev = stNight then
    if s.aon.holdUp then { s with aon := { s.aon with wakeAtEnd := true } } else s.dawn 1
  else s.resume

/-- A phrase has arrived: it acts where it matches the one in OTP and the always-on domain has power (R411, R412). -/
def State.wakePhrase (s : State) (phrase : Nat) : State :=
  if s.aon.power ∧ phrase = s.aon.otpWakePhrase then s.wake else s

/-- The alarm fires (R420). -/
def State.alarmFire (s : State) : State :=
  if s.alarmDue then
    let s := ({ s with alarmArmed := false }).raise Reg.TIM_STATUS 0
    s.resume
  else s

/-! ## Power-on (R33, R410, R419) -/

/-- The device comes up in NIGHT after a power-on, and goes on to DAWN where `AUTO_DAWN` is set (R33, R410). -/
def State.powerUp (s : State) : State :=
  let s := { s with aon := { s.aon with power := true, holdUp := false, wakeAtEnd := false } }
  let s := (s.lost true true).wr Reg.SYS_STATE_STATE stNight
  if s.on Reg.SYS_AON_CFG_AUTO_DAWN then s.dawn 0 else s

/-- The always-on supply reaches its power-good level (R33). -/
def State.aoGood (s : State) : State := if s.aon.power then s else s.powerUp

/-- PORST_N is taken low and released (R410). -/
def State.porst (s : State) : State := if s.aon.power then s.powerUp else s

/-- The device loses its supplies: all but NVM and the storage is gone (R331, R419). -/
def State.powerLoss (s : State) : State :=
  let s := { s with aon := { s.aon with power := false, holdUp := false, wakeAtEnd := false } }
  (s.lost true true).wr Reg.SYS_STATE_STATE stNight

/-! ## The PLL (R299, R300) -/

/-- The first clock after lock: Meridian and the Prairie frames start (R27, R257), and with them the periods of the thermal model, the
calibration sets, the mirror, the counter dumps and the bandwidth windows (log 83). -/
def State.clockStart (s : State) : State :=
  let now := s.clock
  let due := { s.due with model := now + 300000, cal := now + 30000000, mirror := now + 3000000,
                          dump := now + 3000 * s.rd Reg.PMC_DUMP_CFG_PERIOD_US,
                          window := now + 3000 * max 1 (s.rd Reg.PMC_BW_CFG_WINDOW_US) }
  { s with meridian := 0, lockAt := now, due := due, thm := { s.thm with pmeasAt := now },
           pra := { s.pra with frame := some 0, frameAt := now, conv := Vector.replicate 4 0 } }

/-- The main PLL locks in `band` after `time` × 100 ns, with a second search or not (R27, R257, R292, R299). -/
def State.pllLock (s : State) (band time : Nat) (retry : Bool) : State :=
  if s.dev = stDawn ∧ !s.counting ∧ s.phase ≠ phUp ∧ s.phase ≠ phDown ∧ s.phase ≠ phFailed ∧ !s.pwr.reset then
    let s := ((s.wr Reg.CLK_PLL_BAND band).wr Reg.CLK_PLL_LOCK_TIME time).wr Reg.CLK_PLL_LOCKED 1
    let s := if retry then s.raise Reg.CLK_STATUS 1 else s
    s.clockStart.calibrate
  else s

/-- Loss of lock, or of the reference (`ref`), gates the PLL and starts the fixed RESET reaction of source 32 (R286, R300, R388). -/
def State.pllLoss (s : State) (ref : Bool) : State :=
  if !s.counting ∨ s.dev = stNight then s
  else
    let s := s.wr (if ref then Reg.CLK_AON_STATUS_REF_LOSS_RESET else Reg.CLK_AON_STATUS_LOL_RESET) 1
    let s := s.vesperAo 0x0011 (s.rdw Reg.CLK_AON_STATUS) 0 s.meridian (s.meridian / 2 ^ 32)
    let s := (s.wr Reg.CLK_PLL_LOCKED 0).snapshot 32 false false
    let s := s.railRaise 4 32
    s.resetReaction.afterSequence

/-- A fault of rail `r` found by `find`: in a hold-up it takes no reaction, and on a HOLD rail it ends the hold-up (R286, R298). -/
def State.railEvent (s : State) (r : Nat) (find : State → State) : State :=
  if s.aon.holdUp then
    if s.enHigh r ∧ (s.railOf r).sup ∧ s.on (Reg.PWR_R_CFG_HOLD r) then s.holdUpEnd else s
  else (find s).afterSequence

/-! ## The boot image (R195, R344) -/

/-- The on-die memory of a core, which an image may fill (R18, R197). -/
def coreMemory (a : Nat) : Bool := decide (0xE4000000 ≤ a ∧ a < 0xE4000000 + 12 * 0x40000)

/-- The boot ROM on N11 ends its check (R344): `boot` and `other` tell which banks are valid, and `image` is what the bank loaded puts
into the cores' memories (log 7). -/
def State.bootLoad (s : State) (boot other : Bool) (image : List (Nat × List Byte)) : State :=
  if s.dev ≠ stDawn ∨ !s.on Reg.SYS_BOOT_MAP_ROM ∨ !bitAt (s.rd Reg.SYS_CORE_RUN_RUN) 11 then s
  else if !boot ∧ !other then s.raise Reg.SYS_STATUS 0
  else
    let s := if boot then s
      else
        let b := s.rd Reg.XSP_BOOT_BANK
        let s := (s.wr Reg.XSP_BOOT_BANK (1 - b)).wr Reg.XSP_BOOT_BOOT_FALLBACK 1
        let s := { s with aon := { s.aon with nvmBootBank := 1 - b } }
        s.vesper 0x0102 0 (0x20 + 11) b (1 - b) 0 0
    let fits (x : Nat × List Byte) : Bool := coreMemory x.1 && coreMemory (x.1 + x.2.length - 1) && !s.fusedCore x.1
    let s := forEach (image.filter fits) s fun s x => s.writeBytes x.1 x.2
    { s with imageLoaded := true }

/-- A write of `v` to `SYS_BOOT_MAP`: a 0 takes effect at N11's next taken jump, a 1 is ignored (R38). -/
def State.bootMapWrite (s : State) (v : Nat) : State :=
  if bitAt v 0 then s else { s with bootClear := s.on Reg.SYS_BOOT_MAP_ROM }

/-- A write of `v` to `SYS_DOORBELL` (R24, R38). -/
def State.ringDoorbell (s : State) (v : Nat) : State :=
  forEach (List.finRange 12) s fun s n => if bitAt v n.val then s.updCore n fun c => { c with doorbell := true } else s

/-- A write of `v` to `SYS_RESET` (R38). -/
def State.resetWrite (s : State) (v : Nat) : State := if bitAt v 0 ∧ bitsOf v 8 8 = 0xA5 then s.systemReset 1 else s

/-- A write of `v` at offset `o` of block SYS (R38). -/
def State.sysWrite (s : State) (o v : Nat) : State :=
  if o = Reg.SYS_STATE_REQ then s.requestWrite v
  else if o = Reg.SYS_RESET then s.resetWrite v
  else if o = Reg.SYS_CORE_RUN then s.runCores v
  else if o = Reg.SYS_DOORBELL then s.ringDoorbell v
  else if o = Reg.SYS_BOOT_MAP then s.bootMapWrite v
  else s.plainWrite o v

end Sys2Proof.Machine
end

