-- ==== Sys2Proof/Machine/Vsp.lean ====
section
/-! DEFINITION. Vesper in NVM, its scan, its reads and its raise registers (R385 to R390, R397). -/

namespace Sys2Proof.Machine

/-- The slots of the Vesper log in NVM (R387). -/
def vspSlots : Nat := 65536

/-- A copy of a record is valid when its CRC passes (R387). -/
def vspValid (b : List Byte) : Bool := ofLe (b.drop 28) = crc32c (b.take 28)

/-- The valid copy of slot `slot`, A first: whether it is copy B, and its 32 bytes (R387, R390). -/
def State.vspCopy (s : State) (slot : Nat) : Option (Bool × List Byte) :=
  let at_ := s.rdw Reg.VSP_BASE_A + 32 * slot
  let a := s.xspLatch at_ (s.nvmRead at_ 32)
  let b := s.nvmRead (s.rdw Reg.VSP_BASE_B + 32 * slot) 32
  if vspValid a then some (false, a) else if vspValid b then some (true, b) else none

/-- The slot that NVM address `x` lies in, of the copies that start at `base`. -/
def vspSlotAt (base x : Nat) : Option Nat := if base ≤ x ∧ x < base + 32 * vspSlots then some ((x - base) / 32) else none

/-- The slots that hold any written byte: the others read as erased and have no valid copy. -/
def State.vspWritten (s : State) : List Nat :=
  let a := s.rdw Reg.VSP_BASE_A
  let b := s.rdw Reg.VSP_BASE_B
  (s.nvm.flatMap fun c => (vspSlotAt a c.1).toList ++ (vspSlotAt b c.1).toList).eraseDups

/-- The valid records: slot and bytes. -/
def State.vspRecords (s : State) : List (Nat × List Byte) :=
  s.vspWritten.filterMap fun i => (s.vspCopy i).map fun c => (i, c.2)

/-- `SECONDS` of a record's bytes (R385). -/
def recSeconds (b : List Byte) : Nat := ofLe ((b.drop 4).take 4)
/-- `BOOT` of a record's bytes (R385). -/
def recBoot (b : List Byte) : Nat := ofLe ((b.drop 8).take 3)
/-- `SUBSEC` of a record's bytes (R385). -/
def recSubsec (b : List Byte) : Nat := ofLe ((b.drop 11).take 1)

/-- The age key of a record in a slot: (`BOOT`, `SECONDS`, `SUBSEC`), and between equal keys the slot (R386). -/
def recKey (r : Nat × List Byte) : Nat := ((recBoot r.2 * 2 ^ 32 + recSeconds r.2) * 256 + recSubsec r.2) * vspSlots + r.1

/-- The scan of a power-on DAWN ends: the counts and the next slot are set, and record 0x0001 is raised (R386, R388; an empty log gives
0, 1 and slot 0, log 12). -/
def State.vspScan (s : State) : State :=
  if s.dev ≠ stDawn ∨ s.rd Reg.SYS_STATE_DAWN_KIND ≠ 0 ∨ s.vsp.scanned then s
  else
    let l := s.vspRecords
    let seconds := (l.map fun r => recSeconds r.2).foldl max 0
    let boot := (l.map fun r => recBoot r.2).foldl max 0
    let next := match l.map recKey with
      | [] => 0
      | k :: rest => (rest.foldl max k + 1) % vspSlots
    let s := ((s.wr Reg.VSP_SECONDS_S seconds).wr Reg.VSP_BOOT_COUNT (fitNat 24 (boot + 1))).wr Reg.VSP_NEXT_SLOT next
    let s := { s with vsp := { s.vsp with scanned := true } }
    s.vesper 0x0001 0 6 (s.rdw Reg.SYS_RESET_CAUSE) (s.rdw Reg.XSP_BOOT) 0 0

/-- VSP may write now (R298, R349, R386, R387, R397). -/
def State.vspWrites (s : State) : Bool :=
  (s.vsp.scanned || s.rd Reg.SYS_STATE_DAWN_KIND ≠ 0)
    && (s.aon.holdUp || (s.on Reg.VSP_CTRL_EN && s.nvmOpen))

/-- The record was raised by the always-on domain (R385, R388). -/
def VspRec.alwaysOn (r : VspRec) : Bool := bitAt r.flags 1

/-- The record that is written next: the oldest, or while frozen the oldest of the always-on domain (R387, R389). -/
def State.vspHead (s : State) : Option VspRec :=
  if s.on Reg.VSP_CTRL_FREEZE then s.vsp.ring.find? VspRec.alwaysOn else s.vsp.ring.head?

/-- Space has returned in the ring: record 0x0002 gives the number dropped (R387, R388). -/
def State.vspSpace (s : State) : State :=
  let n := s.vsp.lostSince
  if n ≠ 0 ∧ s.vsp.ring.length < s.vspEntries then
    ({ s with vsp := { s.vsp with lostSince := 0 } }).vesper 0x0002 0 6 n 0 0 0
  else s

/-- A `GO` of `VSP_READ_IDX` (R390). -/
def State.vspReadGo (s : State) : State :=
  if s.on Reg.VSP_READ_STATUS_BUSY then s
  else
    let slot := s.rd Reg.VSP_READ_IDX_SLOT
    { s with vsp := { s.vsp with readSlot := slot } }.wr Reg.VSP_READ_STATUS_BUSY 1

/-- `SRC` of a record that master `m` raises: 0x20 + n for core Nn (R385; log 12 for the others). -/
def raiseSource (m : Nat) : Nat := if m < 12 then 0x20 + m else (Config.raiseSrc m).toNat

/-- A write of `v` to `VSP_RAISE_CODE` by master `m`: its code is kept, and `GO` raises the record (R24, R388, R397). -/
def State.vspRaiseCode (s : State) (m v : Nat) : State :=
  let s := { s with vsp := { s.vsp with raiseCode := s.vsp.raiseCode.setIfInBounds m (bitsOf v 0 16) } }
  if bitAt v 31 then
    let p := s.vsp.raiseP.toList.getD m (Vector.replicate 4 0)
    s.vesper (bitsOf v 0 16) 16 (raiseSource m) p[0] p[1] p[2] p[3]
  else s

/-- A write of `v` to `VSP_RAISE_Pi` by master `m` (R24, R397). -/
def State.vspRaiseParam (s : State) (m i v : Nat) : State :=
  let p := (s.vsp.raiseP.toList.getD m (Vector.replicate 4 0)).setIfInBounds i v
  { s with vsp := { s.vsp with raiseP := s.vsp.raiseP.setIfInBounds m p } }

/-- A whole second outside NIGHT has passed (R386). -/
def State.operatingSecond (s : State) : State :=
  if s.dev = stNight ∨ !s.aon.power ∨ s.clock < s.due.second then s
  else
    let next := s.clock + 3000000000
    { s.wr Reg.VSP_SECONDS_S (fitNat 32 (s.rd Reg.VSP_SECONDS_S + 1)) with due := { s.due with second := next } }

/-- A write of `v` by master `m` at offset `o` of block VSP (R397). -/
def State.vspWrite (s : State) (m o v : Nat) : State :=
  if o = Reg.VSP_RAISE_CODE then s.vspRaiseCode m v
  else if Reg.VSP_RAISE_P 0 ≤ o ∧ o < Reg.VSP_RAISE_P 4 then s.vspRaiseParam m ((o - Reg.VSP_RAISE_P 0) / 4) v
  else if o = Reg.VSP_READ_IDX then
    let s := s.plainWrite o v
    if bitAt v 31 then s.vspReadGo else s
  else s.plainWrite o v

end Sys2Proof.Machine
end

