-- ==== Sys2Proof/Machine/Pmc.lean ====
section
/-! DEFINITION. The performance counters: selection, counting, wraps, windows and dumps (R222, R391 to R396, R398). -/

namespace Sys2Proof.Machine

/-- The number of instances of event `ev`, 0 where it takes no `INDEX`; none where the event is not listed (R392). -/
def eventInstances (ev : Nat) : Option Nat :=
  [0, 12, 12, 12, 16, 0, 8, 8, 8, 8, 0, 4, 4, 0, 0, 0, 4, 4, 2, 16, 0, 0, 8, 8, 8, 0, 0, 0, 8, 8, 0, 0, 24, 48, 0][ev]?

/-- The selection of event `ev` and `idx` names an event (R392). -/
def eventValid (ev idx : Nat) : Bool :=
  match eventInstances ev with
  | none => false
  | some n => n = 0 || decide (idx < n)

/-- The value of event `ev` of instance `idx` in the present tick (R391, R392; log 45 for what this model does not hold). -/
def State.pmcEvent (s : State) (ev idx : Nat) : Nat :=
  match ev with
  | 0 => 1
  | 3 => match s.cores.toList[idx]? with
    | some c => match c.wait with
      | .emit _ _ _ _ _ => 1
      | _ => 0
    | none => 0
  | 7 => match s.str.toList[idx]? with
    | some x => x.flight.length
    | none => 0
  | 13 => s.psq.hold.length
  | 27 => s.jrnUsed / 64
  | 31 => s.pra.due
  | 34 => if s.on Reg.THM_STATE_THROTTLE then Config.pmcUnheld s.meridian ev 0 else 0
  | 2 | 4 | 17 | 18 | 24 => Config.pmcUnheld s.meridian ev idx
  | 16 => if idx = 0 then sparseGet (fun _ => 0) s.pmc.events (16 * 256) else Config.pmcUnheld s.meridian ev idx
  | _ => sparseGet (fun _ => 0) s.pmc.events (ev * 256 + (if eventInstances ev = some 0 then 0 else idx))

/-- What counter `c` adds in the present tick (R391, R392). -/
def State.pmcValue (s : State) (c : Nat) : Nat :=
  let ev := s.rd (Reg.PMC_CNT_SEL_EVT c)
  let idx := s.rd (Reg.PMC_CNT_SEL_INDEX c)
  let limit := s.rd (Reg.PMC_CNT_SEL_THRESH c)
  if !eventValid ev idx then 0
  else
    let v := s.pmcEvent ev idx
    match s.rd (Reg.PMC_CNT_SEL_MODE c) with
    | 0 => v
    | 1 => if limit < v then 1 else 0
    | 2 => if v ≤ limit then 1 else 0
    | _ => 0

/-- The count of counter `c`. -/
def State.pmcCount (s : State) (c : Nat) : Nat := s.rdw (Reg.PMC_CNT_LO c) + s.rd (Reg.PMC_CNT_HI_COUNT c) * 2 ^ 32

/-- The wrap register that holds the bit of counter `c`. -/
def wrapReg (c : Nat) : Nat := if c < 32 then Reg.PMC_WRAP_LO else Reg.PMC_WRAP_HI

/-- The sticky wrap bit of counter `c` (R393). -/
def State.pmcWrapped (s : State) (c : Nat) : Bool := bitAt (s.rdw (wrapReg c)) (c % 32)

/-- Counter `c` adds `v`: it wraps at 48 bits and sets its sticky bit (R393). -/
def State.pmcAdd (s : State) (c v : Nat) : State :=
  let n := s.pmcCount c + v
  let s := (s.wrw (Reg.PMC_CNT_LO c) n).wr (Reg.PMC_CNT_HI_COUNT c) (n / 2 ^ 32)
  if n < 2 ^ 48 then s else s.wrw (wrapReg c) (bitPut (s.rdw (wrapReg c)) (c % 32) true)

/-- The counters run (R393, R398). -/
def State.pmcRuns (s : State) : Bool := s.on Reg.PMC_CTRL_EN && !s.on Reg.PMC_CTRL_FREEZE

/-- A core tick ends: every counter that runs and has not been written in it adds its value, and the events are spent (R391, R393). -/
def State.pmcTick (s : State) : State :=
  let t := if s.pmcRuns then
      forUpTo 64 s fun t c => if s.pmc.done.contains c then t else t.pmcAdd c (s.pmcValue c)
    else s
  { t with pmc := { t.pmc with events := [], done := [] } }

/-- Counter `c` takes the increment of the present tick now, if that makes it wrap (R393). -/
def State.counterWrap (s : State) (c : Nat) : State :=
  if s.pmcRuns ∧ !s.pmc.done.contains c ∧ 2 ^ 48 ≤ s.pmcCount c + s.pmcValue c then
    let s := s.pmcAdd c (s.pmcValue c)
    { s with pmc := { s.pmc with done := c :: s.pmc.done } }
  else s

/-- Source 36 is pending at core `n`: a counter that samples for it has wrapped (R394). -/
def State.pmcPending (s : State) (n : Nat) : Bool :=
  (s.rdw Reg.PMC_WRAP_LO ≠ 0 || s.rdw Reg.PMC_WRAP_HI ≠ 0) && (List.range 64).any fun c =>
    s.pmcWrapped c && s.on (Reg.PMC_CNT_SEL_SAMPLE_EN c) && s.rd (Reg.PMC_CNT_SEL_CORE c) = n

/-- What RDPMC gives for counter `c` (R222). -/
def State.rdpmc (s : State) (c : Nat) : Nat := s.pmcCount c + boolNat (s.pmcWrapped c) * 2 ^ 48

/-- A write of `CLR_ALL` (R398). -/
def State.pmcClear (s : State) : State :=
  let s := forUpTo 64 s fun s c => (s.wrw (Reg.PMC_CNT_LO c) 0).wrw (Reg.PMC_CNT_HI c) 0
  (s.wrw Reg.PMC_WRAP_LO 0).wrw Reg.PMC_WRAP_HI 0

/-- A write of `v` to `PMC_CTRL` (R398). -/
def State.pmcCtrl (s : State) (v : Nat) : State :=
  let s := s.plainWrite Reg.PMC_CTRL v
  if bitAt v 2 then s.pmcClear else s

/-- A write of `v` to the selection of counter `c`: a reserved mode is refused, an event that is not listed sets `SEL_ERR` (R391, R392). -/
def State.pmcSelect (s : State) (c v : Nat) : State :=
  if bitsOf v 6 2 = 3 then s.raise Reg.PMC_STATUS 0
  else
    let s := s.plainWrite (Reg.PMC_CNT_SEL c) v
    if eventValid (bitsOf v 0 6) (bitsOf v 8 8) then s else s.raise Reg.PMC_STATUS 0

/-- The record of a dump (R396). -/
def State.dumpRecord (s : State) (seq : Nat) : List Byte :=
  leBytes 8 seq ++ leBytes 8 s.meridian ++ leBytes 4 (s.rdw Reg.PMC_WRAP_LO) ++ leBytes 4 (s.rdw Reg.PMC_WRAP_HI)
    ++ List.replicate 40 0 ++ (List.range 64).flatMap fun c => leBytes 8 (s.rdpmc c)

/-- A dump period ends: the record is written, skipped as late, refused by the memory, or lost on A0 in a refresh (R396). -/
def State.pmcDump (s : State) (r : DumpResult) : State :=
  if s.rd Reg.PMC_DUMP_CFG_PERIOD_US = 0 ∨ !s.coreClock ∨ s.clock < s.due.dump then s
  else
    let next := s.clock + 3000 * s.rd Reg.PMC_DUMP_CFG_PERIOD_US
    let s := { s with due := { s.due with dump := next } }
    let seq := s.pmc.seq
    let rec_ := s.dumpRecord seq
    let a := s.rd64 Reg.PMC_DUMP_LO Reg.PMC_DUMP_HI + 576 * (seq % max 1 (s.rd Reg.PMC_DUMP_CFG_ENTRIES))
    let s := { s with pmc := { s.pmc with seq := seq + 1 } }.wrw Reg.PMC_DUMP_SEQ (seq + 1)
    match r with
    | .late => s.raise Reg.PMC_STATUS 1
    | .lost => s
    | .error => s.raise Reg.PMC_STATUS 2
    | .written => if dramBase ≤ a ∧ a + 576 ≤ dramEnd then s.writeBytes a rec_ else s.raise Reg.PMC_STATUS 2

/-- Every port closes its window of `WINDOW_US`: `moved` holds the bytes of each (R395). -/
def State.bwClose (s : State) (moved : Vector Nat 25) : State :=
  if s.coreClock ∧ s.due.window ≤ s.clock then
    let next := s.clock + 3000 * max 1 (s.rd Reg.PMC_BW_CFG_WINDOW_US)
    let s := { s with due := { s.due with window := next } }
    forEach (List.finRange 25) s fun s p => s.wrw (Reg.PMC_BW p.val) (moved[p] / 64)
  else s

/-- A write of `v` to the dump's configuration: its periods count from here (R396, log 83). -/
def State.dumpCfg (s : State) (v : Nat) : State :=
  let s := s.plainWrite Reg.PMC_DUMP_CFG (if bitsOf v 0 16 = 0 then v + 1 else v)
  let next := s.clock + 3000 * s.rd Reg.PMC_DUMP_CFG_PERIOD_US
  { s with due := { s.due with dump := next } }

/-- A write of `v` at offset `o` of block PMC (R393, R398). -/
def State.pmcWrite (s : State) (o v : Nat) : State :=
  if o = Reg.PMC_CTRL then s.pmcCtrl v
  else if o = Reg.PMC_DUMP_CFG then s.dumpCfg v
  else if o = Reg.PMC_BW_CFG then s.plainWrite o (if bitsOf v 0 16 = 0 then v + 1 else v)
  else if Reg.PMC_CNT_SEL 0 ≤ o ∧ o < Reg.PMC_CNT_SEL 64 then
    let c := (o - Reg.PMC_CNT_SEL 0) / 16
    if o = Reg.PMC_CNT_SEL c then s.pmcSelect c v
    else
      let s := s.plainWrite o v
      { s with pmc := { s.pmc with done := c :: s.pmc.done } }
  else s.plainWrite o v

end Sys2Proof.Machine
end

