-- ==== Sys2Proof/Machine/Mgt.lean ====
section
/-! DEFINITION. The management path and the ALIVE pin (R380 to R384, R399), and the finisher's transmitter (R409). -/

namespace Sys2Proof.Machine

/-! ## ALIVE (R380) -/

/-- Every 500 µs ALIVE toggles, unless something stops it; in NIGHT it is low (R380). -/
def State.aliveToggle (s : State) : State :=
  if s.clock < s.due.alive then s
  else
  let next := s.clock + 1500000
  let s := { s with due := { s.due with alive := next } }
  if s.dev = stNight then s.wrw Reg.MGT_ALIVE 0
  else if s.aliveStopped then s.wr Reg.MGT_ALIVE_RUN 0
  else (s.wr Reg.MGT_ALIVE_RUN 1).wr Reg.MGT_ALIVE_LEVEL (1 - s.rd Reg.MGT_ALIVE_LEVEL)

/-- `MGT_ALIVE.BLOCK`: the lowest block that stops the pin, 0x3F a halted core (R380, R399). -/
def State.aliveBlock (s : State) : Nat :=
  match s.firstFaultBlock with
  | some b => b
  | none => if s.anyHalted then 0x3F else 0

/-! ## Reading by a management controller (R381, R382) -/

/-- What a register of MGT reads as (R399). -/
def State.mgtView (s : State) (o : Nat) : Nat :=
  if o = Reg.MGT_ALIVE then
    let w := bitsSet (s.rdw o) 2 6 s.aliveBlock
    if s.aliveStopped then bitPut w 1 false else w
  else if o = Reg.MGT_UART_DATA then
    let data := match s.mgt.uartRx with
      | b :: _ => b.toNat + 256
      | [] => 0
    data + 512 * boolNat (decide (16 ≤ s.mgt.uartTx.length))
  else s.rdw o

/-- The always-on registers that R381 and R278 name: what a reset leaves, but for the levels of the supplies and the commands. -/
def alwaysOnReg (o : Nat) : Bool :=
  keptReg o && o ≠ Reg.PWR_GOOD && o ≠ Reg.PWR_EN_STATE && !((List.range 32).any fun r => o = Reg.PWR_R_CMD r)

/-- The register at offset `o` as the management path gives it: an always-on register, or outside NIGHT one of MGT (R381). -/
def State.mgtAnswer (s : State) (o : Nat) : Option RegWord :=
  if !regExists o then none
  else if alwaysOnReg o then some (s.getReg o)
  else if o / 0x10000 = 32 ∧ s.dev ≠ stNight then some (BitVec.ofNat 32 (s.mgtView o))
  else none

/-- An SMBus process call at target address `addr` asks for offset `o`; `pec` tells whether a packet error code came and was right (R381). -/
def State.smbusCall (s : State) (addr o : Nat) (pec : Option Bool) : State :=
  if !s.aon.power ∨ !s.on Reg.MGT_CTRL_SMB_EN ∨ addr ≠ s.rd Reg.MGT_SMB_CFG_ADDR then s
  else
    let bad := pec = some false || (s.on Reg.MGT_SMB_CFG_PEC_REQ && pec.isNone)
    let answer := if bad then none else s.mgtAnswer o
    let s := { s with mgt := { s.mgt with smb := some answer } }
    if answer.isNone then s.raise Reg.MGT_STATUS 2 else s

/-- The hardware responder serves the console (R382). -/
def State.uartHw (s : State) : Bool := s.aon.power && (s.on Reg.MGT_UART_CFG_UART_HW || s.dev = stNight)

/-- A byte arrives on the UART for N11 (R382). -/
def State.uartByte (s : State) (b : Byte) : State :=
  if s.uartHw ∨ !s.aon.power then s else { s with mgt := { s.mgt with uartRx := s.mgt.uartRx ++ [b] } }

/-- The value of a hex digit. -/
def hexDigit (b : Byte) : Option Nat :=
  let n := b.toNat
  if 48 ≤ n ∧ n ≤ 57 then some (n - 48)
  else if 65 ≤ n ∧ n ≤ 70 then some (n - 55)
  else if 97 ≤ n ∧ n ≤ 102 then some (n - 87)
  else none

/-- The number of a list of hex digits. -/
def hexNumber (acc : Nat) : List Byte → Option Nat
  | [] => some acc
  | b :: rest =>
    match hexDigit b with
    | some d => hexNumber (16 * acc + d) rest
    | none => none

/-- The offset that an `r` line names (R382); the line comes without its CR. -/
def readLineOffset : List Byte → Option Nat
  | 0x72 :: 0x20 :: digits => if digits.length = 6 then hexNumber 0 digits else none
  | _ => none

/-- The responder answers a line (R382). -/
def State.uartLine (s : State) (line : List Byte) : State :=
  if !s.uartHw then s
  else
    let answer := match (readLineOffset line).bind s.mgtAnswer with
      | some w => UartLine.value w
      | none => UartLine.unknown
    { s with mgt := { s.mgt with uartLines := s.mgt.uartLines ++ [answer] } }

/-- The ticks that a byte of 10 bits takes on the wire: 12 ticks of the core clock to one of 250 MHz (R25, R382). -/
def State.uartTicks (s : State) : Nat := 10 * 16 * s.rd Reg.MGT_UART_CFG_DIV * 12

/-- N11 writes a byte to send; a write that finds the FIFO full is lost (R399, log 46). -/
def State.uartSend (s : State) (b : Byte) : State :=
  if 16 ≤ s.mgt.uartTx.length then s
  else
    let done := if s.mgt.uartTx.isEmpty then s.meridian + s.uartTicks else s.mgt.txEnd
    { s with mgt := { s.mgt with uartTx := s.mgt.uartTx ++ [b], txEnd := done } }

/-- The byte on the wire is sent once its time has passed (R382). -/
def State.uartTick (s : State) : State :=
  match s.mgt.uartTx with
  | [] => s
  | b :: rest =>
    if s.meridian < s.mgt.txEnd then s
    else { s with mgt := { s.mgt with uartTx := rest, txEnd := s.mgt.txEnd + s.uartTicks, uartSent := s.mgt.uartSent ++ [b] } }

/-- A read of `MGT_UART_DATA` takes the received byte (R399). -/
def State.uartTake (s : State) : State := { s with mgt := { s.mgt with uartRx := s.mgt.uartRx.tail } }

/-! ## PMBus and the mirror (R383, R384) -/

/-- Rail `r` is polled (R383). -/
def State.railPolled (s : State) (r : Nat) : Bool := s.on Reg.MGT_CTRL_PMB_EN && s.on (Reg.MGT_PMB_MAP_EN r)

/-- A 1 ms slot of the PMBus host: the poll of rail `r` ends with what its regulator returned, or with a NAK or a bad PEC (R383). -/
def State.pmbusPoll (s : State) (r : Fin 32) (answer : Option Regulator) : State :=
  if !s.railPolled r ∨ s.clock < s.due.pmbus then s
  else
    let next := s.clock + 3000000
    let s := { s with due := { s.due with pmbus := next } }
    match answer with
    | some a =>
      let s := s.wrw (Reg.MGT_PMB_R_VI r) (a.vout.toNat + a.iout.toNat * 2 ^ 16)
      let s := s.wrw (Reg.MGT_PMB_R_ST r) (a.status.toNat + a.operation.toNat * 2 ^ 16 + 2 ^ 31)
      { s with mgt := { s.mgt with fresh := s.mgt.fresh.set r true } }
    | none =>
      let s := { s with mgt := { s.mgt with fresh := s.mgt.fresh.set r false, differs := s.mgt.differs.set r 0 } }
      (s.wr (Reg.MGT_PMB_R_ST_VALID r) 0).raise Reg.MGT_STATUS 1

/-- What the regulator of rail `r` reports against the supervisor's view: bit 0 enable, bit 1 power-good (R384). -/
def State.railDiffers (s : State) (r : Nat) : Nat :=
  let on := bitAt (s.rd (Reg.MGT_PMB_R_ST_OPERATION r)) 7
  let good := !bitAt (s.rd (Reg.MGT_PMB_R_ST_STATUS r)) 11
  boolNat (on ≠ s.enHigh r) + 2 * boolNat (good ≠ bitAt (s.rd Reg.PWR_GOOD_GOOD) r)

/-- The report of rail `r`, if it is a new one, is compared: a disagreement of its two last polls is a mismatch (R384). -/
def State.railCompare (s : State) (r : Fin 32) : State :=
  if !s.railPolled r ∨ !s.mgt.fresh[r] ∨ !s.on (Reg.MGT_PMB_R_ST_VALID r) then s
  else
    let d := s.railDiffers r
    let both := d &&& s.mgt.differs[r]
    let s := { s with mgt := { s.mgt with fresh := s.mgt.fresh.set r false, differs := s.mgt.differs.set r d } }
    if both = 0 then s
    else ((s.wr Reg.MGT_MISMATCH_INFO_RAIL r).wr Reg.MGT_MISMATCH_INFO_KIND (both - 1)).raise Reg.MGT_STATUS 0

/-- The number whose bit `i` is `f i`, of `n` bits. -/
def bitList (n : Nat) (f : Nat → Bool) : Nat := (List.range n).foldl (fun w i => w + boolNat (f i) * 2 ^ i) 0

/-- What mirror word `w` copies (R399). -/
def State.mirrorWord (s : State) (w : Nat) : Nat :=
  match w with
  | 0 => s.rdw Reg.SYS_STATE
  | 1 => s.rdw Reg.PWR_GOOD
  | 2 => s.rdw Reg.PWR_EN_STATE
  | 3 => bitList 8 (fun k => s.on (Reg.BTM_STATE_READY k)) + 256 * boolNat s.lsi.active
  | 4 => s.rdw Reg.BLD_RUNNING
  | 5 => s.rdw Reg.STP_MOVING_LO
  | 6 => s.rdw Reg.STP_MOVING_HI
  | 7 | 8 | 9 | 10 => s.rdw (Reg.PRA_LOCKED (w - 7))
  | 11 => s.rdw Reg.THM_STATE
  | 12 => (List.range 8).foldl (fun v p => v + s.rd (Reg.FAB_P_STATE_STATE p) * 4 ^ p) 0
      + 2 ^ 16 * s.rd Reg.FAB_SYNC_STATE_LOCKED
  | 13 => bitList 32 s.blockFault
  | 14 => boolNat (s.blockFault 32) + 2 * bitList 12 fun n => (s.cores.toList[n]?.map CoreX.halted).getD false
  | 15 => s.rdw Reg.PSQ_CNT_COMMIT
  | _ => 0

/-- Every 1 ms the mirror words are copied, and the regulators' reports are compared (R384). -/
def State.mirrorUpdate (s : State) : State :=
  if s.dev = stNight ∨ s.clock < s.due.mirror then s
  else
    let next := s.clock + 3000000
    let s := { s with due := { s.due with mirror := next } }
    let t := forUpTo 16 s fun t w => t.wrw (Reg.MGT_MIRROR w) (s.mirrorWord w)
    forEach (List.finRange 32) t State.railCompare

/-- A write of `v` at offset `o` of block MGT (R399). -/
def State.mgtWrite (s : State) (o v : Nat) : State :=
  if o = Reg.MGT_UART_DATA then s.uartSend (BitVec.ofNat 8 v) else s.plainWrite o v

/-! ## The finisher (R409) -/

/-- FIN_TXD begins the first frame of the queue: 100 bits at 1 Mbaud, while the ball group is granted (R401, R409). -/
def State.finStart (s : State) : State :=
  if s.fin.frameEnd.isNone ∧ !s.fin.queue.isEmpty ∧ s.ballLive 208 0 ∧ s.periphClock then
    let ends := s.clock + 300000
    { s with fin := { s.fin with frameEnd := some ends } }
  else s

/-- The last bit of the frame on the wire is sent: it leaves the queue, and the next one follows (R409). -/
def State.finSent (s : State) : State :=
  match s.fin.frameEnd with
  | some t =>
    if t ≤ s.clock then ({ s with fin := { s.fin with queue := s.fin.queue.tail, frameEnd := none } }).finStart else s
  | none => s.finStart

/-- The levels of FIN_REL and FIN_SPOIL (R401, R409). -/
def State.finRelOut (s : State) : Bool := s.ballLive 208 0 && s.fin.relUntil.any fun t => decide (s.clock < t)
@[inherit_doc State.finRelOut] def State.finSpoilOut (s : State) : Bool := s.finRelOut && s.fin.spoil

/-- The 1 ms pulse on FIN_REL and FIN_SPOIL ends (R409). -/
def State.finPulseEnd (s : State) : State :=
  match s.fin.relUntil with
  | some t => if t ≤ s.clock then { s with fin := { s.fin with relUntil := none, spoil := false } } else s
  | none => s

end Sys2Proof.Machine
end

