-- ==== Sys2Proof/Machine/CoreOps.lean ====
section
/-! DEFINITION. The Novdon cores: when one issues, its registers, exceptions, interrupts and ERET, the halt, and the core registers
(R193, R194, R211, R216 to R222). -/

namespace Sys2Proof.Machine

/-- Core `n` is released and runs: its clock runs and it has not halted (R194, R219). -/
def State.coreLive (s : State) (n : Fin 12) : Bool :=
  s.coreClock && bitAt (s.rd Reg.SYS_CORE_RUN_RUN) n.val && !(s.core n).halted

/-- Register `r` of core `n`; x0 reads 0 (R193). -/
def State.getX (s : State) (n : Fin 12) (r : Fin 32) : Word := if r = 0 then 0 else (s.core n).x[r]

/-- `s` with `v` in register `r` of core `n`; writes to x0 are discarded (R193). -/
def State.setX (s : State) (n : Fin 12) (r : Fin 32) (v : Word) : State :=
  if r = 0 then s else s.updCore n fun c => { c with x := c.x.set r v }

/-! ## Core registers (R221) -/

/-- `CORE_STATUS`. -/
def CoreX.status (c : CoreX) : Nat := boolNat c.ie + 4 * boolNat c.krn + 16 * boolNat c.hdl + 32 * boolNat c.absent

/-- `CORE_CAUSE` of an exception or interrupt (R218). -/
def causeWord (code detail : Nat) (int : Bool) : Nat := code % 256 + detail % 256 * 256 + boolNat int * 2 ^ 31

/-! ## Exceptions, interrupts and ERET (R216, R218, R219) -/

/-- The first address of the memories of core `n` (R18). -/
def coreBase (n : Nat) : Nat := 0xE4000000 + n * 0x40000

/-- The address of the halt record of core `n` (R219). -/
def haltRecord (n : Nat) : Nat := coreBase n + 0x20000 + 0x1FFE0

/-- Core `n` halts on an exception of `code` and `detail`: it leaves its record, rings N11 or N10, and ALIVE stops (R219, R380). -/
def State.coreHalt (s : State) (n : Fin 12) (code detail : Nat) : State :=
  let c := s.core n
  let words := [causeWord c.causeCode c.causeDetail c.causeInt, c.epc, c.tval.toNat % 2 ^ 32, c.tval.toNat / 2 ^ 32, c.status,
                causeWord code detail false, 0, 0]
  let s := s.writeBytes (haltRecord n) (words.flatMap (leBytes 4))
  let s := s.updCore n fun c => { c with halted := true, wait := .none }
  let s := s.updCore (if n = 11 then 10 else 11) fun c => { c with doorbell := true }
  s.wr Reg.MGT_ALIVE_RUN 0

/-- Entry for an exception or an interrupt: the offset, cause, status and mode are saved and the pc goes to the vector (R218). An
interrupt leaves `CORE_TVAL` (R216, log 48). -/
def State.coreEnter (s : State) (n : Fin 12) (epc code detail : Nat) (int : Bool) (tval : Word) : State :=
  s.updCore n fun c =>
    { c with epc := epc % 2 ^ 16, causeCode := code % 256, causeDetail := detail % 256, causeInt := int,
             tval := if int then c.tval else tval, savedIe := c.ie, savedKrn := c.krn, krn := true, ie := false, hdl := true,
             pc := c.vbase * 256 + (if int then 0x80 else 0), wait := .none }

/-- Core `n` raises an exception at offset `epc`; with `HDL` set it halts instead (R216, R218, R219). -/
def State.coreRaise (s : State) (n : Fin 12) (epc code detail : Nat) (tval : Word) : State :=
  if (s.core n).hdl then s.coreHalt n code detail else s.coreEnter n epc code detail false tval

/-- The instruction at the pc of core `n` raises an exception (R216). -/
def State.trap (s : State) (n : Fin 12) (code detail : Nat) (tval : Word) : State :=
  s.coreRaise n (s.core n).pc code detail tval

/-- An instruction of core `n` retires, as the performance counters see it (R392). -/
def State.retired (s : State) (n : Fin 12) : State := s.count 1 n 1

/-- The instruction of core `n` is done and the next one follows it; a pc that reaches 0x1_0000 raises the fetch exception (R193,
R216). -/
def State.nextPc (s : State) (n : Fin 12) : State :=
  let s := s.retired n
  let pc := (s.core n).pc + 4
  if pc < 0x10000 then s.updCore n fun c => { c with pc := pc } else s.coreRaise n pc 3 1 (BitVec.ofNat 64 pc)

/-- The fetch exception that a jump to `target` raises, if it raises one: its `DETAIL` (R193, R216). -/
def jumpFault (target : Word) : Option Nat :=
  if 0x10000 ≤ target.toNat then some 1 else if target.toNat % 4 ≠ 0 then some 4 else none

/-- Core `n` jumps to `target` after `link`; a target that no instruction can have raises the exception, and nothing else happens (R193,
R216). A taken jump of N11 ends its fetching from the boot ROM where that has been asked for (R38, R195). -/
def State.jumpTo (s : State) (n : Fin 12) (target : Word) (link : State → State) : State :=
  match jumpFault target with
  | some d => s.trap n 3 d target
  | none =>
    let s := (link (s.retired n)).updCore n fun c => { c with pc := target.toNat }
    if n = 11 ∧ s.bootClear then { s.wr Reg.SYS_BOOT_MAP_ROM 0 with bootClear := false } else s

/-- ERET (R218). -/
def State.coreReturn (s : State) (n : Fin 12) : State :=
  (s.retired n).updCore n fun c => { c with pc := c.epc, ie := c.savedIe, krn := c.savedKrn, hdl := false }

/-- Core `n` fetches from the boot ROM at its pc (R195). -/
def State.fromRom (s : State) (n : Fin 12) : Bool := decide (n = 11) && s.on Reg.SYS_BOOT_MAP_ROM && decide ((s.core n).pc < 0x4000)

/-- The instruction at the pc of core `n` cannot be fetched: an uncorrectable error in its instruction RAM (R198, R216). -/
def State.fetchBad (s : State) (n : Fin 12) : Bool :=
  !s.fromRom n && s.rangeBad (coreBase n + (s.core n).pc) 4

/-! ## Interrupts (R22, R217) -/

/-- Core `n` owns block `b` (R22). -/
def ownsBlock (n b : Nat) : Bool :=
  b = 8 ||
  (if n < 2 then b = 10 || b = 11 || b = 12
   else if n < 10 then b = n + 11 || b = 21
   else if n = 10 then b = 2 || b = 3 || b = 4 || (decide (22 ≤ b) && decide (b ≤ 25))
   else b = 0 || b = 1 || b = 5 || b = 6 || b = 7 || b = 9 || (decide (26 ≤ b) && decide (b ≤ 32)))

/-- Event status of block `b`, which raises its interrupt and is no fault status: DMA channels that are done, timer windows missed (R37,
R146). -/
def State.eventPending (s : State) (b : Nat) : Bool :=
  (b = 8 && s.rd Reg.DMA_DONE_DONE &&& s.rd Reg.DMA_DONE_IRQ_EN_EN ≠ 0)
    || (b = 31 && s.rdw Reg.PMX_TMR_MISS &&& s.rdw Reg.PMX_TMR_IRQ_EN ≠ 0)

/-- The BMK group of station `k` asks for its interrupt: an enabled source, or a measurement that is done (R191, R192). -/
def State.bmkPending (s : State) (k : Nat) : Bool :=
  s.unmasked (Reg.BMK_S_STATUS k) ≠ 0 || (s.on (Reg.BMK_S_PWR_STATUS_DONE k) && s.on (Reg.BMK_S_IRQ_EN_DONE_EN k))

/-- The interrupt of block `b` at core `n` is pending (R37, R146, R192, R217). -/
def State.blockPending (s : State) (n b : Nat) : Bool :=
  ownsBlock n b && if b = 21 then s.bmkPending (n - 2) else s.blockFault b || s.eventPending b

/-- Interrupt source `i` is pending at core `n` (R217). -/
def State.sourcePending (s : State) (n : Fin 12) (i : Nat) : Bool :=
  let c := s.core n
  if i ≤ 32 then s.blockPending n i
  else if i = 33 then c.doorbell
  else if i = 34 then !c.shev.isEmpty
  else if i = 35 then c.tcmp ≠ 0 && decide (c.tcmp ≤ s.meridian)
  else i = 36 && s.pmcPending n

/-- The interrupt sources in the order in which they are taken (R217). -/
def sourceOrder : List Nat := [34, 35, 33] ++ List.range 33 ++ [36]

/-- The first pending source that core `n` has enabled (R217). -/
def State.enabledSource (s : State) (n : Fin 12) : Option Nat :=
  sourceOrder.find? fun i => bitAt (s.core n).ien i && s.sourcePending n i

/-- The source that core `n` takes now (R217). -/
def State.interruptDue (s : State) (n : Fin 12) : Option Nat :=
  if (s.core n).ie && !(s.core n).hdl then s.enabledSource n else none

/-! ## Issuing (R193, R196, R217) -/

/-- Core `n` is at an instruction boundary: it runs and does not wait (R196, R203, R217). -/
def State.atBoundary (s : State) (n : Fin 12) : Bool := s.coreLive n && decide ((s.core n).wait = .none)

/-- Core `n` issues its next instruction: it is at a boundary at which no interrupt is to be taken (R196, R217). -/
def State.canIssue (s : State) (n : Fin 12) : Bool := s.atBoundary n && (s.interruptDue n).isNone

/-- Core `n` takes the interrupt that is due now: `CORE_EPC` names the next instruction not yet issued, or the one that waits (R217,
R218). -/
def State.enterInterrupt (s : State) (n : Fin 12) : State :=
  match s.interruptDue n with
  | some i => s.coreEnter n (s.core n).pc i 0 true 0
  | none => s

/-- Core `n` issues an instruction whose effect is `f`: nothing where it does not run or waits; an interrupt that is due is taken in its
place; the fetch exception where it cannot be fetched (R193, R196, R198, R217). -/
def State.issue (s : State) (n : Fin 12) (f : State → State) : State :=
  if !s.atBoundary n then s
  else if (s.interruptDue n).isSome then s.enterInterrupt n
  else if s.fetchBad n then s.trap n 3 6 (BitVec.ofNat 64 (s.core n).pc)
  else f s

/-- The instruction that follows after `f` on core `n`. -/
def State.issueNext (s : State) (n : Fin 12) (f : State → State) : State := s.issue n fun s => (f s).nextPc n

/-! ## The core registers (R221) -/

/-- `CORE_SPEC` of core `n` (R211). -/
def State.specWord (s : State) (n : Fin 12) : Nat :=
  match (s.core n).region with
  | none => 0
  | some r =>
    let here := s.shSeq r.tag = r.seq && (s.sh r.tag = shLaunched || s.sh r.tag = shCommitted)
    r.tag + 256 + 512 * boolNat r.joined + 1024 * boolNat (!here)

/-- `CORE_SHEV` (R220). -/
def CoreX.shevWord (c : CoreX) : Nat :=
  let head := match c.shev with
    | [] => 0
    | e :: _ => e.tag % 64 + e.outcome % 4 * 64 + e.reason % 256 * 256 + 2 ^ 31
  head + c.shev.length * 2 ^ 16 + boolNat c.shevLost * 2 ^ 30

/-- Core register `num` of core `n`; none where the number is not listed (R221). -/
def State.coreReg (s : State) (n : Fin 12) (num : Nat) : Option Nat :=
  let c := s.core n
  match num with
  | 0x000 => some n.val
  | 0x001 => some c.status
  | 0x002 => some (c.epc / 4 * 4)
  | 0x003 => some (causeWord c.causeCode c.causeDetail c.causeInt)
  | 0x004 => some (c.tval.toNat % 2 ^ 32)
  | 0x005 => some (c.tval.toNat / 2 ^ 32)
  | 0x006 => some (c.vbase * 256)
  | 0x007 => some (c.ien % 2 ^ 32)
  | 0x008 => some (c.ien / 2 ^ 32)
  | 0x009 => some (bitList 32 fun i => s.sourcePending n i)
  | 0x00A => some (bitList 5 fun i => s.sourcePending n (32 + i))
  | 0x00B => some (c.tcmp % 2 ^ 32)
  | 0x00C => some (c.tcmp / 2 ^ 32)
  | 0x00D => some (s.specWord n)
  | 0x00E => some (match c.region with | some r => r.seq | none => 0)
  | 0x00F => some c.shevWord
  | 0x010 => some (match c.shev with | e :: _ => e.seq | [] => 0)
  | 0x011 => some 0
  | 0x012 => some (boolNat c.savedIe + 4 * boolNat c.savedKrn)
  | 0x014 => some c.scratch[0].toNat
  | 0x015 => some c.scratch[1].toNat
  | 0x016 => some c.scratch[2].toNat
  | 0x017 => some c.scratch[3].toNat
  | _ => none

/-- The head entry of a core's sheet-event queue is removed (R220). -/
def CoreX.popShev (c : CoreX) : CoreX := { c with shev := c.shev.tail }

/-- Core register `num` takes `v`; a field that is not writable stays (R221). -/
def CoreX.writeReg (c : CoreX) (num v : Nat) : CoreX :=
  match num with
  | 0x001 => { c with ie := bitAt v 0, hdl := bitAt v 4, absent := bitAt v 5 }
  | 0x002 => { c with epc := bitsOf v 2 14 * 4 }
  | 0x006 => { c with vbase := bitsOf v 8 8 }
  | 0x007 => { c with ien := bitsSet c.ien 0 32 v }
  | 0x008 => { c with ien := bitsSet c.ien 32 5 v }
  | 0x00A => if bitAt v 1 then { c with doorbell := false } else c
  | 0x00B => { c with tcmp := bitsSet c.tcmp 0 32 v }
  | 0x00C => { c with tcmp := bitsSet c.tcmp 32 32 v }
  | 0x011 =>
    let c := if bitAt v 0 then c.popShev else c
    if bitAt v 1 then { c with shevLost := false } else c
  | 0x012 => { c with savedIe := bitAt v 0, savedKrn := bitAt v 2 }
  | 0x014 => { c with scratch := c.scratch.set 0 (BitVec.ofNat 32 v) }
  | 0x015 => { c with scratch := c.scratch.set 1 (BitVec.ofNat 32 v) }
  | 0x016 => { c with scratch := c.scratch.set 2 (BitVec.ofNat 32 v) }
  | 0x017 => { c with scratch := c.scratch.set 3 (BitVec.ofNat 32 v) }
  | _ => c

/-- The numbers of the core registers (R221). -/
def coreRegListed (num : Nat) : Bool := decide (num ≤ 0x017) && num ≠ 0x013

/-- MFCR may read the register in user mode (R221). -/
def userReadable (num : Nat) : Bool := num = 0x000 || num = 0x00D || num = 0x00E || num = 0x00F || num = 0x010

/-! ## Instruction words (R201, R202), for `CORE_TVAL` -/

/-- The word of format A. -/
def wordA (op rd ra rb fn : Nat) : Word := BitVec.ofNat 64 (op * 2 ^ 26 + rd * 2 ^ 21 + ra * 2 ^ 16 + rb * 2 ^ 11 + fn)
/-- The word of format I. -/
def wordI (op rd ra imm : Nat) : Word := BitVec.ofNat 64 (op * 2 ^ 26 + rd * 2 ^ 21 + ra * 2 ^ 16 + imm)

end Sys2Proof.Machine
end

