-- ==== Sys2Proof/Machine/Bus.lean ====
section
/-! DEFINITION. The control window: what a read returns, what a write does, who may write, and the posted writes of the cores (R3, R11,
R17 to R24, R26, R30). -/

namespace Sys2Proof.Machine

/-- The number of a master (R38). -/
def masterNo : Master → Nat
  | .core n => n.val
  | .host => 12
  | .jtag => 14

/-! ## Errors of an access (R17, R19, R23) -/

/-- `SYS_STATUS.DECODE_ERR` sets, with the offset, the direction and the master latched (R17, R38). -/
def State.decodeErr (s : State) (off : Nat) (write : Bool) (m : Nat) : State :=
  let s := s.raise Reg.SYS_STATUS 1
  let s := (s.wr Reg.SYS_DECODE_INFO_OFFSET off).wr Reg.SYS_DECODE_INFO_WRITE (boolNat write)
  s.wr Reg.SYS_DECODE_INFO_MASTER m

/-- The register at `off` belongs to a station that a fuse removes: it reads 0 and takes no write (R3, R118). R3 speaks of registers: an
access there to an offset that names none is a decode error as elsewhere (R17; DEDUCED, log 53). -/
def State.fusedReg (s : State) (off : Nat) : Bool :=
  let b := off / 0x10000
  let o := off % 0x10000
  (decide (13 + s.stations ≤ b) && decide (b ≤ 20))
    || (b = 21 && decide (0x1000 * (1 + s.stations) ≤ o ∧ o < 0x9000))
    || (b = 12 && decide (0x400 + 0x10 * s.stations ≤ o ∧ o < 0x480))

/-! ## Reading (R11, R30) -/

/-- `w` with field `f` showing `v`. -/
def showField (w : Nat) (f : Fld) (v : Nat) : Nat := bitsSet w f.lsb f.width v

/-- The stored word of the register at `off` with field `f` showing `v`. -/
def State.view (s : State) (off : Nat) (f : Fld) (v : Nat) : Nat := showField (s.rdw off) f v

/-- `CDC_MM_INFO0` of an entry (R118). -/
def Mismatch.info0 (x : Mismatch) : Nat :=
  x.path % 2 + x.station % 8 * 2 + x.kind % 4 * 16 + x.page % 256 * 2 ^ 8 + x.sheet % 64 * 2 ^ 16 + boolNat x.committed * 2 ^ 22

/-- `CDC_MM_INFO1` of an entry (R118). -/
def Mismatch.info1 (x : Mismatch) : Nat := x.column % 1024 + x.row % 2 ^ 20 * 2 ^ 12

/-- A number taken from the head of a queue; 0 where it is empty, as the registers reset (R12, R118, log 47). -/
def headOr0 {α : Type} (f : α → Nat) : List α → Nat
  | [] => 0
  | x :: _ => f x

/-- What a read of block VALE gives at offset `off` (R132, R134, R145): no wait is counted for the host. -/
def State.valeView (s : State) (off : Nat) : Nat :=
  if off = Reg.VALE_CNT_CORR then s.vale.corr.toNat
  else if Reg.VALE_CONFLICT 0 ≤ off ∧ off ≤ Reg.VALE_CONFLICT 15 then
    (s.vale.waits.toList.getD ((off - Reg.VALE_CONFLICT 0) / 4) 0).toNat
  else s.rdw off

/-- `STR_Sk_CUR` (R144). -/
def State.strCur (s : State) (k : Nat) : Nat :=
  let x := s.strOf k
  let band := match x.fill with
    | some f => f.band
    | none => 0
  headOr0 (fun e => e.page % 256 + e.tag % 64 * 2 ^ 8) x.queue + band % 65536 * 2 ^ 16

/-- What a read of block STR gives at offset `o` (R99, R144). `FENCED` shows the causes of R96, which at reset hold for every station, though
R99 names only the fuses there (DEDUCED, log 60). -/
def State.strView (s : State) (o : Nat) : Nat :=
  let off := 0xB0000 + o
  if 0x100 ≤ o ∧ o < 0x300 ∧ o % 0x40 = 4 then
    let k := (o - 0x100) / 0x40
    let w := s.view off (Reg.STR_S_STATE_QCOUNT k) (s.strOf k).queue.length
    showField w (Reg.STR_S_STATE_INFLIGHT k) (s.strOf k).flight.length
  else if 0x100 ≤ o ∧ o < 0x300 ∧ o % 0x40 = 0x14 then s.strCur ((o - 0x100) / 0x40)
  else if off = Reg.STR_PLN_FENCE then s.view off Reg.STR_PLN_FENCE_FENCED (bitList 8 s.fenced)
  else if off = Reg.STR_PLN_ID then s.view off Reg.STR_PLN_ID_DEV_ID s.plainId
  else if off = Reg.STR_PLN_ADMIT then s.view off Reg.STR_PLN_ADMIT_OVF_MAX (ovfMax (s.rd Reg.PSQ_SPEED_MM_S))
  else if off = Reg.STR_PLN_DIR_USED then s.plain.dir.length
  else s.rdw off

/-- What a read of block CDC gives at offset `off` (R118). -/
def State.cdcView (s : State) (off : Nat) : Nat :=
  if off = Reg.CDC_MM_STATUS then s.mmq.length
  else if off = Reg.CDC_MM_INFO0 then headOr0 Mismatch.info0 s.mmq
  else if off = Reg.CDC_MM_INFO1 then headOr0 Mismatch.info1 s.mmq
  else s.rdw off

/-- What a read of block FAB gives at offset `off` (R375). -/
def State.fabView (s : State) (off : Nat) : Nat :=
  if off = Reg.FAB_LEQ_STATUS then s.fab.leq.length
  else if off = Reg.FAB_LEQ_INFO0 then headOr0 (fun e => e.tag % 2 ^ 32) s.fab.leq
  else if off = Reg.FAB_LEQ_INFO1 then headOr0 (fun e => e.src % 1024 + e.code % 16 * 2 ^ 12) s.fab.leq
  else if off = Reg.FAB_LEQ_INFO2 then headOr0 (fun e => e.addr / 64 % 2 ^ 32) s.fab.leq
  else if off = Reg.FAB_LEQ_INFO3 then headOr0 (fun e => e.addr / 2 ^ 38 % 2 ^ 14) s.fab.leq
  else if off = Reg.FAB_EVQ_STATUS then s.fab.evq.length
  else if off = Reg.FAB_EVQ_INFO0 then headOr0 (fun e => e.seq % 2 ^ 32) s.fab.evq
  else if off = Reg.FAB_EVQ_INFO1 then
    headOr0 (fun e => e.src % 1024 + e.tag % 64 * 2 ^ 10 + e.code % 256 * 2 ^ 16 + e.spec % 2 * 2 ^ 24) s.fab.evq
  else match (List.range 8).find? fun p => off = Reg.FAB_P_CNT_FEC p with
    | some p => (s.fab.fec.toList.getD p 0).toNat
    | none => s.rdw off

/-- What a read of the BMK station group `k` gives at offset `off` (R184, R192). -/
def State.bmkView (s : State) (k off : Nat) : Nat :=
  if off = Reg.BMK_S_TEST_STATE k then
    match s.nextBeam k (s.btmOf k).app.sosBeam with
    | some b => s.view off (Reg.BMK_S_TEST_STATE_NEXT_BEAM k) b
    | none => s.rdw off
  else s.rdw off

/-- Bit k: a DEAD bit of station Sk is set (R192). -/
def State.deadSummary (s : State) : Nat :=
  bitList 8 fun k => decide (k < s.stations) && (s.rdw (Reg.BMK_S_DEAD_LO k) ≠ 0 || s.rdw (Reg.BMK_S_DEAD_HI k) ≠ 0)

/-- What master `m` reads at offset `off` of the window, where a register stands (R11): the stored word, but for what is computed. -/
def State.regView (s : State) (m off : Nat) : Nat :=
  let o := off % 0x10000
  match off / 0x10000 with
  | 0 => if off = Reg.SYS_ID then s.view off Reg.SYS_ID_STATIONS s.stations else s.rdw off
  | 1 =>
    if off = Reg.TIM_NOW_LO then s.meridian % 2 ^ 32
    else if off = Reg.TIM_NOW_HI then (s.nowShadow.toList.getD m 0).toNat
    else if off = Reg.TIM_STATUS then s.view off Reg.TIM_STATUS_SLEW_BUSY (boolNat (s.on Reg.TIM_SLEW_COUNT))
    else s.rdw off
  | 6 =>
    if off = Reg.VSP_DRING_USED then s.vsp.ring.length
    else if off = Reg.VSP_RAISE_CODE then s.vsp.raiseCode.toList.getD m 0
    else if Reg.VSP_RAISE_P 0 ≤ off ∧ off < Reg.VSP_RAISE_P 4 then
      (s.vsp.raiseP.toList.getD m (Vector.replicate 4 0)).toList.getD ((off - Reg.VSP_RAISE_P 0) / 4) 0
    else s.rdw off
  | 9 => s.valeView off
  | 10 =>
    if off = Reg.PSQ_GAP_STATUS then s.view off Reg.PSQ_GAP_STATUS_OPEN (boolNat s.gapOpen)
    else if off = Reg.PSQ_HOLD_STATUS then s.psq.hold.length + boolNat (decide (512 ≤ s.psq.hold.length)) * 2 ^ 16
    else s.rdw off
  | 11 => s.strView o
  | 12 => s.cdcView off
  | 13 | 14 | 15 | 16 | 17 | 18 | 19 | 20 =>
    let k := off / 0x10000 - 13
    if o = 0x34 then ((s.btmOf k).sosHi.toList.getD m 0).toNat
    else if o = 0x44 then s.lsiWord
    else s.rdw off
  | 21 => if off = Reg.BMK_DEAD_SUMMARY then s.deadSummary else if 0x1000 ≤ o then s.bmkView (o / 0x1000 - 1) off else s.rdw off
  | 23 =>
    let n := (o - 0x100) / 0x80
    if o < 0x100 ∨ 40 ≤ n then s.rdw off
    else if o % 0x80 = 0x38 ∨ o % 0x80 = 0x3C then 0
    else if o % 0x80 = 0 then bitsSet (s.rdw off) 3 2 0
    else s.rdw off
  | 24 =>
    let n := (o - 0x1000) / 0x80
    if 0x1000 ≤ o ∧ o % 0x80 = 0x3C then s.view off (Reg.PRA_L_STATE_EXT_SAT n) (boolNat (s.extSat n)) else s.rdw off
  | 26 => s.fabView off
  | 28 => if off = Reg.JRN_DRING_USED then s.jrnUsed else s.rdw off
  | 31 =>
    let n := (o - 0x100) / 4
    if 0x100 ≤ o ∧ o < 0x500 then
      let w := s.rdw off
      showField w (Reg.PMX_CLAIM_CLASS n) (claimClass (s.rd (Reg.PMX_CLAIM_KIND n)) (s.rd (Reg.PMX_CLAIM_FUNC n)) (s.rd (Reg.PMX_CLAIM_INDEX n)))
    else s.rdw off
  | 32 => s.mgtView off
  | _ => s.rdw off

/-- What a read by master `m` changes: the shadows of Meridian and of a station's SOS, the largest delay, the UART (R30, R176, R259,
R399). -/
def State.readEffect (s : State) (m off : Nat) : State :=
  let o := off % 0x10000
  let b := off / 0x10000
  if off = Reg.TIM_NOW_LO then { s with nowShadow := s.nowShadow.setIfInBounds m (BitVec.ofNat 32 (s.meridian / 2 ^ 32)) }
  else if 13 ≤ b ∧ b ≤ 20 ∧ o = 0x30 then
    let k := b - 13
    let taps := (s.btmOf k).sosLast
    let hi : RegWord := BitVec.ofNat 32 (taps / 32 / 2 ^ 32 % 2 ^ 27 + taps % 32 * 2 ^ 27)
    s.updBtm k fun x => { x with sosHi := x.sosHi.setIfInBounds m hi }
  else if b = 24 ∧ 0x1000 ≤ o ∧ o % 0x80 = 0x54 then s.wr (Reg.PRA_L_DELAY_MAX ((o - 0x1000) / 0x80)) 0
  else if off = Reg.MGT_UART_DATA then s.uartTake
  else s

/-- A read by master `m` at offset `off`: what follows and the word returned (R3, R11, R17). -/
def State.ctrlRead (s : State) (m off : Nat) : State × RegWord :=
  if !regExists off then (s.decodeErr off false m, 0)
  else if s.fusedReg off then (s, 0)
  else (s.readEffect m off, BitVec.ofNat 32 (s.regView m off))

/-! ## Writing (R11) -/

/-- A write of `v` at offset `o` of PSQ by master `m` (R45, R71, R74, R75). `PULSE_MS` takes a 0, which lies outside its range, as written: a
pulse of no length (DESIGN CHOICE, log 65). -/
def State.psqWrite (s : State) (m o v : Nat) : State :=
  let off := 0xA0000 + o
  if o = 0x00C then
    let s := s.plainWrite off v
    s.wr Reg.PSQ_GAP_CFG_MIN_US (max 40000 (bitsOf v 0 16))
  else if o = 0x010 then
    let x := bitsOf v 0 12
    s.wr Reg.PSQ_SPEED_MM_S (if 100 ≤ x ∧ x ≤ 3000 then x else 3000)
  else if 0x1000 ≤ o ∧ o < 0x2000 then
    let t := (o - 0x1000) / 0x40
    if o % 0x40 = 0 then s.sheetCtrl t v m
    else if o % 0x40 < 0x20 then s.sheetField t off v m
    else s.plainWrite off v
  else if 0x4000 ≤ o ∧ o < 0x5000 ∧ o % 0x10 = 4 then s.pageHi ((o - 0x4000) / 0x10) v
  else s.plainWrite off v

/-- A write of `v` at offset `o` of STR (R81, R86, R96, R99, R121, R122, R130, R144). -/
def State.strWrite (s : State) (o v : Nat) : State :=
  let off := 0xB0000 + o
  if o = 0 then s.strCtrl v
  else if 0x100 ≤ o ∧ o < 0x300 ∧ o % 0x40 = 0 then s.strStation ((o - 0x100) / 0x40) v
  else if 0x100 ≤ o ∧ o < 0x300 ∧ o % 0x40 = 0x10 then s.strPush ((o - 0x100) / 0x40) v
  else if off = Reg.STR_PLN_CTRL then s.plainCtrl v
  else if off = Reg.STR_PLN_FENCE then (s.plainWrite off v).updStations
  else if off = Reg.STR_PLN_ADMIT_GO then s.admitGo v
  else s.plainWrite off v

/-- A write of `v` at offset `o` of CDC (R109, R111, R118). -/
def State.cdcWrite (s : State) (o v : Nat) : State :=
  if 0x100 ≤ o ∧ o < 0x200 ∧ o % 0x40 = 0 then s.laneCtrl ((o - 0x100) / 0x40) v
  else if o = 0x60C then s.mmPop v
  else s.plainWrite (0xC0000 + o) v

/-- A write of `v` to `VALE_CTRL`: `CONF_CLR` clears every conflict counter (R145). -/
def State.valeCtrl (s : State) (v : Nat) : State :=
  if bitAt v 0 then { s with vale := { s.vale with waits := Vector.replicate 16 0 } } else s

/-- A write of `v` at offset `o` of DMA (R138, R143, R146). -/
def State.dmaWrite (s : State) (o v : Nat) : State :=
  if 0x100 ≤ o ∧ o < 0x500 ∧ o % 0x40 = 0 then s.dmaCtrl ((o - 0x100) / 0x40) v else s.plainWrite (0x80000 + o) v

/-- The sources of status register `st` whose cause still holds set again: driver faults, rails outside their windows, stale telemetry, the
interlock (R11, R174, R284, R291, R377; log 43). -/
def State.causesAgain (s : State) (st : Nat) : State :=
  if st = Reg.BLD_STATUS then
    forUpTo 24 s fun s n =>
      if (s.bldOf n).flt ∧ s.bl n ≠ blOff ∧ s.ballGranted n 0 then s.raiseInst st 3 Reg.BLD_FIRST_CHANNEL_CHANNEL n else s
  else if st = Reg.STP_STATUS then
    forUpTo 48 s fun s n =>
      if (s.stpOf n).flt ∧ s.sp n ≠ stpOff ∧ s.ballGranted (24 + n) 0 then s.raiseInst st 3 Reg.STP_FIRST_CHANNEL_CHANNEL n else s
  else if st = Reg.PWR_STATUS then
    forUpTo 32 s fun s r =>
      match (s.railOf r).out with
      | some high => s.railRaise (boolNat high) r
      | none => s
  else if st = Reg.THM_STATUS then (if s.pmeasStale then s.raise st 3 else s)
  else if 13 ≤ st / 0x10000 ∧ st / 0x10000 ≤ 20 then (if s.lsi.active then s.raise st 6 else s)
  else s

/-- A write to a register of a block, by the block's own rules; one of PRA comes after the exchanges of a Gap that opens now (R269). -/
def State.blockWrite (s : State) (m off v : Nat) : State :=
  let o := off % 0x10000
  match off / 0x10000 with
  | 0 => s.sysWrite off v
  | 1 => s.timWrite off v
  | 2 => s.clkWrite o v
  | 3 => s.pwrWrite o v
  | 4 => s.thmWrite off v
  | 5 => s.calWrite o v
  | 6 => s.vspWrite m off v
  | 7 => s.pmcWrite off v
  | 8 => s.dmaWrite o v
  | 9 => if o = 0 then s.valeCtrl v else s.plainWrite off v
  | 10 => s.psqWrite m o v
  | 11 => s.strWrite o v
  | 12 => s.cdcWrite o v
  | 26 => s.fabWriteReg off v
  | 27 => s.hstWrite o v
  | 28 => s.jrnWrite o v
  | 29 => s.xspWrite o v
  | 30 => s.csmWrite o v
  | 31 => s.pmxWrite off v
  | 32 => s.mgtWrite off v
  | 24 => s.gapOpening.engineWrite off v
  | _ => s.engineWrite off v

/-- A write of `v` by master `m` at offset `off` takes effect (R3, R11, R17, R377, R379). -/
def State.ctrlWrite (s : State) (m off v : Nat) : State :=
  if !regExists off then s.decodeErr off true m
  else if s.fusedReg off then s
  else
    let regs := statusRegsOf (off / 0x10000)
    if regs.contains off then (s.clearStatus off v).causesAgain off
    else if regs.contains (off - 4) then s.writeIrqEn (off - 4) v
    else s.blockWrite m off v

/-! ## Who may write (R21 to R24) -/

/-- Core `n` may write the register at `off` in user mode: it owns the block, within BMK its own group, or the register is one that R24
opens to it. -/
def userMayWrite (n off : Nat) : Bool :=
  let b := off / 0x10000
  let o := off % 0x10000
  (ownsBlock n b && (b ≠ 21 || decide (0x1000 * (n - 1) ≤ o ∧ o < 0x1000 * n)))
    || off = Reg.SYS_DOORBELL || off = Reg.VSP_RAISE_CODE || decide (Reg.VSP_RAISE_P 0 ≤ off ∧ off < Reg.VSP_RAISE_P 4)
    || ((n = 0 || n = 1 || n = 10) && decide (Reg.PMX_TMR_CTRL 0 ≤ off ∧ off < Reg.PMX_TMR_CTRL 32)
        && [Reg.PMX_TMR_CTRL 0, Reg.PMX_TMR_START_LO 0, Reg.PMX_TMR_START_HI 0, Reg.PMX_TMR_END_LO 0, Reg.PMX_TMR_END_HI 0,
            Reg.PMX_TMR_PERIOD 0].any fun r => (off - Reg.PMX_TMR_CTRL 0) % 0x20 = r - Reg.PMX_TMR_CTRL 0)

/-- A write by core `n` at offset `off` is refused for ownership: user mode, a populated block, not its own (R17, R23). -/
def State.ownRefused (s : State) (n : Fin 12) (off : Nat) : Bool :=
  !(s.core n).krn && decide (off / 0x10000 ≤ 32) && !userMayWrite n.val off

/-! ## Posted writes (R20) -/

/-- The oldest posted write of core `n` takes effect. -/
def State.drainOne (s : State) (n : Fin 12) : State :=
  match (s.core n).posted with
  | [] => s
  | (off, v) :: rest => (s.updCore n fun c => { c with posted := rest }).ctrlWrite n.val off v.toNat

/-- Every posted write of core `n` takes effect, in order. -/
def State.drainAll (s : State) (n : Fin 12) : State :=
  let l := (s.core n).posted
  forEach l (s.updCore n fun c => { c with posted := [] }) fun s e => s.ctrlWrite n.val e.1 e.2.toNat

/-- The posted writes of core `n` to block `b` take effect, in order. -/
def State.drainBlock (s : State) (n : Fin 12) (b : Nat) : State :=
  let mine := (s.core n).posted.filter fun e => e.1 / 0x10000 = b
  let s := s.updCore n fun c => { c with posted := c.posted.filter fun e => e.1 / 0x10000 ≠ b }
  forEach mine s fun s e => s.ctrlWrite n.val e.1 e.2.toNat

/-- A write joins the posted writes of core `n`; one that finds eight pending waits for the oldest (R20, R196). -/
def State.postWrite (s : State) (n : Fin 12) (off : Nat) (v : RegWord) : State :=
  let s := if 8 ≤ (s.core n).posted.length then s.drainOne n else s
  s.updCore n fun c => { c with posted := c.posted ++ [(off, v)] }

/-- The earlier writes of master `m` to the block of `off` take effect (R20). -/
def State.drainFor (s : State) (m : Master) (off : Nat) : State :=
  match m with
  | .core n => s.drainBlock n (off / 0x10000)
  | _ => s

/-! ## Access by a master (R17 to R24) -/

/-- Master `m` is there to make an access: the core runs, or the host's link is up; a station without its clock takes none. -/
def State.masterLive (s : State) (m : Master) : Bool :=
  match m with
  | .core n => s.coreLive n
  | .host => s.hst.linkUp && s.coreClock
  | .jtag => s.coreClock

/-- A host write outside HST is dropped: `OWN_ERR`, and where it decodes to no register `DECODE_ERR` too (R17, R19, R21). -/
def State.hostRefused (s : State) (off : Nat) (decoded : Bool) : State :=
  let s := s.raiseAll Reg.SYS_STATUS (if decoded then [2] else [1, 2])
  let s := (s.wr Reg.SYS_DECODE_INFO_OFFSET off).wr Reg.SYS_DECODE_INFO_WRITE 1
  s.wr Reg.SYS_DECODE_INFO_MASTER 12

/-- Master `m` writes the register at `off`, where a write that is allowed does `f`. A host write outside HST is dropped (R21), a
user-mode write to another's block raises the store-access exception (R23), and earlier writes of the master come first (R20). -/
def State.asMaster (s : State) (m : Master) (off : Nat) (f : State → State) : State :=
  if !s.masterLive m then s
  else
    match m with
    | .core n =>
      if s.ownRefused n off then (s.ownErr 2 off n.val).trap n 5 3 (BitVec.ofNat 64 (0xF0000000 + off))
      else
        let s := s.drainFor m off
        if s.masterLive m then f s else s
    | .host => if off / 0x10000 = 27 then f s else s.hostRefused off (regExists off)
    | .jtag => f s

/-- Master `m` writes `v` to the register at `off` (R11, R17 to R24). -/
def State.masterWrite (s : State) (m : Master) (off : Nat) (v : RegWord) : State :=
  s.asMaster m off fun s => s.ctrlWrite (masterNo m) off v.toNat

/-- Master `m` stores `size` bytes at `off` (R19): a narrow, wide or unaligned one has no effect but `DECODE_ERR`. -/
def State.busStore (s : State) (m : Master) (off size : Nat) (v : Word) : State :=
  if size = 4 ∧ off % 4 = 0 then s.masterWrite m off (v.truncate 32)
  else if !s.masterLive m then s
  else if m = .host ∧ off / 0x10000 ≠ 27 then s.hostRefused off false
  else s.decodeErr off true (masterNo m)

/-- `v` with bit `i` written as `b`. -/
def withBit (v : RegWord) (i : Nat) (b : Bool) : RegWord := BitVec.ofNat 32 (bitPut v.toNat i b)

/-- Master `m` reads the register at `off`: what follows, and the word (R17, R20, R30). -/
def State.masterRead (s : State) (m : Master) (off : Nat) : State × RegWord :=
  if !s.masterLive m then (s, 0) else (s.drainFor m off).ctrlRead (masterNo m) off

end Sys2Proof.Machine
end

