-- ==== Sys2Proof/Machine/Novdon.lean ====
section
/-! DEFINITION. What the Novdon instructions do: loads, stores and atomics over the memory map, computing, waiting, sampling, timed
commands, regions and interrupts (R193 to R222). -/

namespace Sys2Proof.Machine

/-! ## Memory as a core sees it (R197 to R200) -/

/-- The kinds of access. -/
inductive Access where
  | load
  | store
  | amo
  deriving DecidableEq, Repr

/-- The local address that core `n` reaches at `a`: its own data scratchpad has an alias at 0 (R197). -/
def localAddr (n : Fin 12) (a : Nat) : Nat := if a < 0x20000 then coreBase n + 0x20000 + a else a

/-- Address `l` lies in the data scratchpad of a core (R18). -/
def inScratchpad (l : Nat) : Bool := decide (0xE4000000 ≤ l) && decide (0x20000 ≤ (l - 0xE4000000) % 0x40000)

/-- `len` bytes at `l` cross a boundary of `size` bytes. -/
def crosses (l len size : Nat) : Bool := l / size ≠ (l + len - 1) / size

/-- Core `n` may make the access to address `a` in its present mode (R197). -/
def State.accessAllowed (s : State) (n : Fin 12) (k : Access) (a : Nat) : Bool :=
  match placeOf (localAddr n a) with
  | .unmapped => false
  | .dram => (s.core n).krn
  | .table => k ≠ .store || (s.core n).krn || n.val = 2 + tableStation a
  | .coreMem _ => k = .load || (s.core n).krn || decide (a < 0x20000)
  | _ => true

/-- An AMO may address the memory at `l` (R198). -/
def amoMemory (l : Nat) : Bool :=
  match placeOf l with
  | .vale | .dram => true
  | .coreMem _ => inScratchpad l
  | _ => false

/-- The `DETAIL` of the access exception that an access of `len` bytes to `a` raises, if it raises one (R135, R197 to R199). -/
def State.accessFault (s : State) (n : Fin 12) (k : Access) (a len : Nat) : Option Nat :=
  let l := localAddr n a
  let place := placeOf l
  if !s.accessAllowed n k a then some 1
  else if k = .amo ∧ !amoMemory l then some 8
  else if place = .control then none
  else if l % len ≠ 0 ∧ (k = .amo ∨ place ≠ .vale) then some 4
  else if place = .vale ∧ crosses l len 0x80000 then some 5
  else if k ≠ .store ∧ !s.absentAt l ∧ s.rangeBad l len then some 6
  else none

/-- What the memory itself notes of a refused access, with the address: `XBANK` or `UNCORR` of a single-port bank, `TBL_PARITY` of a table
bank (R134 to R136). -/
def State.accessNoted (s : State) (n : Fin 12) (k : Access) (l detail : Nat) : State :=
  match placeOf l with
  | .vale =>
    if detail = 5 then s.valeErr 2 l n (k ≠ .load)
    else if detail = 6 then s.valeErr 0 l n (k ≠ .load)
    else s
  | .table => if detail = 6 then s.valeErr 1 l n (k ≠ .load) else s
  | _ => s

/-- A Vale access that crosses a bank word takes two accesses, and is counted (R135). -/
def State.splitNoted (s : State) (l len : Nat) : State :=
  if placeOf l = .vale ∧ crosses l len 64 then (s.inc Reg.VALE_CNT_SPLIT_COUNT).count 5 0 1 else s

/-- An ABSENT answer reached core `n` (R199). -/
def State.markAbsent (s : State) (n : Fin 12) : State := s.updCore n fun c => { c with absent := true }

/-- The address of a load or store: x[ra] + sign-extended imm16 (R197). -/
def State.effAddr (s : State) (n : Fin 12) (ra : Fin 32) (imm : BitVec 16) : Word := s.getX n ra + imm.signExtend 64

/-- `len` bytes as a register holds them, sign- or zero-extended (R202). -/
def extended (len : Nat) (signed : Bool) (v : Nat) : Word :=
  if signed then BitVec.ofInt 64 (signedOf v (8 * len)) else BitVec.ofNat 64 v

/-- A load from the control window at offset `off` (R19, R20, R30): earlier writes of the core to that block come first. -/
def State.controlLoad (s : State) (n : Fin 12) (len : Nat) (signed : Bool) (rd : Fin 32) (off : Nat) : State :=
  if len ≠ 4 ∨ off % 4 ≠ 0 then ((s.decodeErr off false n).setX n rd 0).nextPc n
  else
    let s := s.drainBlock n (off / 0x10000)
    if s.coreLive n then
      let r := s.ctrlRead n off
      (r.1.setX n rd (extended 4 signed r.2.toNat)).nextPc n
    else s

/-- A store to the control window at offset `off` (R17, R19, R20, R23). -/
def State.controlStore (s : State) (n : Fin 12) (len off : Nat) (addr v : Word) : State :=
  if len ≠ 4 ∨ off % 4 ≠ 0 then (s.decodeErr off true n).nextPc n
  else if s.ownRefused n off then (s.ownErr 2 off n).trap n 5 3 addr
  else
    let s := s.postWrite n off (v.truncate 32)
    if s.coreLive n then s.nextPc n else s

/-- Core `n` loads `len` bytes (R197 to R199, R202). -/
def State.coreLoad (s : State) (n : Fin 12) (len : Nat) (signed : Bool) (rd ra : Fin 32) (imm : BitVec 16) : State :=
  s.issue n fun s =>
    let addr := s.effAddr n ra imm
    let a := addr.toNat
    let l := localAddr n a
    match s.accessFault n .load a len with
    | some d => (s.accessNoted n .load l d).trap n 4 d addr
    | none =>
      if placeOf l = .control then s.controlLoad n len signed rd (l - 0xF0000000)
      else if s.absentAt l then ((s.markAbsent n).setX n rd 0).nextPc n
      else ((s.splitNoted l len).setX n rd (extended len signed (s.readLE l len))).nextPc n

/-- Core `n` stores `len` bytes of x[rs] (R197 to R200, R202). -/
def State.coreStore (s : State) (n : Fin 12) (len : Nat) (rs ra : Fin 32) (imm : BitVec 16) : State :=
  s.issue n fun s =>
    let addr := s.effAddr n ra imm
    let a := addr.toNat
    let l := localAddr n a
    let v := s.getX n rs
    match s.accessFault n .store a len with
    | some d => (s.accessNoted n .store l d).trap n 5 d addr
    | none =>
      if placeOf l = .control then s.controlStore n len (l - 0xF0000000) addr v
      else if s.absentAt l then (s.markAbsent n).nextPc n
      else ((s.splitNoted l len).busWrite n l (leBytes len v.toNat)).nextPc n

/-- An AMO of core `n` at x[ra]: `f` gives the word to store from the old word, where it stores one; rd receives the old word (R200,
R202). -/
def State.amo (s : State) (n : Fin 12) (rd ra : Fin 32) (f : State → Word → Option Word) : State :=
  s.issue n fun s =>
    let addr := s.getX n ra
    let a := addr.toNat
    let l := localAddr n a
    match s.accessFault n .amo a 8 with
    | some d => (s.accessNoted n .amo l d).trap n 5 d addr
    | none =>
      if s.absentAt l then ((s.markAbsent n).setX n rd 0).nextPc n
      else
        let old : Word := BitVec.ofNat 64 (s.readLE l 8)
        match f s old with
        | some v => ((s.busWrite n l (leBytes 8 v.toNat)).setX n rd old).nextPc n
        | none => (s.setX n rd old).nextPc n

/-! ## Computing (R202) -/

/-- x[rd] ← `f` of x[ra] and x[rb]. -/
def State.opR (s : State) (n : Fin 12) (rd ra rb : Fin 32) (f : Word → Word → Word) : State :=
  s.issueNext n fun s => s.setX n rd (f (s.getX n ra) (s.getX n rb))

/-- x[rd] ← `f` of x[ra]. -/
def State.opI (s : State) (n : Fin 12) (rd ra : Fin 32) (f : Word → Word) : State :=
  s.issueNext n fun s => s.setX n rd (f (s.getX n ra))

/-- 1 where the comparison holds, else 0. -/
def flag (b : Bool) : Word := if b then 1 else 0

/-- The high 64 bits of a product (R202). -/
def mulHigh (a b : Int) : Word := BitVec.ofInt 64 (a * b / 2 ^ 64)

/-- The signed quotient: all ones for a divisor of 0; the most negative value by −1 gives that value (R202). -/
def divS (a b : Word) : Word := if b = 0 then BitVec.allOnes 64 else BitVec.ofInt 64 (a.toInt.tdiv b.toInt)
/-- The signed remainder: the dividend for a divisor of 0 (R202). -/
def remS (a b : Word) : Word := if b = 0 then a else BitVec.ofInt 64 (a.toInt.tmod b.toInt)
/-- The unsigned quotient: all ones for a divisor of 0 (R202). -/
def divU (a b : Word) : Word := if b = 0 then BitVec.allOnes 64 else BitVec.ofNat 64 (a.toNat / b.toNat)
/-- The unsigned remainder: the dividend for a divisor of 0 (R202). -/
def remU (a b : Word) : Word := if b = 0 then a else BitVec.ofNat 64 (a.toNat % b.toNat)

/-! ## Branches and jumps (R201, R202) -/

/-- The pc of core `n` as a word. -/
def State.pcWord (s : State) (n : Fin 12) : Word := BitVec.ofNat 64 (s.core n).pc

/-- The offset of the next instruction of core `n` as a word. -/
def State.linkWord (s : State) (n : Fin 12) : Word := BitVec.ofNat 64 ((s.core n).pc + 4)

/-- The target `off` words from the pc of core `n`. -/
def State.pcTarget (s : State) (n : Fin 12) (off : Word) : Word := s.pcWord n + off * 4

/-- A branch of core `n` on `c` of x[ra] and x[rb] (R201, R202). -/
def State.branch (s : State) (n : Fin 12) (ra rb : Fin 32) (off : BitVec 16) (c : Word → Word → Bool) : State :=
  s.issue n fun s =>
    if c (s.getX n ra) (s.getX n rb) then s.jumpTo n (s.pcTarget n (off.signExtend 64)) id else s.nextPc n

/-! ## Privilege (R202, R206, R212, R216, R221, R222) -/

/-- An instruction that core `n` may issue only where `allowed`: else the privileged-instruction exception (R216). -/
def State.privileged (s : State) (n : Fin 12) (allowed : State → Bool) (word : Word) (f : State → State) : State :=
  s.issue n fun s => if allowed s then f s else s.trap n 2 0 word

/-- FENCE: every earlier store of the core has taken effect before the next instruction issues (R200). -/
def State.fence (s : State) (n : Fin 12) : State :=
  s.issue n fun s =>
    let s := s.drainAll n
    if s.coreLive n then s.nextPc n else s

/-- RDPMC: in user mode only with the core's bit of `PMC_PERM` (R222). -/
def State.rdpmcAt (s : State) (n : Fin 12) (rd : Fin 32) (c : Fin 64) : State :=
  s.privileged n (fun s => (s.core n).krn || bitAt (s.rdw Reg.PMC_PERM) n.val) (wordA 0x24 rd 0 0 (1 + 32 * c.val)) fun s =>
    (s.setX n rd (BitVec.ofNat 64 (s.rdpmc c))).nextPc n

/-- MFCR: an unlisted number is illegal, and user mode reads the registers R221 opens to it. -/
def State.mfcr (s : State) (n : Fin 12) (rd : Fin 32) (num : BitVec 12) : State :=
  s.issue n fun s =>
    let word := wordI 0x25 rd 0 num.toNat
    match s.coreReg n num.toNat with
    | none => s.trap n 1 0 word
    | some v =>
      if (s.core n).krn || userReadable num.toNat then (s.setX n rd (BitVec.ofNat 64 v)).nextPc n else s.trap n 2 0 word

/-- MTCR: an unlisted number is illegal, and user mode writes `CORE_SHEV_POP` alone (R221). -/
def State.mtcr (s : State) (n : Fin 12) (ra : Fin 32) (num : BitVec 12) : State :=
  s.issue n fun s =>
    let word := wordI 0x26 0 ra num.toNat
    if !coreRegListed num.toNat then s.trap n 1 0 word
    else if (s.core n).krn ∨ num.toNat = 0x011 then
      let v := (s.getX n ra).toNat % 2 ^ 32
      (s.updCore n fun c => c.writeReg num.toNat v).nextPc n
    else s.trap n 2 0 word

/-! ## Waiting (R202, R203) -/

/-- Core `n` waits for `w`. -/
def State.setWait (s : State) (n : Fin 12) (w : Wait) : State := s.updCore n fun c => { c with wait := w }

/-- WAITT issues (R203): the next instruction issues at its time, and at least 2 ticks later. -/
def State.waitt (s : State) (n : Fin 12) (rd ra : Fin 32) : State :=
  s.issue n fun s => s.setWait n (.waitt rd (s.getX n ra).toNat s.meridian)

/-- The WAITT of core `n` ends where its time has come: rd receives the lateness (R203). -/
def State.waittEnd (s : State) (n : Fin 12) : State :=
  match (s.core n).wait with
  | .waitt rd t issued =>
    if s.coreLive n ∧ max t (issued + 2) ≤ s.meridian then
      ((s.setWait n .none).setX n rd (BitVec.ofNat 64 (s.meridian - t))).nextPc n
    else s
  | _ => s

/-- The WFI of core `n` ends where an enabled source is pending (R202). -/
def State.wfiEnd (s : State) (n : Fin 12) : State :=
  if s.coreLive n ∧ (s.core n).wait = .wfi ∧ (s.enabledSource n).isSome then (s.setWait n .none).nextPc n else s

/-- WFI issues (R202). -/
def State.wfi (s : State) (n : Fin 12) : State := (s.setWait n .wfi).wfiEnd n

/-! ## SAMPLE (R210) -/

/-- The input that a selector names, as kind and index; none where the selector is invalid (R210). -/
def sampleInput (sel : Nat) : Option (Nat × Nat) :=
  let kind := bitsOf sel 0 4
  let i := bitsOf sel 8 8
  let count := [64, 64, 16, 96, 8].getD kind 0
  if sel = kind + i * 256 ∧ i < count then some (kind, i) else none

/-- The value of the input now (R210). -/
def State.sampleValue (s : State) (kind i : Nat) : Nat :=
  match kind with
  | 0 => boolNat (s.sense.level.toList.getD i false)
  | 1 => s.sense.edge.toList.getD i 0 % 2 ^ 63 + boolNat (s.sense.rising.toList.getD i false) * 2 ^ 63
  | 2 => (s.sense.enc.toList.getD i 0).toNat
  | 3 => bitsOf (s.rdw (Reg.ADC_RESULT i)) 0 12 + min (2 ^ 32 - 1) (s.meridian - s.pra.convEnd.toList.getD i 0) * 2 ^ 32
  | _ => (s.btmOf i).sosCap

/-- The sample of core `n` is captured into rd (R210). -/
def State.sampleTake (s : State) (n : Fin 12) (rd : Fin 32) (sel : Nat) : State :=
  match sampleInput sel with
  | some (kind, i) => ((s.setWait n .none).setX n rd (BitVec.ofNat 64 (s.sampleValue kind i))).nextPc n
  | none => s

/-- SAMPLE issues: an invalid selector raises the exception, a time that has come captures at once (R210). -/
def State.sample (s : State) (n : Fin 12) (rd ra rb : Fin 32) : State :=
  s.issue n fun s =>
    let t := (s.getX n ra).toNat
    let sel := (s.getX n rb).toNat
    if (sampleInput sel).isNone then s.trap n 7 3 (s.getX n rb)
    else if t ≤ s.meridian then s.sampleTake n rd sel
    else s.setWait n (.sample rd t sel)

/-- The time of the SAMPLE of core `n` has come (R210). -/
def State.sampleEnd (s : State) (n : Fin 12) : State :=
  match (s.core n).wait with
  | .sample rd t sel => if s.coreLive n ∧ t ≤ s.meridian then s.sampleTake n rd sel else s
  | _ => s

/-! ## The Col and the commit (R51 to R54, R214) -/

/-- The Col of sheet `t` acts: an uncommitted launched sheet aborts (R51, R53). -/
def State.colAct (s : State) (t : Nat) : State :=
  if s.sh t = shLaunched ∧ s.col t ≤ s.meridian then
    (s.raise Reg.PSQ_STATUS 0).abortSheet t (s.colReason t)
  else s

/-- The Col of every sheet acts. -/
def State.colsAct (s : State) : State := forUpTo 64 s State.colAct

/-- The preconditions of an armed sheet are evaluated, and its commit is granted where they hold (R51). -/
def State.commitAct (s : State) (t : Nat) : State :=
  if s.sh t = shLaunched ∧ s.on (Reg.PSQ_SH_STATE_ARMED t) ∧ s.meridian < s.col t then
    if s.precondition t = 0 then s.grantCommit t else s.evalSheet t
  else s

/-! ## EMIT (R204 to R208) -/

/-- The blocks that accept commands (R204). -/
def takesCommands (b : Nat) : Bool :=
  b = 3 || b = 10 || (decide (13 ≤ b) && decide (b ≤ 20)) || (decide (22 ≤ b) && decide (b ≤ 25))

/-- Core `n` may EMIT to block `b` in user mode (R206). -/
def userEmits (n b : Nat) : Bool :=
  ownsBlock n b || (decide (n < 2) && ((decide (13 ≤ b) && decide (b ≤ 20)) || (decide (22 ≤ b) && decide (b ≤ 24))))

/-- The `DETAIL` of the timed-operand exception that an EMIT of the command word raises, if it raises one (R204, R206). -/
def State.emitFault (s : State) (n : Fin 12) (word : Nat) : Option Nat :=
  let b := bitsOf word 0 8
  if !takesCommands b ∨ bitsOf word 24 8 ≠ 0 then some 1
  else if !(s.core n).krn ∧ !userEmits n b then some 2
  else none

/-- The command that core `n` sends with `word` for time `t` (R204, R205). -/
def State.emitCmd (s : State) (n : Fin 12) (irrev : Bool) (t word : Nat) : Cmd :=
  { block := bitsOf word 0 8, unit := bitsOf word 8 8, op := bitsOf word 16 8, operand := word / 2 ^ 32, time := t, due := t,
    irrev := irrev, tag := (s.core n).region.map fun r => (r.tag, r.seq), core := n.val, issued := s.clock }

/-- The hold queue is full (R57). -/
def State.holdFull (s : State) : Bool := decide (512 ≤ s.psq.hold.length)

/-- The command finds no room: its block's queue is full, or it is to be held and the hold queue is full (R57, R207). -/
def State.noRoom (s : State) (c : Cmd) (verdict : Nat) : Bool :=
  (verdict ≤ 1 && decide (64 ≤ s.pendCount c.block)) || (verdict = 1 && s.holdFull)

/-- The ticks that an EMIT takes where it neither stalls nor is refused (R209). -/
def emitTicks : Nat := 6

/-- PSQ carries out its verdict on the command, whose EMIT completes at tick `done` (R205, R208). -/
def State.emitDone (s : State) (c : Cmd) (verdict done : Nat) : State :=
  if verdict = 0 then s.enqueue c done
  else if verdict = 1 then { s with psq := { s.psq with hold := s.psq.hold ++ [c] } }
  else if verdict = 3 then s.raise Reg.PSQ_STATUS 3
  else s

/-- What PSQ does in this tick on the sheet of a command before it judges the command (R214). -/
def State.beforeVerdict (s : State) (c : Cmd) : State :=
  match c.tag with
  | some (t, _) => (s.colAct t).commitAct t
  | none => s

/-- The EMIT of core `n` is judged: it completes with its verdict in rd, `ticks` later, or stalls (R205, R207, R209). The first time that
it finds the hold queue full is counted (R57): `counted` tells that it has been. -/
def State.emitTry (s : State) (n : Fin 12) (irrev : Bool) (rd ra rb : Fin 32) (ticks : Nat) (counted : Bool) : State :=
  let c := s.emitCmd n irrev (s.getX n ra).toNat (s.getX n rb).toNat
  let s := s.beforeVerdict c
  let v := s.verdict irrev c.time c.tag
  if s.noRoom c v then
    let full := v = 1 ∧ s.holdFull
    let s := if full ∧ !counted then (s.raise Reg.PSQ_STATUS 8).inc Reg.PSQ_HOLD_STALLS_COUNT else s
    s.setWait n (.emit irrev rd ra rb (counted || full))
  else (((s.emitDone c v (s.meridian + ticks)).setWait n .none).setX n rd (BitVec.ofNat 64 v)).nextPc n

/-- EMIT issues (R204 to R207). -/
def State.emit (s : State) (n : Fin 12) (irrev : Bool) (rd ra rb : Fin 32) : State :=
  s.issue n fun s =>
    match s.emitFault n (s.getX n rb).toNat with
    | some d => s.trap n 7 d (s.getX n rb)
    | none => s.turn rankEmit fun s => s.emitTry n irrev rd ra rb emitTicks false

/-- A stalled EMIT of core `n` is judged again, and completes where it finds room (R207; its lead then counts from here, log 48). -/
def State.emitAgain (s : State) (n : Fin 12) : State :=
  match (s.core n).wait with
  | .emit irrev rd ra rb counted => if s.coreLive n then s.turn rankEmit fun s => s.emitTry n irrev rd ra rb 0 counted else s
  | _ => s

/-! ## Regions (R49, R211 to R215) -/

/-- Core `n`'s turn among the region instructions of a tick (R214). -/
def State.regionTurn (s : State) (n : Fin 12) (f : State → State) : State := s.turn (rankRegion + n) f

/-- The tag that a region instruction names: x[ra][5:0] (R212). -/
def State.tagOf (s : State) (n : Fin 12) (ra : Fin 32) : Nat := (s.getX n ra).toNat % 64

/-- The word of a region instruction. -/
def wordRegion (rd ra : Fin 32) (fn : Nat) : Word := wordA 0x2B rd ra 0 fn

/-- In user mode only N0 and N1 launch, arm and abort (R212). -/
def State.mayRule (s : State) (n : Fin 12) : Bool := (s.core n).krn || decide (n.val < 2)

/-- A region instruction ends with `v` in rd. -/
def State.result (s : State) (n : Fin 12) (rd : Fin 32) (v : Nat) : State := (s.setX n rd (BitVec.ofNat 64 v)).nextPc n

/-- Core `n` opens a region on sheet `t`, and is in its seen set (R211, R213). -/
def State.openRegion (s : State) (n : Fin 12) (t : Nat) (joined : Bool) : State :=
  let q := s.shSeq t
  (s.updCore n fun c => { c with region := some { tag := t, seq := q, joined := joined } }).seeCore t n

/-- The region of core `n` closes where it has tag `t` (R211, R212). -/
def State.closeRegion (s : State) (n : Fin 12) (t : Nat) : State :=
  s.updCore n fun c => match c.region with
    | some r => if r.tag = t then { c with region := none } else c
    | none => c

/-- The launch that SPEC makes on core `n`, with the checks of R49. -/
def State.launch (s : State) (n : Fin 12) (rd : Fin 32) (t : Nat) : State :=
  let s := s.colsAct
  let e := s.launchCheck t
  if e ≠ 0 then ((s.wr (Reg.PSQ_SH_STATE_REASON t) e).raise Reg.PSQ_STATUS 4).result n rd e
  else ((s.wr (Reg.PSQ_SH_STATE_STATE t) shLaunched).enterNoon.openRegion n t false).result n rd 0

/-- SPEC.J opens a region on a sheet that is LAUNCHED or COMMITTED (R212). -/
def State.join (s : State) (n : Fin 12) (rd : Fin 32) (t : Nat) : State :=
  let s := s.colAct t
  if s.sh t = shLaunched ∨ s.sh t = shCommitted then (s.openRegion n t true).result n rd 0 else s.result n rd 0x15

/-- SPEC or SPEC.J while a region is open raises the speculation-state exception (R212). -/
def State.whereNoRegion (s : State) (n : Fin 12) (t : Nat) (f : State → State) : State :=
  if (s.core n).region.isSome then s.trap n 8 1 (BitVec.ofNat 64 t) else f s

/-- SPEC.L closes the core's region (R212). -/
def State.leave (s : State) (n : Fin 12) (rd : Fin 32) : State :=
  let was := (s.core n).region.isSome
  (s.updCore n fun c => { c with region := none }).result n rd (if was then 0 else 1)

/-- COMMIT arms the commit of sheet `t` (R50 to R52, R212). -/
def State.arm (s : State) (n : Fin 12) (rd : Fin 32) (t : Nat) : State :=
  let s := (s.colAct t).closeRegion n t
  if s.sh t = shLaunched then
    if s.on (Reg.PSQ_SH_STATE_ARMED t) then s.result n rd 1
    else ((s.wr (Reg.PSQ_SH_STATE_ARMED t) 1).evalSheet t).result n rd 0
  else (s.raise Reg.PSQ_STATUS 5).result n rd 2

/-- ABORT of sheet `t` (R46, R52, R53, R212). -/
def State.abort (s : State) (n : Fin 12) (rd : Fin 32) (t : Nat) : State :=
  let s := (s.colAct t).closeRegion n t
  if s.sh t = shLaunched then (s.abortSheet t 9).result n rd 0
  else if s.sh t = shBound then ((s.endBound t 9).pageBack (s.shPage t)).result n rd 0
  else if s.sh t = shCommitted ∨ s.sh t = shSpoil then (s.raise Reg.PSQ_STATUS 6).result n rd 1
  else s.result n rd 1

/-! ## Interrupts (R203, R207, R210, R217, R218) -/

/-- A wait of core `n` whose end has come completes before an interrupt is taken (R203, R210). -/
def State.finishWait (s : State) (n : Fin 12) : State := ((s.waittEnd n).sampleEnd n).wfiEnd n

/-- Core `n` takes the interrupt that is due, once a wait whose end has come has completed (R203, R210, R217, R218). -/
def State.takeInterrupt (s : State) (n : Fin 12) : State :=
  if s.coreLive n ∧ (s.interruptDue n).isSome then (s.finishWait n).enterInterrupt n else s

end Sys2Proof.Machine
end

