-- ==== Sys2Proof/Machine/NovDecode.lean ====
section
/-! DEFINITION. The instruction words of the Novdon cores: what a word in instruction RAM spells, and the exception that any other word raises
(R201, R202, R216). -/

namespace Sys2Proof.Machine

/-- The register that five bits of an instruction word name (R201). -/
def regField (w lsb : Nat) : Fin 32 := ⟨bitsOf w lsb 5, Nat.mod_lt _ (by decide)⟩

/-- The low `k` bits of a word as an immediate (R201). -/
def immField (w k : Nat) : BitVec k := BitVec.ofNat k w

/-- The register operations of major opcode 0x00, by their fn (R202). -/
def decodeAlu (n : Fin 12) (rd ra rb : Fin 32) : Nat → Option Instr
  | 0x000 => some (.add n rd ra rb) | 0x001 => some (.sub n rd ra rb) | 0x002 => some (.and n rd ra rb)
  | 0x003 => some (.or n rd ra rb) | 0x004 => some (.xor n rd ra rb) | 0x005 => some (.sll n rd ra rb)
  | 0x006 => some (.srl n rd ra rb) | 0x007 => some (.sra n rd ra rb) | 0x008 => some (.slt n rd ra rb)
  | 0x009 => some (.sltu n rd ra rb) | 0x00A => some (.mul n rd ra rb) | 0x00B => some (.mulh n rd ra rb)
  | 0x00C => some (.mulhu n rd ra rb) | 0x00D => some (.div n rd ra rb) | 0x00E => some (.divu n rd ra rb)
  | 0x00F => some (.rem n rd ra rb) | 0x010 => some (.remu n rd ra rb) | 0x011 => some (.min n rd ra rb)
  | 0x012 => some (.max n rd ra rb) | 0x013 => some (.minu n rd ra rb) | 0x014 => some (.maxu n rd ra rb)
  | _ => none

/-- The shifts by a constant: rb is 0, fn[10:8] is 0, fn[7:6] selects and fn[5:0] is the amount (R202). -/
def decodeShift (n : Fin 12) (rd ra rb : Fin 32) (fn : Nat) : Option Instr :=
  if rb ≠ 0 then none
  else
    match fn / 64 with
    | 0 => some (.slli n rd ra (immField fn 6))
    | 1 => some (.srli n rd ra (immField fn 6))
    | 2 => some (.srai n rd ra (immField fn 6))
    | _ => none

/-- The system operations of major opcode 0x24: ra and rb are 0; fn[4:0] selects, and for RDPMC and SYSCALL fn[10:5] is a number (R202). -/
def decodeSystem (n : Fin 12) (rd ra rb : Fin 32) (fn : Nat) : Option Instr :=
  if ra ≠ 0 ∨ rb ≠ 0 then none
  else if fn = 0 then some (.rdtime n rd)
  else if fn % 32 = 1 then some (.rdpmc n rd ⟨fn / 32 % 64, Nat.mod_lt _ (by decide)⟩)
  else if rd ≠ 0 then none
  else if fn % 32 = 2 then some (.syscall n (immField (fn / 32) 6))
  else if fn = 3 then some (.brk n)
  else if fn = 4 then some (.eret n)
  else if fn = 5 then some (.wfi n)
  else none

/-- The region operations of major opcode 0x2B: rb is 0 (R202); SPEC.L names no register but rd (R212). -/
def decodeRegion (n : Fin 12) (rd ra rb : Fin 32) (fn : Nat) : Option Instr :=
  if rb ≠ 0 then none
  else
    match fn with
    | 0 => some (.spec n rd ra)
    | 1 => some (.specJ n rd ra)
    | 2 => some (.specL n rd)
    | 3 => some (.commit n rd ra)
    | 4 => some (.abort n rd ra)
    | _ => none

/-- The loads and stores, by major opcode (R202). -/
def decodeAccess (n : Fin 12) (r ra : Fin 32) (imm : BitVec 16) : Nat → Option Instr
  | 0x0A => some (.lb n r ra imm) | 0x0B => some (.lbu n r ra imm) | 0x0C => some (.lh n r ra imm)
  | 0x0D => some (.lhu n r ra imm) | 0x0E => some (.lw n r ra imm) | 0x0F => some (.lwu n r ra imm)
  | 0x10 => some (.ld n r ra imm) | 0x11 => some (.sb n r ra imm) | 0x12 => some (.sh n r ra imm)
  | 0x13 => some (.sw n r ra imm) | 0x14 => some (.sd n r ra imm)
  | _ => none

/-- The branches, by major opcode (R202). -/
def decodeBranch (n : Fin 12) (ra rb : Fin 32) (off : BitVec 16) : Nat → Option Instr
  | 0x18 => some (.beq n ra rb off) | 0x19 => some (.bne n ra rb off) | 0x1A => some (.blt n ra rb off)
  | 0x1B => some (.bge n ra rb off) | 0x1C => some (.bltu n ra rb off) | 0x1D => some (.bgeu n ra rb off)
  | _ => none

/-- `some i` where `c` holds: the fields that the table names as 0 are 0 (R201). -/
def whenZero (c : Bool) (i : Instr) : Option Instr := if c then some i else none

/-- The instruction of core `n` that a word spells, by its major opcode, its fields and its fn; `none` for every other word, which is illegal
(R201, R202). -/
def novDecode (n : Fin 12) (w : Nat) : Option Instr :=
  let op := bitsOf w 26 6
  let r1 := regField w 21
  let r2 := regField w 16
  let r3 := regField w 11
  let fn := bitsOf w 0 11
  let imm := immField w 16
  match op with
  | 0x00 => decodeAlu n r1 r2 r3 fn
  | 0x01 => some (.addi n r1 r2 imm)
  | 0x02 => some (.andi n r1 r2 imm)
  | 0x03 => some (.ori n r1 r2 imm)
  | 0x04 => some (.xori n r1 r2 imm)
  | 0x05 => some (.slti n r1 r2 imm)
  | 0x06 => some (.sltiu n r1 r2 imm)
  | 0x07 => decodeShift n r1 r2 r3 fn
  | 0x08 => whenZero (r2 = 0) (.lui n r1 imm)
  | 0x09 => some (.shori n r1 r2 imm)
  | 0x15 => if fn = 0 then some (.amoadd n r1 r2 r3) else if fn = 1 then some (.amoswap n r1 r2 r3)
      else whenZero (fn = 2) (.amocas n r1 r2 r3)
  | 0x16 => whenZero (bitsOf w 0 26 = 0) (.fence n)
  | 0x1E => some (.j n (immField w 26))
  | 0x1F => some (.call n (immField w 26))
  | 0x20 => some (.jalr n r1 r2 imm)
  | 0x24 => decodeSystem n r1 r2 r3 fn
  | 0x25 => whenZero (r2 = 0 && bitsOf w 12 4 = 0) (.mfcr n r1 (immField w 12))
  | 0x26 => whenZero (r1 = 0 && bitsOf w 12 4 = 0) (.mtcr n r2 (immField w 12))
  | 0x28 => whenZero (r3 = 0 && fn = 0) (.waitt n r1 r2)
  | 0x29 => whenZero (fn / 2 = 0) (.emit n (fn % 2 = 1) r1 r2 r3)
  | 0x2A => whenZero (fn = 0) (.sample n r1 r2 r3)
  | 0x2B => decodeRegion n r1 r2 r3 fn
  | _ => (decodeAccess n r1 r2 imm op).orElse fun _ => decodeBranch n r1 r2 imm op

/-- The word at the pc of core `n` (R193, R201). -/
def State.fetchWord (s : State) (n : Fin 12) : Nat := s.readLE (coreBase n + (s.core n).pc) 4

/-- Core `n` would issue a word of its instruction RAM that spells no instruction (R201). -/
def State.illegalNext (s : State) (n : Fin 12) : Bool :=
  s.canIssue n && !s.fromRom n && (novDecode n (s.fetchWord n)).isNone

/-- Core `n` issues a word that spells no instruction: the illegal-instruction exception (R201, R216). -/
def State.illegal (s : State) (n : Fin 12) : State :=
  s.issue n fun s => s.trap n 1 0 (BitVec.ofNat 64 (s.fetchWord n))

end Sys2Proof.Machine
end

