-- ==== Sys2Proof/Machine/PsqFlow.lean ====
section
/-! DEFINITION. What PSQ does by itself and on command after the launch: diverter pulses, the ends of frames, drive losses, RELEASE and
EVENT (R46, R53, R54, R59, R60, R64, R66, R69, R209, R409). -/

namespace Sys2Proof.Machine

/-! ## Diverter pulses (R53, R54, R64) -/

/-- The pulse of sheet `t` in the list. -/
def pulseOf (l : List Pulse) (t : Nat) : Option Pulse := l.find? fun p => p.tag = t

/-- The pulse of sheet `t` is driven and its time is over. -/
def pulseOver (l : List Pulse) (t now : Nat) : Bool :=
  match pulseOf l t with
  | some p => match p.drive with
    | some (_, stop) => decide (stop ≤ now)
    | none => false
  | none => false

/-- The list without the pulse of sheet `t`. -/
def pulseDrop (l : List Pulse) (t : Nat) : List Pulse := l.filter fun p => p.tag ≠ t

/-- The Col of a sheet aborted before it: PURGEk is driven (R54). -/
def State.purgeAtCol (s : State) (t : Nat) : State :=
  if !s.web ∧ s.sh t = shAborted ∧ s.col t ≤ s.meridian ∧ (pulseOf s.psq.purges t).any (·.drive.isNone) then
    { s with psq := { s.psq with purges := pulseDrop s.psq.purges t ++ [{ tag := t, drive := some s.purgeDrive }] } }
  else s

/-- The purge pulse of sheet `t` ends: the sheet is DONE (R46). -/
def State.purgeEnd (s : State) (t : Nat) : State :=
  if pulseOver s.psq.purges t s.meridian then
    ({ s with psq := { s.psq with purges := pulseDrop s.psq.purges t } }).sheetDone t
  else s

/-- The last exposure end of an aborted frame passes: it is DONE (R69). -/
def State.webEnd (s : State) (t : Nat) : State :=
  if s.web ∧ s.sh t = shAborted ∧ s.expEnd t ≤ s.meridian then s.sheetDone t else s

/-- The command is the RELEASE of sheet `t`. -/
def State.releaseOf (s : State) (t : Nat) (c : Cmd) : Bool := c.block = 10 && c.op = 1 && c.tag = some (t, s.shSeq t)

/-- The spoil decision point of a spoil: SPOILk is driven, and the sheet's RELEASE is discarded (R64). -/
def State.spoilPoint (s : State) (t : Nat) : State :=
  if !s.web ∧ s.sh t = shSpoil ∧ !(s.sheetOf t).lateSpoil ∧ s.exitTime t ≤ s.meridian ∧ (pulseOf s.psq.spoils t).isNone then
    let p : Pulse := { tag := t, drive := some (s.pulseDrive (s.rd Reg.PSQ_PURGE_CFG_SPOIL_OUT)) }
    { s with psq := { s.psq with spoils := s.psq.spoils ++ [p] }, pend := s.pend.filter fun c => !s.releaseOf t c }
  else s

/-- The spoil pulse of sheet `t` ends: the sheet is DONE (R46). -/
def State.spoilEnd (s : State) (t : Nat) : State :=
  if pulseOver s.psq.spoils t s.meridian then
    ({ s with psq := { s.psq with spoils := pulseDrop s.psq.spoils t } }).sheetDone t
  else s

/-- The level of the diverter outputs: PURGEk and SPOILk are high while a pulse drives them (R53, R54, R64, R400, R401). -/
def State.purgeOut (s : State) (k : Nat) : Bool :=
  s.ballLive (200 + k) 0 && s.psq.purges.any fun p => p.drive.any fun d => d.1 = k && decide (s.meridian < d.2)
@[inherit_doc State.purgeOut] def State.spoilOut (s : State) (k : Nat) : Bool :=
  s.ballLive (204 + k) 0 && s.psq.spoils.any fun p => p.drive.any fun d => d.1 = k && decide (s.meridian < d.2)

/-! ## Loss of drive (R66) -/

/-- In the first tick after a motor of the paper path has lost drive, committed sheets spoil and launched sheets abort (R66). -/
def State.driveGone (s : State) : State :=
  if s.psq.driveLost.any fun c => decide (c < s.clock) then
    let s := forUpTo 64 { s with psq := { s.psq with driveLost := none } } fun s t =>
      if s.sh t = shCommitted then s.spoilSheet t 0x25 else if s.sh t = shLaunched then s.abortSheet t 0x25 else s
    s.raise Reg.PSQ_STATUS 9
  else s

/-! ## Commands of PSQ (R209) -/

/-- PSQ refuses a command (R209). -/
def State.psqRefuse (s : State) : State := s.raise Reg.PSQ_STATUS 4

/-- FIN_REL rises for 1 ms, with FIN_SPOIL for a spoil, while its ball group is granted (R409). -/
def State.finRelease (s : State) (spoil : Bool) : State :=
  if s.ballGranted 208 0 then { s with fin := { s.fin with relUntil := some (s.clock + 3000000), spoil := spoil } } else s

/-- Sheet `t` goes to the finisher when its RELEASE fires: COMMITTED, or a spoil past its decision point or on a web (R64, R69). -/
def State.releasable (s : State) (t : Nat) : Bool :=
  s.sh t = shCommitted || (s.sh t = shSpoil && (s.sheetOf t).lateSpoil)

/-- RELEASE takes effect (R64, R69, R209, R409). -/
def State.release (s : State) (c : Cmd) : State :=
  match c.tag with
  | none => s.psqRefuse
  | some (t, q) =>
    if c.unit ≠ 0 ∨ c.operand ≠ 0 then s.psqRefuse
    else if s.shSeq t = q ∧ s.releasable t then (s.finRelease (s.sh t = shSpoil)).sheetDone t
    else s

/-- The operand of an EVENT is legal: a destination, and no reserved bit (R209). -/
def eventLegal (operand : Nat) : Bool := bitsOf operand 0 2 ≠ 3 && bitsOf operand 2 10 = 0 && bitsOf operand 22 2 = 0

/-- A sheet event leaves for destination `d`: 0 host, 1 finisher, 2 the fabric device (R59, R209). -/
def State.eventOut (s : State) (t d dev code spec : Nat) : State :=
  let reason := s.rd (Reg.PSQ_SH_STATE_REASON t)
  if d = 0 then s.hostEvent (s.shSeq t) t code spec reason
  else if d = 1 then s.finEvent (s.shSeq t) code spec reason
  else s.fabSheetEvent dev (s.shSeq t) t code spec reason

/-- The destination enters the seen set of sheet `t`; none where a fifth fabric device finds no room (R60). -/
def State.seeDest (s : State) (t d dev : Nat) : Option State :=
  if d = 0 then some (s.wr (Reg.PSQ_SH_SEEN_HOST t) 1)
  else if d = 1 then some (s.wr (Reg.PSQ_SH_SEEN_FINISHER t) 1)
  else s.seeFab t dev

/-- EVENT takes effect (R59, R60, R209). -/
def State.eventCmd (s : State) (c : Cmd) : State :=
  let d := bitsOf c.operand 0 2
  let dev := bitsOf c.operand 12 10
  let code := bitsOf c.operand 24 8
  match c.tag with
  | none => s.psqRefuse
  | some (t, q) =>
    if c.unit ≠ 0 ∨ !eventLegal c.operand ∨ s.shSeq t ≠ q then s.psqRefuse
    else if s.sh t = shLaunched then
      match s.seeDest t d dev with
      | some s => s.eventOut t d dev code 1
      | none => s.raise Reg.PSQ_STATUS 7
    else if s.sh t = shCommitted ∨ s.sh t = shSpoil then s.eventOut t d dev code 0
    else s.psqRefuse

/-! ## Commands at their effect time (R204, R208) -/

/-- A block refuses a command that it does not know with source `i` of `st`; where it has the unit that the command names, the instance
register takes it (R204, R238, R251, R271, R288, R376). -/
def State.cmdError (s : State) (st i : Nat) (inst : Fld) (units unit : Nat) : State :=
  if unit < units then s.raiseInst st i inst unit else s.raise st i

/-- A command reaches PSQ (R209). -/
def State.psqCommand (s : State) (c : Cmd) : State :=
  match c.op with
  | 1 => s.release c
  | 2 => s.eventCmd c
  | _ => s.psqRefuse

/-- A command reaches BTMk (R169, R204). -/
def State.btmCommand (s : State) (k : Nat) (c : Cmd) : State :=
  if c.unit ≠ 0 then s.btmRefuse k c
  else
    match c.op with
    | 1 => s.expose k c
    | 2 => s.calStart k c
    | 3 => s.calStop k
    | _ => s.btmRefuse k c

/-- A command reaches BLD (R238). -/
def State.bldCommand (s : State) (c : Cmd) : State :=
  let e := s.cmdError Reg.BLD_STATUS 5 Reg.BLD_FIRST_CHANNEL_CHANNEL 24 c.unit
  if 24 ≤ c.unit then e
  else
    match c.op with
    | 1 => s.bldStart c.unit
    | 2 => s.bldCoast c.unit
    | 3 => s.bldDuty c.unit (c.operand % 2 ^ 16)
    | _ => e

/-- A command reaches STP (R251). -/
def State.stpCommand (s : State) (c : Cmd) : State :=
  let e := s.cmdError Reg.STP_STATUS 5 Reg.STP_FIRST_CHANNEL_CHANNEL 48 c.unit
  if 48 ≤ c.unit then e
  else
    match c.op with
    | 1 => s.stpGoto c.unit c.operand
    | 2 => s.stpMove c.unit c.operand
    | 3 => s.stpStop c.unit
    | 4 => s.stpPreset c.unit c.operand
    | _ => e

/-- A command reaches PRA (R271), after the exchanges of a Gap that opens now (R269). -/
def State.praCommand (s : State) (c : Cmd) : State :=
  let s := s.gapOpening
  let e := s.cmdError Reg.PRA_STATUS 2 Reg.PRA_FIRST_SLOT_SLOT 128 c.unit
  if 128 ≤ c.unit then e
  else
    match c.op with
    | 1 => s.praOn c.unit
    | 2 => s.praOffNow c.unit
    | 3 => s.praSet c.unit c.operand
    | 4 => s.praSyncCmd c.unit
    | 5 => s.praCap c.unit c.operand
    | _ => e

/-- A command reaches ADC (R274). -/
def State.adcCommand (s : State) (c : Cmd) : State :=
  match c.op with
  | 1 => s.seqSel c.unit (c.operand % 2)
  | _ => s.raise Reg.ADC_STATUS 1

/-- A command reaches PWR, which takes none while it is disabled (R288, R303). -/
def State.pwrCommand (s : State) (c : Cmd) : State :=
  match c.op with
  | 1 => s.pwrOn c.unit
  | 2 => s.pwrOff c.unit
  | _ => if s.on Reg.PWR_CTRL_EN then s.pwrCmdError c.unit else s

/-- Command `c` takes effect at block `b` (R204). -/
def State.runCommand (s : State) (b : Nat) (c : Cmd) : State :=
  match b with
  | 3 => s.pwrCommand c
  | 10 => s.psqCommand c
  | 22 => s.bldCommand c
  | 23 => s.stpCommand c
  | 24 => s.praCommand c
  | 25 => s.adcCommand c
  | _ => s.btmCommand (b - 13) c

/-- The first command of block `b`'s queue takes effect, where it is due and its `OP` is `op` (R207, R208). -/
def State.emitted (s : State) (b op : Nat) : State :=
  match s.dueCmd b with
  | some c => if c.op = op then (s.popCmd b).runCommand b c else s
  | none => s

/-- The first command of block `b`'s queue takes effect, where it is due (R207, R208). -/
def State.runFirst (s : State) (b : Nat) : State :=
  match s.dueCmd b with
  | some c => (s.popCmd b).runCommand b c
  | none => s

/-- Every due command of block `b`'s queue takes effect, in the queue's order (R207, R208). -/
def State.runQueue (s : State) (b : Nat) : State := forUpTo (s.pend.filter (s.cmdDue b)).length s fun s _ => s.runFirst b

/-- The blocks that take commands (R204). -/
def commandBlocks : List Nat := [10, 13, 14, 15, 16, 17, 18, 19, 20, 3, 22, 23, 24, 25]

/-- Every due command of every block takes effect. -/
def State.runCommands (s : State) : State := if s.pend.isEmpty then s else forEach commandBlocks s State.runQueue

end Sys2Proof.Machine
end

