-- ==== Sys2Proof/Machine/Xsp.lean ====
section
/-! DEFINITION. The NVM writes of the journal, Vesper and the counter cells on the one xSPI bus, and the reads that come after them (R296,
R298, R320, R321, R336 to R339, R346, R348, R349, R387, R390). -/

namespace Sys2Proof.Machine

/-! ## What is written next (R348) -/

/-- The journal's own entry that is written next: those of a thermal hold-up first (R338, R339). -/
def State.jrnHead (s : State) : Option JrnEntry :=
  match s.jrn.night with
  | e :: _ => some e
  | [] => s.jrn.ring.head?

/-- The write that the journal has waiting and may start (R338, R339, R346). -/
def State.jrnJob (s : State) : Option XspJob :=
  if !s.jrnWrites then none
  else
    match s.jrnHead with
    | some e => some { client := .own e, writes := s.jrnCopies e }
    | none => s.jrn.mirror.head?.map fun m => { client := .mate m.1 m.2.1 m.2.2, writes := s.mirrorCopies m.2.2 }

/-- The write that Vesper has waiting and may start: copy A in full before copy B (R387, R389). -/
def State.vspJob (s : State) : Option XspJob :=
  if !s.vspWrites then none
  else
    let slot := s.rd Reg.VSP_NEXT_SLOT
    let hold := if s.aon.holdUp then 4 else 0
    s.vspHead.map fun r => { client := .record r,
                             writes := [(s.rdw Reg.VSP_BASE_A + 32 * slot, r.bytes hold),
                                        (s.rdw Reg.VSP_BASE_B + 32 * slot, r.bytes (hold + 1))] }

/-- Unit `u` has an increment to write that may start (R296, R321, R349). -/
def State.cellWaits (s : State) (u : Nat) : Bool :=
  decide (u < 16) && s.on Reg.CSM_CTRL_EN && decide (s.unitState u = 2) && s.on (Reg.CSM_U_STATE_PENDING u) && s.nvmOpen

/-- The write of an increment of unit `u`: both copies of the cell that its new count names (R320); none past the last count. -/
def State.cellJob (s : State) (u : Nat) : XspJob :=
  let count := s.rdw (Reg.CSM_U_COUNT u) + 1
  let b := cellCopy count (s.unitUid u)
  { client := .cell u,
    writes := if 2 ^ 32 ≤ count then [] else [(s.cellAddr u (count % 16), b), (s.cellAddr u (count % 16) + 16, b)] }

/-- The write that the bus takes next: JRN before VSP before CSM (R348), and of the units the lowest (log 84). -/
def State.xspNext (s : State) : Option XspJob :=
  match s.jrnJob, s.vspJob with
  | some j, _ => some j
  | none, some j => some j
  | none, none => ((List.range 16).find? s.cellWaits).map s.cellJob

/-- A write starts where none is in progress: from now on nothing holds it back (R296). -/
def State.xspStart (s : State) : State := if s.xsp.job.isSome then s else { s with xsp := { s.xsp with job := s.xspNext } }

/-- Some NVM write is in progress or waits that may be carried out now: reads come after it (R348, R390). -/
def State.nvmWriteWaits (s : State) : Bool := s.xsp.job.isSome || s.xspNext.isSome

/-! ## The end of a write -/

/-- How a write that the bus ends with `r` has gone: on A0 the first one after EVENING fails if it was latched wrongly (R349, R352). -/
def State.xspResult (s : State) (j : XspJob) (r : NvmResult) : NvmResult :=
  match r, j.writes with
  | .ok, w :: _ => if s.xspLatch w.1 w.2 = w.2 then .ok else .differs
  | r, _ => r

/-- The program operations of a write that succeeded, or of one that was latched wrongly its first; a failed write counts for nothing else
(R349, R352). -/
def State.xspCarry (s : State) (j : XspJob) (r : NvmResult) : State :=
  let s' := { s with xsp := { s.xsp with job := none } }
  match r, s.xspResult j r with
  | .ok, .ok => forEach j.writes s' fun s w => s.xspProgram w.1 w.2
  | .ok, _ => forEach (j.writes.take 1) s' fun s w => s.xspProgram w.1 w.2
  | _, _ => s'.xspSettled

/-- An entry of this device leaves the ring for NVM (R331, R338, R339). -/
def State.ownWritten (s : State) (e : JrnEntry) : State :=
  if s.jrn.night.contains e then ({ s with jrn := { s.jrn with night := s.jrn.night.erase e } }).jrnWritten e
  else if s.jrn.ring.contains e then
    ((({ s with jrn := { s.jrn with ring := s.jrn.ring.erase e } }).jrnWritten e).jrnKeep e).ringLoss
  else s

/-- The mirror write of a mate's entry completes and is acknowledged, or fails with late error 0x6 (R346, R367). -/
def State.mateWritten (s : State) (src tag : Nat) (b : List Byte) (r : NvmResult) : State :=
  let s := { s with jrn := { s.jrn with mirror := s.jrn.mirror.erase (src, tag, b) } }
  if r = .ok then s.sendAck src (ofLe (b.take 6)) else s.lateError src tag 0 6

/-- A record leaves the ring for NVM (R387, R389). -/
def State.recordWritten (s : State) (e : VspRec) : State :=
  if s.vsp.ring.contains e then
    let s := { s with vsp := { s.vsp with ring := s.vsp.ring.erase e } }
    let s := s.wr Reg.VSP_NEXT_SLOT (s.rd Reg.VSP_NEXT_SLOT + 1)
    let s := if s.on Reg.VSP_CTRL_FREEZE && e.alwaysOn then s.raise Reg.VSP_STATUS 2 else s
    s.vspSpace
  else s

/-- An increment of unit `u` is written: `COUNT` rises, or has no room (R320, R321). -/
def State.countWritten (s : State) (u : Nat) : State :=
  let n := s.rd (Reg.CSM_U_STATE_PENDING u)
  if s.unitState u ≠ 2 ∨ n = 0 then s
  else
    let s := s.wr (Reg.CSM_U_STATE_PENDING u) (n - 1)
    let count := s.rdw (Reg.CSM_U_COUNT u) + 1
    if 2 ^ 32 ≤ count then s.csmRaise 3 u
    else (s.wrw (Reg.CSM_U_COUNT u) count).wr (Reg.CSM_U_STATE_NEXT_CELL u) ((count + 1) % 16)

/-- What the end of a write means to its client: it is done, or it failed and is tried again (R321, R338, R346, R351, R387, R397). -/
def State.xspTold (s : State) (c : XspClient) (r : NvmResult) : State :=
  match c with
  | .own e => if r = .ok then s.ownWritten e else (s.raise Reg.JRN_STATUS 3).xspFail r
  | .mate src tag b => (s.xspFail r).mateWritten src tag b r
  | .record e => if r = .ok then s.recordWritten e else (s.raise Reg.VSP_STATUS 1).xspFail r
  | .cell u => if r = .ok then s.countWritten u else (s.csmRaise 2 u).xspFail r

/-- The write in progress ends, if it is one of `mine`; the next one that waits starts (R348). -/
def State.xspEnd (s : State) (mine : XspClient → Bool) (r : NvmResult) : State :=
  let s := s.xspStart
  match s.xsp.job with
  | none => s
  | some j => if mine j.client then (((s.xspCarry j r).xspTold j.client (s.xspResult j r)).pumpCpl).xspStart else s

/-- The write is the journal's (R338, R346). -/
def XspClient.ofJrn : XspClient → Bool
  | .own _ => true
  | .mate _ _ _ => true
  | _ => false

/-- The write is Vesper's (R387). -/
def XspClient.ofVsp : XspClient → Bool
  | .record _ => true
  | _ => false

/-- The journal's write in progress ends (R338, R339, R346, R351). -/
def State.jrnNvm (s : State) (r : NvmResult) : State := s.xspEnd XspClient.ofJrn r

/-- Vesper's write in progress ends (R387, R389, R397). -/
def State.vspNvm (s : State) (r : NvmResult) : State := s.xspEnd XspClient.ofVsp r

/-- The write of an increment of unit `u` ends, or fails at XSP (R321). -/
def State.cellWritten (s : State) (u : Nat) (r : NvmResult) : State := s.xspEnd (fun c => c = .cell u) r

/-! ## Reads (R390) -/

/-- The read of a Vesper slot completes, after every NVM write (R390, R397). -/
def State.vspReadDone (s : State) : State :=
  if !s.on Reg.VSP_READ_STATUS_BUSY ∨ s.nvmWriteWaits then s
  else
    let s' := s.xspSettled.wrw Reg.VSP_READ_STATUS 0
    match s.vspCopy s.vsp.readSlot with
    | none => s'
    | some (copy, b) =>
      let t := forUpTo 8 s' fun t w => t.wrw (Reg.VSP_READ_W w) (ofLe ((b.drop (4 * w)).take 4))
      t.wrw Reg.VSP_READ_STATUS (2 + 4 * boolNat copy)

end Sys2Proof.Machine
end

