-- ==== Sys2Proof/Machine/Tick.lean ====
section
/-! DEFINITION. A core tick with no command waiting: what is due and has not come yet comes, Meridian counts, and what advances by itself
advances (R20, R27, R29, R51, R202, R204, R382, R391; log 5). -/

namespace Sys2Proof.Machine

/-! ## What is due (R29) -/

/-- Sheet `t` meets the times of PSQ that have come: its commit, its diverter pulses, its frame's end (R46, R51, R54, R64, R69). -/
def State.sheetDue (s : State) (t : Nat) : State :=
  if s.sh t = shLaunched then s.commitAct t
  else if s.sh t = shAborted then ((s.purgeAtCol t).purgeEnd t).webEnd t
  else if s.sh t = shSpoil then (s.spoilPoint t).spoilEnd t
  else s

/-- Timer `t` meets an edge of its sensor and the times that have come (R37). -/
def State.timerDue (s : State) (t : Nat) : State :=
  if s.timerArmed t then ((s.windowCapture t).windowEnd t).encoderLatch t else s

/-- PSQ meets the times that have come in this tick (R33, R37, R51, R66, R70). -/
def State.psqDue (s : State) : State :=
  let s := (forUpTo 64 s State.sheetDue).driveGone
  ((forUpTo 32 s State.timerDue).gapClosing.gapOpening).noonEnds.duskEnds

/-- Station `k` meets the times of its gates, its line, its beam test and its measurement that have come (R148 to R150, R172, R184, R185,
R189, R191). -/
def State.beamDue (s : State) (k : Nat) : State :=
  let s := (((s.facetDots k).powerDue k).lineEnd k).powerDone k
  let s := (((s.eosMiss k).sosWindow k).sosMiss k).facetDots k
  (s.beamTest k).testMiss k

/-- The streamer of station `k` meets a prefetch time that has come, or a half that has become EMPTY (R123). -/
def State.streamDue (s : State) (k : Nat) : State := (s.prefetch k).bandFill k

/-- The motor channels and the loops meet the times that have come (R226 to R233, R243 to R250, R257 to R260, R270, R272). -/
def State.periphDue (s : State) : State :=
  if s.periphClock then (forUpTo 48 (forUpTo 24 s State.bldDue) State.stpDue).praDueNow else s

/-- The peripheral clock ends (R239, R250, R255). -/
def State.periphEnds (s : State) : State :=
  if s.periphClock ∧ (s.clock + 1 - s.lockAt) % 12 = 0 then forUpTo 48 (forUpTo 24 s State.bldEnd) State.stpClock else s

/-- The thermal model meets its times: an update, the end of a diode calibration, and stale telemetry; the night condition takes the device
to NIGHT (R290 to R292, R298; log 83 for the values that no command gives). -/
def State.modelDue (s : State) : State :=
  let s := s.staleDue
  let s := if s.thm.cal ∧ s.counting then
      (s.calibrated (Config.diodeReading s.clock 0) (Config.diodeReading s.clock 1)).releaseN11 else s
  (s.modelStep (Vector.ofFn fun z => Config.modelTemp s.clock z.val) (Vector.ofFn fun z => Config.modelPower s.clock z.val)
    (Config.modelPkg s.clock) (Config.modelScale s.clock)).evalHeat

/-- The dump that is due, where no command says how it ends (R396, log 83). -/
def State.dumpDue (s : State) : State :=
  match (Config.dumpEnds s.clock).toNat with
  | 0 => s.pmcDump .written
  | 1 => s.pmcDump .late
  | 2 => s.pmcDump .error
  | _ => s.pmcDump .lost

/-- The fabric meets its times: the degraded start of a port, SYNC of the time master, its loss, the delay measurement, the timeout of a
read, and the repeat of an EVICT (R98, R354, R370, R372, R373). -/
def State.fabDue (s : State) : State :=
  let s := forUpTo 8 s State.laneTimeout
  let s := if s.on Reg.FAB_SYNC_STATE_MASTER then s.syncSend else s
  (((s.syncTimeout).delayMeasure).readTimeout).evictAgain

/-- The blocks beside the page path meet the times that have come (R292, R309, R346, R348, R372, R384, R395, R396, R409). -/
def State.otherDue (s : State) : State :=
  let s := ((s.modelDue.calTick).mirrorUpdate).dumpDue
  let s := s.bwClose (Vector.ofFn fun p => Config.windowMoved s.clock p.val)
  ((((s.fabDue.mateSilent).pumpCpl).xspStart).finSent).finPulseEnd

/-- The always-on domain meets the times that have come: the supervisor, the hold-up, ALIVE and the operating second (R279 to R285, R298,
R380, R386). -/
def State.alwaysOnDue (s : State) : State :=
  let s := ((s.pwrDue.afterSequence).holdUpDue).aliveToggle
  s.operatingSecond

/-- What is due at the present tick comes before the clock passes: a timed action fires at the first tick at which Meridian has reached its
target (R29, R203, R208, R210, R420). -/
def State.runDue (s : State) : State :=
  let s := if s.coreClock then forUpTo 8 (forUpTo 8 s.psqDue State.streamDue) State.beamDue else s
  let s := s.runCommands.periphDue.alarmFire
  let s := (forUpTo 32 s fun s r => s.railEvent r fun s => s.scanFault r).otherDue
  forEach (List.finRange 12) s.periphEnds State.finishWait

/-! ## The tick -/

/-- The first message queued at port `p` leaves the device. -/
def State.fabSend (s : State) (p : Nat) : State :=
  match s.fab.tx.find? fun e => e.1 = p with
  | some e => { s with fab := { s.fab with tx := s.fab.tx.eraseP fun e => e.1 = p, out := s.fab.out ++ [e] } }
  | none => s

/-- What the Vale banks count of this clock (R132, R134, R145, log 51). -/
def State.valeTick (s : State) : State :=
  let waits := (List.range 16).foldl (fun (v : Vector RegWord 16) m =>
    if m ≠ 12 ∧ Config.bankWait s.clock m then v.setIfInBounds m (v.toList.getD m 0 + 1) else v) s.vale.waits
  { s with vale := { corr := s.vale.corr + BitVec.ofNat 32 (Config.corrected s.clock), waits := waits } }

/-- The ports' error correction counts what it did in this clock (R375, log 51). -/
def State.fecTick (s : State) : State :=
  let fec := (List.range 8).foldl (fun (v : Vector RegWord 8) p =>
    v.setIfInBounds p (v.toList.getD p 0 + BitVec.ofNat 32 (Config.fecCorrected s.clock p))) s.fab.fec
  { s with fab := { s.fab with fec := fec } }

/-- The DMA engine ends its present block, or works on it still; throttling makes it pause between blocks (R140, R295, log 70). -/
def State.dmaTick (s : State) : State :=
  if s.dmaPick.isSome ∧ !s.paced then if Config.dmaMoves s.clock then s.dmaStep else s else s

/-- What the streamer and the beams of station `k` bring over from the ticks before (R125, R161). -/
def State.stationTick (s : State) (k : Nat) : State := (s.fillSettle k).dropsCounted k

/-- Core `n` comes to issue a word that spells no instruction (R201, log 76). -/
def State.illegalTick (s : State) (n : Fin 12) : State :=
  if s.illegalNext n then if Config.coreIssues s.clock n then s.illegal n else s else s

/-- What comes first in a tick of the core domain: every Col that Meridian has reached, a drive loss of the tick before (R66, R214), the
halves filled in the tick before (R125), and the oldest posted write of each core. -/
def State.coreTick (s : State) : State :=
  let s := forUpTo 8 s.colsAct.driveGone State.stationTick
  (forEach (List.finRange 12) (forEach (List.finRange 12) s State.drainOne) State.illegalTick).dmaTick.valeTick

/-- The errors that stand in the memories are not the model's to know: they may be others in every clock (R134, log 67). -/
def State.upsets (s : State) : State := { s with badAt := Config.damaged s.clock }

/-- What a core tick does beside Meridian. -/
def State.tickRest (s : State) : State :=
  let s := if s.coreClock then s.coreTick else s
  (forUpTo 8 s.uartTick.fecTick.upsets State.fabSend).pmcTick

/-- In NIGHT no operating time passes: the operating second is put off (R386). -/
def State.secondHeld (s : State) : State :=
  if s.dev = stNight then
    let next := s.due.second + 1
    { s with due := { s.due with second := next } }
  else s

/-- A clock of the core domain passes. While Meridian does not count the always-on domain alone runs on (R25 to R27, R278). -/
def State.tick (s : State) : State :=
  let s := (if s.counting then s.runDue else s).alwaysOnDue
  (if s.counting then s.clockTick.tickRest else { s with clock := s.clock + 1 }).secondHeld

/-- The one tick in 1,024 that a slew changes (R28). -/
def State.slewedTick (s : State) : State := if s.counting ∧ s.slewDue then s.tick else s

end Sys2Proof.Machine
end

