-- ==== Sys2Proof/Machine/RowOps.lean ====
section
/-! DEFINITION. What the meanings of the commands share: the next state, and writes that a command makes through the register it names
(R11, R17 to R23). -/

namespace Sys2Proof.Machine

/-- The next state of a command; a device in EVENING that came to hold unmasked fault status wakes (R33). -/
def ok (s : State) : Host.Outcome State Fault Refusal := .next s.settle

/-- Master `m` requests state `target` (R33, R38). -/
def State.requestState (s : State) (m : Master) (target : Nat) : State :=
  s.masterWrite m Reg.SYS_STATE_REQ (BitVec.ofNat 32 (target + 8))

/-- A doorbell of the host in EVENING, a write of `v` to the tail of queue pair `n`, wakes the device (R33, R326). -/
def State.doorbellWake (s : State) (n : Nat) (v : RegWord) : State :=
  if s.hst.linkUp ∧ s.dev = stEvening then (s.plainWrite (Reg.HST_QP_SQ_TAIL n) v.toNat).resume else s

/-- Master `m` writes bit `n` of `SYS_CORE_RUN`, and the others as they read (R38, R194). -/
def State.runBit (s : State) (m : Master) (n : Fin 12) (b : Bool) : State :=
  s.asMaster m Reg.SYS_CORE_RUN fun s => s.ctrlWrite (masterNo m) Reg.SYS_CORE_RUN (bitPut (s.rd Reg.SYS_CORE_RUN_RUN) n.val b)

/-- Master `m` writes `v` to the status register `st` (R377). -/
def State.statusWrite (s : State) (m : Master) (st : Nat) (v : RegWord) : State :=
  if (statusRegsOf (st / 0x10000)).contains st then s.masterWrite m st v else s

/-- Master `m` writes `v` to a register that arms the alarm: with `ALARM_EN` to `TIM_CTRL`, or to a half of the time (R420). -/
def State.alarmWrite (s : State) (m : Master) (r : AlarmReg) (v : RegWord) : State :=
  match r with
  | .ctrl => s.masterWrite m Reg.TIM_CTRL (withBit v 0 true)
  | .lo => s.masterWrite m Reg.TIM_ALARM_LO v
  | .hi => s.masterWrite m Reg.TIM_ALARM_HI v

/-- Master `m` writes `FLUSH` to lane `l`, which has received `lines` lines (R111, log 7). -/
def State.flushWrite (s : State) (m : Master) (l : Nat) (v : RegWord) (lines : Nat) (diffs : List Nat) : State :=
  let v := withBit v 1 true
  s.asMaster m (Reg.CDC_L_CTRL l) fun s =>
    let s := (s.plainWrite (Reg.CDC_L_CTRL l) v.toNat).laneFlush l lines diffs
    if bitAt v.toNat 0 then s.laneGo l else s

/-- Master `m` writes `GO` to DMA channel `n` with `MODE` `mode` (R138, R139). -/
def State.dmaStart (s : State) (m : Master) (n : Nat) (v : RegWord) (mode : Nat) : State :=
  s.masterWrite m (Reg.DMA_D_CTRL n) (BitVec.ofNat 32 (bitsSet (withBit v 0 true).toNat 2 2 mode))

/-- Master `m` writes `STOP` to DMA channel `n`, which works on its block `block` (R143, log 7). -/
def State.stopWrite (s : State) (m : Master) (n : Nat) (v : RegWord) (block : Nat) : State :=
  let v := withBit v 1 true
  s.asMaster m (Reg.DMA_D_CTRL n) fun s =>
    let s := (s.plainWrite (Reg.DMA_D_CTRL n) v.toNat).dmaStop n block
    if bitAt v.toNat 0 then s.dmaGo n else s

/-- Command `op` of block `b`, with `units` units: emitted, or a write of the unit's register `reg`, with `bit` set where it is a bit (R204,
R238, R251, R271, R288). -/
def State.command (s : State) (src : Src) (b op units : Nat) (reg : Nat → Nat) (bit : Option Nat) : State :=
  match src with
  | .emitted => s.emitted b op
  | .written m n v =>
    if n < units then
      s.masterWrite m (reg n) (match bit with
        | some i => withBit v i true
        | none => v)
    else s

/-- SEQ_SEL names a converter by any of its inputs; a write of `NEXT` names it by its register (R274). -/
def State.bankSelect (s : State) (src : Src) : State :=
  match src with
  | .emitted => s.emitted 25 1
  | .written m n v => if n < 4 then s.masterWrite m (Reg.ADC_A_CTRL n) v else s

/-- FW_STAGE RESTART: accepted in MORNING with no page bound; the device then takes a system reset (R345, log 36). -/
def State.fwRestart (s : State) (n : Nat) : State :=
  s.fwStage n 3 (fun s _ => if s.dev = stMorning ∧ !s.pageBound then 0 else 3) fun s c =>
    (s.accept n c 0 0 fun s => s).systemReset 1

/-- The granule that a message names (R91). -/
def granuleOf (f : FabMsg) : Nat := f.addr / 4096 * 4096

/-- A message of class `cls` and kind `kind` arrives at port `p` (R357, R361). -/
def State.message (s : State) (p : Nat) (f : FabMsg) (cls kind : Nat) (home : State → FabMsg → State) : State :=
  let f := { f with cls := cls, kind := kind }
  s.fabArrive p f fun s => home s f

end Sys2Proof.Machine
end

