-- ==== Sys2Proof/Machine/NovAlu.lean ====
section
/-! DEFINITION. Meanings of the arithmetic and immediate instructions (R202). -/

namespace Sys2Proof.Machine

/-- `ADD` (R202): Adds two registers. -/
def execAdd (n : Fin 12) (rd ra rb : Fin 32) (s : State) : Host.Outcome State Fault Refusal :=
  ok (s.opR n rd ra rb fun a b => a + b)

/-- `SUB` (R202): Subtracts two registers. -/
def execSub (n : Fin 12) (rd ra rb : Fin 32) (s : State) : Host.Outcome State Fault Refusal :=
  ok (s.opR n rd ra rb fun a b => a - b)

/-- `AND` (R202): Bitwise AND of two registers. -/
def execAnd (n : Fin 12) (rd ra rb : Fin 32) (s : State) : Host.Outcome State Fault Refusal :=
  ok (s.opR n rd ra rb fun a b => a &&& b)

/-- `OR` (R202): Bitwise OR of two registers. -/
def execOr (n : Fin 12) (rd ra rb : Fin 32) (s : State) : Host.Outcome State Fault Refusal :=
  ok (s.opR n rd ra rb fun a b => a ||| b)

/-- `XOR` (R202): Bitwise XOR of two registers. -/
def execXor (n : Fin 12) (rd ra rb : Fin 32) (s : State) : Host.Outcome State Fault Refusal :=
  ok (s.opR n rd ra rb fun a b => a ^^^ b)

/-- `SLL` (R202): Shifts left by a register amount. -/
def execSll (n : Fin 12) (rd ra rb : Fin 32) (s : State) : Host.Outcome State Fault Refusal :=
  ok (s.opR n rd ra rb fun a b => a <<< (b.toNat % 64))

/-- `SRL` (R202): Shifts right logically by a register amount. -/
def execSrl (n : Fin 12) (rd ra rb : Fin 32) (s : State) : Host.Outcome State Fault Refusal :=
  ok (s.opR n rd ra rb fun a b => a >>> (b.toNat % 64))

/-- `SRA` (R202): Shifts right arithmetically by a register amount. -/
def execSra (n : Fin 12) (rd ra rb : Fin 32) (s : State) : Host.Outcome State Fault Refusal :=
  ok (s.opR n rd ra rb fun a b => a.sshiftRight (b.toNat % 64))

/-- `SLT` (R202): Sets 1 if less than, signed. -/
def execSlt (n : Fin 12) (rd ra rb : Fin 32) (s : State) : Host.Outcome State Fault Refusal :=
  ok (s.opR n rd ra rb fun a b => flag (a.slt b))

/-- `SLTU` (R202): Sets 1 if less than, unsigned. -/
def execSltu (n : Fin 12) (rd ra rb : Fin 32) (s : State) : Host.Outcome State Fault Refusal :=
  ok (s.opR n rd ra rb fun a b => flag (a.ult b))

/-- `MUL` (R202): Gives the low 64 bits of the product. -/
def execMul (n : Fin 12) (rd ra rb : Fin 32) (s : State) : Host.Outcome State Fault Refusal :=
  ok (s.opR n rd ra rb fun a b => a * b)

/-- `MULH` (R202): Gives the high 64 bits of the signed product. -/
def execMulh (n : Fin 12) (rd ra rb : Fin 32) (s : State) : Host.Outcome State Fault Refusal :=
  ok (s.opR n rd ra rb fun a b => mulHigh a.toInt b.toInt)

/-- `MULHU` (R202): Gives the high 64 bits of the unsigned product. -/
def execMulhu (n : Fin 12) (rd ra rb : Fin 32) (s : State) : Host.Outcome State Fault Refusal :=
  ok (s.opR n rd ra rb fun a b => mulHigh a.toNat b.toNat)

/-- `DIV` (R202): Signed quotient, with the defined results for division by zero and overflow. -/
def execDiv (n : Fin 12) (rd ra rb : Fin 32) (s : State) : Host.Outcome State Fault Refusal :=
  ok (s.opR n rd ra rb fun a b => divS a b)

/-- `DIVU` (R202): Unsigned quotient. -/
def execDivu (n : Fin 12) (rd ra rb : Fin 32) (s : State) : Host.Outcome State Fault Refusal :=
  ok (s.opR n rd ra rb fun a b => divU a b)

/-- `REM` (R202): Signed remainder. -/
def execRem (n : Fin 12) (rd ra rb : Fin 32) (s : State) : Host.Outcome State Fault Refusal :=
  ok (s.opR n rd ra rb fun a b => remS a b)

/-- `REMU` (R202): Unsigned remainder. -/
def execRemu (n : Fin 12) (rd ra rb : Fin 32) (s : State) : Host.Outcome State Fault Refusal :=
  ok (s.opR n rd ra rb fun a b => remU a b)

/-- `MIN` (R202): Signed minimum. -/
def execMin (n : Fin 12) (rd ra rb : Fin 32) (s : State) : Host.Outcome State Fault Refusal :=
  ok (s.opR n rd ra rb fun a b => if a.slt b then a else b)

/-- `MAX` (R202): Signed maximum. -/
def execMax (n : Fin 12) (rd ra rb : Fin 32) (s : State) : Host.Outcome State Fault Refusal :=
  ok (s.opR n rd ra rb fun a b => if a.slt b then b else a)

/-- `MINU` (R202): Unsigned minimum. -/
def execMinu (n : Fin 12) (rd ra rb : Fin 32) (s : State) : Host.Outcome State Fault Refusal :=
  ok (s.opR n rd ra rb fun a b => if a.ult b then a else b)

/-- `MAXU` (R202): Unsigned maximum. -/
def execMaxu (n : Fin 12) (rd ra rb : Fin 32) (s : State) : Host.Outcome State Fault Refusal :=
  ok (s.opR n rd ra rb fun a b => if a.ult b then b else a)

/-- `ADDI` (R202): Adds a sign-extended immediate. -/
def execAddi (n : Fin 12) (rd ra : Fin 32) (imm : BitVec 16) (s : State) : Host.Outcome State Fault Refusal :=
  ok (s.opI n rd ra fun a => a + imm.signExtend 64)

/-- `ANDI` (R202): ANDs with a zero-extended immediate. -/
def execAndi (n : Fin 12) (rd ra : Fin 32) (imm : BitVec 16) (s : State) : Host.Outcome State Fault Refusal :=
  ok (s.opI n rd ra fun a => a &&& imm.zeroExtend 64)

/-- `ORI` (R202): ORs with a zero-extended immediate. -/
def execOri (n : Fin 12) (rd ra : Fin 32) (imm : BitVec 16) (s : State) : Host.Outcome State Fault Refusal :=
  ok (s.opI n rd ra fun a => a ||| imm.zeroExtend 64)

/-- `XORI` (R202): XORs with a zero-extended immediate. -/
def execXori (n : Fin 12) (rd ra : Fin 32) (imm : BitVec 16) (s : State) : Host.Outcome State Fault Refusal :=
  ok (s.opI n rd ra fun a => a ^^^ imm.zeroExtend 64)

/-- `SLTI` (R202): Signed compare with an immediate. -/
def execSlti (n : Fin 12) (rd ra : Fin 32) (imm : BitVec 16) (s : State) : Host.Outcome State Fault Refusal :=
  ok (s.opI n rd ra fun a => flag (a.slt (imm.signExtend 64)))

/-- `SLTIU` (R202): Unsigned compare with an immediate. -/
def execSltiu (n : Fin 12) (rd ra : Fin 32) (imm : BitVec 16) (s : State) : Host.Outcome State Fault Refusal :=
  ok (s.opI n rd ra fun a => flag (a.ult (imm.signExtend 64)))

/-- `SLLI` (R202): Shifts left by an immediate. -/
def execSlli (n : Fin 12) (rd ra : Fin 32) (sh : BitVec 6) (s : State) : Host.Outcome State Fault Refusal :=
  ok (s.opI n rd ra fun a => a <<< sh.toNat)

/-- `SRLI` (R202): Shifts right logically by an immediate. -/
def execSrli (n : Fin 12) (rd ra : Fin 32) (sh : BitVec 6) (s : State) : Host.Outcome State Fault Refusal :=
  ok (s.opI n rd ra fun a => a >>> sh.toNat)

/-- `SRAI` (R202): Shifts right arithmetically by an immediate. -/
def execSrai (n : Fin 12) (rd ra : Fin 32) (sh : BitVec 6) (s : State) : Host.Outcome State Fault Refusal :=
  ok (s.opI n rd ra fun a => a.sshiftRight sh.toNat)

/-- `LUI` (R202): Loads a sign-extended immediate shifted left by 16. -/
def execLui (n : Fin 12) (rd : Fin 32) (imm : BitVec 16) (s : State) : Host.Outcome State Fault Refusal :=
  ok (s.opI n rd 0 fun _ => imm.signExtend 64 <<< 16)

/-- `SHORI` (R202): Shifts left by 16 and ORs in an immediate. -/
def execShori (n : Fin 12) (rd ra : Fin 32) (imm : BitVec 16) (s : State) : Host.Outcome State Fault Refusal :=
  ok (s.opI n rd ra fun a => (a <<< 16) ||| imm.zeroExtend 64)

end Sys2Proof.Machine
end

