-- ==== Sys2Proof/Machine/NovFlow.lean ====
section
/-! DEFINITION. Meanings of the branches, jumps, counters, exceptions and core registers (R201, R202, R216 to R222). -/

namespace Sys2Proof.Machine

/-- `BEQ` (R202): Branches if equal. -/
def execBeq (n : Fin 12) (ra rb : Fin 32) (off : BitVec 16) (s : State) : Host.Outcome State Fault Refusal :=
  ok (s.branch n ra rb off fun a b => a = b)

/-- `BNE` (R202): Branches if not equal. -/
def execBne (n : Fin 12) (ra rb : Fin 32) (off : BitVec 16) (s : State) : Host.Outcome State Fault Refusal :=
  ok (s.branch n ra rb off fun a b => a ≠ b)

/-- `BLT` (R202): Branches if less than, signed. -/
def execBlt (n : Fin 12) (ra rb : Fin 32) (off : BitVec 16) (s : State) : Host.Outcome State Fault Refusal :=
  ok (s.branch n ra rb off fun a b => a.slt b)

/-- `BGE` (R202): Branches if greater or equal, signed. -/
def execBge (n : Fin 12) (ra rb : Fin 32) (off : BitVec 16) (s : State) : Host.Outcome State Fault Refusal :=
  ok (s.branch n ra rb off fun a b => !a.slt b)

/-- `BLTU` (R202): Branches if less than, unsigned. -/
def execBltu (n : Fin 12) (ra rb : Fin 32) (off : BitVec 16) (s : State) : Host.Outcome State Fault Refusal :=
  ok (s.branch n ra rb off fun a b => a.ult b)

/-- `BGEU` (R202): Branches if greater or equal, unsigned. -/
def execBgeu (n : Fin 12) (ra rb : Fin 32) (off : BitVec 16) (s : State) : Host.Outcome State Fault Refusal :=
  ok (s.branch n ra rb off fun a b => !a.ult b)

/-- `J` (R202): Jumps pc-relative. -/
def execJ (n : Fin 12) (off : BitVec 26) (s : State) : Host.Outcome State Fault Refusal :=
  ok (s.issue n fun s => s.jumpTo n (s.pcTarget n (off.signExtend 64)) id)

/-- `CALL` (R202): Jumps pc-relative and writes the return offset to x29. -/
def execCall (n : Fin 12) (off : BitVec 26) (s : State) : Host.Outcome State Fault Refusal :=
  ok (s.issue n fun s => s.jumpTo n (s.pcTarget n (off.signExtend 64)) fun t => t.setX n 29 (s.linkWord n))

/-- `JALR` (R202): Jumps to a register plus offset and links. -/
def execJalr (n : Fin 12) (rd ra : Fin 32) (imm : BitVec 16) (s : State) : Host.Outcome State Fault Refusal :=
  ok (s.issue n fun s => s.jumpTo n (s.getX n ra + imm.signExtend 64) fun t => t.setX n rd (s.linkWord n))

/-- `RDTIME` (R222): Returns the full 64-bit Meridian. -/
def execRdtime (n : Fin 12) (rd : Fin 32) (s : State) : Host.Outcome State Fault Refusal :=
  ok (s.issueNext n fun s => s.setX n rd (BitVec.ofNat 64 s.meridian))

/-- `RDPMC` (R222): Returns a performance counter with its wrap bit, or raises an exception in user mode without permission. -/
def execRdpmc (n : Fin 12) (rd : Fin 32) (c : Fin 64) (s : State) : Host.Outcome State Fault Refusal :=
  ok (s.rdpmcAt n rd c)

/-- `SYSCALL` (R216): Raises exception 0x09 with its code as detail. -/
def execSyscall (n : Fin 12) (code : BitVec 6) (s : State) : Host.Outcome State Fault Refusal :=
  ok (s.issue n fun s => s.trap n 9 code.toNat 0)

/-- `BREAK` (R216): Raises exception 0x0A. -/
def execBrk (n : Fin 12) (s : State) : Host.Outcome State Fault Refusal :=
  ok (s.issue n fun s => s.trap n 0xA 0 0)

/-- `ERET` (R218): Returns from a handler, restoring pc, IE and KRN and clearing HDL. -/
def execEret (n : Fin 12) (s : State) : Host.Outcome State Fault Refusal :=
  ok (s.privileged n (fun s => (s.core n).krn) (wordA 0x24 0 0 0 4) fun s => s.coreReturn n)

/-- `WFI` (R202): Waits until an enabled interrupt source is pending. -/
def execWfi (n : Fin 12) (s : State) : Host.Outcome State Fault Refusal :=
  ok (s.privileged n (fun s => (s.core n).krn) (wordA 0x24 0 0 0 5) fun s => s.wfi n)

/-- `MFCR` (R221): Reads a core register, subject to the user-mode restrictions. -/
def execMfcr (n : Fin 12) (rd : Fin 32) (num : BitVec 12) (s : State) : Host.Outcome State Fault Refusal :=
  ok (s.mfcr n rd num)

/-- `MTCR` (R221): Writes a core register, subject to the user-mode restrictions. -/
def execMtcr (n : Fin 12) (ra : Fin 32) (num : BitVec 12) (s : State) : Host.Outcome State Fault Refusal :=
  ok (s.mtcr n ra num)

/-- `SHEV_POP` (R220): A write of POP to CORE_SHEV_POP removes the head entry of the sheet-event queue. -/
def execShevPop (n : Fin 12) (s : State) : Host.Outcome State Fault Refusal :=
  ok (s.issueNext n fun s => s.updCore n CoreX.popShev)

/-- `SHEV_CLR_LOST` (R221): A write of CLR_LOST to CORE_SHEV_POP clears the LOST flag. -/
def execShevClrLost (n : Fin 12) (s : State) : Host.Outcome State Fault Refusal :=
  ok (s.issueNext n fun s => s.updCore n fun c => { c with shevLost := false })

end Sys2Proof.Machine
end

