-- ==== Sys2Proof/Machine/NovMem.lean ====
section
/-! DEFINITION. Meanings of the loads, stores, atomics and FENCE (R197 to R200, R202). -/

namespace Sys2Proof.Machine

/-- `LB` (R197): Loads 1 byte, sign-extended, under the memory map of R197. -/
def execLb (n : Fin 12) (rd ra : Fin 32) (imm : BitVec 16) (s : State) : Host.Outcome State Fault Refusal :=
  ok (s.coreLoad n 1 true rd ra imm)

/-- `LBU` (R197): Loads 1 byte, zero-extended. -/
def execLbu (n : Fin 12) (rd ra : Fin 32) (imm : BitVec 16) (s : State) : Host.Outcome State Fault Refusal :=
  ok (s.coreLoad n 1 false rd ra imm)

/-- `LH` (R197): Loads 2 bytes, sign-extended. -/
def execLh (n : Fin 12) (rd ra : Fin 32) (imm : BitVec 16) (s : State) : Host.Outcome State Fault Refusal :=
  ok (s.coreLoad n 2 true rd ra imm)

/-- `LHU` (R197): Loads 2 bytes, zero-extended. -/
def execLhu (n : Fin 12) (rd ra : Fin 32) (imm : BitVec 16) (s : State) : Host.Outcome State Fault Refusal :=
  ok (s.coreLoad n 2 false rd ra imm)

/-- `LW` (R197): Loads 4 bytes, sign-extended, including control-window reads. -/
def execLw (n : Fin 12) (rd ra : Fin 32) (imm : BitVec 16) (s : State) : Host.Outcome State Fault Refusal :=
  ok (s.coreLoad n 4 true rd ra imm)

/-- `LWU` (R197): Loads 4 bytes, zero-extended. -/
def execLwu (n : Fin 12) (rd ra : Fin 32) (imm : BitVec 16) (s : State) : Host.Outcome State Fault Refusal :=
  ok (s.coreLoad n 4 false rd ra imm)

/-- `LD` (R197): Loads 8 bytes. -/
def execLd (n : Fin 12) (rd ra : Fin 32) (imm : BitVec 16) (s : State) : Host.Outcome State Fault Refusal :=
  ok (s.coreLoad n 8 false rd ra imm)

/-- `SB` (R197): Stores 1 byte. -/
def execSb (n : Fin 12) (rs ra : Fin 32) (imm : BitVec 16) (s : State) : Host.Outcome State Fault Refusal :=
  ok (s.coreStore n 1 rs ra imm)

/-- `SH` (R197): Stores 2 bytes. -/
def execSh (n : Fin 12) (rs ra : Fin 32) (imm : BitVec 16) (s : State) : Host.Outcome State Fault Refusal :=
  ok (s.coreStore n 2 rs ra imm)

/-- `SW` (R197): Stores 4 bytes, including posted control-space writes. -/
def execSw (n : Fin 12) (rs ra : Fin 32) (imm : BitVec 16) (s : State) : Host.Outcome State Fault Refusal :=
  ok (s.coreStore n 4 rs ra imm)

/-- `SD` (R197): Stores 8 bytes. -/
def execSd (n : Fin 12) (rs ra : Fin 32) (imm : BitVec 16) (s : State) : Host.Outcome State Fault Refusal :=
  ok (s.coreStore n 8 rs ra imm)

/-- `AMOADD` (R202): Atomically adds to the memory word and returns the old word. -/
def execAmoadd (n : Fin 12) (rd ra rb : Fin 32) (s : State) : Host.Outcome State Fault Refusal :=
  ok (s.amo n rd ra fun s old => some (old + s.getX n rb))

/-- `AMOSWAP` (R202): Atomically swaps the memory word and returns the old word. -/
def execAmoswap (n : Fin 12) (rd ra rb : Fin 32) (s : State) : Host.Outcome State Fault Refusal :=
  ok (s.amo n rd ra fun s _ => some (s.getX n rb))

/-- `AMOCAS` (R202): Atomic compare-and-swap that returns the old word. -/
def execAmocas (n : Fin 12) (rd ra rb : Fin 32) (s : State) : Host.Outcome State Fault Refusal :=
  ok (s.amo n rd ra fun s old => if old = s.getX n rd then some (s.getX n rb) else none)

/-- `FENCE` (R200): Waits until every earlier store of the core has taken effect. -/
def execFence (n : Fin 12) (s : State) : Host.Outcome State Fault Refusal :=
  ok (s.fence n)

end Sys2Proof.Machine
end

