-- ==== Sys2Proof/Machine/NovTimed.lean ====
section
/-! DEFINITION. Meanings of the timed instructions, regions, interrupts and the commands of PSQ (R49 to R60, R203 to R218). -/

namespace Sys2Proof.Machine

/-- `WAITT` (R203): Holds the core until Meridian reaches the target time. -/
def execWaitt (n : Fin 12) (rd ra : Fin 32) (s : State) : Host.Outcome State Fault Refusal :=
  ok (s.waitt n rd ra)

/-- `WAITT_RESUME` (R203): Meridian reaches the WAITT target and the core resumes with the lateness in rd. -/
def execWaittResume (n : Fin 12) (s : State) : Host.Outcome State Fault Refusal :=
  ok (s.waittEnd n)

/-- `EMIT` (R205): Sends a timed command to a block, with PSQ judging a tagged command's fate and returning the verdict. -/
def execEmit (n : Fin 12) (irrev : Bool) (rd ra rb : Fin 32) (s : State) : Host.Outcome State Fault Refusal :=
  ok (s.emit n irrev rd ra rb)

/-- `EMIT_STALL_RELEASE` (R207): An entry frees in a full pending or hold queue and the stalled EMIT completes. -/
def execEmitStallRelease (n : Fin 12) (s : State) : Host.Outcome State Fault Refusal :=
  ok (s.emitAgain n)

/-- `SAMPLE` (R210): Waits for the target time and then captures the selected input. -/
def execSample (n : Fin 12) (rd ra rb : Fin 32) (s : State) : Host.Outcome State Fault Refusal :=
  ok (s.sample n rd ra rb)

/-- `SAMPLE_CAPTURE` (R210): At the SAMPLE target time, the selected input is captured into rd. -/
def execSampleCapture (n : Fin 12) (s : State) : Host.Outcome State Fault Refusal :=
  ok (s.sampleEnd n)

/-- `SPEC` (R49): Runs the launch checks, launches the sheet and opens a region, or returns the REASON code. -/
def execSpec (n : Fin 12) (rd ra : Fin 32) (s : State) : Host.Outcome State Fault Refusal :=
  ok (s.privileged n (fun s => s.mayRule n) (wordRegion rd ra 0) fun s => s.whereNoRegion n (s.tagOf n ra) fun s =>
    s.regionTurn n fun s => s.launch n rd (s.tagOf n ra))

/-- `SPEC_J` (R212): Opens a region on a sheet that is already LAUNCHED or COMMITTED, without a launch. -/
def execSpecJ (n : Fin 12) (rd ra : Fin 32) (s : State) : Host.Outcome State Fault Refusal :=
  ok (s.issue n fun s => s.whereNoRegion n (s.tagOf n ra) fun s => s.regionTurn n fun s => s.join n rd (s.tagOf n ra))

/-- `SPEC_L` (R212): Closes the core's region without acting on the sheet. -/
def execSpecL (n : Fin 12) (rd : Fin 32) (s : State) : Host.Outcome State Fault Refusal :=
  ok (s.issue n fun s => s.regionTurn n fun s => s.leave n rd)

/-- `COMMIT` (R212): Arms the commit of a LAUNCHED sheet and closes the region, or has no effect, or is refused. -/
def execCommit (n : Fin 12) (rd ra : Fin 32) (s : State) : Host.Outcome State Fault Refusal :=
  ok (s.privileged n (fun s => s.mayRule n) (wordRegion rd ra 3) fun s => s.regionTurn n fun s => s.arm n rd (s.tagOf n ra))

/-- `ABORT` (R212): Aborts a LAUNCHED sheet, ends a BOUND one, or has no effect with LATE_ABORT. -/
def execAbort (n : Fin 12) (rd ra : Fin 32) (s : State) : Host.Outcome State Fault Refusal :=
  ok (s.privileged n (fun s => s.mayRule n) (wordRegion rd ra 4) fun s => s.regionTurn n fun s => s.abort n rd (s.tagOf n ra))

/-- `INTERRUPT_ENTRY` (R218): A pending, enabled interrupt is taken at an instruction boundary in priority order. -/
def execInterruptEntry (n : Fin 12) (s : State) : Host.Outcome State Fault Refusal :=
  ok (s.takeInterrupt n)

/-- `CORE_TIMER_EXPIRY` (R217): Meridian reaches CORE_TCMP and interrupt source 35 becomes pending. -/
def execCoreTimerExpiry (n : Fin 12) (s : State) : Host.Outcome State Fault Refusal :=
  ok (s.wfiEnd n)

/-- `RELEASE` (R209): At its effect time, the PSQ RELEASE releases the sheet to the finisher through FIN_REL and the sheet becomes DONE,
or is discarded. -/
def execRelease (s : State) : Host.Outcome State Fault Refusal :=
  ok (s.emitted 10 1)

/-- `EVENT` (R209): The PSQ EVENT sends a sheet event with its SPEC flag to the host, finisher or a fabric device and updates the seen
set, or is refused. -/
def execEvent (s : State) : Host.Outcome State Fault Refusal :=
  ok (s.emitted 10 2)

end Sys2Proof.Machine
end

