-- ==== Sys2Proof/Machine/RowBeam.lean ====
section
/-! DEFINITION. Meanings of the commands on scan timing, exposures, the interlock and beam health (R148 to R191). -/

namespace Sys2Proof.Machine

/-- `SOS_WINDOW_OPEN` (R148): The SOS window opens around the predicted SOS, the sync beam is lit, and pending next-SOS settings are
applied. -/
def execSosWindowOpen (k : Fin 8) (s : State) : Host.Outcome State Fault Refusal :=
  ok (s.sosWindow k)

/-- `SOS_CAPTURE` (R148): The first active SOSk edge in the window is captured to one tap, the facet number advances and the facet is
printed from it. -/
def execSosCapture (k : Fin 8) (tap : Fin 32) (s : State) : Host.Outcome State Fault Refusal :=
  ok (s.sosCapture k tap)

/-- `SOS_MISS` (R149): The SOS window closes without an edge: SOS is synthesized and counted, and after SOS_MISS_MAX misses the station
enters acquisition. -/
def execSosMiss (k : Fin 8) (s : State) : Host.Outcome State Fault Refusal :=
  ok (s.sosMiss k)

/-- `LINE_END` (R150): Dot 51,023 ends, the half of the facet's band is released and the EOS window opens. -/
def execLineEnd (k : Fin 8) (s : State) : Host.Outcome State Fault Refusal :=
  ok (s.lineEnd k)

/-- `EOS_CAPTURE` (R150): EOSk is captured in its window and the scan time is logged to BTM_SCAN_LAST and BTM_SCANf. -/
def execEosCapture (k : Fin 8) (tap : Fin 32) (s : State) : Host.Outcome State Fault Refusal :=
  ok (s.eosCapture k tap)

/-- `EOS_MISS` (R150): The EOS window ends without an edge, which is counted in BTM_CNT_EOS_MISS. -/
def execEosMiss (k : Fin 8) (s : State) : Host.Outcome State Fault Refusal :=
  ok (s.eosMiss k)

/-- `DLL_UNLOCK` (R152): The DLL phase error exceeds 2 taps for 64 ticks: DLL_LOCK clears, DLL_UNLOCK sets and the station leaves READY.
-/
def execDllUnlock (k : Fin 8) (s : State) : Host.Outcome State Fault Refusal :=
  ok (s.dllUnlock k)

/-- `DLL_LOCK` (R152): The station DLL locks or relocks within 20 µs. -/
def execDllLock (k : Fin 8) (s : State) : Host.Outcome State Fault Refusal :=
  ok (s.dllLock k)

/-- `FACET_IDX_SET` (R151): A write of BTM_FACET_IDX with SET requests that NEXT_IDX be assigned to the first facet after application.
-/
def execFacetIdxSet (m : Master) (k : Fin 8) (v : RegWord) (s : State) : Host.Outcome State Fault Refusal :=
  ok (s.masterWrite m (Reg.BTM_FACET_IDX k) (withBit v 4 true))

/-- `EXPOSE` (R170): At its effect time, the EXPOSE command is checked and exposure begins at the next SOS, or it is refused and a
committed sheet spoils. -/
def execExpose (k : Fin 8) (s : State) : Host.Outcome State Fault Refusal :=
  ok (s.emitted (13 + k) 1)

/-- `CAL_START` (R172): CAL_START begins a calibration exposure at the next SOS while the Gap is open, or is refused. -/
def execCalStart (k : Fin 8) (s : State) : Host.Outcome State Fault Refusal :=
  ok (s.emitted (13 + k) 2)

/-- `CAL_STOP` (R172): CAL_STOP ends a running calibration exposure. -/
def execCalStop (k : Fin 8) (s : State) : Host.Outcome State Fault Refusal :=
  ok (s.emitted (13 + k) 3)

/-- `LSI_ACTIVATE` (R174): An LSI_N input stays low for more than 0.5 µs: the interlock latches, beams are held off and LDEN goes low.
-/
def execLsiActivate (in1 : Bool) (s : State) : Host.Outcome State Fault Refusal :=
  ok (s.lsiLow in1)

/-- `LSI_DISAGREE` (R175): The two interlock inputs disagree for more than 10 ms and DISAGREE sets. -/
def execLsiDisagree (s : State) : Host.Outcome State Fault Refusal :=
  ok s.lsiDisagree

/-- `LSI_REARM` (R175): A write of BTM0_LSI with REARM and KEY 0x5A releases the interlock if both inputs have been high for 1 ms, or is
ignored. -/
def execLsiRearm (m : Master) (v : RegWord) (s : State) : Host.Outcome State Fault Refusal :=
  ok (s.masterWrite m (Reg.BTM_LSI 0) (withBit v 4 true))

/-- `TEST_CFG_WRITE` (R184): A write of BMK_Sk_TEST_CFG that changes INTERVAL restarts the beam-test facet count. -/
def execTestCfgWrite (m : Master) (k : Fin 8) (v : RegWord) (s : State) : Host.Outcome State Fault Refusal :=
  ok (s.masterWrite m (Reg.BMK_S_TEST_CFG k) v)

/-- `BEAM_TEST` (R184): The N-th facet count expires, the next beam in rotation is chosen and tested in a window, or the test is
skipped. -/
def execBeamTest (k : Fin 8) (s : State) : Host.Outcome State Fault Refusal :=
  ok (s.beamTest k)

/-- `BEAM_TEST_PASS` (R185): A SOSk edge arrives in the test window, which is a pass: CONSEC returns to 0 and the crossing is logged. -/
def execBeamTestPass (k : Fin 8) (tap : Fin 32) (s : State) : Host.Outcome State Fault Refusal :=
  ok (s.testPass k tap)

/-- `BEAM_TEST_MISS` (R185): The test window closes without an edge: CONSEC and TOTAL rise. -/
def execBeamTestMiss (k : Fin 8) (s : State) : Host.Outcome State Fault Refusal :=
  ok (s.testMiss k)

/-- `POWER_MEASURE_GO` (R189): A write of BMK_Sk_PWR_CTRL.GO starts a beam-power measurement from retrace or calibration exposure, or
ends it at once with ERR 0x1. -/
def execPowerMeasureGo (m : Master) (k : Fin 8) (v : RegWord) (s : State) : Host.Outcome State Fault Refusal :=
  ok (s.masterWrite m (Reg.BMK_S_PWR_CTRL k) (withBit v 0 true))

/-- `POWER_FACET_INTEGRATE` (R190): A measured facet's window is integrated, or the facet is skipped, and the measurement may end with
an error. -/
def execPowerFacetIntegrate (k : Fin 8) (v : BitVec 16) (s : State) : Host.Outcome State Fault Refusal :=
  ok (s.powerFacet k v.toNat)

/-- `POWER_MEASURE_DONE` (R191): The last facet of a measurement is integrated, MEAN and SPREAD are stored and DONE sets. -/
def execPowerMeasureDone (k : Fin 8) (s : State) : Host.Outcome State Fault Refusal :=
  ok (s.powerDone k)

end Sys2Proof.Machine
end

