-- ==== Sys2Proof/Machine/RowFabric.lean ====
section
/-! DEFINITION. Meanings of the commands on the fabric (R91 to R98, R354 to R375). -/

namespace Sys2Proof.Machine

/-- `PORT_BLOCK_LOCK` (R354): A port's lanes reach block lock and the port runs striped or degraded. -/
def execPortBlockLock (p : Fin 8) (lane0 lane1 inv0 inv1 : Bool) (s : State) : Host.Outcome State Fault Refusal :=
  ok (s.blockLock p lane0 lane1 inv0 inv1)

/-- `LANE_LOCK_TIMEOUT` (R354): Only one lane locks within 100 ms, so the port runs degraded with LANE_DOWN. -/
def execLaneLockTimeout (p : Fin 8) (s : State) : Host.Outcome State Fault Refusal :=
  ok (s.laneTimeout p)

/-- `PORT_DOWN` (R368): A port goes down and the messages queued for it are answered as stopped messages. -/
def execPortDown (p : Fin 8) (s : State) : Host.Outcome State Fault Refusal :=
  ok (s.portDown p)

/-- `FRAME_RECEIVE` (R355): A link frame arrives; on a CRC failure it is dropped and a replay is requested, and past 16 replays the link
goes down. -/
def execFrameReceive (p : Fin 8) (frame : Nat) (crcOk : Bool) (headers : List (BitVec 128)) (s : State) : Host.Outcome State Fault Refusal :=
  ok (s.frameArrives p frame crcOk headers)

/-- `REPLAY_REQUEST` (R355): A replay request arrives and the sender resends from the named frame out of its replay buffer. -/
def execReplayRequest (p : Fin 8) (frame count : Nat) (s : State) : Host.Outcome State Fault Refusal :=
  ok (s.replay p frame count)

/-- `WRITE` (R365): A posted WRITE is applied at its home, or fails there with a LATE_ERROR and record 0x0F01. -/
def execWrite (p : Fin 8) (f : FabMsg) (s : State) : Host.Outcome State Fault Refusal :=
  ok (s.message p f 0 0 fun s f => s.homeWrite f false)

/-- `READ_REQ` (R358): A READ_REQ is served at the home after earlier writes, with READ_DATA or READ_ERR. -/
def execReadReq (p : Fin 8) (f : FabMsg) (s : State) : Host.Outcome State Fault Refusal :=
  ok (s.message p f 1 0 fun s f => s.homeRead f false)

/-- `READ_DATA` (R357): READ_DATA arrives and completes the requester's read. -/
def execReadData (p : Fin 8) (f : FabMsg) (s : State) : Host.Outcome State Fault Refusal :=
  ok (s.message p f 1 1 fun s f => s.readData f.tag)

/-- `READ_ERR` (R357): READ_ERR arrives with its code and fails the requester's read. -/
def execReadErr (p : Fin 8) (f : FabMsg) (s : State) : Host.Outcome State Fault Refusal :=
  ok (s.message p f 1 2 fun s f => s.readFailed f.tag (f.tag % 16))

/-- `RD_TIMEOUT` (R370): A remote read exceeds FAB_RD_TIMEOUT, the requester receives an error and late data are later discarded. -/
def execRdTimeout (s : State) : Host.Outcome State Fault Refusal :=
  ok s.readTimeout

/-- `SHEET_EVENT` (R371): A received sheet event enters the event queue and, for outcomes, the peer outcome table read by precondition
f. -/
def execSheetEvent (p : Fin 8) (f : FabMsg) (s : State) : Host.Outcome State Fault Refusal :=
  ok (s.message p f 2 0 fun s f => s.sheetEventArrives f.src f.payload)

/-- `LATE_ERROR` (R369): A LATE_ERROR enters the late-error queue, or is lost with LEQ_LOST. -/
def execLateError (p : Fin 8) (f : FabMsg) (s : State) : Host.Outcome State Fault Refusal :=
  ok (s.message p f 2 1 fun s f => s.lateErrorArrives p f.src f.payload)

/-- `JOURNAL_ACK` (R346): The mate's acknowledgement of a mirrored journal entry arrives. -/
def execJournalAck (p : Fin 8) (f : FabMsg) (s : State) : Host.Outcome State Fault Refusal :=
  ok (s.message p f 2 2 fun s f => s.journalAck f.src f.payload)

/-- `SYNC` (R373): A received SYNC sets FAB_SYNC_OFS, and the fabric agent steps or slews Meridian and tracks lock. -/
def execSync (p : Fin 8) (src prio sent acc : Nat) (s : State) : Host.Outcome State Fault Refusal :=
  ok (s.syncArrives p src prio sent acc)

/-- `SYNC_SEND` (R372): Every INTERVAL ms the time master sends SYNC with its Meridian. -/
def execSyncSend (s : State) : Host.Outcome State Fault Refusal :=
  ok s.syncSend

/-- `SYNC_TIMEOUT` (R373): No SYNC arrives for 10 × INTERVAL, so LOCKED clears and SYNC_LOST sets. -/
def execSyncTimeout (s : State) : Host.Outcome State Fault Refusal :=
  ok s.syncTimeout

/-- `DELAY_MEASURE` (R372): Every 100 ms a device sends DELAY_REQ on each port to measure its link delay. -/
def execDelayMeasure (s : State) : Host.Outcome State Fault Refusal :=
  ok s.delayMeasure

/-- `DELAY_REQ` (R372): A DELAY_REQ arrives and is answered with DELAY_RESP. -/
def execDelayReq (p : Fin 8) (residence : Nat) (s : State) : Host.Outcome State Fault Refusal :=
  ok (s.delayAnswer p residence)

/-- `DELAY_RESP` (R372): A DELAY_RESP arrives and the one-way delay is written to FAB_Pp_DELAY. -/
def execDelayResp (p : Fin 8) (part residence : Nat) (s : State) : Host.Outcome State Fault Refusal :=
  ok (s.delayArrives p part residence)

/-- `SNOOP` (R91): A SNOOP at the home is answered with DATA, RECALL, UNCACHED, PINNED, RETRY, IN_EVICT or ABSENT according to the
granule's state. -/
def execSnoop (p : Fin 8) (f : FabMsg) (s : State) : Host.Outcome State Fault Refusal :=
  ok (s.message p f 4 0 fun s f => s.homeSnoop f false)

/-- `DATA` (R91): DATA arrives and the requester holds the granule SHARED or OWNED. -/
def execData (p : Fin 8) (f : FabMsg) (s : State) : Host.Outcome State Fault Refusal :=
  ok (s.message p f 4 1 fun s f => s.dataArrives (granuleOf f) f.payload)

/-- `RECALL` (R94): A holder receives a RECALL and answers with an EVICT or NOT_HELD. -/
def execRecall (p : Fin 8) (f : FabMsg) (s : State) : Host.Outcome State Fault Refusal :=
  ok (s.message p f 4 2 fun s f => s.recallArrives f.src f.tag (granuleOf f))

/-- `EVICT` (R93): An EVICT at the home returns owned data or drops a sharer, and may answer a pending RECALL or SNOOP. -/
def execEvict (p : Fin 8) (f : FabMsg) (s : State) : Host.Outcome State Fault Refusal :=
  ok (s.message p f 4 3 fun s f => (s.homeEvict f false).retryIn)

/-- `PIN` (R91): A PIN tells the home that a shared copy is pinned by an admission. -/
def execPin (p : Fin 8) (f : FabMsg) (s : State) : Host.Outcome State Fault Refusal :=
  ok (s.message p f 4 4 fun s f => s.homePin f true)

/-- `UNPIN` (R91): An UNPIN releases a remote pin at the home. -/
def execUnpin (p : Fin 8) (f : FabMsg) (s : State) : Host.Outcome State Fault Refusal :=
  ok (s.message p f 4 5 fun s f => s.homePin f false)

/-- `RETRY` (R95): A RETRY answer arrives because the home's directory is full. -/
def execRetry (p : Fin 8) (f : FabMsg) (s : State) : Host.Outcome State Fault Refusal :=
  ok (s.message p f 4 6 fun s f => s.snoopRefused (granuleOf f))

/-- `PINNED` (R92): A PINNED answer refuses an ownership request for pinned data. -/
def execPinned (p : Fin 8) (f : FabMsg) (s : State) : Host.Outcome State Fault Refusal :=
  ok (s.message p f 4 7 fun s f => s.snoopRefused (granuleOf f))

/-- `UNCACHED` (R91): UNCACHED data serve one read without being held, and the refusal is counted. -/
def execUncached (p : Fin 8) (f : FabMsg) (s : State) : Host.Outcome State Fault Refusal :=
  ok (s.message p f 4 8 fun s f => s.uncachedArrives (granuleOf f) f.payload)

/-- `IN_EVICT` (R94): IN_EVICT data arrive and are treated as DATA. -/
def execInEvict (p : Fin 8) (f : FabMsg) (s : State) : Host.Outcome State Fault Refusal :=
  ok (s.message p f 4 9 fun s f => s.dataArrives (granuleOf f) f.payload)

/-- `NOT_HELD` (R94): A NOT_HELD answer to a RECALL is discarded at the home. -/
def execNotHeld (p : Fin 8) (f : FabMsg) (s : State) : Host.Outcome State Fault Refusal :=
  ok (s.message p f 4 10 fun s _ => s)

/-- `ABSENT` (R98): An ABSENT answer arrives; holders keep their copies and an owner retries its EVICT. -/
def execAbsent (p : Fin 8) (f : FabMsg) (s : State) : Host.Outcome State Fault Refusal :=
  ok (s.message p f 4 11 fun s f => s.absentArrives f.tag (granuleOf f))

/-- `HELLO` (R360): HELLO exchanges the EUI, versions and ids with a neighbour. -/
def execHello (p : Fin 8) (eui verMin verMax : Nat) (held : Option Nat) (s : State) : Host.Outcome State Fault Refusal :=
  ok (s.helloArrives p eui verMin verMax held)

/-- `DISCOVER` (R360): A flooded DISCOVER causes each device to send ASSIGN requests to the root. -/
def execDiscover (p : Fin 8) (number root : Nat) (s : State) : Host.Outcome State Fault Refusal :=
  ok (s.discoverArrives p number root)

/-- `ASSIGN` (R360): An ASSIGN request is granted by the root, or a flooded grant gives a device its id or sets ID_CONFLICT. -/
def execAssign (p : Fin 8) (number : Nat) (a : Assign) (s : State) : Host.Outcome State Fault Refusal :=
  ok (s.assignArrives p number a)

/-- `ROUTE` (R361): A ROUTE message updates the automatic routes from shortest paths. -/
def execRoute (p : Fin 8) (routes : List (Nat × Nat)) (s : State) : Host.Outcome State Fault Refusal :=
  ok (s.routeArrives p routes)

/-- `FAB_DISCOVER` (R360): A write of FAB_CTRL.DISCOVER runs discovery. -/
def execFabDiscover (m : Master) (v : RegWord) (s : State) : Host.Outcome State Fault Refusal :=
  ok (s.masterWrite m Reg.FAB_CTRL (withBit v 3 true))

/-- `LEQ_POP` (R375): A write of FAB_LEQ_POP removes the head of the late-error queue. -/
def execLeqPop (m : Master) (s : State) : Host.Outcome State Fault Refusal :=
  ok (s.masterWrite m Reg.FAB_LEQ_POP 1)

/-- `EVQ_POP` (R375): A write of FAB_EVQ_POP removes the head of the fabric event queue. -/
def execEvqPop (m : Master) (s : State) : Host.Outcome State Fault Refusal :=
  ok (s.masterWrite m Reg.FAB_EVQ_POP 1)

end Sys2Proof.Machine
end

