-- ==== Sys2Proof/Machine/RowHost.lean ====
section
/-! DEFINITION. Meanings of the commands of the host, the journal, xSPI and the boot (R325 to R352). -/

namespace Sys2Proof.Machine

/-- `HOST_LINK_UP` (R325): The PCIe endpoint link trains up and the host may enable queue pairs. -/
def execHostLinkUp (s : State) : Host.Outcome State Fault Refusal :=
  ok s.linkUp

/-- `LINK_DOWN` (R332): The host link goes down: queue pairs are disabled, unaccepted commands are dropped and completions and events
are lost. -/
def execLinkDown (s : State) : Host.Outcome State Fault Refusal :=
  ok s.linkDown

/-- `QP_ENABLE` (R326): A write of HST_QPn_CFG.EN enables a queue pair, or refuses it with QP_ERR for an unoffered version. -/
def execQpEnable (m : Master) (n : Fin 64) (v : RegWord) (s : State) : Host.Outcome State Fault Refusal :=
  ok (s.masterWrite m (Reg.HST_QP_CFG n) (withBit v 30 true))

/-- `SQ_DOORBELL` (R326): A write of HST_QPn_SQ_TAIL makes new submissions available for fetching. -/
def execSqDoorbell (m : Master) (n : Fin 64) (v : RegWord) (s : State) : Host.Outcome State Fault Refusal :=
  ok (s.masterWrite m (Reg.HST_QP_SQ_TAIL n) v)

/-- `CQ_DOORBELL` (R326): A write of HST_QPn_CQ_HEAD frees CQ space and resumes fetching. -/
def execCqDoorbell (m : Master) (n : Fin 64) (v : RegWord) (s : State) : Host.Outcome State Fault Refusal :=
  ok (s.masterWrite m (Reg.HST_QP_CQ_HEAD n) v)

/-- `JOB_OPEN` (R329): Accepts and journals a job open with a station mask and speed. -/
def execJobOpen (n : Fin 64) (s : State) : Host.Outcome State Fault Refusal :=
  ok (s.jobOpen n)

/-- `JOB_CLOSE` (R329): Accepts and journals a job close; later submissions for the job are refused. -/
def execJobClose (n : Fin 64) (s : State) : Host.Outcome State Fault Refusal :=
  ok (s.jobClose n)

/-- `PAGE_SUBMIT` (R329): Accepts a page descriptor address into a page entry and journals it. -/
def execPageSubmit (n : Fin 64) (s : State) : Host.Outcome State Fault Refusal :=
  ok (s.pageSubmit n)

/-- `PAGE_BIND` (R329): Binds a page to a new sheet entry and returns its tag. -/
def execPageBind (n : Fin 64) (s : State) : Host.Outcome State Fault Refusal :=
  ok (s.pageBind n)

/-- `COMMIT_POLICY` (R329): Records the abort-retry and reprint policy of the job. -/
def execCommitPolicy (n : Fin 64) (s : State) : Host.Outcome State Fault Refusal :=
  ok (s.commitPolicy n)

/-- `CANCEL` (R43): Withdraws a page or every page of a job, or is refused with 0x06 for a page in PRINTING. -/
def execCancel (n : Fin 64) (s : State) : Host.Outcome State Fault Refusal :=
  ok (s.cancel n)

/-- `STATUS` (R329): A query returning the state and the page and sheet usage. -/
def execStatus (n : Fin 64) (s : State) : Host.Outcome State Fault Refusal :=
  ok (s.status n)

/-- `FW_STAGE_WRITE` (R345): Copies image bytes from host memory into the non-boot bank and clears STAGED. -/
def execFwStageWrite (n : Fin 64) (s : State) : Host.Outcome State Fault Refusal :=
  ok (s.fwWrite n)

/-- `FW_STAGE_VERIFY` (R345): Verifies the staged bank and sets STAGED, or completes with 0x08. -/
def execFwStageVerify (n : Fin 64) (s : State) : Host.Outcome State Fault Refusal :=
  ok (s.fwVerify n)

/-- `FW_STAGE_SWITCH` (R345): Requests the bank switch, which runs at step 6 of a Gap. -/
def execFwStageSwitch (n : Fin 64) (s : State) : Host.Outcome State Fault Refusal :=
  ok (s.fwSwitch n)

/-- `FW_STAGE_RESTART` (R345): In MORNING with no page bound, takes a system reset that loads the new image. -/
def execFwStageRestart (n : Fin 64) (s : State) : Host.Outcome State Fault Refusal :=
  ok (s.fwRestart n)

/-- `JOURNAL_READ` (R342): A query copying up to 65,536 journal or mirror entries to a host buffer, with zeros for gaps. -/
def execJournalRead (n : Fin 64) (s : State) : Host.Outcome State Fault Refusal :=
  ok (s.journalRead n)

/-- `JOURNAL_NVM_WRITE_COMPLETE` (R338): Both NVM copies of an entry are written, the durable sequence advances and the waiting
completion is posted. -/
def execJournalNvmWriteComplete (r : NvmResult) (s : State) : Host.Outcome State Fault Refusal :=
  ok (s.jrnNvm r)

/-- `JOURNAL_SCAN_COMPLETE` (R337): The DAWN scan of every journal slot completes, setting the next, durable and oldest sequence numbers
and the gap count. -/
def execJournalScanComplete (s : State) : Host.Outcome State Fault Refusal :=
  ok s.jrnScan

/-- `MATE_ACK_TIMEOUT` (R346): No acknowledgement arrives from the mate within 1 ms, so MATE_LOST sets and completions carry M = 0. -/
def execMateAckTimeout (s : State) : Host.Outcome State Fault Refusal :=
  ok (s.mateSilent.pumpCpl)

/-- `BOOT_IMAGE_LOAD` (R344): The boot ROM verifies and loads the boot bank or falls back to the other, or fails the self-test with
SELFTEST_FAIL. -/
def execBootImageLoad (boot other : Bool) (image : List (Nat × List Byte)) (s : State) : Host.Outcome State Fault Refusal :=
  ok (s.bootLoad boot other image)

/-- `XSP_CMD_GO` (R352): A write of XSP_CMD.GO runs a manual read of LEN bytes, as used for the A0-10 dummy read. -/
def execXspCmdGo (m : Master) (v : RegWord) (s : State) : Host.Outcome State Fault Refusal :=
  ok (s.masterWrite m Reg.XSP_CMD (withBit v 0 true))

/-- `XSP_READ_COMPLETE` (R352): The manual xSPI read completes and BUSY clears with the data in XSP_CMD_DATA. -/
def execXspReadComplete (s : State) : Host.Outcome State Fault Refusal :=
  ok s.xspDone

/-- `FW_STAGE_COMPLETE` (R345): A FW_STAGE WRITE or VERIFY in progress ends, clearing the in-progress condition and setting STAGED or
completing with 0x08. -/
def execFwStageComplete (valid : Bool) (s : State) : Host.Outcome State Fault Refusal :=
  ok (s.fwDone valid)

end Sys2Proof.Machine
end

