-- ==== Sys2Proof/Machine/RowLoop.lean ====
section
/-! DEFINITION. Meanings of the commands on the Prairie engine and the ADC (R257 to R276). -/

namespace Sys2Proof.Machine

/-- `FRAME_START` (R257): A 4 µs Prairie frame starts, the frame count advances and pending ADC bank switches are applied. -/
def execFrameStart (s : State) : Host.Outcome State Fault Refusal :=
  ok s.frameStart

/-- `SLOT_SAMPLE` (R258): A due slot samples its input at its sample instant, or enters HOLD if the input is invalid. -/
def execSlotSample (n : Fin 128) (s : State) : Host.Outcome State Fault Refusal :=
  ok (s.slotSample n)

/-- `LOOP_COMPUTATION` (R261): The arithmetic unit completes a slot's computation, applies the output and updates the integrator,
saturation and lock. -/
def execLoopComputation (s : State) : Host.Outcome State Fault Refusal :=
  ok s.loopComputation

/-- `PRA_ON` (R264): ON moves an OFF slot into PRELOAD with a synchronizing reset. -/
def execPraOn (src : Src) (s : State) : Host.Outcome State Fault Refusal :=
  ok (s.command src 24 1 128 Reg.PRA_L_CTRL (some 0))

/-- `PRA_OFF` (R264): OFF turns the slot off with output 0. -/
def execPraOff (src : Src) (s : State) : Host.Outcome State Fault Refusal :=
  ok (s.command src 24 2 128 Reg.PRA_L_CTRL (some 1))

/-- `PRA_SET` (R271): SET writes the slot's setpoint. -/
def execPraSet (src : Src) (s : State) : Host.Outcome State Fault Refusal :=
  ok (s.command src 24 3 128 Reg.PRA_L_SP none)

/-- `PRA_SYNC` (R265): SYNC gives a synchronizing reset into PRELOAD. -/
def execPraSync (src : Src) (s : State) : Host.Outcome State Fault Refusal :=
  ok (s.command src 24 4 128 Reg.PRA_L_CTRL (some 2))

/-- `PRA_CAP` (R263): CAP writes the slot's policy cap. -/
def execPraCap (src : Src) (s : State) : Host.Outcome State Fault Refusal :=
  ok (s.command src 24 5 128 Reg.PRA_L_CAP none)

/-- `SWAP_REQUEST` (R268): A write of PRA_Ln_SWAP with REQ requests an exchange of coefficient sets with a shadow slot. -/
def execSwapRequest (m : Master) (n : Fin 128) (v : RegWord) (s : State) : Host.Outcome State Fault Refusal :=
  ok (s.masterWrite m (Reg.PRA_L_SWAP n) (withBit v 8 true))

/-- `LOAD_CLR` (R276): A write of PRA_LOAD.CLR clears MAX. -/
def execLoadClr (m : Master) (s : State) : Host.Outcome State Fault Refusal :=
  ok (s.masterWrite m Reg.PRA_LOAD (withBit 0 31 true))

/-- `ADC_CONVERSION` (R272): A sequence entry's conversion completes, is trimmed and is stored with its VALID flag. -/
def execAdcConversion (a : Fin 4) (e : Fin 40) (raw : BitVec 12) (s : State) : Host.Outcome State Fault Refusal :=
  ok (s.adcConversion a e raw.toNat)

/-- `SEQ_SEL` (R274): SEQ_SEL, or a write of NEXT, selects a sequence bank, which is checked and switched at the next frame start. -/
def execSeqSel (src : Src) (s : State) : Host.Outcome State Fault Refusal :=
  ok (s.bankSelect src)

end Sys2Proof.Machine
end

