-- ==== Sys2Proof/Machine/RowMonitor.lean ====
section
/-! DEFINITION. Meanings of the commands on Vesper, the counters, the management path, the finisher and the sensors (R210, R380 to R409). -/

namespace Sys2Proof.Machine

/-- `VESPER_SCAN_COMPLETE` (R386): At a power-on DAWN, VSP has read every slot, set SECONDS, BOOT and NEXT, and raised record 0x0001. -/
def execVesperScanComplete (s : State) : Host.Outcome State Fault Refusal :=
  ok s.vspScan

/-- `VSP_RAISE_GO` (R388): A write of VSP_RAISE_CODE.GO raises a record from the writer's banked code and parameters into the DRAM ring.
-/
def execVspRaiseGo (m : Master) (v : RegWord) (s : State) : Host.Outcome State Fault Refusal :=
  ok (s.masterWrite m Reg.VSP_RAISE_CODE (withBit v 31 true))

/-- `VESPER_NVM_WRITE_COMPLETE` (R387): Both copies of a Vesper record are written to NVM. -/
def execVesperNvmWriteComplete (r : NvmResult) (s : State) : Host.Outcome State Fault Refusal :=
  ok (s.vspNvm r)

/-- `VSP_READ_GO` (R390): A write of VSP_READ_IDX.GO starts a read of both copies of a slot. -/
def execVspReadGo (m : Master) (v : RegWord) (s : State) : Host.Outcome State Fault Refusal :=
  ok (s.masterWrite m Reg.VSP_READ_IDX (withBit v 31 true))

/-- `VSP_READ_COMPLETE` (R390): The slot read completes and the valid copy, or VALID 0, is returned. -/
def execVspReadComplete (s : State) : Host.Outcome State Fault Refusal :=
  ok s.vspReadDone

/-- `OPERATING_SECOND` (R386): Each whole second outside NIGHT increments VSP_SECONDS. -/
def execOperatingSecond (s : State) : Host.Outcome State Fault Refusal :=
  ok s.operatingSecond

/-- `COUNTER_WRAP` (R393): A 48-bit counter wraps and sets its sticky wrap bit, making source 36 pending if SAMPLE_EN = 1. -/
def execCounterWrap (c : Fin 64) (s : State) : Host.Outcome State Fault Refusal :=
  ok (s.counterWrap c)

/-- `CLR_ALL` (R398): A write of PMC_CTRL.CLR_ALL sets all counters and wrap bits to 0. -/
def execClrAll (m : Master) (v : RegWord) (s : State) : Host.Outcome State Fault Refusal :=
  ok (s.masterWrite m Reg.PMC_CTRL (withBit v 2 true))

/-- `PMC_DUMP` (R396): Every PERIOD_US a dump record is captured in one tick and written to the ring, or skipped with DUMP_LATE. -/
def execPmcDump (r : DumpResult) (s : State) : Host.Outcome State Fault Refusal :=
  ok (s.pmcDump r)

/-- `BW_WINDOW_CLOSE` (R395): Every port closes its bandwidth window together and PMC_BWp is updated. -/
def execBwWindowClose (moved : Vector Nat 25) (s : State) : Host.Outcome State Fault Refusal :=
  ok (s.bwClose moved)

/-- `ALIVE_TOGGLE` (R380): Every 500 µs ALIVE toggles unless unmasked fault status or a halted core holds it. -/
def execAliveToggle (s : State) : Host.Outcome State Fault Refusal :=
  ok s.aliveToggle

/-- `SMBUS_PROCESS_CALL` (R381): A Block Write–Block Read Process Call returns an MGT or always-on register, or a byte count of 0 with
SMB_ERR. -/
def execSmbusProcessCall (addr : BitVec 7) (off : BitVec 22) (pec : Option Bool) (s : State) : Host.Outcome State Fault Refusal :=
  ok (s.smbusCall addr.toNat off.toNat pec)

/-- `UART_RX_BYTE` (R382): A received UART byte goes to MGT_UART_DATA for N11. -/
def execUartRxByte (b : Byte) (s : State) : Host.Outcome State Fault Refusal :=
  ok (s.uartByte b)

/-- `UART_READ_LINE` (R382): The hardware responder answers an 'r' line with the register value, or '?'. -/
def execUartReadLine (line : List Byte) (s : State) : Host.Outcome State Fault Refusal :=
  ok (s.uartLine line)

/-- `PMBUS_POLL` (R383): In each 1 ms slot the PMBus host reads one rail's regulator, clearing VALID with PMB_ERR on failure. -/
def execPmbusPoll (r : Fin 32) (answer : Option Regulator) (s : State) : Host.Outcome State Fault Refusal :=
  ok (s.pmbusPoll r answer)

/-- `MIRROR_UPDATE` (R384): Every 1 ms, MGT copies the mirror words and compares regulator reports, setting MISMATCH after two
disagreeing polls. -/
def execMirrorUpdate (s : State) : Host.Outcome State Fault Refusal :=
  ok s.mirrorUpdate

/-- `FIN_FRAME_SENT` (R409): The last bit of a finisher frame is sent and the frame leaves the transmit queue. -/
def execFinFrameSent (s : State) : Host.Outcome State Fault Refusal :=
  ok s.finSent

/-- `FIN_REL_PULSE_END` (R409): The 1 ms FIN_REL and FIN_SPOIL pulse ends. -/
def execFinRelPulseEnd (s : State) : Host.Outcome State Fault Refusal :=
  ok s.finPulseEnd

/-- `PURGE_AT_COL` (R54): Meridian reaches the Col of a cut sheet that was aborted before its Col, and PSQ starts driving the purge
output PURGEk for PULSE_MS. -/
def execPurgeAtCol (t : Fin 64) (s : State) : Host.Outcome State Fault Refusal :=
  ok (s.purgeAtCol t)

/-- `SHEET_SENSOR_EDGE` (R210): An edge on a sheet sensor input SS00–SS63 updates the sensor's filtered level and its last-edge time
stamp. -/
def execSheetSensorEdge (n : Fin 64) (up : Bool) (s : State) : Host.Outcome State Fault Refusal :=
  ok (s.sensorEdge n up)

/-- `QUADRATURE_ENCODER_EDGE` (R210): An edge on phase A or B of a quadrature encoder QE00–QE15 changes the encoder's signed count. -/
def execQuadratureEncoderEdge (n : Fin 16) (up : Bool) (s : State) : Host.Outcome State Fault Refusal :=
  ok (s.encoderEdge n up)

/-- `LSI_INPUTS_HIGH` (R175): An interlock input LSI_N0 or LSI_N1 returns high, which starts the unbroken-high time that a re-arm
requires to be at least 1 ms. -/
def execLsiInputsHigh (in1 : Bool) (s : State) : Host.Outcome State Fault Refusal :=
  ok (s.lsiHigh in1)

/-- `ALWAYS_ON_SUPPLY_LOSS` (R331): The device loses its supplies, so entries above JRN_DURABLE_SEQ, DRAM rings and pending consumable
increments are lost, and the device returns to no power. -/
def execAlwaysOnSupplyLoss (s : State) : Host.Outcome State Fault Refusal :=
  ok s.powerLoss

end Sys2Proof.Machine
end

