-- ==== Sys2Proof/Machine/RowMotor.lean ====
section
/-! DEFINITION. Meanings of the commands on the BLDC and stepper channels (R225 to R253). -/

namespace Sys2Proof.Machine

/-- `BLD_START` (R233): START moves a COAST channel into DETECT, or is refused without a claim. -/
def execBldStart (src : Src) (s : State) : Host.Outcome State Fault Refusal :=
  ok (s.command src 22 1 24 Reg.BLD_C_CTRL (some 0))

/-- `BLD_COAST` (R233): COAST turns all of a channel's outputs off and enters COAST. -/
def execBldCoast (src : Src) (s : State) : Host.Outcome State Fault Refusal :=
  ok (s.command src 22 2 24 Reg.BLD_C_CTRL (some 1))

/-- `BLD_DUTY` (R238): DUTY sets the channel's duty unless DUTY_SRC = 1. -/
def execBldDuty (src : Src) (s : State) : Host.Outcome State Fault Refusal :=
  ok (s.command src 22 3 24 Reg.BLD_C_DUTY none)

/-- `BEMF_CROSSING` (R230): A back-EMF sample of the floating phase shows the watched level and time-stamps a crossing. -/
def execBemfCrossing (n : Fin 24) (phase : Fin 3) (up : Bool) (s : State) : Host.Outcome State Fault Refusal :=
  ok (s.bldCrossing n phase up)

/-- `COMMUTATION` (R230): At the crossing plus the advance-adjusted delay, or from a prediction, the channel commutates to the next
sector. -/
def execCommutation (n : Fin 24) (s : State) : Host.Outcome State Fault Refusal :=
  ok (s.bldCommutate n)

/-- `SYNC_LOST` (R232): Too many predicted sectors or no crossing in time: outputs off, COAST, SYNC_LOST. -/
def execSyncLost (n : Fin 24) (s : State) : Host.Outcome State Fault Refusal :=
  ok (s.bldSyncLost n)

/-- `DETECT_QUIET` (R233): No crossing for QUIET_MS in DETECT, so the channel enters ALIGN. -/
def execDetectQuiet (n : Fin 24) (s : State) : Host.Outcome State Fault Refusal :=
  ok (s.bldQuiet n)

/-- `DETECT_TIMEOUT` (R233): Crossings are still seen at TIMEOUT_MS, so the channel coasts with START_FAIL 0x01. -/
def execDetectTimeout (n : Fin 24) (s : State) : Host.Outcome State Fault Refusal :=
  ok (s.bldTimeout n)

/-- `ALIGN_ELAPSED` (R233): ALIGN.MS elapses and the channel enters RAMP with blind commutation. -/
def execAlignElapsed (n : Fin 24) (s : State) : Host.Outcome State Fault Refusal :=
  ok (s.bldAligned n)

/-- `RAMP_FAIL` (R233): The ramp reaches twice the handover speed without a handover, so the channel coasts with START_FAIL 0x02. -/
def execRampFail (n : Fin 24) (s : State) : Host.Outcome State Fault Refusal :=
  ok (s.bldRampFail n)

/-- `BLD_DRIVER_FAULT` (R233): BLnn_FLT_N is low for more than 1 µs: COAST with DRV_FAULT. -/
def execBldDriverFault (n : Fin 24) (low : Bool) (s : State) : Host.Outcome State Fault Refusal :=
  ok (s.bldFltInput n low)

/-- `STP_GOTO` (R251): GOTO moves the channel to an absolute target, or is refused while MOVING or for invalid parameters. -/
def execStpGoto (src : Src) (s : State) : Host.Outcome State Fault Refusal :=
  ok (s.command src 23 1 48 Reg.STP_C_CTRL (some 0))

/-- `STP_MOVE` (R251): MOVE moves the channel by a signed distance from XACT. -/
def execStpMove (s : State) : Host.Outcome State Fault Refusal :=
  ok (s.emitted 23 2)

/-- `STP_STOP` (R253): STOP ends stepping at once, holds the position and sets POS_LOST if the channel was moving. -/
def execStpStop (src : Src) (s : State) : Host.Outcome State Fault Refusal :=
  ok (s.command src 23 3 48 Reg.STP_C_CTRL (some 1))

/-- `STP_GOTO_PRESET` (R251): GOTO_PRESET moves the channel to preset p. -/
def execStpGotoPreset (s : State) : Host.Outcome State Fault Refusal :=
  ok (s.emitted 23 4)

/-- `PROFILE_UPDATE` (R250): Every 1 µs the profile speed is recomputed, switching phase, braking and microstep resolution. -/
def execProfileUpdate (n : Fin 48) (s : State) : Host.Outcome State Fault Refusal :=
  ok (s.stpProfile n)

/-- `MOVE_COMPLETE` (R250): The target is reached and the channel holds it in IDLE, with CNT_MOVES counting the move. -/
def execMoveComplete (n : Fin 48) (s : State) : Host.Outcome State Fault Refusal :=
  ok (s.stpComplete n)

/-- `STP_DRIVER_FAULT` (R253): STnn_FLT_N is low for more than 1 µs: outputs low, FREE, POS_LOST. -/
def execStpDriverFault (n : Fin 48) (low : Bool) (s : State) : Host.Outcome State Fault Refusal :=
  ok (s.stpFltInput n low)

/-- `XACT_WRITE` (R247): A write of STP_Cn_XACT sets the position at rest, or is refused with BUSY_REF during a move. -/
def execXactWrite (m : Master) (n : Fin 48) (v : RegWord) (s : State) : Host.Outcome State Fault Refusal :=
  ok (s.masterWrite m (Reg.STP_C_XACT n) v)

/-- `CLR_LOST` (R253): A write of STP_Cn_CTRL.CLR_LOST clears POS_LOST. -/
def execClrLost (m : Master) (n : Fin 48) (v : RegWord) (s : State) : Host.Outcome State Fault Refusal :=
  ok (s.masterWrite m (Reg.STP_C_CTRL n) (withBit v 5 true))

/-- `CHOP_THRESHOLD` (R245): The winding current crosses its chopper threshold and the winding switches between drive and decay. -/
def execChopThreshold (n : Fin 48) (w : Fin 2) (sense : Nat) (above : Bool) (s : State) : Host.Outcome State Fault Refusal :=
  ok (s.stpChop n w sense above)

/-- `OFS_ADAPT` (R246): After 16 chopper cycles the adaptive offset steps towards the majority side. -/
def execOfsAdapt (n : Fin 48) (w : Fin 2) (s : State) : Host.Outcome State Fault Refusal :=
  ok (s.stpAdapt n w)

end Sys2Proof.Machine
end

