-- ==== Sys2Proof/Machine/RowPage.lean ====
section
/-! DEFINITION. Meanings of the commands on pages, admission, sheets, the Col and the Gap (R42 to R72, R86, R90, R115, R117). -/

namespace Sys2Proof.Machine

/-- `PAGE_ENTRY_SUBMIT` (R42): N0 sets VALID of a FREE page entry, which moves it to SUBMITTED with REASON cleared. -/
def execPageEntrySubmit (m : Master) (n : Fin 256) (v : RegWord) (s : State) : Host.Outcome State Fault Refusal :=
  ok (s.masterWrite m (Reg.PSQ_PG_ADDR_HI n) (withBit v 31 true))

/-- `PAGE_ENTRY_FREE` (R42): N0 clears VALID of a PRINTED, SUSPECT or WITHDRAWN page entry, which returns it to FREE. -/
def execPageEntryFree (m : Master) (n : Fin 256) (v : RegWord) (s : State) : Host.Outcome State Fault Refusal :=
  ok (s.masterWrite m (Reg.PSQ_PG_ADDR_HI n) (withBit v 31 false))

/-- `ADMISSION_TEST_GO` (R86): A write of STR_PLN_ADMIT_GO with GO starts the admission test of a SUBMITTED page, or is ignored. -/
def execAdmissionTestGo (m : Master) (n : Fin 256) (s : State) : Host.Outcome State Fault Refusal :=
  ok (s.masterWrite m Reg.STR_PLN_ADMIT_GO (BitVec.ofNat 32 (n + 256)))

/-- `ADMISSION_TEST_COMPLETE` (R86): The admission test ends at its first failing step or passes, leaving the page SUBMITTED, WITHDRAWN
or ADMITTED and starting the morning check. -/
def execAdmissionTestComplete (s : State) : Host.Outcome State Fault Refusal :=
  ok s.admitComplete

/-- `MORNING_CHECK_COMPLETE` (R90): The morning check reads every slot without a mismatch, so the page becomes VERIFIED or its
CHECK.DONE sets. -/
def execMorningCheckComplete (n : Fin 256) (s : State) : Host.Outcome State Fault Refusal :=
  ok (s.checkComplete n)

/-- `MORNING_CHECK_MISMATCH` (R90): The check path finds a CRC, count, pointer or malformed-slot mismatch or a failed Plain read,
withdraws the page and queues the mismatch. -/
def execMorningCheckMismatch (n : Fin 256) (s : State) : Host.Outcome State Fault Refusal :=
  ok (s.turn rankCheck fun s => s.checkMismatch n)

/-- `SHEET_BIND` (R45): N1 sets VALID of a sheet entry, which binds the page and assigns the next sequence number, or fails with REASON
0x15. -/
def execSheetBind (m : Master) (t : Fin 64) (v : RegWord) (s : State) : Host.Outcome State Fault Refusal :=
  ok (s.masterWrite m (Reg.PSQ_SH_CTRL t) (withBit v 31 true))

/-- `SHEET_FREE` (R46): N1 clears VALID of a sheet entry in BOUND or DONE, which frees the tag and returns a bound page. -/
def execSheetFree (m : Master) (t : Fin 64) (v : RegWord) (s : State) : Host.Outcome State Fault Refusal :=
  ok (s.masterWrite m (Reg.PSQ_SH_CTRL t) (withBit v 31 false))

/-- `COMMIT_GRANT` (R51): At the first tick before the Col at which all commit preconditions hold, the sheet commits, held commands are
released and COMMIT events are sent. -/
def execCommitGrant (t : Fin 64) (s : State) : Host.Outcome State Fault Refusal :=
  ok (s.turn rankGrant fun s => s.commitAct t)

/-- `COL_ABORT` (R51): Meridian reaches the Col of an uncommitted LAUNCHED sheet, which aborts with AUTO_ABORT and is handled under R53.
-/
def execColAbort (t : Fin 64) (s : State) : Host.Outcome State Fault Refusal :=
  ok (s.colAct t)

/-- `PURGE_PULSE_END` (R46): The purge pulse of an aborted cut sheet ends and the sheet becomes DONE. -/
def execPurgePulseEnd (t : Fin 64) (s : State) : Host.Outcome State Fault Refusal :=
  ok (s.purgeEnd t)

/-- `WEB_FRAME_END` (R69): On a web, COL plus END_OFS passes for an aborted frame, which becomes DONE. -/
def execWebFrameEnd (t : Fin 64) (s : State) : Host.Outcome State Fault Refusal :=
  ok (s.webEnd t)

/-- `SPOIL_DECISION_POINT` (R64): At COL plus EXIT_OFS for a sheet in SPOIL, PSQ drives the spoil output and discards the release
command. -/
def execSpoilDecisionPoint (t : Fin 64) (s : State) : Host.Outcome State Fault Refusal :=
  ok (s.spoilPoint t)

/-- `SPOIL_PULSE_END` (R46): The spoil diverter pulse ends and the spoiled sheet becomes DONE. -/
def execSpoilPulseEnd (t : Fin 64) (s : State) : Host.Outcome State Fault Refusal :=
  ok (s.spoilEnd t)

/-- `DRIVE_LOST` (R66): At the first tick after a paper-path motor loses drive, committed sheets spoil, launched sheets abort and
DRIVE_LOST sets. -/
def execDriveLost (s : State) : Host.Outcome State Fault Refusal :=
  ok s.driveGone

/-- `GAP_OPENING` (R72): A Gap opens in NOON or DUSK and the hardware applies the pending claim, divider, table and mask, calibration,
swap and firmware-bank changes in order. -/
def execGapOpening (s : State) : Host.Outcome State Fault Refusal :=
  ok s.gapOpening

/-- `GAP_CLOSE` (R58): The Gap closes at an exposure window start, and calibration exposures still lit are cut and counted. -/
def execGapClose (s : State) : Host.Outcome State Fault Refusal :=
  ok s.gapClosing

/-- `STATION_DECODER_MISMATCH` (R115): A station decoder's check of a tile fails, which withdraws the page, spoils the sheet or marks
the page suspect according to the sheet's state. -/
def execStationDecoderMismatch (k : Fin 8) (j : Fin 8) (s : State) : Host.Outcome State Fault Refusal :=
  ok (s.turn rankDecoder fun s => s.decoderCheck k j)

/-- `CDC_MM_POP` (R117): A write of CDC_MM_POP removes the head entry of the mismatch queue. -/
def execCdcMmPop (m : Master) (s : State) : Host.Outcome State Fault Refusal :=
  ok (s.masterWrite m Reg.CDC_MM_POP 1)

end Sys2Proof.Machine
end

