-- ==== Sys2Proof/Machine/RowPlain.lean ====
section
/-! DEFINITION. Meanings of the commands on the page store and the compressor lanes (R79 to R81, R98, R109 to R112). -/

namespace Sys2Proof.Machine

/-- `PLAIN_FLUSH` (R81): A write of STR_PLN_CTRL.FLUSH writes back every DIRTY frame and then issues Flush to each namespace. -/
def execPlainFlush (m : Master) (v : RegWord) (s : State) : Host.Outcome State Fault Refusal :=
  ok (s.masterWrite m Reg.STR_PLN_CTRL (withBit v 4 true))

/-- `EXTENT_LOAD_COMPLETE` (R79): An NVMe load of an extent into a frame completes, making it RESIDENT, or fails and leaves it NVME_ONLY
with NVME_ERR set. -/
def execExtentLoadComplete (e : BitVec 21) (good : Bool) (s : State) : Host.Outcome State Fault Refusal :=
  ok ((s.extentLoaded e.toNat good).retryIn)

/-- `WRITEBACK_COMPLETE` (R81): A write-back of a DIRTY frame completes or fails, in which case the frame stays DIRTY and is retried at
the next eviction. -/
def execWritebackComplete (e : BitVec 21) (good : Bool) (s : State) : Host.Outcome State Fault Refusal :=
  ok (s.writtenBack e.toNat good)

/-- `EVICT_RETRY` (R98): Every 1 ms, a holder whose EVICT was answered ABSENT sends the EVICT again. -/
def execEvictRetry (s : State) : Host.Outcome State Fault Refusal :=
  ok s.evictAgain

/-- `LANE_GO` (R109): A write of CDC_Lm_CTRL.GO checks the job and starts the compressor lane, or refuses it with ERR 0x4, or is ignored
while the lane is busy. -/
def execLaneGo (m : Master) (l : Fin 4) (v : RegWord) (s : State) : Host.Outcome State Fault Refusal :=
  ok (s.masterWrite m (Reg.CDC_L_CTRL l) (withBit v 0 true))

/-- `LANE_FLUSH` (R111): A write of FLUSH to a busy lane ends the job early, padding the current row raw and filling the band with FILL
slots. -/
def execLaneFlush (m : Master) (l : Fin 4) (v : RegWord) (lines : Nat) (diffs : List Nat) (s : State) : Host.Outcome State Fault Refusal :=
  ok (s.flushWrite m l v lines diffs)

/-- `LANE_DONE` (R109): The Plain engine accepts every write of a lane job, DONE sets and OVF_INDEX reads the next free index. -/
def execLaneDone (l : Fin 4) (diffs : List Nat) (s : State) : Host.Outcome State Fault Refusal :=
  ok (s.laneDone l diffs)

/-- `LANE_SOURCE_READ_ERROR` (R112): A lane's source read fails and the job halts with ERR 0x2. -/
def execLaneSourceReadError (l : Fin 4) (lines : Nat) (diffs : List Nat) (s : State) : Host.Outcome State Fault Refusal :=
  ok (s.laneSourceError l lines diffs)

/-- `LANE_WRITE_REFUSED` (R112): The Plain engine refuses a lane write and the job halts with ERR 0x3. -/
def execLaneWriteRefused (l : Fin 4) (diffs : List Nat) (s : State) : Host.Outcome State Fault Refusal :=
  ok (s.laneRefused l diffs)

end Sys2Proof.Machine
end

