-- ==== Sys2Proof/Machine/RowPmx.lean ====
section
/-! DEFINITION. Meanings of the commands on claims and shared timers (R35 to R37). -/

namespace Sys2Proof.Machine

/-- `CLAIM_COMMIT` (R35): A write of PMX_CTRL.CLAIM_COMMIT resolves all valid claims at once in DAWN, MORNING and EVENING, or leaves the
commit pending until a Gap. -/
def execClaimCommit (m : Master) (s : State) : Host.Outcome State Fault Refusal :=
  ok (s.masterWrite m Reg.PMX_CTRL 1)

/-- `TIMER_ARM` (R37): Writing ARM = 1 arms a granted shared compare timer and clears HIT; writing 0 disarms it. -/
def execTimerArm (m : Master) (t : Fin 32) (v : RegWord) (s : State) : Host.Outcome State Fault Refusal :=
  ok (s.masterWrite m (Reg.PMX_TMR_CTRL t) v)

/-- `WINDOW_EDGE_CAPTURE` (R37): The first sensor edge of the set polarity inside an armed window is captured into CAP as a corrected
Meridian tick and HIT sets. -/
def execWindowEdgeCapture (t : Fin 32) (s : State) : Host.Outcome State Fault Refusal :=
  ok (s.windowCapture t)

/-- `WINDOW_MISS` (R37): An armed window reaches END without an edge: its MISS bit sets, then the timer disarms or advances by PERIOD.
-/
def execWindowMiss (t : Fin 32) (s : State) : Host.Outcome State Fault Refusal :=
  ok (s.windowEnd t)

/-- `ENCODER_LATCH` (R37): An armed encoder-latch timer reaches START, latches the signed encoder count into CAP, sets HIT and disarms
or advances by PERIOD. -/
def execEncoderLatch (t : Fin 32) (s : State) : Host.Outcome State Fault Refusal :=
  ok (s.encoderLatch t)

end Sys2Proof.Machine
end

