-- ==== Sys2Proof/Machine/RowPower.lean ====
section
/-! DEFINITION. Meanings of the commands on rails, the thermal model, clocks, calibration and consumables (R279 to R321). -/

namespace Sys2Proof.Machine

/-- `UP_SEQUENCE_STEP` (R279): After its delay, an up-sequence step drives its rail's EN high and waits for power-good. -/
def execUpSequenceStep (s : State) : Host.Outcome State Fault Refusal :=
  ok (s.upStep.afterSequence)

/-- `RAIL_POWER_GOOD` (R279): A rail becomes power-good, supervision starts and the sequence advances. -/
def execRailPowerGood (r : Fin 32) (s : State) : Host.Outcome State Fault Refusal :=
  ok ((s.railUp r).afterSequence)

/-- `UP_STEP_TIMEOUT` (R279): A step's rail misses PG_TIMEOUT, so the sequence halts FAILED with SEQ_FAIL. -/
def execUpStepTimeout (s : State) : Host.Outcome State Fault Refusal :=
  ok s.upTimeout

/-- `DOWN_SEQUENCE_BEGIN` (R280): Once no NVM write is in progress, or after 5 ms, the down sequence begins. -/
def execDownSequenceBegin (s : State) : Host.Outcome State Fault Refusal :=
  ok s.downBegin

/-- `DOWN_SEQUENCE_STEP` (R280): A down-sequence step drives EN low and waits DELAY before the next step. -/
def execDownSequenceStep (s : State) : Host.Outcome State Fault Refusal :=
  ok (s.downStep.afterSequence)

/-- `RAIL_COMPARATOR_FAULT` (R282): A window comparator sees its rail outside the window for FILT × 10 ns and the rail's reaction
starts. -/
def execRailComparatorFault (r : Fin 32) (high : Bool) (s : State) : Host.Outcome State Fault Refusal :=
  ok (s.railEvent r fun s => s.comparatorFault r high)

/-- `RAIL_SCAN_FAULT` (R283): SCAN_N consecutive scan readings lie outside the limits and the rail's reaction starts. -/
def execRailScanFault (r : Fin 32) (s : State) : Host.Outcome State Fault Refusal :=
  ok (s.railEvent r fun s => s.scanFault r)

/-- `RETRY_TIMER` (R285): RETRY_MS expires, the rail's EN goes high again and a power-good timeout counts the attempt. -/
def execRetryTimer (r : Fin 32) (s : State) : Host.Outcome State Fault Refusal :=
  ok ((s.retryTimer r).afterSequence)

/-- `PWR_ON` (R288): ON drives the rail's EN high and clears its OFF_FAULT bit. -/
def execPwrOn (src : Src) (s : State) : Host.Outcome State Fault Refusal :=
  ok (s.command src 3 1 32 Reg.PWR_R_CMD (some 0))

/-- `PWR_OFF` (R288): OFF drives the rail's EN low. -/
def execPwrOff (src : Src) (s : State) : Host.Outcome State Fault Refusal :=
  ok (s.command src 3 2 32 Reg.PWR_R_CMD (some 1))

/-- `SNAP_REARM` (R287): A write of PWR_CTRL.SNAP_REARM rearms the supervisor snapshot. -/
def execSnapRearm (m : Master) (v : RegWord) (s : State) : Host.Outcome State Fault Refusal :=
  ok (s.masterWrite m Reg.PWR_CTRL (withBit v 1 true))

/-- `MODEL_UPDATE` (R290): Every 100 µs the thermal model updates zone temperatures and evaluates the throttle, dusk, night and NVM
window conditions. -/
def execModelUpdate (temp power : Vector (BitVec 16) 16) (pkg k : BitVec 16) (s : State) : Host.Outcome State Fault Refusal :=
  ok (s.modelStep temp power pkg k)

/-- `HOLD_UP_END` (R298): The 5 ms hold-up ends, the HOLD rails go down and the PLL stops. -/
def execHoldUpEnd (s : State) : Host.Outcome State Fault Refusal :=
  ok s.holdUpDue

/-- `DIODE_CALIBRATION` (R292): A write of THM_CTRL.CAL in DAWN, or the first PLL lock, starts a 2 ms diode calibration. -/
def execDiodeCalibration (m : Master) (v : RegWord) (s : State) : Host.Outcome State Fault Refusal :=
  ok (s.masterWrite m Reg.THM_CTRL (withBit v 1 true))

/-- `DIODE_CALIBRATION_COMPLETE` (R292): The diode read ends, the zones and Tboard are set and CAL_DONE sets, or CAL_ERR sets if the
diodes disagree. -/
def execDiodeCalibrationComplete (d0 d1 : BitVec 16) (s : State) : Host.Outcome State Fault Refusal :=
  ok ((s.calibrated d0 d1).releaseN11)

/-- `PLL_LOCK` (R299): The main PLL locks after its band search, and Meridian and the Prairie frames start. -/
def execPllLock (band time : Nat) (retry : Bool) (s : State) : Host.Outcome State Fault Refusal :=
  ok (s.pllLock band time retry)

/-- `PLL_LOSS` (R300): Loss of lock or reference gates the PLL, holds outputs off and triggers the fixed RESET reaction of source 32. -/
def execPllLoss (ref : Bool) (s : State) : Host.Outcome State Fault Refusal :=
  ok (s.pllLoss ref)

/-- `DIV_COMMIT` (R302): A write of CLK_CTRL.DIV_COMMIT applies the clock-output shadows together, at once or at the next Gap. -/
def execDivCommit (m : Master) (s : State) : Host.Outcome State Fault Refusal :=
  ok (s.masterWrite m Reg.CLK_CTRL 1)

/-- `CAL_APPLICATION` (R309): Every 10 ms in DAWN and MORNING, or at a Gap, CAL evaluates the live bank and writes each interpolated
field. -/
def execCalApplication (s : State) : Host.Outcome State Fault Refusal :=
  ok s.calTick

/-- `CAL_CHECK_GO` (R314): A write of CAL_CHECK_CTRL.GO compares A with B and installs the value in the non-live bank, or rejects it
with record 0x0501. -/
def execCalCheckGo (m : Master) (v : RegWord) (s : State) : Host.Outcome State Fault Refusal :=
  ok (s.masterWrite m Reg.CAL_CHECK_CTRL (withBit v 0 true))

/-- `CSM_AUTH` (R318): A write of CSM_Uu_CTRL.AUTH writes a challenge to the unit's chip and starts authentication. -/
def execCsmAuth (m : Master) (u : Fin 16) (v : RegWord) (s : State) : Host.Outcome State Fault Refusal :=
  ok (s.masterWrite m (Reg.CSM_U_CTRL u) (withBit v 0 true))

/-- `AUTH_RESPONSE` (R318): After CSM_AUTH_WAIT, the response is read and the MAC checked, giving AUTH_OK with the count loaded, or
AUTH_FAIL. -/
def execAuthResponse (u : Fin 16) (r : ChipReply) (s : State) : Host.Outcome State Fault Refusal :=
  ok (s.authReply u r)

/-- `CSM_INC` (R321): A write of INC, or a page leaving PRINTING, adds a pending increment to each serving AUTH_OK unit. -/
def execCsmInc (m : Master) (u : Fin 16) (v : RegWord) (s : State) : Host.Outcome State Fault Refusal :=
  ok (s.masterWrite m (Reg.CSM_U_CTRL u) (withBit v 1 true))

/-- `CELL_WRITE_COMPLETE` (R321): A counter-cell write completes while the NVM window is open and COUNT rises. -/
def execCellWriteComplete (u : Fin 16) (r : NvmResult) (s : State) : Host.Outcome State Fault Refusal :=
  ok (s.cellWritten u r)

end Sys2Proof.Machine
end

