-- ==== Sys2Proof/Machine/RowStream.lean ====
section
/-! DEFINITION. Meanings of the commands on the streamer, Vale memory and DMA (R121 to R145). -/

namespace Sys2Proof.Machine

/-- `STR_DISABLE` (R144): Clearing STR_CTRL.EN withdraws every entry of every station. -/
def execStrDisable (m : Master) (s : State) : Host.Outcome State Fault Refusal :=
  ok (s.masterWrite m Reg.STR_CTRL 0)

/-- `STREAMER_ARM` (R121): Setting STR_Sk_CTRL.EN arms the station's streamer if its area banks are granted, or refuses with BUF_ERR. -/
def execStreamerArm (m : Master) (k : Fin 8) (v : RegWord) (s : State) : Host.Outcome State Fault Refusal :=
  ok (s.masterWrite m (Reg.STR_S_CTRL k) (withBit v 0 true))

/-- `STREAMER_DISARM` (R121): Clearing STR_Sk_CTRL.EN disarms the station and withdraws every entry. -/
def execStreamerDisarm (m : Master) (k : Fin 8) (v : RegWord) (s : State) : Host.Outcome State Fault Refusal :=
  ok (s.masterWrite m (Reg.STR_S_CTRL k) (withBit v 0 false))

/-- `WITHDRAW` (R130): A write of STR_Sk_CTRL.WITHDRAW withdraws every queued entry of the station. -/
def execWithdraw (m : Master) (k : Fin 8) (v : RegWord) (s : State) : Host.Outcome State Fault Refusal :=
  ok (s.masterWrite m (Reg.STR_S_CTRL k) (withBit v 1 true))

/-- `STR_Q_PUSH` (R122): A write of STR_Sk_Q_PUSH with PUSH queues a stream entry, or refuses it with QUEUE_ERR. -/
def execStrQPush (m : Master) (k : Fin 8) (v : RegWord) (s : State) : Host.Outcome State Fault Refusal :=
  ok (s.masterWrite m (Reg.STR_S_Q_PUSH k) (withBit v 31 true))

/-- `PREFETCH_START` (R123): The head entry starts fetching band 0 once its prefetch time has come and both halves are EMPTY. -/
def execPrefetchStart (k : Fin 8) (s : State) : Host.Outcome State Fault Refusal :=
  ok (s.prefetch k)

/-- `BAND_FILL_START` (R123): A band or end-padding fill starts into a half that has become EMPTY, if CDC_CTRL.EN allows it. -/
def execBandFillStart (k : Fin 8) (s : State) : Host.Outcome State Fault Refusal :=
  ok (s.bandFill k)

/-- `BURST_ISSUE` (R124): The streamer issues a 4 KiB burst, no more often than every 2,268 ticks and with fewer than 8 in flight and
room in the ring. -/
def execBurstIssue (k : Fin 8) (drained : Nat) (s : State) : Host.Outcome State Fault Refusal :=
  ok (s.burstIssue k drained)

/-- `BURST_LAND` (R123): A burst returns and its slots are decoded or indexed in pass 1, or its raw tiles are placed and checked in pass
2. -/
def execBurstLand (k : Fin 8) (drained : Nat) (s : State) : Host.Outcome State Fault Refusal :=
  ok (s.burstLand k drained)

/-- `BAND_FILL_COMPLETE` (R125): The last line write of a band is accepted and the half becomes FILLED, or EMPTY if it was already
released. -/
def execBandFillComplete (k : Fin 8) (s : State) : Host.Outcome State Fault Refusal :=
  ok (s.fillComplete k)

/-- `VALE_CONF_CLR` (R145): A write of VALE_CTRL.CONF_CLR clears every VALE_CONFLICTm counter. -/
def execValeConfClr (m : Master) (s : State) : Host.Outcome State Fault Refusal :=
  ok (s.masterWrite m Reg.VALE_CTRL 1)

/-- `DMA_COPY` (R139): GO with MODE 0 checks the channel and starts a copy of 4 KiB blocks, or refuses it with an ERR code. -/
def execDmaCopy (m : Master) (n : Fin 16) (v : RegWord) (s : State) : Host.Outcome State Fault Refusal :=
  ok (s.dmaStart m n v 0)

/-- `DMA_FILL` (R139): GO with MODE 1 starts a fill of the destination with the 64-bit pattern. -/
def execDmaFill (m : Master) (n : Fin 16) (v : RegWord) (s : State) : Host.Outcome State Fault Refusal :=
  ok (s.dmaStart m n v 1)

/-- `DMA_COMPARE` (R139): GO with MODE 2 starts a compare of source and destination that reports MISMATCH, MM_OFS and MM_COUNT. -/
def execDmaCompare (m : Master) (n : Fin 16) (v : RegWord) (s : State) : Host.Outcome State Fault Refusal :=
  ok (s.dmaStart m n v 2)

/-- `DMA_FENCE` (R141): GO with MODE 3 reads the destination block and completes once earlier writes through the port are visible. -/
def execDmaFence (m : Master) (n : Fin 16) (v : RegWord) (s : State) : Host.Outcome State Fault Refusal :=
  ok (s.dmaStart m n v 3)

/-- `DMA_STOP` (R143): A write of STOP halts the channel after its current block and sets STOPPED. -/
def execDmaStop (m : Master) (n : Fin 16) (v : RegWord) (block : Nat) (s : State) : Host.Outcome State Fault Refusal :=
  ok (s.stopWrite m n v block)

/-- `DMA_DONE` (R141): The channel's last write leaves the engine and DONE sets. -/
def execDmaDone (n : Fin 16) (s : State) : Host.Outcome State Fault Refusal :=
  ok (s.dmaDone n)

/-- `DMA_BUS_ERROR` (R142): A bus error or an ABSENT answer halts the channel with ERR, ERR_DIR and the failing address latched. -/
def execDmaBusError (n : Fin 16) (ofs : Nat) (write : Bool) (absent : Bool) (s : State) : Host.Outcome State Fault Refusal :=
  ok (s.dmaError n ofs write absent)

end Sys2Proof.Machine
end

