-- ==== Sys2Proof/Machine/RowSys.lean ====
section
/-! DEFINITION. Meanings of the commands on power, resets, wake-ups, states, cores, registers and time (R17 to R39, R194, R298, R410 to
R413, R420). -/

namespace Sys2Proof.Machine

/-- `AO_POWER_GOOD` (R33): The always-on supply reaches its power-good level, the always-on domain leaves reset and the device is in
NIGHT. -/
def execAoPowerGood (s : State) : Host.Outcome State Fault Refusal :=
  ok s.aoGood

/-- `POWER_ON_RESET` (R410): PORST_N is taken low and then released, giving a power-on reset that samples the straps and sets
SYS_RESET_CAUSE.POR. -/
def execPowerOnReset (s : State) : Host.Outcome State Fault Refusal :=
  ok s.porst

/-- `JTAG_RESET` (R299): A reset through the test access port gives a system reset into DAWN, and the PLL locks again with the rails
left up. -/
def execJtagReset (s : State) : Host.Outcome State Fault Refusal :=
  ok (s.systemReset 4)

/-- `WAKE_N_PHRASE` (R411): A wake phrase on WAKE_N completes and matches within 20 ms, and the device wakes from NIGHT or EVENING as
R413 gives. -/
def execWakeNPhrase (phrase : BitVec 32) (s : State) : Host.Outcome State Fault Refusal :=
  ok (s.wakePhrase phrase.toNat)

/-- `UART_WAKE_LINE` (R412): A 'w' line carrying the phrase completes on UART_RX within 20 ms and acts as an accepted wake phrase. -/
def execUartWakeLine (phrase : BitVec 32) (s : State) : Host.Outcome State Fault Refusal :=
  ok (s.wakePhrase phrase.toNat)

/-- `REQUEST_MORNING` (R33): A write to SYS_STATE_REQ requests MORNING from DAWN; the hardware checks the conditions in table order and
either moves or refuses. -/
def execRequestMorning (m : Master) (s : State) : Host.Outcome State Fault Refusal :=
  ok (s.requestState m stMorning)

/-- `REQUEST_EVENING` (R33): A request for EVENING from MORNING puts DRAM into self-refresh, coasts the motors, gates the core tree and
takes the EVE_OFF rails down, or is refused. -/
def execRequestEvening (m : Master) (s : State) : Host.Outcome State Fault Refusal :=
  ok (s.requestState m stEvening)

/-- `REQUEST_NIGHT` (R33): A request for NIGHT from DAWN or MORNING reverses the EN sequence, or is refused. -/
def execRequestNight (m : Master) (s : State) : Host.Outcome State Fault Refusal :=
  ok (s.requestState m stNight)

/-- `REQUEST_DUSK` (R33): A request for DUSK from NOON stops new commits. -/
def execRequestDusk (m : Master) (s : State) : Host.Outcome State Fault Refusal :=
  ok (s.requestState m stDusk)

/-- `REQUEST_NOON` (R33): A request for NOON from DUSK resumes commits if the dusk cause is clear and a sheet is in flight, or is
refused. -/
def execRequestNoon (m : Master) (s : State) : Host.Outcome State Fault Refusal :=
  ok (s.requestState m stNoon)

/-- `NOON_TO_MORNING` (R33): At the first tick with no sheet in flight and no page bound, the device moves from NOON to MORNING and
applies pending Gap-time changes. -/
def execNoonToMorning (s : State) : Host.Outcome State Fault Refusal :=
  ok s.noonEnds

/-- `DUSK_TO_MORNING` (R33): At the first tick with no sheet in flight, the device moves from DUSK to MORNING; bound pages stay bound
and pending Gap-time changes are applied. -/
def execDuskToMorning (s : State) : Host.Outcome State Fault Refusal :=
  ok s.duskEnds

/-- `HOST_DOORBELL_WAKE` (R33): A host doorbell in EVENING wakes the device into a resume DAWN. -/
def execHostDoorbellWake (n : Fin 64) (v : RegWord) (s : State) : Host.Outcome State Fault Refusal :=
  ok (s.doorbellWake n v)

/-- `SYSRST` (R38): A write of SYS_RESET with SYSRST = 1 and KEY = 0xA5 takes a system reset into DAWN with the rails left up. -/
def execSysrst (m : Master) (s : State) : Host.Outcome State Fault Refusal :=
  ok (s.masterWrite m Reg.SYS_RESET 0xA501)

/-- `CORE_RELEASE` (R194): Setting a bit of SYS_CORE_RUN releases the core from reset at pc 0 in kernel mode. -/
def execCoreRelease (m : Master) (n : Fin 12) (s : State) : Host.Outcome State Fault Refusal :=
  ok (s.runBit m n true)

/-- `CORE_STOP` (R194): Clearing a bit of SYS_CORE_RUN stops the core at once and closes its region, fencing a station core's station.
-/
def execCoreStop (m : Master) (n : Fin 12) (s : State) : Host.Outcome State Fault Refusal :=
  ok (s.runBit m n false)

/-- `BOOT_MAP_CLEAR` (R38): A write of 0 to SYS_BOOT_MAP.ROM takes effect at N11's next taken jump, after which N11 fetches from its
instruction RAM. -/
def execBootMapClear (m : Master) (s : State) : Host.Outcome State Fault Refusal :=
  ok (s.masterWrite m Reg.SYS_BOOT_MAP 0)

/-- `SYS_DOORBELL` (R24): A write to SYS_DOORBELL raises the doorbell interrupt of each core whose bit is written as 1. -/
def execSysDoorbell (m : Master) (v : RegWord) (s : State) : Host.Outcome State Fault Refusal :=
  ok (s.masterWrite m Reg.SYS_DOORBELL v)

/-- `STATUS_W1C` (R377): A W1C write to a block status register clears the bits written as 1, re-sets persisting causes and releases
FIRST once every source bit reads 0. -/
def execStatusW1c (m : Master) (st : Nat) (v : RegWord) (s : State) : Host.Outcome State Fault Refusal :=
  ok (s.statusWrite m st v)

/-- `REGISTER_WRITE` (R11): A write to a control register that has no behaviour of its own sets its fields under the access rules,
ownership rule and posting order. -/
def execRegisterWrite (m : Master) (off : BitVec 22) (size : Nat) (v : Word) (s : State) : Host.Outcome State Fault Refusal :=
  ok (s.busStore m off.toNat size v)

/-- `TIM_NOW_LO_READ` (R30): A read of TIM_NOW_LO returns Meridian [31:0] and latches [63:32] into the reading master's shadow. -/
def execTimNowLoRead (m : Master) (s : State) : Host.Outcome State Fault Refusal :=
  ok ((s.masterRead m Reg.TIM_NOW_LO).1)

/-- `TIM_SLEW_WRITE` (R39): A write to TIM_SLEW starts, replaces or ends a slew, and a write with MODE 3 is ignored. -/
def execTimSlewWrite (m : Master) (v : RegWord) (s : State) : Host.Outcome State Fault Refusal :=
  ok (s.masterWrite m Reg.TIM_SLEW v)

/-- `SLEW_TICK` (R28): Every 1,024 ticks during a slew, Meridian drops or adds one tick and COUNT falls, with MODE returning to 0 at 0.
-/
def execSlewTick (s : State) : Host.Outcome State Fault Refusal :=
  ok s.slewedTick

/-- `TIM_STEP` (R28): A write of TIM_STEP_HI applies the forward step in DAWN, or is refused with STEP_REFUSED elsewhere. -/
def execTimStep (m : Master) (v : RegWord) (s : State) : Host.Outcome State Fault Refusal :=
  ok (s.masterWrite m Reg.TIM_STEP_HI v)

/-- `ALARM_ARM` (R420): Setting ALARM_EN, or writing an alarm half while it is set, arms the alarm against the 64-bit alarm time. -/
def execAlarmArm (m : Master) (r : AlarmReg) (v : RegWord) (s : State) : Host.Outcome State Fault Refusal :=
  ok (s.alarmWrite m r v)

/-- `ALARM_FIRE` (R420): Meridian reaches the armed alarm time: ALARM sets, the device wakes from EVENING and the alarm disarms. -/
def execAlarmFire (s : State) : Host.Outcome State Fault Refusal :=
  ok s.alarmFire

end Sys2Proof.Machine
end

