-- ==== Sys2Proof/Machine/Dispatch.lean ====
section
/-! DEFINITION. The dispatch: each command goes to its meaning. -/

namespace Sys2Proof.Machine

/-- The effect of command `i` on everything but the queue. -/
def exec (i : Instr) (s : State) : Host.Outcome State Fault Refusal :=
  match i with
  | .aoPowerGood => Sys2Proof.Machine.execAoPowerGood s
  | .powerOnReset => Sys2Proof.Machine.execPowerOnReset s
  | .jtagReset => Sys2Proof.Machine.execJtagReset s
  | .wakeNPhrase phrase => Sys2Proof.Machine.execWakeNPhrase phrase s
  | .uartWakeLine phrase => Sys2Proof.Machine.execUartWakeLine phrase s
  | .requestMorning m => Sys2Proof.Machine.execRequestMorning m s
  | .requestEvening m => Sys2Proof.Machine.execRequestEvening m s
  | .requestNight m => Sys2Proof.Machine.execRequestNight m s
  | .requestDusk m => Sys2Proof.Machine.execRequestDusk m s
  | .requestNoon m => Sys2Proof.Machine.execRequestNoon m s
  | .noonToMorning => Sys2Proof.Machine.execNoonToMorning s
  | .duskToMorning => Sys2Proof.Machine.execDuskToMorning s
  | .hostDoorbellWake n v => Sys2Proof.Machine.execHostDoorbellWake n v s
  | .sysrst m => Sys2Proof.Machine.execSysrst m s
  | .coreRelease m n => Sys2Proof.Machine.execCoreRelease m n s
  | .coreStop m n => Sys2Proof.Machine.execCoreStop m n s
  | .bootMapClear m => Sys2Proof.Machine.execBootMapClear m s
  | .sysDoorbell m v => Sys2Proof.Machine.execSysDoorbell m v s
  | .statusW1c m st v => Sys2Proof.Machine.execStatusW1c m st v s
  | .registerWrite m off size v => Sys2Proof.Machine.execRegisterWrite m off size v s
  | .timNowLoRead m => Sys2Proof.Machine.execTimNowLoRead m s
  | .timSlewWrite m v => Sys2Proof.Machine.execTimSlewWrite m v s
  | .slewTick => Sys2Proof.Machine.execSlewTick s
  | .timStep m v => Sys2Proof.Machine.execTimStep m v s
  | .alarmArm m r v => Sys2Proof.Machine.execAlarmArm m r v s
  | .alarmFire => Sys2Proof.Machine.execAlarmFire s
  | .claimCommit m => Sys2Proof.Machine.execClaimCommit m s
  | .timerArm m t v => Sys2Proof.Machine.execTimerArm m t v s
  | .windowEdgeCapture t => Sys2Proof.Machine.execWindowEdgeCapture t s
  | .windowMiss t => Sys2Proof.Machine.execWindowMiss t s
  | .encoderLatch t => Sys2Proof.Machine.execEncoderLatch t s
  | .pageEntrySubmit m n v => Sys2Proof.Machine.execPageEntrySubmit m n v s
  | .pageEntryFree m n v => Sys2Proof.Machine.execPageEntryFree m n v s
  | .admissionTestGo m n => Sys2Proof.Machine.execAdmissionTestGo m n s
  | .admissionTestComplete => Sys2Proof.Machine.execAdmissionTestComplete s
  | .morningCheckComplete n => Sys2Proof.Machine.execMorningCheckComplete n s
  | .morningCheckMismatch n => Sys2Proof.Machine.execMorningCheckMismatch n s
  | .sheetBind m t v => Sys2Proof.Machine.execSheetBind m t v s
  | .sheetFree m t v => Sys2Proof.Machine.execSheetFree m t v s
  | .commitGrant t => Sys2Proof.Machine.execCommitGrant t s
  | .colAbort t => Sys2Proof.Machine.execColAbort t s
  | .purgePulseEnd t => Sys2Proof.Machine.execPurgePulseEnd t s
  | .webFrameEnd t => Sys2Proof.Machine.execWebFrameEnd t s
  | .spoilDecisionPoint t => Sys2Proof.Machine.execSpoilDecisionPoint t s
  | .spoilPulseEnd t => Sys2Proof.Machine.execSpoilPulseEnd t s
  | .driveLost => Sys2Proof.Machine.execDriveLost s
  | .gapOpening => Sys2Proof.Machine.execGapOpening s
  | .gapClose => Sys2Proof.Machine.execGapClose s
  | .stationDecoderMismatch k j => Sys2Proof.Machine.execStationDecoderMismatch k j s
  | .cdcMmPop m => Sys2Proof.Machine.execCdcMmPop m s
  | .plainFlush m v => Sys2Proof.Machine.execPlainFlush m v s
  | .extentLoadComplete e good => Sys2Proof.Machine.execExtentLoadComplete e good s
  | .writebackComplete e good => Sys2Proof.Machine.execWritebackComplete e good s
  | .evictRetry => Sys2Proof.Machine.execEvictRetry s
  | .laneGo m l v => Sys2Proof.Machine.execLaneGo m l v s
  | .laneFlush m l v lines diffs => Sys2Proof.Machine.execLaneFlush m l v lines diffs s
  | .laneDone l diffs => Sys2Proof.Machine.execLaneDone l diffs s
  | .laneSourceReadError l lines diffs => Sys2Proof.Machine.execLaneSourceReadError l lines diffs s
  | .laneWriteRefused l diffs => Sys2Proof.Machine.execLaneWriteRefused l diffs s
  | .strDisable m => Sys2Proof.Machine.execStrDisable m s
  | .streamerArm m k v => Sys2Proof.Machine.execStreamerArm m k v s
  | .streamerDisarm m k v => Sys2Proof.Machine.execStreamerDisarm m k v s
  | .withdraw m k v => Sys2Proof.Machine.execWithdraw m k v s
  | .strQPush m k v => Sys2Proof.Machine.execStrQPush m k v s
  | .prefetchStart k => Sys2Proof.Machine.execPrefetchStart k s
  | .bandFillStart k => Sys2Proof.Machine.execBandFillStart k s
  | .burstIssue k drained => Sys2Proof.Machine.execBurstIssue k drained s
  | .burstLand k drained => Sys2Proof.Machine.execBurstLand k drained s
  | .bandFillComplete k => Sys2Proof.Machine.execBandFillComplete k s
  | .valeConfClr m => Sys2Proof.Machine.execValeConfClr m s
  | .dmaCopy m n v => Sys2Proof.Machine.execDmaCopy m n v s
  | .dmaFill m n v => Sys2Proof.Machine.execDmaFill m n v s
  | .dmaCompare m n v => Sys2Proof.Machine.execDmaCompare m n v s
  | .dmaFence m n v => Sys2Proof.Machine.execDmaFence m n v s
  | .dmaStop m n v block => Sys2Proof.Machine.execDmaStop m n v block s
  | .dmaDone n => Sys2Proof.Machine.execDmaDone n s
  | .dmaBusError n ofs write absent => Sys2Proof.Machine.execDmaBusError n ofs write absent s
  | .sosWindowOpen k => Sys2Proof.Machine.execSosWindowOpen k s
  | .sosCapture k tap => Sys2Proof.Machine.execSosCapture k tap s
  | .sosMiss k => Sys2Proof.Machine.execSosMiss k s
  | .lineEnd k => Sys2Proof.Machine.execLineEnd k s
  | .eosCapture k tap => Sys2Proof.Machine.execEosCapture k tap s
  | .eosMiss k => Sys2Proof.Machine.execEosMiss k s
  | .dllUnlock k => Sys2Proof.Machine.execDllUnlock k s
  | .dllLock k => Sys2Proof.Machine.execDllLock k s
  | .facetIdxSet m k v => Sys2Proof.Machine.execFacetIdxSet m k v s
  | .expose k => Sys2Proof.Machine.execExpose k s
  | .calStart k => Sys2Proof.Machine.execCalStart k s
  | .calStop k => Sys2Proof.Machine.execCalStop k s
  | .lsiActivate in1 => Sys2Proof.Machine.execLsiActivate in1 s
  | .lsiDisagree => Sys2Proof.Machine.execLsiDisagree s
  | .lsiRearm m v => Sys2Proof.Machine.execLsiRearm m v s
  | .testCfgWrite m k v => Sys2Proof.Machine.execTestCfgWrite m k v s
  | .beamTest k => Sys2Proof.Machine.execBeamTest k s
  | .beamTestPass k tap => Sys2Proof.Machine.execBeamTestPass k tap s
  | .beamTestMiss k => Sys2Proof.Machine.execBeamTestMiss k s
  | .powerMeasureGo m k v => Sys2Proof.Machine.execPowerMeasureGo m k v s
  | .powerFacetIntegrate k v => Sys2Proof.Machine.execPowerFacetIntegrate k v s
  | .powerMeasureDone k => Sys2Proof.Machine.execPowerMeasureDone k s
  | .add n rd ra rb => Sys2Proof.Machine.execAdd n rd ra rb s
  | .sub n rd ra rb => Sys2Proof.Machine.execSub n rd ra rb s
  | .and n rd ra rb => Sys2Proof.Machine.execAnd n rd ra rb s
  | .or n rd ra rb => Sys2Proof.Machine.execOr n rd ra rb s
  | .xor n rd ra rb => Sys2Proof.Machine.execXor n rd ra rb s
  | .sll n rd ra rb => Sys2Proof.Machine.execSll n rd ra rb s
  | .srl n rd ra rb => Sys2Proof.Machine.execSrl n rd ra rb s
  | .sra n rd ra rb => Sys2Proof.Machine.execSra n rd ra rb s
  | .slt n rd ra rb => Sys2Proof.Machine.execSlt n rd ra rb s
  | .sltu n rd ra rb => Sys2Proof.Machine.execSltu n rd ra rb s
  | .mul n rd ra rb => Sys2Proof.Machine.execMul n rd ra rb s
  | .mulh n rd ra rb => Sys2Proof.Machine.execMulh n rd ra rb s
  | .mulhu n rd ra rb => Sys2Proof.Machine.execMulhu n rd ra rb s
  | .div n rd ra rb => Sys2Proof.Machine.execDiv n rd ra rb s
  | .divu n rd ra rb => Sys2Proof.Machine.execDivu n rd ra rb s
  | .rem n rd ra rb => Sys2Proof.Machine.execRem n rd ra rb s
  | .remu n rd ra rb => Sys2Proof.Machine.execRemu n rd ra rb s
  | .min n rd ra rb => Sys2Proof.Machine.execMin n rd ra rb s
  | .max n rd ra rb => Sys2Proof.Machine.execMax n rd ra rb s
  | .minu n rd ra rb => Sys2Proof.Machine.execMinu n rd ra rb s
  | .maxu n rd ra rb => Sys2Proof.Machine.execMaxu n rd ra rb s
  | .addi n rd ra imm => Sys2Proof.Machine.execAddi n rd ra imm s
  | .andi n rd ra imm => Sys2Proof.Machine.execAndi n rd ra imm s
  | .ori n rd ra imm => Sys2Proof.Machine.execOri n rd ra imm s
  | .xori n rd ra imm => Sys2Proof.Machine.execXori n rd ra imm s
  | .slti n rd ra imm => Sys2Proof.Machine.execSlti n rd ra imm s
  | .sltiu n rd ra imm => Sys2Proof.Machine.execSltiu n rd ra imm s
  | .slli n rd ra sh => Sys2Proof.Machine.execSlli n rd ra sh s
  | .srli n rd ra sh => Sys2Proof.Machine.execSrli n rd ra sh s
  | .srai n rd ra sh => Sys2Proof.Machine.execSrai n rd ra sh s
  | .lui n rd imm => Sys2Proof.Machine.execLui n rd imm s
  | .shori n rd ra imm => Sys2Proof.Machine.execShori n rd ra imm s
  | .lb n rd ra imm => Sys2Proof.Machine.execLb n rd ra imm s
  | .lbu n rd ra imm => Sys2Proof.Machine.execLbu n rd ra imm s
  | .lh n rd ra imm => Sys2Proof.Machine.execLh n rd ra imm s
  | .lhu n rd ra imm => Sys2Proof.Machine.execLhu n rd ra imm s
  | .lw n rd ra imm => Sys2Proof.Machine.execLw n rd ra imm s
  | .lwu n rd ra imm => Sys2Proof.Machine.execLwu n rd ra imm s
  | .ld n rd ra imm => Sys2Proof.Machine.execLd n rd ra imm s
  | .sb n rs ra imm => Sys2Proof.Machine.execSb n rs ra imm s
  | .sh n rs ra imm => Sys2Proof.Machine.execSh n rs ra imm s
  | .sw n rs ra imm => Sys2Proof.Machine.execSw n rs ra imm s
  | .sd n rs ra imm => Sys2Proof.Machine.execSd n rs ra imm s
  | .amoadd n rd ra rb => Sys2Proof.Machine.execAmoadd n rd ra rb s
  | .amoswap n rd ra rb => Sys2Proof.Machine.execAmoswap n rd ra rb s
  | .amocas n rd ra rb => Sys2Proof.Machine.execAmocas n rd ra rb s
  | .fence n => Sys2Proof.Machine.execFence n s
  | .beq n ra rb off => Sys2Proof.Machine.execBeq n ra rb off s
  | .bne n ra rb off => Sys2Proof.Machine.execBne n ra rb off s
  | .blt n ra rb off => Sys2Proof.Machine.execBlt n ra rb off s
  | .bge n ra rb off => Sys2Proof.Machine.execBge n ra rb off s
  | .bltu n ra rb off => Sys2Proof.Machine.execBltu n ra rb off s
  | .bgeu n ra rb off => Sys2Proof.Machine.execBgeu n ra rb off s
  | .j n off => Sys2Proof.Machine.execJ n off s
  | .call n off => Sys2Proof.Machine.execCall n off s
  | .jalr n rd ra imm => Sys2Proof.Machine.execJalr n rd ra imm s
  | .rdtime n rd => Sys2Proof.Machine.execRdtime n rd s
  | .rdpmc n rd c => Sys2Proof.Machine.execRdpmc n rd c s
  | .syscall n code => Sys2Proof.Machine.execSyscall n code s
  | .brk n => Sys2Proof.Machine.execBrk n s
  | .eret n => Sys2Proof.Machine.execEret n s
  | .wfi n => Sys2Proof.Machine.execWfi n s
  | .mfcr n rd num => Sys2Proof.Machine.execMfcr n rd num s
  | .mtcr n ra num => Sys2Proof.Machine.execMtcr n ra num s
  | .shevPop n => Sys2Proof.Machine.execShevPop n s
  | .shevClrLost n => Sys2Proof.Machine.execShevClrLost n s
  | .waitt n rd ra => Sys2Proof.Machine.execWaitt n rd ra s
  | .waittResume n => Sys2Proof.Machine.execWaittResume n s
  | .emit n irrev rd ra rb => Sys2Proof.Machine.execEmit n irrev rd ra rb s
  | .emitStallRelease n => Sys2Proof.Machine.execEmitStallRelease n s
  | .sample n rd ra rb => Sys2Proof.Machine.execSample n rd ra rb s
  | .sampleCapture n => Sys2Proof.Machine.execSampleCapture n s
  | .spec n rd ra => Sys2Proof.Machine.execSpec n rd ra s
  | .specJ n rd ra => Sys2Proof.Machine.execSpecJ n rd ra s
  | .specL n rd => Sys2Proof.Machine.execSpecL n rd s
  | .commit n rd ra => Sys2Proof.Machine.execCommit n rd ra s
  | .abort n rd ra => Sys2Proof.Machine.execAbort n rd ra s
  | .interruptEntry n => Sys2Proof.Machine.execInterruptEntry n s
  | .coreTimerExpiry n => Sys2Proof.Machine.execCoreTimerExpiry n s
  | .release => Sys2Proof.Machine.execRelease s
  | .event => Sys2Proof.Machine.execEvent s
  | .bldStart src => Sys2Proof.Machine.execBldStart src s
  | .bldCoast src => Sys2Proof.Machine.execBldCoast src s
  | .bldDuty src => Sys2Proof.Machine.execBldDuty src s
  | .bemfCrossing n phase up => Sys2Proof.Machine.execBemfCrossing n phase up s
  | .commutation n => Sys2Proof.Machine.execCommutation n s
  | .syncLost n => Sys2Proof.Machine.execSyncLost n s
  | .detectQuiet n => Sys2Proof.Machine.execDetectQuiet n s
  | .detectTimeout n => Sys2Proof.Machine.execDetectTimeout n s
  | .alignElapsed n => Sys2Proof.Machine.execAlignElapsed n s
  | .rampFail n => Sys2Proof.Machine.execRampFail n s
  | .bldDriverFault n low => Sys2Proof.Machine.execBldDriverFault n low s
  | .stpGoto src => Sys2Proof.Machine.execStpGoto src s
  | .stpMove => Sys2Proof.Machine.execStpMove s
  | .stpStop src => Sys2Proof.Machine.execStpStop src s
  | .stpGotoPreset => Sys2Proof.Machine.execStpGotoPreset s
  | .profileUpdate n => Sys2Proof.Machine.execProfileUpdate n s
  | .moveComplete n => Sys2Proof.Machine.execMoveComplete n s
  | .stpDriverFault n low => Sys2Proof.Machine.execStpDriverFault n low s
  | .xactWrite m n v => Sys2Proof.Machine.execXactWrite m n v s
  | .clrLost m n v => Sys2Proof.Machine.execClrLost m n v s
  | .chopThreshold n w sense above => Sys2Proof.Machine.execChopThreshold n w sense above s
  | .ofsAdapt n w => Sys2Proof.Machine.execOfsAdapt n w s
  | .frameStart => Sys2Proof.Machine.execFrameStart s
  | .slotSample n => Sys2Proof.Machine.execSlotSample n s
  | .loopComputation => Sys2Proof.Machine.execLoopComputation s
  | .praOn src => Sys2Proof.Machine.execPraOn src s
  | .praOff src => Sys2Proof.Machine.execPraOff src s
  | .praSet src => Sys2Proof.Machine.execPraSet src s
  | .praSync src => Sys2Proof.Machine.execPraSync src s
  | .praCap src => Sys2Proof.Machine.execPraCap src s
  | .swapRequest m n v => Sys2Proof.Machine.execSwapRequest m n v s
  | .loadClr m => Sys2Proof.Machine.execLoadClr m s
  | .adcConversion a e raw => Sys2Proof.Machine.execAdcConversion a e raw s
  | .seqSel src => Sys2Proof.Machine.execSeqSel src s
  | .upSequenceStep => Sys2Proof.Machine.execUpSequenceStep s
  | .railPowerGood r => Sys2Proof.Machine.execRailPowerGood r s
  | .upStepTimeout => Sys2Proof.Machine.execUpStepTimeout s
  | .downSequenceBegin => Sys2Proof.Machine.execDownSequenceBegin s
  | .downSequenceStep => Sys2Proof.Machine.execDownSequenceStep s
  | .railComparatorFault r high => Sys2Proof.Machine.execRailComparatorFault r high s
  | .railScanFault r => Sys2Proof.Machine.execRailScanFault r s
  | .retryTimer r => Sys2Proof.Machine.execRetryTimer r s
  | .pwrOn src => Sys2Proof.Machine.execPwrOn src s
  | .pwrOff src => Sys2Proof.Machine.execPwrOff src s
  | .snapRearm m v => Sys2Proof.Machine.execSnapRearm m v s
  | .modelUpdate temp power pkg k => Sys2Proof.Machine.execModelUpdate temp power pkg k s
  | .holdUpEnd => Sys2Proof.Machine.execHoldUpEnd s
  | .diodeCalibration m v => Sys2Proof.Machine.execDiodeCalibration m v s
  | .diodeCalibrationComplete d0 d1 => Sys2Proof.Machine.execDiodeCalibrationComplete d0 d1 s
  | .pllLock band time retry => Sys2Proof.Machine.execPllLock band time retry s
  | .pllLoss ref => Sys2Proof.Machine.execPllLoss ref s
  | .divCommit m => Sys2Proof.Machine.execDivCommit m s
  | .calApplication => Sys2Proof.Machine.execCalApplication s
  | .calCheckGo m v => Sys2Proof.Machine.execCalCheckGo m v s
  | .csmAuth m u v => Sys2Proof.Machine.execCsmAuth m u v s
  | .authResponse u r => Sys2Proof.Machine.execAuthResponse u r s
  | .csmInc m u v => Sys2Proof.Machine.execCsmInc m u v s
  | .cellWriteComplete u r => Sys2Proof.Machine.execCellWriteComplete u r s
  | .hostLinkUp => Sys2Proof.Machine.execHostLinkUp s
  | .linkDown => Sys2Proof.Machine.execLinkDown s
  | .qpEnable m n v => Sys2Proof.Machine.execQpEnable m n v s
  | .sqDoorbell m n v => Sys2Proof.Machine.execSqDoorbell m n v s
  | .cqDoorbell m n v => Sys2Proof.Machine.execCqDoorbell m n v s
  | .jobOpen n => Sys2Proof.Machine.execJobOpen n s
  | .jobClose n => Sys2Proof.Machine.execJobClose n s
  | .pageSubmit n => Sys2Proof.Machine.execPageSubmit n s
  | .pageBind n => Sys2Proof.Machine.execPageBind n s
  | .commitPolicy n => Sys2Proof.Machine.execCommitPolicy n s
  | .cancel n => Sys2Proof.Machine.execCancel n s
  | .status n => Sys2Proof.Machine.execStatus n s
  | .fwStageWrite n => Sys2Proof.Machine.execFwStageWrite n s
  | .fwStageVerify n => Sys2Proof.Machine.execFwStageVerify n s
  | .fwStageSwitch n => Sys2Proof.Machine.execFwStageSwitch n s
  | .fwStageRestart n => Sys2Proof.Machine.execFwStageRestart n s
  | .journalRead n => Sys2Proof.Machine.execJournalRead n s
  | .journalNvmWriteComplete r => Sys2Proof.Machine.execJournalNvmWriteComplete r s
  | .journalScanComplete => Sys2Proof.Machine.execJournalScanComplete s
  | .mateAckTimeout => Sys2Proof.Machine.execMateAckTimeout s
  | .bootImageLoad boot other image => Sys2Proof.Machine.execBootImageLoad boot other image s
  | .xspCmdGo m v => Sys2Proof.Machine.execXspCmdGo m v s
  | .xspReadComplete => Sys2Proof.Machine.execXspReadComplete s
  | .vesperScanComplete => Sys2Proof.Machine.execVesperScanComplete s
  | .vspRaiseGo m v => Sys2Proof.Machine.execVspRaiseGo m v s
  | .vesperNvmWriteComplete r => Sys2Proof.Machine.execVesperNvmWriteComplete r s
  | .vspReadGo m v => Sys2Proof.Machine.execVspReadGo m v s
  | .vspReadComplete => Sys2Proof.Machine.execVspReadComplete s
  | .operatingSecond => Sys2Proof.Machine.execOperatingSecond s
  | .counterWrap c => Sys2Proof.Machine.execCounterWrap c s
  | .clrAll m v => Sys2Proof.Machine.execClrAll m v s
  | .pmcDump r => Sys2Proof.Machine.execPmcDump r s
  | .bwWindowClose moved => Sys2Proof.Machine.execBwWindowClose moved s
  | .aliveToggle => Sys2Proof.Machine.execAliveToggle s
  | .smbusProcessCall addr off pec => Sys2Proof.Machine.execSmbusProcessCall addr off pec s
  | .uartRxByte b => Sys2Proof.Machine.execUartRxByte b s
  | .uartReadLine line => Sys2Proof.Machine.execUartReadLine line s
  | .pmbusPoll r answer => Sys2Proof.Machine.execPmbusPoll r answer s
  | .mirrorUpdate => Sys2Proof.Machine.execMirrorUpdate s
  | .portBlockLock p lane0 lane1 inv0 inv1 => Sys2Proof.Machine.execPortBlockLock p lane0 lane1 inv0 inv1 s
  | .laneLockTimeout p => Sys2Proof.Machine.execLaneLockTimeout p s
  | .portDown p => Sys2Proof.Machine.execPortDown p s
  | .frameReceive p frame crcOk headers => Sys2Proof.Machine.execFrameReceive p frame crcOk headers s
  | .replayRequest p frame count => Sys2Proof.Machine.execReplayRequest p frame count s
  | .write p f => Sys2Proof.Machine.execWrite p f s
  | .readReq p f => Sys2Proof.Machine.execReadReq p f s
  | .readData p f => Sys2Proof.Machine.execReadData p f s
  | .readErr p f => Sys2Proof.Machine.execReadErr p f s
  | .rdTimeout => Sys2Proof.Machine.execRdTimeout s
  | .sheetEvent p f => Sys2Proof.Machine.execSheetEvent p f s
  | .lateError p f => Sys2Proof.Machine.execLateError p f s
  | .journalAck p f => Sys2Proof.Machine.execJournalAck p f s
  | .sync p src prio sent acc => Sys2Proof.Machine.execSync p src prio sent acc s
  | .syncSend => Sys2Proof.Machine.execSyncSend s
  | .syncTimeout => Sys2Proof.Machine.execSyncTimeout s
  | .delayMeasure => Sys2Proof.Machine.execDelayMeasure s
  | .delayReq p residence => Sys2Proof.Machine.execDelayReq p residence s
  | .delayResp p part residence => Sys2Proof.Machine.execDelayResp p part residence s
  | .snoop p f => Sys2Proof.Machine.execSnoop p f s
  | .data p f => Sys2Proof.Machine.execData p f s
  | .recallMsg p f => Sys2Proof.Machine.execRecall p f s
  | .evict p f => Sys2Proof.Machine.execEvict p f s
  | .pin p f => Sys2Proof.Machine.execPin p f s
  | .unpin p f => Sys2Proof.Machine.execUnpin p f s
  | .retry p f => Sys2Proof.Machine.execRetry p f s
  | .pinned p f => Sys2Proof.Machine.execPinned p f s
  | .uncached p f => Sys2Proof.Machine.execUncached p f s
  | .inEvict p f => Sys2Proof.Machine.execInEvict p f s
  | .notHeld p f => Sys2Proof.Machine.execNotHeld p f s
  | .absent p f => Sys2Proof.Machine.execAbsent p f s
  | .hello p eui verMin verMax held => Sys2Proof.Machine.execHello p eui verMin verMax held s
  | .discover p number root => Sys2Proof.Machine.execDiscover p number root s
  | .assign p number a => Sys2Proof.Machine.execAssign p number a s
  | .route p routes => Sys2Proof.Machine.execRoute p routes s
  | .fabDiscover m v => Sys2Proof.Machine.execFabDiscover m v s
  | .leqPop m => Sys2Proof.Machine.execLeqPop m s
  | .evqPop m => Sys2Proof.Machine.execEvqPop m s
  | .finFrameSent => Sys2Proof.Machine.execFinFrameSent s
  | .finRelPulseEnd => Sys2Proof.Machine.execFinRelPulseEnd s
  | .purgeAtCol t => Sys2Proof.Machine.execPurgeAtCol t s
  | .sheetSensorEdge n up => Sys2Proof.Machine.execSheetSensorEdge n up s
  | .quadratureEncoderEdge n up => Sys2Proof.Machine.execQuadratureEncoderEdge n up s
  | .lsiInputsHigh in1 => Sys2Proof.Machine.execLsiInputsHigh in1 s
  | .alwaysOnSupplyLoss => Sys2Proof.Machine.execAlwaysOnSupplyLoss s
  | .fwStageComplete valid => Sys2Proof.Machine.execFwStageComplete valid s

end Sys2Proof.Machine
end

