-- ==== Sys2Proof/Safety.lean ====
section
/-! DEFINITION. What holds of the device in every step, whatever commands come. -/

namespace Sys2Proof.Machine

/-- The memories and the registers are in canonical form. -/
structure State.Canonical (s : State) : Prop where
  regs : sparseWf regReset s.regs
  mem : Memory.wf s
  nvm : sparseWf nvmErased s.nvm
  nvme : sparseWf zeroByte s.nvme
  hostMem : sparseWf zeroByte s.hostMem

/-- A core holds what the spec allows it: x0 is 0 (R193), the pc and `CORE_EPC` are aligned offsets of its instruction RAM (R193, R216,
R221), `CORE_VBASE` is a multiple of 256 below 0x1_0000 (R221), and its sheet-event queue holds at most 16 entries (R220). -/
structure CoreX.Sound (c : CoreX) : Prop where
  zero : c.x[0] = 0
  pc : c.pc < 0x10000 ∧ c.pc % 4 = 0
  epc : c.epc < 0x10000 ∧ c.epc % 4 = 0
  vbase : c.vbase < 256
  shev : c.shev.length ≤ 16

/-- What no step breaks. -/
structure State.Sound (s : State) : Prop where
  canonical : s.Canonical
  cores : ∀ n : Fin 12, (s.core n).Sound

/-- `t` follows from `s` with the queue as it was, and is sound where `s` is. -/
structure Keeps (s t : State) : Prop where
  pending : t.pending = s.pending
  sound : s.Sound → t.Sound

/-! ## Terms of the statements -/

/-- Command `c` runs in `s` and leaves a state of which `P` holds. -/
def Completes (c : Instr) (s : State) (P : State → Prop) : Prop := ∃ t, exec c s = .next t ∧ P t

/-- Command `c` in `s` leaves `t`; where that holds unmasked fault status in EVENING, the device wakes from it (R33). -/
def Gives (c : Instr) (s t : State) : Prop := exec c s = .next t.settle

/-- Command `c` runs in `s`, and of what it leaves, before any such wake, `P` holds (R33). -/
def Leads (c : Instr) (s : State) (P : State → Prop) : Prop := ∃ t, exec c s = .next t.settle ∧ P t

/-- Between `s` and `t` only the registers at the offsets of `l` have changed. -/
def State.OnlyRegs (s t : State) (l : List Nat) : Prop :=
  t = { s with regs := t.regs } ∧ ∀ off, off ∉ l → t.getReg off = s.getReg off

/-- Master `m` may write the register at `off`, and no earlier write of it to that block is on its way (R17, R20 to R23): a core that runs
and may write the block in its mode, the host in HST, or the test access port. -/
def State.mayWrite (s : State) (m : Master) (off : Nat) : Prop :=
  s.masterLive m = true ∧ match m with
    | .core n => s.ownRefused n off = false ∧ ∀ e ∈ (s.core n).posted, e.1 / 0x10000 ≠ off / 0x10000
    | .host => off / 0x10000 = 27
    | .jtag => True

/-- Core `n` issues its next instruction, which can be fetched, and the one after it lies in its instruction RAM (R193, R196, R216). -/
def State.issues (s : State) (n : Fin 12) : Prop := s.canIssue n = true ∧ s.fetchBad n = false

/-- `t` is `s` after an instruction of core `n` that retires: the pc goes to `pc`, and beside it only register `rd` of the core takes
`v` (x0 stays 0) and the performance counters see the instruction (R193, R392). -/
def State.Retires (s : State) (n : Fin 12) (rd : Fin 32) (v : Word) (pc : Nat) (t : State) : Prop :=
  (∀ r, t.getX n r = if r = rd ∧ r ≠ 0 then v else s.getX n r)
    ∧ t.core n = { s.core n with x := (t.core n).x, pc := pc }
    ∧ (∀ m, m ≠ n → t.core m = s.core m)
    ∧ t = { s with cores := t.cores, pmc := t.pmc }

/-- The memory at local address `l` takes a store's byte at `x`: not the memory of a core that a fuse removes (R3), not a bank of an armed
streamer's area (R133), not the live copy of a station's tables (R165). -/
def State.takesStore (s : State) (l x : Nat) : Bool :=
  !s.fusedCore l && !(decide (placeOf l = .vale) && (s.areaOf (valeBank l)).isSome) && !(decide (placeOf l = .table) && s.liveTable x)

/-- `t` is `s` after core `n` has entered its handler for an exception or an interrupt (R216, R218): the offset `epc`, the cause, the
status and the mode are saved, the core is in kernel mode with interrupts off and `HDL` set, at its vector; its registers, and the
other cores, are as they were. -/
def State.Enters (s : State) (n : Fin 12) (epc code detail : Nat) (int : Bool) (tval : Word) (t : State) : Prop :=
  t.core n = { s.core n with epc := epc, causeCode := code, causeDetail := detail, causeInt := int, tval := tval,
                             savedIe := (s.core n).ie, savedKrn := (s.core n).krn, krn := true, ie := false, hdl := true,
                             pc := (s.core n).vbase * 256 + (if int then 0x80 else 0), wait := .none }
    ∧ (∀ m, m ≠ n → t.core m = s.core m)

end Sys2Proof.Machine
end

