-- ==== Sys2Proof/Certificates/Slice0/Obligations.lean ====
section
/-! DEFINITION. The statements for the provers. -/

open Sys2Proof Sys2Proof.Machine

/-! ## The machine -/

/-- A step takes the command that has waited longest and leaves the others in the queue. -/
def Obligations.StepTakesFrontCommand : Prop :=
  ∀ (c : Instr) (rest : List Instr) (s : State), step { s with pending := c :: rest } = exec c { s with pending := rest }

/-- With no command waiting one clock passes: what is due at the present tick comes first, then the clock counts, and then what advances by
itself does (R27 to R29; that a clock stands for an empty queue is this model's choice, log 5). In a clock Meridian advances by one, by two
where a slew adds a tick, and not at all where it drops one; while the PLL does not run Meridian stands and the clock counts on. A slewed tick
is the one in 1,024 clocks. -/
def Obligations.EmptyQueueTicks : Prop :=
  ∀ s : State,
    let u := (if s.counting then s.runDue else s).alwaysOnDue
    (s.pending = [] → step s = .next s.tick.settle) ∧
    (u.counting = true → s.tick = u.clockTick.tickRest.secondHeld) ∧
    (u.counting = false → s.tick.meridian = u.meridian ∧ s.tick.clock = u.clock + 1) ∧
    s.clockTick.clock = s.clock + 1 ∧
    (s.meridian + 2 < 2 ^ 64 → s.clockTick.meridian =
      if s.rd Reg.TIM_SLEW_MODE ≠ 0 ∧ 1023 ≤ s.slewRun then (if s.rd Reg.TIM_SLEW_MODE = 1 then s.meridian + 2 else s.meridian)
      else s.meridian + 1) ∧
    (s.rd Reg.TIM_SLEW_MODE ≠ 0 → s.clockTick.slewRun = if 1023 ≤ s.slewRun then 0 else s.slewRun + 1)

/-- No command of the table stops the machine, and none touches the queue of waiting commands. -/
def Obligations.EveryCommandCompletes : Prop :=
  ∀ (c : Instr) (s : State), Completes c s fun t => t.pending = s.pending

/-- The reset state is sound. -/
def Obligations.ResetIsSound : Prop := State.reset.Sound

/-- Soundness is an invariant of every step: x0 stays 0, a pc, `CORE_EPC` and `CORE_VBASE` stay aligned and inside the instruction RAM,
no sheet-event queue exceeds 16 entries, and the memories and the registers stay in canonical form (R193, R216, R220, R221). -/
def Obligations.StepKeepsSound : Prop :=
  ∀ s t : State, s.Sound → step s = .next t → t.Sound

/-! ## Novdon: computing -/

/-- The register instructions give their result, advance the pc and leave the rest of the device as it was (R193, R202). -/
def Obligations.RegisterInstructions : Prop :=
  ∀ (s : State) (n : Fin 12) (rd ra rb : Fin 32), s.issues n → (s.core n).pc + 4 < 0x10000 →
    let a := s.getX n ra
    let b := s.getX n rb
    let gives (c : Instr) (v : Word) : Prop := Completes c s (s.Retires n rd v ((s.core n).pc + 4))
    gives (.add n rd ra rb) (a + b) ∧ gives (.sub n rd ra rb) (a - b) ∧ gives (.and n rd ra rb) (a &&& b) ∧
    gives (.or n rd ra rb) (a ||| b) ∧ gives (.xor n rd ra rb) (a ^^^ b) ∧
    gives (.sll n rd ra rb) (a <<< (b.toNat % 64)) ∧ gives (.srl n rd ra rb) (a >>> (b.toNat % 64)) ∧
    gives (.sra n rd ra rb) (a.sshiftRight (b.toNat % 64)) ∧
    gives (.slt n rd ra rb) (if a.toInt < b.toInt then 1 else 0) ∧ gives (.sltu n rd ra rb) (if a.toNat < b.toNat then 1 else 0) ∧
    gives (.mul n rd ra rb) (a * b) ∧ gives (.mulh n rd ra rb) (BitVec.ofInt 64 (a.toInt * b.toInt / 2 ^ 64)) ∧
    gives (.mulhu n rd ra rb) (BitVec.ofNat 64 (a.toNat * b.toNat / 2 ^ 64)) ∧
    gives (.min n rd ra rb) (if a.toInt < b.toInt then a else b) ∧ gives (.max n rd ra rb) (if a.toInt < b.toInt then b else a) ∧
    gives (.minu n rd ra rb) (if a.toNat < b.toNat then a else b) ∧ gives (.maxu n rd ra rb) (if a.toNat < b.toNat then b else a)

/-- Division (R202): by zero the quotient is all ones and the remainder the dividend; the most negative value by −1 gives that value and
remainder 0; else quotient and remainder truncate toward zero, and together give the dividend back. -/
def Obligations.DivisionInstructions : Prop :=
  ∀ (s : State) (n : Fin 12) (rd ra rb : Fin 32), s.issues n → (s.core n).pc + 4 < 0x10000 →
    let a := s.getX n ra
    let b := s.getX n rb
    let gives (c : Instr) (v : Word) : Prop := Completes c s (s.Retires n rd v ((s.core n).pc + 4))
    (b = 0 → gives (.div n rd ra rb) (BitVec.allOnes 64) ∧ gives (.divu n rd ra rb) (BitVec.allOnes 64) ∧
      gives (.rem n rd ra rb) a ∧ gives (.remu n rd ra rb) a) ∧
    (a = BitVec.intMin 64 → b = BitVec.allOnes 64 → gives (.div n rd ra rb) a ∧ gives (.rem n rd ra rb) 0) ∧
    (b ≠ 0 → gives (.divu n rd ra rb) (BitVec.ofNat 64 (a.toNat / b.toNat)) ∧ gives (.remu n rd ra rb) (BitVec.ofNat 64 (a.toNat % b.toNat)) ∧
      ∃ q r : Word, gives (.div n rd ra rb) q ∧ gives (.rem n rd ra rb) r ∧ a = b * q + r ∧ r.toInt.natAbs < b.toInt.natAbs ∧
        (r = 0 ∨ (r.toInt < 0 ↔ a.toInt < 0)))

/-- The immediate instructions (R201, R202). -/
def Obligations.ImmediateInstructions : Prop :=
  ∀ (s : State) (n : Fin 12) (rd ra : Fin 32) (imm : BitVec 16) (sh : BitVec 6), s.issues n → (s.core n).pc + 4 < 0x10000 →
    let a := s.getX n ra
    let sx : Word := BitVec.ofInt 64 imm.toInt
    let zx : Word := BitVec.ofNat 64 imm.toNat
    let gives (c : Instr) (v : Word) : Prop := Completes c s (s.Retires n rd v ((s.core n).pc + 4))
    gives (.addi n rd ra imm) (a + sx) ∧ gives (.andi n rd ra imm) (a &&& zx) ∧ gives (.ori n rd ra imm) (a ||| zx) ∧
    gives (.xori n rd ra imm) (a ^^^ zx) ∧ gives (.slti n rd ra imm) (if a.toInt < imm.toInt then 1 else 0) ∧
    gives (.sltiu n rd ra imm) (if a.toNat < sx.toNat then 1 else 0) ∧ gives (.slli n rd ra sh) (a <<< sh.toNat) ∧
    gives (.srli n rd ra sh) (a >>> sh.toNat) ∧ gives (.srai n rd ra sh) (a.sshiftRight sh.toNat) ∧
    gives (.lui n rd imm) (BitVec.ofInt 64 (imm.toInt * 2 ^ 16)) ∧ gives (.shori n rd ra imm) (BitVec.ofNat 64 (a.toNat * 2 ^ 16 + imm.toNat))

/-- x0 reads 0 and discards writes (R193): no register instruction changes it, and one that names it as destination changes no
register. -/
def Obligations.X0DiscardsWrites : Prop :=
  ∀ (s : State) (n m : Fin 12) (r : Fin 32) (v : Word), (s.setX n 0 v) = s ∧ s.getX n 0 = 0 ∧ (s.setX n r v).getX m 0 = 0

/-! ## Novdon: memory -/

/-- The loads (R197, R202): an access that raises no exception, to a memory of the local bus that answers, reads its bytes little-endian,
extends them, and changes no memory and no other register. -/
def Obligations.Loads : Prop :=
  ∀ (s : State) (n : Fin 12) (rd ra : Fin 32) (imm : BitVec 16), s.issues n → (s.core n).pc + 4 < 0x10000 →
    let a := (s.getX n ra + BitVec.ofInt 64 imm.toInt).toNat
    let l := localAddr n a
    let gives (c : Instr) (len : Nat) (v : Word) : Prop := s.accessFault n .load a len = none → placeOf l ≠ .control → s.absentAt l = false →
      Completes c s fun t => (∀ m r, t.getX m r = if m = n ∧ r = rd ∧ r ≠ 0 then v else s.getX m r) ∧
        (t.core n).pc = (s.core n).pc + 4 ∧ (∀ x, t.readByte x = s.readByte x)
    let sx (len : Nat) : Word := BitVec.ofInt 64 (Int.bmod (s.readLE l len) (2 ^ (8 * len)))
    let zx (len : Nat) : Word := BitVec.ofNat 64 (s.readLE l len)
    gives (.lb n rd ra imm) 1 (sx 1) ∧ gives (.lbu n rd ra imm) 1 (zx 1) ∧ gives (.lh n rd ra imm) 2 (sx 2) ∧
    gives (.lhu n rd ra imm) 2 (zx 2) ∧ gives (.lw n rd ra imm) 4 (sx 4) ∧ gives (.lwu n rd ra imm) 4 (zx 4) ∧
    gives (.ld n rd ra imm) 8 (zx 8)

/-- A load of the control window reads a register of the core's choice as the control bus gives it (R20, R30): with no write of the core
to that block on its way, LW sign-extends and LWU zero-extends the word; any other size is answered with 0 and `DECODE_ERR` (R19). -/
def Obligations.ControlLoads : Prop :=
  ∀ (s : State) (n : Fin 12) (rd ra : Fin 32) (imm : BitVec 16) (off : Nat), s.issues n → (s.core n).pc + 4 < 0x10000 → off < 0x400000 →
    (s.getX n ra + BitVec.ofInt 64 imm.toInt).toNat = 0xF0000000 + off → (∀ e ∈ (s.core n).posted, e.1 / 0x10000 ≠ off / 0x10000) →
    let w := (s.ctrlRead n off).2
    (off % 4 = 0 → Completes (.lw n rd ra imm) s (fun t => t.getX n rd = if rd = 0 then 0 else BitVec.ofInt 64 w.toInt) ∧
      Completes (.lwu n rd ra imm) s (fun t => t.getX n rd = if rd = 0 then 0 else BitVec.ofNat 64 w.toNat)) ∧
    (∀ c ∈ [Instr.lb n rd ra imm, .lbu n rd ra imm, .lh n rd ra imm, .lhu n rd ra imm, .ld n rd ra imm],
      Completes c s fun t => t.getX n rd = 0 ∧ t.rd Reg.SYS_STATUS_DECODE_ERR = 1 ∧ t.rd Reg.SYS_DECODE_INFO_OFFSET = off ∧
        t.rd Reg.SYS_DECODE_INFO_WRITE = 0 ∧ t.rd Reg.SYS_DECODE_INFO_MASTER = n.val)

/-- The stores (R197, R202): an access that raises no exception, to a memory of the local bus that answers, leaves the low bytes of x[rs]
at its address, little-endian, where the memory takes them; every other byte, and every register of the cores, is as before. -/
def Obligations.Stores : Prop :=
  ∀ (s : State) (n : Fin 12) (rs ra : Fin 32) (imm : BitVec 16), s.issues n → (s.core n).pc + 4 < 0x10000 →
    let a := (s.getX n ra + BitVec.ofInt 64 imm.toInt).toNat
    let l := localAddr n a
    let v := (s.getX n rs).toNat
    let leaves (c : Instr) (len : Nat) : Prop := s.accessFault n .store a len = none → placeOf l ≠ .control → s.absentAt l = false →
      Completes c s fun t => (∀ x, t.readByte x = if l ≤ x ∧ x < l + len ∧ s.takesStore l x = true
          then BitVec.ofNat 8 (v / 256 ^ (x - l)) else s.readByte x) ∧
        (∀ m r, t.getX m r = s.getX m r) ∧ (t.core n).pc = (s.core n).pc + 4
    leaves (.sb n rs ra imm) 1 ∧ leaves (.sh n rs ra imm) 2 ∧ leaves (.sw n rs ra imm) 4 ∧ leaves (.sd n rs ra imm) 8

/-- The atomics and FENCE (R198, R200, R202): rd receives the old word; AMOADD stores its sum with x[rb], AMOSWAP stores x[rb], AMOCAS stores
x[rb] only where the old word equals x[rd] as it stood before. No other byte and no other register changes. FENCE has every posted write of the
core take effect in order, and the next instruction issues. -/
def Obligations.Atomics : Prop :=
  (∀ (s : State) (n : Fin 12) (rd ra rb : Fin 32), s.issues n → (s.core n).pc + 4 < 0x10000 →
      let a := (s.getX n ra).toNat
      let l := localAddr n a
      let old : Word := BitVec.ofNat 64 (s.readLE l 8)
      let leaves (c : Instr) (v : Word) : Prop := s.accessFault n .amo a 8 = none → s.absentAt l = false →
        Completes c s fun t => (∀ x, t.readByte x = if l ≤ x ∧ x < l + 8 ∧ s.takesStore l x = true
            then BitVec.ofNat 8 (v.toNat / 256 ^ (x - l)) else s.readByte x) ∧
          (∀ m r, t.getX m r = if m = n ∧ r = rd ∧ r ≠ 0 then old else s.getX m r) ∧ (t.core n).pc = (s.core n).pc + 4
      leaves (.amoadd n rd ra rb) (old + s.getX n rb) ∧ leaves (.amoswap n rd ra rb) (s.getX n rb) ∧
      leaves (.amocas n rd ra rb) (if old = s.getX n rd then s.getX n rb else old)) ∧
  (∀ (s : State) (n : Fin 12), s.issues n →
      ((s.core n).posted = [] → (s.core n).pc + 4 < 0x10000 → Completes (.fence n) s (s.Retires n 0 0 ((s.core n).pc + 4))) ∧
      ((s.drainAll n).coreLive n = true → Gives (.fence n) s ((s.drainAll n).nextPc n)))

/-- The access exceptions (R197 to R199, R216): a load that R198 refuses raises exception 0x04, a store or an AMO 0x05, with the `DETAIL`
of R198 and the address in `CORE_TVAL`; no memory changes. The details: an unmapped address, DRAM in user mode, a misaligned access outside Vale
and the control window, and an AMO outside scratchpad, Vale and DRAM. -/
def Obligations.AccessExceptions : Prop :=
  (∀ (s : State) (n : Fin 12) (rd ra rb : Fin 32) (imm : BitVec 16) (d : Nat), s.issues n → (s.core n).pc < 0x10000 →
      (s.core n).hdl = false →
      let addr := s.getX n ra + BitVec.ofInt 64 imm.toInt
      let raises (c : Instr) (code : Nat) (at_ : Word) : Prop :=
        Completes c s fun t => s.Enters n (s.core n).pc code d false at_ t ∧ ∀ x, t.readByte x = s.readByte x
      (∀ p ∈ [(Instr.lb n rd ra imm, 1), (.lbu n rd ra imm, 1), (.lh n rd ra imm, 2), (.lhu n rd ra imm, 2), (.lw n rd ra imm, 4),
          (.lwu n rd ra imm, 4), (.ld n rd ra imm, 8)], s.accessFault n .load addr.toNat p.2 = some d → raises p.1 4 addr) ∧
      (∀ p ∈ [(Instr.sb n rd ra imm, 1), (.sh n rd ra imm, 2), (.sw n rd ra imm, 4), (.sd n rd ra imm, 8)],
        s.accessFault n .store addr.toNat p.2 = some d → raises p.1 5 addr) ∧
      (∀ c ∈ [Instr.amoadd n rd ra rb, .amoswap n rd ra rb, .amocas n rd ra rb],
        s.accessFault n .amo (s.getX n ra).toNat 8 = some d → raises c 5 (s.getX n ra))) ∧
  (∀ (s : State) (n : Fin 12) (k : Access) (a len : Nat), let p := placeOf (localAddr n a)
      (p = .unmapped → s.accessFault n k a len = some 1) ∧
      (p = .dram → (s.core n).krn = false → s.accessFault n k a len = some 1) ∧
      (p = .dram → (s.core n).krn = true → a % len ≠ 0 → s.accessFault n k a len = some 4) ∧
      (p = .control → k ≠ .amo → s.accessFault n k a len = none) ∧
      (p = .control ∨ p = .table → k = .amo → s.accessFault n k a len = some 8))

/-- The branches (R201, R202): taken, to the pc plus four times the offset; else to the next instruction. A target outside the
instruction RAM raises the fetch exception with `DETAIL` 0x1 (R216). -/
def Obligations.Branches : Prop :=
  ∀ (s : State) (n : Fin 12) (ra rb : Fin 32) (off : BitVec 16), s.issues n → (s.core n).pc + 4 < 0x10000 → (s.core n).pc % 4 = 0 →
    ¬(n = 11 ∧ s.bootClear = true) →
    let a := s.getX n ra
    let b := s.getX n rb
    let target : Int := (s.core n).pc + 4 * off.toInt
    let goes (c : Instr) (taken : Prop) : Prop :=
      (¬taken → Completes c s (s.Retires n 0 0 ((s.core n).pc + 4))) ∧
      (taken → 0 ≤ target → target < 0x10000 → Completes c s (s.Retires n 0 0 target.toNat)) ∧
      (taken → target < 0 ∨ 0x10000 ≤ target → (s.core n).hdl = false →
        Completes c s (s.Enters n (s.core n).pc 3 1 false (BitVec.ofInt 64 target)))
    goes (.beq n ra rb off) (a = b) ∧ goes (.bne n ra rb off) (a ≠ b) ∧ goes (.blt n ra rb off) (a.toInt < b.toInt) ∧
    goes (.bge n ra rb off) (b.toInt ≤ a.toInt) ∧ goes (.bltu n ra rb off) (a.toNat < b.toNat) ∧
    goes (.bgeu n ra rb off) (b.toNat ≤ a.toNat)

/-- The jumps (R201, R202): J and CALL to the pc plus four times the offset, JALR to a register plus an offset; CALL links in x29, JALR in
rd. A JALR to a misaligned offset raises the fetch exception with `DETAIL` 0x4, and a jump past the instruction RAM `DETAIL` 0x1 (R216). -/
def Obligations.Jumps : Prop :=
  ∀ (s : State) (n : Fin 12) (rd ra : Fin 32) (off : BitVec 26) (imm : BitVec 16), s.issues n → (s.core n).pc < 0x10000 →
    (s.core n).pc % 4 = 0 → ¬(n = 11 ∧ s.bootClear = true) →
    let target : Int := (s.core n).pc + 4 * off.toInt
    let link : Word := BitVec.ofNat 64 ((s.core n).pc + 4)
    let there := s.getX n ra + BitVec.ofInt 64 imm.toInt
    (0 ≤ target → target < 0x10000 → Completes (.j n off) s (s.Retires n 0 0 target.toNat) ∧
      Completes (.call n off) s (s.Retires n 29 link target.toNat)) ∧
    (target < 0 ∨ 0x10000 ≤ target → (s.core n).hdl = false → ∀ c ∈ [Instr.j n off, .call n off],
      Completes c s (s.Enters n (s.core n).pc 3 1 false (BitVec.ofInt 64 target))) ∧
    (there.toNat < 0x10000 → there.toNat % 4 = 0 → Completes (.jalr n rd ra imm) s (s.Retires n rd link there.toNat)) ∧
    (there.toNat < 0x10000 → there.toNat % 4 ≠ 0 → (s.core n).hdl = false →
      Completes (.jalr n rd ra imm) s (s.Enters n (s.core n).pc 3 4 false there)) ∧
    (0x10000 ≤ there.toNat → (s.core n).hdl = false → Completes (.jalr n rd ra imm) s (s.Enters n (s.core n).pc 3 1 false there))

/-- RDTIME gives Meridian in either mode; RDPMC gives a counter with its wrap bit in kernel mode, and in user mode where `PMC_PERM` allows
the core, else the privileged-instruction exception (R222). -/
def Obligations.TimeAndCounters : Prop :=
  ∀ (s : State) (n : Fin 12) (rd : Fin 32) (c : Fin 64), s.issues n → (s.core n).pc + 4 < 0x10000 →
    Completes (.rdtime n rd) s (s.Retires n rd (BitVec.ofNat 64 s.meridian) ((s.core n).pc + 4)) ∧
    ((s.core n).krn = true ∨ bitAt (s.rdw Reg.PMC_PERM) n.val = true →
      Completes (.rdpmc n rd c) s
        (s.Retires n rd (BitVec.ofNat 64 (s.pmcCount c + if s.pmcWrapped c = true then 2 ^ 48 else 0)) ((s.core n).pc + 4))) ∧
    ((s.core n).krn = false → bitAt (s.rdw Reg.PMC_PERM) n.val = false → (s.core n).hdl = false →
      Completes (.rdpmc n rd c) s
        (s.Enters n (s.core n).pc 2 0 false (BitVec.ofNat 64 (0x24 * 2 ^ 26 + rd.val * 2 ^ 21 + 1 + 32 * c.val))))

/-- MFCR reads a core register (R221): every listed one in kernel mode, five of them in user mode; another raises the
privileged-instruction exception, and an unlisted number the illegal-instruction exception in either mode. -/
def Obligations.CoreRegisterReads : Prop :=
  ∀ (s : State) (n : Fin 12) (rd : Fin 32) (num : BitVec 12), s.issues n → (s.core n).pc + 4 < 0x10000 →
    let word : Word := BitVec.ofNat 64 (0x25 * 2 ^ 26 + rd.val * 2 ^ 21 + num.toNat)
    let open_ := num = 0x000 ∨ num = 0x00D ∨ num = 0x00E ∨ num = 0x00F ∨ num = 0x010
    (∀ v, s.coreReg n num.toNat = some v → (s.core n).krn = true ∨ open_ →
      Completes (.mfcr n rd num) s (s.Retires n rd (BitVec.ofNat 64 v) ((s.core n).pc + 4))) ∧
    (∀ v, s.coreReg n num.toNat = some v → (s.core n).krn = false → ¬open_ → (s.core n).hdl = false →
      Completes (.mfcr n rd num) s (s.Enters n (s.core n).pc 2 0 false word)) ∧
    (s.coreReg n num.toNat = none → (s.core n).hdl = false →
      Completes (.mfcr n rd num) s (s.Enters n (s.core n).pc 1 0 false word)) ∧
    s.coreReg n 0x000 = some n.val ∧ s.coreReg n 0x004 = some ((s.core n).tval.toNat % 2 ^ 32) ∧
    s.coreReg n 0x006 = some ((s.core n).vbase * 256)

/-- MTCR writes the low half of x[ra] to a core register (R221), in user mode to `CORE_SHEV_POP` alone. `KRN` is read-only; `CORE_EPC`
drops its low bits; `CORE_VBASE` holds eight bits. -/
def Obligations.CoreRegisterWrites : Prop :=
  ∀ (s : State) (n : Fin 12) (ra : Fin 32) (num : BitVec 12), s.issues n → (s.core n).pc + 4 < 0x10000 →
    let v := (s.getX n ra).toNat % 2 ^ 32
    let word : Word := BitVec.ofNat 64 (0x26 * 2 ^ 26 + ra.val * 2 ^ 16 + num.toNat)
    let listed := num.toNat ≤ 0x017 ∧ num.toNat ≠ 0x013
    (listed → (s.core n).krn = true ∨ num = 0x011 → Completes (.mtcr n ra num) s fun t =>
      t.core n = { (s.core n).writeReg num.toNat v with pc := (s.core n).pc + 4 } ∧ (∀ m, m ≠ n → t.core m = s.core m) ∧
        t = { s with cores := t.cores, pmc := t.pmc } ∧
        (num = 0x001 → (t.core n).ie = v.testBit 0 ∧ (t.core n).hdl = v.testBit 4 ∧ (t.core n).krn = (s.core n).krn) ∧
        (num = 0x002 → (t.core n).epc = v % 2 ^ 16 / 4 * 4) ∧ (num = 0x006 → (t.core n).vbase = v / 2 ^ 8 % 2 ^ 8)) ∧
    (listed → (s.core n).krn = false → num ≠ 0x011 → (s.core n).hdl = false →
      Completes (.mtcr n ra num) s (s.Enters n (s.core n).pc 2 0 false word)) ∧
    (¬listed → (s.core n).hdl = false → Completes (.mtcr n ra num) s (s.Enters n (s.core n).pc 1 0 false word))

/-! ## Novdon: exceptions, waiting, interrupts -/

/-- SYSCALL raises exception 0x09 with its code, BREAK 0x0A, each at its own offset; ERET restores the pc and the mode that entry saved, and
in user mode raises the privileged-instruction exception (R202, R216, R218). An exception raised while `HDL` = 1 halts the core, writes its record
at scratchpad offset 0x1_FFE0 and rings the doorbell of N11, or of N10 where N11 itself halts (R219). A word of the instruction RAM that spells no
instruction raises exception 0x01 with the word in `CORE_TVAL` (R201, R216); words are read by the five formats, and one whose opcode or fn is not
listed, or whose zero field is not 0, spells none (R201). The values that R216 leaves open are read as log 48 says. -/
def Obligations.ExceptionsAndReturn : Prop :=
  (∀ (s : State) (n : Fin 12) (code : BitVec 6), s.issues n → (s.core n).pc < 0x10000 →
      ((s.core n).hdl = false → Completes (.syscall n code) s (s.Enters n (s.core n).pc 9 code.toNat false 0) ∧
        Completes (.brk n) s (s.Enters n (s.core n).pc 0xA 0 false 0)) ∧
      ((s.core n).krn = true → Completes (.eret n) s fun t =>
        t.core n = { s.core n with pc := (s.core n).epc, ie := (s.core n).savedIe, krn := (s.core n).savedKrn, hdl := false } ∧
          ∀ m, m ≠ n → t.core m = s.core m) ∧
      ((s.core n).krn = false → (s.core n).hdl = false →
        Completes (.eret n) s (s.Enters n (s.core n).pc 2 0 false (BitVec.ofNat 64 (0x24 * 2 ^ 26 + 4))) ∧
        Completes (.wfi n) s (s.Enters n (s.core n).pc 2 0 false (BitVec.ofNat 64 (0x24 * 2 ^ 26 + 5))))) ∧
  (∀ (s : State) (n : Fin 12), s.issues n → (s.core n).pc < 0x10000 → (s.core n).hdl = true →
      Completes (.brk n) s fun t =>
        (t.core n).halted = true ∧ (t.core (if n = 11 then 10 else 11)).doorbell = true ∧ t.canIssue n = false ∧
          t.readLE (0xE4000000 + n.val * 0x40000 + 0x3FFE0) 4 = causeWord (s.core n).causeCode (s.core n).causeDetail (s.core n).causeInt ∧
          t.readLE (0xE4000000 + n.val * 0x40000 + 0x3FFE4) 4 = (s.core n).epc % 2 ^ 32 ∧
          t.readLE (0xE4000000 + n.val * 0x40000 + 0x3FFF4) 4 = 0x0A) ∧
  (∀ (s : State) (n : Fin 12), s.issues n → (s.core n).pc < 0x10000 → (s.core n).hdl = false →
      s.Enters n (s.core n).pc 1 0 false (BitVec.ofNat 64 (s.readLE (0xE4000000 + n.val * 0x40000 + (s.core n).pc) 4)) (s.illegal n)) ∧
  (∀ (n : Fin 12) (r1 r2 r3 : Fin 32) (imm : BitVec 16) (off : BitVec 26) (w : Nat),
    let fields (op low : Nat) : Nat := op * 2 ^ 26 + r1 * 2 ^ 21 + r2 * 2 ^ 16 + low
    novDecode n (fields 0x00 (r3 * 2 ^ 11)) = some (.add n r1 r2 r3) ∧ novDecode n (fields 0x01 imm.toNat) = some (.addi n r1 r2 imm) ∧
    novDecode n (fields 0x14 imm.toNat) = some (.sd n r1 r2 imm) ∧ novDecode n (fields 0x18 imm.toNat) = some (.beq n r1 r2 imm) ∧
    novDecode n (0x1E * 2 ^ 26 + off.toNat) = some (.j n off) ∧
    (0x2C ≤ bitsOf w 26 6 → novDecode n w = none) ∧ (bitsOf w 26 6 = 0 → 0x14 < bitsOf w 0 11 → novDecode n w = none) ∧
    (bitsOf w 26 6 = 8 → bitsOf w 16 5 ≠ 0 → novDecode n w = none))

/-- The sheet-event queue (R220): it holds 16 entries with tag, sequence number, outcome and `REASON`, which its head shows; POP removes the head
entry; an event that finds it full is lost and sets `LOST`, which `CLR_LOST` clears. -/
def Obligations.SheetEventQueue : Prop :=
  ∀ (s : State) (n : Fin 12), s.issues n → (s.core n).pc + 4 < 0x10000 →
    Completes (.shevPop n) s (fun t => t.core n = { s.core n with shev := (s.core n).shev.tail, pc := (s.core n).pc + 4 } ∧
      ∀ m, m ≠ n → t.core m = s.core m) ∧
    Completes (.shevClrLost n) s (fun t => t.core n = { s.core n with shevLost := false, pc := (s.core n).pc + 4 } ∧
      ∀ m, m ≠ n → t.core m = s.core m) ∧
    (∀ e : ShEv, ((s.core n).shev.length < 16 → (s.shevPush n e).core n = { s.core n with shev := (s.core n).shev ++ [e] }) ∧
      ((s.core n).shev.length = 16 → (s.shevPush n e).core n = { s.core n with shevLost := true }) ∧
      ∀ m, m ≠ n → (s.shevPush n e).core m = s.core m) ∧
    (∀ e rest, (s.core n).shev = e :: rest → (s.core n).shev.length ≤ 16 → e.seq < 2 ^ 32 → s.coreReg n 0x010 = some (e.seq % 2 ^ 32) ∧
      ∃ w, s.coreReg n 0x00F = some w ∧ bitsOf w 0 6 = e.tag % 64 ∧ bitsOf w 6 2 = e.outcome % 4 ∧ bitsOf w 8 8 = e.reason % 256 ∧
        bitAt w 31 = true)

/-- WAITT, SAMPLE and WFI hold the core (R202, R203, R210): the core waits and its pc stays; at its time WAITT gives the lateness and SAMPLE
the value of its input; WFI ends where an enabled source is pending, the core timer among them. That the lateness of WAITT is Meridian less its time where it resumes is how the model reads R203 (log 48). -/
def Obligations.Waits : Prop :=
  (∀ (s : State) (n : Fin 12) (rd ra rb : Fin 32), s.issues n → (s.core n).pc + 4 < 0x10000 →
      let time := (s.getX n ra).toNat
      let sel := (s.getX n rb).toNat
      let waits (c : Instr) (w : Wait) : Prop := Completes c s fun t => t = s.updCore n fun c => { c with wait := w }
      waits (.waitt n rd ra) (.waitt rd time s.meridian) ∧
      (∀ p, sampleInput sel = some p → s.meridian < time → waits (.sample n rd ra rb) (.sample rd time sel)) ∧
      (∀ p, sampleInput sel = some p → time ≤ s.meridian → Completes (.sample n rd ra rb) s fun t =>
        t.getX n rd = (if rd = 0 then 0 else BitVec.ofNat 64 (s.sampleValue p.1 p.2)) ∧ (t.core n).pc = (s.core n).pc + 4) ∧
      (sampleInput sel = none → (s.core n).hdl = false → Completes (.sample n rd ra rb) s
        (s.Enters n (s.core n).pc 7 3 false (s.getX n rb))) ∧
      ((s.core n).krn = true → s.enabledSource n = none → waits (.wfi n) .wfi) ∧
      ((s.core n).krn = true → (s.enabledSource n).isSome → Completes (.wfi n) s (s.Retires n 0 0 ((s.core n).pc + 4)))) ∧
  (∀ (s : State) (n : Fin 12) (rd : Fin 32) (time issued sel : Nat), s.coreLive n = true → (s.core n).pc + 4 < 0x10000 →
      let ends (c : Instr) (rd : Fin 32) (v : Word) : Prop := Completes c s fun t =>
        (t.core n).wait = .none ∧ (t.core n).pc = (s.core n).pc + 4 ∧ ∀ r, t.getX n r = if r = rd ∧ r ≠ 0 then v else s.getX n r
      ((s.core n).wait = .waitt rd time issued → time ≤ s.meridian → issued + 2 ≤ s.meridian →
        ends (.waittResume n) rd (BitVec.ofNat 64 (s.meridian - time))) ∧
      (∀ p, sampleInput sel = some p → (s.core n).wait = .sample rd time sel → time ≤ s.meridian →
        ends (.sampleCapture n) rd (BitVec.ofNat 64 (s.sampleValue p.1 p.2))) ∧
      ((s.core n).wait = .wfi → (s.core n).tcmp ≠ 0 → (s.core n).tcmp ≤ s.meridian → (s.core n).ien.testBit 35 = true →
        ends (.coreTimerExpiry n) 0 0))

/-- An interrupt is taken where `IE` = 1 and `HDL` = 0 and an enabled source is pending (R217, R218): the cause names the source, and
`CORE_EPC` the instruction that has not issued, or the WAITT, the SAMPLE or the stalled EMIT that waits; it is taken in place of the next
instruction. With no source due nothing happens. Where the spec does not say what a command out of its turn does, that it
changes nothing is the model's choice (log 4). That an interrupt leaves `CORE_TVAL` as it was is the model's choice too (log 48). -/
def Obligations.InterruptEntry : Prop :=
  ∀ (s : State) (n : Fin 12), s.coreLive n = true → (s.core n).pc < 0x10000 →
    (∀ i, s.interruptDue n = some i →
      ((s.core n).wait = .none → ∀ c ∈ [Instr.interruptEntry n, .fence n, .brk n, .eret n, .wfi n, .shevPop n],
        Completes c s (s.Enters n (s.core n).pc i 0 true (s.core n).tval)) ∧
      (∀ rd ra rb irrev counted time issued sel, (s.core n).wait = .emit irrev rd ra rb counted ∨
          ((s.core n).wait = .waitt rd time issued ∧ s.meridian < max time (issued + 2)) ∨
          ((s.core n).wait = .sample rd time sel ∧ s.meridian < time) →
        Completes (.interruptEntry n) s (s.Enters n (s.core n).pc i 0 true (s.core n).tval))) ∧
    ((s.core n).ie = false ∨ (s.core n).hdl = true → Completes (.interruptEntry n) s fun t => t = s) ∧
    (∀ i, s.enabledSource n = some i → i ≤ 36 ∧ (s.core n).ien.testBit i = true ∧ s.sourcePending n i = true)

/-! ## Novdon: timed commands and regions -/

/-- The verdict of R205 on a command: one without a tag, and a reversible one, is sent; a tag whose sheet entry has another sequence
number discards it; an irreversible one is refused before the Col, held while its sheet is LAUNCHED, sent where it is COMMITTED, and
discarded in any other state. -/
def Obligations.EmitVerdicts : Prop :=
  ∀ (s : State) (irrev : Bool) (time t q : Nat),
    s.verdict irrev time none = 0 ∧ (s.shSeq t ≠ q → s.verdict irrev time (some (t, q)) = 4) ∧
    (s.shSeq t = q → s.verdict false time (some (t, q)) = 0 ∧
      (time < s.col t → s.sh t = shLaunched ∨ s.sh t = shCommitted → s.verdict true time (some (t, q)) = 3) ∧
      (s.col t ≤ time → s.sh t = shLaunched → s.verdict true time (some (t, q)) = 1) ∧
      (s.col t ≤ time → s.sh t = shCommitted → s.verdict true time (some (t, q)) = 0) ∧
      (s.sh t ≠ shLaunched → s.sh t ≠ shCommitted → s.verdict true time (some (t, q)) = 2))

/-- EMIT (R204 to R207). Outside a region the command joins its block's queue with no tag, and rd receives 0. Inside a region, after the Col
and the commit of its sheet have acted, the verdict v goes to rd: 0 queues the command, 1 holds it, 3 sets `EARLY_IRREV`, and 2 and 4
drop it. A command that joins its queue has the lead of its block from the completion of the EMIT, 6 ticks after it issues (R208). Where there is
no room the core stalls, the first stall on the hold queue sets `HOLD_FULL` and counts (R57), and EMIT_STALL_RELEASE judges the command
again. That a stalled EMIT is judged again is how the model reads R207 (log 48). -/
def Obligations.Emits : Prop :=
  ∀ (s : State) (n : Fin 12) (irrev : Bool) (rd ra rb : Fin 32),
    let c := s.emitCmd n irrev (s.getX n ra).toNat (s.getX n rb).toNat
    let u := (s.acted rankEmit).beforeVerdict c
    let v := u.verdict irrev c.time c.tag
    let done (w : State) : State := ((w.setWait n .none).setX n rd (BitVec.ofNat 64 v)).nextPc n
    let room := u.noRoom c v = false
    let full (counted : Bool) : Prop := u.holdFull = true ∧ counted = false
    let outcome (i : Instr) (ticks : Nat) (counted : Bool) : Prop :=
      (room → v = 0 → Gives i s (done (u.enqueue c (u.meridian + ticks)))) ∧
      (room → v = 1 → Gives i s (done { u with psq := { u.psq with hold := u.psq.hold ++ [c] } })) ∧
      (room → v = 3 → Gives i s (done (u.raise Reg.PSQ_STATUS 3))) ∧
      (v = 2 ∨ v = 4 → Gives i s (done u)) ∧
      (¬room → v = 0 ∨ ¬full counted → Gives i s (u.setWait n (.emit irrev rd ra rb (counted || (v = 1 ∧ u.holdFull))))) ∧
      (v = 1 → full counted →
        Gives i s (((u.raise Reg.PSQ_STATUS 8).inc Reg.PSQ_HOLD_STALLS_COUNT).setWait n (.emit irrev rd ra rb true)))
    s.inTurn rankEmit = true →
    (s.issues n → s.emitFault n (s.getX n rb).toNat = none → outcome (.emit n irrev rd ra rb) 6 false ∧
      ((s.core n).region = none → u = s.acted rankEmit ∧ v = 0 ∧ c.tag = none)) ∧
    (∀ counted, s.coreLive n = true → (s.core n).wait = .emit irrev rd ra rb counted → outcome (.emitStallRelease n) 0 counted)

/-- An EMIT to a block that takes no commands, or with bits [31:24] not 0, raises the timed-operand exception with `DETAIL` 0x1 (R204); a
user-mode EMIT to a block that R206 closes to the core raises it with `DETAIL` 0x2. -/
def Obligations.EmitExceptions : Prop :=
  ∀ (s : State) (n : Fin 12) (irrev : Bool) (rd ra rb : Fin 32), s.issues n → (s.core n).pc < 0x10000 → (s.core n).hdl = false →
    let w := (s.getX n rb).toNat
    let block := w % 256
    let raises (d : Nat) : Prop := Completes (.emit n irrev rd ra rb) s (s.Enters n (s.core n).pc 7 d false (s.getX n rb))
    (block ∉ [3, 10, 13, 14, 15, 16, 17, 18, 19, 20, 22, 23, 24, 25] ∨ w / 2 ^ 24 % 256 ≠ 0 → raises 1) ∧
    (block ∈ [3, 10, 13, 14, 15, 16, 17, 18, 19, 20, 22, 23, 24, 25] → w / 2 ^ 24 % 256 = 0 → (s.core n).krn = false →
      ownsBlock n block = false → (block ∈ [13, 14, 15, 16, 17, 18, 19, 20, 22, 23, 24] → 2 ≤ n.val) → raises 2)

/-- SPEC, SPEC.J and SPEC.L, in the order of the cores within a tick (R211 to R214): a launch whose checks pass takes the sheet to LAUNCHED and opens a region on it, with 0 in rd; one
that fails gives the `REASON`; SPEC.J opens a region on a sheet that is LAUNCHED or COMMITTED; SPEC.L closes the region. -/
def Obligations.RegionInstructions : Prop :=
  ∀ (s : State) (n : Fin 12) (rd ra : Fin 32), s.issues n → (s.core n).region = none → s.inTurn (rankRegion + n.val) = true →
    let t := (s.getX n ra).toNat % 64
    let s' := s.acted (rankRegion + n.val)
    let u := s'.colsAct
    ((s.core n).krn = true ∨ n.val < 2 → u.launchCheck t = 0 → Gives (.spec n rd ra) s
      (((u.wr (Reg.PSQ_SH_STATE_STATE t) 2).enterNoon.openRegion n t false).result n rd 0)) ∧
    ((s.core n).krn = true ∨ n.val < 2 → u.launchCheck t ≠ 0 → Gives (.spec n rd ra) s
      (((u.wr (Reg.PSQ_SH_STATE_REASON t) (u.launchCheck t)).raise Reg.PSQ_STATUS 4).result n rd (u.launchCheck t))) ∧
    ((s'.colAct t).sh t = 2 ∨ (s'.colAct t).sh t = 3 → Gives (.specJ n rd ra) s (((s'.colAct t).openRegion n t true).result n rd 0)) ∧
    (¬((s'.colAct t).sh t = 2 ∨ (s'.colAct t).sh t = 3) → Gives (.specJ n rd ra) s ((s'.colAct t).result n rd 0x15)) ∧
    ((s.core n).pc + 4 < 0x10000 → Completes (.specL n rd) s (s'.Retires n rd 1 ((s.core n).pc + 4)))

/-- With a region open SPEC and SPEC.J raise the speculation-state exception and change nothing else, and SPEC.L closes the region with 0 in
rd (R212). In user mode a core other than N0 and N1 may not SPEC, COMMIT or ABORT. -/
def Obligations.RegionExceptions : Prop :=
  ∀ (s : State) (n : Fin 12) (rd ra : Fin 32), s.issues n → (s.core n).pc + 4 < 0x10000 →
    let tag : Word := BitVec.ofNat 64 ((s.getX n ra).toNat % 64)
    let word (fn : Nat) : Word := BitVec.ofNat 64 (0x2B * 2 ^ 26 + rd.val * 2 ^ 21 + ra.val * 2 ^ 16 + fn)
    ((s.core n).region.isSome → (s.core n).hdl = false →
      ((s.core n).krn = true ∨ n.val < 2 → Completes (.spec n rd ra) s (s.Enters n (s.core n).pc 8 1 false tag)) ∧
      Completes (.specJ n rd ra) s (s.Enters n (s.core n).pc 8 1 false tag)) ∧
    ((s.core n).region.isSome → s.inTurn (rankRegion + n.val) = true → Completes (.specL n rd) s fun t => (t.core n).region = none ∧
      t.getX n rd = 0 ∧ (t.core n).pc = (s.core n).pc + 4) ∧
    ((s.core n).krn = false → 2 ≤ n.val → (s.core n).hdl = false →
      Completes (.spec n rd ra) s (s.Enters n (s.core n).pc 2 0 false (word 0)) ∧
      Completes (.commit n rd ra) s (s.Enters n (s.core n).pc 2 0 false (word 3)) ∧
      Completes (.abort n rd ra) s (s.Enters n (s.core n).pc 2 0 false (word 4)))

/-- COMMIT and ABORT (R46, R50 to R53, R212): after the Col of the sheet has acted and a region with its tag has closed, COMMIT arms a
LAUNCHED sheet once, whose preconditions are evaluated from that tick on, and is refused for any other; ABORT aborts a LAUNCHED sheet, ends a BOUND one, and comes too late for one that is
COMMITTED or in SPOIL. -/
def Obligations.CommitAndAbort : Prop :=
  ∀ (s : State) (n : Fin 12) (rd ra : Fin 32), s.issues n → (s.core n).krn = true ∨ n.val < 2 → s.inTurn (rankRegion + n.val) = true →
    let t := (s.getX n ra).toNat % 64
    let u := ((s.acted (rankRegion + n.val)).colAct t).closeRegion n t
    (u.sh t = 2 → u.rd (Reg.PSQ_SH_STATE_ARMED t) = 0 → Gives (.commit n rd ra) s
      (((u.wr (Reg.PSQ_SH_STATE_ARMED t) 1).evalSheet t).result n rd 0)) ∧
    (u.sh t = 2 → u.rd (Reg.PSQ_SH_STATE_ARMED t) ≠ 0 → Gives (.commit n rd ra) s (u.result n rd 1)) ∧
    (u.sh t ≠ 2 → Gives (.commit n rd ra) s ((u.raise Reg.PSQ_STATUS 5).result n rd 2)) ∧
    (u.sh t = 2 → Gives (.abort n rd ra) s ((u.abortSheet t 9).result n rd 0)) ∧
    (u.sh t = 1 → Gives (.abort n rd ra) s (((u.endBound t 9).pageBack (u.shPage t)).result n rd 0)) ∧
    (u.sh t = 3 ∨ u.sh t = 5 → Gives (.abort n rd ra) s ((u.raise Reg.PSQ_STATUS 6).result n rd 1)) ∧
    (u.sh t = 0 ∨ u.sh t = 4 ∨ u.sh t = 6 → Gives (.abort n rd ra) s (u.result n rd 1))

/-! ## Registers, device states and time -/

/-- A register write. The RW bits of a register without a behaviour of its own take the written bits, its W1C bits are cleared by a
written 1, and nothing else changes (R11). A write to an offset without a register, or one that is narrow, wide or unaligned, sets
`DECODE_ERR` with its offset, direction and master (R17, R19). A host write outside HST is dropped with `OWN_ERR` (R21), and a user-mode
write to another's block is dropped with `OWN_ERR` and the store-access exception, `DETAIL` 0x3 (R23). That a host write to an unnamed offset or a narrow one sets both bits is how the model reads R17 and R21 (log 48). -/
def Obligations.RegisterWrites : Prop :=
  ∀ (s : State) (m : Master) (off : BitVec 22) (size : Nat) (v : Word),
    let o := off.toNat
    let latched (t : State) (who : Nat) : Prop := t.rd Reg.SYS_DECODE_INFO_OFFSET = o ∧ t.rd Reg.SYS_DECODE_INFO_WRITE = 1 ∧
      t.rd Reg.SYS_DECODE_INFO_MASTER = who
    (o ∈ [Reg.SYS_AON_CFG, Reg.SYS_RESET_CAUSE, Reg.TIM_STEP_LO, Reg.PMX_TMR_START_LO 3, Reg.JRN_DRING_LO, Reg.MGT_SEV 4] →
      s.mayWrite m o → Leads (.registerWrite m off 4 v) s fun t =>
        (∀ i, i < 32 → (t.getReg o).getLsbD i = if (regRwMask o).testBit i then v.getLsbD i
            else (s.getReg o).getLsbD i && !((regW1cMask o).testBit i && v.getLsbD i)) ∧ s.OnlyRegs t [o]) ∧
    (s.mayWrite m o → regExists o = false → o % 4 = 0 → Leads (.registerWrite m off 4 v) s fun t =>
      t.rd Reg.SYS_STATUS_DECODE_ERR = 1 ∧ latched t (masterNo m)) ∧
    (size ≠ 4 ∨ o % 4 ≠ 0 → s.masterLive m = true → (m = .host → o / 0x10000 = 27) → Leads (.registerWrite m off size v) s fun t =>
      t.rd Reg.SYS_STATUS_DECODE_ERR = 1 ∧ latched t (masterNo m) ∧
        ∀ x, x / 0x10000 ≠ 0 → x / 0x10000 ≠ 32 → t.getReg x = s.getReg x) ∧
    (s.masterLive .host = true → o / 0x10000 ≠ 27 → Leads (.registerWrite .host off 4 v) s fun t =>
      t.rd Reg.SYS_STATUS_OWN_ERR = 1 ∧ latched t 12 ∧ ∀ x, x / 0x10000 ≠ 0 → x / 0x10000 ≠ 32 → t.getReg x = s.getReg x) ∧
    (∀ n : Fin 12, s.coreLive n = true → s.ownRefused n o = true → o % 4 = 0 → (s.core n).pc < 0x10000 → (s.core n).hdl = false →
      Leads (.registerWrite (.core n) off 4 v) s fun t => t.rd Reg.SYS_STATUS_OWN_ERR = 1 ∧ latched t n.val ∧
        s.Enters n (s.core n).pc 5 3 false (BitVec.ofNat 64 (0xF0000000 + o)) t ∧
        ∀ x, x / 0x10000 ≠ 0 → x / 0x10000 ≠ 32 → t.getReg x = s.getReg x)

/-- Who may write in user mode (R22 to R24): a core reaches its own blocks, within BMK its station's group, and beside them the doorbell
and the raise registers; kernel mode is refused nothing. -/
def Obligations.WriteOwnership : Prop :=
  ∀ (s : State) (n : Fin 12) (off : Nat),
    ((s.core n).krn = true → s.ownRefused n off = false) ∧
    (s.ownRefused n Reg.SYS_DOORBELL = false ∧ s.ownRefused n Reg.VSP_RAISE_CODE = false) ∧
    ((s.core n).krn = false → ∀ k : Fin 8, (s.ownRefused n (Reg.BTM_CTRL k) = true ↔ n.val ≠ 2 + k) ∧
      (s.ownRefused n (Reg.BMK_S_TEST_CFG k) = true ↔ n.val ≠ 2 + k)) ∧
    ((s.core n).krn = false → (s.ownRefused n Reg.SYS_STATE_REQ = true ↔ n ≠ 11) ∧ (s.ownRefused n Reg.PSQ_SPEED = true ↔ 2 ≤ n.val))

/-- Status registers. A source that sets takes its bit; FIRST takes its number where every source was 0; where FIRST took its source in the
same clock of the block, it takes the more severe of the two, then the lower; else OVF sets. A source that is set already changes nothing
(R376). Once the block holds unmasked fault status ALIVE stops (R380). A write of 1 clears a source, which sets again at once while its cause
holds: a driver's fault input, a rail outside its window, stale telemetry, the interlock (R377; which causes those are is read as log 43 says). -/
def Obligations.StatusSources : Prop :=
  ∀ (s : State) (m : Master) (st i : Nat) (v : RegWord), st ∈ statusRegsOf (st / 0x10000) →
    (i < 16 → bitAt (s.rdw st) i = true → s.raise st i = s) ∧
    (i < 16 → bitAt (s.rdw st) i = false → let t := s.raise st i
      bitAt (t.rdw st) i = true ∧ (s.srcs st = 0 → bitsOf (t.rdw st) 16 4 = i) ∧
      (let f := bitsOf (s.rdw st) 16 4
       let sev (j : Nat) : Nat := s.severity (st / 0x10000) j
       s.srcs st ≠ 0 → if s.firstNow st then bitsOf (t.rdw st) 16 4 = if sev f < sev i ∨ (sev f = sev i ∧ i < f) then i else f
         else bitsOf (t.rdw st) 16 4 = f ∧ bitAt (t.rdw st) 20 = true) ∧
      (∀ j, j < 16 → j ≠ i → bitAt (t.rdw st) j = bitAt (s.rdw st) j) ∧
      (s.blockFault (st / 0x10000) = false → t.blockFault (st / 0x10000) = true → t.rd Reg.MGT_ALIVE_RUN = 0 ∧
        (s.dev = stEvening → t.faultWake = true))) ∧
    (s.mayWrite m st → s.fusedReg st = false → Leads (.statusW1c m st v) s fun t =>
      ∀ j, j < 16 → (bitAt (t.rdw st) j = true ↔ (bitAt (s.rdw st) j = true ∧ ¬(bitAt (regW1cMask st) j = true ∧ bitAt v.toNat j = true)) ∨
        (st = Reg.BLD_STATUS ∧ j = 3 ∧ ∃ n, n < 24 ∧ (s.bldOf n).flt = true ∧ s.bl n ≠ blOff ∧ s.ballGranted n 0 = true) ∨
        (st = Reg.STP_STATUS ∧ j = 3 ∧ ∃ n, n < 48 ∧ (s.stpOf n).flt = true ∧ s.sp n ≠ stpOff ∧ s.ballGranted (24 + n) 0 = true) ∨
        (st = Reg.PWR_STATUS ∧ ∃ r high, r < 32 ∧ (s.railOf r).out = some high ∧ j = boolNat high) ∨
        (st = Reg.THM_STATUS ∧ j = 3 ∧ s.pmeasStale = true) ∨
        (13 ≤ st / 0x10000 ∧ st / 0x10000 ≤ 20 ∧ j = 6 ∧ s.lsi.active = true)))

/-- `SYS_CORE_RUN`, `SYS_DOORBELL` and `SYS_BOOT_MAP` (R38, R194). A core that is released starts at offset 0 in kernel mode, not halted and
with no region; one that is stopped closes its region; both leave the other cores alone. A doorbell reaches the cores whose bits are
written as 1. A write of 0 to `ROM` waits for N11's next taken jump. -/
def Obligations.CoreRunAndDoorbell : Prop :=
  ∀ (s : State) (m : Master) (n : Fin 12) (v : RegWord),
    let fitted (k : Fin 12) : Prop := s.aon.fuse4 = true → k.val < 6 ∨ 10 ≤ k.val
    let run (t : State) (b : Bool) : Prop := bitAt (t.rd Reg.SYS_CORE_RUN_RUN) n.val = b ∧ ∀ k : Fin 12, k ≠ n → fitted k →
      t.core k = s.core k ∧ bitAt (t.rd Reg.SYS_CORE_RUN_RUN) k.val = bitAt (s.rd Reg.SYS_CORE_RUN_RUN) k.val
    (s.mayWrite m Reg.SYS_CORE_RUN → fitted n → bitAt (s.rd Reg.SYS_CORE_RUN_RUN) n.val = false → Leads (.coreRelease m n) s fun t =>
      run t true ∧ (t.core n).pc = 0 ∧ (t.core n).krn = true ∧ (t.core n).halted = false ∧ (t.core n).region = none) ∧
    (s.mayWrite m Reg.SYS_CORE_RUN → bitAt (s.rd Reg.SYS_CORE_RUN_RUN) n.val = true → Leads (.coreStop m n) s fun t =>
      run t false ∧ (t.core n).region = none ∧ t.canIssue n = false) ∧
    (s.mayWrite m Reg.SYS_DOORBELL → Leads (.sysDoorbell m v) s fun t => ∀ k : Fin 12,
      t.core k = if bitAt v.toNat k.val then { s.core k with doorbell := true } else s.core k) ∧
    (s.mayWrite m Reg.SYS_BOOT_MAP → s.rd Reg.SYS_BOOT_MAP_ROM = 1 → Leads (.bootMapClear m) s fun t =>
      t.bootClear = true ∧ t.rd Reg.SYS_BOOT_MAP_ROM = 1)

/-- Time (R27 to R30, R39, R420). A read of `TIM_NOW_LO` latches the upper half of Meridian for its master alone, and a
core reads Meridian in one instruction. A slew write replaces the
slew, with `MODE` 0 in place of a slew of no ticks, and its 1,024 clocks begin anew; a slewed tick, the clock in 1,024 that the slew changes,
adds 2 or drops one, and its count falls. A step is made in DAWN and
refused elsewhere. The alarm fires once its armed time has come, disarms, and wakes the device from EVENING. -/
def Obligations.TimeRegisters : Prop :=
  ∀ (s : State) (m : Master) (v : RegWord), s.meridian + 2 < 2 ^ 64 →
    let mode := bitsOf v.toNat 0 2
    let count := if mode = 0 then 0 else bitsOf v.toNat 16 16
    (s.masterLive m = true → (∀ n, m = .core n → ∀ e ∈ (s.core n).posted, e.1 / 0x10000 ≠ 1) →
      Leads (.timNowLoRead m) s fun t => t.regView (masterNo m) Reg.TIM_NOW_HI = s.meridian / 2 ^ 32 ∧
        ∀ k, k ≠ masterNo m → t.regView k Reg.TIM_NOW_HI = s.regView k Reg.TIM_NOW_HI) ∧
    (∀ (n : Fin 12) (rd : Fin 32), s.issues n → (s.core n).pc + 4 < 0x10000 →
      Completes (.rdtime n rd) s (s.Retires n rd (BitVec.ofNat 64 s.meridian) ((s.core n).pc + 4))) ∧
    (s.mayWrite m Reg.TIM_SLEW → Leads (.timSlewWrite m v) s fun t => ({ s with slewRun := t.slewRun } : State).OnlyRegs t [Reg.TIM_SLEW] ∧
      (mode = 3 → t = s) ∧ (mode ≠ 3 → t.slewRun = 0 ∧ t.rd Reg.TIM_SLEW_COUNT = count ∧
        t.rd Reg.TIM_SLEW_MODE = if count = 0 then 0 else mode)) ∧
    (s.counting = true → s.rd Reg.TIM_SLEW_MODE ≠ 0 → 1023 ≤ s.slewRun → Gives .slewTick s s.tick) ∧
    (s.rd Reg.TIM_SLEW_MODE ≠ 0 → s.rd Reg.TIM_SLEW_COUNT ≠ 0 →
      let u := s.slewTick
      u.meridian = (if s.rd Reg.TIM_SLEW_MODE = 1 then s.meridian + 2 else s.meridian) ∧
        u.rd Reg.TIM_SLEW_COUNT = s.rd Reg.TIM_SLEW_COUNT - 1 ∧
        u.rd Reg.TIM_SLEW_MODE = if s.rd Reg.TIM_SLEW_COUNT = 1 then 0 else s.rd Reg.TIM_SLEW_MODE) ∧
    (s.mayWrite m Reg.TIM_STEP_HI →
      let goal := s.meridian + s.rdw Reg.TIM_STEP_LO + v.toNat * 2 ^ 32
      (s.dev = stDawn → goal < 2 ^ 64 → Completes (.timStep m v) s fun t => t = { s with meridian := goal }) ∧
      (s.dev ≠ stDawn → Leads (.timStep m v) s fun t => t.meridian = s.meridian ∧ t.rd Reg.TIM_STATUS_STEP_REFUSED = 1)) ∧
    (s.mayWrite m Reg.TIM_CTRL → s.rd Reg.TIM_CTRL_ALARM_EN = 0 → Leads (.alarmArm m .ctrl v) s fun t =>
      t.alarmArmed = true ∧ t.rd Reg.TIM_CTRL_ALARM_EN = 1) ∧
    (∀ r off, (r, off) ∈ [(AlarmReg.lo, Reg.TIM_ALARM_LO), (AlarmReg.hi, Reg.TIM_ALARM_HI)] → s.mayWrite m off →
      Leads (.alarmArm m r v) s fun t => t.rdw off = v.toNat ∧ (s.rd Reg.TIM_CTRL_ALARM_EN = 1 → t.alarmArmed = true)) ∧
    (s.alarmDue = true → s.dev ≠ stEvening → Completes .alarmFire s fun t =>
      t.alarmArmed = false ∧ t.rd Reg.TIM_STATUS_ALARM = 1 ∧ t.dev = s.dev) ∧
    (s.alarmDue = true → Gives .alarmFire s (({ s with alarmArmed := false }).raise Reg.TIM_STATUS 0).resume)

/-- Requests and ends of states (R33, R38). A request whose conditions fail is refused with the reason of the first that fails, and the
state stays; one that is granted moves the device. Only the transitions of R33 exist. NOON ends in MORNING with no sheet in flight and no
page bound, DUSK with no sheet in flight, each after a Gap that opens in the same tick; MORNING opens the Gap and applies what is pending. Where the spec does not say what a command out of its turn does, that it
changes nothing is the model's choice (log 4, 42). -/
def Obligations.DeviceStateRequests : Prop :=
  ∀ (s : State) (m : Master),
    let may := s.mayWrite m Reg.SYS_STATE_REQ
    let v := s.gapOpening
    let u := v.goTo stMorning
    (∀ p ∈ [(Instr.requestNight m, stNight), (.requestMorning m, stMorning), (.requestNoon m, stNoon), (.requestDusk m, stDusk),
        (.requestEvening m, stEvening)], may → s.refusal p.2 ≠ 0 →
      Gives p.1 s ((s.raise Reg.SYS_STATUS 3).wr Reg.SYS_REFUSE_REASON (s.refusal p.2))) ∧
    (may → s.refusal stMorning = 0 → Leads (.requestMorning m) s fun t => t.dev = stMorning ∧ t.rd Reg.SYS_STATE_LAST = stDawn) ∧
    (may → s.refusal stDusk = 0 → Leads (.requestDusk m) s fun t => t.dev = stDusk ∧ t.rd Reg.SYS_STATE_LAST = stNoon) ∧
    (may → s.refusal stNoon = 0 → Leads (.requestNoon m) s fun t => t.dev = stNoon ∧ t.rd Reg.SYS_STATE_LAST = stDusk) ∧
    (may → s.refusal stNight = 0 → Leads (.requestNight m) s fun t =>
      t.dev = stNight ∧ t.rd Reg.SYS_STATE_LAST = s.dev ∧ t.mem = [] ∧ t.dieEpoch = s.dieEpoch + 1) ∧
    (may → s.refusal stEvening = 0 → s.dev = stMorning ∧
      Gives (.requestEvening m) s (((s.goTo stEvening).outputsOff.wr Reg.XSP_CTRL_EN 0).downSequence true)) ∧
    (∀ d, s.dev ≤ 5 → d ≤ 5 → (s.dev, d) ∉ [(stDawn, stMorning), (stDawn, stNight), (stMorning, stEvening), (stMorning, stNight),
        (stNoon, stDusk), (stDusk, stNoon)] → s.refusal d = 6) ∧
    (s.dev = stDawn → s.counting = false → s.refusal stMorning = 1) ∧
    (s.dev = stMorning → s.pageBound = true ∨ s.inFlight = true → s.refusal stEvening = 5 ∧ s.refusal stNight = 5) ∧
    (s.dev = stDusk → (s.duskCause = true → s.refusal stNoon = 7) ∧
      (s.duskCause = false → s.inFlight = false → s.refusal stNoon = 9)) ∧
    (v.dev = stNoon → v.inFlight = false → v.pageBound = false →
      Gives .noonToMorning s ({ u with psq := { u.psq with gapOpen := true } }.gapChanges false true)) ∧
    (v.dev = stDusk → v.inFlight = false →
      Gives .duskToMorning s ({ u with psq := { u.psq with gapOpen := true } }.gapChanges false true)) ∧
    (v.dev = stNoon → v.inFlight = true ∨ v.pageBound = true → Gives .noonToMorning s v) ∧
    (v.dev = stDusk → v.inFlight = true → Gives .duskToMorning s v) ∧
    (s.psq.gapOpen = true ∨ s.gapOpen = false → v = s)

/-- Power-on, resets and wake-ups (R33, R299, R410 to R413, R419). A power-on loses everything but the NVM, the storage and what lies outside
the device, and leaves it in NIGHT, from which `AUTO_DAWN` takes it to DAWN with `DAWN_KIND` 0. A system reset enters DAWN with `DAWN_KIND` 2
and its cause, keeps the on-die memories and loses the DRAM and the registers, `LAST` among them (no OTP word stands for `SYS_STATE`). A matching phrase wakes the device from NIGHT, with `DAWN_KIND` 1 and
Meridian at 0, or from EVENING; another does nothing. Where the spec does not say what a command out of its turn does, that it
changes nothing is the model's choice (log 2, 4). -/
def Obligations.ResetsAndWakes : Prop :=
  ∀ (s : State) (m : Master) (phrase : BitVec 32) (n : Fin 64) (v : RegWord),
    let comesUp (c : Instr) : Prop := Leads c s fun t => t.aon.power = true ∧ t.mem = [] ∧ t.nvm = s.nvm ∧
      t.nvme = s.nvme ∧ t.pending = s.pending ∧ (∀ k, t.core k = {}) ∧ t.meridian = 0 ∧
      (s.aon.otpAutoDawn = false → t.dev = stNight) ∧ (s.aon.otpAutoDawn = true → t.dev = stDawn ∧ t.rd Reg.SYS_STATE_DAWN_KIND = 0)
    let resets (c : Instr) (cause : Nat) : Prop := Leads c s fun t => t.dev = stDawn ∧
      ((∀ e ∈ s.aon.otpRegs, e.1 ≠ Reg.SYS_STATE) → t.rd Reg.SYS_STATE_LAST = 0) ∧ t.rd Reg.SYS_STATE_DAWN_KIND = 2 ∧ bitAt (t.rdw Reg.SYS_RESET_CAUSE) cause = true ∧ (∀ a, a < dramBase → t.readByte a = s.readByte a) ∧
      (∀ a, dramBase ≤ a → t.readByte a = unlistedByte s.dieEpoch (s.dramEpoch + 1) a) ∧ (∀ k, t.core k = {}) ∧ t.nvm = s.nvm
    (s.aon.power = false → comesUp .aoPowerGood ∧ Gives .powerOnReset s s) ∧
    (s.aon.power = true → comesUp .powerOnReset ∧ Gives .aoPowerGood s s) ∧
    (s.dev ≠ stNight → resets .jtagReset 4) ∧ (s.dev = stNight → Gives .jtagReset s s) ∧
    (s.dev ≠ stNight → s.mayWrite m Reg.SYS_RESET → resets (.sysrst m) 1) ∧
    (∀ c ∈ [Instr.wakeNPhrase phrase, .uartWakeLine phrase],
      (s.aon.power = false ∨ phrase.toNat ≠ s.aon.otpWakePhrase → Gives c s s) ∧
      (s.aon.power = true → phrase.toNat = s.aon.otpWakePhrase → s.dev = stNight →
        (s.aon.holdUp = true → Gives c s { s with aon := { s.aon with wakeAtEnd := true } }) ∧
        (s.aon.holdUp = false → Gives c s (s.dawn 1) ∧ s.dawn 1 =
          (((({ s with meridian := 0 }).goTo stDawn).wr Reg.SYS_STATE_DAWN_KIND 1).holdCores).upSequence false)) ∧
      (s.aon.power = true → phrase.toNat = s.aon.otpWakePhrase → s.dev ≠ stNight → Gives c s s.resume)) ∧
    (s.hst.linkUp = true → s.dev = stEvening →
      Gives (.hostDoorbellWake n v) s (s.plainWrite (Reg.HST_QP_SQ_TAIL n) v.toNat).resume) ∧
    (s.hst.linkUp = false ∨ s.dev ≠ stEvening → Gives (.hostDoorbellWake n v) s s) ∧
    (s.dev ≠ stEvening → s.resume = s)

/-- The values after reset that the spec states (R12, R38, R193, R194, R299, and the reset columns of the register tables): DAWN with no
core released, no status set, every enable 0, x registers 0, every sheet and page entry free. -/
def Obligations.ResetValues : Prop :=
  let s := State.reset
  s.dev = stDawn ∧ s.rd Reg.SYS_CORE_RUN_RUN = 0 ∧ s.meridian = 0 ∧ s.counting = false ∧ s.pending = [] ∧
  (∀ b, b ≤ 32 → s.blockFault b = false) ∧
  (∀ b, b ≤ 32 → ∀ st ∈ statusRegsOf b, (b ≠ 27 → s.rdw st = 0) ∧ s.rdw (st + 4) = 0) ∧
  (∀ n : Fin 12, s.coreLive n = false ∧ ∀ r, s.getX n r = 0) ∧
  (∀ t, t < 64 → s.sh t = 0) ∧ (∀ p, p < 256 → s.rd (Reg.PSQ_PG_STATE_STATE p) = 0) ∧
  s.rd Reg.SYS_ID_PART = 0x8064 ∧ s.rd Reg.SYS_ID_STEPPING = 0xA0

/-! ## Claims and shared timers -/

/-- Claims and timers (R35 to R37). A claim commit is made at once in DAWN, MORNING and EVENING and waits for a Gap in NOON and DUSK; where
two claims name one resource the lower class wins, then the lower entry. A timer that is armed while it is granted takes its times and
clears `HIT`; one whose `PERIOD` is 0 disarms once it has acted, and another goes on by `PERIOD`; a window with no edge up to its `END` sets its
`MISS` bit, which raises the interrupt where it is enabled. Where the spec does not say what a command out of its turn does, that it
changes nothing is the model's choice (log 4, 44). -/
def Obligations.ClaimsAndTimers : Prop :=
  ∀ (s : State) (m : Master) (t : Fin 32) (v : RegWord), let w := s.plainWrite (Reg.PMX_TMR_CTRL t) v.toNat
    let (start, stop, period) := s.timerTimes t
    (s.mayWrite m Reg.PMX_CTRL →
      (s.dev = stNoon ∨ s.dev = stDusk → Gives (.claimCommit m) s (s.wr Reg.PMX_CTRL_COMMIT_PENDING 1)) ∧
      (s.dev ≠ stNoon → s.dev ≠ stDusk → Gives (.claimCommit m) s s.claimCommit)) ∧
    (∀ a b : Claim, a.entry ≠ b.entry → (a.beats b = true ↔ b.beats a = false) ∧ (a.cls < b.cls → a.beats b = true) ∧
      (a.cls = b.cls → (a.beats b = true ↔ a.entry < b.entry))) ∧
    (s.mayWrite m (Reg.PMX_TMR_CTRL t) →
      (bitAt v.toNat 0 = true → (s.timerHolder t).isSome = true → Leads (.timerArm m t v) s fun x =>
        x.rd (Reg.PMX_TMR_CTRL_ARMED t) = 1 ∧ x.rd (Reg.PMX_TMR_CTRL_HIT t) = 0 ∧
        x.timerTimes t = (s.rd64 (Reg.PMX_TMR_START_LO t) (Reg.PMX_TMR_START_HI t),
          s.rd64 (Reg.PMX_TMR_END_LO t) (Reg.PMX_TMR_END_HI t), s.rdw (Reg.PMX_TMR_PERIOD t))) ∧
      (bitAt v.toNat 0 = true → s.timerHolder t = none → Gives (.timerArm m t v) s w) ∧
      (bitAt v.toNat 0 = false → Gives (.timerArm m t v) s (w.wr (Reg.PMX_TMR_CTRL_ARMED t) 0))) ∧
    (∀ g, s.timerHolder t = some g → s.timerArmed t = true → s.pmx.caught.toList.getD t false = false →
      let e := s.sense.edge.toList.getD g.user 0
      (g.func = 0 → g.user < 64 → start ≤ e → e < stop → s.pmx.armedAt.toList.getD t 0 ≤ e →
        s.sense.rising.toList.getD g.user false ≠ s.on (Reg.PMX_TMR_CTRL_POL t) → period = 0 →
        Gives (.windowEdgeCapture t) s ((s.timerCap t e).wr (Reg.PMX_TMR_CTRL_ARMED t) 0)) ∧
      (g.func = 0 → g.user < 64 → start ≤ e → e < stop → s.pmx.armedAt.toList.getD t 0 ≤ e →
        s.sense.rising.toList.getD g.user false ≠ s.on (Reg.PMX_TMR_CTRL_POL t) → period ≠ 0 → Leads (.windowEdgeCapture t) s fun x =>
        x = { s.timerCap t e with pmx := { s.pmx with caught := s.pmx.caught.set t true } }) ∧
      (g.func = 0 → stop ≤ s.meridian → Gives (.windowMiss t) s
        ((s.wr Reg.PMX_TMR_MISS_MISS (bitPut (s.rd Reg.PMX_TMR_MISS_MISS) t true)).timerNext t)) ∧
      (g.func = 1 → g.user < 16 → start ≤ s.meridian → Gives (.encoderLatch t) s
        ((s.timerCap t (s.sense.enc.toList.getD g.user 0).toNat).timerNext t))) ∧
    (∀ e, (s.timerCap t e).rd (Reg.PMX_TMR_CTRL_HIT t) = 1 ∧ (s.timerCap t e).rdw (Reg.PMX_TMR_CAP_LO t) = e % 2 ^ 32 ∧
      (s.timerCap t e).rdw (Reg.PMX_TMR_CAP_HI t) = e / 2 ^ 32 % 2 ^ 32) ∧
    (∀ g, s.timerHolder t = some g → s.timerArmed t = true → s.pmx.caught.toList.getD t false = true → g.func = 0 →
      stop ≤ s.meridian → Gives (.windowMiss t) s (s.timerNext t)) ∧
    (bitAt (s.rdw Reg.PMX_TMR_MISS) t = true → bitAt (s.rdw Reg.PMX_TMR_IRQ_EN) t = true → s.eventPending 31 = true) ∧
    (period = 0 → s.timerNext t = s.wr (Reg.PMX_TMR_CTRL_ARMED t) 0) ∧
    (period ≠ 0 → (s.timerNext t).timerTimes t = (start + period, stop + period, period) ∧
      (s.timerNext t).rd (Reg.PMX_TMR_CTRL_ARMED t) = s.rd (Reg.PMX_TMR_CTRL_ARMED t))

/-! ## Pages and sheets -/

/-- The page table (R42, R86, R90). `VALID` submits a FREE entry with `REASON` cleared and frees a PRINTED, SUSPECT or WITHDRAWN one. The
admission test takes a SUBMITTED page and runs one at a time; its first failing step decides, and a page that passes is ADMITTED with its
check to do. A morning check that reads every slot makes an ADMITTED page VERIFIED and completes the check of a BOUND one; one that meets a
mismatch withdraws the page with `REASON` 0x03, a failed read with 0x07 (R116: the check's mismatches act before those of the decoders). Where the spec does not say what a command out of its turn does, that it
changes nothing is the model's choice (log 4). -/
def Obligations.PageTable : Prop :=
  ∀ (s : State) (m : Master) (n : Fin 256) (v : RegWord),
    let hi (b : Bool) : State := s.wr (Reg.PSQ_PG_ADDR_HI_ADDR n) (withBit v 31 b).toNat
    let may := s.mayWrite m (Reg.PSQ_PG_ADDR_HI n)
    let idle : State := { s.wr Reg.STR_PLN_ADMIT_BUSY 0 with plain := { s.plain with admission := none } }
    let taken (x : State) : State := x.takeRange n (x.descAddr n) 320
    let run := s.checkPage n
    let counted := s.checkCounts n run.slots
    let s' := s.acted rankCheck
    let found := s'.checkPage n
    let told := s'.checkCounts n found.slots
    (may → s.pg n = pgFree → Leads (.pageEntrySubmit m n v) s fun t => t.pg n = pgSubmitted ∧
      t.rd (Reg.PSQ_PG_STATE_REASON n) = 0 ∧ t.rd (Reg.PSQ_PG_ADDR_HI_VALID n) = 1 ∧ ∀ k, k < 256 → k ≠ n.val → t.pg k = s.pg k) ∧
    (may → s.pg n ≠ pgFree → Gives (.pageEntrySubmit m n v) s (hi true)) ∧
    (may → s.pg n ∈ [pgPrinted, pgSuspect, pgWithdrawn] → Leads (.pageEntryFree m n v) s fun t =>
      t.pg n = pgFree ∧ t.rd (Reg.PSQ_PG_ADDR_HI_VALID n) = 0) ∧
    (may → s.pg n ∉ [pgPrinted, pgSuspect, pgWithdrawn] → Gives (.pageEntryFree m n v) s (hi false)) ∧
    (s.mayWrite m Reg.STR_PLN_ADMIT_GO →
      (s.pg n = pgSubmitted → s.rd Reg.STR_PLN_ADMIT_BUSY = 0 → s.rd Reg.STR_PLN_CTRL_EN = 1 → Gives (.admissionTestGo m n) s
        { s.wr Reg.STR_PLN_ADMIT_BUSY 1 with plain := { s.plain with admission := some n.val } }) ∧
      (s.pg n ≠ pgSubmitted ∨ s.rd Reg.STR_PLN_ADMIT_BUSY ≠ 0 ∨ s.rd Reg.STR_PLN_CTRL_EN = 0 → Gives (.admissionTestGo m n) s s)) ∧
    (s.plain.admission = some n.val → s.pg n = pgSubmitted →
      Gives .admissionTestComplete s ((taken idle).admitDesc n ((taken idle).readFail [((taken idle).descAddr n, 320)]))) ∧
    (s.admitDesc n (some .missing) = s.wr (Reg.PSQ_PG_STATE_REASON n) 1 ∧ s.admitDesc n (some .absent) = s.withdrawPage n 7 0x0A ∧
      (s.descOk n = false → s.admitDesc n none = (s.raise Reg.STR_PLN_STATUS 5).withdrawPage n 7 0x0A) ∧
      (s.descOk n = true → (∃ k ∈ s.pgStationList n, s.stations ≤ k) → s.admitDesc n none = s.withdrawPage n 4 0x0A)) ∧
    (s.checkRuns n = true →
      (run.stop = none → (s.pg n = pgAdmitted → Gives (.morningCheckComplete n) s
          ((counted.wr (Reg.PSQ_PG_CHECK_DONE n) 1).wr (Reg.PSQ_PG_STATE_STATE n) pgVerified)) ∧
        (s.pg n = pgBound → Gives (.morningCheckComplete n) s (counted.wr (Reg.PSQ_PG_CHECK_DONE n) 1)))) ∧
    (s.inTurn rankCheck = true → s'.checkRuns n = true →
      (∀ k kind col row, found.stop = some (.mismatch k kind col row) → Gives (.morningCheckMismatch n) s
        ((((told.mmPush { path := 1, station := k, kind := kind, page := n.val, sheet := 0, committed := false, column := col, row := row }).raise
          Reg.CDC_STATUS 3).inc Reg.CDC_CHK_CNT_MM_COUNT).withdrawPage n 3 0x0A)) ∧
      (∀ a, found.stop = some (.readFailed a) → Gives (.morningCheckMismatch n) s ((told.plainTouch a).withdrawPage n 7 0x0A)))

/-- The life of a sheet (R45, R46, R51, R53, R54, R64, R66, R69). Binding takes the next sequence number and the page, or fails with
`REASON` 0x15. A commit is granted before the Col where every precondition holds; at the Col an uncommitted sheet aborts with `AUTO_ABORT`.
A pulse that is over, and an aborted frame whose last exposure ends, leave the sheet DONE. Once a motor of the paper path has lost drive,
committed sheets spoil and launched ones abort. None of it waits on a host, a journal or the fabric (R32): each holds in every state of theirs. Where the spec does not say what a command out of its turn does, that it
changes nothing is the model's choice (log 4). -/
def Obligations.SheetLife : Prop :=
  ∀ (s : State) (m : Master) (k : Fin 64) (v : RegWord),
    let page := v.toNat % 256
    let may := s.mayWrite m (Reg.PSQ_SH_CTRL k)
    (may → s.sh k = shFree → s.pg page = pgAdmitted ∨ s.pg page = pgVerified → Leads (.sheetBind m k v) s fun t =>
      t.sh k = shBound ∧ t.shSeq k = s.rd Reg.PSQ_NEXT_SEQ_SEQ ∧ t.rd Reg.PSQ_NEXT_SEQ_SEQ = fitNat 32 (s.rd Reg.PSQ_NEXT_SEQ_SEQ + 1) ∧
      t.pg page = pgBound ∧ t.shPage k = page ∧ t.rd (Reg.PSQ_PG_STATE_SHEET page) = k.val) ∧
    (may → s.sh k = shFree → s.pg page ≠ pgAdmitted → s.pg page ≠ pgVerified → Leads (.sheetBind m k v) s fun t =>
      t.sh k = shFree ∧ t.rd (Reg.PSQ_SH_STATE_REASON k) = 0x15 ∧ t.rd (Reg.PSQ_SH_CTRL_VALID k) = 0 ∧ t.pg page = s.pg page) ∧
    (may → s.sh k = shBound ∨ s.sh k = shDone → Leads (.sheetFree m k v) s fun t =>
      t.sh k = shFree ∧ t.rd (Reg.PSQ_SH_CTRL_VALID k) = 0) ∧
    (s.inTurn rankGrant = true →
      let g := s.acted rankGrant
      (s.sh k = shLaunched → s.rd (Reg.PSQ_SH_STATE_ARMED k) = 1 → s.meridian < s.col k →
        (g.precondition k = 0 → Leads (.commitGrant k) s fun t =>
          t = g.grantCommit k ∧ t.sh k = shCommitted ∧ t.pg (s.shPage k) = pgPrinting) ∧
        (g.precondition k ≠ 0 → Gives (.commitGrant k) s (g.evalSheet k))) ∧
      (s.sh k ≠ shLaunched ∨ s.rd (Reg.PSQ_SH_STATE_ARMED k) = 0 ∨ s.col k ≤ s.meridian → Gives (.commitGrant k) s g)) ∧
    (s.sh k = shLaunched → s.col k ≤ s.meridian → Leads (.colAbort k) s fun t =>
      t = (s.raise Reg.PSQ_STATUS 0).abortSheet k (s.colReason k) ∧ t.sh k = shAborted) ∧
    (s.sh k ≠ shLaunched ∨ s.meridian < s.col k → Gives (.colAbort k) s s) ∧
    (s.rd (Reg.PSQ_SH_STATE_ARMED k) = 0 → s.colReason k = 1) ∧
    (s.web = false → s.sh k = shAborted → s.col k ≤ s.meridian → pulseOf s.psq.purges k = some { tag := k.val, drive := none } →
      Gives (.purgeAtCol k) s { s with psq := { s.psq with purges := pulseDrop s.psq.purges k ++ [{ tag := k.val, drive := some s.purgeDrive }] } }) ∧
    (pulseOver s.psq.purges k s.meridian = true → Gives (.purgePulseEnd k) s
      (({ s with psq := { s.psq with purges := pulseDrop s.psq.purges k } }).sheetDone k)) ∧
    (s.web = true → s.sh k = shAborted → s.expEnd k ≤ s.meridian → Gives (.webFrameEnd k) s (s.sheetDone k)) ∧
    (s.web = false → s.sh k = shSpoil → (s.sheetOf k).lateSpoil = false → s.exitTime k ≤ s.meridian → pulseOf s.psq.spoils k = none →
      Leads (.spoilDecisionPoint k) s fun t =>
        t.psq.spoils = s.psq.spoils ++ [{ tag := k.val, drive := some (s.rd Reg.PSQ_PURGE_CFG_SPOIL_OUT,
          s.meridian + s.rd Reg.PSQ_PURGE_CFG_PULSE_MS * 3000000) }] ∧
        t.pend = s.pend.filter (fun c => !(c.block = 10 && c.op = 1 && c.tag = some (k.val, s.shSeq k))) ∧ t.regs = s.regs) ∧
    (pulseOver s.psq.spoils k s.meridian = true → Gives (.spoilPulseEnd k) s
      (({ s with psq := { s.psq with spoils := pulseDrop s.psq.spoils k } }).sheetDone k)) ∧
    (∀ c, s.psq.driveLost = some c →
      (c < s.clock → Leads .driveLost s fun u => u.psq.driveLost = none ∧ bitAt (u.rdw Reg.PSQ_STATUS) 9 = true ∧
        ∀ t, t < 64 → u.sh t = if s.sh t = shCommitted then shSpoil else if s.sh t = shLaunched then shAborted else s.sh t) ∧
      (s.clock ≤ c → Gives .driveLost s s)) ∧
    (s.psq.driveLost = none → Gives .driveLost s s)

/-- The Gap, and a mismatch that a station's decoders find (R58, R70, R72, R115 to R117). A Gap that opens is counted and applies what is
pending; at its close calibration exposures are cut. The first failing tile of a decoder whose entry has not left the queue is queued and counted
as its check ends; it withdraws a bound page once, spoils a committed sheet and marks its page. `CDC_MM_POP` removes the oldest mismatch. Where the spec does not say what a command out of its turn does, that it
changes nothing is the model's choice (log 4). -/
def Obligations.GapsAndMismatches : Prop :=
  ∀ (s : State) (m : Master) (k j : Fin 8),
    let lost (t : Nat) : Bool := s.sh t = shCommitted ∨ s.sh t = shSpoil
    let mm (t : BadTile) : Mismatch :=
      { path := 0, station := k.val, kind := t.kind, page := t.page, sheet := t.tag, committed := lost t.tag, column := t.col, row := t.row }
    let s' := s.acted rankDecoder
    let first := (s.strOf k).bad.find? fun t => t.col % 8 = j.val && t.goneAt.all fun c => c = s.clock
    (s.dev = stNoon ∨ s.dev = stDusk → s.gapOpen = true → s.psq.gapOpen = false → Gives .gapOpening s
      (({ s with psq := { s.psq with gapOpen := true } }.inc Reg.PSQ_GAP_COUNT_COUNT).gapChanges true true)) ∧
    (s.dev = stNoon ∨ s.dev = stDusk → s.gapOpen = false → s.psq.gapOpen = true → Gives .gapClose s
      (forUpTo 8 { s with psq := { s.psq with gapOpen := false } } State.calCut)) ∧
    (s.gapOpen = s.psq.gapOpen → Gives .gapOpening s s ∧ Gives .gapClose s s) ∧
    (s.gapOpen = false ↔ ∃ t, t < 64 ∧ (s.sh t = shLaunched ∨ s.sh t = shCommitted ∨ s.sh t = shSpoil) ∧ s.expStart t ≤ s.meridian ∧
      s.meridian < s.expEnd t) ∧
    (s.inTurn rankDecoder = true →
      (∀ t, first = some t →
        let u := s'.updStr k fun x => { x with bad := x.bad.erase t }
        Gives (.stationDecoderMismatch k j) s
          ((((u.mmPush (mm t)).raise Reg.CDC_STATUS 2).inc (Reg.CDC_S_CNT_MM_COUNT k)).streamMismatch t.page t.tag)) ∧
      (first = none → Gives (.stationDecoderMismatch k j) s s')) ∧
    (∀ n t, (s.sh t = shBound ∨ s.sh t = shLaunched → s.pg n = pgBound → s.streamMismatch n t = s.withdrawPage n 5 0x0A) ∧
      (s.sh t = shBound ∨ s.sh t = shLaunched → s.pg n ≠ pgBound → s.streamMismatch n t = s) ∧
      (s.sh t = shCommitted → s.streamMismatch n t = (s.updPage n fun p => { p with mismatch := true }).spoilSheet t 0x20) ∧
      (s.sh t = shSpoil → s.streamMismatch n t = s.updPage n fun p => { p with mismatch := true })) ∧
    (s.mayWrite m Reg.CDC_MM_POP → Gives (.cdcMmPop m) s { s with mmq := s.mmq.tail })

/-- The page store and the lanes (R79 to R81, R98, R109 to R112). A load that completes makes its extent RESIDENT, one that fails leaves it
NVME_ONLY with `NVME_ERR`, and one from a namespace with another LBA format fails; a flush writes every DIRTY frame back and then goes to each
namespace; a write-back for an eviction frees the frame, one for a flush leaves it clean, and one that fails leaves it DIRTY. A lane starts on `GO` where its job is legal, ends with `ERR` 4
where it is not, and ignores `GO` while it runs; a job ends with `DONE`, with `ERR` 2 on a source error or with `ERR` 3 on a refused
write. Where the spec does not say what a command out of its turn does, that it
changes nothing is the model's choice (log 4, 17). -/
def Obligations.PageStoreAndLanes : Prop :=
  ∀ (s : State) (m : Master) (e : BitVec 21) (l : Fin 4) (v : RegWord) (lines : Nat) (diffs : List Nat),
    let on := s.rd Reg.STR_PLN_CTRL_EN = 1
    let x := e.toNat
    let frame := frameAddr (extFrame (s.extEntry x))
    let loaded := (((s.copyIn zeroByte s.nvme (extNvme (s.extEntry x)) frame (2 ^ 21)).addTo Reg.STR_PLN_CNT_NVME_RD_COUNT 512).count
      20 0 512).extSet x 60 3 2
    let flush := s.plainWrite Reg.STR_PLN_CTRL (withBit v 4 true).toNat
    let dirty := (s.plain.frames.map Prod.snd).filter fun e => extState (flush.extEntry e) = 3
    let back : State := { s with plain := { s.plain with evicting := s.plain.evicting.erase x, flushing := s.plain.flushing.erase x } }
    let wrote := (back.nvmeWrite (extNvme (s.extEntry x)) (back.readBytes frame (2 ^ 21))).addTo Reg.STR_PLN_CNT_NVME_WR_COUNT 512
    let stop := s.plainWrite (Reg.CDC_L_CTRL l) (withBit v 1 true).toNat
    let cut (j : LaneJob) : State := { stop with lanes := s.lanes.setIfInBounds l (some { j with flushAt := some lines }) }
    let go := s.plainWrite (Reg.CDC_L_CTRL l) (withBit v 0 true).toNat
    (s.mayWrite m Reg.STR_PLN_CTRL → bitAt v.toNat 0 = false ∨ s.plain.frames = [] → Leads (.plainFlush m v) s fun t =>
      t.plain.nvmeFlushes = (if flush.on Reg.STR_PLN_CTRL_EN ∧ flush.on Reg.STR_PLN_CTRL_NVME_EN
        then s.plain.nvmeFlushes + flush.rd Reg.STR_PLN_NVME_CFG_NS_COUNT + 1 else s.plain.nvmeFlushes) ∧ t.mem = s.mem) ∧
    (s.rd Reg.STR_PLN_CTRL_NVME_EN = 1 → flush.on Reg.STR_PLN_CTRL_EN = true → flush.on Reg.STR_PLN_CTRL_NVME_EN = true → dirty ≠ [] →
      s.mayWrite m Reg.STR_PLN_CTRL → Gives (.plainFlush m v) s
        (forEach dirty { flush with plain := { flush.plain with flushing := flush.plain.flushing ++ dirty } } fun s e => s.extSet e 60 3 4)) ∧
    (on → extState (s.extEntry x) = 1 →
      (s.nsRefused x = false → Gives (.extentLoadComplete e true) s
        { loaded with plain := { loaded.plain with waitingOn := loaded.plain.waitingOn.filter (fun y => y.2 ≠ x) } }.retryLoads.retryIn) ∧
      (s.nsRefused x = true → exec (.extentLoadComplete e true) s = exec (.extentLoadComplete e false) s) ∧
      (s.plain.waitingOn = [] → Gives (.extentLoadComplete e false) s
        (((s.extSet x 60 3 0).dropFrame x).raise Reg.STR_PLN_STATUS 1).retryLoads.retryIn)) ∧
    (extState (s.extEntry x) ≠ 1 ∨ s.rd Reg.STR_PLN_CTRL_EN = 0 → Gives (.extentLoadComplete e true) s s.retryIn ∧ Gives (.extentLoadComplete e false) s s.retryIn) ∧
    (on → extState (s.extEntry x) = 4 → s.nsRefused x = false →
      (s.plain.evicting = [x] → s.plain.flushing = [] → extPins (s.extEntry x) = 0 →
        Gives (.writebackComplete e true) s ((wrote.extSet x 60 3 0).dropFrame x).retryLoads ∧
        Gives (.writebackComplete e false) s ((back.extSet x 60 3 3).raise Reg.STR_PLN_STATUS 1).retryLoads) ∧
      (s.plain.evicting = [] → s.plain.flushing = [x] →
        Gives (.writebackComplete e true) s (wrote.extSet x 60 3 2).nvmeFlush ∧
        Gives (.writebackComplete e false) s ((back.extSet x 60 3 3).raise Reg.STR_PLN_STATUS 1).nvmeFlush)) ∧
    (x ∉ s.plain.evicting → x ∉ s.plain.flushing → Gives (.writebackComplete e true) s s) ∧
    (s.dev = stNight ∨ s.clock < s.due.evict → Gives .evictRetry s s) ∧
    (s.dev ≠ stNight → s.due.evict ≤ s.clock → Leads .evictRetry s fun t => t = s.evictAgain ∧ (s.plain.evictRetry = [] →
      t = { s with due := { s.due with evict := s.clock + 3000000 } })) ∧
    (s.mayWrite m (Reg.CDC_L_CTRL l) → bitAt v.toNat 1 = false →
      (s.rd (Reg.CDC_L_STATUS_BUSY l) ≠ 0 → Gives (.laneGo m l v) s (go.wr (Reg.CDC_L_STATUS_GO_IGNORED l) 1)) ∧
      (s.rd (Reg.CDC_L_STATUS_BUSY l) = 0 → (go.laneJob l).valid = true → Leads (.laneGo m l v) s fun t =>
        t.rd (Reg.CDC_L_STATUS_BUSY l) = 1 ∧ t.rd (Reg.CDC_L_STATUS_ERR l) = 0 ∧ t.lanes[l]? = some (some (go.laneJob l))) ∧
      (s.rd (Reg.CDC_L_STATUS_BUSY l) = 0 → (go.laneJob l).valid = false → Leads (.laneGo m l v) s fun t =>
        t.rd (Reg.CDC_L_STATUS_BUSY l) = 0 ∧ t.rd (Reg.CDC_L_STATUS_ERR l) = 4 ∧ t.lanes[l]? = some none)) ∧
    (s.mayWrite m (Reg.CDC_L_CTRL l) → bitAt v.toNat 0 = false →
      (s.laneRunning l = none → Gives (.laneFlush m l v lines diffs) s stop) ∧
      (∀ j, stop.laneRunning l = some j → lines < j.lines → j.flushAt = none →
        ((cut j).laneWork l { j with flushAt := some lines } diffs).stop ≠ some .refused →
        Gives (.laneFlush m l v lines diffs) s ((cut j).laneDone l diffs))) ∧
    (∀ j, s.laneRunning l = some j →
      let run := s.laneWork l j diffs
      (run.stop = none → j.flushAt = none → Gives (.laneDone l diffs) s (run.st.laneEnd l 0)) ∧
      (run.stop = none → j.flushAt.isSome = true → Gives (.laneDone l diffs) s
        (((run.st.laneEnd l 0).wr (Reg.CDC_L_STATUS_FLUSHED l) 1).inc (Reg.CDC_L_CNT_FLUSH_COUNT l))) ∧
      (run.stop = some .source → Gives (.laneDone l diffs) s (run.st.laneEnd l 2)) ∧
      (run.stop = some .refused → Gives (.laneWriteRefused l diffs) s (run.st.laneEnd l 3))) ∧
    (∀ j, s.lanes[l]? = some (some j) → Leads (.laneSourceReadError l lines diffs) s fun t =>
      t.rd (Reg.CDC_L_STATUS_BUSY l) = 0 ∧ t.rd (Reg.CDC_L_STATUS_ERR l) = 2 ∧ t.lanes[l]? = some none) ∧
    (∀ c, c < 8 → (s.laneEnd l c).rd (Reg.CDC_L_STATUS_BUSY l) = 0 ∧ (s.laneEnd l c).rd (Reg.CDC_L_STATUS_ERR l) = c ∧
      (c = 0 → (s.laneEnd l c).rd (Reg.CDC_L_STATUS_DONE l) = 1))

/-- The streamers (R121 to R125, R129, R130, R144). Arming needs the seven banks of the area, and else sets `BUF_ERR`; disarming and withdrawal
empty the queue. A push joins a queue of fewer than two entries, or sets `QUEUE_ERR`. A head entry whose prefetch time has come fills band 0,
and an EMPTY half the next band. A burst is issued at most every 2,268 ticks, with fewer than eight in flight and room in the staging ring of 82; it
lands in the ring, and one whose entry is gone is counted and dropped. How many landed bursts the decoders have consumed by then is the
environment's (log 7). Once the last line write is accepted the half stays as it is in that tick, and in a later one becomes FILLED, or EMPTY
where BTM has released its band. The conflict counters clear together. Where the spec does not say what a command out of its turn does, that
it changes nothing is the model's choice (log 4), and so is that a burst in flight holds a place of the ring (log 72). -/
def Obligations.Streamers : Prop :=
  ∀ (s : State) (m : Master) (k : Fin 8) (v : RegWord) (n : Nat),
    let may := s.mayWrite m (Reg.STR_S_CTRL k)
    let armed := s.rd (Reg.STR_S_STATE_ARMED k)
    let u := s.wr (Reg.STR_S_CTRL_FIRST_BANK k) (bitsOf (withBit v 0 true).toNat 8 6)
    let x := s.strOf k
    let page := v.toNat % 256
    let tag := bitsOf v.toNat 8 6
    let pushes := s.rd Reg.STR_CTRL_EN = 1 ∧ armed = 1 ∧ s.fenced k = false ∧ x.queue.length < 2 ∧ s.pg page = pgBound ∧
      s.rd (Reg.PSQ_PG_STATE_SHEET page) = tag ∧ bitAt (s.pgStations page) k = true ∧ bitAt (s.rd (Reg.PSQ_SH_CTRL_STATIONS tag)) k = true
    let w := s.drain k n
    let room := (∀ t, (w.strOf k).lastIssue = some t → t + 2268 ≤ w.clock) ∧ (w.strOf k).flight.length < 8 ∧
      (w.strOf k).flight.length + (w.strOf k).ring.length < 82
    let landed := ((s.updStr k fun x => { x with flight := x.flight.tail }).inc (Reg.STR_S_CNT_BURSTS_COUNT k)).count 16 0 64
    let z := s.drain k 82
    (s.mayWrite m Reg.STR_CTRL → Gives (.strDisable m) s ((s.wr Reg.STR_CTRL_EN 0).withdrawAll fun _ => true)) ∧
    (may → armed = 0 → bitAt v.toNat 1 = false → bitsOf v.toNat 8 6 ≤ 57 → u.areaGranted k = true → k.val < s.stations →
      Leads (.streamerArm m k v) s fun t => t.rd (Reg.STR_S_STATE_ARMED k) = 1 ∧ t.rd (Reg.STR_S_CTRL_EN k) = 1 ∧
        t.rd (Reg.STR_S_CTRL_FIRST_BANK k) = bitsOf v.toNat 8 6) ∧
    (may → armed = 0 → bitAt v.toNat 1 = false → 57 < bitsOf v.toNat 8 6 ∨ u.areaGranted k = false →
      Gives (.streamerArm m k v) s (u.raiseInst Reg.STR_STATUS 1 Reg.STR_FIRST_STATION_STATION k)) ∧
    (may → armed = 1 → bitAt v.toNat 1 = false → Gives (.streamerDisarm m k v) s (s.disarm k)) ∧
    (s.disarm k).rd (Reg.STR_S_STATE_ARMED k) = 0 ∧ ((s.disarm k).strOf k).queue = [] ∧
    (may → Leads (.withdraw m k v) s fun t => (t.strOf k).queue = []) ∧
    (s.mayWrite m (Reg.STR_S_Q_PUSH k) → (pushes → Leads (.strQPush m k v) s fun t => (t.strOf k).queue = x.queue ++
        [{ page := page, tag := tag, seq := s.shSeq tag, time := s.rd64 (Reg.STR_S_Q_TIME_LO k) (Reg.STR_S_Q_TIME_HI k), started := false }]) ∧
      (¬pushes → Gives (.strQPush m k v) s (s.raiseInst Reg.STR_STATUS 3 Reg.STR_FIRST_STATION_STATION k))) ∧
    (∀ e rest, x.queue = e :: rest →
      (e.started = false → e.time ≤ s.meridian → s.half k 0 = 0 → s.half k 1 = 0 → s.rd Reg.STR_CTRL_EN = 1 → armed = 1 → x.fill = none →
        s.rd Reg.CDC_CTRL_EN = 1 → Gives (.prefetchStart k) s
          ((s.updStr k fun x => { x with queue := { e with started := true } :: rest, next := 0 }).startFill k e)) ∧
      (e.started = true → s.fillDue k e = true → Gives (.bandFillStart k) s (s.startFill k e)) ∧
      (s.fillDue k e = false → Gives (.bandFillStart k) s s)) ∧
    (∀ f b rest, (w.strOf k).fill = some f → f.todo = b :: rest →
      (room → Leads (.burstIssue k n) s fun t => (t.strOf k).flight = (w.strOf k).flight ++ [b] ∧
        (t.strOf k).lastIssue = some w.clock ∧ (t.strOf k).fill = some { f with todo := rest }) ∧
      (¬room → Gives (.burstIssue k n) s w)) ∧
    (x.flight = [] → Gives (.burstLand k n) s (s.drain k n)) ∧
    (∀ b rest, x.flight = b :: rest →
      (b.live = false → Gives (.burstLand k n) s ((landed.inc (Reg.STR_S_CNT_WDRAW_COUNT k)).drain k n)) ∧
      (b.live = true → s.plainFails b.addr 4096 = some .missing → Gives (.burstLand k n) s ((s.plainTouch b.addr).drain k n)) ∧
      (b.live = true → s.plainFails b.addr 4096 ≠ some .missing →
        Gives (.burstLand k n) s ((landed.landLive k b (s.plainFails b.addr 4096).isSome).drain k n))) ∧
    (∀ b failed, let t := s.landLive k b failed
      (t.strOf k).ring = x.ring ++ [{ burst := b, place := x.ringNext, failed := failed }] ∧
        (t.strOf k).ringNext = (x.ringNext + 1) % 82 ∧ (failed = true → t.rd Reg.STR_STATUS_READ_ERR = 1)) ∧
    (∀ f, (z.strOf k).fill = some f →
      (fillEnded f = true → (∀ t ∈ (z.strOf k).bad, t.goneAt ≠ none) → f.doneAt = none → Leads (.bandFillComplete k) s fun t =>
        (t.strOf k).fill = some { f with doneAt := some z.clock } ∧ t.half k (f.band % 2) = z.half k (f.band % 2)) ∧
      (fillEnded f = false → Gives (.bandFillComplete k) s z)) ∧
    (∀ f c, x.fill = some f → f.doneAt = some c → let t := s.fillSettle k
      (s.clock ≤ c → t = s) ∧ (c < s.clock → t.half k (f.band % 2) = (if f.band < x.released then 0 else 2) ∧
        (t.strOf k).fill = none ∧ (t.strOf k).next = f.band + 1)) ∧
    (s.mayWrite m Reg.VALE_CTRL → Leads (.valeConfClr m) s fun t => (∀ i, i < 16 → t.regView 12 (Reg.VALE_CONFLICT i) = 0) ∧
      t = { s with vale := { s.vale with waits := Vector.replicate 16 0 } })

/-- The DMA channels (R137 to R143). `GO` starts a legal job, refuses another with the `ERR` of its first failing check, and is ignored while
the channel runs. The engine moves one 4 KiB block of a channel at its turn. A job whose last write has left sets `DONE`; `STOP` ends it after
the present block with `STOPPED`, and with `DONE` only in the tick in which the last block completes; a stop of an idle channel does nothing.
A failed block halts the channel with `ERR`, the side and the address, a lost claim at the next block with `ERR` 3. How far a job has come
when it is stopped or fails outside this device is the environment's (log 7), and the details of a stop are the model's (log 24). -/
def Obligations.DmaChannels : Prop :=
  ∀ (s : State) (m : Master) (n : Fin 16) (v : RegWord) (block ofs : Nat) (write absent : Bool),
    let may := s.mayWrite m (Reg.DMA_D_CTRL n)
    let busy := s.rd (Reg.DMA_D_STATUS_BUSY n)
    let so (j : DmaJob) : DmaRun := { st := s, bytes := j.bytes, diff := j.diff, diffs := j.diffs, stop := none }
    (∀ p ∈ [(Instr.dmaCopy m n v, 0), (.dmaFill m n v, 1), (.dmaCompare m n v, 2), (.dmaFence m n v, 3)],
      let u := s.plainWrite (Reg.DMA_D_CTRL n) (bitsSet (withBit v 0 true).toNat 2 2 p.2)
      let j := u.dmaJob n
      may → bitAt v.toNat 1 = false → j.mode = p.2 ∧
        (busy ≠ 0 → Gives p.1 s (u.wr (Reg.DMA_D_STATUS_GO_IGNORED n) 1)) ∧
        (busy = 0 → u.dmaCheck n j ≠ 0 → Gives p.1 s ((u.wr (Reg.DMA_D_STATUS_ERR n) (u.dmaCheck n j)).raise Reg.DMA_STATUS n)) ∧
        (busy = 0 → u.dmaCheck n j = 0 → p.2 ≠ 3 ∨ j.dstKind ≠ 1 → Leads p.1 s fun t =>
          t.rd (Reg.DMA_D_STATUS_BUSY n) = 1 ∧ t.rd (Reg.DMA_D_STATUS_ERR n) = 0 ∧ t.rdw (Reg.DMA_D_DONE_BYTES n) = 0 ∧
            bitAt (t.rd Reg.DMA_BUSY_BUSY) n = true ∧ t.dmaRunning n = some j)) ∧
    (∀ j : DmaJob, (j.mode = 0 → j.srcKind ≠ 3 → j.srcKind ≠ 0 → j.dstKind ≠ 3 → j.dstKind ≠ 0 →
        (j.len = 0 ∨ j.len % 64 ≠ 0 ∨ j.src % 64 ≠ 0 ∨ j.dst % 64 ≠ 0 → s.dmaCheck n j = 1)) ∧
      (j.dstKind = 3 → s.dmaCheck n j = 6)) ∧
    (may → bitAt v.toNat 0 = false →
      let u := s.plainWrite (Reg.DMA_D_CTRL n) (withBit v 1 true).toNat
      let w := u.dmaReach n block
      (w.dmaRunning n = none → Gives (.dmaStop m n v block) s w) ∧ (u.dmaRunning n = none → w = u) ∧
      (∀ j, w.dmaRunning n = some j →
        let z := w.dmaReach n (j.done + 1)
        (j.mode = 3 → Gives (.dmaStop m n v block) s (w.dmaStopped n j)) ∧
        (j.mode ≠ 3 → j.blocks ≤ j.done → Gives (.dmaStop m n v block) s
          (if j.doneAt = some w.clock then (w.dropUncached j).dmaEnd n false else w.dmaStopped n j)) ∧
        (j.mode ≠ 3 → j.done < j.blocks → (z.dmaRunning n = none → Gives (.dmaStop m n v block) s z) ∧
          ∀ i, z.dmaRunning n = some i → Gives (.dmaStop m n v block) s (z.dmaStopped n i)))) ∧
    (s.dmaRunning n = none → Gives (.dmaDone n) s s ∧ Gives (.dmaBusError n ofs write absent) s s) ∧
    (∀ j, s.dmaRunning n = some j →
      let w := s.dmaReach n j.blocks
      (j.mode ≠ 3 → j.blocks ≤ j.done → Gives (.dmaDone n) s ((s.dropUncached j).dmaEnd n false)) ∧
      (j.mode = 3 → s.fenceStop n j = none → Gives (.dmaDone n) s (s.dmaEnd n false)) ∧
      (∀ i, w.dmaRunning n = some i → i.blocks ≤ i.done → Gives (.dmaDone n) s (w.dmaTurn n)) ∧
      (w.dmaRunning n = none → Gives (.dmaDone n) s w) ∧
      (∀ e wr k a, j.mode ≠ 3 → j.done < j.blocks → (j.lost = true → s.dmaTurn n = s.dmaHalt n 3 (j.mode = 1) (j.dst + 4096 * j.done)) ∧
        (j.lost = false → (s.dmaBlock n j).stop = some (.failed e wr k a) → s.dmaTurn n = (s.dmaBlock n j).fail n j e wr k a) ∧
        (j.lost = false → (s.dmaBlock n j).stop = none → let r := s.dmaBlock n j
          (s.dmaTurn n).dmaRunning n = some { j with done := j.done + 1, bytes := r.bytes, diff := r.diff, diffs := r.diffs,
                                                       doneAt := if j.done + 1 = j.blocks then some s.clock else none })) ∧
      (s.dmaFar j false = true → ofs < j.len → j.mode ≠ 3 → j.done = ofs / 4096 → Gives (.dmaBusError n ofs false absent) s
        (((so j).results n j).dmaHalt n (if absent then 5 else 4) false (j.src + ofs / 64 * 64))) ∧
      (s.dmaFar j false = true → j.mode = 3 → Gives (.dmaBusError n ofs false absent) s
        (((so j).results n j).dmaHalt n (if absent then 5 else 4) false j.dst)) ∧
      (s.dmaFar j true = true → ofs < j.len → j.mode < 2 → j.done = ofs / 4096 → let r := s.dmaPartial n j (ofs / 64 * 64)
        r.stop = none → Gives (.dmaBusError n ofs true absent) s
          ((r.results n j).dmaHalt n (if absent then 5 else 4) true (j.dst + ofs / 64 * 64))) ∧
      (s.dmaFar j write = false → j.mode ≠ 3 → Gives (.dmaBusError n ofs write absent) s w)) ∧
    (∀ stopped, let t := s.dmaEnd n stopped
      t.rd (Reg.DMA_D_STATUS_BUSY n) = 0 ∧ t.rd (if stopped then Reg.DMA_D_STATUS_STOPPED n else Reg.DMA_D_STATUS_DONE n) = 1 ∧
        bitAt (t.rd Reg.DMA_DONE_DONE) n = true ∧ t.dmaRunning n = none) ∧
    (∀ e w a, e < 8 → let t := s.dmaHalt n e w a
      t.rd (Reg.DMA_D_STATUS_BUSY n) = 0 ∧ t.rd (Reg.DMA_D_STATUS_ERR n) = e ∧ t.rd (Reg.DMA_D_STATUS_ERR_DIR n) = boolNat w ∧
        t.rdw (Reg.DMA_D_ERR_ADDR_LO n) = a % 2 ^ 32 ∧ bitAt (t.rdw Reg.DMA_STATUS) n = true)

/-! ## Stations -/

/-- Scan timing (R148 to R152). The SOS window opens ahead of the predicted SOS with the settings that wait. A SOS that is captured, in its
window or while acquiring, is logged to one tap, ends acquisition and begins the next facet; one that is missed is counted, and after
`SOS_MISS_MAX` misses the station acquires again. The facet number advances modulo the facets, or takes the number set. A line's end opens the EOS
window, in which EOS is logged or missed. The line ends at the computed end of dot 51,023. Where the spec does not say what a command out of
its turn does, that it changes nothing is the model's choice (log 4, 20), and so are the facet number that follows one past `FACETS` (log 71)
and that an acquiring station takes the window settings at the capture (log 74). -/
def Obligations.ScanTiming : Prop :=
  ∀ (s : State) (m : Master) (k : Fin 8) (tap : Fin 32) (v : RegWord), s.btmRuns k = true →
    let b := s.btmOf k
    let at_ := s.meridian * 32 + tap.val
    let acq := s.rd (Reg.BTM_STATE_ACQUIRE k) = 1
    let captured (dark : Nat) : State := s.updBtm k fun b => { b with misses := 0, caps := b.caps + 1, sosCap := at_, syncUntil := dark }
    let idle := if acq then ((captured s.meridian).windowSettings k).wr (Reg.BTM_STATE_ACQUIRE k) 0 else captured (s.meridian + 4)
    (∀ p, b.sos = some p → s.rd (Reg.BTM_STATE_ACQUIRE k) = 0 → b.open_ = none →
      (p + b.win.period * 32) / 32 - b.win.half ≤ s.meridian → Leads (.sosWindowOpen k) s fun t =>
        t = s.sosWindow k ∧ (t.btmOf k).open_ = some (p + b.win.period * 32, (p + b.win.period * 32) / 32 + s.rd (Reg.BTM_SOS_WIN_HALF k)) ∧
        (t.btmOf k).win = { period := s.rd (Reg.BTM_FACET_PERIOD_TICKS k), half := s.rd (Reg.BTM_SOS_WIN_HALF k),
                            eos := s.rd (Reg.BTM_EOS_WIN_TICKS k) } ∧ t.regs = s.regs) ∧
    (s.btmBalls k = true → acq ∨ (s.rd (Reg.BTM_STATE_ACQUIRE k) = 0 ∧ ∃ p c, b.open_ = some (p, c) ∧ s.meridian ≤ c) →
      (b.caps < 3 → Gives (.sosCapture k tap) s (idle.beginFacet k at_ true)) ∧
      (3 ≤ b.caps → Gives (.sosCapture k tap) s (((idle.wr (Reg.BTM_STATE_SOS_OK k) 1).updStation k).beginFacet k at_ true))) ∧
    (s.rd (Reg.BTM_STATE_ACQUIRE k) = 0 → (∃ p c, b.open_ = some (p, c) ∧ c < s.meridian) ∨
      (b.open_ = none ∧ ∀ p, b.sos = some p → s.meridian < (p + b.win.period * 32) / 32 - b.win.half) → Gives (.sosCapture k tap) s s) ∧
    (∀ p c, b.open_ = some (p, c) → c < s.meridian →
      let missed := ((s.updBtm k fun x => { x with misses := b.misses + 1, caps := 0 }).raise (Reg.BTM_STATUS k) 1).inc
        (Reg.BTM_CNT_SOS_MISS_COUNT k)
      (b.misses + 1 < b.cur.missMax → Gives (.sosMiss k) s ((missed.count 29 k 1).beginFacet k p false)) ∧
      (b.cur.missMax ≤ b.misses + 1 → Gives (.sosMiss k) s
        ((((missed.count 29 k 1).acquire k).updStation k).beginFacet k p false))) ∧
    (∀ p c, b.open_ = some (p, c) → s.meridian ≤ c → Gives (.sosMiss k) s s) ∧
    ((∀ i, b.idxArm = some i → i < b.app.facets → s.nextFacet k = i) ∧ (b.idxArm = none → b.numbered = true →
      s.nextFacet k = (s.rd (Reg.BTM_STATE_FACET k) + 1) % b.app.facets)) ∧
    (∀ t, b.imageEnd = some t →
      let drawn := (s.facetDots k).powerDue k
      let ended : State := drawn.updBtm k fun x => { x with imageEnd := none, eosUntil := some (t + x.win.eos) }
      (s.meridian < t → Gives (.lineEnd k) s s) ∧
      (t ≤ s.meridian → Gives (.lineEnd k) s (ended.lineFinish k)) ∧
      (∀ e, b.exp = some e → e.begun = true → let u := (s.releaseHalf k e.band e.tag e.seq).updBtm k fun x =>
          { x with exp := some { e with band := e.band + 1 } }
        s.lineFinish k = if u.pgBands e.page ≤ e.band + 1 then u.endExposure k else u) ∧
      (∀ n, b.exp = none → b.cal = some n → let u := s.updBtm k fun x => { x with cal := some (n + 1) }
        let most := s.rd (Reg.BTM_CAL_CFG_FACETS k)
        s.lineFinish k = if most ≠ 0 ∧ most ≤ n + 1 then u.endCal k else u) ∧
      (b.exp = none → b.cal = none → s.lineFinish k = s)) ∧
    (∀ t sos, b.eosUntil = some t → b.sos = some sos → b.imageEnd = none →
      (s.btmBalls k = true → s.meridian ≤ t → sos ≤ at_ → at_ - sos < 2 ^ 32 → (∀ j, s.powerJob k = some j → j.cal = true) →
        Leads (.eosCapture k tap) s fun u =>
          u.rdw (Reg.BTM_SCAN_LAST k) = at_ - sos ∧ u.rdw (Reg.BTM_SCAN k (s.rd (Reg.BTM_STATE_FACET k))) = at_ - sos ∧
          (u.btmOf k).eosUntil = none ∧ (u.btmOf k).eosAt = some s.meridian) ∧
      (t < s.meridian → let u := (s.updBtm k fun x => { x with eosUntil := none }).inc (Reg.BTM_CNT_EOS_MISS_COUNT k)
        Gives (.eosMiss k) s (if (s.powerJob k).any (fun j => !j.cal) then u.powerSkip k else u)) ∧
      (s.meridian ≤ t → Gives (.eosMiss k) s s)) ∧
    (b.eosUntil = none → b.imageEnd = none → Gives (.eosCapture k tap) s s ∧ Gives (.eosMiss k) s s) ∧
    (s.rd (Reg.BTM_STATE_DLL_LOCK k) = 0 → Gives (.dllLock k) s
      (((s.updBtm k fun x => { x with inReset := false }).wr (Reg.BTM_STATE_DLL_LOCK k) 1).updStation k)) ∧
    (s.rd (Reg.BTM_STATE_DLL_LOCK k) = 1 → Gives (.dllLock k) s s) ∧ (s.rd (Reg.BTM_STATE_DLL_LOCK k) = 0 → Gives (.dllUnlock k) s s) ∧
    (s.rd (Reg.BTM_STATE_DLL_LOCK k) = 1 → Gives (.dllUnlock k) s ((((s.wr (Reg.BTM_STATE_DLL_LOCK k) 0).raise (Reg.BTM_STATUS k) 7).inc
      (Reg.BTM_CNT_DLL_UNLOCK_COUNT k)).updStation k)) ∧
    (s.mayWrite m (Reg.BTM_FACET_IDX k) → let u := s.plainWrite (Reg.BTM_FACET_IDX k) (withBit v 4 true).toNat
      Gives (.facetIdxSet m k v) s ((u.wr (Reg.BTM_FACET_IDX_IDX_PENDING k) 1).btmSoon k))

/-- Exposures and the interlock (R58, R169 to R175). An EXPOSE waits for the next SOS where the station is READY, no exposure runs and the head
entry is its page, and is refused otherwise, as is a command with another `UNIT`; a refusal spoils its committed sheet. A calibration exposure starts in the Gap
alone, and a stop turns its beams off. A low interlock input latches the interlock at every station and holds every beam and LDEN off; a re-arm
needs its key and both inputs high for 1 ms of the clock. READY sets where its conditions hold. Where the spec does not say what a command out of its turn does, that it
changes nothing is the model's choice (log 4). -/
def Obligations.ExposuresAndInterlock : Prop :=
  ∀ (s : State) (m : Master) (k : Fin 8) (v : RegWord) (c : Cmd) (in1 : Bool),
    let due (op : Nat) : Prop := s.dueCmd (13 + k) = some c ∧ c.op = op ∧ s.coreClock = true
    let u := s.popCmd (13 + k)
    let mine := c.unit = 0
    let page := c.operand % 256
    let l := if in1 then { s.lsi with in1 := false, highSince := none } else { s.lsi with in0 := false, highSince := none }
    let h := if in1 then { s.lsi with in1 := true } else { s.lsi with in0 := true }
    let key := bitsOf v.toNat 8 8 = 0x5A
    (∀ t q e rest, due 1 → mine → c.tag = some (t, q) → (s.strOf k).queue = e :: rest → e.page = page → e.tag = t →
      s.rd (Reg.BTM_STATE_READY k) = 1 → (s.btmOf k).exp = none → Leads (.expose k) s fun x =>
        (x.btmOf k).exp = some { page := page, tag := t, seq := q, effect := c.due, band := 0, begun := false } ∧ x.regs = s.regs ∧
        x.pend = u.pend) ∧
    (¬mine → (due 1 → Gives (.expose k) s (u.btmRefuse k c)) ∧ (due 2 → Gives (.calStart k) s (u.btmRefuse k c)) ∧
      (due 3 → Gives (.calStop k) s (u.btmRefuse k c))) ∧
    (due 1 → c.tag = none ∨ s.rd (Reg.BTM_STATE_READY k) = 0 ∨ (s.btmOf k).exp.isSome = true ∨ (s.strOf k).queue = [] →
      Gives (.expose k) s (u.btmRefuse k c)) ∧
    (∀ t, c.op = 1 → c.tag = some (t, s.shSeq t) → s.btmRefuse k c =
      ((s.raise (Reg.BTM_STATUS k) 4).inc (Reg.BTM_CNT_EXP_REFUSED_COUNT k)).spoilIf t 0x21) ∧
    (due 2 → mine → (s.gapOpen = true → Leads (.calStart k) s fun x => (x.btmOf k).calNext = true ∧ x.regs = s.regs) ∧
      (s.gapOpen = false → Gives (.calStart k) s (u.btmRefuse k c))) ∧
    (due 3 → mine → ((s.btmOf k).cal.isSome = true ∨ (s.btmOf k).calNext = true → Gives (.calStop k) s (u.calOff k)) ∧
      ((s.btmOf k).cal = none → (s.btmOf k).calNext = false → Gives (.calStop k) s u)) ∧
    (let t := s.endCal k; (s.powerJob k = none → (t.btmOf k).cal = none ∧ (t.btmOf k).calNext = false ∧
      t.rd (Reg.BTM_STATE_CAL_ON k) = 0)) ∧
    (s.lsi.active = true → (∀ b, s.beamOut k b = false) ∧ s.lden k = false) ∧
    (∀ p ∈ [(Instr.expose k, 1), (.calStart k, 2), (.calStop k, 3)],
      (∀ c, s.dueCmd (13 + k) = some c → c.op ≠ p.2) → Gives p.1 s s) ∧
    (s.lsi.active = true → Gives (.lsiActivate in1) s { s with lsi := l }) ∧
    (s.lsi.active = false → Gives (.lsiActivate in1) s { s with lsi := l }.lsiActive) ∧
    (s.lsi.in0 ≠ s.lsi.in1 → Gives .lsiDisagree s { s with lsi := { s.lsi with disagree := true } }) ∧
    (s.lsi.in0 = s.lsi.in1 → Gives .lsiDisagree s s) ∧
    (h.in0 = true → h.in1 = true → s.lsi.highSince = none → Gives (.lsiInputsHigh in1) s { s with lsi := { h with highSince := some s.clock } }) ∧
    (∀ t, h.in0 = true → h.in1 = true → s.lsi.highSince = some t → Gives (.lsiInputsHigh in1) s { s with lsi := h }) ∧
    (h.in0 = false ∨ h.in1 = false → Gives (.lsiInputsHigh in1) s { s with lsi := { h with highSince := none } }) ∧
    (s.mayWrite m (Reg.BTM_LSI 0) →
      (∀ t, key → s.lsi.highSince = some t → t + 3000000 ≤ s.clock → Gives (.lsiRearm m v) s
        { s with lsi := { s.lsi with active := false, disagree := false } }.updStations) ∧
      (¬key ∨ s.lsi.highSince = none ∨ (∃ t, s.lsi.highSince = some t ∧ s.clock < t + 3000000) → Gives (.lsiRearm m v) s s)) ∧
    (s.rd (Reg.BTM_STATE_READY k) = 0 ∨ s.readyNow k = true → s.fenced k = false →
      (s.updStation k).rd (Reg.BTM_STATE_READY k) = boolNat (s.readyNow k))

/-- Beam tests and beam power (R184, R185, R189 to R191). A change of `INTERVAL` restarts the count; a due test takes the next beam of the
rotation, in a window or as a skip; an edge in the window, read to the tap, clears `CONSEC` and leaves the beam lit for four ticks more, and a
window without one counts it. A measurement starts with what the registers ask for, ends with its error, or stores the mean and the spread of
its facets; its interrupt is pending with `DONE`. Where the spec does not say what a command out of its turn does, that it changes nothing is
the model's choice (log 4, 21), and so is the first facet that a measurement takes (log 75). -/
def Obligations.BeamTestsAndPower : Prop :=
  ∀ (s : State) (m : Master) (k : Fin 8) (tap : Fin 32) (v : RegWord) (reading : BitVec 16), k.val < s.stations →
    let x := s.bmkOf k
    let cfg := s.plainWrite (Reg.BMK_S_TEST_CFG k) v.toNat
    let go := s.plainWrite (Reg.BMK_S_PWR_CTRL k) (withBit v 0 true).toNat
    let off : State := s.updBmk k fun b => { b with due := false, test := none }
    let sync := (s.btmOf k).cur.sosBeam
    let at_ := s.meridian * 32 + tap.val
    let sos := (s.btmOf k).sos.getD 0
    let busy := s.rd (Reg.BMK_S_PWR_STATUS_BUSY k)
    (s.mayWrite m (Reg.BMK_S_TEST_CFG k) → bitsOf v.toNat 0 8 ≠ s.rd (Reg.BMK_S_TEST_CFG_INTERVAL k) →
      Leads (.testCfgWrite m k v) s fun t => (t.bmkOf k).facets = 0 ∧ (t.bmkOf k).due = false) ∧
    (s.mayWrite m (Reg.BMK_S_TEST_CFG k) → bitsOf v.toNat 0 8 = s.rd (Reg.BMK_S_TEST_CFG_INTERVAL k) →
      cfg.rd (Reg.BMK_S_TEST_CFG_MISS_LIMIT k) ≠ 0 → (∀ b, b < 64 → cfg.dead k b = s.dead k b) → Gives (.testCfgWrite m k v) s cfg) ∧
    (x.due = false → Gives (.beamTest k) s s) ∧
    (x.due = true → off.nextBeam k sync = none → Gives (.beamTest k) s off) ∧
    (∀ b, x.due = true → off.nextBeam k sync = some b →
      let u : State := off.updBmk k fun y => { y with last := some b }
      (u.testSkipped k b = true → Leads (.beamTest k) s fun t => t.rd (Reg.BMK_S_TEST_STATE_LAST_BEAM k) = b % 64 ∧
        t.rd (Reg.BMK_S_TEST_STATE_LAST_PASS k) = 0 ∧ t.rd (Reg.BMK_S_TEST_STATE_LAST_SKIP k) = 1) ∧
      (u.testSkipped k b = false → Leads (.beamTest k) s fun t => (t.bmkOf k).test = some (u.testWindow k b)) ∧
      (let ofs := s.rd (Reg.BMK_S_XOFS_TICKS k b)
        let half := s.rd (Reg.BMK_S_TEST_CFG_WIN_HALF k)
        u.testWindow k b = { beam := b, opens := sos + (ofs - half) * 32, closes := sos + (ofs + half) * 32 })) ∧
    (x.test = none → Gives (.beamTestPass k tap) s s ∧ Gives (.beamTestMiss k) s s) ∧
    (∀ w, x.test = some w →
      (w.opens ≤ at_ → at_ ≤ w.closes → s.btmBalls k = true → w.beam < 64 → Leads (.beamTestPass k tap) s fun t =>
        t.rd (Reg.BMK_S_MISS_CONSEC k w.beam) = 0 ∧ t.rd (Reg.BMK_S_TEST_STATE_LAST_PASS k) = 1 ∧ (t.bmkOf k).test = none ∧
        (t.bmkOf k).lit = some (w.beam, s.meridian + 4) ∧ t.rdw (Reg.BMK_S_TEST_XLAST k) = (at_ - sos) % 2 ^ 32) ∧
      (at_ < w.opens ∨ w.closes < at_ → Gives (.beamTestPass k tap) s s) ∧
      (s.meridian * 32 ≤ w.closes → Gives (.beamTestMiss k) s s) ∧
      (w.closes < s.meridian * 32 → w.beam < 64 → s.rd (Reg.BMK_S_MISS_CONSEC k w.beam) + 1 < s.rd (Reg.BMK_S_TEST_CFG_MISS_LIMIT k) →
        Leads (.beamTestMiss k) s fun t =>
          t.rd (Reg.BMK_S_MISS_CONSEC k w.beam) = s.rd (Reg.BMK_S_MISS_CONSEC k w.beam) + 1 ∧ (t.bmkOf k).test = none ∧
          t.rd (Reg.BMK_S_TEST_STATE_LAST_PASS k) = 0)) ∧
    (s.mayWrite m (Reg.BMK_S_PWR_CTRL k) →
      (busy ≠ 0 → Gives (.powerMeasureGo m k v) s (go.wr (Reg.BMK_S_PWR_STATUS_GO_IGNORED k) 1)) ∧
      (busy = 0 → s.rd (Reg.BMK_S_PWR_CFG_TICKS k) ≠ 0 → s.lsi.active = false → s.rd (Reg.BTM_CTRL_EN k) = 1 →
        go.rd (Reg.BMK_S_PWR_CTRL_SRC k) = 0 → Leads (.powerMeasureGo m k v) s fun t => t.rdw (Reg.BMK_S_PWR_STATUS k) = 1 ∧
          (t.bmkOf k).values = [] ∧ (t.bmkOf k).job = some (go.powerAsked k)) ∧
      (busy = 0 → go.rd (Reg.BMK_S_PWR_CTRL_SRC k) = 0 → s.rd (Reg.BMK_S_PWR_CFG_TICKS k) = 0 → Leads (.powerMeasureGo m k v) s fun t =>
        t.rd (Reg.BMK_S_PWR_STATUS_BUSY k) = 0 ∧ t.rd (Reg.BMK_S_PWR_STATUS_ERR k) = 1 ∧ bitAt (t.rdw (Reg.BMK_S_STATUS k)) 3 = true)) ∧
    (∀ j, x.job = some j → x.values.length < 2 ^ j.avg → x.facetDone = false →
      (∀ e, s.powerEnd k j = some e → e ≤ s.meridian →
        (j.cal = true ∨ s.rd (Reg.BTM_STATE_ACQUIRE k) = 0 → Leads (.powerFacetIntegrate k reading) s fun t =>
          (t.bmkOf k).values = x.values ++ [reading.toNat] ∧ (t.bmkOf k).skipRun = 0 ∧ (t.bmkOf k).facetDone = true) ∧
        (j.cal = false → s.rd (Reg.BTM_STATE_ACQUIRE k) = 1 → Gives (.powerFacetIntegrate k reading) s (s.powerSkip k))) ∧
      (s.powerEnd k j = none ∨ (∃ e, s.powerEnd k j = some e ∧ s.meridian < e) → Gives (.powerFacetIntegrate k reading) s s) ∧
      (x.skipRun < 15 → ((s.powerSkip k).bmkOf k).skipRun = x.skipRun + 1 ∧ ((s.powerSkip k).bmkOf k).job = some j) ∧
      (15 ≤ x.skipRun → (s.powerSkip k).rd (Reg.BMK_S_PWR_STATUS_ERR k) = 2 ∧ ((s.powerSkip k).bmkOf k).job = none)) ∧
    (x.job = none → Gives (.powerFacetIntegrate k reading) s s ∧ Gives (.powerMeasureDone k) s s) ∧
    (∀ j, x.job = some j → x.values.length = 2 ^ j.avg → (∀ r ∈ x.values, r < 65536) → Leads (.powerMeasureDone k) s fun t =>
      t.rd (Reg.BMK_S_PWR_STATUS_BUSY k) = 0 ∧ t.rd (Reg.BMK_S_PWR_STATUS_DONE k) = 1 ∧ (t.bmkOf k).job = none ∧
      t.rd (Reg.BMK_S_PWR_RESULT_MEAN k) = quotient (x.values.foldl (· + ·) 0) (2 ^ j.avg) ∧
      (t.rd (Reg.BMK_S_IRQ_EN_DONE_EN k) = 1 → t.blockPending (2 + k) 21 = true))

/-! ## Motors and loops -/

/-- BLDC channels (R225, R229 to R240). START takes a claimed channel from COAST into DETECT with its start parameters; COAST turns the outputs of
a driven one off. A crossing of the watched phase, in RUN the due sample of a PWM period, times the commutation, takes a RAMP channel over, and
catches a DETECT channel or keeps it waiting; a skipped sample at or after the prediction counts as a crossing. Each of the failures of R233
ends in COAST with its `LAST_FAIL` and its source, a loss of synchronism and a handover with the end of the peripheral clock. The floating phase
has both switches off, and so has every leg of a channel that does not drive. Where the spec does not say what a command out of its turn does,
that it changes nothing is the model's choice (log 4, 18), and so is the timing of the outputs within a PWM period (log 77). -/
def Obligations.BldcChannels : Prop :=
  ∀ (s : State) (m : Master) (n : Fin 24) (p : Fin 3) (up : Bool) (v : RegWord) (c : Cmd),
    let b := s.bldOf n
    let due (op : Nat) : Prop := s.dueCmd 22 = some c ∧ c.op = op ∧ s.coreClock = true
    let u := s.popCmd 22
    let failed (code src : Nat) (t : State) : Prop := t.bl n = blCoast ∧ t.rd (Reg.BLD_C_STATE_LAST_FAIL n) = code ∧
      bitAt (t.rdw Reg.BLD_STATUS) src = true ∧ bitAt (t.rd Reg.BLD_RUNNING_RUN) n = false ∧ t.rdw (Reg.BLD_C_PERIOD n) = 0
    let x := crossSector p up (s.rd (Reg.BLD_C_CTRL_DIR n) = 1)
    let watched := x = s.rd (Reg.BLD_C_STATE_SECTOR n)
    let crosses := Gives (.bemfCrossing n p up) s
    let seen : State := (s.bldStamp n s.meridian).updBld n fun b => { b with crossSec := x }
    let out := s.rd (Reg.BLD_C_BEMF_PRED_MAX n) ≤ s.rd (Reg.BLD_C_STATE_PRED_RUN n) ∨
      (b.commAt = none ∧ b.unseen = true ∧ b.commLast + 2 * b.sector ≤ s.meridian)
    let off (t : State) : Prop := ∀ q, t.bldHigh n q = false ∧ t.bldLow n q = false
    (due 1 → c.unit = n →
      (s.bl n ≠ blCoast ∨ b.faulted = true → Gives (.bldStart .emitted) s u) ∧
      (s.bl n = blCoast → b.faulted = false → s.ballGranted n 0 = false → Gives (.bldStart .emitted) s (u.wr (Reg.BLD_C_STATE_LAST_FAIL n) 5)) ∧
      (s.bl n = blCoast → b.faulted = false → s.ballGranted n 0 = true → Leads (.bldStart .emitted) s fun t => t.bl n = blDetect ∧
        (t.bldOf n).since = s.meridian ∧ (t.bldOf n).cross = none ∧ (t.bldOf n).prm = s.bldStartPrm n ∧ bitAt (t.rd Reg.BLD_RUNNING_RUN) n = false)) ∧
    (due 1 → 24 ≤ c.unit → Gives (.bldStart .emitted) s (u.raise Reg.BLD_STATUS 5)) ∧
    (s.mayWrite m (Reg.BLD_C_CTRL n) → bitAt v.toNat 1 = false → s.bl n = blCoast → b.faulted = false → s.ballGranted n 0 = true →
      Leads (.bldStart (.written m n v)) s fun t => t.bl n = blDetect) ∧
    (s.mayWrite m (Reg.BLD_C_CTRL n) → s.bl n = blRun → Leads (.bldCoast (.written m n v)) s fun t => t.bl n = blCoast ∧ off t) ∧
    (due 2 → c.unit = n →
      (blDetect ≤ s.bl n → Leads (.bldCoast .emitted) s fun t => t.bl n = blCoast ∧ bitAt (t.rd Reg.BLD_RUNNING_RUN) n = false ∧
        t.rdw (Reg.BLD_C_PERIOD n) = 0 ∧ (t.bldOf n).commAt = none ∧ off t ∧
        t.rd (Reg.BLD_C_STATE_LAST_FAIL n) = s.rd (Reg.BLD_C_STATE_LAST_FAIL n)) ∧
      (s.bl n < blDetect → Gives (.bldCoast .emitted) s (u.bldOverrule n))) ∧
    (due 3 → c.unit = n →
      (s.rd (Reg.BLD_C_CTRL_DUTY_SRC n) = 1 → Gives (.bldDuty .emitted) s u) ∧
      (s.rd (Reg.BLD_C_CTRL_DUTY_SRC n) = 0 → Leads (.bldDuty .emitted) s fun t => t.rd (Reg.BLD_C_DUTY_DUTY n) = c.operand % 65536 ∧
        t.bl n = s.bl n)) ∧
    (s.bl n < blAlign → off s) ∧
    (s.bldSector n < 6 → s.bldHigh n (floatLeg (s.bldSector n)) = false ∧ s.bldLow n (floatLeg (s.bldSector n)) = false) ∧
    (∀ q, s.bl n = blRun → watched → ¬out → s.bldSampleDue n = true → s.bldBlind n = false → b.commAt = none → b.cross = some q →
      Leads (.bemfCrossing n p up) s fun t => (t.bldOf n).cross = some s.meridian ∧ (t.bldOf n).sector = s.meridian - q ∧
        (t.bldOf n).commAt = some (s.meridian + (30 - s.rd (Reg.BLD_C_BEMF_ADVANCE n)) * (s.meridian - q) / 60) ∧
        (t.bldOf n).predicted = false ∧ t.rd (Reg.BLD_C_STATE_PRED_RUN n) = 0 ∧
        (∀ g, b.times[5]? = some g → s.meridian - g < 2 ^ 32 → t.rdw (Reg.BLD_C_PERIOD n) = s.meridian - g)) ∧
    (s.bl n = blRun → s.bldSampleDue n = false ∨ s.bldBlind n = true → crosses s) ∧
    (s.bl n ≠ blDetect → ¬watched → crosses s) ∧ (s.bl n < blDetect ∨ s.bl n = blAlign → crosses s) ∧
    (s.bl n = blDetect →
      (b.cross = none → crosses seen) ∧
      (∀ q, b.cross = some q →
        (b.crossSec = s.nextSector n x → Leads (.bemfCrossing n p up) s fun t => t.bl n = blDetect ∧
          bitAt (t.rdw Reg.BLD_STATUS) 2 = true ∧ (t.bldOf n).cross = some s.meridian ∧ (t.bldOf n).crossSec = x) ∧
        (x = s.nextSector n b.crossSec → s.rd (Reg.BLD_C_CTRL_CATCH_EN n) = 1 → q < s.meridian →
          b.prm.hoHz * (6 * (s.meridian - q)) ≤ 3000000000 → Leads (.bemfCrossing n p up) s fun t => t.bl n = blRun ∧
            t.rd (Reg.BLD_C_STATE_SECTOR n) = x ∧ (t.bldOf n).joined = true) ∧
        (b.crossSec ≠ s.nextSector n x → s.rd (Reg.BLD_C_CTRL_CATCH_EN n) = 0 ∨ x ≠ s.nextSector n b.crossSec ∨
          3000000000 < b.prm.hoHz * (6 * (s.meridian - q)) → crosses seen))) ∧
    (∀ q, let f := s.rampFreq n s.meridian
      let near := 3 * 9000000000000000000 ≤ 4 * (6 * (s.meridian - q) * f) ∧ 4 * (6 * (s.meridian - q) * f) ≤ 5 * 9000000000000000000
      s.bl n = blRamp → watched → b.cross = some q →
      (q ≤ s.meridian → b.prm.hoHz * 3000000000 ≤ f → near →
        (b.prm.hoN ≤ b.good + 1 → Leads (.bemfCrossing n p up) s fun t => t.bl n = blRun ∧
          bitAt (t.rd Reg.BLD_RUNNING_RUN) n = true ∧ (t.bldOf n).joined = true) ∧
        (b.good + 1 < b.prm.hoN → Leads (.bemfCrossing n p up) s fun t => t.bl n = blRamp ∧ (t.bldOf n).good = b.good + 1)) ∧
      (f < b.prm.hoHz * 3000000000 ∨ ¬near → b.prm.hoN ≠ 0 → Leads (.bemfCrossing n p up) s fun t => t.bl n = blRamp ∧
        (t.bldOf n).good = 0)) ∧
    (∀ q, s.bl n = blRun → s.bldSampleDue n = true → s.bldBlind n = true → b.commAt = none → b.cross = some q →
      let a := s.bldPrediction n q
      let t := s.bldSample n
      t.rd (Reg.BLD_C_CNT_SKIP_COUNT n) = (s.rd (Reg.BLD_C_CNT_SKIP_COUNT n) + 1) % 2 ^ 32 ∧
        (b.skips ≤ 0 → a = q + b.sector) ∧ (a ≤ s.meridian + 1 → q + b.sector ≤ a + 2 * b.sector / 60 ∧ a ≤ q + b.sector + 2 * b.sector / 60) ∧
        (a ≤ s.meridian → (t.bldOf n).cross = some a ∧ (t.bldOf n).predicted = true ∧
          (t.bldOf n).commAt = some (a + (30 - s.rd (Reg.BLD_C_BEMF_ADVANCE n)) * b.sector / 60))) ∧
    (∀ t, s.bl n = blRun → ¬out → b.commAt = some t → t ≤ s.meridian → Leads (.commutation n) s fun w =>
      w.rd (Reg.BLD_C_STATE_SECTOR n) = (if s.rd (Reg.BLD_C_CTRL_DIR n) = 1 then s.rd (Reg.BLD_C_STATE_SECTOR n) + 5
        else s.rd (Reg.BLD_C_STATE_SECTOR n) + 1) % 6 ∧ (w.bldOf n).commAt = none ∧ (w.bldOf n).commLast = s.meridian ∧ w.bl n = blRun ∧
      w.rd (Reg.BLD_C_CNT_PRED_COUNT n) = (s.rd (Reg.BLD_C_CNT_PRED_COUNT n) + boolNat b.predicted) % 2 ^ 32 ∧
      w.rd (Reg.BLD_C_STATE_PRED_RUN n) = (if b.predicted = true then min 255 (s.rd (Reg.BLD_C_STATE_PRED_RUN n) + 1)
        else s.rd (Reg.BLD_C_STATE_PRED_RUN n))) ∧
    (s.bl n = blRun → b.commAt = none ∨ (∃ t, b.commAt = some t ∧ s.meridian < t) ∨ out → Gives (.commutation n) s s) ∧
    (s.bl n = blRamp → (9000000000000000000 ≤ 6 * (s.meridian - b.commLast) * s.rampFreq n b.commLast →
        Gives (.commutation n) s (s.bldStep n)) ∧
      (6 * (s.meridian - b.commLast) * s.rampFreq n b.commLast < 9000000000000000000 → Gives (.commutation n) s s)) ∧
    (s.bl n ≠ blRamp → s.bl n ≠ blRun → Gives (.commutation n) s s) ∧
    (s.bl n = blRun → out → Leads (.syncLost n) s fun t => t.bl n = blCoast ∧ (t.bldOf n).lost = true ∧
      bitAt (t.rd Reg.BLD_RUNNING_RUN) n = false ∧ off t) ∧
    (s.bl n ≠ blRun ∨ ¬out → Gives (.syncLost n) s s) ∧
    (let t := s.bldEnd n;
      (b.lost = true → t.rd (Reg.BLD_C_STATE_LAST_FAIL n) = 3 ∧ bitAt (t.rdw Reg.BLD_STATUS) 1 = true) ∧
      (b.lost = false → b.joined = true → t.rd (Reg.BLD_C_CNT_STARTS_COUNT n) = (s.rd (Reg.BLD_C_CNT_STARTS_COUNT n) + 1) % 2 ^ 32) ∧
      (t.bldOf n).lost = false ∧ (t.bldOf n).joined = false) ∧
    (s.bl n = blDetect → let quiet := s.bldQuietSince n + b.prm.quietMs * 3000000
      let late := b.since + b.prm.timeoutMs * 3000000
      (quiet ≤ s.meridian → Leads (.detectQuiet n) s fun t => t.bl n = blAlign ∧ t.rd (Reg.BLD_C_STATE_SECTOR n) = 0) ∧
      (s.meridian < quiet → Gives (.detectQuiet n) s s) ∧
      (s.meridian < quiet → late ≤ s.meridian → Leads (.detectTimeout n) s (failed 1 0)) ∧
      (quiet ≤ s.meridian ∨ s.meridian < late → Gives (.detectTimeout n) s s)) ∧
    (s.bl n ≠ blDetect → Gives (.detectQuiet n) s s ∧ Gives (.detectTimeout n) s s) ∧
    (s.bl n = blAlign → b.since + b.prm.alignMs * 3000000 ≤ s.meridian → Leads (.alignElapsed n) s fun t =>
      t.bl n = blRamp ∧ (t.bldOf n).since = s.meridian ∧ (t.bldOf n).commLast = s.meridian ∧ (t.bldOf n).good = 0) ∧
    (s.bl n ≠ blAlign ∨ s.meridian < b.since + b.prm.alignMs * 3000000 → Gives (.alignElapsed n) s s) ∧
    (s.bl n = blRamp → 2 * b.prm.hoHz * 3000000000 ≤ s.rampFreq n s.meridian → Leads (.rampFail n) s (failed 2 0)) ∧
    (s.bl n ≠ blRamp ∨ s.rampFreq n s.meridian < 2 * b.prm.hoHz * 3000000000 → Gives (.rampFail n) s s) ∧
    (s.bl n ≠ blOff → s.ballGranted n 0 = true → Leads (.bldDriverFault n true) s (failed 4 3)) ∧
    (s.bl n = blOff ∨ s.ballGranted n 0 = false → Gives (.bldDriverFault n true) s (s.updBld n fun b => { b with flt := true })) ∧
    Gives (.bldDriverFault n false) s (s.updBld n fun b => { b with flt := false })

/-- Stepper channels (R241 to R255). A move is refused without a claim, while one runs, with parameters that break R249 and in the peripheral
clock of a driver fault; else it starts, or is complete at once, after a move that completes in the same clock. The profile goes on by the
microsecond, and at the target the channel is idle. STOP holds, and a STOP of a moving channel and a fault lose the position, which a write of
`XACT` at rest or `CLR_LOST` restores. A winding under the chopper switches between drive and decay at its thresholds, and its offset follows the
majority of 16 cycles. A channel that neither holds nor moves has every output low, and of a winding's two outputs at most one is high. That a
channel in OFF takes no move is the model's choice (log 18). Where the spec does not say what a command out of its turn does, that it changes
nothing is the model's choice (log 4). -/
def Obligations.StepperChannels : Prop :=
  ∀ (s : State) (m : Master) (n : Fin 48) (w : Fin 2) (sense : Nat) (above : Bool) (v : RegWord) (c : Cmd),
    let x := s.stpOf n
    let due (op : Nat) : Prop := s.dueCmd 23 = some c ∧ c.op = op ∧ s.coreClock = true
    let u := s.popCmd 23
    let z := u.stpComplete n
    let granted := s.ballGranted (24 + n) 0
    let p := s.stpParams n
    let legal := p.vstart ≤ p.v1 ∧ p.v1 ≤ p.vmax ∧ p.vstop ≤ p.v1 ∧ 1 ≤ p.vstart ∧ 1 ≤ p.vstop ∧ 1 ≤ p.acc1 ∧ 1 ≤ p.acc2
    let refused (code : Nat) (t : State) : Prop := t.rd (Reg.STP_C_STATE_LAST_FAIL n) = code ∧ t.sp n = z.sp n ∧ t.xact n = s.xact n ∧
      t.rd (Reg.STP_C_CNT_REFUSED_COUNT n) = (s.rd (Reg.STP_C_CNT_REFUSED_COUNT n) + 1) % 2 ^ 32 ∧ t.stpOf n = z.stpOf n
    let starts (target : Nat) (t : State) : Prop := t.sp n = stpMoving ∧ t.rdw (Reg.STP_C_TARGET n) = target ∧
      t.rd (Reg.STP_C_VACT_SPEED n) = p.vstart ∧ t.xact n = s.xact n ∧ ∃ q, (t.stpOf n).move = some q ∧ q.prm = p ∧ q.target = target
    let goes (i : Instr) (target : Nat) : Prop :=
      (s.sp n = stpOff → Gives i s u) ∧
      (s.sp n ≠ stpOff → x.faulted = true → Gives i s (z.inc (Reg.STP_C_CNT_REFUSED_COUNT n))) ∧
      (s.sp n ≠ stpOff → x.faulted = false → granted = false → Leads i s (refused 4)) ∧
      (x.faulted = false → granted = true → z.sp n = stpMoving → Leads i s fun t => refused 2 t ∧ bitAt (t.rdw Reg.STP_STATUS) 1 = true) ∧
      (x.faulted = false → granted = true → z.sp n = stpIdle ∨ z.sp n = stpFree →
        (¬legal → Leads i s fun t => refused 1 t ∧ bitAt (t.rdw Reg.STP_STATUS) 0 = true) ∧
        (legal → target = s.xact n → Leads i s fun t => t.sp n = stpIdle ∧ t.rdw (Reg.STP_C_TARGET n) = target ∧
          t.rd (Reg.STP_C_CNT_MOVES_COUNT n) = (z.rd (Reg.STP_C_CNT_MOVES_COUNT n) + 1) % 2 ^ 32) ∧
        (legal → target ≠ s.xact n → Leads i s (starts target)))
    (∀ q, s.sp n = stpMoving → x.move = some q → z.sp n = if s.xact n = q.target then stpIdle else stpMoving) ∧
    (s.sp n ≠ stpMoving → z = u) ∧
    (due 1 → c.unit = n → c.operand < 2 ^ 32 → goes (.stpGoto .emitted) c.operand) ∧
    (due 2 → c.unit = n → goes .stpMove ((s.xact n + c.operand) % 2 ^ 32)) ∧
    (due 4 → c.unit = n → goes .stpGotoPreset (s.rdw (Reg.STP_C_PRESET n (c.operand % 4)))) ∧
    (s.mayWrite m (Reg.STP_C_CTRL n) → bitAt v.toNat 1 = false → s.sp n = stpIdle → x.faulted = false → granted = true → legal →
      x.written < 2 ^ 32 → x.written ≠ s.xact n → Leads (.stpGoto (.written m n v)) s (starts x.written)) ∧
    (due 3 → c.unit = n →
      (s.sp n = stpOff → Gives (.stpStop .emitted) s u) ∧
      (s.sp n ≠ stpOff → x.faulted = true → Gives (.stpStop .emitted) s (z.inc (Reg.STP_C_CNT_REFUSED_COUNT n))) ∧
      (x.faulted = false → z.sp n = stpMoving → Leads (.stpStop .emitted) s fun t => t.sp n = stpIdle ∧
        t.rd (Reg.STP_C_STATE_LAST_FAIL n) = 5 ∧ t.rd (Reg.STP_C_STATE_POS_LOST n) = 1 ∧ bitAt (t.rdw Reg.STP_STATUS) 2 = true ∧
        t.xact n = s.xact n ∧ (t.stpOf n).move = none) ∧
      (x.faulted = false → z.sp n = stpFree → Leads (.stpStop .emitted) s fun t => t.sp n = stpIdle ∧ t.xact n = s.xact n ∧
        t.rd (Reg.STP_C_STATE_POS_LOST n) = s.rd (Reg.STP_C_STATE_POS_LOST n)) ∧
      (x.faulted = false → z.sp n = stpIdle → Leads (.stpStop .emitted) s fun t => t.regs = z.regs)) ∧
    (due 3 → 48 ≤ c.unit → Gives (.stpStop .emitted) s (u.raise Reg.STP_STATUS 5)) ∧
    (∀ q, s.mayWrite m (Reg.STP_C_CTRL n) → bitAt v.toNat 0 = false → s.sp n = stpMoving → x.move = some q → s.xact n ≠ q.target →
      x.faulted = false → Leads (.stpStop (.written m n v)) s fun t => t.sp n = stpIdle ∧ t.rd (Reg.STP_C_STATE_POS_LOST n) = 1) ∧
    (x.move = none ∨ s.sp n ≠ stpMoving ∨ s.clock < x.nextAt → Gives (.profileUpdate n) s s) ∧
    (∀ q, let ph := if s.rd (Reg.STP_C_STATE_PHASE n) = 3 ∨ brakes q (s.stpRest n q) = true then 3 else 1
      let next := nextSpeed q ph
      x.move = some q → s.sp n = stpMoving → s.xact n ≠ q.target → x.nextAt ≤ s.clock → next.1 / 1000000 < 2 ^ 22 → Leads (.profileUpdate n) s fun t =>
        t.rd (Reg.STP_C_STATE_PHASE n) = next.2 ∧ t.rd (Reg.STP_C_VACT_SPEED n) = next.1 / 1000000 ∧ t.sp n = stpMoving ∧
        (t.stpOf n).nextAt = x.nextAt + 3000 ∧
        ∃ r, (t.stpOf n).move = some r ∧ r.speed = next.1 ∧ r.prm = q.prm ∧ r.target = q.target) ∧
    (∀ q, x.move = some q → s.sp n = stpMoving →
      (s.xact n = q.target → Leads (.moveComplete n) s fun t => t.sp n = stpIdle ∧ (t.stpOf n).move = none ∧ t.xact n = q.target ∧
        t.rdw (Reg.STP_C_VACT n) = 0 ∧ t.rd (Reg.STP_C_CNT_MOVES_COUNT n) = (s.rd (Reg.STP_C_CNT_MOVES_COUNT n) + 1) % 2 ^ 32) ∧
      (s.xact n ≠ q.target → Gives (.moveComplete n) s s)) ∧
    (x.move = none ∨ s.sp n ≠ stpMoving → Gives (.moveComplete n) s s) ∧
    (granted = true → s.sp n ≠ stpOff → Leads (.stpDriverFault n true) s fun t => t.sp n = stpFree ∧ t.rd (Reg.STP_C_STATE_LAST_FAIL n) = 3 ∧
      bitAt (t.rdw Reg.STP_STATUS) 3 = true ∧ t.xact n = s.xact n ∧ (∀ o, t.stpOutput n w o = false) ∧
      (x.before = none → s.sp n = stpIdle ∨ s.sp n = stpMoving → t.rd (Reg.STP_C_STATE_POS_LOST n) = 1)) ∧
    (s.sp n = stpOff ∨ granted = false → Gives (.stpDriverFault n true) s (s.updStp n fun c => { c with flt := true })) ∧
    Gives (.stpDriverFault n false) s (s.updStp n fun c => { c with flt := false }) ∧
    (s.mayWrite m (Reg.STP_C_XACT n) → let y := s.stpComplete n
      (y.sp n = stpMoving → Gives (.xactWrite m n v) s (y.raiseInst Reg.STP_STATUS 1 Reg.STP_FIRST_CHANNEL_CHANNEL n)) ∧
      (y.sp n ≠ stpMoving → Leads (.xactWrite m n v) s fun t => t.xact n = v.toNat ∧ t.rd (Reg.STP_C_STATE_POS_LOST n) = 0 ∧
        t.sp n = y.sp n)) ∧
    (s.mayWrite m (Reg.STP_C_CTRL n) → bitAt v.toNat 0 = false → bitAt v.toNat 1 = false → Leads (.clrLost m n v) s fun t =>
      t.rd (Reg.STP_C_STATE_POS_LOST n) = 0 ∧ t.xact n = s.xact n ∧ t.sp n = s.sp n) ∧
    (s.sp n ≠ stpIdle → s.sp n ≠ stpMoving → ∀ o, s.stpOutput n w o = false) ∧
    ¬(s.stpOutput n w 0 = true ∧ s.stpOutput n w 1 = true) ∧
    (s.stpChops n = true → s.stpCrosses n w sense = true →
      Leads (.chopThreshold n w sense above) s fun t => (t.stpOf n).drive[w] = !x.drive[w] ∧ (t.stpOf n).turnedAt[w] = s.clock ∧
        (t.stpOf n).cycles[w] = (if x.drive[w] = true ∨ s.rd (Reg.STP_C_CTRL_ADAPT_EN n) = 0 then x.cycles[w]
          else if x.cycles[w] < 16 then x.cycles[w] + 1 else 1)) ∧
    (s.stpChops n = false ∨ s.stpCrosses n w sense = false → Gives (.chopThreshold n w sense above) s s) ∧
    (s.rd (Reg.STP_C_CTRL_CHOP_EN n) = 1 → s.rd (Reg.STP_C_CTRL_ADAPT_EN n) = 1 → 16 ≤ x.cycles[w] →
      let o := signedOf (s.rd (ofsFld n w)) 6
      (-1920 ≤ s.tmax → Leads (.ofsAdapt n w) s fun t => (t.stpOf n).cycles[w] = 0 ∧ (t.stpOf n).above[w] = 0 ∧
        (x.cycles[w] < 2 * x.above[w] → signedOf (t.rd (ofsFld n w)) 6 = min 31 (o + 1)) ∧
        (2 * x.above[w] < x.cycles[w] → signedOf (t.rd (ofsFld n w)) 6 = max (-32) (o - 1)) ∧
        (2 * x.above[w] = x.cycles[w] → t.rd (ofsFld n w) = s.rd (ofsFld n w))) ∧
      (s.tmax < -1920 → Leads (.ofsAdapt n w) s fun t => (t.stpOf n).cycles[w] = 0 ∧
        (signedOf (t.rd (ofsFld n w)) 6 = min 31 (o + 1) ∨ signedOf (t.rd (ofsFld n w)) 6 = max (-32) (o - 1)))) ∧
    (x.cycles[w] < 16 ∨ s.rd (Reg.STP_C_CTRL_CHOP_EN n) = 0 ∨ s.rd (Reg.STP_C_CTRL_ADAPT_EN n) = 0 → Gives (.ofsAdapt n w) s s)

/-- Prairie loops (R257 to R269, R271). A frame start, 1,000 peripheral clocks after the one before, advances the frame number, reports the load,
and says that a computation overran. A due slot samples at its instant, holds where its input is lost, and queues its computation once its history
is deep enough; the unit takes the first of the queue, computes with what it reads then, and its result stands 20 peripheral clocks later. ON, OFF,
SYNC, SET and CAP act as their table gives, after the exchanges of a Gap that opens then, and an exchange swaps the sets of two slots. Where the
spec does not say what a command out of its turn does, that it changes nothing is the model's choice (log 4, 26), and so is that a discard frees
the unit (log 79). -/
def Obligations.PrairieLoops : Prop :=
  ∀ (s : State) (m : Master) (n k : Fin 128) (v : RegWord) (c : Cmd),
    let due (op : Nat) : Prop := s.dueCmd 24 = some c ∧ c.op = op ∧ c.unit = n ∧ s.coreClock = true
    let u := (s.popCmd 24).gapOpening
    let g := s.gapOpening
    let idle (t : State) : Prop := (∀ e ∈ t.pra.queue, e.1 ≠ n) ∧ (∀ r, t.pra.run = some r → r.slot ≠ n)
    let fresh (t : State) : Prop := let preload := t.rd (Reg.PRA_L_PRELOAD_PRELOAD n)
      t.pr n = prPreload ∧ t.rd (Reg.PRA_L_OUT_Y n) = preload ∧ t.praI n = preload * 65536 ∧ (t.slotOf n).hist = [] ∧ idle t
    let l := s.loop n
    let hi := min (s.rd (Reg.PRA_L_LIMIT_OUT_MAX n)) (s.rd (Reg.PRA_L_CAP_CAP n))
    let lo := min (s.rd (Reg.PRA_L_LIMIT_OUT_MIN n)) hi
    let gain (r : Nat) : Int := signedOf (s.rdw r) 32
    let raw := (gain (Reg.PRA_L_KP n) * l.e + s.praI n + gain (Reg.PRA_L_KD n) * (l.e - (s.slotOf n).ePrev.getD l.e)) / 65536
    let locked := s.rd (Reg.PRA_L_STATE_LOCKED n)
    (s.pra.frame = none ∨ s.periphClock = false ∨ s.framePhase < 12000 → Gives .frameStart s s) ∧
    (∀ f, s.pra.frame = some f → s.periphClock = true → 12000 ≤ s.framePhase → Leads .frameStart s fun t =>
      t.pra.frame = some ((f + 1) % 2 ^ 64) ∧ t.pra.frameAt = s.pra.frameAt + 12000 ∧
      t.pra.due = 0 ∧ t.rdw Reg.ADC_FRAME = (f + 1) % 2 ^ 32 ∧ t.rd Reg.PRA_LOAD_LAST = min 255 s.pra.due ∧
      t.rd Reg.PRA_LOAD_MAX = max (min 255 s.pra.due) (s.rd Reg.PRA_LOAD_MAX) ∧
      (s.pra.queue ≠ [] ∨ (∃ r, s.pra.run = some r ∧ s.clock < r.stop) → bitAt (t.rdw Reg.PRA_STATUS) 0 = true)) ∧
    (∀ f, s.pra.frame = some f → s.periphClock = true → s.pr n ≠ prOff → (s.slotOf n).sampled ≠ some f → s.praDue n f = true →
      s.praInstant n ≤ s.framePhase →
      let z := forUpTo 4 s State.adcDue
      let x : State := z.updSlot n fun l => { l with sampled := some f }
      let y : State := { x with pra := { x.pra with due := z.pra.due + 1 } }
      let depth := 2 ^ min 4 (s.rd (Reg.PRA_L_CTRL_FILT n))
      (z.praValid n = false → s.pr n ≠ prHold → Leads (.slotSample n) s fun t => t.pr n = prHold ∧
        t.rd (Reg.PRA_L_OUT_Y n) = s.rd (Reg.PRA_L_OUT_Y n) ∧ bitAt (t.rdw Reg.PRA_STATUS) 4 = true ∧ idle t) ∧
      (z.praValid n = false → s.pr n = prHold → Gives (.slotSample n) s y) ∧
      (z.praValid n = true → s.pr n = prHold → Gives (.slotSample n) s ((y.praSync n).praTake n)) ∧
      (z.praValid n = true → s.pr n ≠ prHold → Leads (.slotSample n) s fun t =>
        (t.slotOf n).hist = (z.praPv n :: (s.slotOf n).hist).take depth ∧ t.rd (Reg.PRA_L_OUT_Y n) = s.rd (Reg.PRA_L_OUT_Y n) ∧
        ((s.slotOf n).hist.length + 1 < depth → t.pr n = s.pr n ∧ t.pra.queue = s.pra.queue) ∧
        (depth ≤ (s.slotOf n).hist.length + 1 → t.pr n = prRun ∧ t.pra.queue = praInsert n s.clock s.pra.queue))) ∧
    (s.pr n = prOff → Gives (.slotSample n) s s) ∧ (s.pra.frame = none → Gives (.slotSample n) s s) ∧
    (∀ f, s.pra.frame = some f → (s.slotOf n).sampled = some f ∨ s.praDue n f = false ∨ s.framePhase < s.praInstant n →
      Gives (.slotSample n) s s) ∧
    (l.y = (if (hi : Int) < raw then hi else if raw < lo then lo else raw.toNat) ∧
      l.sat = (decide ((hi : Int) < raw) || decide (raw < lo) || s.extSat n) ∧
      l.integ = (if l.sat = true then s.praI n else s.praI n + gain (Reg.PRA_L_KI n) * l.e) ∧
      l.policy = decide ((s.rd (Reg.PRA_L_CAP_CAP n) : Int) < raw ∧ s.rd (Reg.PRA_L_CAP_CAP n) < s.rd (Reg.PRA_L_LIMIT_OUT_MAX n))) ∧
    (∀ t rest, s.pra.queue = (n.val, t) :: rest → s.pra.run = none → s.periphClock = true → max t s.pra.freeAt + 12 ≤ s.clock →
      s.praStart.pra.run = some { slot := n, from_ := t, stop := max t s.pra.freeAt + 240, res := l } ∧ s.praStart.pra.queue = rest) ∧
    (s.pra.run = none → Gives .loopComputation s s) ∧
    (∀ r, s.pra.run = some r → (s.periphClock = false ∨ s.clock < r.stop → Gives .loopComputation s s) ∧
      (s.periphClock = true → r.stop ≤ s.clock → r.slot = n → let inside := r.res.e.natAbs ≤ s.rd (Reg.PRA_L_LOCK_BAND n)
        Leads .loopComputation s fun z => z.pra.run = none ∧ z.pra.freeAt = r.stop ∧ z.pra.queue = s.pra.queue ∧
          z.rd (Reg.PRA_L_OUT_Y n) = r.res.y % 65536 ∧ z.rd (Reg.PRA_L_STATE_SAT n) = boolNat r.res.sat ∧
          z.praI n = max (-140737488355328) (min 140737488355327 r.res.integ) ∧
          z.rd (Reg.PRA_L_STATE_POLICY_LIMITED n) = boolNat r.res.policy ∧
          z.rdw (Reg.PRA_L_ERR n) = toBits (fitInt r.res.e) 32 ∧ (z.slotOf n).ePrev = some r.res.e ∧
          z.rd (Reg.PRA_L_CNT_SAMPLES_COUNT n) = (s.rd (Reg.PRA_L_CNT_SAMPLES_COUNT n) + 1) % 2 ^ 32 ∧
          z.rd (Reg.PRA_L_DELAY_LAST n) = min 65535 ((r.stop - r.from_) / 12) ∧
          (locked = 0 → (z.rd (Reg.PRA_L_STATE_LOCKED n) = 1 ↔
            s.pr n = prRun ∧ inside ∧ s.rd (Reg.PRA_L_LOCK_LOCK_N n) ≤ (s.slotOf n).inRun + 1)) ∧
          (locked = 1 → (z.rd (Reg.PRA_L_STATE_LOCKED n) = 0 ↔
            s.pr n = prRun ∧ ¬inside ∧ s.rd (Reg.PRA_L_LOCK_UNLOCK_N n) ≤ (s.slotOf n).outRun + 1)))) ∧
    (due 1 →
      (u.pr n ≠ prOff ∨ u.rd Reg.PRA_CTRL_EN = 0 → Gives (.praOn .emitted) s u) ∧
      (u.pr n = prOff → u.rd Reg.PRA_CTRL_EN = 1 → 4 < u.rd (Reg.PRA_L_SRC_KIND n) → Leads (.praOn .emitted) s fun t => t.pr n = prOff ∧
        bitAt (t.rdw Reg.PRA_STATUS) 2 = true) ∧
      (u.pr n = prOff → u.rd Reg.PRA_CTRL_EN = 1 → u.rd (Reg.PRA_L_SRC_KIND n) ≤ 4 → Leads (.praOn .emitted) s fresh)) ∧
    (due 2 →
      (u.pr n = prOff → Gives (.praOff .emitted) s u) ∧
      (u.pr n ≠ prOff → Leads (.praOff .emitted) s fun t => t.pr n = prOff ∧ t.rd (Reg.PRA_L_OUT_Y n) = 0 ∧ idle t)) ∧
    (due 3 → Gives (.praSet .emitted) s (u.wrw (Reg.PRA_L_SP n) c.operand)) ∧
    (due 4 → (u.pr n = prOff → Gives (.praSync .emitted) s u) ∧ (u.pr n ≠ prOff → Leads (.praSync .emitted) s fresh)) ∧
    (due 5 → Leads (.praCap .emitted) s fun t => t.rd (Reg.PRA_L_CAP_CAP n) = c.operand % 65536 ∧
      t.rd (Reg.PRA_L_OUT_Y n) = u.rd (Reg.PRA_L_OUT_Y n) ∧ t.pra = u.pra) ∧
    (s.dueCmd 24 = some c → c.op = 1 → 128 ≤ c.unit → Gives (.praOn .emitted) s (u.raise Reg.PRA_STATUS 2)) ∧
    (s.mayWrite m (Reg.PRA_L_CTRL n) → bitAt v.toNat 0 = false → bitAt v.toNat 1 = false → g.pr n ≠ prOff →
      Leads (.praSync (.written m n v)) s fresh) ∧
    (s.mayWrite m (Reg.PRA_L_SP n) → Gives (.praSet (.written m n v)) s (g.wrw (Reg.PRA_L_SP n) v.toNat)) ∧
    (s.mayWrite m (Reg.PRA_L_SWAP n) → let w := s.plainWrite (Reg.PRA_L_SWAP n) (withBit v 8 true).toNat
      (s.dev ≠ stDawn → s.dev ≠ stMorning → Leads (.swapRequest m n v) s fun t => t.rd (Reg.PRA_L_SWAP_PENDING n) = 1 ∧
        t.rd (Reg.PRA_L_SWAP_WITH n) = v.toNat % 128 ∧ t.rdw (Reg.PRA_L_KP n) = g.rdw (Reg.PRA_L_KP n)) ∧
      (s.dev = stDawn ∨ s.dev = stMorning → (∀ j : Fin 128, j ≠ n → s.rd (Reg.PRA_L_SWAP_PENDING j) = 0) → v.toNat % 128 = k →
        (s.praComputes n = true → Leads (.swapRequest m n v) s fun t => t.rd (Reg.PRA_L_SWAP_PENDING n) = 1 ∧ n.val ∈ t.pra.swapWait) ∧
        (s.praComputes n = false → s.pr k = prOff → k ≠ n → Leads (.swapRequest m n v) s fun t =>
          (∀ o ∈ [0x14, 0x18, 0x1C, 0x20], t.rdw (0x181000 + 0x80 * n + o) = s.rdw (0x181000 + 0x80 * k + o) ∧
            t.rdw (0x181000 + 0x80 * k + o) = s.rdw (0x181000 + 0x80 * n + o)) ∧
          t.rd (Reg.PRA_L_SWAP_PENDING n) = 0 ∧ t.rdw (Reg.PRA_L_SP n) = s.rdw (Reg.PRA_L_SP n) ∧ t.praI n = s.praI n) ∧
        (s.praComputes n = false → s.pr k ≠ prOff ∨ k = n → Gives (.swapRequest m n v) s
          (((w.wr (Reg.PRA_L_SWAP_PENDING n) 1).wr (Reg.PRA_L_SWAP_PENDING n) 0).praRaise 1 n)))) ∧
    (s.mayWrite m Reg.PRA_LOAD → Gives (.loadClr m) s (g.wr Reg.PRA_LOAD_MAX 0))

/-- Conversions and sensors (R210, R272 to R275). A conversion is trimmed and stored with its entry, or as an invalid 0 where the ball is not the
ADC's; entry 10a of a frame is the supervisor's rail. Each converter goes through its 40 entries in order, one in 100 ns. A bank is asked for and taken at a frame start, unless it names another converter's
input. An edge of a sensor that the peripheral clock takes is kept with its time, and an encoder counts. Where the spec does not say what a
command out of its turn does, that it changes nothing is the model's choice (log 4, 30). -/
def Obligations.ConversionsAndSensors : Prop :=
  ∀ (s : State) (m : Master) (a : Fin 4) (e : Fin 40) (raw : BitVec 12) (n : Fin 64) (q : Fin 16) (up : Bool) (v : RegWord) (c : Cmd) (f i : Nat),
    s.pra.frame = some f → s.periphClock = true →
    let x : Int := ((raw.toNat : Int) - (s.trimOf a).1) * ((s.trimOf a).2 : Int) / 16384
    let code := (max 0 (min 4095 x)).toNat
    let rail := 4 * (f % 8) + a
    let counted (t : State) : Prop := t.rd (Reg.ADC_A_CNT_CONV_COUNT a) = (s.rd (Reg.ADC_A_CNT_CONV_COUNT a) + 1) % 2 ^ 32
    let due := s.dueCmd 25 = some c ∧ c.op = 1 ∧ s.coreClock = true
    let u := s.popCmd 25
    let turn := s.pra.conv[a] = e.val ∧ 300 * (e + 1) ≤ s.framePhase
    let past : State := { s with pra := { s.pra with conv := s.pra.conv.setIfInBounds a (e + 1) } }
    (¬turn → Gives (.adcConversion a e raw) s s) ∧
    (turn → e.val = 10 * a → Leads (.adcConversion a e raw) s fun t => t.rd (Reg.ADC_RESULT_CODE (64 + rail)) = code ∧
      t.rd (Reg.ADC_RESULT_VALID (64 + rail)) = 1 ∧ counted t ∧ (t.railOf rail).code = code ∧
      (t.railOf rail).run = (if s.rd (Reg.PWR_R_SCAN_UV_CODE rail) ≤ code ∧ code ≤ s.rd (Reg.PWR_R_SCAN_OV_CODE rail) then 0
        else (s.railOf rail).run + 1)) ∧
    (turn → e.val ≠ 10 * a → s.rd Reg.ADC_CTRL_EN = 1 → s.adcInput a (s.rd (Reg.ADC_A_CTRL_LIVE a)) e = some i → i < 96 →
      (s.adcBall i = true → Leads (.adcConversion a e raw) s fun t => t.rd (Reg.ADC_RESULT_CODE i) = code ∧
        t.rd (Reg.ADC_RESULT_VALID i) = 1 ∧ t.rd (Reg.ADC_RESULT_ENTRY i) = e ∧ counted t ∧ t.pra.conv[a] = e + 1) ∧
      (s.adcBall i = false → Leads (.adcConversion a e raw) s fun t => t.rd (Reg.ADC_RESULT_CODE i) = 0 ∧
        t.rd (Reg.ADC_RESULT_VALID i) = 0 ∧ counted t)) ∧
    (turn → e.val ≠ 10 * a → s.rd Reg.ADC_CTRL_EN = 0 ∨ s.adcInput a (s.rd (Reg.ADC_A_CTRL_LIVE a)) e = none ∨
        (s.adcInput a (s.rd (Reg.ADC_A_CTRL_LIVE a)) e = some i ∧ 96 ≤ i) → Gives (.adcConversion a e raw) s past) ∧
    (due → c.unit < 96 → Leads (.seqSel .emitted) s fun t => t.pra.ask[c.unit % 4]? = some (some (c.operand % 2)) ∧ t.regs = s.regs) ∧
    (due → 96 ≤ c.unit → Gives (.seqSel .emitted) s (u.raise Reg.ADC_STATUS 1)) ∧
    (s.mayWrite m (Reg.ADC_A_CTRL a) → Leads (.seqSel (.written m a v)) s fun t => t.pra.ask[a] = some (v.toNat % 2) ∧
      t.rd (Reg.ADC_A_CTRL_LIVE a) = s.rd (Reg.ADC_A_CTRL_LIVE a)) ∧
    (∀ b, s.pra.ask[a] = some b → b < 2 → 12000 ≤ s.framePhase →
      ((∀ j < 40, ∀ y, s.adcInput a b j = some y → y % 4 = a) → Leads .frameStart s fun t => t.rd (Reg.ADC_A_CTRL_LIVE a) = b ∧
        t.pra.ask[a] = none) ∧
      (∀ j < 40, ∀ y, s.adcInput a b j = some y → y % 4 ≠ a → Leads .frameStart s fun t =>
        t.rd (Reg.ADC_A_CTRL_LIVE a) = s.rd (Reg.ADC_A_CTRL_LIVE a) ∧ bitAt (t.rdw Reg.ADC_STATUS) 0 = true)) ∧
    (s.periphEdge = true → s.ballLive (120 + n) 0 = true → s.sense.level[n] ≠ up → Leads (.sheetSensorEdge n up) s fun t =>
      t.sense.level[n] = up ∧ t.sense.rising[n] = up ∧ t.sense.edge[n] = s.meridian ∧ t.regs = s.regs) ∧
    (s.sense.level[n] = up ∨ s.periphEdge = false ∨ s.ballLive (120 + n) 0 = false → Gives (.sheetSensorEdge n up) s s) ∧
    (s.periphEdge = true → s.ballLive (184 + q) 0 = true → Leads (.quadratureEncoderEdge q up) s fun t =>
      t.sense.enc[q] = (if up then s.sense.enc[q] + 1 else s.sense.enc[q] - 1) ∧ t.regs = s.regs) ∧
    (s.periphEdge = false ∨ s.ballLive (184 + q) 0 = false → Gives (.quadratureEncoderEdge q up) s s)

/-! ## Power, clocks, the thermal model, calibration and consumables -/

/-- Supplies (R279 to R288). The steps of a sequence wait their delays, drive EN, wait for power-good, go on to the next step or end; a missed one
fails. The down sequence begins once no NVM write runs, or after 5 ms. A rail out of its window counts, freezes the snapshot, sets its source and
reacts as `REACT` tells; a retry comes up again after `RETRY_MS` until `RETRY_MAX`. In a hold-up a fault of a HOLD rail ends it and others do
nothing. ON and OFF drive a switchable rail. Where stations would follow a rail, a premise says that none changes. Where the spec does not say
what a command out of its turn does, that it changes nothing is the model's choice (log 4, 28). -/
def Obligations.Supplies : Prop :=
  ∀ (s : State) (m : Master) (r : Fin 32) (high : Bool) (v : RegWord) (c : Cmd), s.pwr.reset = false → s.released = true →
    let due (op : Nat) : Prop := s.dueCmd 3 = some c ∧ c.op = op ∧ c.unit = r ∧ s.coreClock = true
    let u := s.popCmd 3
    let step := s.stepRail
    let low (q : Nat) : State := ((s.wr Reg.PWR_EN_STATE_EN (bitPut (s.rd Reg.PWR_EN_STATE_EN) q false)).wr Reg.PWR_GOOD_GOOD
      (bitPut (s.rd Reg.PWR_GOOD_GOOD) q false)).updRail q fun x => { x with sup := false, run := 0, out := none }
    let good : State := (s.wr Reg.PWR_GOOD_GOOD (bitPut (s.rd Reg.PWR_GOOD_GOOD) r true)).updRail r
      fun x => { x with sup := true, run := 0, retry := .none, tries := 0, out := none }
    let hit (cmp high : Bool) : State := ((((s.inc (Reg.PWR_R_CNT_FAULT_COUNT r)).snapshot r cmp high).railRaise (boolNat high) r).wr Reg.PWR_GOOD_GOOD (bitPut (s.rd Reg.PWR_GOOD_GOOD) r false)).updRail r
        fun x => { x with run := 0, out := some high }
    let told (cmp high : Bool) (t : State) : Prop := bitAt (t.rdw Reg.PWR_STATUS) (boolNat high) = true ∧
      t.rd (Reg.PWR_R_CNT_FAULT_COUNT r) = (s.rd (Reg.PWR_R_CNT_FAULT_COUNT r) + 1) % 2 ^ 32 ∧
      (s.rd Reg.PWR_SNAP_INFO_VALID = 0 → t.rdw Reg.PWR_SNAP_INFO = r + boolNat cmp * 64 + boolNat high * 128 + 256) ∧
      (s.rd Reg.PWR_SNAP_INFO_VALID = 1 → t.rdw Reg.PWR_SNAP_INFO = s.rdw Reg.PWR_SNAP_INFO)
    let out := (s.railOf r).code < s.rd (Reg.PWR_R_SCAN_UV_CODE r) ∨ s.rd (Reg.PWR_R_SCAN_OV_CODE r) < (s.railOf r).code
    let tries := (s.railOf r).tries + 1
    (s.phase ≠ phUp ∨ s.pwr.wait = true ∨ s.clock < s.pwr.due → Gives .upSequenceStep s s) ∧
    (s.phase = phUp → s.pwr.wait = false → s.pwr.due ≤ s.clock →
      (s.railGood step = false → Leads .upSequenceStep s fun t => t.enHigh step = true ∧ t.pwr.wait = true ∧ t.phase = phUp ∧
        t.pwr.limit = s.clock + max 1 (s.rd (Reg.PWR_SEQ_PG_TIMEOUT (s.rd Reg.PWR_SEQ_STATE_STEP))) * 300000) ∧
      (∀ i, s.railGood step = true → (stepsAbove (s.rd Reg.PWR_SEQ_STATE_STEP)).find? s.inSequence = some i →
        Leads .upSequenceStep s fun t => t.enHigh step = true ∧ t.rd Reg.PWR_SEQ_STATE_STEP = i ∧ t.phase = phUp ∧ t.pwr.wait = false ∧
          t.pwr.due = s.clock + s.rd (Reg.PWR_SEQ_DELAY i) * 30000) ∧
      (s.railGood step = true → (stepsAbove (s.rd Reg.PWR_SEQ_STATE_STEP)).find? s.inSequence = none →
        Leads .upSequenceStep s fun t => t.enHigh step = true ∧ t.phase = phUpDone)) ∧
    (s.enHigh r = false ∨ s.railGood r = true → Gives (.railPowerGood r) s s) ∧
    (s.enHigh r = true → s.railGood r = false → good.updStations = good →
      (s.phase ≠ phUp ∨ s.pwr.wait = false ∨ step ≠ r → Gives (.railPowerGood r) s good) ∧
      (s.phase = phUp → s.pwr.wait = true → step = r → Leads (.railPowerGood r) s fun t => t.railGood r = true ∧
        (t.railOf r).sup = true ∧ t.pwr.wait = false ∧
        (∀ i, (stepsAbove (s.rd Reg.PWR_SEQ_STATE_STEP)).find? s.inSequence = some i → t.rd Reg.PWR_SEQ_STATE_STEP = i ∧ t.phase = phUp) ∧
        ((stepsAbove (s.rd Reg.PWR_SEQ_STATE_STEP)).find? s.inSequence = none → t.phase = phUpDone))) ∧
    (s.phase = phUp → s.pwr.wait = true → s.pwr.limit ≤ s.clock → Leads .upStepTimeout s fun t => t.phase = phFailed ∧
      t.rd Reg.PWR_SEQ_STATE_FAIL_RAIL = step ∧ bitAt (t.rdw Reg.PWR_STATUS) 2 = true ∧ t.pwr.wait = false) ∧
    (s.phase ≠ phUp ∨ s.pwr.wait = false ∨ s.clock < s.pwr.limit → Gives .upStepTimeout s s) ∧
    (s.phase = phDown → s.pwr.begun = false → s.xsp.job = none ∨ s.pwr.limit ≤ s.clock → Gives .downSequenceBegin s
      { s with pwr := { s.pwr with begun := true, due := s.clock }, xsp := { s.xsp with job := none } }) ∧
    (s.phase ≠ phDown ∨ s.pwr.begun = true ∨ (s.xsp.job ≠ none ∧ s.clock < s.pwr.limit) → Gives .downSequenceBegin s s) ∧
    (s.phase ≠ phDown ∨ s.pwr.begun = false ∨ s.clock < s.pwr.due → Gives .downSequenceStep s s) ∧
    (s.phase = phDown → s.pwr.begun = true → s.pwr.due ≤ s.clock → (low step).updStations = low step → Leads .downSequenceStep s fun t =>
      t.enHigh step = false ∧ t.railGood step = false ∧
      t.pwr.due = s.clock + s.rd (Reg.PWR_SEQ_DELAY (s.rd Reg.PWR_SEQ_STATE_STEP)) * 30000 ∧
      (∀ i, (stepsBelow (s.rd Reg.PWR_SEQ_STATE_STEP)).find? s.inSequence = some i → t.rd Reg.PWR_SEQ_STATE_STEP = i ∧ t.phase = phDown) ∧
      ((stepsBelow (s.rd Reg.PWR_SEQ_STATE_STEP)).find? s.inSequence = none → t.phase = phIdle)) ∧
    (s.aon.holdUp = true → (s.enHigh r = true → (s.railOf r).sup = true → s.rd (Reg.PWR_R_CFG_HOLD r) = 1 →
        Gives (.railComparatorFault r high) s s.holdUpEnd ∧ Gives (.railScanFault r) s s.holdUpEnd) ∧
      (s.rd (Reg.PWR_R_CFG_HOLD r) = 0 → Gives (.railComparatorFault r high) s s ∧ Gives (.railScanFault r) s s)) ∧
    (s.aon.holdUp = false → s.enHigh r = false ∨ (s.railOf r).sup = false →
      Gives (.railComparatorFault r high) s s ∧ Gives (.railScanFault r) s s) ∧
    (s.aon.holdUp = false → s.enHigh r = true → (s.railOf r).sup = true →
      (r < 12 → (hit true high).updStations = hit true high →
        (s.rd (Reg.PWR_R_CFG_REACT r) = 0 → Leads (.railComparatorFault r high) s fun t => told true high t ∧ t.enHigh r = true ∧
          t.railGood r = false) ∧
        (s.rd (Reg.PWR_R_CFG_REACT r) = 1 → Gives (.railComparatorFault r high) s
          ((hit true high).retryOff r 0).afterSequence) ∧
        (s.rd (Reg.PWR_R_CFG_REACT r) = 2 → Gives (.railComparatorFault r high) s ((hit true high).groupReaction r).afterSequence) ∧
        (s.rd (Reg.PWR_R_CFG_REACT r) = 3 → Gives (.railComparatorFault r high) s (hit true high).resetReaction.afterSequence)) ∧
      (12 ≤ r.val → Gives (.railComparatorFault r high) s s) ∧
      (s.rd Reg.PWR_CTRL_EN = 1 → s.rd (Reg.PWR_R_CFG_SCAN_EN r) = 1 → max 1 (s.rd (Reg.PWR_R_CFG_SCAN_N r)) ≤ (s.railOf r).run → out →
        let above := decide (s.rd (Reg.PWR_R_SCAN_OV_CODE r) < (s.railOf r).code)
        (hit false above).updStations = hit false above → s.rd (Reg.PWR_R_CFG_REACT r) = 0 →
          Leads (.railScanFault r) s fun t => told false above t ∧ t.enHigh r = true ∧ t.railGood r = false) ∧
      ((s.railOf r).run < max 1 (s.rd (Reg.PWR_R_CFG_SCAN_N r)) → Gives (.railScanFault r) s s)) ∧
    ((s.railOf r).retry = .none ∨ s.clock < (s.railOf r).due → Gives (.retryTimer r) s s) ∧
    ((s.railOf r).retry = .off → (s.railOf r).due ≤ s.clock → Leads (.retryTimer r) s fun t => t.enHigh r = true ∧
      (t.railOf r).retry = .up ∧ (t.railOf r).due = s.clock + s.retryLimit r) ∧
    ((s.railOf r).retry = .up → (s.railOf r).due ≤ s.clock → tries < max 1 (s.rd (Reg.PWR_R_CFG_RETRY_MAX r)) → (low r).updStations = low r →
      Leads (.retryTimer r) s fun t => t.enHigh r = false ∧ (t.railOf r).retry = .off ∧ (t.railOf r).tries = tries ∧
        (t.railOf r).due = s.clock + max 1 (s.rd (Reg.PWR_R_CFG_RETRY_MS r)) * 3000000) ∧
    ((s.railOf r).retry = .up → (s.railOf r).due ≤ s.clock → max 1 (s.rd (Reg.PWR_R_CFG_RETRY_MAX r)) ≤ tries → Gives (.retryTimer r) s
      ((s.raiseInst Reg.PWR_STATUS 3 Reg.PWR_FIRST_SOURCE_SOURCE r).groupReaction r).afterSequence) ∧
    (due 1 →
      (s.rd Reg.PWR_CTRL_EN = 0 → Gives (.pwrOn .emitted) s u) ∧
      (s.rd Reg.PWR_CTRL_EN = 1 → s.rd (Reg.PWR_R_CFG_SW r) = 0 → Gives (.pwrOn .emitted) s (u.raiseInst Reg.PWR_STATUS 5 Reg.PWR_FIRST_SOURCE_SOURCE r)) ∧
      (s.rd Reg.PWR_CTRL_EN = 1 → s.rd (Reg.PWR_R_CFG_SW r) = 1 → Leads (.pwrOn .emitted) s fun t => t.enHigh r = true ∧
        bitAt (t.rd Reg.PWR_OFF_FAULT_OFF) r = false ∧ t.rd Reg.PWR_GOOD_GOOD = s.rd Reg.PWR_GOOD_GOOD)) ∧
    (due 2 → s.rd Reg.PWR_CTRL_EN = 1 →
      (s.rd (Reg.PWR_R_CFG_SW r) = 0 → Gives (.pwrOff .emitted) s (u.raiseInst Reg.PWR_STATUS 5 Reg.PWR_FIRST_SOURCE_SOURCE r)) ∧
      (s.rd (Reg.PWR_R_CFG_SW r) = 1 → Gives (.pwrOff .emitted) s (u.setEn r false))) ∧
    (s.mayWrite m (Reg.PWR_R_CMD r) → bitAt v.toNat 1 = false → s.rd Reg.PWR_CTRL_EN = 1 → s.rd (Reg.PWR_R_CFG_SW r) = 1 →
      Leads (.pwrOn (.written m r v)) s fun t => t.enHigh r = true ∧ bitAt (t.rd Reg.PWR_OFF_FAULT_OFF) r = false) ∧
    (s.mayWrite m Reg.PWR_CTRL → Leads (.snapRearm m v) s fun t => t.rd Reg.PWR_SNAP_INFO_VALID = 0 ∧
      t.rd Reg.PWR_CTRL_EN = v.toNat % 2)

/-- Clocks and the hold-up (R298 to R302). The main PLL locks in DAWN, which starts Meridian, the frames and a calibration; its loss sets
source 32 and starts the RESET reaction. A `DIV_COMMIT` waits for the Gap, or applies the legal shadows at once. The hold-up ends in NIGHT. Where the spec does not say what a command out of its turn does, that it
changes nothing is the model's choice (log 4). -/
def Obligations.Clocks : Prop :=
  ∀ (s : State) (m : Master) (band time : Nat) (retry ref : Bool),
    let idle := s.phase = phIdle ∨ s.phase = phUpDone
    (s.dev = stDawn → s.counting = false → idle → s.pwr.reset = false → Leads (.pllLock band time retry) s fun t =>
      t.counting = true ∧ t.meridian = 0 ∧ t.lockAt = s.clock ∧ t.pra.frame = some 0 ∧ t.pra.frameAt = s.clock ∧ t.thm.cal = true ∧
      (retry = true → bitAt (t.rdw Reg.CLK_STATUS) 1 = true)) ∧
    (s.counting = true ∨ s.dev ≠ stDawn ∨ s.phase = phUp ∨ s.phase = phDown ∨ s.phase = phFailed ∨ s.pwr.reset = true → Gives (.pllLock band time retry) s s) ∧
    (s.counting = false ∨ s.dev = stNight → Gives (.pllLoss ref) s s) ∧
    (s.counting = true → s.dev ≠ stNight → s.released = true → ∀ i, (List.range 32).reverse.find? (fun i => s.on (Reg.PWR_SEQ_USED i)) = some i →
      Leads (.pllLoss ref) s fun t => t.counting = false ∧ bitAt (t.rdw Reg.PWR_STATUS) 4 = true ∧ t.phase = phDown ∧ t.pwr.reset = true ∧
        t.rd Reg.PWR_SEQ_STATE_STEP = i ∧ t.pwr.begun = false ∧
        t.rd (if ref then Reg.CLK_AON_STATUS_REF_LOSS_RESET else Reg.CLK_AON_STATUS_LOL_RESET) = 1) ∧
    (s.mayWrite m Reg.CLK_CTRL →
      (s.dev ≠ stDawn → s.dev ≠ stMorning → Gives (.divCommit m) s (s.wr Reg.CLK_CTRL_COMMIT_PENDING 1)) ∧
      (s.dev = stDawn ∨ s.dev = stMorning → Leads (.divCommit m) s fun t => t.rd Reg.CLK_CTRL_COMMIT_PENDING = 0 ∧
        ∀ j : Fin 4, let w := s.rdw (Reg.CLK_OUT_CFG j) % 2 ^ 17
          t.rdw (Reg.CLK_OUT_LIVE j) = (if clockLegal w then w else s.rdw (Reg.CLK_OUT_LIVE j)) ∧
          (clockLegal w = false → w ≠ s.rdw (Reg.CLK_OUT_LIVE j) → bitAt (t.rdw Reg.CLK_STATUS) 0 = true))) ∧
    (s.aon.holdUp = false ∨ s.clock < s.due.hold → Gives .holdUpEnd s s) ∧
    (s.aon.holdUp = true → s.due.hold ≤ s.clock → s.aon.wakeAtEnd = true → Gives .holdUpEnd s (s.holdUpNight.dawn 1)) ∧
    (s.aon.holdUp = true → s.due.hold ≤ s.clock → s.aon.wakeAtEnd = false → Leads .holdUpEnd s fun t => t.dev = stNight ∧
      t.mem = [] ∧ t.aon.holdUp = false ∧ t.xsp.job = none ∧ (∀ r, r < 32 → t.enHigh r = false) ∧ t.rd Reg.SYS_STATE_LAST = s.rd Reg.SYS_STATE_LAST)

/-- The thermal model, calibration and consumables (R290 to R297, R306 to R324). An update takes the zones it is given, `TMAX` their highest, and
judges its conditions over 101 updates, one in 100 µs; the diodes calibrate it in DAWN, for 2 ms. An application, one in 10 ms, writes the
interpolated values of the live bank; a bank with a bad entry does not become live; a check installs a value that repeats. A consumable is
authenticated by its MAC, read after `CSM_AUTH_WAIT`, and its increments pend until they are written to both copies of their cell; a failed write
is reported and pends on. Where the spec does not say what a command out of its turn does, that it changes nothing is the model's choice (log 4,
9), and so are the phases of the periods (log 83). -/
def Obligations.ThermalCalibrationConsumables : Prop :=
  ∀ (s : State) (m : Master) (temp power : Vector (BitVec 16) 16) (pkg k d0 d1 : BitVec 16) (u : Fin 16) (n : Fin 64) (j : Fin 128) (v : RegWord),
    let update (P : State → Prop) : Prop := Leads (.modelUpdate temp power pkg k) s P
    let high (t : State) (limit : Int) : Prop := limit * 64 ≤ t.tmax
    let lowT (t : State) (limit : Int) : Prop := t.tmax ≤ limit * 64
    let sum := d0.toInt + d1.toInt
    let live := s.rd Reg.CAL_CTRL_LIVE
    let next := s.rd Reg.CAL_CTRL_NEXT
    let morning := s.dev = stDawn ∨ s.dev = stMorning
    let w := s.plainWrite Reg.CAL_CHECK_CTRL (withBit v 0 true).toNat
    let kind := w.rd Reg.CAL_CHECK_CTRL_KIND
    let entry := w.rd Reg.CAL_CHECK_CTRL_ENTRY
    let point := w.rd Reg.CAL_CHECK_CTRL_POINT
    let a := signedOf (s.rdw Reg.CAL_CHECK_A) 32
    let d := (a - signedOf (s.rdw Reg.CAL_CHECK_B) 32).natAbs
    let agree := (kind = 0 ∧ d * 200 ≤ a.natAbs) ∨ (kind = 1 ∧ d ≤ 2) ∨ (kind = 2 ∧ d * 100 ≤ a.natAbs) ∨
      (kind = 3 ∧ d ≤ s.rd Reg.CAL_CHECK_TOL_TOL)
    let pend := s.rd (Reg.CSM_U_STATE_PENDING u)
    let count := s.rdw (Reg.CSM_U_COUNT u)
    let applied : State := { s with due := { s.due with cal := s.clock + 30000000 } }
    let applies := s.due.cal ≤ s.clock ∧ morning ∧ s.counting = true
    (s.dev = stNight ∨ s.counting = false ∨ s.clock < s.due.model → s.jrn.waiting = [] → Gives (.modelUpdate temp power pkg k) s s) ∧
    (s.dev ≠ stNight → s.counting = true → s.due.model ≤ s.clock → s.rd Reg.THM_CTRL_EN = 1 → s.rd Reg.THM_STATE_CAL_DONE = 1 →
      s.jrn.waiting = [] → (∀ z ∈ temp.toList, z.toInt < 127 * 64) → update fun t =>
        t.due.model = s.clock + 300000 ∧ (∀ z ∈ temp.toList, z.toInt ≤ t.tmax) ∧ (∃ z ∈ temp.toList, z.toInt = t.tmax) ∧
        (∀ z : Fin 16, t.rd (Reg.THM_Z_T z) = temp[z].toNat ∧ t.rd (Reg.THM_Z_P z) = power[z].toNat) ∧
        t.rd Reg.THM_PKG_T = pkg.toNat ∧ t.thm.throtSet = (if 112 * 64 ≤ t.tmax then s.thm.throtSet + 1 else 0) ∧
        (s.rd Reg.THM_STATE_THROTTLE = 0 → high t 112 → 100 ≤ s.thm.throtSet → t.rd Reg.THM_STATE_THROTTLE = 1 ∧
          t.rd Reg.PSQ_GAP_STATUS_STRETCH_MS = s.rd Reg.THM_THROT_STRETCH_MS ∧ bitAt (t.rdw Reg.THM_STATUS) 0 = true) ∧
        (s.rd Reg.THM_STATE_THROTTLE = 0 → s.thm.throtSet < 100 → t.rd Reg.THM_STATE_THROTTLE = 0) ∧
        (s.rd Reg.THM_STATE_THROTTLE = 1 → lowT t 109 → 100 ≤ s.thm.throtClr → t.rd Reg.THM_STATE_THROTTLE = 0 ∧
          t.rd Reg.PSQ_GAP_STATUS_STRETCH_MS = 0) ∧
        (s.rd Reg.THM_STATE_DUSK_CAUSE = 0 → high t 121 → 100 ≤ s.thm.duskSet → t.rd Reg.THM_STATE_DUSK_CAUSE = 1 ∧
          bitAt (t.rdw Reg.THM_STATUS) 1 = true ∧ t.dev = (if s.dev = stNoon then stDusk else s.dev)) ∧
        (s.rd Reg.THM_STATE_DUSK_CAUSE = 1 → lowT t 118 → 100 ≤ s.thm.duskClr → t.rd Reg.THM_STATE_DUSK_CAUSE = 0) ∧
        (s.rd Reg.THM_STATE_NVM_OK = 0 → 0 ≤ t.tmax → lowT t 105 → 100 ≤ s.thm.nvm → t.rd Reg.THM_STATE_NVM_OK = 1) ∧
        (s.rd Reg.THM_STATE_NVM_OK = 1 → t.tmax < 0 ∨ 105 * 64 < t.tmax → t.rd Reg.THM_STATE_NVM_OK = 0 ∧
          bitAt (t.rdw Reg.THM_STATUS) 2 = true ∧ t.thm.nvm = 0)) ∧
    (s.dev ≠ stNight → s.counting = true → s.due.model ≤ s.clock → s.rd Reg.THM_CTRL_EN = 1 → s.rd Reg.THM_STATE_CAL_DONE = 1 →
      (∃ z ∈ temp.toList, 127 * 64 ≤ z.toInt) → 100 ≤ s.thm.night →
        Gives (.modelUpdate temp power pkg k) s (s.modelUpdate temp power pkg k).1.thermalNight) ∧
    (s.mayWrite m Reg.THM_CTRL → Leads (.diodeCalibration m v) s fun t => t.thm.cal = (s.thm.cal || decide (s.dev = stDawn)) ∧
      (s.dev = stDawn → t.due.diode = s.clock + 6000000) ∧ t.rd Reg.THM_CTRL_EN = v.toNat % 2) ∧
    (s.thm.cal = false ∨ s.clock < s.due.diode → s.released = true → Gives (.diodeCalibrationComplete d0 d1) s s) ∧
    (s.thm.cal = true → s.due.diode ≤ s.clock → s.released = true → sum % 2 = 0 → s.rd Reg.THM_PMEAS_POWER = 0 → Leads (.diodeCalibrationComplete d0 d1) s fun t =>
      t.thm.cal = false ∧ t.rd Reg.THM_STATE_CAL_DONE = 1 ∧ t.tmax = sum / 2 ∧ signedOf (t.rd Reg.THM_PKG_T) 16 = sum / 2 ∧
      signedOf (t.rd Reg.THM_BOARD_T) 16 = sum / 2 ∧ (∀ z : Fin 16, signedOf (t.rd (Reg.THM_Z_T z)) 16 = sum / 2) ∧
      (320 < (d0.toInt - d1.toInt).natAbs → bitAt (t.rdw Reg.THM_STATUS) 4 = true)) ∧
    (s.clock < s.due.cal → Gives .calApplication s s) ∧
    (s.due.cal ≤ s.clock → ¬morning ∨ s.counting = false → Gives .calApplication s applied) ∧
    (applies → next = live → s.rd Reg.CAL_CTRL_EN = 0 → Gives .calApplication s applied) ∧
    (applies → next = live → s.rd Reg.CAL_CTRL_EN = 1 → (∀ i : Fin 64, i ≠ n → s.rd (Reg.CAL_B_E_TARGET_VALID live i) = 0) →
      s.rd (Reg.CAL_B_E_TARGET_VALID live n) = 1 → s.rd (Reg.CAL_B_E_TARGET_OFFSET live n) = Reg.PRA_L_KP j →
      s.rd (Reg.CAL_B_E_FIELD_LSB live n) = 0 → s.rd (Reg.CAL_B_E_FIELD_WIDTH_M1 live n) = 31 → s.rd (Reg.CAL_B_E_TARGET_SIGNED live n) = 1 →
      -(2 ^ 31) ≤ s.calValue live n → s.calValue live n < 2 ^ 31 → Leads .calApplication s fun t =>
        signedOf (t.rdw (Reg.PRA_L_KP j)) 32 = s.calValue live n ∧ signedOf (t.rdw (Reg.CAL_E_APPLIED n)) 32 = s.calValue live n ∧
        t.rd Reg.CAL_APPLY_COUNT_COUNT = (s.rd Reg.CAL_APPLY_COUNT_COUNT + 1) % 2 ^ 32) ∧
    (∀ b p, p < 5 → s.zoneTemp (s.rd (Reg.CAL_B_E_TARGET_ZONE b n)) = calTemp p → s.calValue b n = s.calPoint b n p) ∧
    (applies → next ≠ live → s.rd Reg.CAL_CTRL_EN = 0 →
      (s.calCheckBank next = none → Leads .calApplication s fun t => t.rd Reg.CAL_CTRL_LIVE = next ∧ t.rd Reg.CAL_CTRL_PENDING = 0) ∧
      (∀ i code, s.calCheckBank next = some (i, code) → Leads .calApplication s fun t => t.rd Reg.CAL_CTRL_LIVE = live ∧
        t.rd Reg.CAL_SWITCH_ERR_ENTRY = i ∧ t.rd Reg.CAL_SWITCH_ERR_CODE = code ∧ bitAt (t.rdw Reg.CAL_STATUS) 2 = true)) ∧
    (s.mayWrite m Reg.CAL_CHECK_CTRL → w.rd Reg.CAL_CHECK_CTRL_MODE = 0 →
      (4 < point → Gives (.calCheckGo m v) s (w.wr Reg.CAL_CHECK_STATUS_RESULT 3)) ∧
      (point ≤ 4 → agree → Leads (.calCheckGo m v) s fun t => t.rd Reg.CAL_CHECK_STATUS_RESULT = 1 ∧
        t.rd Reg.CAL_CNT_ACCEPT_COUNT = (s.rd Reg.CAL_CNT_ACCEPT_COUNT + 1) % 2 ^ 32 ∧
        (∀ b e p : Nat, b < 2 → e < 64 → p < 5 → t.rdw (Reg.CAL_B_E_P b e p) =
          if b = 1 - live ∧ e = entry ∧ p = point then s.rdw Reg.CAL_CHECK_VALUE else s.rdw (Reg.CAL_B_E_P b e p))) ∧
      (point ≤ 4 → ¬agree → Leads (.calCheckGo m v) s fun t => t.rd Reg.CAL_CHECK_STATUS_RESULT = 2 ∧
        t.rd Reg.CAL_CNT_REJECT_COUNT = (s.rd Reg.CAL_CNT_REJECT_COUNT + 1) % 2 ^ 32 ∧ bitAt (t.rdw Reg.CAL_STATUS) 3 = true ∧
        (∀ b e p : Nat, b < 2 → e < 64 → p < 5 → t.rdw (Reg.CAL_B_E_P b e p) = s.rdw (Reg.CAL_B_E_P b e p)))) ∧
    (s.mayWrite m (Reg.CSM_U_CTRL u) → bitAt v.toNat 1 = false →
      (s.rd Reg.CSM_CTRL_EN = 1 → s.rd (Reg.CSM_U_CFG_EN u) = 1 → s.unitState u ≠ 1 → Leads (.csmAuth m u v) s fun t =>
        t.csm.replyAt[u] = s.clock + max 1 (s.rd Reg.CSM_AUTH_WAIT_MS) * 3000000 ∧ t.unitState u = 1 ∧ t.challenge u = (List.range 32).map (Config.entropy s.csm.draws) ∧ t.csm.draws = s.csm.draws + 1) ∧
      (s.rd Reg.CSM_CTRL_EN = 0 ∨ s.rd (Reg.CSM_U_CFG_EN u) = 0 ∨ s.unitState u = 1 → Gives (.csmAuth m u v) s s)) ∧
    (∀ r, s.unitState u ≠ 1 → Gives (.authResponse u r) s s) ∧
    (∀ b, s.clock < s.csm.replyAt[u] → Gives (.authResponse u (.data b)) s s) ∧
    (∀ e : Fin 3, s.unitState u = 1 → Leads (.authResponse u (.error e)) s fun t => t.unitState u = 0 ∧
      t.rd (Reg.CSM_U_STATE_LAST_ERR u) = e + 1 ∧ bitAt (t.rdw Reg.CSM_STATUS) 1 = true) ∧
    (∀ b : List Byte, s.unitState u = 1 → s.csm.replyAt[u] ≤ s.clock → b.length = 40 → b.drop 8 = s.expectedMac u (b.take 8) →
      Leads (.authResponse u (.data b)) s fun t => t.unitState u = 2 ∧ t.unitUid u = ofLe (b.take 8) ∧
        t.rd (Reg.CSM_U_STATE_LAST_ERR u) = 0 ∧ t.rd (Reg.CSM_U_STATE_PENDING u) = (if s.unitUid u = ofLe (b.take 8) then pend else 0) ∧
        (∀ c : Fin 16, ∀ x, s.cellCount u c (ofLe (b.take 8)) = some x → x ≤ t.rdw (Reg.CSM_U_COUNT u) ∧
          bitAt (t.rd (Reg.CSM_U_CELLS_VALID u)) c = true)) ∧
    (∀ b : List Byte, s.unitState u = 1 → s.csm.replyAt[u] ≤ s.clock → b.length ≠ 40 ∨ b.drop 8 ≠ s.expectedMac u (b.take 8) →
      Leads (.authResponse u (.data b)) s fun t => t.unitState u = 3 ∧ t.rd (Reg.CSM_U_STATE_LAST_ERR u) = 4 ∧
        bitAt (t.rdw Reg.CSM_STATUS) 0 = true) ∧
    (s.mayWrite m (Reg.CSM_U_CTRL u) → bitAt v.toNat 0 = false →
      (s.rd Reg.CSM_CTRL_EN = 1 → s.unitState u = 2 → Leads (.csmInc m u v) s fun t =>
        t.rd (Reg.CSM_U_STATE_PENDING u) = min 65535 (pend + 1) ∧ t.unitState u = 2) ∧
      (s.unitState u ≠ 2 → Gives (.csmInc m u v) s s)) ∧
    (s.xsp.job = none → s.xspNext = none → ∀ r, Gives (.cellWriteComplete u r) s s) ∧
    (∀ i, s.xsp.job = some i → s.jrn.waiting = [] → (i.client ≠ .cell u → ∀ r, Gives (.cellWriteComplete u r) s s) ∧
      (i.client = .cell u → (∀ r, r ≠ .ok → Leads (.cellWriteComplete u r) s fun t => bitAt (t.rdw Reg.CSM_STATUS) 2 = true ∧
          bitAt (t.rdw Reg.XSP_STATUS) (if r = .timeout then 0 else 1) = true ∧ t.nvm = s.nvm ∧ t.rdw (Reg.CSM_U_COUNT u) = count ∧
          t.rd (Reg.CSM_U_STATE_PENDING u) = pend) ∧
        (s.unitState u = 2 → pend ≠ 0 → s.xsp.first = false →
          (count + 1 < 2 ^ 32 → Leads (.cellWriteComplete u .ok) s fun t => t.rdw (Reg.CSM_U_COUNT u) = count + 1 ∧
            t.rd (Reg.CSM_U_STATE_PENDING u) = pend - 1 ∧ t.rd (Reg.CSM_U_STATE_NEXT_CELL u) = (count + 2) % 16 ∧
            (i = s.cellJob u → t.cellCount u ((count + 1) % 16) (s.unitUid u) = some (count + 1))) ∧
          (count + 1 = 2 ^ 32 → Leads (.cellWriteComplete u .ok) s fun t => t.rdw (Reg.CSM_U_COUNT u) = count ∧
            t.rd (Reg.CSM_U_STATE_PENDING u) = pend - 1 ∧ bitAt (t.rdw Reg.CSM_STATUS) 3 = true ∧ (i = s.cellJob u → t.nvm = s.nvm)))))

/-! ## Host and journal -/

/-- The host link, the journal in NVM and the xSPI controller (R325 to R327, R332, R336 to R338, R344, R346, R352). A link that goes down disables
every queue pair and loses the completions; a pair is enabled where its version, bases and sizes are legal; freed CQ space takes the completion
that waits. An entry's two copies reach NVM in the write under way and it becomes durable, or the write fails and is tried again; a mirror write
is acknowledged; the scan sets the numbers from what is valid; a mate silent for 1 ms is marked. Where the spec does not say what a command out of its turn does, that it
changes nothing is the model's choice (log 4, 14, 32, 34). -/
def Obligations.HostLinkAndJournal : Prop :=
  ∀ (s : State) (m : Master) (n : Fin 64) (v : RegWord) (boot other : Bool) (image : List (Nat × List Byte)) (r : NvmResult),
    let cfg := withBit v 30 true
    let size (x : Nat) : Prop := 2 ≤ x ∧ x ≤ 4096
    let legal := 0x10 ≤ s.rd (Reg.HST_QP_VER_VERSION n) ∧ s.rd (Reg.HST_QP_VER_VERSION n) ≤ 0x13 ∧ s.sqBase n % 4096 = 0 ∧
      s.cqBase n % 4096 = 0 ∧ size (cfg.toNat % 2 ^ 13) ∧ size (cfg.toNat / 2 ^ 16 % 2 ^ 13)
    let head := v.toNat % 2 ^ 12
    let next := (s.cqTailOf n + 1) % s.rd (Reg.HST_QP_CFG_CQ_SIZE n)
    let valid := s.validSeqs
    let top := valid.foldl max 0
    (s.dev ≠ stNight → Gives .hostLinkUp s { s with hst := { s.hst with linkUp := true } }) ∧
    (s.dev = stNight → Gives .hostLinkUp s s) ∧
    (s.hst.linkUp = false → Gives .linkDown s s) ∧
    (s.hst.linkUp = true → Leads .linkDown s fun t => t.hst.linkUp = false ∧ (∀ k : Fin 64, t.rd (Reg.HST_QP_CFG_EN k) = 0) ∧
      t.hst.ready = [] ∧ t.jrn.waiting = [] ∧ t.jrn.ring = s.jrn.ring ∧ bitAt (t.rdw Reg.HST_STATUS) 0 = true) ∧
    (s.mayWrite m (Reg.HST_QP_CFG n) →
      (s.rd (Reg.HST_QP_CFG_EN n) = 1 → Gives (.qpEnable m n v) s (s.plainWrite (Reg.HST_QP_CFG n) cfg.toNat)) ∧
      (s.rd (Reg.HST_QP_CFG_EN n) = 0 → legal → Leads (.qpEnable m n v) s fun t => t.rd (Reg.HST_QP_CFG_EN n) = 1 ∧
        t.rd (Reg.HST_QP_SQ_HEAD_HEAD n) = 0 ∧ t.rd (Reg.HST_QP_SQ_TAIL_TAIL n) = 0 ∧ t.rd (Reg.HST_QP_CQ_HEAD_HEAD n) = 0 ∧
        t.cqTailOf n = 0 ∧ t.phaseOf n = true) ∧
      (s.rd (Reg.HST_QP_CFG_EN n) = 0 → ¬legal → Leads (.qpEnable m n v) s fun t => t.rd (Reg.HST_QP_CFG_EN n) = 0 ∧
        bitAt (t.rdw Reg.HST_STATUS) 1 = true)) ∧
    (s.mayWrite m (Reg.HST_QP_SQ_TAIL n) → Leads (.sqDoorbell m n v) s fun t => t.rd (Reg.HST_QP_SQ_TAIL_TAIL n) = v.toNat % 2 ^ 12 ∧
      s.OnlyRegs t [Reg.HST_QP_SQ_TAIL n]) ∧
    (s.mayWrite m (Reg.HST_QP_CQ_HEAD n) →
      (s.hst.ready = [] → Leads (.cqDoorbell m n v) s fun t => t.rd (Reg.HST_QP_CQ_HEAD_HEAD n) = head ∧
        s.OnlyRegs t [Reg.HST_QP_CQ_HEAD n]) ∧
      (∀ c, s.hst.ready = [c] → c.qp = n → s.rd (Reg.HST_QP_CFG_EN n) = 1 → next ≠ head → Leads (.cqDoorbell m n v) s fun t =>
        t.hst.ready = [] ∧ t.cqTailOf n = next ∧ t.phaseOf n = (if next = 0 then !s.phaseOf n else s.phaseOf n) ∧
        t.hostRead (s.cqBase n + 32 * s.cqTailOf n) 32 = c.bytes (s.phaseOf n))) ∧
    (s.mayWrite m Reg.XSP_CMD → Leads (.xspCmdGo m v) s fun t => t.rd Reg.XSP_CMD_BUSY = 1 ∧
      t.rd Reg.XSP_CMD_LEN = v.toNat / 256 % 256) ∧
    (s.rd Reg.XSP_CMD_BUSY = 0 → Gives .xspReadComplete s s) ∧
    (s.rd Reg.XSP_CMD_BUSY = 1 → Leads .xspReadComplete s fun t => t.rd Reg.XSP_CMD_BUSY = 0 ∧ t.xsp.first = false ∧
      (s.xsp.first = false → 4 ≤ s.rd Reg.XSP_CMD_LEN → leBytes 4 (t.rdw Reg.XSP_CMD_DATA) = s.nvmRead (s.rdw Reg.XSP_CMD_ADDR) 4)) ∧
    (s.dev ≠ stDawn ∨ s.rd Reg.SYS_BOOT_MAP_ROM = 0 → Gives (.bootImageLoad boot other image) s s) ∧
    (s.dev = stDawn → s.rd Reg.SYS_BOOT_MAP_ROM = 1 → bitAt (s.rd Reg.SYS_CORE_RUN_RUN) 11 = true →
      Gives (.bootImageLoad false false image) s (s.raise Reg.SYS_STATUS 0) ∧
      Gives (.bootImageLoad true other []) s { s with imageLoaded := true } ∧
      (Leads (.bootImageLoad false true []) s fun t => t.imageLoaded = true ∧
        t.rd Reg.XSP_BOOT_BANK = 1 - s.rd Reg.XSP_BOOT_BANK ∧ t.rd Reg.XSP_BOOT_BOOT_FALLBACK = 1 ∧
        t.aon.nvmBootBank = 1 - s.rd Reg.XSP_BOOT_BANK)) ∧
    (s.xsp.job = none → s.xspNext = none → Gives (.journalNvmWriteComplete r) s s) ∧
    (∀ i, s.xsp.job = some i → i.client.ofJrn = false → Gives (.journalNvmWriteComplete r) s s) ∧
    (∀ e rest, s.xsp.job = some { client := .own e, writes := s.jrnCopies e } → s.jrn.night = [] → s.jrn.ring = e :: rest →
      s.jrn.waiting = [] →
      let slot := e.seq % s.jrnSize
      let a := s.rdw Reg.JRN_BASE_A + 64 * slot
      let b := s.rdw Reg.JRN_BASE_B + 64 * slot
      (r ≠ .ok → Leads (.journalNvmWriteComplete r) s fun t => t.jrn.ring = e :: rest ∧ bitAt (t.rdw Reg.JRN_STATUS) 3 = true ∧
        bitAt (t.rdw Reg.XSP_STATUS) (if r = .timeout then 0 else 1) = true ∧ t.nvm = s.nvm) ∧
      (s.jrn.lostCount = 0 → s.aon.holdUp = false → s.xsp.first = false → a + 64 ≤ b ∨ b + 64 ≤ a →
        Leads (.journalNvmWriteComplete .ok) s fun t => t.jrn.ring = rest ∧ t.nvmRead a 64 = e.bytes 0 ∧ t.nvmRead b 64 = e.bytes 1 ∧
          t.rd Reg.JRN_CNT_WRITES_COUNT = (s.rd Reg.JRN_CNT_WRITES_COUNT + 1) % 2 ^ 32 ∧
          (rest = [] → t.jrnDurable = max s.jrnDurable (s.jrnNext - 1)))) ∧
    (∀ src tag b, s.xsp.job = some { client := .mate src tag b, writes := s.mirrorCopies b } → s.jrn.waiting = [] → s.xsp.first = false →
      Leads (.journalNvmWriteComplete .ok) s fun t => t.jrn.mirror = s.jrn.mirror.erase (src, tag, b)) ∧
    (s.dev ≠ stDawn ∨ s.jrn.scanned = true → Gives .journalScanComplete s s) ∧
    (s.dev = stDawn → s.jrn.scanned = false → s.coreClock = true → s.jrn.prescan = [] → s.jrn.ring = [] → s.jrn.night = [] →
      s.jrn.lostCount = 0 → s.aon.holdUp = false → s.rd Reg.JRN_MATE_EN = 0 → top + 2 < 2 ^ 48 → Leads .journalScanComplete s fun t =>
        t.jrn.scanned = true ∧ t.jrnNext = top + 2 ∧ t.jrnDurable = top ∧
        (∃ e, t.jrn.ring = [e] ∧ e.kind = 0x20 ∧ e.seq = top + 1) ∧
        (valid = [] → t.rdw Reg.JRN_GAPS = 0) ∧ (∀ q ∈ valid, q ≤ top) ∧
        (valid ≠ [] → (∀ q ∈ valid, t.rd64 Reg.JRN_OLDEST_SEQ_LO Reg.JRN_OLDEST_SEQ_HI ≤ q))) ∧
    (s.jrn.waiting = [] →
      (s.rd Reg.JRN_MATE_EN = 1 → (∃ e ∈ s.jrn.unacked, e.1 ≤ s.clock) → s.jrn.mateLost = false → Leads .mateAckTimeout s fun t =>
        t.jrn.mateLost = true ∧ bitAt (t.rdw Reg.JRN_STATUS) 2 = true) ∧
      (s.rd Reg.JRN_MATE_EN = 0 ∨ (∀ e ∈ s.jrn.unacked, s.clock < e.1) ∨ s.jrn.mateLost = true → Gives .mateAckTimeout s s))

/-- The commands of the host (R326 to R331, R333, R338, R342, R345). Each is taken from the head of its queue; it is refused with the status of
R330, or accepted with the next journal entry and its own effect. A query makes no entry. The order in which refusals are judged is the
model's (log 33); so are those details of the commands that N0's firmware settles (log 35, 36). Where the spec does not say what a command out of its turn does, that it
changes nothing is the model's choice (log 4). -/
def Obligations.HostCommands : Prop :=
  ∀ (s : State) (n : Fin 64),
    let c := s.subAt n
    let waits := s.subWaits n = true
    let ver := s.rd (Reg.HST_QP_VER_VERSION n)
    let taken := s.subTake n
    let refused (i : Instr) (st : Nat) : Prop := Gives i s (taken.refuse n c st)
    let head (mask : Nat) : Prop := s.opAccepted c.opcode = true ∧ c.flags = 0 ∧ c.args &&& mask = c.args
    let free := s.atReserve = false ∧ s.aon.holdUp = false ∧ s.rd Reg.JRN_MATE_EN = 0 ∧ s.jrnNext + 1 < 2 ^ 48
    let entered (t : State) : Prop := (∃ e, t.jrn.ring = s.jrn.ring ++ [e] ∧ e.kind = 1 ∧ e.seq = s.jrnNext ∧ e.qp = n.val ∧
      e.opcode = c.opcode ∧ e.cmdId = c.cmdId ∧ e.job = c.job ∧ e.hostId = c.hostId) ∧ t.jrnNext = s.jrnNext + 1 ∧
      t.rd (Reg.HST_QP_SQ_HEAD_HEAD n) = (s.rd (Reg.HST_QP_SQ_HEAD_HEAD n) + 1) % s.rd (Reg.HST_QP_CFG_SQ_SIZE n) % 2 ^ 12
    let done (t : State) (result : Nat) : Cpl := { qp := n, cmdId := c.cmdId, sqHead := t.rd (Reg.HST_QP_SQ_HEAD_HEAD n), result := result }
    let cmd (op mask since : Nat) : Prop := waits ∧ s.jrn.scanned = true ∧ c.opcode = op ∧ since ≤ ver ∧ head mask
    let page := c.args % 256
    let fw (op : Nat) : Prop := cmd 8 (fwMask op) 0x12 ∧ c.args % 4 = op ∧ s.fwBusy = false ∧ free
    let ofs := c.args / 2 ^ 64 % 2 ^ 32
    let len := c.args / 2 ^ 96 % 2 ^ 32
    let src := c.args / 2 ^ 128 % 2 ^ 64
    let pages := ((List.range 256).filter fun p => s.pg p ≠ pgFree).length
    let sheets := ((List.range 64).filter fun t => s.sh t ≠ shFree).length
    let mirror := bitAt c.args 192 && decide (0x13 ≤ ver)
    let from_ := c.args % 2 ^ 48
    let want := c.args / 2 ^ 64 % 2 ^ 16 + 1
    let last := if mirror then s.mirrorTop else s.jrnNext - 1
    (∀ p ∈ [(Instr.jobOpen n, 1), (.jobClose n, 2), (.pageSubmit n, 3), (.pageBind n, 4), (.commitPolicy n, 5), (.cancel n, 6),
        (.fwStageWrite n, 8), (.fwStageVerify n, 8), (.fwStageSwitch n, 8), (.fwStageRestart n, 8), (.status n, 7), (.journalRead n, 9)],
      (s.subWaits n = false → Gives p.1 s s) ∧
      (waits → s.jrn.scanned = true → c.opcode = 0 ∨ 9 < c.opcode → refused p.1 1) ∧
      (waits → s.jrn.scanned = true → 1 ≤ c.opcode → c.opcode ≤ 9 → c.opcode ≠ p.2 → Gives p.1 s s)) ∧
    (waits → s.jrn.scanned = true →
      (c.opcode = 5 → ver < 0x11 → refused (.commitPolicy n) 2) ∧
      (c.opcode = 1 → 0x10 ≤ ver → s.dev < stMorning → refused (.jobOpen n) 3) ∧
      (c.opcode = 1 → 0x10 ≤ ver → s.opAccepted 1 = true → c.flags ≠ 0 → refused (.jobOpen n) 4)) ∧
    (cmd 1 0x0FFF00FF 0x10 → (s.atReserve = true → refused (.jobOpen n) 7) ∧
      (free → Leads (.jobOpen n) s fun t => entered t ∧ c.job ∉ t.jrn.closedJobs ∧
        (s.nvmOpen = false → s.hst.ready = [] → s.jrn.waiting = [] →
          t.hostRead (s.cqBase n + 32 * s.cqTailOf n) 32 = Cpl.bytes
            { done t 0 with jseq := s.jrnNext, durable := decide (s.jrnNext ≤ s.jrnDurable) } (s.phaseOf n)))) ∧
    (cmd 2 0 0x10 → free → Leads (.jobClose n) s fun t => entered t ∧ c.job ∈ t.jrn.closedJobs) ∧
    (cmd 3 (2 ^ 52 - 1) 0x10 →
      (s.jrn.closedJobs.contains c.job = true → refused (.pageSubmit n) 4) ∧
      (s.jrn.closedJobs.contains c.job = false → s.freePage = none → refused (.pageSubmit n) 5) ∧
      (∀ p, s.jrn.closedJobs.contains c.job = false → s.freePage = some p → free → Leads (.pageSubmit n) s fun t => entered t ∧
        t.pg p = pgSubmitted ∧ t.rdw (Reg.PSQ_PG_ADDR_LO p) = c.args % 2 ^ 32 ∧
        t.rd (Reg.PSQ_PG_ADDR_HI_ADDR p) = c.args / 2 ^ 32 % 2 ^ 20 ∧ (t.pageOf p).job = c.job ∧ (t.pageOf p).hostId = c.hostId)) ∧
    (cmd 4 0x1FFFFFFFF0003FFFF 0x10 →
      (s.pg page ≠ pgAdmitted → s.pg page ≠ pgVerified → refused (.pageBind n) 4) ∧
      (s.pg page = pgAdmitted ∨ s.pg page = pgVerified → s.freeTag = none → refused (.pageBind n) 5) ∧
      (∀ k, s.pg page = pgAdmitted ∨ s.pg page = pgVerified → s.freeTag = some k → free → Leads (.pageBind n) s fun t => entered t ∧
        t.sh k = shBound ∧ t.shPage k = page ∧ t.shSeq k = s.rd Reg.PSQ_NEXT_SEQ_SEQ ∧ t.pg page = pgBound)) ∧
    (cmd 5 0x3FF 0x11 → free → Leads (.commitPolicy n) s fun t => entered t ∧ t.jrn.closedJobs = s.jrn.closedJobs) ∧
    (cmd 6 0x1FF 0x10 → bitAt c.args 8 = false →
      (s.pg page = pgFree → refused (.cancel n) 4) ∧ (s.pg page = pgPrinting → refused (.cancel n) 6) ∧
      (s.pg page ≠ pgFree → s.pg page ≠ pgPrinting → s.pg page ≠ pgBound → free → Leads (.cancel n) s fun t =>
        t.pg page = pgWithdrawn ∧ t.rd (Reg.PSQ_PG_STATE_REASON page) = 6)) ∧
    (waits → c.opcode = 7 → 0x10 ≤ ver → head 0 → Gives (.status n) s (taken.post
      (done taken (s.dev + pages % 256 * 2 ^ 8 + sheets % 256 * 2 ^ 16 + s.rd Reg.THM_STATE_NVM_OK * 2 ^ 24)))) ∧
    (waits → c.opcode = 9 → 0x10 ≤ ver → head (2 ^ 48 - 1 + 0xFFFF * 2 ^ 64 + (2 ^ 64 - 1) * 2 ^ 128 + 2 ^ 192) →
      Gives (.journalRead n) s ((taken.jrnCopyOut mirror from_ src last want).post
        (done taken (min want (last + 1 - from_))))) ∧
    (cmd 8 (fwMask 0) 0x12 → c.args % 4 = 0 → s.fwBusy = true → refused (.fwStageWrite n) 9) ∧
    (cmd 8 (fwMask 0) 0x12 → c.args % 4 = 0 → s.fwBusy = false → ofs % 256 ≠ 0 ∨ len % 256 ≠ 0 → refused (.fwStageWrite n) 4) ∧
    (fw 0 → ofs % 256 = 0 → len % 256 = 0 → Leads (.fwStageWrite n) s fun t => entered t ∧ t.rd Reg.XSP_BOOT_STAGED = 0 ∧
      ∃ cpl, t.hst.fw = some (.write ofs len src cpl) ∧ cpl.jseq = s.jrnNext ∧ cpl.result = len) ∧
    (fw 1 → Leads (.fwStageVerify n) s fun t => t.jrn = s.jrn ∧ ∃ cpl e, t.hst.fw = some (.verify cpl e) ∧ cpl.cmdId = c.cmdId ∧
      e.opcode = 8) ∧
    (fw 2 → (s.rd Reg.XSP_BOOT_STAGED = 0 → refused (.fwStageSwitch n) 4) ∧
      (s.rd Reg.XSP_BOOT_STAGED = 1 → s.dev = stNoon ∨ s.dev = stDusk → Leads (.fwStageSwitch n) s fun t => entered t ∧
        t.rd Reg.XSP_BOOT_SWITCH_PENDING = 1 ∧ t.rd Reg.XSP_BOOT_BANK = s.rd Reg.XSP_BOOT_BANK) ∧
      (s.rd Reg.XSP_BOOT_STAGED = 1 → s.dev = stDawn ∨ s.dev = stMorning → Leads (.fwStageSwitch n) s fun t => entered t ∧
        t.rd Reg.XSP_BOOT_SWITCH_PENDING = 0 ∧ t.rd Reg.XSP_BOOT_STAGED = 0 ∧
        t.rd Reg.XSP_BOOT_BANK = 1 - s.rd Reg.XSP_BOOT_BANK)) ∧
    (fw 3 → (s.dev ≠ stMorning ∨ s.pageBound = true → refused (.fwStageRestart n) 3) ∧
      (s.dev = stMorning → s.pageBound = false → Leads (.fwStageRestart n) s fun t => t.dev = stDawn ∧
        t.rd Reg.SYS_STATE_DAWN_KIND = 2 ∧ t.jrn.ring = [])) ∧
    (∀ valid, s.hst.fw = none → Gives (.fwStageComplete valid) s s) ∧
    (∀ valid o k a cpl, s.hst.fw = some (.write o k a cpl) →
      (s.rd Reg.XSP_CTRL_EN = 0 → Gives (.fwStageComplete valid) s s) ∧
      (s.rd Reg.XSP_CTRL_EN = 1 → s.xsp.first = false → Leads (.fwStageComplete valid) s fun t => t.hst.fw = none ∧
        t.nvmRead (s.otherBank + o) k = s.hostRead a k)) ∧
    (∀ cpl e, s.hst.fw = some (.verify cpl e) →
      (free → Leads (.fwStageComplete true) s fun t => t.hst.fw = none ∧ t.rd Reg.XSP_BOOT_STAGED = 1 ∧ t.jrnNext = s.jrnNext + 1) ∧
      Gives (.fwStageComplete false) s ({ s with hst := { s.hst with fw := none } }.xspSettled.post { cpl with status := 8 }))

/-! ## Monitors and the fabric -/

/-- Vesper, counters, management path, finisher and the loss of power (R331, R380 to R396, R398, R409, R419). The scan sets the counts of the
log; a record is raised into the ring, written twice to NVM, and read back by slot. Counters wrap at 48 bits. ALIVE toggles unless something
stops it; the management paths give the registers they may; two polls that disagree are a mismatch. Where the spec does not say what a command out of its turn does, that it
changes nothing is the model's choice (log 4, 45, 46). -/
def Obligations.Monitors : Prop :=
  ∀ (s : State) (m : Master) (k : Fin 12) (c : Fin 64) (r : Fin 32) (v : RegWord) (moved : Vector Nat 25) (off : BitVec 22) (b : Byte)
    (line : List Byte) (a : Regulator) (res : NvmResult),
    let raised (t : State) (code src : Nat) : Prop := ∃ e, t.vsp.ring = s.vsp.ring ++ [e] ∧ e.code = code ∧ e.src = src
    let room := s.vsp.ring.length < s.vspEntries
    let slot := s.rd Reg.VSP_NEXT_SLOT
    let na := s.rdw Reg.VSP_BASE_A + 32 * slot
    let nb := s.rdw Reg.VSP_BASE_B + 32 * slot
    let sum := s.pmcCount c + s.pmcValue c
    let seq := s.pmc.seq
    let period := 3000 * s.rd Reg.PMC_DUMP_CFG_PERIOD_US
    let dumped : State := { s with due := { s.due with dump := s.clock + period }, pmc := { s.pmc with seq := seq + 1 } }.wrw
      Reg.PMC_DUMP_SEQ (seq + 1)
    let at_ := s.rd64 Reg.PMC_DUMP_LO Reg.PMC_DUMP_HI + 576 * (seq % max 1 (s.rd Reg.PMC_DUMP_CFG_ENTRIES))
    let called := s.aon.power = true ∧ s.rd Reg.MGT_CTRL_SMB_EN = 1
    let target := BitVec.ofNat 7 (s.rd Reg.MGT_SMB_CFG_ADDR)
    let writes (e : VspRec) (j : XspJob) := j = { client := .record e, writes := [(na, e.bytes 0), (nb, e.bytes 1)] } ∧
      (s.xsp.job = some j ∨ (s.xsp.job = none ∧ s.xspNext = some j))
    (s.dev ≠ stDawn ∨ s.rd Reg.SYS_STATE_DAWN_KIND ≠ 0 ∨ s.vsp.scanned = true → Gives .vesperScanComplete s s) ∧
    (s.dev = stDawn → s.rd Reg.SYS_STATE_DAWN_KIND = 0 → s.vsp.scanned = false → room → Leads .vesperScanComplete s fun t =>
      t.vsp.scanned = true ∧ raised t 1 6 ∧ (∀ x ∈ s.vspRecords, recSeconds x.2 ≤ t.rd Reg.VSP_SECONDS_S) ∧
      ((∀ x ∈ s.vspRecords, recBoot x.2 + 1 < 2 ^ 24) → ∀ x ∈ s.vspRecords, recBoot x.2 < t.rd Reg.VSP_BOOT_COUNT)) ∧
    (s.mayWrite (.core k) Reg.VSP_RAISE_CODE →
      (room → Leads (.vspRaiseGo (.core k) v) s fun t => raised t (v.toNat % 65536) (0x20 + k) ∧ t.regs = s.regs) ∧
      (¬room → Leads (.vspRaiseGo (.core k) v) s fun t => t.vsp.ring = s.vsp.ring ∧ bitAt (t.rdw Reg.VSP_STATUS) 0 = true ∧
        t.rd Reg.VSP_LOST_COUNT = (s.rd Reg.VSP_LOST_COUNT + 1) % 2 ^ 32)) ∧
    (s.xsp.job = none → s.xspNext = none → Gives (.vesperNvmWriteComplete res) s s) ∧
    (∀ j, s.xsp.job = some j → j.client.ofVsp = false → Gives (.vesperNvmWriteComplete res) s s) ∧
    (∀ e j, writes e j → s.jrn.waiting = [] →
      (res ≠ .ok → Leads (.vesperNvmWriteComplete res) s fun t => t.vsp.ring = s.vsp.ring ∧ t.nvm = s.nvm ∧
        bitAt (t.rdw Reg.VSP_STATUS) 1 = true ∧ bitAt (t.rdw Reg.XSP_STATUS) (if res = .timeout then 0 else 1) = true ∧
        t.rd Reg.VSP_NEXT_SLOT = slot) ∧
      (∀ rest, s.vsp.ring = e :: rest → s.xsp.first = false → s.vsp.lostSince = 0 → na + 32 ≤ nb ∨ nb + 32 ≤ na →
        Leads (.vesperNvmWriteComplete .ok) s fun t => t.vsp.ring = rest ∧ t.nvmRead na 32 = e.bytes 0 ∧ t.nvmRead nb 32 = e.bytes 1 ∧
          t.rd Reg.VSP_NEXT_SLOT = (slot + 1) % 65536 ∧
          (s.rd Reg.VSP_CTRL_FREEZE = 1 → e.alwaysOn = true → bitAt (t.rdw Reg.VSP_STATUS) 2 = true))) ∧
    (s.rd Reg.VSP_CTRL_FREEZE = 1 → (∀ e ∈ s.vsp.ring, e.alwaysOn = false) → s.vspJob = none) ∧
    (s.mayWrite m Reg.VSP_READ_IDX → s.rd Reg.VSP_READ_STATUS_BUSY = 0 → Leads (.vspReadGo m v) s fun t =>
      t.rd Reg.VSP_READ_STATUS_BUSY = 1 ∧ t.vsp.readSlot = v.toNat % 65536) ∧
    (s.rd Reg.VSP_READ_STATUS_BUSY = 0 ∨ s.nvmWriteWaits = true → Gives .vspReadComplete s s) ∧
    (s.rd Reg.VSP_READ_STATUS_BUSY = 1 → s.nvmWriteWaits = false →
      (s.vspCopy s.vsp.readSlot = none → Gives .vspReadComplete s (s.xspSettled.wrw Reg.VSP_READ_STATUS 0)) ∧
      (∀ copy d, s.vspCopy s.vsp.readSlot = some (copy, d) → Leads .vspReadComplete s fun t =>
        t.rd Reg.VSP_READ_STATUS_BUSY = 0 ∧ t.rd Reg.VSP_READ_STATUS_VALID = 1 ∧ t.rd Reg.VSP_READ_STATUS_COPY = boolNat copy ∧
        ∀ w < 8, t.rdw (Reg.VSP_READ_W w) = ofLe ((d.drop (4 * w)).take 4))) ∧
    (s.dev ≠ stNight → s.aon.power = true → s.due.second ≤ s.clock → Leads .operatingSecond s fun t =>
      t.rd Reg.VSP_SECONDS_S = fitNat 32 (s.rd Reg.VSP_SECONDS_S + 1) ∧ t.due.second = s.clock + 3000000000) ∧
    (s.dev = stNight ∨ s.clock < s.due.second → Gives .operatingSecond s s) ∧
    (s.pmcRuns = true → s.pmc.done.contains c.val = false → 2 ^ 48 ≤ sum → Leads (.counterWrap c) s fun t =>
      t.pmcCount c = sum % 2 ^ 48 ∧ t.pmcWrapped c = true ∧ c.val ∈ t.pmc.done) ∧
    (sum < 2 ^ 48 → Gives (.counterWrap c) s s) ∧
    (s.mayWrite m Reg.PMC_CTRL → Leads (.clrAll m v) s fun t => t.pmcCount c = 0 ∧ t.pmcWrapped c = false) ∧
    (∀ d, s.rd Reg.PMC_DUMP_CFG_PERIOD_US = 0 ∨ s.clock < s.due.dump → Gives (.pmcDump d) s s) ∧
    (s.rd Reg.PMC_DUMP_CFG_PERIOD_US ≠ 0 → s.coreClock = true → s.due.dump ≤ s.clock →
      Gives (.pmcDump .late) s (dumped.raise Reg.PMC_STATUS 1) ∧ Gives (.pmcDump .error) s (dumped.raise Reg.PMC_STATUS 2) ∧
      Gives (.pmcDump .lost) s dumped ∧
      (dramBase ≤ at_ → at_ + 576 ≤ dramEnd → Gives (.pmcDump .written) s (dumped.writeBytes at_ (s.dumpRecord seq)))) ∧
    (s.coreClock = true → s.due.window ≤ s.clock → Leads (.bwWindowClose moved) s fun t =>
      (∀ p : Fin 25, t.rdw (Reg.PMC_BW p) = moved[p] / 64 % 2 ^ 32) ∧
      t.due.window = s.clock + 3000 * max 1 (s.rd Reg.PMC_BW_CFG_WINDOW_US)) ∧
    (s.clock < s.due.window → Gives (.bwWindowClose moved) s s) ∧
    (s.clock < s.due.alive → Gives .aliveToggle s s) ∧
    (s.due.alive ≤ s.clock → Leads .aliveToggle s fun t => t.due.alive = s.clock + 1500000 ∧
      (s.dev = stNight → t.rd Reg.MGT_ALIVE_LEVEL = 0) ∧
      (s.dev ≠ stNight → s.aliveStopped = true → t.rd Reg.MGT_ALIVE_LEVEL = s.rd Reg.MGT_ALIVE_LEVEL ∧ t.rd Reg.MGT_ALIVE_RUN = 0) ∧
      (s.dev ≠ stNight → s.aliveStopped = false → t.rd Reg.MGT_ALIVE_LEVEL = 1 - s.rd Reg.MGT_ALIVE_LEVEL ∧
        t.rd Reg.MGT_ALIVE_RUN = 1)) ∧
    (called → s.rd Reg.MGT_SMB_CFG_ADDR < 128 →
      (∀ w, s.mgtAnswer off.toNat = some w → Gives (.smbusProcessCall target off (some true)) s
        { s with mgt := { s.mgt with smb := some (some w) } }) ∧
      (s.mgtAnswer off.toNat = none → Leads (.smbusProcessCall target off (some true)) s fun t => t.mgt.smb = some none ∧
        bitAt (t.rdw Reg.MGT_STATUS) 2 = true) ∧
      (Leads (.smbusProcessCall target off (some false)) s fun t => t.mgt.smb = some none ∧ bitAt (t.rdw Reg.MGT_STATUS) 2 = true)) ∧
    (¬called → ∀ p, Gives (.smbusProcessCall target off p) s s) ∧
    (regExists off.toNat = true → alwaysOnReg off.toNat = true → s.mgtAnswer off.toNat = some (s.getReg off.toNat)) ∧
    (alwaysOnReg off.toNat = false → off.toNat / 0x10000 ≠ 32 ∨ s.dev = stNight → s.mgtAnswer off.toNat = none) ∧
    (s.uartHw = false → s.aon.power = true → Gives (.uartRxByte b) s { s with mgt := { s.mgt with uartRx := s.mgt.uartRx ++ [b] } }) ∧
    (s.uartHw = true → Gives (.uartRxByte b) s s) ∧
    (s.uartHw = false → Gives (.uartReadLine line) s s) ∧
    (s.uartHw = true →
      (readLineOffset line = none → Gives (.uartReadLine line) s { s with mgt := { s.mgt with uartLines := s.mgt.uartLines ++ [.unknown] } }) ∧
      (∀ o w, readLineOffset line = some o → s.mgtAnswer o = some w → Gives (.uartReadLine line) s
        { s with mgt := { s.mgt with uartLines := s.mgt.uartLines ++ [.value w] } })) ∧
    (s.railPolled r = false ∨ s.clock < s.due.pmbus → Gives (.pmbusPoll r (some a)) s s ∧ Gives (.pmbusPoll r none) s s) ∧
    (s.railPolled r = true → s.due.pmbus ≤ s.clock → (Leads (.pmbusPoll r (some a)) s fun t => t.rd (Reg.MGT_PMB_R_VI_VOUT r) = a.vout.toNat ∧
        t.rd (Reg.MGT_PMB_R_VI_IOUT r) = a.iout.toNat ∧ t.rd (Reg.MGT_PMB_R_ST_STATUS r) = a.status.toNat ∧
        t.rd (Reg.MGT_PMB_R_ST_OPERATION r) = a.operation.toNat ∧ t.rd (Reg.MGT_PMB_R_ST_VALID r) = 1 ∧ t.mgt.fresh[r] = true ∧ t.due.pmbus = s.clock + 3000000) ∧
      Leads (.pmbusPoll r none) s fun t => t.rd (Reg.MGT_PMB_R_ST_VALID r) = 0 ∧ bitAt (t.rdw Reg.MGT_STATUS) 1 = true) ∧
    (s.dev = stNight ∨ s.clock < s.due.mirror → Gives .mirrorUpdate s s) ∧
    (s.dev ≠ stNight → s.due.mirror ≤ s.clock → (∀ q : Fin 32, q ≠ r → s.mgt.fresh[q] = false) →
      (s.mgt.fresh[r] = false → Leads .mirrorUpdate s fun t => ∀ w < 16, t.rdw (Reg.MGT_MIRROR w) = s.mirrorWord w % 2 ^ 32) ∧
      (s.mgt.fresh[r] = true → s.railPolled r = true → s.rd (Reg.MGT_PMB_R_ST_VALID r) = 1 → s.railDiffers r &&& s.mgt.differs[r] ≠ 0 →
        Leads .mirrorUpdate s fun t => t.rd Reg.MGT_MISMATCH_INFO_RAIL = r ∧ bitAt (t.rdw Reg.MGT_STATUS) 0 = true ∧
          t.mgt.fresh[r] = false)) ∧
    (∀ u, s.fin.frameEnd = some u →
      (u ≤ s.clock → Leads .finFrameSent s fun t => t.fin.queue = s.fin.queue.tail ∧
        (s.ballLive 208 0 = true → s.periphClock = true → s.fin.queue.tail ≠ [] → t.fin.frameEnd = some (s.clock + 300000)) ∧
        (s.ballLive 208 0 = false ∨ s.fin.queue.tail = [] → t.fin.frameEnd = none)) ∧
      (s.clock < u → Gives .finFrameSent s s)) ∧
    (s.fin.frameEnd = none → s.ballLive 208 0 = false ∨ s.fin.queue = [] → Gives .finFrameSent s s) ∧
    (∀ u, s.fin.relUntil = some u →
      (u ≤ s.clock → Gives .finRelPulseEnd s { s with fin := { s.fin with relUntil := none, spoil := false } }) ∧
      (s.clock < u → Gives .finRelPulseEnd s s)) ∧
    (s.fin.relUntil = none → Gives .finRelPulseEnd s s) ∧
    (Leads .alwaysOnSupplyLoss s fun t => t.dev = stNight ∧ t.aon.power = false ∧ t.mem = [] ∧ t.jrn = {} ∧ t.nvm = s.nvm ∧
      t.nvme = s.nvme ∧ ∀ j, (t.core j).posted = [])

/-- The fabric's ports, link frames, discovery, routes, events and time (R59, R354 to R356, R359 to R361, R364, R369, R371 to R373, R375). A port
trains on the lanes that lock; a frame is counted or replayed; HELLO brings a port up; DISCOVER and ASSIGN give ids; ROUTE sets the automatic
entries; events queue; SYNC gives the offset, the correction and the lock. Where the spec does not say what a command out of its turn does, that it
changes nothing is the model's choice (log 4, 13, 38, 41). -/
def Obligations.FabricLinks : Prop :=
  ∀ (s : State) (m : Master) (p q : Fin 8) (v : RegWord) (lane0 lane1 inv0 inv1 : Bool) (frame count eui verMin verMax number root src prio
      sent acc part residence d h : Nat) (held wanted : Option Nat) (headers : List (BitVec 128)) (routes : List (Nat × Nat)) (f : FabMsg),
    let st := s.rd (Reg.FAB_P_STATE_STATE p)
    let lanes := s.rd (Reg.FAB_P_STATE_LANES p)
    let alone := (∀ x ∈ s.fab.tx, x.1 ≠ p) ∧ ∀ x ∈ s.fab.adv, x.1 ≠ p
    let sends (t : State) (q cls kind : Nat) : Prop := ∃ g, (q, g) ∈ t.fab.tx ∧ g.cls = cls ∧ g.kind = kind
    let rev0 := inv0 != decide (s.rd (Reg.FAB_P_CFG_RX_INV0 p) ≠ 0)
    let rev1 := inv1 != decide (s.rd (Reg.FAB_P_CFG_RX_INV1 p) ≠ 0)
    let lock0 := lane0 && !(p = 7 && rev0)
    let lock1 := lane1 && !(p = 7 && rev1)
    let link := s.fabOpen p 5 = true
    let status (t : State) (i : Nat) : Prop := bitAt (t.rdw Reg.FAB_STATUS) i = true
    let fresh := number ∉ s.fab.floods
    let hi := min verMax (s.rd Reg.FAB_VER_VER_MAX)
    let lo := max verMin (s.rd Reg.FAB_VER_VER_MIN)
    let has (t : State) (id : Nat) : Prop := t.rd Reg.FAB_ID_DEV_ID = id ∧ t.rd Reg.FAB_ID_VALID = 1 ∧ t.rd Reg.STR_PLN_ID_DEV_ID = id
    let grants (held wanted : Option Nat) (id : Nat) : Prop := Leads (.assign p number (.request eui held wanted)) s fun t =>
      ({ eui := eui, id := id } : FabDevice) ∈ t.fab.devices ∧ ∀ r : Fin 8, s.portUp r = true → sends t r 5 2
    let new : List (Nat × Nat × Nat) := routes.map fun x => (p.val, x.1, x.2)
    let keep := s.fab.adv.filter fun e => !(e.1 = p.val && routes.any fun x => x.1 = e.2.1)
    let u := s.plainWrite Reg.FAB_CTRL (withBit v 3 true).toNat
    let mine (cls : Nat) : Prop := s.fabOpen p cls = true ∧ f.dst = s.devId
    let byte (i : Nat) : Nat := (f.payload.getD i 0).toNat
    let e : FabEvent := { src := f.src, seq := ofLe (f.payload.take 4), tag := byte 7, code := byte 4, spec := byte 5 }
    let heard (c : Instr) (P : State → Prop) : Prop := mine 2 → (∀ k : Fin 64, s.rd (Reg.PSQ_SH_CTRL_PAIR k) = 0) → Leads c s P
    let outcome := e.spec = 0 ∧ 0xF0 ≤ e.code ∧ e.code ≤ 0xF2
    let known := s.fab.peers.find? fun o => o.dev = f.src && o.seq = e.seq
    let addr := if s.rd (Reg.FAB_P_STATE_VER p) = 0x10 then 0 else ofLe ((f.payload.drop 8).take 8)
    let acked := ofLe (f.payload.take 4) + byte 4 * 2 ^ 32 + byte 5 * 2 ^ 40
    let synced := s.fabOpen p 3 = true ∧ src ≠ s.devId ∧ s.rd Reg.FAB_SYNC_STATE_MASTER = 0 ∧
      (s.fab.masterKnown = false ∨ s.rd Reg.FAB_SYNC_STATE_MASTER_ID = src ∧ s.fab.syncTime < sent)
    let ofs := fitInt ((sent + (acc + s.rd (Reg.FAB_P_DELAY_DELAY p)) : Nat) - (8 * s.meridian : Nat) : Int)
    let ticks := wholeTicks ofs
    let sync (P : State → Prop) : Prop := Leads (.sync p src prio sent acc) s P
    let mayLead := s.rd Reg.FAB_SYNC_STATE_MASTER = 1 ∨ s.rd Reg.FAB_SYNC_CFG_MASTER_EN = 1 ∧ s.fab.masterKnown = false
    let silent := s.fab.masterKnown = true ∧ s.rd Reg.FAB_SYNC_STATE_MASTER = 0 ∧
      s.fab.lastSync + 10 * s.rd Reg.FAB_SYNC_CFG_INTERVAL * 3000000 ≤ s.clock
    (s.portEnabled p = false ∨ 2 ≤ st → Gives (.portBlockLock p lane0 lane1 inv0 inv1) s s) ∧
    (s.portEnabled p = true → st < 2 →
      (lock0 = true → lock1 = true → Leads (.portBlockLock p lane0 lane1 inv0 inv1) s fun t => t.rd (Reg.FAB_P_STATE_STATE p) = 2 ∧
        t.rd (Reg.FAB_P_STATE_LANES p) = 3 ∧ t.rd (Reg.FAB_P_STATE_INV0 p) = boolNat rev0 ∧ t.rd (Reg.FAB_P_STATE_INV1 p) = boolNat rev1 ∧
        sends t p 5 0) ∧
      ((lock0 && lock1) = false → Leads (.portBlockLock p lane0 lane1 inv0 inv1) s fun t => t.rd (Reg.FAB_P_STATE_STATE p) = 1 ∧
        t.rd (Reg.FAB_P_STATE_LANES p) = boolNat lock0 + 2 * boolNat lock1 ∧ t.fab = s.fab ∧
        (st = 0 → t.due.lane[p] = s.clock + 300000000))) ∧
    (s.portEnabled p = true → st = 1 → lanes = 1 ∨ lanes = 2 → s.due.lane[p] ≤ s.clock → Leads (.laneLockTimeout p) s fun t => t.rd (Reg.FAB_P_STATE_STATE p) = 2 ∧
      t.rd (Reg.FAB_P_STATE_LANES p) = lanes ∧ status t 1 ∧ sends t p 5 0) ∧
    (s.portEnabled p = false ∨ st ≠ 1 ∨ lanes = 0 ∨ lanes = 3 ∨ s.clock < s.due.lane[p] → Gives (.laneLockTimeout p) s s) ∧
    (st = 0 → Gives (.portDown p) s s) ∧
    (st ≠ 0 →
      (alone → Leads (.portDown p) s fun t => t.rd (Reg.FAB_P_STATE_STATE p) = 0 ∧ t.rd (Reg.FAB_P_STATE_LANES p) = 0 ∧
        t.rd (Reg.FAB_P_STATE_PEER_VALID p) = 0 ∧ (st = 3 → status t 0)) ∧
      (∀ x, s.rd Reg.FAB_CTRL_AUTO_ROUTE = 0 → s.fab.tx = [(p.val, x)] → x.cls = 2 → Leads (.portDown p) s fun t => t.fab.tx = [] ∧
        t.rd Reg.FAB_CNT_EV_DROP_COUNT = (s.rd Reg.FAB_CNT_EV_DROP_COUNT + 1) % 2 ^ 32)) ∧
    (s.fabOpen p 5 = false → (∀ ok, Gives (.frameReceive p frame ok headers) s s) ∧ Gives (.replayRequest p frame count) s s ∧
      Gives (.hello p eui verMin verMax held) s s ∧ Gives (.discover p number root) s s ∧
      (∀ a, Gives (.assign p number a) s s) ∧ Gives (.route p routes) s s) ∧
    (link →
      (Leads (.frameReceive p frame true headers) s fun t => t.rd (Reg.FAB_P_CNT_RX_COUNT p) = (s.rd (Reg.FAB_P_CNT_RX_COUNT p) + 8) % 2 ^ 32 ∧
        t.fab.rxFrame[p] = none ∧ t.rd Reg.FAB_CNT_MALFORMED_COUNT =
          (s.rd Reg.FAB_CNT_MALFORMED_COUNT + (headers.filter fun x => !headerLegal x).length) % 2 ^ 32) ∧
      (s.fab.rxFrame[p] ≠ some frame → Leads (.frameReceive p frame false headers) s fun t => t.fab.rxFrame[p] = some frame ∧
        t.fab.rxFails[p] = 1 ∧ t.rd (Reg.FAB_P_CNT_CRC_COUNT p) = (s.rd (Reg.FAB_P_CNT_CRC_COUNT p) + 1) % 2 ^ 32 ∧
        t.rd (Reg.FAB_P_STATE_STATE p) = st) ∧
      (s.fab.rxFrame[p] = some frame → 16 ≤ s.fab.rxFails[p] → alone →
        Leads (.frameReceive p frame false headers) s fun t => t.rd (Reg.FAB_P_STATE_STATE p) = 0) ∧
      (64 < count → Gives (.replayRequest p frame count) s s) ∧
      (count ≤ 64 → s.fab.replayFrame[p] ≠ some frame → Leads (.replayRequest p frame count) s fun t =>
        t.rd (Reg.FAB_P_CNT_REPLAY_COUNT p) = (s.rd (Reg.FAB_P_CNT_REPLAY_COUNT p) + count) % 2 ^ 32 ∧ t.fab.replays[p] = 1 ∧
        t.rd (Reg.FAB_P_STATE_STATE p) = st) ∧
      (count ≤ 64 → s.fab.replayFrame[p] = some frame → 16 ≤ s.fab.replays[p] → alone →
        Leads (.replayRequest p frame count) s fun t => t.rd (Reg.FAB_P_STATE_STATE p) = 0)) ∧
    (link →
      (hi < lo → alone → Leads (.hello p eui verMin verMax held) s fun t => t.rd (Reg.FAB_P_STATE_STATE p) = 0 ∧ status t 2) ∧
      (lo ≤ hi → st = 3 ∨ s.isRoot = false ∧ s.rd Reg.FAB_CTRL_AUTO_ROUTE = 0 → Leads (.hello p eui verMin verMax held) s fun t =>
        t.rd (Reg.FAB_P_STATE_STATE p) = 3 ∧ t.rd (Reg.FAB_P_STATE_VER p) = hi ∧ t.fab.peerEui[p] = some eui ∧
        (held = none → t.rd (Reg.FAB_P_STATE_PEER_VALID p) = 0) ∧
        ∀ i, held = some i → t.rd (Reg.FAB_P_STATE_PEER_VALID p) = 1 ∧ t.rd (Reg.FAB_P_STATE_PEER_ID p) = i % 1024)) ∧
    (link → ¬fresh → Gives (.discover p number root) s s ∧ ∀ a, Gives (.assign p number a) s s) ∧
    (link → fresh →
      (s.isRoot = false → Leads (.discover p number root) s fun t => number ∈ t.fab.floods ∧ t.fab.floodsSent = s.fab.floodsSent + 1 ∧
        (s.portUp q = true → sends t q 5 2 ∧ (q ≠ p → sends t q 5 1))) ∧
      (s.isRoot = true → s.eui ≤ root → Leads (.discover p number root) s fun t => number ∈ t.fab.floods ∧
        t.fab.floodsSent = s.fab.floodsSent ∧ t.regs = (s.flood (some p.val) 1 number (leBytes 8 root)).regs) ∧
      (s.isRoot = true → root < s.eui → Leads (.discover p number root) s fun t => t.isRoot = false ∧ status t 3) ∧
      (∀ i, i < 1024 → Leads (.assign p number (.grant s.eui (some i))) s fun t => has t i ∧ t.rd (Reg.FAB_ROUTE_PORT i) = 8) ∧
      (Leads (.assign p number (.grant s.eui none)) s fun t => t.rd Reg.FAB_ID_VALID = 0 ∧ status t 3) ∧
      (∀ i, eui ≠ s.eui → Leads (.assign p number (.grant eui (some i))) s fun t => ({ eui := eui, id := i } : FabDevice) ∈ t.fab.devices ∧
        t.rdw Reg.FAB_ID = s.rdw Reg.FAB_ID ∧ t.rd Reg.FAB_DEVICES_COUNT = t.fab.devices.length % 2 ^ 11) ∧
      (s.isRoot = false → Gives (.assign p number (.request eui held wanted)) s
        (s.flood (some p.val) 2 number (assignBytes (.request eui held wanted)))) ∧
      (s.isRoot = true → eui ≠ s.eui →
        (∀ i, s.idTaken eui i = false → grants (some i) wanted i ∧ grants none (some i) i) ∧
        (∀ i, i < 1024 → s.idTaken eui i = false → (∀ j < i, s.idTaken eui j = true) → grants none none i) ∧
        (∀ i, s.idTaken eui i = true → Leads (.assign p number (.request eui (some i) wanted)) s fun t => t.fab.devices = s.fab.devices))) ∧
    (link → s.rd Reg.FAB_CTRL_AUTO_ROUTE = 0 → Gives (.route p routes) s { s with fab := { s.fab with adv := keep ++ new } }) ∧
    (s.rd Reg.FAB_CTRL_AUTO_ROUTE = 1 → s.portUp p = true → link → d < 1024 → s.rd (Reg.FAB_ROUTE_STATIC d) = 0 →
      s.rd Reg.FAB_ID_VALID = 0 ∨ d ≠ s.devId → h < 254 →
      (s.fab.adv = [] → Leads (.route p [(d, h)]) s fun t => t.rd (Reg.FAB_ROUTE_PORT d) = p ∧ t.rd (Reg.FAB_ROUTE_HOPS d) = h + 1) ∧
      (∀ k, s.fab.adv = [(q.val, d, k)] → q ≠ p → s.portUp q = true → k < 254 → Leads (.route p [(d, h)]) s fun t =>
        t.rd (Reg.FAB_ROUTE_PORT d) = if h < k ∨ (h = k ∧ p < q) then p.val else q.val)) ∧
    (s.rd Reg.FAB_CTRL_AUTO_ROUTE = 1 → link → d < 1024 → s.rd (Reg.FAB_ROUTE_STATIC d) = 1 → Leads (.route p [(d, h)]) s fun t =>
      t.rdw (Reg.FAB_ROUTE d) = s.rdw (Reg.FAB_ROUTE d)) ∧
    (s.mayWrite m Reg.FAB_CTRL → s.rd Reg.FAB_CTRL_EN = 1 →
      (bitAt v.toNat 0 = true → Gives (.fabDiscover m v) s u.discover) ∧
      (bitAt v.toNat 0 = true → s.dev ≠ stNight → 2 ≤ s.rd (Reg.FAB_P_STATE_STATE q) →
        Leads (.fabDiscover m v) s fun t => sends t q 5 0 ∧ (u.isRoot = true → t.fab.floodsSent = s.fab.floodsSent + 1)) ∧
      (∀ i, bitAt v.toNat 0 = true → s.dev ≠ stNight → u.isRoot = true → u.heldId = none → u.wantedId = some i → s.idTaken s.eui i = false →
        Leads (.fabDiscover m v) s fun t => has t i) ∧
      (bitAt v.toNat 0 = false → s.fab.tx = [] → s.fab.adv = [] → Leads (.fabDiscover m v) s fun t =>
        t.rd (Reg.FAB_P_STATE_STATE q) = 0 ∧ t.rd Reg.FAB_ID_VALID = 0 ∧ t.rd Reg.FAB_ID_DEV_ID = 0 ∧ t.fab.devices = [])) ∧
    (s.mayWrite m Reg.FAB_LEQ_POP → Gives (.leqPop m) s { s with fab := { s.fab with leq := s.fab.leq.tail } }) ∧
    (s.mayWrite m Reg.FAB_EVQ_POP → Gives (.evqPop m) s { s with fab := { s.fab with evq := s.fab.evq.tail } }) ∧
    (s.fab.evq.length < 64 → heard (.sheetEvent p f) fun t => t.fab.evq = s.fab.evq ++ [e]) ∧
    (64 ≤ s.fab.evq.length → heard (.sheetEvent p f) fun t => t.fab.evq = s.fab.evq ∧ status t 6) ∧
    (outcome → known = none → s.fab.peers.length < 256 → heard (.sheetEvent p f) fun t =>
      t.fab.peers = s.fab.peers ++ [{ dev := f.src, seq := e.seq, code := e.code, from_ := s.meridian + 1 }]) ∧
    (¬outcome → heard (.sheetEvent p f) fun t => t.fab.peers = s.fab.peers) ∧
    (∀ o, outcome → known = some o → o.code ≠ 0xF0 → heard (.sheetEvent p f) fun t => t.fab.peers = s.fab.peers) ∧
    (mine 2 →
      (s.fab.leq.length < 64 → Leads (.lateError p f) s fun t => status t 4 ∧
        t.fab.leq = s.fab.leq ++ [{ tag := ofLe (f.payload.take 4), src := f.src, code := byte 4, addr := addr }]) ∧
      (64 ≤ s.fab.leq.length → Leads (.lateError p f) s fun t => t.fab.leq = s.fab.leq ∧ status t 5 ∧
        t.rd Reg.FAB_CNT_LEQ_LOST_COUNT = (s.rd Reg.FAB_CNT_LEQ_LOST_COUNT + 1) % 2 ^ 32) ∧
      (s.rd Reg.JRN_MATE_EN = 0 ∨ s.rd Reg.JRN_MATE_MATE_ID ≠ f.src → Gives (.journalAck p f) s s) ∧
      (s.rd Reg.JRN_MATE_EN = 1 → s.rd Reg.JRN_MATE_MATE_ID = f.src → s.jrn.mateLost = false → s.jrn.waiting = [] → Gives (.journalAck p f) s
        { s with jrn := { s.jrn with unacked := s.jrn.unacked.filter fun x => x.2.seq ≠ acked } })) ∧
    (s.fabOpen p 3 = false ∨ src = s.devId ∨ s.rd Reg.FAB_SYNC_STATE_MASTER = 1 ∨
      s.fab.masterKnown = true ∧ (s.rd Reg.FAB_SYNC_STATE_MASTER_ID ≠ src ∨ sent ≤ s.fab.syncTime) →
      Gives (.sync p src prio sent acc) s s) ∧
    (synced → src < 1024 →
      sync (fun t => t.rd Reg.FAB_SYNC_STATE_MASTER_ID = src ∧ t.rdw Reg.FAB_SYNC_OFS = toBits ofs 32 ∧ t.fab.masterKnown = true ∧
        t.fab.lastSync = s.clock ∧ (s.portUp q = true → q ≠ p → sends t q 3 0)) ∧
      (s.rd Reg.TIM_CTRL_FABRIC_SYNC = 1 → s.dev ≠ stEvening → s.dev ≠ stDawn ∨ ticks ≤ 1024 → sync fun t => t.meridian = s.meridian ∧
        t.rd Reg.TIM_SLEW_COUNT = min ticks.natAbs 65535 ∧
        t.rd Reg.TIM_SLEW_MODE = (if 0 < ticks then 1 else if ticks < 0 then 2 else 0)) ∧
      (s.rd Reg.TIM_CTRL_FABRIC_SYNC = 1 → s.dev = stDawn → 1024 < ticks → s.meridian + ticks.toNat < 2 ^ 64 → sync fun t =>
        t.meridian = s.meridian + ticks.toNat ∧ t.rd Reg.FAB_SYNC_STATE_STEPPED = 1) ∧
      (ofs.natAbs ≤ 8 * s.rd Reg.FAB_SYNC_CFG_LOCK_TICKS → 15 ≤ s.fab.inBand → sync fun t => t.rd Reg.FAB_SYNC_STATE_LOCKED = 1) ∧
      (8 * s.rd Reg.FAB_SYNC_CFG_LOCK_TICKS < ofs.natAbs → 3 ≤ s.fab.outBand → s.rd Reg.FAB_SYNC_STATE_LOCKED = 1 → sync fun t =>
        t.rd Reg.FAB_SYNC_STATE_LOCKED = 0 ∧ status t 8) ∧
      (8 * s.rd Reg.FAB_SYNC_CFG_LOCK_TICKS < ofs.natAbs → s.fab.outBand < 3 → sync fun t =>
        t.rd Reg.FAB_SYNC_STATE_LOCKED = s.rd Reg.FAB_SYNC_STATE_LOCKED)) ∧
    (s.dev = stNight ∨ s.fabReady = false ∨ s.counting = false ∨ ¬mayLead ∨ s.clock < s.due.sync → Gives .syncSend s s) ∧
    (s.dev ≠ stNight → s.fabReady = true → s.counting = true → mayLead → s.due.sync ≤ s.clock → Leads .syncSend s fun t =>
      t.due.sync = s.clock + s.rd Reg.FAB_SYNC_CFG_INTERVAL * 3000000 ∧ t.rd Reg.FAB_SYNC_STATE_MASTER = 1 ∧
      t.rd Reg.FAB_SYNC_STATE_MASTER_ID = s.devId ∧ (s.portUp q = true → ∃ g, (q.val, g) ∈ t.fab.tx ∧ g.cls = 3 ∧ g.kind = 0 ∧
        g.payload = leBytes 8 (8 * s.meridian) ++ leBytes 8 0)) ∧
    (¬silent → Gives .syncTimeout s s) ∧
    (silent → Leads .syncTimeout s fun t => t.fab.masterKnown = false ∧ t.rd Reg.FAB_SYNC_STATE_LOCKED = 0 ∧
      (s.rd Reg.FAB_SYNC_STATE_LOCKED = 1 → status t 8)) ∧
    (s.dev = stNight ∨ s.fabReady = false ∨ s.clock < s.due.delay → Gives .delayMeasure s s) ∧
    (s.dev ≠ stNight → s.fabReady = true → s.due.delay ≤ s.clock → s.portUp q = true → Leads .delayMeasure s fun t =>
      t.due.delay = s.clock + 300000000 ∧ sends t q 3 1 ∧
      t.fab.delayReq[q] = some (8 * s.meridian)) ∧
    (s.fabOpen p 3 = false → Gives (.delayReq p residence) s s ∧ Gives (.delayResp p part residence) s s) ∧
    (s.fabOpen p 3 = true →
      (Leads (.delayReq p residence) s fun t => ∃ g, t.fab.tx = s.fab.tx ++ [(p.val, g)] ∧ g.cls = 3 ∧ g.kind = 2 ∧
        g.payload = leBytes 8 residence) ∧
      (s.fab.delayReq[p] = none → Gives (.delayResp p part residence) s s) ∧
      (∀ t0, s.fab.delayReq[p] = some t0 → Leads (.delayResp p part residence) s fun t => t.fab.delayReq[p] = none ∧
        t.rd (Reg.FAB_P_DELAY_DELAY p) = fitNat 24 (quotient (8 * s.meridian + part - t0 - residence) 2)))

/-- The fabric's messages of the Posted, Read, Event and Ownership classes (R91 to R95, R98, R357, R358, R361, R362, R365 to R370, R421). A message
goes on by its route, or is served here: a WRITE is applied or answered with a late error, a read is answered, an answer completes what waits for
it, and the home keeps track of who holds its granules. Where the spec does not say what a command out of its turn does, that it
changes nothing is the model's choice (log 4, 13, 37, 39). -/
def Obligations.FabricMemory : Prop :=
  ∀ (s : State) (p : Fin 8) (f : FabMsg),
    let g := granuleOf f
    let rows : List (Instr × Nat × Nat) := [(.write p f, 0, 0), (.readReq p f, 1, 0), (.readData p f, 1, 1), (.readErr p f, 1, 2),
      (.sheetEvent p f, 2, 0), (.lateError p f, 2, 1), (.journalAck p f, 2, 2), (.snoop p f, 4, 0), (.data p f, 4, 1), (.recallMsg p f, 4, 2),
      (.evict p f, 4, 3), (.pin p f, 4, 4), (.unpin p f, 4, 5), (.retry p f, 4, 6), (.pinned p f, 4, 7), (.uncached p f, 4, 8),
      (.inEvict p f, 4, 9), (.notHeld p f, 4, 10), (.absent p f, 4, 11)]
    let own := s.fabOpen p 4 = true ∧ f.dst = s.devId
    let out (t : State) (P : FabMsg → Prop) : Prop := ∀ q, s.fabRoute f.src = some q → ∃ x, (q, x) ∈ t.fab.tx ∧ x.dst = f.src ∧ P x
    let late (t : State) (code : Nat) : Prop := t.mem = s.mem ∧ out t fun x => x.cls = 2 ∧ x.kind = 1 ∧
      ofLe (x.payload.take 4) = f.tag % 2 ^ 32 ∧ x.payload.getD 4 0 = BitVec.ofNat 8 code
    let answer (t : State) (kind : Nat) (data : List Byte) : Prop := out t fun x => x.cls = 4 ∧ x.kind = kind ∧ x.tag = f.tag ∧ x.addr = g ∧
      x.payload = data
    let readErr (t : State) (code : Nat) : Prop := out t fun x => x.cls = 1 ∧ x.kind = 2 ∧ x.tag = f.tag / 16 * 16 + code
    let n := readLen f.tag
    let ahead (cls kind : Nat) : Prop := s.behind { f with cls := cls, kind := kind } = true
    let old := s.fab.reads.find? fun r => r.tag = f.tag
    let room := s.plain.rcache.length < s.cacheRoom
    let ends (c : Instr) : Prop := Gives c s { s with plain := { s.plain with
      snoops := s.plain.snoops.filter fun x => x.1 ≠ g, waitingOn := s.plain.waitingOn.filter fun x => x.2 ≠ remoteKey g } }
    let open_ := s.plainShut false = false ∧ ¬ahead 4 0 ∧ ∀ r ∈ s.plain.recalls, r.addr ≠ g
    let quiet := open_ ∧ s.evictHere g f.src = none
    let recalls (o : List Nat) := s.plain.recalls ++ [{ req := f.src, tag := f.tag, addr := g, intentO := decide (f.tag % 2 = 1), due := o }]
    let here := ∃ l, s.homeStatus g = .atLocal l
    let asksO := f.tag % 2 = 1
    let calm := s.plainShut false = false ∧ s.fab.waitIn = []
    (∀ r ∈ rows,
      (s.fabOpen p r.2.1 = false → Gives r.1 s s) ∧
      (s.fabOpen p r.2.1 = true → f.dst ≠ s.devId →
        Gives r.1 s (s.fabForward { f with cls := r.2.1, kind := r.2.2 }) ∧
        ∀ q, s.fabPort f.dst = some q → r.2.1 ≠ 2 →
          (s.rd (Reg.FAB_P_CFG_DATELINE q) = 0 → Leads r.1 s fun t => t.regs = (s.addTo (Reg.FAB_P_CNT_TX_COUNT q)
              (1 + (f.payload.length + 15) / 32)).regs ∧
            t.fab = { s.fab with tx := s.fab.tx ++ [(q, { f with cls := r.2.1, kind := r.2.2 })] }) ∧
          (s.rd (Reg.FAB_P_CFG_DATELINE q) = 1 → f.vc = 0 → Leads r.1 s fun t =>
            t.fab.tx = s.fab.tx ++ [(q, { f with cls := r.2.1, kind := r.2.2, vc := 1 })]) ∧
          (s.rd (Reg.FAB_P_CFG_DATELINE q) = 1 → f.vc = 1 → Leads r.1 s fun t => t.fab.tx = s.fab.tx ∧
            t.rd Reg.FAB_CNT_ROUTE_ERR_COUNT = (s.rd Reg.FAB_CNT_ROUTE_ERR_COUNT + 1) % 2 ^ 32 ∧
            bitAt (t.rdw Reg.FAB_STATUS) 9 = true)) ∧
      (s.fabOpen p r.2.1 = true → f.dst ≠ s.devId → s.fabPort f.dst = none → f.src ≠ s.devId →
        (r.2.1 = 2 → Leads r.1 s fun t => t.fab = s.fab ∧
          t.rd Reg.FAB_CNT_EV_DROP_COUNT = (s.rd Reg.FAB_CNT_EV_DROP_COUNT + 1) % 2 ^ 32) ∧
        (r.2.1 = 0 → Leads r.1 s fun t => late t 5) ∧
        (r.2 = (1, 0) → Leads r.1 s fun t => readErr t 4) ∧
        (r.2.1 = 1 → r.2.2 ≠ 0 → Gives r.1 s s))) ∧
    (s.fabOpen p 0 = true → f.dst = s.devId →
      (writeLegal f = false → Leads (.write p f) s fun t => t.mem = s.mem ∧ t.fab = s.fab ∧
        t.rd Reg.FAB_CNT_MALFORMED_COUNT = (s.rd Reg.FAB_CNT_MALFORMED_COUNT + 1) % 2 ^ 32) ∧
      (writeLegal f = true → f.tag / 2 ^ 28 = 2 → s.rd Reg.JRN_MATE_EN = 1 → s.rd Reg.JRN_MATE_MATE_ID = f.src → f.payload.length = 64 →
        Gives (.write p f) s { s with jrn := { s.jrn with mirror := s.jrn.mirror ++ [(f.src, f.tag, f.payload)] } }) ∧
      (writeLegal f = true → f.tag / 2 ^ 28 = 2 → s.rd Reg.JRN_MATE_EN = 0 → Leads (.write p f) s fun t => late t 6) ∧
      (writeLegal f = true → f.tag / 2 ^ 28 ≠ 2 →
        (s.plainShut false = true → Leads (.write p f) s fun t => late t 3) ∧
        (s.plainShut false = false → ahead 0 0 → Gives (.write p f) s
          { s with fab := { s.fab with waitIn := s.fab.waitIn ++ [{ f with cls := 0, kind := 0 }] } }) ∧
        (s.plainShut false = false → ¬ahead 0 0 →
          (s.homeStatus f.addr = .invalid → Leads (.write p f) s fun t => late t 2 ∧ bitAt (t.rdw Reg.STR_PLN_STATUS) 0 = true) ∧
          (s.homeStatus f.addr = .missing ∨ (∃ l, s.homeStatus f.addr = .atLocal l) → s.plainPinned f.addr = true →
            Leads (.write p f) s fun t => late t 1) ∧
          (s.homeStatus f.addr = .missing → s.plainPinned f.addr = false → Leads (.write p f) s fun t =>
            t.fab.waitIn = s.fab.waitIn ++ [{ f with cls := 0, kind := 0 }]) ∧
          (∀ l, s.homeStatus f.addr = .atLocal l → s.plainPinned f.addr = false →
            (s.plainBad f.addr f.payload.length = true → Leads (.write p f) s fun t => late t 4) ∧
            (s.plainBad f.addr f.payload.length = false →
              Gives (.write p f) s ((s.writeBytes l f.payload).extSet (plainExt f.addr) 60 3 3)))))) ∧
    (s.fabOpen p 1 = true → f.dst = s.devId →
      (n = 0 ∨ 256 < n → Leads (.readReq p f) s fun t => t.fab = s.fab ∧
        t.rd Reg.FAB_CNT_MALFORMED_COUNT = (s.rd Reg.FAB_CNT_MALFORMED_COUNT + 1) % 2 ^ 32) ∧
      (n ≠ 0 → n ≤ 256 →
        (s.plainShut false = true → Leads (.readReq p f) s fun t => readErr t 1) ∧
        (s.plainShut false = false → ahead 1 0 → Leads (.readReq p f) s fun t =>
          t.fab.waitIn = s.fab.waitIn ++ [{ f with cls := 1, kind := 0 }] ∧ t.fab.tx = s.fab.tx) ∧
        (s.plainShut false = false → ¬ahead 1 0 →
          (s.homeStatus f.addr = .invalid → Leads (.readReq p f) s fun t => readErr t 2) ∧
          (s.homeStatus f.addr = .missing → Leads (.readReq p f) s fun t =>
            t.fab.waitIn = s.fab.waitIn ++ [{ f with cls := 1, kind := 0 }]) ∧
          (∀ l, s.homeStatus f.addr = .atLocal l →
            (s.plainBad f.addr n = true → Leads (.readReq p f) s fun t => readErr t 3) ∧
            (s.plainBad f.addr n = false → Leads (.readReq p f) s fun t => t.mem = s.mem ∧ out t fun x =>
              x.cls = 1 ∧ x.kind = 1 ∧ x.tag = f.tag ∧ x.payload = s.plainRead f.addr n)))) ∧
      (∀ r, old = some r → Gives (.readData p f) s { s with fab := { s.fab with reads := s.fab.reads.erase r } }) ∧
      (∀ r, old = none → s.fab.timedOut.find? (fun x => x.tag = f.tag) = some r → Leads (.readData p f) s fun t =>
        t.fab.timedOut = s.fab.timedOut.erase r ∧ t.rd Reg.FAB_CNT_RD_LATE_COUNT = (s.rd Reg.FAB_CNT_RD_LATE_COUNT + 1) % 2 ^ 32) ∧
      (∀ r, s.fab.reads.find? (fun x => x.tag / 16 = f.tag / 16) = some r → Leads (.readErr p f) s fun t =>
        t.fab.reads = s.fab.reads.erase r ∧
        (∀ j, s.dmaRunning (fenceChannel r.tag) = some j → j.mode = 3 → fenceChannel r.tag < 16 →
          t.rd (Reg.DMA_D_STATUS_ERR (fenceChannel r.tag)) = if f.tag % 16 = 1 then 5 else 4) ∧
        (s.dmaRunning (fenceChannel r.tag) = none → t.regs = s.regs)) ∧
      (s.fab.reads.find? (fun x => x.tag / 16 = f.tag / 16) = none → Gives (.readErr p f) s
        { s with fab := { s.fab with timedOut := s.fab.timedOut.filter fun r => r.tag / 16 ≠ f.tag / 16 } })) ∧
    (s.fab.reads = [] → Gives .rdTimeout s s) ∧
    (∀ r rest, s.fab.reads = r :: rest →
      (s.clock < r.until_ → Gives .rdTimeout s s) ∧
      (r.until_ ≤ s.clock → Leads .rdTimeout s fun t => t.fab.reads = rest ∧ t.fab.timedOut = s.fab.timedOut ++ [r] ∧
        (fenceChannel r.tag < 16 → bitAt (t.rdw Reg.FAB_STATUS) 7 = true ∧ t.rd (Reg.DMA_D_STATUS_ERR (fenceChannel r.tag)) = 4))) ∧
    (own →
      (s.plainShut false = true → Leads (.snoop p f) s fun t => answer t 11 [] ∧ t.plain = s.plain) ∧
      (s.plainShut false = false → ahead 4 0 ∨ (∃ r ∈ s.plain.recalls, r.addr = g) → Gives (.snoop p f) s
        { s with fab := { s.fab with waitIn := s.fab.waitIn ++ [{ f with cls := 4, kind := 0 }] } }) ∧
      (∀ o, open_ → s.evictHere g f.src = some o → Gives (.snoop p f) s { s with plain := { s.plain with recalls := recalls [o] } }) ∧
      (quiet → s.homeStatus g = .invalid → Leads (.snoop p f) s fun t => answer t 11 []) ∧
      (quiet → here → s.dirEntry g = none → 1048576 ≤ s.plain.dir.length → Leads (.snoop p f) s fun t => answer t 6 [] ∧
        bitAt (t.rdw Reg.STR_PLN_STATUS) 3 = true ∧ t.plain = s.plain) ∧
      (quiet → here → s.dirEntry g ≠ none → asksO → s.plainPinned g = true → Leads (.snoop p f) s fun t => answer t 7 [] ∧
        t.plain = s.plain) ∧
      (quiet → here → s.dirEntry g = none → s.plain.dir.length < 1048576 → ¬asksO ∨ s.plainPinned g = false → Leads (.snoop p f) s fun t =>
        answer t 1 (s.plainRead g 4096) ∧ ∃ d, t.dirEntry g = some d ∧ d.owner = (if asksO then some f.src else none) ∧
          d.sharers = if asksO then [] else [f.src]) ∧
      (∀ d o, quiet → here → s.dirEntry g = some d → d.owner = some o → o ≠ f.src → ¬asksO ∨ s.plainPinned g = false →
        Leads (.snoop p f) s fun t => t.plain = { s.plain with recalls := recalls [o] } ∧
          t.rd Reg.STR_PLN_CNT_RECALL_COUNT = (s.rd Reg.STR_PLN_CNT_RECALL_COUNT + 1) % 2 ^ 32 ∧
          ∀ q, s.fabRoute o = some q → ∃ x, (q, x) ∈ t.fab.tx ∧ x.cls = 4 ∧ x.kind = 2 ∧ x.dst = o ∧ x.addr = g) ∧
      (∀ d, quiet → here → s.dirEntry g = some d → d.owner = none → asksO → s.plainPinned g = false →
        d.sharers.filter (· ≠ f.src) ≠ [] → Leads (.snoop p f) s fun t =>
          t.plain = { s.plain with recalls := recalls (d.sharers.filter (· ≠ f.src)) }) ∧
      (∀ d, quiet → here → s.dirEntry g = some d → d.owner = none → ¬asksO → f.src ∉ d.sharers →
        (8 ≤ d.sharers.length → Leads (.snoop p f) s fun t => answer t 8 (s.plainRead g 4096) ∧ t.plain = s.plain) ∧
        (d.sharers.length < 8 → Leads (.snoop p f) s fun t => answer t 1 (s.plainRead g 4096) ∧
          ∃ d', t.dirEntry g = some d' ∧ d'.sharers = d.sharers ++ [f.src] ∧ d'.owner = none))) ∧
    (own → ∀ c ∈ [Instr.data p f, .inEvict p f],
      (s.plain.snoops.find? (fun x => x.1 = g) = none → Gives c s s) ∧
      (∀ x, s.plain.snoops.find? (fun y => y.1 = g) = some x → room → Leads c s fun t =>
        t.plain.rcache = s.plain.rcache ++ [{ addr := g, owned := x.2, dirty := false, pins := [], data := f.payload }] ∧
        t.plain.snoops = s.plain.snoops.filter fun y => y.1 ≠ g)) ∧
    (own →
      (s.granule g = none → Leads (.recallMsg p f) s fun t => answer t 10 [] ∧ t.plain = s.plain) ∧
      (∀ x, s.granule g = some x → Leads (.recallMsg p f) s fun t => answer t 3 (if x.owned then x.data else []) ∧ t.granule g = none)) ∧
    (own →
      (s.plainShut false = true → s.fab.waitIn = [] → f.tag ≠ recallTag → Leads (.evict p f) s fun t => answer t 11 [] ∧ t.plain = s.plain) ∧
      (∀ d, calm → s.dirEntry g = some d → s.plain.recalls = [] → f.payload = [] → Leads (.evict p f) s fun t => t.mem = s.mem ∧
        ∀ d', t.dirEntry g = some d' → f.src ∉ d'.sharers ∧ d'.owner ≠ some f.src ∧ f.src ∉ d'.pinners) ∧
      (∀ d l, calm → s.dirEntry g = some d → d.owner = some f.src → s.plain.recalls = [] → f.payload.length = 4096 → s.homeStatus g = .atLocal l →
        Leads (.evict p f) s fun t => t.mem = ((s.writeBytes l f.payload).extSet (plainExt g) 60 3 3).mem ∧
          ∀ d', t.dirEntry g = some d' → d'.owner ≠ some f.src) ∧
      (∀ r, s.fab.waitIn = [] → s.dirEntry g ≠ none → f.tag = recallTag → f.payload = [] → s.plain.recalls = [r] → r.addr = g → r.due = [f.src] →
        Leads (.evict p f) s fun t => t.plain.recalls = [] ∧ (∃ d', t.dirEntry g = some d' ∧
          (if r.intentO then d'.owner = some r.req else r.req ∈ d'.sharers)) ∧
          ∀ q, s.fabRoute r.req = some q → ∃ x, (q, x) ∈ t.fab.tx ∧ x.cls = 4 ∧ x.kind = 1 ∧ x.dst = r.req ∧ x.addr = g)) ∧
    (own →
      (s.rd Reg.STR_PLN_CTRL_REMOTE_EN = 0 ∨ s.rd Reg.STR_PLN_CTRL_EN = 0 → ∀ c ∈ [Instr.pin p f, .unpin p f],
        Leads c s fun t => answer t 11 [] ∧ t.plain = s.plain) ∧
      (s.rd Reg.STR_PLN_CTRL_REMOTE_EN = 1 → s.rd Reg.STR_PLN_CTRL_EN = 1 →
        (s.dirEntry g = none → Gives (.pin p f) s s ∧ Gives (.unpin p f) s s) ∧
        (∀ d, s.dirEntry g = some d →
          (Leads (.pin p f) s fun t => ∃ d', t.dirEntry g = some d' ∧ f.src ∈ d'.pinners ∧ d'.sharers = d.sharers ∧ d'.owner = d.owner) ∧
          (Leads (.unpin p f) s fun t => ∀ d', t.dirEntry g = some d' → f.src ∉ d'.pinners ∧ d'.sharers = d.sharers)))) ∧
    (own → ends (.retry p f) ∧ ends (.pinned p f) ∧ Gives (.notHeld p f) s s ∧
      ((∀ x ∈ s.plain.snoops, x.1 ≠ g) → Gives (.uncached p f) s s) ∧
      ((∃ x ∈ s.plain.snoops, x.1 = g) → Leads (.uncached p f) s fun t => t.plain.rcache = s.plain.rcache ∧
        ({ addr := g, owned := false, dirty := false, pins := [], data := f.payload } : Granule) ∈ t.plain.uncached ∧
        t.rd Reg.STR_PLN_CNT_UNCACHED_COUNT = (s.rd Reg.STR_PLN_CNT_UNCACHED_COUNT + 1) % 2 ^ 32) ∧
      (f.tag = 0 ∨ f.tag = 1 → (∀ x ∈ s.plain.waitingOn, x.2 ≠ remoteKey g) → ends (.absent p f)) ∧
      (∀ x, f.tag = 2 → s.plain.evicted.find? (fun y => y.addr = g) = some x → Leads (.absent p f) s fun t =>
        t.plain = { s.plain with evicted := s.plain.evicted.filter (fun y => y.addr ≠ g), rcache := s.plain.rcache ++ [x],
                                 evictRetry := s.plain.evictRetry ++ [g] } ∧ t.fab = s.fab ∧
        t.due.evict = if s.plain.evictRetry = [] then s.clock + 3000000 else s.due.evict) ∧
      (2 < f.tag → Gives (.absent p f) s s))

/-- The commands of PSQ at their effect time (R59, R60, R64, R69, R209, R409). A RELEASE gives its sheet to the finisher and leaves it DONE and
its page PRINTED or SUSPECT; an EVENT goes to its destination with the SPEC flag of the sheet's state, and a speculative one puts the destination
into the seen set. A RELEASE waits on no answer of the host, of a journal or of the fabric (R32): it completes in every state of theirs. What R209 refuses sets `LAUNCH_REFUSED`. Where the spec does not say what a command out of its turn does, that it
changes nothing is the model's choice (log 4). -/
def Obligations.SheetCommands : Prop :=
  ∀ (s : State) (c : Cmd) (k : Fin 64) (q : Nat),
    let u := s.popCmd 10
    let due (op : Nat) : Prop := s.dueCmd 10 = some c ∧ c.op = op ∧ s.coreClock = true
    let refused (i : Instr) : Prop := Gives i s (u.raise Reg.PSQ_STATUS 4)
    let page := s.shPage k
    let d := c.operand % 4
    let dev := c.operand / 2 ^ 12 % 2 ^ 10
    let code := c.operand / 2 ^ 24 % 256
    let legal := d ≠ 3 ∧ c.operand / 4 % 2 ^ 10 = 0 ∧ c.operand / 2 ^ 22 % 4 = 0
    let mine := due 2 ∧ c.tag = some (k.val, q) ∧ c.unit = 0 ∧ legal ∧ s.shSeq k = q
    let spec := if s.sh k = shLaunched then 1 else 0
    let reason := s.rd (Reg.PSQ_SH_STATE_REASON k)
    let live := s.sh k = shLaunched ∨ s.sh k = shCommitted ∨ s.sh k = shSpoil
    let size := s.rd Reg.HST_EVQ_CFG_SIZE
    let tail := s.rd Reg.HST_EVQ_TAIL_TAIL
    let seen (t : State) : Nat := t.rdw (Reg.PSQ_SH_SEEN k)
    let list := s.seenFab k
    (∀ i ∈ [Instr.release, .event], s.dueCmd 10 = none → Gives i s s) ∧
    (s.dueCmd 10 = some c → (c.op ≠ 1 → Gives .release s s) ∧ (c.op ≠ 2 → Gives .event s s)) ∧
    (due 1 → c.tag = none ∨ c.unit ≠ 0 ∨ c.operand ≠ 0 → refused .release) ∧
    (due 1 → c.tag = some (k.val, q) → c.unit = 0 → c.operand = 0 →
      (s.shSeq k ≠ q ∨ (s.sh k ≠ shCommitted ∧ ¬(s.sh k = shSpoil ∧ (s.sheetOf k).lateSpoil = true)) → Gives .release s u) ∧
      (s.shSeq k = q → s.sh k = shCommitted ∨ (s.sh k = shSpoil ∧ (s.sheetOf k).lateSpoil = true) →
        Leads .release s fun t => t.sh k = shDone ∧ t.pend = u.pend ∧
          (s.ballGranted 208 0 = true → t.fin.relUntil = some (s.clock + 3000000) ∧ t.fin.spoil = decide (s.sh k = shSpoil)) ∧
          (s.ballGranted 208 0 = false → t.fin = s.fin) ∧
          (s.pg page = pgPrinting → t.pg page = if (s.pageOf page).mismatch then pgSuspect else pgPrinted) ∧
          (s.pg page ≠ pgPrinting → t.pg page = s.pg page))) ∧
    (due 2 → c.tag = none ∨ c.unit ≠ 0 ∨ ¬legal → refused .event) ∧
    (due 2 → c.tag = some (k.val, q) → s.shSeq k ≠ q ∨ ¬live → refused .event) ∧
    (mine → live → d = 0 →
      Leads .event s (fun t => seen t = if spec = 1 then bitPut (seen s) 12 true else seen s) ∧
      (s.hst.linkUp = true → 2 ≤ size → size ≤ 4096 → (tail + 1) % size ≠ s.rd Reg.HST_EVQ_HEAD_HEAD → Leads .event s fun t =>
        t.rd Reg.HST_EVQ_TAIL_TAIL = (tail + 1) % size % 2 ^ 12 ∧
        t.hostRead (s.rd64 Reg.HST_EVQ_BASE_LO Reg.HST_EVQ_BASE_HI + 32 * tail) 32 = leBytes 4 q ++ leBytes 1 k ++ leBytes 1 code ++
          leBytes 1 spec ++ leBytes 1 reason ++ leBytes 8 s.meridian ++ leBytes 16 0)) ∧
    (mine → live → d = 1 → Leads .event s fun t => seen t = (if spec = 1 then bitPut (seen s) 13 true else seen s) ∧
      t.fin.count = (s.fin.count + 1) % 256 ∧
      t.fin.queue = if s.fin.queue.length < 32 then s.fin.queue ++ [finFrame s.fin.count q code spec reason] else s.fin.queue) ∧
    (mine → s.sh k = shLaunched → d = 2 → dev ∉ list → list.length = 4 → Gives .event s (u.raise Reg.PSQ_STATUS 7)) ∧
    (mine → live → d = 2 → spec = 0 ∨ dev ∈ list ∨ list.length < 4 → Leads .event s fun t =>
      t.seenFab k = (if spec = 1 ∧ dev ∉ list then list ++ [dev] else list) ∧
      ∀ p, s.fabRoute dev = some p → ∃ x, (p, x) ∈ t.fab.tx ∧ x.cls = 2 ∧ x.kind = 0 ∧ x.dst = dev ∧
        x.payload = leBytes 4 q ++ leBytes 1 code ++ leBytes 1 spec ++ leBytes 1 reason ++ leBytes 1 k ++ leBytes 8 s.meridian ++ leBytes 16 0)
end

