-- ==== Sys2Proof/Laws/Sparse.lean ====
section
/-! SUPPORT. Sparse storage: a read after a write, and the canonical form kept. -/

namespace Sys2Proof.Machine

variable {β : Type} (d : Nat → β)

@[simp] theorem sparseGet_nil (a : Nat) : sparseGet d [] a = d a := rfl

theorem sparseInsert_get (m : List (Nat × β)) (a : Nat) (v : β) (b : Nat) :
    sparseGet d (sparseInsert m a v) b = if b = a then v else sparseGet d m b := by
  induction m with
  | nil => simp [sparseInsert, sparseGet]
  | cons x rest ih => obtain ⟨k, w⟩ := x; grind [sparseInsert, sparseGet]

theorem sparseErase_get (m : List (Nat × β)) (a b : Nat) :
    sparseGet d (sparseErase m a) b = if b = a then d a else sparseGet d m b := by
  induction m with
  | nil => grind [sparseErase, sparseGet]
  | cons x rest ih => obtain ⟨k, w⟩ := x; grind [sparseErase, sparseGet]

/-- A read after a write: the value written at its key, elsewhere as before. -/
theorem sparseSet_get [DecidableEq β] (m : List (Nat × β)) (a : Nat) (v : β) (b : Nat) :
    sparseGet d (sparseSet d m a v) b = if b = a then v else sparseGet d m b := by
  unfold sparseSet
  split
  · rw [sparseErase_get]; grind
  · exact sparseInsert_get d m a v b

theorem sparseInsert_mem {m : List (Nat × β)} {a : Nat} {v : β} {e : Nat × β} (h : e ∈ sparseInsert m a v) : e = (a, v) ∨ e ∈ m := by
  induction m with
  | nil => simpa [sparseInsert] using h
  | cons x rest ih => obtain ⟨k, w⟩ := x; grind [sparseInsert]

/-- Dropping entries keeps the canonical form. -/
theorem sparseWf_filter {m : List (Nat × β)} (hm : sparseWf d m) (p : Nat × β → Bool) : sparseWf d (m.filter p) :=
  ⟨hm.1.filter p, fun e he => hm.2 e (List.mem_filter.1 he).1⟩

/-- A write keeps the canonical form. -/
theorem sparseSet_wf [DecidableEq β] {m : List (Nat × β)} (hm : sparseWf d m) (a : Nat) (v : β) : sparseWf d (sparseSet d m a v) := by
  unfold sparseSet
  split
  · exact sparseWf_filter d hm _
  · refine ⟨?_, fun e he => ?_⟩
    · have := hm.1
      clear hm
      induction m with
      | nil => simp [sparseInsert]
      | cons x rest ih =>
        obtain ⟨k, w⟩ := x
        have := @sparseInsert_mem _ rest a v
        grind [sparseInsert, List.pairwise_cons]
    · rcases sparseInsert_mem he with rfl | h
      · assumption
      · exact hm.2 e h

end Sys2Proof.Machine
end

