-- ==== Sys2Proof/Laws/State.lean ====
section
/-! SUPPORT. What the updates of the state leave as it was, field by field. -/

namespace Sys2Proof.Machine

@[simp] theorem State.setReg_meridian (s : State) (off : Nat) (w : RegWord) : (s.setReg off w).meridian = s.meridian := rfl
@[simp] theorem State.setReg_clock (s : State) (off : Nat) (w : RegWord) : (s.setReg off w).clock = s.clock := rfl
@[simp] theorem State.setReg_lockAt (s : State) (off : Nat) (w : RegWord) : (s.setReg off w).lockAt = s.lockAt := rfl
@[simp] theorem State.setReg_slewRun (s : State) (off : Nat) (w : RegWord) : (s.setReg off w).slewRun = s.slewRun := rfl
@[simp] theorem State.setReg_firstAt (s : State) (off : Nat) (w : RegWord) : (s.setReg off w).firstAt = s.firstAt := rfl
@[simp] theorem State.setReg_mem (s : State) (off : Nat) (w : RegWord) : (s.setReg off w).mem = s.mem := rfl
@[simp] theorem State.setReg_dieEpoch (s : State) (off : Nat) (w : RegWord) : (s.setReg off w).dieEpoch = s.dieEpoch := rfl
@[simp] theorem State.setReg_dramEpoch (s : State) (off : Nat) (w : RegWord) : (s.setReg off w).dramEpoch = s.dramEpoch := rfl
@[simp] theorem State.setReg_badAt (s : State) (off : Nat) (w : RegWord) : (s.setReg off w).badAt = s.badAt := rfl
@[simp] theorem State.setReg_nvm (s : State) (off : Nat) (w : RegWord) : (s.setReg off w).nvm = s.nvm := rfl
@[simp] theorem State.setReg_nvme (s : State) (off : Nat) (w : RegWord) : (s.setReg off w).nvme = s.nvme := rfl
@[simp] theorem State.setReg_hostMem (s : State) (off : Nat) (w : RegWord) : (s.setReg off w).hostMem = s.hostMem := rfl
@[simp] theorem State.setReg_aon (s : State) (off : Nat) (w : RegWord) : (s.setReg off w).aon = s.aon := rfl
@[simp] theorem State.setReg_nowShadow (s : State) (off : Nat) (w : RegWord) : (s.setReg off w).nowShadow = s.nowShadow := rfl
@[simp] theorem State.setReg_alarmArmed (s : State) (off : Nat) (w : RegWord) : (s.setReg off w).alarmArmed = s.alarmArmed := rfl
@[simp] theorem State.setReg_bootClear (s : State) (off : Nat) (w : RegWord) : (s.setReg off w).bootClear = s.bootClear := rfl
@[simp] theorem State.setReg_imageLoaded (s : State) (off : Nat) (w : RegWord) : (s.setReg off w).imageLoaded = s.imageLoaded := rfl
@[simp] theorem State.setReg_released (s : State) (off : Nat) (w : RegWord) : (s.setReg off w).released = s.released := rfl
@[simp] theorem State.setReg_faultWake (s : State) (off : Nat) (w : RegWord) : (s.setReg off w).faultWake = s.faultWake := rfl
@[simp] theorem State.setReg_due (s : State) (off : Nat) (w : RegWord) : (s.setReg off w).due = s.due := rfl
@[simp] theorem State.setReg_cores (s : State) (off : Nat) (w : RegWord) : (s.setReg off w).cores = s.cores := rfl
@[simp] theorem State.setReg_pend (s : State) (off : Nat) (w : RegWord) : (s.setReg off w).pend = s.pend := rfl
@[simp] theorem State.setReg_psq (s : State) (off : Nat) (w : RegWord) : (s.setReg off w).psq = s.psq := rfl
@[simp] theorem State.setReg_jrn (s : State) (off : Nat) (w : RegWord) : (s.setReg off w).jrn = s.jrn := rfl
@[simp] theorem State.setReg_vsp (s : State) (off : Nat) (w : RegWord) : (s.setReg off w).vsp = s.vsp := rfl
@[simp] theorem State.setReg_fin (s : State) (off : Nat) (w : RegWord) : (s.setReg off w).fin = s.fin := rfl
@[simp] theorem State.setReg_fab (s : State) (off : Nat) (w : RegWord) : (s.setReg off w).fab = s.fab := rfl
@[simp] theorem State.setReg_hst (s : State) (off : Nat) (w : RegWord) : (s.setReg off w).hst = s.hst := rfl
@[simp] theorem State.setReg_pmx (s : State) (off : Nat) (w : RegWord) : (s.setReg off w).pmx = s.pmx := rfl
@[simp] theorem State.setReg_plain (s : State) (off : Nat) (w : RegWord) : (s.setReg off w).plain = s.plain := rfl
@[simp] theorem State.setReg_str (s : State) (off : Nat) (w : RegWord) : (s.setReg off w).str = s.str := rfl
@[simp] theorem State.setReg_vale (s : State) (off : Nat) (w : RegWord) : (s.setReg off w).vale = s.vale := rfl
@[simp] theorem State.setReg_mmq (s : State) (off : Nat) (w : RegWord) : (s.setReg off w).mmq = s.mmq := rfl
@[simp] theorem State.setReg_btm (s : State) (off : Nat) (w : RegWord) : (s.setReg off w).btm = s.btm := rfl
@[simp] theorem State.setReg_lsi (s : State) (off : Nat) (w : RegWord) : (s.setReg off w).lsi = s.lsi := rfl
@[simp] theorem State.setReg_bmk (s : State) (off : Nat) (w : RegWord) : (s.setReg off w).bmk = s.bmk := rfl
@[simp] theorem State.setReg_bld (s : State) (off : Nat) (w : RegWord) : (s.setReg off w).bld = s.bld := rfl
@[simp] theorem State.setReg_stp (s : State) (off : Nat) (w : RegWord) : (s.setReg off w).stp = s.stp := rfl
@[simp] theorem State.setReg_lanes (s : State) (off : Nat) (w : RegWord) : (s.setReg off w).lanes = s.lanes := rfl
@[simp] theorem State.setReg_dma (s : State) (off : Nat) (w : RegWord) : (s.setReg off w).dma = s.dma := rfl
@[simp] theorem State.setReg_dmaNext (s : State) (off : Nat) (w : RegWord) : (s.setReg off w).dmaNext = s.dmaNext := rfl
@[simp] theorem State.setReg_pra (s : State) (off : Nat) (w : RegWord) : (s.setReg off w).pra = s.pra := rfl
@[simp] theorem State.setReg_sense (s : State) (off : Nat) (w : RegWord) : (s.setReg off w).sense = s.sense := rfl
@[simp] theorem State.setReg_pwr (s : State) (off : Nat) (w : RegWord) : (s.setReg off w).pwr = s.pwr := rfl
@[simp] theorem State.setReg_thm (s : State) (off : Nat) (w : RegWord) : (s.setReg off w).thm = s.thm := rfl
@[simp] theorem State.setReg_csm (s : State) (off : Nat) (w : RegWord) : (s.setReg off w).csm = s.csm := rfl
@[simp] theorem State.setReg_xsp (s : State) (off : Nat) (w : RegWord) : (s.setReg off w).xsp = s.xsp := rfl
@[simp] theorem State.setReg_pmc (s : State) (off : Nat) (w : RegWord) : (s.setReg off w).pmc = s.pmc := rfl
@[simp] theorem State.setReg_mgt (s : State) (off : Nat) (w : RegWord) : (s.setReg off w).mgt = s.mgt := rfl
@[simp] theorem State.setReg_pending (s : State) (off : Nat) (w : RegWord) : (s.setReg off w).pending = s.pending := rfl
@[simp] theorem State.setReg_core (s : State) (off : Nat) (w : RegWord) (m : Fin 12) : (s.setReg off w).core m = s.core m := rfl
@[simp] theorem State.setReg_readByte (s : State) (off : Nat) (w : RegWord) (x : Nat) : (s.setReg off w).readByte x = s.readByte x := rfl

@[simp] theorem State.wr_meridian (s : State) (f : Fld) (v : Nat) : (s.wr f v).meridian = s.meridian := rfl
@[simp] theorem State.wr_clock (s : State) (f : Fld) (v : Nat) : (s.wr f v).clock = s.clock := rfl
@[simp] theorem State.wr_lockAt (s : State) (f : Fld) (v : Nat) : (s.wr f v).lockAt = s.lockAt := rfl
@[simp] theorem State.wr_slewRun (s : State) (f : Fld) (v : Nat) : (s.wr f v).slewRun = s.slewRun := rfl
@[simp] theorem State.wr_firstAt (s : State) (f : Fld) (v : Nat) : (s.wr f v).firstAt = s.firstAt := rfl
@[simp] theorem State.wr_mem (s : State) (f : Fld) (v : Nat) : (s.wr f v).mem = s.mem := rfl
@[simp] theorem State.wr_dieEpoch (s : State) (f : Fld) (v : Nat) : (s.wr f v).dieEpoch = s.dieEpoch := rfl
@[simp] theorem State.wr_dramEpoch (s : State) (f : Fld) (v : Nat) : (s.wr f v).dramEpoch = s.dramEpoch := rfl
@[simp] theorem State.wr_badAt (s : State) (f : Fld) (v : Nat) : (s.wr f v).badAt = s.badAt := rfl
@[simp] theorem State.wr_nvm (s : State) (f : Fld) (v : Nat) : (s.wr f v).nvm = s.nvm := rfl
@[simp] theorem State.wr_nvme (s : State) (f : Fld) (v : Nat) : (s.wr f v).nvme = s.nvme := rfl
@[simp] theorem State.wr_hostMem (s : State) (f : Fld) (v : Nat) : (s.wr f v).hostMem = s.hostMem := rfl
@[simp] theorem State.wr_aon (s : State) (f : Fld) (v : Nat) : (s.wr f v).aon = s.aon := rfl
@[simp] theorem State.wr_nowShadow (s : State) (f : Fld) (v : Nat) : (s.wr f v).nowShadow = s.nowShadow := rfl
@[simp] theorem State.wr_alarmArmed (s : State) (f : Fld) (v : Nat) : (s.wr f v).alarmArmed = s.alarmArmed := rfl
@[simp] theorem State.wr_bootClear (s : State) (f : Fld) (v : Nat) : (s.wr f v).bootClear = s.bootClear := rfl
@[simp] theorem State.wr_imageLoaded (s : State) (f : Fld) (v : Nat) : (s.wr f v).imageLoaded = s.imageLoaded := rfl
@[simp] theorem State.wr_released (s : State) (f : Fld) (v : Nat) : (s.wr f v).released = s.released := rfl
@[simp] theorem State.wr_faultWake (s : State) (f : Fld) (v : Nat) : (s.wr f v).faultWake = s.faultWake := rfl
@[simp] theorem State.wr_due (s : State) (f : Fld) (v : Nat) : (s.wr f v).due = s.due := rfl
@[simp] theorem State.wr_cores (s : State) (f : Fld) (v : Nat) : (s.wr f v).cores = s.cores := rfl
@[simp] theorem State.wr_pend (s : State) (f : Fld) (v : Nat) : (s.wr f v).pend = s.pend := rfl
@[simp] theorem State.wr_psq (s : State) (f : Fld) (v : Nat) : (s.wr f v).psq = s.psq := rfl
@[simp] theorem State.wr_jrn (s : State) (f : Fld) (v : Nat) : (s.wr f v).jrn = s.jrn := rfl
@[simp] theorem State.wr_vsp (s : State) (f : Fld) (v : Nat) : (s.wr f v).vsp = s.vsp := rfl
@[simp] theorem State.wr_fin (s : State) (f : Fld) (v : Nat) : (s.wr f v).fin = s.fin := rfl
@[simp] theorem State.wr_fab (s : State) (f : Fld) (v : Nat) : (s.wr f v).fab = s.fab := rfl
@[simp] theorem State.wr_hst (s : State) (f : Fld) (v : Nat) : (s.wr f v).hst = s.hst := rfl
@[simp] theorem State.wr_pmx (s : State) (f : Fld) (v : Nat) : (s.wr f v).pmx = s.pmx := rfl
@[simp] theorem State.wr_plain (s : State) (f : Fld) (v : Nat) : (s.wr f v).plain = s.plain := rfl
@[simp] theorem State.wr_str (s : State) (f : Fld) (v : Nat) : (s.wr f v).str = s.str := rfl
@[simp] theorem State.wr_vale (s : State) (f : Fld) (v : Nat) : (s.wr f v).vale = s.vale := rfl
@[simp] theorem State.wr_mmq (s : State) (f : Fld) (v : Nat) : (s.wr f v).mmq = s.mmq := rfl
@[simp] theorem State.wr_btm (s : State) (f : Fld) (v : Nat) : (s.wr f v).btm = s.btm := rfl
@[simp] theorem State.wr_lsi (s : State) (f : Fld) (v : Nat) : (s.wr f v).lsi = s.lsi := rfl
@[simp] theorem State.wr_bmk (s : State) (f : Fld) (v : Nat) : (s.wr f v).bmk = s.bmk := rfl
@[simp] theorem State.wr_bld (s : State) (f : Fld) (v : Nat) : (s.wr f v).bld = s.bld := rfl
@[simp] theorem State.wr_stp (s : State) (f : Fld) (v : Nat) : (s.wr f v).stp = s.stp := rfl
@[simp] theorem State.wr_lanes (s : State) (f : Fld) (v : Nat) : (s.wr f v).lanes = s.lanes := rfl
@[simp] theorem State.wr_dma (s : State) (f : Fld) (v : Nat) : (s.wr f v).dma = s.dma := rfl
@[simp] theorem State.wr_dmaNext (s : State) (f : Fld) (v : Nat) : (s.wr f v).dmaNext = s.dmaNext := rfl
@[simp] theorem State.wr_pra (s : State) (f : Fld) (v : Nat) : (s.wr f v).pra = s.pra := rfl
@[simp] theorem State.wr_sense (s : State) (f : Fld) (v : Nat) : (s.wr f v).sense = s.sense := rfl
@[simp] theorem State.wr_pwr (s : State) (f : Fld) (v : Nat) : (s.wr f v).pwr = s.pwr := rfl
@[simp] theorem State.wr_thm (s : State) (f : Fld) (v : Nat) : (s.wr f v).thm = s.thm := rfl
@[simp] theorem State.wr_csm (s : State) (f : Fld) (v : Nat) : (s.wr f v).csm = s.csm := rfl
@[simp] theorem State.wr_xsp (s : State) (f : Fld) (v : Nat) : (s.wr f v).xsp = s.xsp := rfl
@[simp] theorem State.wr_pmc (s : State) (f : Fld) (v : Nat) : (s.wr f v).pmc = s.pmc := rfl
@[simp] theorem State.wr_mgt (s : State) (f : Fld) (v : Nat) : (s.wr f v).mgt = s.mgt := rfl
@[simp] theorem State.wr_pending (s : State) (f : Fld) (v : Nat) : (s.wr f v).pending = s.pending := rfl
@[simp] theorem State.wr_core (s : State) (f : Fld) (v : Nat) (m : Fin 12) : (s.wr f v).core m = s.core m := rfl
@[simp] theorem State.wr_readByte (s : State) (f : Fld) (v : Nat) (x : Nat) : (s.wr f v).readByte x = s.readByte x := rfl

@[simp] theorem State.wrw_meridian (s : State) (off v : Nat) : (s.wrw off v).meridian = s.meridian := rfl
@[simp] theorem State.wrw_clock (s : State) (off v : Nat) : (s.wrw off v).clock = s.clock := rfl
@[simp] theorem State.wrw_lockAt (s : State) (off v : Nat) : (s.wrw off v).lockAt = s.lockAt := rfl
@[simp] theorem State.wrw_slewRun (s : State) (off v : Nat) : (s.wrw off v).slewRun = s.slewRun := rfl
@[simp] theorem State.wrw_firstAt (s : State) (off v : Nat) : (s.wrw off v).firstAt = s.firstAt := rfl
@[simp] theorem State.wrw_mem (s : State) (off v : Nat) : (s.wrw off v).mem = s.mem := rfl
@[simp] theorem State.wrw_dieEpoch (s : State) (off v : Nat) : (s.wrw off v).dieEpoch = s.dieEpoch := rfl
@[simp] theorem State.wrw_dramEpoch (s : State) (off v : Nat) : (s.wrw off v).dramEpoch = s.dramEpoch := rfl
@[simp] theorem State.wrw_badAt (s : State) (off v : Nat) : (s.wrw off v).badAt = s.badAt := rfl
@[simp] theorem State.wrw_nvm (s : State) (off v : Nat) : (s.wrw off v).nvm = s.nvm := rfl
@[simp] theorem State.wrw_nvme (s : State) (off v : Nat) : (s.wrw off v).nvme = s.nvme := rfl
@[simp] theorem State.wrw_hostMem (s : State) (off v : Nat) : (s.wrw off v).hostMem = s.hostMem := rfl
@[simp] theorem State.wrw_aon (s : State) (off v : Nat) : (s.wrw off v).aon = s.aon := rfl
@[simp] theorem State.wrw_nowShadow (s : State) (off v : Nat) : (s.wrw off v).nowShadow = s.nowShadow := rfl
@[simp] theorem State.wrw_alarmArmed (s : State) (off v : Nat) : (s.wrw off v).alarmArmed = s.alarmArmed := rfl
@[simp] theorem State.wrw_bootClear (s : State) (off v : Nat) : (s.wrw off v).bootClear = s.bootClear := rfl
@[simp] theorem State.wrw_imageLoaded (s : State) (off v : Nat) : (s.wrw off v).imageLoaded = s.imageLoaded := rfl
@[simp] theorem State.wrw_released (s : State) (off v : Nat) : (s.wrw off v).released = s.released := rfl
@[simp] theorem State.wrw_faultWake (s : State) (off v : Nat) : (s.wrw off v).faultWake = s.faultWake := rfl
@[simp] theorem State.wrw_due (s : State) (off v : Nat) : (s.wrw off v).due = s.due := rfl
@[simp] theorem State.wrw_cores (s : State) (off v : Nat) : (s.wrw off v).cores = s.cores := rfl
@[simp] theorem State.wrw_pend (s : State) (off v : Nat) : (s.wrw off v).pend = s.pend := rfl
@[simp] theorem State.wrw_psq (s : State) (off v : Nat) : (s.wrw off v).psq = s.psq := rfl
@[simp] theorem State.wrw_jrn (s : State) (off v : Nat) : (s.wrw off v).jrn = s.jrn := rfl
@[simp] theorem State.wrw_vsp (s : State) (off v : Nat) : (s.wrw off v).vsp = s.vsp := rfl
@[simp] theorem State.wrw_fin (s : State) (off v : Nat) : (s.wrw off v).fin = s.fin := rfl
@[simp] theorem State.wrw_fab (s : State) (off v : Nat) : (s.wrw off v).fab = s.fab := rfl
@[simp] theorem State.wrw_hst (s : State) (off v : Nat) : (s.wrw off v).hst = s.hst := rfl
@[simp] theorem State.wrw_pmx (s : State) (off v : Nat) : (s.wrw off v).pmx = s.pmx := rfl
@[simp] theorem State.wrw_plain (s : State) (off v : Nat) : (s.wrw off v).plain = s.plain := rfl
@[simp] theorem State.wrw_str (s : State) (off v : Nat) : (s.wrw off v).str = s.str := rfl
@[simp] theorem State.wrw_vale (s : State) (off v : Nat) : (s.wrw off v).vale = s.vale := rfl
@[simp] theorem State.wrw_mmq (s : State) (off v : Nat) : (s.wrw off v).mmq = s.mmq := rfl
@[simp] theorem State.wrw_btm (s : State) (off v : Nat) : (s.wrw off v).btm = s.btm := rfl
@[simp] theorem State.wrw_lsi (s : State) (off v : Nat) : (s.wrw off v).lsi = s.lsi := rfl
@[simp] theorem State.wrw_bmk (s : State) (off v : Nat) : (s.wrw off v).bmk = s.bmk := rfl
@[simp] theorem State.wrw_bld (s : State) (off v : Nat) : (s.wrw off v).bld = s.bld := rfl
@[simp] theorem State.wrw_stp (s : State) (off v : Nat) : (s.wrw off v).stp = s.stp := rfl
@[simp] theorem State.wrw_lanes (s : State) (off v : Nat) : (s.wrw off v).lanes = s.lanes := rfl
@[simp] theorem State.wrw_dma (s : State) (off v : Nat) : (s.wrw off v).dma = s.dma := rfl
@[simp] theorem State.wrw_dmaNext (s : State) (off v : Nat) : (s.wrw off v).dmaNext = s.dmaNext := rfl
@[simp] theorem State.wrw_pra (s : State) (off v : Nat) : (s.wrw off v).pra = s.pra := rfl
@[simp] theorem State.wrw_sense (s : State) (off v : Nat) : (s.wrw off v).sense = s.sense := rfl
@[simp] theorem State.wrw_pwr (s : State) (off v : Nat) : (s.wrw off v).pwr = s.pwr := rfl
@[simp] theorem State.wrw_thm (s : State) (off v : Nat) : (s.wrw off v).thm = s.thm := rfl
@[simp] theorem State.wrw_csm (s : State) (off v : Nat) : (s.wrw off v).csm = s.csm := rfl
@[simp] theorem State.wrw_xsp (s : State) (off v : Nat) : (s.wrw off v).xsp = s.xsp := rfl
@[simp] theorem State.wrw_pmc (s : State) (off v : Nat) : (s.wrw off v).pmc = s.pmc := rfl
@[simp] theorem State.wrw_mgt (s : State) (off v : Nat) : (s.wrw off v).mgt = s.mgt := rfl
@[simp] theorem State.wrw_pending (s : State) (off v : Nat) : (s.wrw off v).pending = s.pending := rfl
@[simp] theorem State.wrw_core (s : State) (off v : Nat) (m : Fin 12) : (s.wrw off v).core m = s.core m := rfl
@[simp] theorem State.wrw_readByte (s : State) (off v : Nat) (x : Nat) : (s.wrw off v).readByte x = s.readByte x := rfl

@[simp] theorem State.inc_meridian (s : State) (f : Fld) : (s.inc f).meridian = s.meridian := rfl
@[simp] theorem State.inc_clock (s : State) (f : Fld) : (s.inc f).clock = s.clock := rfl
@[simp] theorem State.inc_lockAt (s : State) (f : Fld) : (s.inc f).lockAt = s.lockAt := rfl
@[simp] theorem State.inc_slewRun (s : State) (f : Fld) : (s.inc f).slewRun = s.slewRun := rfl
@[simp] theorem State.inc_firstAt (s : State) (f : Fld) : (s.inc f).firstAt = s.firstAt := rfl
@[simp] theorem State.inc_mem (s : State) (f : Fld) : (s.inc f).mem = s.mem := rfl
@[simp] theorem State.inc_dieEpoch (s : State) (f : Fld) : (s.inc f).dieEpoch = s.dieEpoch := rfl
@[simp] theorem State.inc_dramEpoch (s : State) (f : Fld) : (s.inc f).dramEpoch = s.dramEpoch := rfl
@[simp] theorem State.inc_badAt (s : State) (f : Fld) : (s.inc f).badAt = s.badAt := rfl
@[simp] theorem State.inc_nvm (s : State) (f : Fld) : (s.inc f).nvm = s.nvm := rfl
@[simp] theorem State.inc_nvme (s : State) (f : Fld) : (s.inc f).nvme = s.nvme := rfl
@[simp] theorem State.inc_hostMem (s : State) (f : Fld) : (s.inc f).hostMem = s.hostMem := rfl
@[simp] theorem State.inc_aon (s : State) (f : Fld) : (s.inc f).aon = s.aon := rfl
@[simp] theorem State.inc_nowShadow (s : State) (f : Fld) : (s.inc f).nowShadow = s.nowShadow := rfl
@[simp] theorem State.inc_alarmArmed (s : State) (f : Fld) : (s.inc f).alarmArmed = s.alarmArmed := rfl
@[simp] theorem State.inc_bootClear (s : State) (f : Fld) : (s.inc f).bootClear = s.bootClear := rfl
@[simp] theorem State.inc_imageLoaded (s : State) (f : Fld) : (s.inc f).imageLoaded = s.imageLoaded := rfl
@[simp] theorem State.inc_released (s : State) (f : Fld) : (s.inc f).released = s.released := rfl
@[simp] theorem State.inc_faultWake (s : State) (f : Fld) : (s.inc f).faultWake = s.faultWake := rfl
@[simp] theorem State.inc_due (s : State) (f : Fld) : (s.inc f).due = s.due := rfl
@[simp] theorem State.inc_cores (s : State) (f : Fld) : (s.inc f).cores = s.cores := rfl
@[simp] theorem State.inc_pend (s : State) (f : Fld) : (s.inc f).pend = s.pend := rfl
@[simp] theorem State.inc_psq (s : State) (f : Fld) : (s.inc f).psq = s.psq := rfl
@[simp] theorem State.inc_jrn (s : State) (f : Fld) : (s.inc f).jrn = s.jrn := rfl
@[simp] theorem State.inc_vsp (s : State) (f : Fld) : (s.inc f).vsp = s.vsp := rfl
@[simp] theorem State.inc_fin (s : State) (f : Fld) : (s.inc f).fin = s.fin := rfl
@[simp] theorem State.inc_fab (s : State) (f : Fld) : (s.inc f).fab = s.fab := rfl
@[simp] theorem State.inc_hst (s : State) (f : Fld) : (s.inc f).hst = s.hst := rfl
@[simp] theorem State.inc_pmx (s : State) (f : Fld) : (s.inc f).pmx = s.pmx := rfl
@[simp] theorem State.inc_plain (s : State) (f : Fld) : (s.inc f).plain = s.plain := rfl
@[simp] theorem State.inc_str (s : State) (f : Fld) : (s.inc f).str = s.str := rfl
@[simp] theorem State.inc_vale (s : State) (f : Fld) : (s.inc f).vale = s.vale := rfl
@[simp] theorem State.inc_mmq (s : State) (f : Fld) : (s.inc f).mmq = s.mmq := rfl
@[simp] theorem State.inc_btm (s : State) (f : Fld) : (s.inc f).btm = s.btm := rfl
@[simp] theorem State.inc_lsi (s : State) (f : Fld) : (s.inc f).lsi = s.lsi := rfl
@[simp] theorem State.inc_bmk (s : State) (f : Fld) : (s.inc f).bmk = s.bmk := rfl
@[simp] theorem State.inc_bld (s : State) (f : Fld) : (s.inc f).bld = s.bld := rfl
@[simp] theorem State.inc_stp (s : State) (f : Fld) : (s.inc f).stp = s.stp := rfl
@[simp] theorem State.inc_lanes (s : State) (f : Fld) : (s.inc f).lanes = s.lanes := rfl
@[simp] theorem State.inc_dma (s : State) (f : Fld) : (s.inc f).dma = s.dma := rfl
@[simp] theorem State.inc_dmaNext (s : State) (f : Fld) : (s.inc f).dmaNext = s.dmaNext := rfl
@[simp] theorem State.inc_pra (s : State) (f : Fld) : (s.inc f).pra = s.pra := rfl
@[simp] theorem State.inc_sense (s : State) (f : Fld) : (s.inc f).sense = s.sense := rfl
@[simp] theorem State.inc_pwr (s : State) (f : Fld) : (s.inc f).pwr = s.pwr := rfl
@[simp] theorem State.inc_thm (s : State) (f : Fld) : (s.inc f).thm = s.thm := rfl
@[simp] theorem State.inc_csm (s : State) (f : Fld) : (s.inc f).csm = s.csm := rfl
@[simp] theorem State.inc_xsp (s : State) (f : Fld) : (s.inc f).xsp = s.xsp := rfl
@[simp] theorem State.inc_pmc (s : State) (f : Fld) : (s.inc f).pmc = s.pmc := rfl
@[simp] theorem State.inc_mgt (s : State) (f : Fld) : (s.inc f).mgt = s.mgt := rfl
@[simp] theorem State.inc_pending (s : State) (f : Fld) : (s.inc f).pending = s.pending := rfl
@[simp] theorem State.inc_core (s : State) (f : Fld) (m : Fin 12) : (s.inc f).core m = s.core m := rfl
@[simp] theorem State.inc_readByte (s : State) (f : Fld) (x : Nat) : (s.inc f).readByte x = s.readByte x := rfl

@[simp] theorem State.addTo_meridian (s : State) (f : Fld) (n : Nat) : (s.addTo f n).meridian = s.meridian := rfl
@[simp] theorem State.addTo_clock (s : State) (f : Fld) (n : Nat) : (s.addTo f n).clock = s.clock := rfl
@[simp] theorem State.addTo_lockAt (s : State) (f : Fld) (n : Nat) : (s.addTo f n).lockAt = s.lockAt := rfl
@[simp] theorem State.addTo_slewRun (s : State) (f : Fld) (n : Nat) : (s.addTo f n).slewRun = s.slewRun := rfl
@[simp] theorem State.addTo_firstAt (s : State) (f : Fld) (n : Nat) : (s.addTo f n).firstAt = s.firstAt := rfl
@[simp] theorem State.addTo_mem (s : State) (f : Fld) (n : Nat) : (s.addTo f n).mem = s.mem := rfl
@[simp] theorem State.addTo_dieEpoch (s : State) (f : Fld) (n : Nat) : (s.addTo f n).dieEpoch = s.dieEpoch := rfl
@[simp] theorem State.addTo_dramEpoch (s : State) (f : Fld) (n : Nat) : (s.addTo f n).dramEpoch = s.dramEpoch := rfl
@[simp] theorem State.addTo_badAt (s : State) (f : Fld) (n : Nat) : (s.addTo f n).badAt = s.badAt := rfl
@[simp] theorem State.addTo_nvm (s : State) (f : Fld) (n : Nat) : (s.addTo f n).nvm = s.nvm := rfl
@[simp] theorem State.addTo_nvme (s : State) (f : Fld) (n : Nat) : (s.addTo f n).nvme = s.nvme := rfl
@[simp] theorem State.addTo_hostMem (s : State) (f : Fld) (n : Nat) : (s.addTo f n).hostMem = s.hostMem := rfl
@[simp] theorem State.addTo_aon (s : State) (f : Fld) (n : Nat) : (s.addTo f n).aon = s.aon := rfl
@[simp] theorem State.addTo_nowShadow (s : State) (f : Fld) (n : Nat) : (s.addTo f n).nowShadow = s.nowShadow := rfl
@[simp] theorem State.addTo_alarmArmed (s : State) (f : Fld) (n : Nat) : (s.addTo f n).alarmArmed = s.alarmArmed := rfl
@[simp] theorem State.addTo_bootClear (s : State) (f : Fld) (n : Nat) : (s.addTo f n).bootClear = s.bootClear := rfl
@[simp] theorem State.addTo_imageLoaded (s : State) (f : Fld) (n : Nat) : (s.addTo f n).imageLoaded = s.imageLoaded := rfl
@[simp] theorem State.addTo_released (s : State) (f : Fld) (n : Nat) : (s.addTo f n).released = s.released := rfl
@[simp] theorem State.addTo_faultWake (s : State) (f : Fld) (n : Nat) : (s.addTo f n).faultWake = s.faultWake := rfl
@[simp] theorem State.addTo_due (s : State) (f : Fld) (n : Nat) : (s.addTo f n).due = s.due := rfl
@[simp] theorem State.addTo_cores (s : State) (f : Fld) (n : Nat) : (s.addTo f n).cores = s.cores := rfl
@[simp] theorem State.addTo_pend (s : State) (f : Fld) (n : Nat) : (s.addTo f n).pend = s.pend := rfl
@[simp] theorem State.addTo_psq (s : State) (f : Fld) (n : Nat) : (s.addTo f n).psq = s.psq := rfl
@[simp] theorem State.addTo_jrn (s : State) (f : Fld) (n : Nat) : (s.addTo f n).jrn = s.jrn := rfl
@[simp] theorem State.addTo_vsp (s : State) (f : Fld) (n : Nat) : (s.addTo f n).vsp = s.vsp := rfl
@[simp] theorem State.addTo_fin (s : State) (f : Fld) (n : Nat) : (s.addTo f n).fin = s.fin := rfl
@[simp] theorem State.addTo_fab (s : State) (f : Fld) (n : Nat) : (s.addTo f n).fab = s.fab := rfl
@[simp] theorem State.addTo_hst (s : State) (f : Fld) (n : Nat) : (s.addTo f n).hst = s.hst := rfl
@[simp] theorem State.addTo_pmx (s : State) (f : Fld) (n : Nat) : (s.addTo f n).pmx = s.pmx := rfl
@[simp] theorem State.addTo_plain (s : State) (f : Fld) (n : Nat) : (s.addTo f n).plain = s.plain := rfl
@[simp] theorem State.addTo_str (s : State) (f : Fld) (n : Nat) : (s.addTo f n).str = s.str := rfl
@[simp] theorem State.addTo_vale (s : State) (f : Fld) (n : Nat) : (s.addTo f n).vale = s.vale := rfl
@[simp] theorem State.addTo_mmq (s : State) (f : Fld) (n : Nat) : (s.addTo f n).mmq = s.mmq := rfl
@[simp] theorem State.addTo_btm (s : State) (f : Fld) (n : Nat) : (s.addTo f n).btm = s.btm := rfl
@[simp] theorem State.addTo_lsi (s : State) (f : Fld) (n : Nat) : (s.addTo f n).lsi = s.lsi := rfl
@[simp] theorem State.addTo_bmk (s : State) (f : Fld) (n : Nat) : (s.addTo f n).bmk = s.bmk := rfl
@[simp] theorem State.addTo_bld (s : State) (f : Fld) (n : Nat) : (s.addTo f n).bld = s.bld := rfl
@[simp] theorem State.addTo_stp (s : State) (f : Fld) (n : Nat) : (s.addTo f n).stp = s.stp := rfl
@[simp] theorem State.addTo_lanes (s : State) (f : Fld) (n : Nat) : (s.addTo f n).lanes = s.lanes := rfl
@[simp] theorem State.addTo_dma (s : State) (f : Fld) (n : Nat) : (s.addTo f n).dma = s.dma := rfl
@[simp] theorem State.addTo_dmaNext (s : State) (f : Fld) (n : Nat) : (s.addTo f n).dmaNext = s.dmaNext := rfl
@[simp] theorem State.addTo_pra (s : State) (f : Fld) (n : Nat) : (s.addTo f n).pra = s.pra := rfl
@[simp] theorem State.addTo_sense (s : State) (f : Fld) (n : Nat) : (s.addTo f n).sense = s.sense := rfl
@[simp] theorem State.addTo_pwr (s : State) (f : Fld) (n : Nat) : (s.addTo f n).pwr = s.pwr := rfl
@[simp] theorem State.addTo_thm (s : State) (f : Fld) (n : Nat) : (s.addTo f n).thm = s.thm := rfl
@[simp] theorem State.addTo_csm (s : State) (f : Fld) (n : Nat) : (s.addTo f n).csm = s.csm := rfl
@[simp] theorem State.addTo_xsp (s : State) (f : Fld) (n : Nat) : (s.addTo f n).xsp = s.xsp := rfl
@[simp] theorem State.addTo_pmc (s : State) (f : Fld) (n : Nat) : (s.addTo f n).pmc = s.pmc := rfl
@[simp] theorem State.addTo_mgt (s : State) (f : Fld) (n : Nat) : (s.addTo f n).mgt = s.mgt := rfl
@[simp] theorem State.addTo_pending (s : State) (f : Fld) (n : Nat) : (s.addTo f n).pending = s.pending := rfl
@[simp] theorem State.addTo_core (s : State) (f : Fld) (n : Nat) (m : Fin 12) : (s.addTo f n).core m = s.core m := rfl
@[simp] theorem State.addTo_readByte (s : State) (f : Fld) (n : Nat) (x : Nat) : (s.addTo f n).readByte x = s.readByte x := rfl

@[simp] theorem State.plainWrite_meridian (s : State) (off v : Nat) : (s.plainWrite off v).meridian = s.meridian := rfl
@[simp] theorem State.plainWrite_clock (s : State) (off v : Nat) : (s.plainWrite off v).clock = s.clock := rfl
@[simp] theorem State.plainWrite_lockAt (s : State) (off v : Nat) : (s.plainWrite off v).lockAt = s.lockAt := rfl
@[simp] theorem State.plainWrite_slewRun (s : State) (off v : Nat) : (s.plainWrite off v).slewRun = s.slewRun := rfl
@[simp] theorem State.plainWrite_firstAt (s : State) (off v : Nat) : (s.plainWrite off v).firstAt = s.firstAt := rfl
@[simp] theorem State.plainWrite_mem (s : State) (off v : Nat) : (s.plainWrite off v).mem = s.mem := rfl
@[simp] theorem State.plainWrite_dieEpoch (s : State) (off v : Nat) : (s.plainWrite off v).dieEpoch = s.dieEpoch := rfl
@[simp] theorem State.plainWrite_dramEpoch (s : State) (off v : Nat) : (s.plainWrite off v).dramEpoch = s.dramEpoch := rfl
@[simp] theorem State.plainWrite_badAt (s : State) (off v : Nat) : (s.plainWrite off v).badAt = s.badAt := rfl
@[simp] theorem State.plainWrite_nvm (s : State) (off v : Nat) : (s.plainWrite off v).nvm = s.nvm := rfl
@[simp] theorem State.plainWrite_nvme (s : State) (off v : Nat) : (s.plainWrite off v).nvme = s.nvme := rfl
@[simp] theorem State.plainWrite_hostMem (s : State) (off v : Nat) : (s.plainWrite off v).hostMem = s.hostMem := rfl
@[simp] theorem State.plainWrite_aon (s : State) (off v : Nat) : (s.plainWrite off v).aon = s.aon := rfl
@[simp] theorem State.plainWrite_nowShadow (s : State) (off v : Nat) : (s.plainWrite off v).nowShadow = s.nowShadow := rfl
@[simp] theorem State.plainWrite_alarmArmed (s : State) (off v : Nat) : (s.plainWrite off v).alarmArmed = s.alarmArmed := rfl
@[simp] theorem State.plainWrite_bootClear (s : State) (off v : Nat) : (s.plainWrite off v).bootClear = s.bootClear := rfl
@[simp] theorem State.plainWrite_imageLoaded (s : State) (off v : Nat) : (s.plainWrite off v).imageLoaded = s.imageLoaded := rfl
@[simp] theorem State.plainWrite_released (s : State) (off v : Nat) : (s.plainWrite off v).released = s.released := rfl
@[simp] theorem State.plainWrite_faultWake (s : State) (off v : Nat) : (s.plainWrite off v).faultWake = s.faultWake := rfl
@[simp] theorem State.plainWrite_due (s : State) (off v : Nat) : (s.plainWrite off v).due = s.due := rfl
@[simp] theorem State.plainWrite_cores (s : State) (off v : Nat) : (s.plainWrite off v).cores = s.cores := rfl
@[simp] theorem State.plainWrite_pend (s : State) (off v : Nat) : (s.plainWrite off v).pend = s.pend := rfl
@[simp] theorem State.plainWrite_psq (s : State) (off v : Nat) : (s.plainWrite off v).psq = s.psq := rfl
@[simp] theorem State.plainWrite_jrn (s : State) (off v : Nat) : (s.plainWrite off v).jrn = s.jrn := rfl
@[simp] theorem State.plainWrite_vsp (s : State) (off v : Nat) : (s.plainWrite off v).vsp = s.vsp := rfl
@[simp] theorem State.plainWrite_fin (s : State) (off v : Nat) : (s.plainWrite off v).fin = s.fin := rfl
@[simp] theorem State.plainWrite_fab (s : State) (off v : Nat) : (s.plainWrite off v).fab = s.fab := rfl
@[simp] theorem State.plainWrite_hst (s : State) (off v : Nat) : (s.plainWrite off v).hst = s.hst := rfl
@[simp] theorem State.plainWrite_pmx (s : State) (off v : Nat) : (s.plainWrite off v).pmx = s.pmx := rfl
@[simp] theorem State.plainWrite_plain (s : State) (off v : Nat) : (s.plainWrite off v).plain = s.plain := rfl
@[simp] theorem State.plainWrite_str (s : State) (off v : Nat) : (s.plainWrite off v).str = s.str := rfl
@[simp] theorem State.plainWrite_vale (s : State) (off v : Nat) : (s.plainWrite off v).vale = s.vale := rfl
@[simp] theorem State.plainWrite_mmq (s : State) (off v : Nat) : (s.plainWrite off v).mmq = s.mmq := rfl
@[simp] theorem State.plainWrite_btm (s : State) (off v : Nat) : (s.plainWrite off v).btm = s.btm := rfl
@[simp] theorem State.plainWrite_lsi (s : State) (off v : Nat) : (s.plainWrite off v).lsi = s.lsi := rfl
@[simp] theorem State.plainWrite_bmk (s : State) (off v : Nat) : (s.plainWrite off v).bmk = s.bmk := rfl
@[simp] theorem State.plainWrite_bld (s : State) (off v : Nat) : (s.plainWrite off v).bld = s.bld := rfl
@[simp] theorem State.plainWrite_stp (s : State) (off v : Nat) : (s.plainWrite off v).stp = s.stp := rfl
@[simp] theorem State.plainWrite_lanes (s : State) (off v : Nat) : (s.plainWrite off v).lanes = s.lanes := rfl
@[simp] theorem State.plainWrite_dma (s : State) (off v : Nat) : (s.plainWrite off v).dma = s.dma := rfl
@[simp] theorem State.plainWrite_dmaNext (s : State) (off v : Nat) : (s.plainWrite off v).dmaNext = s.dmaNext := rfl
@[simp] theorem State.plainWrite_pra (s : State) (off v : Nat) : (s.plainWrite off v).pra = s.pra := rfl
@[simp] theorem State.plainWrite_sense (s : State) (off v : Nat) : (s.plainWrite off v).sense = s.sense := rfl
@[simp] theorem State.plainWrite_pwr (s : State) (off v : Nat) : (s.plainWrite off v).pwr = s.pwr := rfl
@[simp] theorem State.plainWrite_thm (s : State) (off v : Nat) : (s.plainWrite off v).thm = s.thm := rfl
@[simp] theorem State.plainWrite_csm (s : State) (off v : Nat) : (s.plainWrite off v).csm = s.csm := rfl
@[simp] theorem State.plainWrite_xsp (s : State) (off v : Nat) : (s.plainWrite off v).xsp = s.xsp := rfl
@[simp] theorem State.plainWrite_pmc (s : State) (off v : Nat) : (s.plainWrite off v).pmc = s.pmc := rfl
@[simp] theorem State.plainWrite_mgt (s : State) (off v : Nat) : (s.plainWrite off v).mgt = s.mgt := rfl
@[simp] theorem State.plainWrite_pending (s : State) (off v : Nat) : (s.plainWrite off v).pending = s.pending := rfl
@[simp] theorem State.plainWrite_core (s : State) (off v : Nat) (m : Fin 12) : (s.plainWrite off v).core m = s.core m := rfl
@[simp] theorem State.plainWrite_readByte (s : State) (off v : Nat) (x : Nat) : (s.plainWrite off v).readByte x = s.readByte x := rfl

@[simp] theorem State.writeByte_regs (s : State) (a : Nat) (b : Byte) : (s.writeByte a b).regs = s.regs := rfl
@[simp] theorem State.writeByte_meridian (s : State) (a : Nat) (b : Byte) : (s.writeByte a b).meridian = s.meridian := rfl
@[simp] theorem State.writeByte_clock (s : State) (a : Nat) (b : Byte) : (s.writeByte a b).clock = s.clock := rfl
@[simp] theorem State.writeByte_lockAt (s : State) (a : Nat) (b : Byte) : (s.writeByte a b).lockAt = s.lockAt := rfl
@[simp] theorem State.writeByte_slewRun (s : State) (a : Nat) (b : Byte) : (s.writeByte a b).slewRun = s.slewRun := rfl
@[simp] theorem State.writeByte_firstAt (s : State) (a : Nat) (b : Byte) : (s.writeByte a b).firstAt = s.firstAt := rfl
@[simp] theorem State.writeByte_dieEpoch (s : State) (a : Nat) (b : Byte) : (s.writeByte a b).dieEpoch = s.dieEpoch := rfl
@[simp] theorem State.writeByte_dramEpoch (s : State) (a : Nat) (b : Byte) : (s.writeByte a b).dramEpoch = s.dramEpoch := rfl
@[simp] theorem State.writeByte_badAt (s : State) (a : Nat) (b : Byte) : (s.writeByte a b).badAt = s.badAt := rfl
@[simp] theorem State.writeByte_nvm (s : State) (a : Nat) (b : Byte) : (s.writeByte a b).nvm = s.nvm := rfl
@[simp] theorem State.writeByte_nvme (s : State) (a : Nat) (b : Byte) : (s.writeByte a b).nvme = s.nvme := rfl
@[simp] theorem State.writeByte_hostMem (s : State) (a : Nat) (b : Byte) : (s.writeByte a b).hostMem = s.hostMem := rfl
@[simp] theorem State.writeByte_aon (s : State) (a : Nat) (b : Byte) : (s.writeByte a b).aon = s.aon := rfl
@[simp] theorem State.writeByte_nowShadow (s : State) (a : Nat) (b : Byte) : (s.writeByte a b).nowShadow = s.nowShadow := rfl
@[simp] theorem State.writeByte_alarmArmed (s : State) (a : Nat) (b : Byte) : (s.writeByte a b).alarmArmed = s.alarmArmed := rfl
@[simp] theorem State.writeByte_bootClear (s : State) (a : Nat) (b : Byte) : (s.writeByte a b).bootClear = s.bootClear := rfl
@[simp] theorem State.writeByte_imageLoaded (s : State) (a : Nat) (b : Byte) : (s.writeByte a b).imageLoaded = s.imageLoaded := rfl
@[simp] theorem State.writeByte_released (s : State) (a : Nat) (b : Byte) : (s.writeByte a b).released = s.released := rfl
@[simp] theorem State.writeByte_faultWake (s : State) (a : Nat) (b : Byte) : (s.writeByte a b).faultWake = s.faultWake := rfl
@[simp] theorem State.writeByte_due (s : State) (a : Nat) (b : Byte) : (s.writeByte a b).due = s.due := rfl
@[simp] theorem State.writeByte_cores (s : State) (a : Nat) (b : Byte) : (s.writeByte a b).cores = s.cores := rfl
@[simp] theorem State.writeByte_pend (s : State) (a : Nat) (b : Byte) : (s.writeByte a b).pend = s.pend := rfl
@[simp] theorem State.writeByte_psq (s : State) (a : Nat) (b : Byte) : (s.writeByte a b).psq = s.psq := rfl
@[simp] theorem State.writeByte_jrn (s : State) (a : Nat) (b : Byte) : (s.writeByte a b).jrn = s.jrn := rfl
@[simp] theorem State.writeByte_vsp (s : State) (a : Nat) (b : Byte) : (s.writeByte a b).vsp = s.vsp := rfl
@[simp] theorem State.writeByte_fin (s : State) (a : Nat) (b : Byte) : (s.writeByte a b).fin = s.fin := rfl
@[simp] theorem State.writeByte_fab (s : State) (a : Nat) (b : Byte) : (s.writeByte a b).fab = s.fab := rfl
@[simp] theorem State.writeByte_hst (s : State) (a : Nat) (b : Byte) : (s.writeByte a b).hst = s.hst := rfl
@[simp] theorem State.writeByte_pmx (s : State) (a : Nat) (b : Byte) : (s.writeByte a b).pmx = s.pmx := rfl
@[simp] theorem State.writeByte_plain (s : State) (a : Nat) (b : Byte) : (s.writeByte a b).plain = s.plain := rfl
@[simp] theorem State.writeByte_str (s : State) (a : Nat) (b : Byte) : (s.writeByte a b).str = s.str := rfl
@[simp] theorem State.writeByte_vale (s : State) (a : Nat) (b : Byte) : (s.writeByte a b).vale = s.vale := rfl
@[simp] theorem State.writeByte_mmq (s : State) (a : Nat) (b : Byte) : (s.writeByte a b).mmq = s.mmq := rfl
@[simp] theorem State.writeByte_btm (s : State) (a : Nat) (b : Byte) : (s.writeByte a b).btm = s.btm := rfl
@[simp] theorem State.writeByte_lsi (s : State) (a : Nat) (b : Byte) : (s.writeByte a b).lsi = s.lsi := rfl
@[simp] theorem State.writeByte_bmk (s : State) (a : Nat) (b : Byte) : (s.writeByte a b).bmk = s.bmk := rfl
@[simp] theorem State.writeByte_bld (s : State) (a : Nat) (b : Byte) : (s.writeByte a b).bld = s.bld := rfl
@[simp] theorem State.writeByte_stp (s : State) (a : Nat) (b : Byte) : (s.writeByte a b).stp = s.stp := rfl
@[simp] theorem State.writeByte_lanes (s : State) (a : Nat) (b : Byte) : (s.writeByte a b).lanes = s.lanes := rfl
@[simp] theorem State.writeByte_dma (s : State) (a : Nat) (b : Byte) : (s.writeByte a b).dma = s.dma := rfl
@[simp] theorem State.writeByte_dmaNext (s : State) (a : Nat) (b : Byte) : (s.writeByte a b).dmaNext = s.dmaNext := rfl
@[simp] theorem State.writeByte_pra (s : State) (a : Nat) (b : Byte) : (s.writeByte a b).pra = s.pra := rfl
@[simp] theorem State.writeByte_sense (s : State) (a : Nat) (b : Byte) : (s.writeByte a b).sense = s.sense := rfl
@[simp] theorem State.writeByte_pwr (s : State) (a : Nat) (b : Byte) : (s.writeByte a b).pwr = s.pwr := rfl
@[simp] theorem State.writeByte_thm (s : State) (a : Nat) (b : Byte) : (s.writeByte a b).thm = s.thm := rfl
@[simp] theorem State.writeByte_csm (s : State) (a : Nat) (b : Byte) : (s.writeByte a b).csm = s.csm := rfl
@[simp] theorem State.writeByte_xsp (s : State) (a : Nat) (b : Byte) : (s.writeByte a b).xsp = s.xsp := rfl
@[simp] theorem State.writeByte_pmc (s : State) (a : Nat) (b : Byte) : (s.writeByte a b).pmc = s.pmc := rfl
@[simp] theorem State.writeByte_mgt (s : State) (a : Nat) (b : Byte) : (s.writeByte a b).mgt = s.mgt := rfl
@[simp] theorem State.writeByte_pending (s : State) (a : Nat) (b : Byte) : (s.writeByte a b).pending = s.pending := rfl
@[simp] theorem State.writeByte_core (s : State) (a : Nat) (b : Byte) (m : Fin 12) : (s.writeByte a b).core m = s.core m := rfl
@[simp] theorem State.writeByte_getReg (s : State) (a : Nat) (b : Byte) (r : Nat) : (s.writeByte a b).getReg r = s.getReg r := rfl
@[simp] theorem State.writeByte_rd (s : State) (a : Nat) (b : Byte) (g : Fld) : (s.writeByte a b).rd g = s.rd g := rfl
@[simp] theorem State.writeByte_rdw (s : State) (a : Nat) (b : Byte) (r : Nat) : (s.writeByte a b).rdw r = s.rdw r := rfl

@[simp] theorem State.nvmWrite_regs (s : State) (a : Nat) (l : List Byte) : (s.nvmWrite a l).regs = s.regs := rfl
@[simp] theorem State.nvmWrite_meridian (s : State) (a : Nat) (l : List Byte) : (s.nvmWrite a l).meridian = s.meridian := rfl
@[simp] theorem State.nvmWrite_clock (s : State) (a : Nat) (l : List Byte) : (s.nvmWrite a l).clock = s.clock := rfl
@[simp] theorem State.nvmWrite_lockAt (s : State) (a : Nat) (l : List Byte) : (s.nvmWrite a l).lockAt = s.lockAt := rfl
@[simp] theorem State.nvmWrite_slewRun (s : State) (a : Nat) (l : List Byte) : (s.nvmWrite a l).slewRun = s.slewRun := rfl
@[simp] theorem State.nvmWrite_firstAt (s : State) (a : Nat) (l : List Byte) : (s.nvmWrite a l).firstAt = s.firstAt := rfl
@[simp] theorem State.nvmWrite_mem (s : State) (a : Nat) (l : List Byte) : (s.nvmWrite a l).mem = s.mem := rfl
@[simp] theorem State.nvmWrite_dieEpoch (s : State) (a : Nat) (l : List Byte) : (s.nvmWrite a l).dieEpoch = s.dieEpoch := rfl
@[simp] theorem State.nvmWrite_dramEpoch (s : State) (a : Nat) (l : List Byte) : (s.nvmWrite a l).dramEpoch = s.dramEpoch := rfl
@[simp] theorem State.nvmWrite_badAt (s : State) (a : Nat) (l : List Byte) : (s.nvmWrite a l).badAt = s.badAt := rfl
@[simp] theorem State.nvmWrite_nvme (s : State) (a : Nat) (l : List Byte) : (s.nvmWrite a l).nvme = s.nvme := rfl
@[simp] theorem State.nvmWrite_hostMem (s : State) (a : Nat) (l : List Byte) : (s.nvmWrite a l).hostMem = s.hostMem := rfl
@[simp] theorem State.nvmWrite_aon (s : State) (a : Nat) (l : List Byte) : (s.nvmWrite a l).aon = s.aon := rfl
@[simp] theorem State.nvmWrite_nowShadow (s : State) (a : Nat) (l : List Byte) : (s.nvmWrite a l).nowShadow = s.nowShadow := rfl
@[simp] theorem State.nvmWrite_alarmArmed (s : State) (a : Nat) (l : List Byte) : (s.nvmWrite a l).alarmArmed = s.alarmArmed := rfl
@[simp] theorem State.nvmWrite_bootClear (s : State) (a : Nat) (l : List Byte) : (s.nvmWrite a l).bootClear = s.bootClear := rfl
@[simp] theorem State.nvmWrite_imageLoaded (s : State) (a : Nat) (l : List Byte) : (s.nvmWrite a l).imageLoaded = s.imageLoaded := rfl
@[simp] theorem State.nvmWrite_released (s : State) (a : Nat) (l : List Byte) : (s.nvmWrite a l).released = s.released := rfl
@[simp] theorem State.nvmWrite_faultWake (s : State) (a : Nat) (l : List Byte) : (s.nvmWrite a l).faultWake = s.faultWake := rfl
@[simp] theorem State.nvmWrite_due (s : State) (a : Nat) (l : List Byte) : (s.nvmWrite a l).due = s.due := rfl
@[simp] theorem State.nvmWrite_cores (s : State) (a : Nat) (l : List Byte) : (s.nvmWrite a l).cores = s.cores := rfl
@[simp] theorem State.nvmWrite_pend (s : State) (a : Nat) (l : List Byte) : (s.nvmWrite a l).pend = s.pend := rfl
@[simp] theorem State.nvmWrite_psq (s : State) (a : Nat) (l : List Byte) : (s.nvmWrite a l).psq = s.psq := rfl
@[simp] theorem State.nvmWrite_jrn (s : State) (a : Nat) (l : List Byte) : (s.nvmWrite a l).jrn = s.jrn := rfl
@[simp] theorem State.nvmWrite_vsp (s : State) (a : Nat) (l : List Byte) : (s.nvmWrite a l).vsp = s.vsp := rfl
@[simp] theorem State.nvmWrite_fin (s : State) (a : Nat) (l : List Byte) : (s.nvmWrite a l).fin = s.fin := rfl
@[simp] theorem State.nvmWrite_fab (s : State) (a : Nat) (l : List Byte) : (s.nvmWrite a l).fab = s.fab := rfl
@[simp] theorem State.nvmWrite_hst (s : State) (a : Nat) (l : List Byte) : (s.nvmWrite a l).hst = s.hst := rfl
@[simp] theorem State.nvmWrite_pmx (s : State) (a : Nat) (l : List Byte) : (s.nvmWrite a l).pmx = s.pmx := rfl
@[simp] theorem State.nvmWrite_plain (s : State) (a : Nat) (l : List Byte) : (s.nvmWrite a l).plain = s.plain := rfl
@[simp] theorem State.nvmWrite_str (s : State) (a : Nat) (l : List Byte) : (s.nvmWrite a l).str = s.str := rfl
@[simp] theorem State.nvmWrite_vale (s : State) (a : Nat) (l : List Byte) : (s.nvmWrite a l).vale = s.vale := rfl
@[simp] theorem State.nvmWrite_mmq (s : State) (a : Nat) (l : List Byte) : (s.nvmWrite a l).mmq = s.mmq := rfl
@[simp] theorem State.nvmWrite_btm (s : State) (a : Nat) (l : List Byte) : (s.nvmWrite a l).btm = s.btm := rfl
@[simp] theorem State.nvmWrite_lsi (s : State) (a : Nat) (l : List Byte) : (s.nvmWrite a l).lsi = s.lsi := rfl
@[simp] theorem State.nvmWrite_bmk (s : State) (a : Nat) (l : List Byte) : (s.nvmWrite a l).bmk = s.bmk := rfl
@[simp] theorem State.nvmWrite_bld (s : State) (a : Nat) (l : List Byte) : (s.nvmWrite a l).bld = s.bld := rfl
@[simp] theorem State.nvmWrite_stp (s : State) (a : Nat) (l : List Byte) : (s.nvmWrite a l).stp = s.stp := rfl
@[simp] theorem State.nvmWrite_lanes (s : State) (a : Nat) (l : List Byte) : (s.nvmWrite a l).lanes = s.lanes := rfl
@[simp] theorem State.nvmWrite_dma (s : State) (a : Nat) (l : List Byte) : (s.nvmWrite a l).dma = s.dma := rfl
@[simp] theorem State.nvmWrite_dmaNext (s : State) (a : Nat) (l : List Byte) : (s.nvmWrite a l).dmaNext = s.dmaNext := rfl
@[simp] theorem State.nvmWrite_pra (s : State) (a : Nat) (l : List Byte) : (s.nvmWrite a l).pra = s.pra := rfl
@[simp] theorem State.nvmWrite_sense (s : State) (a : Nat) (l : List Byte) : (s.nvmWrite a l).sense = s.sense := rfl
@[simp] theorem State.nvmWrite_pwr (s : State) (a : Nat) (l : List Byte) : (s.nvmWrite a l).pwr = s.pwr := rfl
@[simp] theorem State.nvmWrite_thm (s : State) (a : Nat) (l : List Byte) : (s.nvmWrite a l).thm = s.thm := rfl
@[simp] theorem State.nvmWrite_csm (s : State) (a : Nat) (l : List Byte) : (s.nvmWrite a l).csm = s.csm := rfl
@[simp] theorem State.nvmWrite_xsp (s : State) (a : Nat) (l : List Byte) : (s.nvmWrite a l).xsp = s.xsp := rfl
@[simp] theorem State.nvmWrite_pmc (s : State) (a : Nat) (l : List Byte) : (s.nvmWrite a l).pmc = s.pmc := rfl
@[simp] theorem State.nvmWrite_mgt (s : State) (a : Nat) (l : List Byte) : (s.nvmWrite a l).mgt = s.mgt := rfl
@[simp] theorem State.nvmWrite_pending (s : State) (a : Nat) (l : List Byte) : (s.nvmWrite a l).pending = s.pending := rfl
@[simp] theorem State.nvmWrite_core (s : State) (a : Nat) (l : List Byte) (m : Fin 12) : (s.nvmWrite a l).core m = s.core m := rfl
@[simp] theorem State.nvmWrite_getReg (s : State) (a : Nat) (l : List Byte) (r : Nat) : (s.nvmWrite a l).getReg r = s.getReg r := rfl
@[simp] theorem State.nvmWrite_rd (s : State) (a : Nat) (l : List Byte) (g : Fld) : (s.nvmWrite a l).rd g = s.rd g := rfl
@[simp] theorem State.nvmWrite_rdw (s : State) (a : Nat) (l : List Byte) (r : Nat) : (s.nvmWrite a l).rdw r = s.rdw r := rfl
@[simp] theorem State.nvmWrite_readByte (s : State) (a : Nat) (l : List Byte) (x : Nat) : (s.nvmWrite a l).readByte x = s.readByte x := rfl

@[simp] theorem State.nvmeWrite_regs (s : State) (a : Nat) (l : List Byte) : (s.nvmeWrite a l).regs = s.regs := rfl
@[simp] theorem State.nvmeWrite_meridian (s : State) (a : Nat) (l : List Byte) : (s.nvmeWrite a l).meridian = s.meridian := rfl
@[simp] theorem State.nvmeWrite_clock (s : State) (a : Nat) (l : List Byte) : (s.nvmeWrite a l).clock = s.clock := rfl
@[simp] theorem State.nvmeWrite_lockAt (s : State) (a : Nat) (l : List Byte) : (s.nvmeWrite a l).lockAt = s.lockAt := rfl
@[simp] theorem State.nvmeWrite_slewRun (s : State) (a : Nat) (l : List Byte) : (s.nvmeWrite a l).slewRun = s.slewRun := rfl
@[simp] theorem State.nvmeWrite_firstAt (s : State) (a : Nat) (l : List Byte) : (s.nvmeWrite a l).firstAt = s.firstAt := rfl
@[simp] theorem State.nvmeWrite_mem (s : State) (a : Nat) (l : List Byte) : (s.nvmeWrite a l).mem = s.mem := rfl
@[simp] theorem State.nvmeWrite_dieEpoch (s : State) (a : Nat) (l : List Byte) : (s.nvmeWrite a l).dieEpoch = s.dieEpoch := rfl
@[simp] theorem State.nvmeWrite_dramEpoch (s : State) (a : Nat) (l : List Byte) : (s.nvmeWrite a l).dramEpoch = s.dramEpoch := rfl
@[simp] theorem State.nvmeWrite_badAt (s : State) (a : Nat) (l : List Byte) : (s.nvmeWrite a l).badAt = s.badAt := rfl
@[simp] theorem State.nvmeWrite_nvm (s : State) (a : Nat) (l : List Byte) : (s.nvmeWrite a l).nvm = s.nvm := rfl
@[simp] theorem State.nvmeWrite_hostMem (s : State) (a : Nat) (l : List Byte) : (s.nvmeWrite a l).hostMem = s.hostMem := rfl
@[simp] theorem State.nvmeWrite_aon (s : State) (a : Nat) (l : List Byte) : (s.nvmeWrite a l).aon = s.aon := rfl
@[simp] theorem State.nvmeWrite_nowShadow (s : State) (a : Nat) (l : List Byte) : (s.nvmeWrite a l).nowShadow = s.nowShadow := rfl
@[simp] theorem State.nvmeWrite_alarmArmed (s : State) (a : Nat) (l : List Byte) : (s.nvmeWrite a l).alarmArmed = s.alarmArmed := rfl
@[simp] theorem State.nvmeWrite_bootClear (s : State) (a : Nat) (l : List Byte) : (s.nvmeWrite a l).bootClear = s.bootClear := rfl
@[simp] theorem State.nvmeWrite_imageLoaded (s : State) (a : Nat) (l : List Byte) : (s.nvmeWrite a l).imageLoaded = s.imageLoaded := rfl
@[simp] theorem State.nvmeWrite_released (s : State) (a : Nat) (l : List Byte) : (s.nvmeWrite a l).released = s.released := rfl
@[simp] theorem State.nvmeWrite_faultWake (s : State) (a : Nat) (l : List Byte) : (s.nvmeWrite a l).faultWake = s.faultWake := rfl
@[simp] theorem State.nvmeWrite_due (s : State) (a : Nat) (l : List Byte) : (s.nvmeWrite a l).due = s.due := rfl
@[simp] theorem State.nvmeWrite_cores (s : State) (a : Nat) (l : List Byte) : (s.nvmeWrite a l).cores = s.cores := rfl
@[simp] theorem State.nvmeWrite_pend (s : State) (a : Nat) (l : List Byte) : (s.nvmeWrite a l).pend = s.pend := rfl
@[simp] theorem State.nvmeWrite_psq (s : State) (a : Nat) (l : List Byte) : (s.nvmeWrite a l).psq = s.psq := rfl
@[simp] theorem State.nvmeWrite_jrn (s : State) (a : Nat) (l : List Byte) : (s.nvmeWrite a l).jrn = s.jrn := rfl
@[simp] theorem State.nvmeWrite_vsp (s : State) (a : Nat) (l : List Byte) : (s.nvmeWrite a l).vsp = s.vsp := rfl
@[simp] theorem State.nvmeWrite_fin (s : State) (a : Nat) (l : List Byte) : (s.nvmeWrite a l).fin = s.fin := rfl
@[simp] theorem State.nvmeWrite_fab (s : State) (a : Nat) (l : List Byte) : (s.nvmeWrite a l).fab = s.fab := rfl
@[simp] theorem State.nvmeWrite_hst (s : State) (a : Nat) (l : List Byte) : (s.nvmeWrite a l).hst = s.hst := rfl
@[simp] theorem State.nvmeWrite_pmx (s : State) (a : Nat) (l : List Byte) : (s.nvmeWrite a l).pmx = s.pmx := rfl
@[simp] theorem State.nvmeWrite_plain (s : State) (a : Nat) (l : List Byte) : (s.nvmeWrite a l).plain = s.plain := rfl
@[simp] theorem State.nvmeWrite_str (s : State) (a : Nat) (l : List Byte) : (s.nvmeWrite a l).str = s.str := rfl
@[simp] theorem State.nvmeWrite_vale (s : State) (a : Nat) (l : List Byte) : (s.nvmeWrite a l).vale = s.vale := rfl
@[simp] theorem State.nvmeWrite_mmq (s : State) (a : Nat) (l : List Byte) : (s.nvmeWrite a l).mmq = s.mmq := rfl
@[simp] theorem State.nvmeWrite_btm (s : State) (a : Nat) (l : List Byte) : (s.nvmeWrite a l).btm = s.btm := rfl
@[simp] theorem State.nvmeWrite_lsi (s : State) (a : Nat) (l : List Byte) : (s.nvmeWrite a l).lsi = s.lsi := rfl
@[simp] theorem State.nvmeWrite_bmk (s : State) (a : Nat) (l : List Byte) : (s.nvmeWrite a l).bmk = s.bmk := rfl
@[simp] theorem State.nvmeWrite_bld (s : State) (a : Nat) (l : List Byte) : (s.nvmeWrite a l).bld = s.bld := rfl
@[simp] theorem State.nvmeWrite_stp (s : State) (a : Nat) (l : List Byte) : (s.nvmeWrite a l).stp = s.stp := rfl
@[simp] theorem State.nvmeWrite_lanes (s : State) (a : Nat) (l : List Byte) : (s.nvmeWrite a l).lanes = s.lanes := rfl
@[simp] theorem State.nvmeWrite_dma (s : State) (a : Nat) (l : List Byte) : (s.nvmeWrite a l).dma = s.dma := rfl
@[simp] theorem State.nvmeWrite_dmaNext (s : State) (a : Nat) (l : List Byte) : (s.nvmeWrite a l).dmaNext = s.dmaNext := rfl
@[simp] theorem State.nvmeWrite_pra (s : State) (a : Nat) (l : List Byte) : (s.nvmeWrite a l).pra = s.pra := rfl
@[simp] theorem State.nvmeWrite_sense (s : State) (a : Nat) (l : List Byte) : (s.nvmeWrite a l).sense = s.sense := rfl
@[simp] theorem State.nvmeWrite_pwr (s : State) (a : Nat) (l : List Byte) : (s.nvmeWrite a l).pwr = s.pwr := rfl
@[simp] theorem State.nvmeWrite_thm (s : State) (a : Nat) (l : List Byte) : (s.nvmeWrite a l).thm = s.thm := rfl
@[simp] theorem State.nvmeWrite_csm (s : State) (a : Nat) (l : List Byte) : (s.nvmeWrite a l).csm = s.csm := rfl
@[simp] theorem State.nvmeWrite_xsp (s : State) (a : Nat) (l : List Byte) : (s.nvmeWrite a l).xsp = s.xsp := rfl
@[simp] theorem State.nvmeWrite_pmc (s : State) (a : Nat) (l : List Byte) : (s.nvmeWrite a l).pmc = s.pmc := rfl
@[simp] theorem State.nvmeWrite_mgt (s : State) (a : Nat) (l : List Byte) : (s.nvmeWrite a l).mgt = s.mgt := rfl
@[simp] theorem State.nvmeWrite_pending (s : State) (a : Nat) (l : List Byte) : (s.nvmeWrite a l).pending = s.pending := rfl
@[simp] theorem State.nvmeWrite_core (s : State) (a : Nat) (l : List Byte) (m : Fin 12) : (s.nvmeWrite a l).core m = s.core m := rfl
@[simp] theorem State.nvmeWrite_getReg (s : State) (a : Nat) (l : List Byte) (r : Nat) : (s.nvmeWrite a l).getReg r = s.getReg r := rfl
@[simp] theorem State.nvmeWrite_rd (s : State) (a : Nat) (l : List Byte) (g : Fld) : (s.nvmeWrite a l).rd g = s.rd g := rfl
@[simp] theorem State.nvmeWrite_rdw (s : State) (a : Nat) (l : List Byte) (r : Nat) : (s.nvmeWrite a l).rdw r = s.rdw r := rfl
@[simp] theorem State.nvmeWrite_readByte (s : State) (a : Nat) (l : List Byte) (x : Nat) : (s.nvmeWrite a l).readByte x = s.readByte x := rfl

@[simp] theorem State.hostWrite_regs (s : State) (a : Nat) (l : List Byte) : (s.hostWrite a l).regs = s.regs := rfl
@[simp] theorem State.hostWrite_meridian (s : State) (a : Nat) (l : List Byte) : (s.hostWrite a l).meridian = s.meridian := rfl
@[simp] theorem State.hostWrite_clock (s : State) (a : Nat) (l : List Byte) : (s.hostWrite a l).clock = s.clock := rfl
@[simp] theorem State.hostWrite_lockAt (s : State) (a : Nat) (l : List Byte) : (s.hostWrite a l).lockAt = s.lockAt := rfl
@[simp] theorem State.hostWrite_slewRun (s : State) (a : Nat) (l : List Byte) : (s.hostWrite a l).slewRun = s.slewRun := rfl
@[simp] theorem State.hostWrite_firstAt (s : State) (a : Nat) (l : List Byte) : (s.hostWrite a l).firstAt = s.firstAt := rfl
@[simp] theorem State.hostWrite_mem (s : State) (a : Nat) (l : List Byte) : (s.hostWrite a l).mem = s.mem := rfl
@[simp] theorem State.hostWrite_dieEpoch (s : State) (a : Nat) (l : List Byte) : (s.hostWrite a l).dieEpoch = s.dieEpoch := rfl
@[simp] theorem State.hostWrite_dramEpoch (s : State) (a : Nat) (l : List Byte) : (s.hostWrite a l).dramEpoch = s.dramEpoch := rfl
@[simp] theorem State.hostWrite_badAt (s : State) (a : Nat) (l : List Byte) : (s.hostWrite a l).badAt = s.badAt := rfl
@[simp] theorem State.hostWrite_nvm (s : State) (a : Nat) (l : List Byte) : (s.hostWrite a l).nvm = s.nvm := rfl
@[simp] theorem State.hostWrite_nvme (s : State) (a : Nat) (l : List Byte) : (s.hostWrite a l).nvme = s.nvme := rfl
@[simp] theorem State.hostWrite_aon (s : State) (a : Nat) (l : List Byte) : (s.hostWrite a l).aon = s.aon := rfl
@[simp] theorem State.hostWrite_nowShadow (s : State) (a : Nat) (l : List Byte) : (s.hostWrite a l).nowShadow = s.nowShadow := rfl
@[simp] theorem State.hostWrite_alarmArmed (s : State) (a : Nat) (l : List Byte) : (s.hostWrite a l).alarmArmed = s.alarmArmed := rfl
@[simp] theorem State.hostWrite_bootClear (s : State) (a : Nat) (l : List Byte) : (s.hostWrite a l).bootClear = s.bootClear := rfl
@[simp] theorem State.hostWrite_imageLoaded (s : State) (a : Nat) (l : List Byte) : (s.hostWrite a l).imageLoaded = s.imageLoaded := rfl
@[simp] theorem State.hostWrite_released (s : State) (a : Nat) (l : List Byte) : (s.hostWrite a l).released = s.released := rfl
@[simp] theorem State.hostWrite_faultWake (s : State) (a : Nat) (l : List Byte) : (s.hostWrite a l).faultWake = s.faultWake := rfl
@[simp] theorem State.hostWrite_due (s : State) (a : Nat) (l : List Byte) : (s.hostWrite a l).due = s.due := rfl
@[simp] theorem State.hostWrite_cores (s : State) (a : Nat) (l : List Byte) : (s.hostWrite a l).cores = s.cores := rfl
@[simp] theorem State.hostWrite_pend (s : State) (a : Nat) (l : List Byte) : (s.hostWrite a l).pend = s.pend := rfl
@[simp] theorem State.hostWrite_psq (s : State) (a : Nat) (l : List Byte) : (s.hostWrite a l).psq = s.psq := rfl
@[simp] theorem State.hostWrite_jrn (s : State) (a : Nat) (l : List Byte) : (s.hostWrite a l).jrn = s.jrn := rfl
@[simp] theorem State.hostWrite_vsp (s : State) (a : Nat) (l : List Byte) : (s.hostWrite a l).vsp = s.vsp := rfl
@[simp] theorem State.hostWrite_fin (s : State) (a : Nat) (l : List Byte) : (s.hostWrite a l).fin = s.fin := rfl
@[simp] theorem State.hostWrite_fab (s : State) (a : Nat) (l : List Byte) : (s.hostWrite a l).fab = s.fab := rfl
@[simp] theorem State.hostWrite_hst (s : State) (a : Nat) (l : List Byte) : (s.hostWrite a l).hst = s.hst := rfl
@[simp] theorem State.hostWrite_pmx (s : State) (a : Nat) (l : List Byte) : (s.hostWrite a l).pmx = s.pmx := rfl
@[simp] theorem State.hostWrite_plain (s : State) (a : Nat) (l : List Byte) : (s.hostWrite a l).plain = s.plain := rfl
@[simp] theorem State.hostWrite_str (s : State) (a : Nat) (l : List Byte) : (s.hostWrite a l).str = s.str := rfl
@[simp] theorem State.hostWrite_vale (s : State) (a : Nat) (l : List Byte) : (s.hostWrite a l).vale = s.vale := rfl
@[simp] theorem State.hostWrite_mmq (s : State) (a : Nat) (l : List Byte) : (s.hostWrite a l).mmq = s.mmq := rfl
@[simp] theorem State.hostWrite_btm (s : State) (a : Nat) (l : List Byte) : (s.hostWrite a l).btm = s.btm := rfl
@[simp] theorem State.hostWrite_lsi (s : State) (a : Nat) (l : List Byte) : (s.hostWrite a l).lsi = s.lsi := rfl
@[simp] theorem State.hostWrite_bmk (s : State) (a : Nat) (l : List Byte) : (s.hostWrite a l).bmk = s.bmk := rfl
@[simp] theorem State.hostWrite_bld (s : State) (a : Nat) (l : List Byte) : (s.hostWrite a l).bld = s.bld := rfl
@[simp] theorem State.hostWrite_stp (s : State) (a : Nat) (l : List Byte) : (s.hostWrite a l).stp = s.stp := rfl
@[simp] theorem State.hostWrite_lanes (s : State) (a : Nat) (l : List Byte) : (s.hostWrite a l).lanes = s.lanes := rfl
@[simp] theorem State.hostWrite_dma (s : State) (a : Nat) (l : List Byte) : (s.hostWrite a l).dma = s.dma := rfl
@[simp] theorem State.hostWrite_dmaNext (s : State) (a : Nat) (l : List Byte) : (s.hostWrite a l).dmaNext = s.dmaNext := rfl
@[simp] theorem State.hostWrite_pra (s : State) (a : Nat) (l : List Byte) : (s.hostWrite a l).pra = s.pra := rfl
@[simp] theorem State.hostWrite_sense (s : State) (a : Nat) (l : List Byte) : (s.hostWrite a l).sense = s.sense := rfl
@[simp] theorem State.hostWrite_pwr (s : State) (a : Nat) (l : List Byte) : (s.hostWrite a l).pwr = s.pwr := rfl
@[simp] theorem State.hostWrite_thm (s : State) (a : Nat) (l : List Byte) : (s.hostWrite a l).thm = s.thm := rfl
@[simp] theorem State.hostWrite_csm (s : State) (a : Nat) (l : List Byte) : (s.hostWrite a l).csm = s.csm := rfl
@[simp] theorem State.hostWrite_xsp (s : State) (a : Nat) (l : List Byte) : (s.hostWrite a l).xsp = s.xsp := rfl
@[simp] theorem State.hostWrite_pmc (s : State) (a : Nat) (l : List Byte) : (s.hostWrite a l).pmc = s.pmc := rfl
@[simp] theorem State.hostWrite_mgt (s : State) (a : Nat) (l : List Byte) : (s.hostWrite a l).mgt = s.mgt := rfl
@[simp] theorem State.hostWrite_pending (s : State) (a : Nat) (l : List Byte) : (s.hostWrite a l).pending = s.pending := rfl
@[simp] theorem State.hostWrite_core (s : State) (a : Nat) (l : List Byte) (m : Fin 12) : (s.hostWrite a l).core m = s.core m := rfl
@[simp] theorem State.hostWrite_getReg (s : State) (a : Nat) (l : List Byte) (r : Nat) : (s.hostWrite a l).getReg r = s.getReg r := rfl
@[simp] theorem State.hostWrite_rd (s : State) (a : Nat) (l : List Byte) (g : Fld) : (s.hostWrite a l).rd g = s.rd g := rfl
@[simp] theorem State.hostWrite_rdw (s : State) (a : Nat) (l : List Byte) (r : Nat) : (s.hostWrite a l).rdw r = s.rdw r := rfl
@[simp] theorem State.hostWrite_readByte (s : State) (a : Nat) (l : List Byte) (x : Nat) : (s.hostWrite a l).readByte x = s.readByte x := rfl

@[simp] theorem State.updCore_regs (s : State) (n : Fin 12) (f : CoreX → CoreX) : (s.updCore n f).regs = s.regs := rfl
@[simp] theorem State.updCore_meridian (s : State) (n : Fin 12) (f : CoreX → CoreX) : (s.updCore n f).meridian = s.meridian := rfl
@[simp] theorem State.updCore_clock (s : State) (n : Fin 12) (f : CoreX → CoreX) : (s.updCore n f).clock = s.clock := rfl
@[simp] theorem State.updCore_lockAt (s : State) (n : Fin 12) (f : CoreX → CoreX) : (s.updCore n f).lockAt = s.lockAt := rfl
@[simp] theorem State.updCore_slewRun (s : State) (n : Fin 12) (f : CoreX → CoreX) : (s.updCore n f).slewRun = s.slewRun := rfl
@[simp] theorem State.updCore_firstAt (s : State) (n : Fin 12) (f : CoreX → CoreX) : (s.updCore n f).firstAt = s.firstAt := rfl
@[simp] theorem State.updCore_mem (s : State) (n : Fin 12) (f : CoreX → CoreX) : (s.updCore n f).mem = s.mem := rfl
@[simp] theorem State.updCore_dieEpoch (s : State) (n : Fin 12) (f : CoreX → CoreX) : (s.updCore n f).dieEpoch = s.dieEpoch := rfl
@[simp] theorem State.updCore_dramEpoch (s : State) (n : Fin 12) (f : CoreX → CoreX) : (s.updCore n f).dramEpoch = s.dramEpoch := rfl
@[simp] theorem State.updCore_badAt (s : State) (n : Fin 12) (f : CoreX → CoreX) : (s.updCore n f).badAt = s.badAt := rfl
@[simp] theorem State.updCore_nvm (s : State) (n : Fin 12) (f : CoreX → CoreX) : (s.updCore n f).nvm = s.nvm := rfl
@[simp] theorem State.updCore_nvme (s : State) (n : Fin 12) (f : CoreX → CoreX) : (s.updCore n f).nvme = s.nvme := rfl
@[simp] theorem State.updCore_hostMem (s : State) (n : Fin 12) (f : CoreX → CoreX) : (s.updCore n f).hostMem = s.hostMem := rfl
@[simp] theorem State.updCore_aon (s : State) (n : Fin 12) (f : CoreX → CoreX) : (s.updCore n f).aon = s.aon := rfl
@[simp] theorem State.updCore_nowShadow (s : State) (n : Fin 12) (f : CoreX → CoreX) : (s.updCore n f).nowShadow = s.nowShadow := rfl
@[simp] theorem State.updCore_alarmArmed (s : State) (n : Fin 12) (f : CoreX → CoreX) : (s.updCore n f).alarmArmed = s.alarmArmed := rfl
@[simp] theorem State.updCore_bootClear (s : State) (n : Fin 12) (f : CoreX → CoreX) : (s.updCore n f).bootClear = s.bootClear := rfl
@[simp] theorem State.updCore_imageLoaded (s : State) (n : Fin 12) (f : CoreX → CoreX) : (s.updCore n f).imageLoaded = s.imageLoaded := rfl
@[simp] theorem State.updCore_released (s : State) (n : Fin 12) (f : CoreX → CoreX) : (s.updCore n f).released = s.released := rfl
@[simp] theorem State.updCore_faultWake (s : State) (n : Fin 12) (f : CoreX → CoreX) : (s.updCore n f).faultWake = s.faultWake := rfl
@[simp] theorem State.updCore_due (s : State) (n : Fin 12) (f : CoreX → CoreX) : (s.updCore n f).due = s.due := rfl
@[simp] theorem State.updCore_pend (s : State) (n : Fin 12) (f : CoreX → CoreX) : (s.updCore n f).pend = s.pend := rfl
@[simp] theorem State.updCore_psq (s : State) (n : Fin 12) (f : CoreX → CoreX) : (s.updCore n f).psq = s.psq := rfl
@[simp] theorem State.updCore_jrn (s : State) (n : Fin 12) (f : CoreX → CoreX) : (s.updCore n f).jrn = s.jrn := rfl
@[simp] theorem State.updCore_vsp (s : State) (n : Fin 12) (f : CoreX → CoreX) : (s.updCore n f).vsp = s.vsp := rfl
@[simp] theorem State.updCore_fin (s : State) (n : Fin 12) (f : CoreX → CoreX) : (s.updCore n f).fin = s.fin := rfl
@[simp] theorem State.updCore_fab (s : State) (n : Fin 12) (f : CoreX → CoreX) : (s.updCore n f).fab = s.fab := rfl
@[simp] theorem State.updCore_hst (s : State) (n : Fin 12) (f : CoreX → CoreX) : (s.updCore n f).hst = s.hst := rfl
@[simp] theorem State.updCore_pmx (s : State) (n : Fin 12) (f : CoreX → CoreX) : (s.updCore n f).pmx = s.pmx := rfl
@[simp] theorem State.updCore_plain (s : State) (n : Fin 12) (f : CoreX → CoreX) : (s.updCore n f).plain = s.plain := rfl
@[simp] theorem State.updCore_str (s : State) (n : Fin 12) (f : CoreX → CoreX) : (s.updCore n f).str = s.str := rfl
@[simp] theorem State.updCore_vale (s : State) (n : Fin 12) (f : CoreX → CoreX) : (s.updCore n f).vale = s.vale := rfl
@[simp] theorem State.updCore_mmq (s : State) (n : Fin 12) (f : CoreX → CoreX) : (s.updCore n f).mmq = s.mmq := rfl
@[simp] theorem State.updCore_btm (s : State) (n : Fin 12) (f : CoreX → CoreX) : (s.updCore n f).btm = s.btm := rfl
@[simp] theorem State.updCore_lsi (s : State) (n : Fin 12) (f : CoreX → CoreX) : (s.updCore n f).lsi = s.lsi := rfl
@[simp] theorem State.updCore_bmk (s : State) (n : Fin 12) (f : CoreX → CoreX) : (s.updCore n f).bmk = s.bmk := rfl
@[simp] theorem State.updCore_bld (s : State) (n : Fin 12) (f : CoreX → CoreX) : (s.updCore n f).bld = s.bld := rfl
@[simp] theorem State.updCore_stp (s : State) (n : Fin 12) (f : CoreX → CoreX) : (s.updCore n f).stp = s.stp := rfl
@[simp] theorem State.updCore_lanes (s : State) (n : Fin 12) (f : CoreX → CoreX) : (s.updCore n f).lanes = s.lanes := rfl
@[simp] theorem State.updCore_dma (s : State) (n : Fin 12) (f : CoreX → CoreX) : (s.updCore n f).dma = s.dma := rfl
@[simp] theorem State.updCore_dmaNext (s : State) (n : Fin 12) (f : CoreX → CoreX) : (s.updCore n f).dmaNext = s.dmaNext := rfl
@[simp] theorem State.updCore_pra (s : State) (n : Fin 12) (f : CoreX → CoreX) : (s.updCore n f).pra = s.pra := rfl
@[simp] theorem State.updCore_sense (s : State) (n : Fin 12) (f : CoreX → CoreX) : (s.updCore n f).sense = s.sense := rfl
@[simp] theorem State.updCore_pwr (s : State) (n : Fin 12) (f : CoreX → CoreX) : (s.updCore n f).pwr = s.pwr := rfl
@[simp] theorem State.updCore_thm (s : State) (n : Fin 12) (f : CoreX → CoreX) : (s.updCore n f).thm = s.thm := rfl
@[simp] theorem State.updCore_csm (s : State) (n : Fin 12) (f : CoreX → CoreX) : (s.updCore n f).csm = s.csm := rfl
@[simp] theorem State.updCore_xsp (s : State) (n : Fin 12) (f : CoreX → CoreX) : (s.updCore n f).xsp = s.xsp := rfl
@[simp] theorem State.updCore_pmc (s : State) (n : Fin 12) (f : CoreX → CoreX) : (s.updCore n f).pmc = s.pmc := rfl
@[simp] theorem State.updCore_mgt (s : State) (n : Fin 12) (f : CoreX → CoreX) : (s.updCore n f).mgt = s.mgt := rfl
@[simp] theorem State.updCore_pending (s : State) (n : Fin 12) (f : CoreX → CoreX) : (s.updCore n f).pending = s.pending := rfl
@[simp] theorem State.updCore_getReg (s : State) (n : Fin 12) (f : CoreX → CoreX) (r : Nat) : (s.updCore n f).getReg r = s.getReg r := rfl
@[simp] theorem State.updCore_rd (s : State) (n : Fin 12) (f : CoreX → CoreX) (g : Fld) : (s.updCore n f).rd g = s.rd g := rfl
@[simp] theorem State.updCore_rdw (s : State) (n : Fin 12) (f : CoreX → CoreX) (r : Nat) : (s.updCore n f).rdw r = s.rdw r := rfl
@[simp] theorem State.updCore_readByte (s : State) (n : Fin 12) (f : CoreX → CoreX) (x : Nat) : (s.updCore n f).readByte x = s.readByte x := rfl

@[simp] theorem State.updSheet_regs (s : State) (t : Nat) (f : SheetX → SheetX) : (s.updSheet t f).regs = s.regs := rfl
@[simp] theorem State.updSheet_meridian (s : State) (t : Nat) (f : SheetX → SheetX) : (s.updSheet t f).meridian = s.meridian := rfl
@[simp] theorem State.updSheet_clock (s : State) (t : Nat) (f : SheetX → SheetX) : (s.updSheet t f).clock = s.clock := rfl
@[simp] theorem State.updSheet_lockAt (s : State) (t : Nat) (f : SheetX → SheetX) : (s.updSheet t f).lockAt = s.lockAt := rfl
@[simp] theorem State.updSheet_slewRun (s : State) (t : Nat) (f : SheetX → SheetX) : (s.updSheet t f).slewRun = s.slewRun := rfl
@[simp] theorem State.updSheet_firstAt (s : State) (t : Nat) (f : SheetX → SheetX) : (s.updSheet t f).firstAt = s.firstAt := rfl
@[simp] theorem State.updSheet_mem (s : State) (t : Nat) (f : SheetX → SheetX) : (s.updSheet t f).mem = s.mem := rfl
@[simp] theorem State.updSheet_dieEpoch (s : State) (t : Nat) (f : SheetX → SheetX) : (s.updSheet t f).dieEpoch = s.dieEpoch := rfl
@[simp] theorem State.updSheet_dramEpoch (s : State) (t : Nat) (f : SheetX → SheetX) : (s.updSheet t f).dramEpoch = s.dramEpoch := rfl
@[simp] theorem State.updSheet_badAt (s : State) (t : Nat) (f : SheetX → SheetX) : (s.updSheet t f).badAt = s.badAt := rfl
@[simp] theorem State.updSheet_nvm (s : State) (t : Nat) (f : SheetX → SheetX) : (s.updSheet t f).nvm = s.nvm := rfl
@[simp] theorem State.updSheet_nvme (s : State) (t : Nat) (f : SheetX → SheetX) : (s.updSheet t f).nvme = s.nvme := rfl
@[simp] theorem State.updSheet_hostMem (s : State) (t : Nat) (f : SheetX → SheetX) : (s.updSheet t f).hostMem = s.hostMem := rfl
@[simp] theorem State.updSheet_aon (s : State) (t : Nat) (f : SheetX → SheetX) : (s.updSheet t f).aon = s.aon := rfl
@[simp] theorem State.updSheet_nowShadow (s : State) (t : Nat) (f : SheetX → SheetX) : (s.updSheet t f).nowShadow = s.nowShadow := rfl
@[simp] theorem State.updSheet_alarmArmed (s : State) (t : Nat) (f : SheetX → SheetX) : (s.updSheet t f).alarmArmed = s.alarmArmed := rfl
@[simp] theorem State.updSheet_bootClear (s : State) (t : Nat) (f : SheetX → SheetX) : (s.updSheet t f).bootClear = s.bootClear := rfl
@[simp] theorem State.updSheet_imageLoaded (s : State) (t : Nat) (f : SheetX → SheetX) : (s.updSheet t f).imageLoaded = s.imageLoaded := rfl
@[simp] theorem State.updSheet_released (s : State) (t : Nat) (f : SheetX → SheetX) : (s.updSheet t f).released = s.released := rfl
@[simp] theorem State.updSheet_faultWake (s : State) (t : Nat) (f : SheetX → SheetX) : (s.updSheet t f).faultWake = s.faultWake := rfl
@[simp] theorem State.updSheet_due (s : State) (t : Nat) (f : SheetX → SheetX) : (s.updSheet t f).due = s.due := rfl
@[simp] theorem State.updSheet_cores (s : State) (t : Nat) (f : SheetX → SheetX) : (s.updSheet t f).cores = s.cores := rfl
@[simp] theorem State.updSheet_pend (s : State) (t : Nat) (f : SheetX → SheetX) : (s.updSheet t f).pend = s.pend := rfl
@[simp] theorem State.updSheet_jrn (s : State) (t : Nat) (f : SheetX → SheetX) : (s.updSheet t f).jrn = s.jrn := rfl
@[simp] theorem State.updSheet_vsp (s : State) (t : Nat) (f : SheetX → SheetX) : (s.updSheet t f).vsp = s.vsp := rfl
@[simp] theorem State.updSheet_fin (s : State) (t : Nat) (f : SheetX → SheetX) : (s.updSheet t f).fin = s.fin := rfl
@[simp] theorem State.updSheet_fab (s : State) (t : Nat) (f : SheetX → SheetX) : (s.updSheet t f).fab = s.fab := rfl
@[simp] theorem State.updSheet_hst (s : State) (t : Nat) (f : SheetX → SheetX) : (s.updSheet t f).hst = s.hst := rfl
@[simp] theorem State.updSheet_pmx (s : State) (t : Nat) (f : SheetX → SheetX) : (s.updSheet t f).pmx = s.pmx := rfl
@[simp] theorem State.updSheet_plain (s : State) (t : Nat) (f : SheetX → SheetX) : (s.updSheet t f).plain = s.plain := rfl
@[simp] theorem State.updSheet_str (s : State) (t : Nat) (f : SheetX → SheetX) : (s.updSheet t f).str = s.str := rfl
@[simp] theorem State.updSheet_vale (s : State) (t : Nat) (f : SheetX → SheetX) : (s.updSheet t f).vale = s.vale := rfl
@[simp] theorem State.updSheet_mmq (s : State) (t : Nat) (f : SheetX → SheetX) : (s.updSheet t f).mmq = s.mmq := rfl
@[simp] theorem State.updSheet_btm (s : State) (t : Nat) (f : SheetX → SheetX) : (s.updSheet t f).btm = s.btm := rfl
@[simp] theorem State.updSheet_lsi (s : State) (t : Nat) (f : SheetX → SheetX) : (s.updSheet t f).lsi = s.lsi := rfl
@[simp] theorem State.updSheet_bmk (s : State) (t : Nat) (f : SheetX → SheetX) : (s.updSheet t f).bmk = s.bmk := rfl
@[simp] theorem State.updSheet_bld (s : State) (t : Nat) (f : SheetX → SheetX) : (s.updSheet t f).bld = s.bld := rfl
@[simp] theorem State.updSheet_stp (s : State) (t : Nat) (f : SheetX → SheetX) : (s.updSheet t f).stp = s.stp := rfl
@[simp] theorem State.updSheet_lanes (s : State) (t : Nat) (f : SheetX → SheetX) : (s.updSheet t f).lanes = s.lanes := rfl
@[simp] theorem State.updSheet_dma (s : State) (t : Nat) (f : SheetX → SheetX) : (s.updSheet t f).dma = s.dma := rfl
@[simp] theorem State.updSheet_dmaNext (s : State) (t : Nat) (f : SheetX → SheetX) : (s.updSheet t f).dmaNext = s.dmaNext := rfl
@[simp] theorem State.updSheet_pra (s : State) (t : Nat) (f : SheetX → SheetX) : (s.updSheet t f).pra = s.pra := rfl
@[simp] theorem State.updSheet_sense (s : State) (t : Nat) (f : SheetX → SheetX) : (s.updSheet t f).sense = s.sense := rfl
@[simp] theorem State.updSheet_pwr (s : State) (t : Nat) (f : SheetX → SheetX) : (s.updSheet t f).pwr = s.pwr := rfl
@[simp] theorem State.updSheet_thm (s : State) (t : Nat) (f : SheetX → SheetX) : (s.updSheet t f).thm = s.thm := rfl
@[simp] theorem State.updSheet_csm (s : State) (t : Nat) (f : SheetX → SheetX) : (s.updSheet t f).csm = s.csm := rfl
@[simp] theorem State.updSheet_xsp (s : State) (t : Nat) (f : SheetX → SheetX) : (s.updSheet t f).xsp = s.xsp := rfl
@[simp] theorem State.updSheet_pmc (s : State) (t : Nat) (f : SheetX → SheetX) : (s.updSheet t f).pmc = s.pmc := rfl
@[simp] theorem State.updSheet_mgt (s : State) (t : Nat) (f : SheetX → SheetX) : (s.updSheet t f).mgt = s.mgt := rfl
@[simp] theorem State.updSheet_pending (s : State) (t : Nat) (f : SheetX → SheetX) : (s.updSheet t f).pending = s.pending := rfl
@[simp] theorem State.updSheet_core (s : State) (t : Nat) (f : SheetX → SheetX) (m : Fin 12) : (s.updSheet t f).core m = s.core m := rfl
@[simp] theorem State.updSheet_getReg (s : State) (t : Nat) (f : SheetX → SheetX) (r : Nat) : (s.updSheet t f).getReg r = s.getReg r := rfl
@[simp] theorem State.updSheet_rd (s : State) (t : Nat) (f : SheetX → SheetX) (g : Fld) : (s.updSheet t f).rd g = s.rd g := rfl
@[simp] theorem State.updSheet_rdw (s : State) (t : Nat) (f : SheetX → SheetX) (r : Nat) : (s.updSheet t f).rdw r = s.rdw r := rfl
@[simp] theorem State.updSheet_readByte (s : State) (t : Nat) (f : SheetX → SheetX) (x : Nat) : (s.updSheet t f).readByte x = s.readByte x := rfl

@[simp] theorem State.updPage_regs (s : State) (n : Nat) (f : PageX → PageX) : (s.updPage n f).regs = s.regs := rfl
@[simp] theorem State.updPage_meridian (s : State) (n : Nat) (f : PageX → PageX) : (s.updPage n f).meridian = s.meridian := rfl
@[simp] theorem State.updPage_clock (s : State) (n : Nat) (f : PageX → PageX) : (s.updPage n f).clock = s.clock := rfl
@[simp] theorem State.updPage_lockAt (s : State) (n : Nat) (f : PageX → PageX) : (s.updPage n f).lockAt = s.lockAt := rfl
@[simp] theorem State.updPage_slewRun (s : State) (n : Nat) (f : PageX → PageX) : (s.updPage n f).slewRun = s.slewRun := rfl
@[simp] theorem State.updPage_firstAt (s : State) (n : Nat) (f : PageX → PageX) : (s.updPage n f).firstAt = s.firstAt := rfl
@[simp] theorem State.updPage_mem (s : State) (n : Nat) (f : PageX → PageX) : (s.updPage n f).mem = s.mem := rfl
@[simp] theorem State.updPage_dieEpoch (s : State) (n : Nat) (f : PageX → PageX) : (s.updPage n f).dieEpoch = s.dieEpoch := rfl
@[simp] theorem State.updPage_dramEpoch (s : State) (n : Nat) (f : PageX → PageX) : (s.updPage n f).dramEpoch = s.dramEpoch := rfl
@[simp] theorem State.updPage_badAt (s : State) (n : Nat) (f : PageX → PageX) : (s.updPage n f).badAt = s.badAt := rfl
@[simp] theorem State.updPage_nvm (s : State) (n : Nat) (f : PageX → PageX) : (s.updPage n f).nvm = s.nvm := rfl
@[simp] theorem State.updPage_nvme (s : State) (n : Nat) (f : PageX → PageX) : (s.updPage n f).nvme = s.nvme := rfl
@[simp] theorem State.updPage_hostMem (s : State) (n : Nat) (f : PageX → PageX) : (s.updPage n f).hostMem = s.hostMem := rfl
@[simp] theorem State.updPage_aon (s : State) (n : Nat) (f : PageX → PageX) : (s.updPage n f).aon = s.aon := rfl
@[simp] theorem State.updPage_nowShadow (s : State) (n : Nat) (f : PageX → PageX) : (s.updPage n f).nowShadow = s.nowShadow := rfl
@[simp] theorem State.updPage_alarmArmed (s : State) (n : Nat) (f : PageX → PageX) : (s.updPage n f).alarmArmed = s.alarmArmed := rfl
@[simp] theorem State.updPage_bootClear (s : State) (n : Nat) (f : PageX → PageX) : (s.updPage n f).bootClear = s.bootClear := rfl
@[simp] theorem State.updPage_imageLoaded (s : State) (n : Nat) (f : PageX → PageX) : (s.updPage n f).imageLoaded = s.imageLoaded := rfl
@[simp] theorem State.updPage_released (s : State) (n : Nat) (f : PageX → PageX) : (s.updPage n f).released = s.released := rfl
@[simp] theorem State.updPage_faultWake (s : State) (n : Nat) (f : PageX → PageX) : (s.updPage n f).faultWake = s.faultWake := rfl
@[simp] theorem State.updPage_due (s : State) (n : Nat) (f : PageX → PageX) : (s.updPage n f).due = s.due := rfl
@[simp] theorem State.updPage_cores (s : State) (n : Nat) (f : PageX → PageX) : (s.updPage n f).cores = s.cores := rfl
@[simp] theorem State.updPage_pend (s : State) (n : Nat) (f : PageX → PageX) : (s.updPage n f).pend = s.pend := rfl
@[simp] theorem State.updPage_jrn (s : State) (n : Nat) (f : PageX → PageX) : (s.updPage n f).jrn = s.jrn := rfl
@[simp] theorem State.updPage_vsp (s : State) (n : Nat) (f : PageX → PageX) : (s.updPage n f).vsp = s.vsp := rfl
@[simp] theorem State.updPage_fin (s : State) (n : Nat) (f : PageX → PageX) : (s.updPage n f).fin = s.fin := rfl
@[simp] theorem State.updPage_fab (s : State) (n : Nat) (f : PageX → PageX) : (s.updPage n f).fab = s.fab := rfl
@[simp] theorem State.updPage_hst (s : State) (n : Nat) (f : PageX → PageX) : (s.updPage n f).hst = s.hst := rfl
@[simp] theorem State.updPage_pmx (s : State) (n : Nat) (f : PageX → PageX) : (s.updPage n f).pmx = s.pmx := rfl
@[simp] theorem State.updPage_plain (s : State) (n : Nat) (f : PageX → PageX) : (s.updPage n f).plain = s.plain := rfl
@[simp] theorem State.updPage_str (s : State) (n : Nat) (f : PageX → PageX) : (s.updPage n f).str = s.str := rfl
@[simp] theorem State.updPage_vale (s : State) (n : Nat) (f : PageX → PageX) : (s.updPage n f).vale = s.vale := rfl
@[simp] theorem State.updPage_mmq (s : State) (n : Nat) (f : PageX → PageX) : (s.updPage n f).mmq = s.mmq := rfl
@[simp] theorem State.updPage_btm (s : State) (n : Nat) (f : PageX → PageX) : (s.updPage n f).btm = s.btm := rfl
@[simp] theorem State.updPage_lsi (s : State) (n : Nat) (f : PageX → PageX) : (s.updPage n f).lsi = s.lsi := rfl
@[simp] theorem State.updPage_bmk (s : State) (n : Nat) (f : PageX → PageX) : (s.updPage n f).bmk = s.bmk := rfl
@[simp] theorem State.updPage_bld (s : State) (n : Nat) (f : PageX → PageX) : (s.updPage n f).bld = s.bld := rfl
@[simp] theorem State.updPage_stp (s : State) (n : Nat) (f : PageX → PageX) : (s.updPage n f).stp = s.stp := rfl
@[simp] theorem State.updPage_lanes (s : State) (n : Nat) (f : PageX → PageX) : (s.updPage n f).lanes = s.lanes := rfl
@[simp] theorem State.updPage_dma (s : State) (n : Nat) (f : PageX → PageX) : (s.updPage n f).dma = s.dma := rfl
@[simp] theorem State.updPage_dmaNext (s : State) (n : Nat) (f : PageX → PageX) : (s.updPage n f).dmaNext = s.dmaNext := rfl
@[simp] theorem State.updPage_pra (s : State) (n : Nat) (f : PageX → PageX) : (s.updPage n f).pra = s.pra := rfl
@[simp] theorem State.updPage_sense (s : State) (n : Nat) (f : PageX → PageX) : (s.updPage n f).sense = s.sense := rfl
@[simp] theorem State.updPage_pwr (s : State) (n : Nat) (f : PageX → PageX) : (s.updPage n f).pwr = s.pwr := rfl
@[simp] theorem State.updPage_thm (s : State) (n : Nat) (f : PageX → PageX) : (s.updPage n f).thm = s.thm := rfl
@[simp] theorem State.updPage_csm (s : State) (n : Nat) (f : PageX → PageX) : (s.updPage n f).csm = s.csm := rfl
@[simp] theorem State.updPage_xsp (s : State) (n : Nat) (f : PageX → PageX) : (s.updPage n f).xsp = s.xsp := rfl
@[simp] theorem State.updPage_pmc (s : State) (n : Nat) (f : PageX → PageX) : (s.updPage n f).pmc = s.pmc := rfl
@[simp] theorem State.updPage_mgt (s : State) (n : Nat) (f : PageX → PageX) : (s.updPage n f).mgt = s.mgt := rfl
@[simp] theorem State.updPage_pending (s : State) (n : Nat) (f : PageX → PageX) : (s.updPage n f).pending = s.pending := rfl
@[simp] theorem State.updPage_core (s : State) (n : Nat) (f : PageX → PageX) (m : Fin 12) : (s.updPage n f).core m = s.core m := rfl
@[simp] theorem State.updPage_getReg (s : State) (n : Nat) (f : PageX → PageX) (r : Nat) : (s.updPage n f).getReg r = s.getReg r := rfl
@[simp] theorem State.updPage_rd (s : State) (n : Nat) (f : PageX → PageX) (g : Fld) : (s.updPage n f).rd g = s.rd g := rfl
@[simp] theorem State.updPage_rdw (s : State) (n : Nat) (f : PageX → PageX) (r : Nat) : (s.updPage n f).rdw r = s.rdw r := rfl
@[simp] theorem State.updPage_readByte (s : State) (n : Nat) (f : PageX → PageX) (x : Nat) : (s.updPage n f).readByte x = s.readByte x := rfl

@[simp] theorem State.updStr_regs (s : State) (k : Nat) (f : StrX → StrX) : (s.updStr k f).regs = s.regs := rfl
@[simp] theorem State.updStr_meridian (s : State) (k : Nat) (f : StrX → StrX) : (s.updStr k f).meridian = s.meridian := rfl
@[simp] theorem State.updStr_clock (s : State) (k : Nat) (f : StrX → StrX) : (s.updStr k f).clock = s.clock := rfl
@[simp] theorem State.updStr_lockAt (s : State) (k : Nat) (f : StrX → StrX) : (s.updStr k f).lockAt = s.lockAt := rfl
@[simp] theorem State.updStr_slewRun (s : State) (k : Nat) (f : StrX → StrX) : (s.updStr k f).slewRun = s.slewRun := rfl
@[simp] theorem State.updStr_firstAt (s : State) (k : Nat) (f : StrX → StrX) : (s.updStr k f).firstAt = s.firstAt := rfl
@[simp] theorem State.updStr_mem (s : State) (k : Nat) (f : StrX → StrX) : (s.updStr k f).mem = s.mem := rfl
@[simp] theorem State.updStr_dieEpoch (s : State) (k : Nat) (f : StrX → StrX) : (s.updStr k f).dieEpoch = s.dieEpoch := rfl
@[simp] theorem State.updStr_dramEpoch (s : State) (k : Nat) (f : StrX → StrX) : (s.updStr k f).dramEpoch = s.dramEpoch := rfl
@[simp] theorem State.updStr_badAt (s : State) (k : Nat) (f : StrX → StrX) : (s.updStr k f).badAt = s.badAt := rfl
@[simp] theorem State.updStr_nvm (s : State) (k : Nat) (f : StrX → StrX) : (s.updStr k f).nvm = s.nvm := rfl
@[simp] theorem State.updStr_nvme (s : State) (k : Nat) (f : StrX → StrX) : (s.updStr k f).nvme = s.nvme := rfl
@[simp] theorem State.updStr_hostMem (s : State) (k : Nat) (f : StrX → StrX) : (s.updStr k f).hostMem = s.hostMem := rfl
@[simp] theorem State.updStr_aon (s : State) (k : Nat) (f : StrX → StrX) : (s.updStr k f).aon = s.aon := rfl
@[simp] theorem State.updStr_nowShadow (s : State) (k : Nat) (f : StrX → StrX) : (s.updStr k f).nowShadow = s.nowShadow := rfl
@[simp] theorem State.updStr_alarmArmed (s : State) (k : Nat) (f : StrX → StrX) : (s.updStr k f).alarmArmed = s.alarmArmed := rfl
@[simp] theorem State.updStr_bootClear (s : State) (k : Nat) (f : StrX → StrX) : (s.updStr k f).bootClear = s.bootClear := rfl
@[simp] theorem State.updStr_imageLoaded (s : State) (k : Nat) (f : StrX → StrX) : (s.updStr k f).imageLoaded = s.imageLoaded := rfl
@[simp] theorem State.updStr_released (s : State) (k : Nat) (f : StrX → StrX) : (s.updStr k f).released = s.released := rfl
@[simp] theorem State.updStr_faultWake (s : State) (k : Nat) (f : StrX → StrX) : (s.updStr k f).faultWake = s.faultWake := rfl
@[simp] theorem State.updStr_due (s : State) (k : Nat) (f : StrX → StrX) : (s.updStr k f).due = s.due := rfl
@[simp] theorem State.updStr_cores (s : State) (k : Nat) (f : StrX → StrX) : (s.updStr k f).cores = s.cores := rfl
@[simp] theorem State.updStr_pend (s : State) (k : Nat) (f : StrX → StrX) : (s.updStr k f).pend = s.pend := rfl
@[simp] theorem State.updStr_psq (s : State) (k : Nat) (f : StrX → StrX) : (s.updStr k f).psq = s.psq := rfl
@[simp] theorem State.updStr_jrn (s : State) (k : Nat) (f : StrX → StrX) : (s.updStr k f).jrn = s.jrn := rfl
@[simp] theorem State.updStr_vsp (s : State) (k : Nat) (f : StrX → StrX) : (s.updStr k f).vsp = s.vsp := rfl
@[simp] theorem State.updStr_fin (s : State) (k : Nat) (f : StrX → StrX) : (s.updStr k f).fin = s.fin := rfl
@[simp] theorem State.updStr_fab (s : State) (k : Nat) (f : StrX → StrX) : (s.updStr k f).fab = s.fab := rfl
@[simp] theorem State.updStr_hst (s : State) (k : Nat) (f : StrX → StrX) : (s.updStr k f).hst = s.hst := rfl
@[simp] theorem State.updStr_pmx (s : State) (k : Nat) (f : StrX → StrX) : (s.updStr k f).pmx = s.pmx := rfl
@[simp] theorem State.updStr_plain (s : State) (k : Nat) (f : StrX → StrX) : (s.updStr k f).plain = s.plain := rfl
@[simp] theorem State.updStr_vale (s : State) (k : Nat) (f : StrX → StrX) : (s.updStr k f).vale = s.vale := rfl
@[simp] theorem State.updStr_mmq (s : State) (k : Nat) (f : StrX → StrX) : (s.updStr k f).mmq = s.mmq := rfl
@[simp] theorem State.updStr_btm (s : State) (k : Nat) (f : StrX → StrX) : (s.updStr k f).btm = s.btm := rfl
@[simp] theorem State.updStr_lsi (s : State) (k : Nat) (f : StrX → StrX) : (s.updStr k f).lsi = s.lsi := rfl
@[simp] theorem State.updStr_bmk (s : State) (k : Nat) (f : StrX → StrX) : (s.updStr k f).bmk = s.bmk := rfl
@[simp] theorem State.updStr_bld (s : State) (k : Nat) (f : StrX → StrX) : (s.updStr k f).bld = s.bld := rfl
@[simp] theorem State.updStr_stp (s : State) (k : Nat) (f : StrX → StrX) : (s.updStr k f).stp = s.stp := rfl
@[simp] theorem State.updStr_lanes (s : State) (k : Nat) (f : StrX → StrX) : (s.updStr k f).lanes = s.lanes := rfl
@[simp] theorem State.updStr_dma (s : State) (k : Nat) (f : StrX → StrX) : (s.updStr k f).dma = s.dma := rfl
@[simp] theorem State.updStr_dmaNext (s : State) (k : Nat) (f : StrX → StrX) : (s.updStr k f).dmaNext = s.dmaNext := rfl
@[simp] theorem State.updStr_pra (s : State) (k : Nat) (f : StrX → StrX) : (s.updStr k f).pra = s.pra := rfl
@[simp] theorem State.updStr_sense (s : State) (k : Nat) (f : StrX → StrX) : (s.updStr k f).sense = s.sense := rfl
@[simp] theorem State.updStr_pwr (s : State) (k : Nat) (f : StrX → StrX) : (s.updStr k f).pwr = s.pwr := rfl
@[simp] theorem State.updStr_thm (s : State) (k : Nat) (f : StrX → StrX) : (s.updStr k f).thm = s.thm := rfl
@[simp] theorem State.updStr_csm (s : State) (k : Nat) (f : StrX → StrX) : (s.updStr k f).csm = s.csm := rfl
@[simp] theorem State.updStr_xsp (s : State) (k : Nat) (f : StrX → StrX) : (s.updStr k f).xsp = s.xsp := rfl
@[simp] theorem State.updStr_pmc (s : State) (k : Nat) (f : StrX → StrX) : (s.updStr k f).pmc = s.pmc := rfl
@[simp] theorem State.updStr_mgt (s : State) (k : Nat) (f : StrX → StrX) : (s.updStr k f).mgt = s.mgt := rfl
@[simp] theorem State.updStr_pending (s : State) (k : Nat) (f : StrX → StrX) : (s.updStr k f).pending = s.pending := rfl
@[simp] theorem State.updStr_core (s : State) (k : Nat) (f : StrX → StrX) (m : Fin 12) : (s.updStr k f).core m = s.core m := rfl
@[simp] theorem State.updStr_getReg (s : State) (k : Nat) (f : StrX → StrX) (r : Nat) : (s.updStr k f).getReg r = s.getReg r := rfl
@[simp] theorem State.updStr_rd (s : State) (k : Nat) (f : StrX → StrX) (g : Fld) : (s.updStr k f).rd g = s.rd g := rfl
@[simp] theorem State.updStr_rdw (s : State) (k : Nat) (f : StrX → StrX) (r : Nat) : (s.updStr k f).rdw r = s.rdw r := rfl
@[simp] theorem State.updStr_readByte (s : State) (k : Nat) (f : StrX → StrX) (x : Nat) : (s.updStr k f).readByte x = s.readByte x := rfl

@[simp] theorem State.updBtm_regs (s : State) (k : Nat) (f : BtmX → BtmX) : (s.updBtm k f).regs = s.regs := rfl
@[simp] theorem State.updBtm_meridian (s : State) (k : Nat) (f : BtmX → BtmX) : (s.updBtm k f).meridian = s.meridian := rfl
@[simp] theorem State.updBtm_clock (s : State) (k : Nat) (f : BtmX → BtmX) : (s.updBtm k f).clock = s.clock := rfl
@[simp] theorem State.updBtm_lockAt (s : State) (k : Nat) (f : BtmX → BtmX) : (s.updBtm k f).lockAt = s.lockAt := rfl
@[simp] theorem State.updBtm_slewRun (s : State) (k : Nat) (f : BtmX → BtmX) : (s.updBtm k f).slewRun = s.slewRun := rfl
@[simp] theorem State.updBtm_firstAt (s : State) (k : Nat) (f : BtmX → BtmX) : (s.updBtm k f).firstAt = s.firstAt := rfl
@[simp] theorem State.updBtm_mem (s : State) (k : Nat) (f : BtmX → BtmX) : (s.updBtm k f).mem = s.mem := rfl
@[simp] theorem State.updBtm_dieEpoch (s : State) (k : Nat) (f : BtmX → BtmX) : (s.updBtm k f).dieEpoch = s.dieEpoch := rfl
@[simp] theorem State.updBtm_dramEpoch (s : State) (k : Nat) (f : BtmX → BtmX) : (s.updBtm k f).dramEpoch = s.dramEpoch := rfl
@[simp] theorem State.updBtm_badAt (s : State) (k : Nat) (f : BtmX → BtmX) : (s.updBtm k f).badAt = s.badAt := rfl
@[simp] theorem State.updBtm_nvm (s : State) (k : Nat) (f : BtmX → BtmX) : (s.updBtm k f).nvm = s.nvm := rfl
@[simp] theorem State.updBtm_nvme (s : State) (k : Nat) (f : BtmX → BtmX) : (s.updBtm k f).nvme = s.nvme := rfl
@[simp] theorem State.updBtm_hostMem (s : State) (k : Nat) (f : BtmX → BtmX) : (s.updBtm k f).hostMem = s.hostMem := rfl
@[simp] theorem State.updBtm_aon (s : State) (k : Nat) (f : BtmX → BtmX) : (s.updBtm k f).aon = s.aon := rfl
@[simp] theorem State.updBtm_nowShadow (s : State) (k : Nat) (f : BtmX → BtmX) : (s.updBtm k f).nowShadow = s.nowShadow := rfl
@[simp] theorem State.updBtm_alarmArmed (s : State) (k : Nat) (f : BtmX → BtmX) : (s.updBtm k f).alarmArmed = s.alarmArmed := rfl
@[simp] theorem State.updBtm_bootClear (s : State) (k : Nat) (f : BtmX → BtmX) : (s.updBtm k f).bootClear = s.bootClear := rfl
@[simp] theorem State.updBtm_imageLoaded (s : State) (k : Nat) (f : BtmX → BtmX) : (s.updBtm k f).imageLoaded = s.imageLoaded := rfl
@[simp] theorem State.updBtm_released (s : State) (k : Nat) (f : BtmX → BtmX) : (s.updBtm k f).released = s.released := rfl
@[simp] theorem State.updBtm_faultWake (s : State) (k : Nat) (f : BtmX → BtmX) : (s.updBtm k f).faultWake = s.faultWake := rfl
@[simp] theorem State.updBtm_due (s : State) (k : Nat) (f : BtmX → BtmX) : (s.updBtm k f).due = s.due := rfl
@[simp] theorem State.updBtm_cores (s : State) (k : Nat) (f : BtmX → BtmX) : (s.updBtm k f).cores = s.cores := rfl
@[simp] theorem State.updBtm_pend (s : State) (k : Nat) (f : BtmX → BtmX) : (s.updBtm k f).pend = s.pend := rfl
@[simp] theorem State.updBtm_psq (s : State) (k : Nat) (f : BtmX → BtmX) : (s.updBtm k f).psq = s.psq := rfl
@[simp] theorem State.updBtm_jrn (s : State) (k : Nat) (f : BtmX → BtmX) : (s.updBtm k f).jrn = s.jrn := rfl
@[simp] theorem State.updBtm_vsp (s : State) (k : Nat) (f : BtmX → BtmX) : (s.updBtm k f).vsp = s.vsp := rfl
@[simp] theorem State.updBtm_fin (s : State) (k : Nat) (f : BtmX → BtmX) : (s.updBtm k f).fin = s.fin := rfl
@[simp] theorem State.updBtm_fab (s : State) (k : Nat) (f : BtmX → BtmX) : (s.updBtm k f).fab = s.fab := rfl
@[simp] theorem State.updBtm_hst (s : State) (k : Nat) (f : BtmX → BtmX) : (s.updBtm k f).hst = s.hst := rfl
@[simp] theorem State.updBtm_pmx (s : State) (k : Nat) (f : BtmX → BtmX) : (s.updBtm k f).pmx = s.pmx := rfl
@[simp] theorem State.updBtm_plain (s : State) (k : Nat) (f : BtmX → BtmX) : (s.updBtm k f).plain = s.plain := rfl
@[simp] theorem State.updBtm_str (s : State) (k : Nat) (f : BtmX → BtmX) : (s.updBtm k f).str = s.str := rfl
@[simp] theorem State.updBtm_vale (s : State) (k : Nat) (f : BtmX → BtmX) : (s.updBtm k f).vale = s.vale := rfl
@[simp] theorem State.updBtm_mmq (s : State) (k : Nat) (f : BtmX → BtmX) : (s.updBtm k f).mmq = s.mmq := rfl
@[simp] theorem State.updBtm_lsi (s : State) (k : Nat) (f : BtmX → BtmX) : (s.updBtm k f).lsi = s.lsi := rfl
@[simp] theorem State.updBtm_bmk (s : State) (k : Nat) (f : BtmX → BtmX) : (s.updBtm k f).bmk = s.bmk := rfl
@[simp] theorem State.updBtm_bld (s : State) (k : Nat) (f : BtmX → BtmX) : (s.updBtm k f).bld = s.bld := rfl
@[simp] theorem State.updBtm_stp (s : State) (k : Nat) (f : BtmX → BtmX) : (s.updBtm k f).stp = s.stp := rfl
@[simp] theorem State.updBtm_lanes (s : State) (k : Nat) (f : BtmX → BtmX) : (s.updBtm k f).lanes = s.lanes := rfl
@[simp] theorem State.updBtm_dma (s : State) (k : Nat) (f : BtmX → BtmX) : (s.updBtm k f).dma = s.dma := rfl
@[simp] theorem State.updBtm_dmaNext (s : State) (k : Nat) (f : BtmX → BtmX) : (s.updBtm k f).dmaNext = s.dmaNext := rfl
@[simp] theorem State.updBtm_pra (s : State) (k : Nat) (f : BtmX → BtmX) : (s.updBtm k f).pra = s.pra := rfl
@[simp] theorem State.updBtm_sense (s : State) (k : Nat) (f : BtmX → BtmX) : (s.updBtm k f).sense = s.sense := rfl
@[simp] theorem State.updBtm_pwr (s : State) (k : Nat) (f : BtmX → BtmX) : (s.updBtm k f).pwr = s.pwr := rfl
@[simp] theorem State.updBtm_thm (s : State) (k : Nat) (f : BtmX → BtmX) : (s.updBtm k f).thm = s.thm := rfl
@[simp] theorem State.updBtm_csm (s : State) (k : Nat) (f : BtmX → BtmX) : (s.updBtm k f).csm = s.csm := rfl
@[simp] theorem State.updBtm_xsp (s : State) (k : Nat) (f : BtmX → BtmX) : (s.updBtm k f).xsp = s.xsp := rfl
@[simp] theorem State.updBtm_pmc (s : State) (k : Nat) (f : BtmX → BtmX) : (s.updBtm k f).pmc = s.pmc := rfl
@[simp] theorem State.updBtm_mgt (s : State) (k : Nat) (f : BtmX → BtmX) : (s.updBtm k f).mgt = s.mgt := rfl
@[simp] theorem State.updBtm_pending (s : State) (k : Nat) (f : BtmX → BtmX) : (s.updBtm k f).pending = s.pending := rfl
@[simp] theorem State.updBtm_core (s : State) (k : Nat) (f : BtmX → BtmX) (m : Fin 12) : (s.updBtm k f).core m = s.core m := rfl
@[simp] theorem State.updBtm_getReg (s : State) (k : Nat) (f : BtmX → BtmX) (r : Nat) : (s.updBtm k f).getReg r = s.getReg r := rfl
@[simp] theorem State.updBtm_rd (s : State) (k : Nat) (f : BtmX → BtmX) (g : Fld) : (s.updBtm k f).rd g = s.rd g := rfl
@[simp] theorem State.updBtm_rdw (s : State) (k : Nat) (f : BtmX → BtmX) (r : Nat) : (s.updBtm k f).rdw r = s.rdw r := rfl
@[simp] theorem State.updBtm_readByte (s : State) (k : Nat) (f : BtmX → BtmX) (x : Nat) : (s.updBtm k f).readByte x = s.readByte x := rfl

@[simp] theorem State.updBmk_regs (s : State) (k : Nat) (f : BmkX → BmkX) : (s.updBmk k f).regs = s.regs := rfl
@[simp] theorem State.updBmk_meridian (s : State) (k : Nat) (f : BmkX → BmkX) : (s.updBmk k f).meridian = s.meridian := rfl
@[simp] theorem State.updBmk_clock (s : State) (k : Nat) (f : BmkX → BmkX) : (s.updBmk k f).clock = s.clock := rfl
@[simp] theorem State.updBmk_lockAt (s : State) (k : Nat) (f : BmkX → BmkX) : (s.updBmk k f).lockAt = s.lockAt := rfl
@[simp] theorem State.updBmk_slewRun (s : State) (k : Nat) (f : BmkX → BmkX) : (s.updBmk k f).slewRun = s.slewRun := rfl
@[simp] theorem State.updBmk_firstAt (s : State) (k : Nat) (f : BmkX → BmkX) : (s.updBmk k f).firstAt = s.firstAt := rfl
@[simp] theorem State.updBmk_mem (s : State) (k : Nat) (f : BmkX → BmkX) : (s.updBmk k f).mem = s.mem := rfl
@[simp] theorem State.updBmk_dieEpoch (s : State) (k : Nat) (f : BmkX → BmkX) : (s.updBmk k f).dieEpoch = s.dieEpoch := rfl
@[simp] theorem State.updBmk_dramEpoch (s : State) (k : Nat) (f : BmkX → BmkX) : (s.updBmk k f).dramEpoch = s.dramEpoch := rfl
@[simp] theorem State.updBmk_badAt (s : State) (k : Nat) (f : BmkX → BmkX) : (s.updBmk k f).badAt = s.badAt := rfl
@[simp] theorem State.updBmk_nvm (s : State) (k : Nat) (f : BmkX → BmkX) : (s.updBmk k f).nvm = s.nvm := rfl
@[simp] theorem State.updBmk_nvme (s : State) (k : Nat) (f : BmkX → BmkX) : (s.updBmk k f).nvme = s.nvme := rfl
@[simp] theorem State.updBmk_hostMem (s : State) (k : Nat) (f : BmkX → BmkX) : (s.updBmk k f).hostMem = s.hostMem := rfl
@[simp] theorem State.updBmk_aon (s : State) (k : Nat) (f : BmkX → BmkX) : (s.updBmk k f).aon = s.aon := rfl
@[simp] theorem State.updBmk_nowShadow (s : State) (k : Nat) (f : BmkX → BmkX) : (s.updBmk k f).nowShadow = s.nowShadow := rfl
@[simp] theorem State.updBmk_alarmArmed (s : State) (k : Nat) (f : BmkX → BmkX) : (s.updBmk k f).alarmArmed = s.alarmArmed := rfl
@[simp] theorem State.updBmk_bootClear (s : State) (k : Nat) (f : BmkX → BmkX) : (s.updBmk k f).bootClear = s.bootClear := rfl
@[simp] theorem State.updBmk_imageLoaded (s : State) (k : Nat) (f : BmkX → BmkX) : (s.updBmk k f).imageLoaded = s.imageLoaded := rfl
@[simp] theorem State.updBmk_released (s : State) (k : Nat) (f : BmkX → BmkX) : (s.updBmk k f).released = s.released := rfl
@[simp] theorem State.updBmk_faultWake (s : State) (k : Nat) (f : BmkX → BmkX) : (s.updBmk k f).faultWake = s.faultWake := rfl
@[simp] theorem State.updBmk_due (s : State) (k : Nat) (f : BmkX → BmkX) : (s.updBmk k f).due = s.due := rfl
@[simp] theorem State.updBmk_cores (s : State) (k : Nat) (f : BmkX → BmkX) : (s.updBmk k f).cores = s.cores := rfl
@[simp] theorem State.updBmk_pend (s : State) (k : Nat) (f : BmkX → BmkX) : (s.updBmk k f).pend = s.pend := rfl
@[simp] theorem State.updBmk_psq (s : State) (k : Nat) (f : BmkX → BmkX) : (s.updBmk k f).psq = s.psq := rfl
@[simp] theorem State.updBmk_jrn (s : State) (k : Nat) (f : BmkX → BmkX) : (s.updBmk k f).jrn = s.jrn := rfl
@[simp] theorem State.updBmk_vsp (s : State) (k : Nat) (f : BmkX → BmkX) : (s.updBmk k f).vsp = s.vsp := rfl
@[simp] theorem State.updBmk_fin (s : State) (k : Nat) (f : BmkX → BmkX) : (s.updBmk k f).fin = s.fin := rfl
@[simp] theorem State.updBmk_fab (s : State) (k : Nat) (f : BmkX → BmkX) : (s.updBmk k f).fab = s.fab := rfl
@[simp] theorem State.updBmk_hst (s : State) (k : Nat) (f : BmkX → BmkX) : (s.updBmk k f).hst = s.hst := rfl
@[simp] theorem State.updBmk_pmx (s : State) (k : Nat) (f : BmkX → BmkX) : (s.updBmk k f).pmx = s.pmx := rfl
@[simp] theorem State.updBmk_plain (s : State) (k : Nat) (f : BmkX → BmkX) : (s.updBmk k f).plain = s.plain := rfl
@[simp] theorem State.updBmk_str (s : State) (k : Nat) (f : BmkX → BmkX) : (s.updBmk k f).str = s.str := rfl
@[simp] theorem State.updBmk_vale (s : State) (k : Nat) (f : BmkX → BmkX) : (s.updBmk k f).vale = s.vale := rfl
@[simp] theorem State.updBmk_mmq (s : State) (k : Nat) (f : BmkX → BmkX) : (s.updBmk k f).mmq = s.mmq := rfl
@[simp] theorem State.updBmk_btm (s : State) (k : Nat) (f : BmkX → BmkX) : (s.updBmk k f).btm = s.btm := rfl
@[simp] theorem State.updBmk_lsi (s : State) (k : Nat) (f : BmkX → BmkX) : (s.updBmk k f).lsi = s.lsi := rfl
@[simp] theorem State.updBmk_bld (s : State) (k : Nat) (f : BmkX → BmkX) : (s.updBmk k f).bld = s.bld := rfl
@[simp] theorem State.updBmk_stp (s : State) (k : Nat) (f : BmkX → BmkX) : (s.updBmk k f).stp = s.stp := rfl
@[simp] theorem State.updBmk_lanes (s : State) (k : Nat) (f : BmkX → BmkX) : (s.updBmk k f).lanes = s.lanes := rfl
@[simp] theorem State.updBmk_dma (s : State) (k : Nat) (f : BmkX → BmkX) : (s.updBmk k f).dma = s.dma := rfl
@[simp] theorem State.updBmk_dmaNext (s : State) (k : Nat) (f : BmkX → BmkX) : (s.updBmk k f).dmaNext = s.dmaNext := rfl
@[simp] theorem State.updBmk_pra (s : State) (k : Nat) (f : BmkX → BmkX) : (s.updBmk k f).pra = s.pra := rfl
@[simp] theorem State.updBmk_sense (s : State) (k : Nat) (f : BmkX → BmkX) : (s.updBmk k f).sense = s.sense := rfl
@[simp] theorem State.updBmk_pwr (s : State) (k : Nat) (f : BmkX → BmkX) : (s.updBmk k f).pwr = s.pwr := rfl
@[simp] theorem State.updBmk_thm (s : State) (k : Nat) (f : BmkX → BmkX) : (s.updBmk k f).thm = s.thm := rfl
@[simp] theorem State.updBmk_csm (s : State) (k : Nat) (f : BmkX → BmkX) : (s.updBmk k f).csm = s.csm := rfl
@[simp] theorem State.updBmk_xsp (s : State) (k : Nat) (f : BmkX → BmkX) : (s.updBmk k f).xsp = s.xsp := rfl
@[simp] theorem State.updBmk_pmc (s : State) (k : Nat) (f : BmkX → BmkX) : (s.updBmk k f).pmc = s.pmc := rfl
@[simp] theorem State.updBmk_mgt (s : State) (k : Nat) (f : BmkX → BmkX) : (s.updBmk k f).mgt = s.mgt := rfl
@[simp] theorem State.updBmk_pending (s : State) (k : Nat) (f : BmkX → BmkX) : (s.updBmk k f).pending = s.pending := rfl
@[simp] theorem State.updBmk_core (s : State) (k : Nat) (f : BmkX → BmkX) (m : Fin 12) : (s.updBmk k f).core m = s.core m := rfl
@[simp] theorem State.updBmk_getReg (s : State) (k : Nat) (f : BmkX → BmkX) (r : Nat) : (s.updBmk k f).getReg r = s.getReg r := rfl
@[simp] theorem State.updBmk_rd (s : State) (k : Nat) (f : BmkX → BmkX) (g : Fld) : (s.updBmk k f).rd g = s.rd g := rfl
@[simp] theorem State.updBmk_rdw (s : State) (k : Nat) (f : BmkX → BmkX) (r : Nat) : (s.updBmk k f).rdw r = s.rdw r := rfl
@[simp] theorem State.updBmk_readByte (s : State) (k : Nat) (f : BmkX → BmkX) (x : Nat) : (s.updBmk k f).readByte x = s.readByte x := rfl

@[simp] theorem State.updBld_regs (s : State) (n : Nat) (f : BldX → BldX) : (s.updBld n f).regs = s.regs := rfl
@[simp] theorem State.updBld_meridian (s : State) (n : Nat) (f : BldX → BldX) : (s.updBld n f).meridian = s.meridian := rfl
@[simp] theorem State.updBld_clock (s : State) (n : Nat) (f : BldX → BldX) : (s.updBld n f).clock = s.clock := rfl
@[simp] theorem State.updBld_lockAt (s : State) (n : Nat) (f : BldX → BldX) : (s.updBld n f).lockAt = s.lockAt := rfl
@[simp] theorem State.updBld_slewRun (s : State) (n : Nat) (f : BldX → BldX) : (s.updBld n f).slewRun = s.slewRun := rfl
@[simp] theorem State.updBld_firstAt (s : State) (n : Nat) (f : BldX → BldX) : (s.updBld n f).firstAt = s.firstAt := rfl
@[simp] theorem State.updBld_mem (s : State) (n : Nat) (f : BldX → BldX) : (s.updBld n f).mem = s.mem := rfl
@[simp] theorem State.updBld_dieEpoch (s : State) (n : Nat) (f : BldX → BldX) : (s.updBld n f).dieEpoch = s.dieEpoch := rfl
@[simp] theorem State.updBld_dramEpoch (s : State) (n : Nat) (f : BldX → BldX) : (s.updBld n f).dramEpoch = s.dramEpoch := rfl
@[simp] theorem State.updBld_badAt (s : State) (n : Nat) (f : BldX → BldX) : (s.updBld n f).badAt = s.badAt := rfl
@[simp] theorem State.updBld_nvm (s : State) (n : Nat) (f : BldX → BldX) : (s.updBld n f).nvm = s.nvm := rfl
@[simp] theorem State.updBld_nvme (s : State) (n : Nat) (f : BldX → BldX) : (s.updBld n f).nvme = s.nvme := rfl
@[simp] theorem State.updBld_hostMem (s : State) (n : Nat) (f : BldX → BldX) : (s.updBld n f).hostMem = s.hostMem := rfl
@[simp] theorem State.updBld_aon (s : State) (n : Nat) (f : BldX → BldX) : (s.updBld n f).aon = s.aon := rfl
@[simp] theorem State.updBld_nowShadow (s : State) (n : Nat) (f : BldX → BldX) : (s.updBld n f).nowShadow = s.nowShadow := rfl
@[simp] theorem State.updBld_alarmArmed (s : State) (n : Nat) (f : BldX → BldX) : (s.updBld n f).alarmArmed = s.alarmArmed := rfl
@[simp] theorem State.updBld_bootClear (s : State) (n : Nat) (f : BldX → BldX) : (s.updBld n f).bootClear = s.bootClear := rfl
@[simp] theorem State.updBld_imageLoaded (s : State) (n : Nat) (f : BldX → BldX) : (s.updBld n f).imageLoaded = s.imageLoaded := rfl
@[simp] theorem State.updBld_released (s : State) (n : Nat) (f : BldX → BldX) : (s.updBld n f).released = s.released := rfl
@[simp] theorem State.updBld_faultWake (s : State) (n : Nat) (f : BldX → BldX) : (s.updBld n f).faultWake = s.faultWake := rfl
@[simp] theorem State.updBld_due (s : State) (n : Nat) (f : BldX → BldX) : (s.updBld n f).due = s.due := rfl
@[simp] theorem State.updBld_cores (s : State) (n : Nat) (f : BldX → BldX) : (s.updBld n f).cores = s.cores := rfl
@[simp] theorem State.updBld_pend (s : State) (n : Nat) (f : BldX → BldX) : (s.updBld n f).pend = s.pend := rfl
@[simp] theorem State.updBld_psq (s : State) (n : Nat) (f : BldX → BldX) : (s.updBld n f).psq = s.psq := rfl
@[simp] theorem State.updBld_jrn (s : State) (n : Nat) (f : BldX → BldX) : (s.updBld n f).jrn = s.jrn := rfl
@[simp] theorem State.updBld_vsp (s : State) (n : Nat) (f : BldX → BldX) : (s.updBld n f).vsp = s.vsp := rfl
@[simp] theorem State.updBld_fin (s : State) (n : Nat) (f : BldX → BldX) : (s.updBld n f).fin = s.fin := rfl
@[simp] theorem State.updBld_fab (s : State) (n : Nat) (f : BldX → BldX) : (s.updBld n f).fab = s.fab := rfl
@[simp] theorem State.updBld_hst (s : State) (n : Nat) (f : BldX → BldX) : (s.updBld n f).hst = s.hst := rfl
@[simp] theorem State.updBld_pmx (s : State) (n : Nat) (f : BldX → BldX) : (s.updBld n f).pmx = s.pmx := rfl
@[simp] theorem State.updBld_plain (s : State) (n : Nat) (f : BldX → BldX) : (s.updBld n f).plain = s.plain := rfl
@[simp] theorem State.updBld_str (s : State) (n : Nat) (f : BldX → BldX) : (s.updBld n f).str = s.str := rfl
@[simp] theorem State.updBld_vale (s : State) (n : Nat) (f : BldX → BldX) : (s.updBld n f).vale = s.vale := rfl
@[simp] theorem State.updBld_mmq (s : State) (n : Nat) (f : BldX → BldX) : (s.updBld n f).mmq = s.mmq := rfl
@[simp] theorem State.updBld_btm (s : State) (n : Nat) (f : BldX → BldX) : (s.updBld n f).btm = s.btm := rfl
@[simp] theorem State.updBld_lsi (s : State) (n : Nat) (f : BldX → BldX) : (s.updBld n f).lsi = s.lsi := rfl
@[simp] theorem State.updBld_bmk (s : State) (n : Nat) (f : BldX → BldX) : (s.updBld n f).bmk = s.bmk := rfl
@[simp] theorem State.updBld_stp (s : State) (n : Nat) (f : BldX → BldX) : (s.updBld n f).stp = s.stp := rfl
@[simp] theorem State.updBld_lanes (s : State) (n : Nat) (f : BldX → BldX) : (s.updBld n f).lanes = s.lanes := rfl
@[simp] theorem State.updBld_dma (s : State) (n : Nat) (f : BldX → BldX) : (s.updBld n f).dma = s.dma := rfl
@[simp] theorem State.updBld_dmaNext (s : State) (n : Nat) (f : BldX → BldX) : (s.updBld n f).dmaNext = s.dmaNext := rfl
@[simp] theorem State.updBld_pra (s : State) (n : Nat) (f : BldX → BldX) : (s.updBld n f).pra = s.pra := rfl
@[simp] theorem State.updBld_sense (s : State) (n : Nat) (f : BldX → BldX) : (s.updBld n f).sense = s.sense := rfl
@[simp] theorem State.updBld_pwr (s : State) (n : Nat) (f : BldX → BldX) : (s.updBld n f).pwr = s.pwr := rfl
@[simp] theorem State.updBld_thm (s : State) (n : Nat) (f : BldX → BldX) : (s.updBld n f).thm = s.thm := rfl
@[simp] theorem State.updBld_csm (s : State) (n : Nat) (f : BldX → BldX) : (s.updBld n f).csm = s.csm := rfl
@[simp] theorem State.updBld_xsp (s : State) (n : Nat) (f : BldX → BldX) : (s.updBld n f).xsp = s.xsp := rfl
@[simp] theorem State.updBld_pmc (s : State) (n : Nat) (f : BldX → BldX) : (s.updBld n f).pmc = s.pmc := rfl
@[simp] theorem State.updBld_mgt (s : State) (n : Nat) (f : BldX → BldX) : (s.updBld n f).mgt = s.mgt := rfl
@[simp] theorem State.updBld_pending (s : State) (n : Nat) (f : BldX → BldX) : (s.updBld n f).pending = s.pending := rfl
@[simp] theorem State.updBld_core (s : State) (n : Nat) (f : BldX → BldX) (m : Fin 12) : (s.updBld n f).core m = s.core m := rfl
@[simp] theorem State.updBld_getReg (s : State) (n : Nat) (f : BldX → BldX) (r : Nat) : (s.updBld n f).getReg r = s.getReg r := rfl
@[simp] theorem State.updBld_rd (s : State) (n : Nat) (f : BldX → BldX) (g : Fld) : (s.updBld n f).rd g = s.rd g := rfl
@[simp] theorem State.updBld_rdw (s : State) (n : Nat) (f : BldX → BldX) (r : Nat) : (s.updBld n f).rdw r = s.rdw r := rfl
@[simp] theorem State.updBld_readByte (s : State) (n : Nat) (f : BldX → BldX) (x : Nat) : (s.updBld n f).readByte x = s.readByte x := rfl

@[simp] theorem State.updStp_regs (s : State) (n : Nat) (f : StpX → StpX) : (s.updStp n f).regs = s.regs := rfl
@[simp] theorem State.updStp_meridian (s : State) (n : Nat) (f : StpX → StpX) : (s.updStp n f).meridian = s.meridian := rfl
@[simp] theorem State.updStp_clock (s : State) (n : Nat) (f : StpX → StpX) : (s.updStp n f).clock = s.clock := rfl
@[simp] theorem State.updStp_lockAt (s : State) (n : Nat) (f : StpX → StpX) : (s.updStp n f).lockAt = s.lockAt := rfl
@[simp] theorem State.updStp_slewRun (s : State) (n : Nat) (f : StpX → StpX) : (s.updStp n f).slewRun = s.slewRun := rfl
@[simp] theorem State.updStp_firstAt (s : State) (n : Nat) (f : StpX → StpX) : (s.updStp n f).firstAt = s.firstAt := rfl
@[simp] theorem State.updStp_mem (s : State) (n : Nat) (f : StpX → StpX) : (s.updStp n f).mem = s.mem := rfl
@[simp] theorem State.updStp_dieEpoch (s : State) (n : Nat) (f : StpX → StpX) : (s.updStp n f).dieEpoch = s.dieEpoch := rfl
@[simp] theorem State.updStp_dramEpoch (s : State) (n : Nat) (f : StpX → StpX) : (s.updStp n f).dramEpoch = s.dramEpoch := rfl
@[simp] theorem State.updStp_badAt (s : State) (n : Nat) (f : StpX → StpX) : (s.updStp n f).badAt = s.badAt := rfl
@[simp] theorem State.updStp_nvm (s : State) (n : Nat) (f : StpX → StpX) : (s.updStp n f).nvm = s.nvm := rfl
@[simp] theorem State.updStp_nvme (s : State) (n : Nat) (f : StpX → StpX) : (s.updStp n f).nvme = s.nvme := rfl
@[simp] theorem State.updStp_hostMem (s : State) (n : Nat) (f : StpX → StpX) : (s.updStp n f).hostMem = s.hostMem := rfl
@[simp] theorem State.updStp_aon (s : State) (n : Nat) (f : StpX → StpX) : (s.updStp n f).aon = s.aon := rfl
@[simp] theorem State.updStp_nowShadow (s : State) (n : Nat) (f : StpX → StpX) : (s.updStp n f).nowShadow = s.nowShadow := rfl
@[simp] theorem State.updStp_alarmArmed (s : State) (n : Nat) (f : StpX → StpX) : (s.updStp n f).alarmArmed = s.alarmArmed := rfl
@[simp] theorem State.updStp_bootClear (s : State) (n : Nat) (f : StpX → StpX) : (s.updStp n f).bootClear = s.bootClear := rfl
@[simp] theorem State.updStp_imageLoaded (s : State) (n : Nat) (f : StpX → StpX) : (s.updStp n f).imageLoaded = s.imageLoaded := rfl
@[simp] theorem State.updStp_released (s : State) (n : Nat) (f : StpX → StpX) : (s.updStp n f).released = s.released := rfl
@[simp] theorem State.updStp_faultWake (s : State) (n : Nat) (f : StpX → StpX) : (s.updStp n f).faultWake = s.faultWake := rfl
@[simp] theorem State.updStp_due (s : State) (n : Nat) (f : StpX → StpX) : (s.updStp n f).due = s.due := rfl
@[simp] theorem State.updStp_cores (s : State) (n : Nat) (f : StpX → StpX) : (s.updStp n f).cores = s.cores := rfl
@[simp] theorem State.updStp_pend (s : State) (n : Nat) (f : StpX → StpX) : (s.updStp n f).pend = s.pend := rfl
@[simp] theorem State.updStp_psq (s : State) (n : Nat) (f : StpX → StpX) : (s.updStp n f).psq = s.psq := rfl
@[simp] theorem State.updStp_jrn (s : State) (n : Nat) (f : StpX → StpX) : (s.updStp n f).jrn = s.jrn := rfl
@[simp] theorem State.updStp_vsp (s : State) (n : Nat) (f : StpX → StpX) : (s.updStp n f).vsp = s.vsp := rfl
@[simp] theorem State.updStp_fin (s : State) (n : Nat) (f : StpX → StpX) : (s.updStp n f).fin = s.fin := rfl
@[simp] theorem State.updStp_fab (s : State) (n : Nat) (f : StpX → StpX) : (s.updStp n f).fab = s.fab := rfl
@[simp] theorem State.updStp_hst (s : State) (n : Nat) (f : StpX → StpX) : (s.updStp n f).hst = s.hst := rfl
@[simp] theorem State.updStp_pmx (s : State) (n : Nat) (f : StpX → StpX) : (s.updStp n f).pmx = s.pmx := rfl
@[simp] theorem State.updStp_plain (s : State) (n : Nat) (f : StpX → StpX) : (s.updStp n f).plain = s.plain := rfl
@[simp] theorem State.updStp_str (s : State) (n : Nat) (f : StpX → StpX) : (s.updStp n f).str = s.str := rfl
@[simp] theorem State.updStp_vale (s : State) (n : Nat) (f : StpX → StpX) : (s.updStp n f).vale = s.vale := rfl
@[simp] theorem State.updStp_mmq (s : State) (n : Nat) (f : StpX → StpX) : (s.updStp n f).mmq = s.mmq := rfl
@[simp] theorem State.updStp_btm (s : State) (n : Nat) (f : StpX → StpX) : (s.updStp n f).btm = s.btm := rfl
@[simp] theorem State.updStp_lsi (s : State) (n : Nat) (f : StpX → StpX) : (s.updStp n f).lsi = s.lsi := rfl
@[simp] theorem State.updStp_bmk (s : State) (n : Nat) (f : StpX → StpX) : (s.updStp n f).bmk = s.bmk := rfl
@[simp] theorem State.updStp_bld (s : State) (n : Nat) (f : StpX → StpX) : (s.updStp n f).bld = s.bld := rfl
@[simp] theorem State.updStp_lanes (s : State) (n : Nat) (f : StpX → StpX) : (s.updStp n f).lanes = s.lanes := rfl
@[simp] theorem State.updStp_dma (s : State) (n : Nat) (f : StpX → StpX) : (s.updStp n f).dma = s.dma := rfl
@[simp] theorem State.updStp_dmaNext (s : State) (n : Nat) (f : StpX → StpX) : (s.updStp n f).dmaNext = s.dmaNext := rfl
@[simp] theorem State.updStp_pra (s : State) (n : Nat) (f : StpX → StpX) : (s.updStp n f).pra = s.pra := rfl
@[simp] theorem State.updStp_sense (s : State) (n : Nat) (f : StpX → StpX) : (s.updStp n f).sense = s.sense := rfl
@[simp] theorem State.updStp_pwr (s : State) (n : Nat) (f : StpX → StpX) : (s.updStp n f).pwr = s.pwr := rfl
@[simp] theorem State.updStp_thm (s : State) (n : Nat) (f : StpX → StpX) : (s.updStp n f).thm = s.thm := rfl
@[simp] theorem State.updStp_csm (s : State) (n : Nat) (f : StpX → StpX) : (s.updStp n f).csm = s.csm := rfl
@[simp] theorem State.updStp_xsp (s : State) (n : Nat) (f : StpX → StpX) : (s.updStp n f).xsp = s.xsp := rfl
@[simp] theorem State.updStp_pmc (s : State) (n : Nat) (f : StpX → StpX) : (s.updStp n f).pmc = s.pmc := rfl
@[simp] theorem State.updStp_mgt (s : State) (n : Nat) (f : StpX → StpX) : (s.updStp n f).mgt = s.mgt := rfl
@[simp] theorem State.updStp_pending (s : State) (n : Nat) (f : StpX → StpX) : (s.updStp n f).pending = s.pending := rfl
@[simp] theorem State.updStp_core (s : State) (n : Nat) (f : StpX → StpX) (m : Fin 12) : (s.updStp n f).core m = s.core m := rfl
@[simp] theorem State.updStp_getReg (s : State) (n : Nat) (f : StpX → StpX) (r : Nat) : (s.updStp n f).getReg r = s.getReg r := rfl
@[simp] theorem State.updStp_rd (s : State) (n : Nat) (f : StpX → StpX) (g : Fld) : (s.updStp n f).rd g = s.rd g := rfl
@[simp] theorem State.updStp_rdw (s : State) (n : Nat) (f : StpX → StpX) (r : Nat) : (s.updStp n f).rdw r = s.rdw r := rfl
@[simp] theorem State.updStp_readByte (s : State) (n : Nat) (f : StpX → StpX) (x : Nat) : (s.updStp n f).readByte x = s.readByte x := rfl

@[simp] theorem State.updSlot_regs (s : State) (n : Nat) (f : SlotX → SlotX) : (s.updSlot n f).regs = s.regs := rfl
@[simp] theorem State.updSlot_meridian (s : State) (n : Nat) (f : SlotX → SlotX) : (s.updSlot n f).meridian = s.meridian := rfl
@[simp] theorem State.updSlot_clock (s : State) (n : Nat) (f : SlotX → SlotX) : (s.updSlot n f).clock = s.clock := rfl
@[simp] theorem State.updSlot_lockAt (s : State) (n : Nat) (f : SlotX → SlotX) : (s.updSlot n f).lockAt = s.lockAt := rfl
@[simp] theorem State.updSlot_slewRun (s : State) (n : Nat) (f : SlotX → SlotX) : (s.updSlot n f).slewRun = s.slewRun := rfl
@[simp] theorem State.updSlot_firstAt (s : State) (n : Nat) (f : SlotX → SlotX) : (s.updSlot n f).firstAt = s.firstAt := rfl
@[simp] theorem State.updSlot_mem (s : State) (n : Nat) (f : SlotX → SlotX) : (s.updSlot n f).mem = s.mem := rfl
@[simp] theorem State.updSlot_dieEpoch (s : State) (n : Nat) (f : SlotX → SlotX) : (s.updSlot n f).dieEpoch = s.dieEpoch := rfl
@[simp] theorem State.updSlot_dramEpoch (s : State) (n : Nat) (f : SlotX → SlotX) : (s.updSlot n f).dramEpoch = s.dramEpoch := rfl
@[simp] theorem State.updSlot_badAt (s : State) (n : Nat) (f : SlotX → SlotX) : (s.updSlot n f).badAt = s.badAt := rfl
@[simp] theorem State.updSlot_nvm (s : State) (n : Nat) (f : SlotX → SlotX) : (s.updSlot n f).nvm = s.nvm := rfl
@[simp] theorem State.updSlot_nvme (s : State) (n : Nat) (f : SlotX → SlotX) : (s.updSlot n f).nvme = s.nvme := rfl
@[simp] theorem State.updSlot_hostMem (s : State) (n : Nat) (f : SlotX → SlotX) : (s.updSlot n f).hostMem = s.hostMem := rfl
@[simp] theorem State.updSlot_aon (s : State) (n : Nat) (f : SlotX → SlotX) : (s.updSlot n f).aon = s.aon := rfl
@[simp] theorem State.updSlot_nowShadow (s : State) (n : Nat) (f : SlotX → SlotX) : (s.updSlot n f).nowShadow = s.nowShadow := rfl
@[simp] theorem State.updSlot_alarmArmed (s : State) (n : Nat) (f : SlotX → SlotX) : (s.updSlot n f).alarmArmed = s.alarmArmed := rfl
@[simp] theorem State.updSlot_bootClear (s : State) (n : Nat) (f : SlotX → SlotX) : (s.updSlot n f).bootClear = s.bootClear := rfl
@[simp] theorem State.updSlot_imageLoaded (s : State) (n : Nat) (f : SlotX → SlotX) : (s.updSlot n f).imageLoaded = s.imageLoaded := rfl
@[simp] theorem State.updSlot_released (s : State) (n : Nat) (f : SlotX → SlotX) : (s.updSlot n f).released = s.released := rfl
@[simp] theorem State.updSlot_faultWake (s : State) (n : Nat) (f : SlotX → SlotX) : (s.updSlot n f).faultWake = s.faultWake := rfl
@[simp] theorem State.updSlot_due (s : State) (n : Nat) (f : SlotX → SlotX) : (s.updSlot n f).due = s.due := rfl
@[simp] theorem State.updSlot_cores (s : State) (n : Nat) (f : SlotX → SlotX) : (s.updSlot n f).cores = s.cores := rfl
@[simp] theorem State.updSlot_pend (s : State) (n : Nat) (f : SlotX → SlotX) : (s.updSlot n f).pend = s.pend := rfl
@[simp] theorem State.updSlot_psq (s : State) (n : Nat) (f : SlotX → SlotX) : (s.updSlot n f).psq = s.psq := rfl
@[simp] theorem State.updSlot_jrn (s : State) (n : Nat) (f : SlotX → SlotX) : (s.updSlot n f).jrn = s.jrn := rfl
@[simp] theorem State.updSlot_vsp (s : State) (n : Nat) (f : SlotX → SlotX) : (s.updSlot n f).vsp = s.vsp := rfl
@[simp] theorem State.updSlot_fin (s : State) (n : Nat) (f : SlotX → SlotX) : (s.updSlot n f).fin = s.fin := rfl
@[simp] theorem State.updSlot_fab (s : State) (n : Nat) (f : SlotX → SlotX) : (s.updSlot n f).fab = s.fab := rfl
@[simp] theorem State.updSlot_hst (s : State) (n : Nat) (f : SlotX → SlotX) : (s.updSlot n f).hst = s.hst := rfl
@[simp] theorem State.updSlot_pmx (s : State) (n : Nat) (f : SlotX → SlotX) : (s.updSlot n f).pmx = s.pmx := rfl
@[simp] theorem State.updSlot_plain (s : State) (n : Nat) (f : SlotX → SlotX) : (s.updSlot n f).plain = s.plain := rfl
@[simp] theorem State.updSlot_str (s : State) (n : Nat) (f : SlotX → SlotX) : (s.updSlot n f).str = s.str := rfl
@[simp] theorem State.updSlot_vale (s : State) (n : Nat) (f : SlotX → SlotX) : (s.updSlot n f).vale = s.vale := rfl
@[simp] theorem State.updSlot_mmq (s : State) (n : Nat) (f : SlotX → SlotX) : (s.updSlot n f).mmq = s.mmq := rfl
@[simp] theorem State.updSlot_btm (s : State) (n : Nat) (f : SlotX → SlotX) : (s.updSlot n f).btm = s.btm := rfl
@[simp] theorem State.updSlot_lsi (s : State) (n : Nat) (f : SlotX → SlotX) : (s.updSlot n f).lsi = s.lsi := rfl
@[simp] theorem State.updSlot_bmk (s : State) (n : Nat) (f : SlotX → SlotX) : (s.updSlot n f).bmk = s.bmk := rfl
@[simp] theorem State.updSlot_bld (s : State) (n : Nat) (f : SlotX → SlotX) : (s.updSlot n f).bld = s.bld := rfl
@[simp] theorem State.updSlot_stp (s : State) (n : Nat) (f : SlotX → SlotX) : (s.updSlot n f).stp = s.stp := rfl
@[simp] theorem State.updSlot_lanes (s : State) (n : Nat) (f : SlotX → SlotX) : (s.updSlot n f).lanes = s.lanes := rfl
@[simp] theorem State.updSlot_dma (s : State) (n : Nat) (f : SlotX → SlotX) : (s.updSlot n f).dma = s.dma := rfl
@[simp] theorem State.updSlot_dmaNext (s : State) (n : Nat) (f : SlotX → SlotX) : (s.updSlot n f).dmaNext = s.dmaNext := rfl
@[simp] theorem State.updSlot_sense (s : State) (n : Nat) (f : SlotX → SlotX) : (s.updSlot n f).sense = s.sense := rfl
@[simp] theorem State.updSlot_pwr (s : State) (n : Nat) (f : SlotX → SlotX) : (s.updSlot n f).pwr = s.pwr := rfl
@[simp] theorem State.updSlot_thm (s : State) (n : Nat) (f : SlotX → SlotX) : (s.updSlot n f).thm = s.thm := rfl
@[simp] theorem State.updSlot_csm (s : State) (n : Nat) (f : SlotX → SlotX) : (s.updSlot n f).csm = s.csm := rfl
@[simp] theorem State.updSlot_xsp (s : State) (n : Nat) (f : SlotX → SlotX) : (s.updSlot n f).xsp = s.xsp := rfl
@[simp] theorem State.updSlot_pmc (s : State) (n : Nat) (f : SlotX → SlotX) : (s.updSlot n f).pmc = s.pmc := rfl
@[simp] theorem State.updSlot_mgt (s : State) (n : Nat) (f : SlotX → SlotX) : (s.updSlot n f).mgt = s.mgt := rfl
@[simp] theorem State.updSlot_pending (s : State) (n : Nat) (f : SlotX → SlotX) : (s.updSlot n f).pending = s.pending := rfl
@[simp] theorem State.updSlot_core (s : State) (n : Nat) (f : SlotX → SlotX) (m : Fin 12) : (s.updSlot n f).core m = s.core m := rfl
@[simp] theorem State.updSlot_getReg (s : State) (n : Nat) (f : SlotX → SlotX) (r : Nat) : (s.updSlot n f).getReg r = s.getReg r := rfl
@[simp] theorem State.updSlot_rd (s : State) (n : Nat) (f : SlotX → SlotX) (g : Fld) : (s.updSlot n f).rd g = s.rd g := rfl
@[simp] theorem State.updSlot_rdw (s : State) (n : Nat) (f : SlotX → SlotX) (r : Nat) : (s.updSlot n f).rdw r = s.rdw r := rfl
@[simp] theorem State.updSlot_readByte (s : State) (n : Nat) (f : SlotX → SlotX) (x : Nat) : (s.updSlot n f).readByte x = s.readByte x := rfl

@[simp] theorem State.updRail_regs (s : State) (r : Nat) (f : RailX → RailX) : (s.updRail r f).regs = s.regs := rfl
@[simp] theorem State.updRail_meridian (s : State) (r : Nat) (f : RailX → RailX) : (s.updRail r f).meridian = s.meridian := rfl
@[simp] theorem State.updRail_clock (s : State) (r : Nat) (f : RailX → RailX) : (s.updRail r f).clock = s.clock := rfl
@[simp] theorem State.updRail_lockAt (s : State) (r : Nat) (f : RailX → RailX) : (s.updRail r f).lockAt = s.lockAt := rfl
@[simp] theorem State.updRail_slewRun (s : State) (r : Nat) (f : RailX → RailX) : (s.updRail r f).slewRun = s.slewRun := rfl
@[simp] theorem State.updRail_firstAt (s : State) (r : Nat) (f : RailX → RailX) : (s.updRail r f).firstAt = s.firstAt := rfl
@[simp] theorem State.updRail_mem (s : State) (r : Nat) (f : RailX → RailX) : (s.updRail r f).mem = s.mem := rfl
@[simp] theorem State.updRail_dieEpoch (s : State) (r : Nat) (f : RailX → RailX) : (s.updRail r f).dieEpoch = s.dieEpoch := rfl
@[simp] theorem State.updRail_dramEpoch (s : State) (r : Nat) (f : RailX → RailX) : (s.updRail r f).dramEpoch = s.dramEpoch := rfl
@[simp] theorem State.updRail_badAt (s : State) (r : Nat) (f : RailX → RailX) : (s.updRail r f).badAt = s.badAt := rfl
@[simp] theorem State.updRail_nvm (s : State) (r : Nat) (f : RailX → RailX) : (s.updRail r f).nvm = s.nvm := rfl
@[simp] theorem State.updRail_nvme (s : State) (r : Nat) (f : RailX → RailX) : (s.updRail r f).nvme = s.nvme := rfl
@[simp] theorem State.updRail_hostMem (s : State) (r : Nat) (f : RailX → RailX) : (s.updRail r f).hostMem = s.hostMem := rfl
@[simp] theorem State.updRail_aon (s : State) (r : Nat) (f : RailX → RailX) : (s.updRail r f).aon = s.aon := rfl
@[simp] theorem State.updRail_nowShadow (s : State) (r : Nat) (f : RailX → RailX) : (s.updRail r f).nowShadow = s.nowShadow := rfl
@[simp] theorem State.updRail_alarmArmed (s : State) (r : Nat) (f : RailX → RailX) : (s.updRail r f).alarmArmed = s.alarmArmed := rfl
@[simp] theorem State.updRail_bootClear (s : State) (r : Nat) (f : RailX → RailX) : (s.updRail r f).bootClear = s.bootClear := rfl
@[simp] theorem State.updRail_imageLoaded (s : State) (r : Nat) (f : RailX → RailX) : (s.updRail r f).imageLoaded = s.imageLoaded := rfl
@[simp] theorem State.updRail_released (s : State) (r : Nat) (f : RailX → RailX) : (s.updRail r f).released = s.released := rfl
@[simp] theorem State.updRail_faultWake (s : State) (r : Nat) (f : RailX → RailX) : (s.updRail r f).faultWake = s.faultWake := rfl
@[simp] theorem State.updRail_due (s : State) (r : Nat) (f : RailX → RailX) : (s.updRail r f).due = s.due := rfl
@[simp] theorem State.updRail_cores (s : State) (r : Nat) (f : RailX → RailX) : (s.updRail r f).cores = s.cores := rfl
@[simp] theorem State.updRail_pend (s : State) (r : Nat) (f : RailX → RailX) : (s.updRail r f).pend = s.pend := rfl
@[simp] theorem State.updRail_psq (s : State) (r : Nat) (f : RailX → RailX) : (s.updRail r f).psq = s.psq := rfl
@[simp] theorem State.updRail_jrn (s : State) (r : Nat) (f : RailX → RailX) : (s.updRail r f).jrn = s.jrn := rfl
@[simp] theorem State.updRail_vsp (s : State) (r : Nat) (f : RailX → RailX) : (s.updRail r f).vsp = s.vsp := rfl
@[simp] theorem State.updRail_fin (s : State) (r : Nat) (f : RailX → RailX) : (s.updRail r f).fin = s.fin := rfl
@[simp] theorem State.updRail_fab (s : State) (r : Nat) (f : RailX → RailX) : (s.updRail r f).fab = s.fab := rfl
@[simp] theorem State.updRail_hst (s : State) (r : Nat) (f : RailX → RailX) : (s.updRail r f).hst = s.hst := rfl
@[simp] theorem State.updRail_pmx (s : State) (r : Nat) (f : RailX → RailX) : (s.updRail r f).pmx = s.pmx := rfl
@[simp] theorem State.updRail_plain (s : State) (r : Nat) (f : RailX → RailX) : (s.updRail r f).plain = s.plain := rfl
@[simp] theorem State.updRail_str (s : State) (r : Nat) (f : RailX → RailX) : (s.updRail r f).str = s.str := rfl
@[simp] theorem State.updRail_vale (s : State) (r : Nat) (f : RailX → RailX) : (s.updRail r f).vale = s.vale := rfl
@[simp] theorem State.updRail_mmq (s : State) (r : Nat) (f : RailX → RailX) : (s.updRail r f).mmq = s.mmq := rfl
@[simp] theorem State.updRail_btm (s : State) (r : Nat) (f : RailX → RailX) : (s.updRail r f).btm = s.btm := rfl
@[simp] theorem State.updRail_lsi (s : State) (r : Nat) (f : RailX → RailX) : (s.updRail r f).lsi = s.lsi := rfl
@[simp] theorem State.updRail_bmk (s : State) (r : Nat) (f : RailX → RailX) : (s.updRail r f).bmk = s.bmk := rfl
@[simp] theorem State.updRail_bld (s : State) (r : Nat) (f : RailX → RailX) : (s.updRail r f).bld = s.bld := rfl
@[simp] theorem State.updRail_stp (s : State) (r : Nat) (f : RailX → RailX) : (s.updRail r f).stp = s.stp := rfl
@[simp] theorem State.updRail_lanes (s : State) (r : Nat) (f : RailX → RailX) : (s.updRail r f).lanes = s.lanes := rfl
@[simp] theorem State.updRail_dma (s : State) (r : Nat) (f : RailX → RailX) : (s.updRail r f).dma = s.dma := rfl
@[simp] theorem State.updRail_dmaNext (s : State) (r : Nat) (f : RailX → RailX) : (s.updRail r f).dmaNext = s.dmaNext := rfl
@[simp] theorem State.updRail_pra (s : State) (r : Nat) (f : RailX → RailX) : (s.updRail r f).pra = s.pra := rfl
@[simp] theorem State.updRail_sense (s : State) (r : Nat) (f : RailX → RailX) : (s.updRail r f).sense = s.sense := rfl
@[simp] theorem State.updRail_thm (s : State) (r : Nat) (f : RailX → RailX) : (s.updRail r f).thm = s.thm := rfl
@[simp] theorem State.updRail_csm (s : State) (r : Nat) (f : RailX → RailX) : (s.updRail r f).csm = s.csm := rfl
@[simp] theorem State.updRail_xsp (s : State) (r : Nat) (f : RailX → RailX) : (s.updRail r f).xsp = s.xsp := rfl
@[simp] theorem State.updRail_pmc (s : State) (r : Nat) (f : RailX → RailX) : (s.updRail r f).pmc = s.pmc := rfl
@[simp] theorem State.updRail_mgt (s : State) (r : Nat) (f : RailX → RailX) : (s.updRail r f).mgt = s.mgt := rfl
@[simp] theorem State.updRail_pending (s : State) (r : Nat) (f : RailX → RailX) : (s.updRail r f).pending = s.pending := rfl
@[simp] theorem State.updRail_core (s : State) (r : Nat) (f : RailX → RailX) (m : Fin 12) : (s.updRail r f).core m = s.core m := rfl
@[simp] theorem State.updRail_getReg (s : State) (r : Nat) (f : RailX → RailX) (r : Nat) : (s.updRail r f).getReg r = s.getReg r := rfl
@[simp] theorem State.updRail_rd (s : State) (r : Nat) (f : RailX → RailX) (g : Fld) : (s.updRail r f).rd g = s.rd g := rfl
@[simp] theorem State.updRail_rdw (s : State) (r : Nat) (f : RailX → RailX) (r : Nat) : (s.updRail r f).rdw r = s.rdw r := rfl
@[simp] theorem State.updRail_readByte (s : State) (r : Nat) (f : RailX → RailX) (x : Nat) : (s.updRail r f).readByte x = s.readByte x := rfl

@[simp] theorem State.count_regs (s : State) (ev i n : Nat) : (s.count ev i n).regs = s.regs := rfl
@[simp] theorem State.count_meridian (s : State) (ev i n : Nat) : (s.count ev i n).meridian = s.meridian := rfl
@[simp] theorem State.count_clock (s : State) (ev i n : Nat) : (s.count ev i n).clock = s.clock := rfl
@[simp] theorem State.count_lockAt (s : State) (ev i n : Nat) : (s.count ev i n).lockAt = s.lockAt := rfl
@[simp] theorem State.count_slewRun (s : State) (ev i n : Nat) : (s.count ev i n).slewRun = s.slewRun := rfl
@[simp] theorem State.count_firstAt (s : State) (ev i n : Nat) : (s.count ev i n).firstAt = s.firstAt := rfl
@[simp] theorem State.count_mem (s : State) (ev i n : Nat) : (s.count ev i n).mem = s.mem := rfl
@[simp] theorem State.count_dieEpoch (s : State) (ev i n : Nat) : (s.count ev i n).dieEpoch = s.dieEpoch := rfl
@[simp] theorem State.count_dramEpoch (s : State) (ev i n : Nat) : (s.count ev i n).dramEpoch = s.dramEpoch := rfl
@[simp] theorem State.count_badAt (s : State) (ev i n : Nat) : (s.count ev i n).badAt = s.badAt := rfl
@[simp] theorem State.count_nvm (s : State) (ev i n : Nat) : (s.count ev i n).nvm = s.nvm := rfl
@[simp] theorem State.count_nvme (s : State) (ev i n : Nat) : (s.count ev i n).nvme = s.nvme := rfl
@[simp] theorem State.count_hostMem (s : State) (ev i n : Nat) : (s.count ev i n).hostMem = s.hostMem := rfl
@[simp] theorem State.count_aon (s : State) (ev i n : Nat) : (s.count ev i n).aon = s.aon := rfl
@[simp] theorem State.count_nowShadow (s : State) (ev i n : Nat) : (s.count ev i n).nowShadow = s.nowShadow := rfl
@[simp] theorem State.count_alarmArmed (s : State) (ev i n : Nat) : (s.count ev i n).alarmArmed = s.alarmArmed := rfl
@[simp] theorem State.count_bootClear (s : State) (ev i n : Nat) : (s.count ev i n).bootClear = s.bootClear := rfl
@[simp] theorem State.count_imageLoaded (s : State) (ev i n : Nat) : (s.count ev i n).imageLoaded = s.imageLoaded := rfl
@[simp] theorem State.count_released (s : State) (ev i n : Nat) : (s.count ev i n).released = s.released := rfl
@[simp] theorem State.count_faultWake (s : State) (ev i n : Nat) : (s.count ev i n).faultWake = s.faultWake := rfl
@[simp] theorem State.count_due (s : State) (ev i n : Nat) : (s.count ev i n).due = s.due := rfl
@[simp] theorem State.count_cores (s : State) (ev i n : Nat) : (s.count ev i n).cores = s.cores := rfl
@[simp] theorem State.count_pend (s : State) (ev i n : Nat) : (s.count ev i n).pend = s.pend := rfl
@[simp] theorem State.count_psq (s : State) (ev i n : Nat) : (s.count ev i n).psq = s.psq := rfl
@[simp] theorem State.count_jrn (s : State) (ev i n : Nat) : (s.count ev i n).jrn = s.jrn := rfl
@[simp] theorem State.count_vsp (s : State) (ev i n : Nat) : (s.count ev i n).vsp = s.vsp := rfl
@[simp] theorem State.count_fin (s : State) (ev i n : Nat) : (s.count ev i n).fin = s.fin := rfl
@[simp] theorem State.count_fab (s : State) (ev i n : Nat) : (s.count ev i n).fab = s.fab := rfl
@[simp] theorem State.count_hst (s : State) (ev i n : Nat) : (s.count ev i n).hst = s.hst := rfl
@[simp] theorem State.count_pmx (s : State) (ev i n : Nat) : (s.count ev i n).pmx = s.pmx := rfl
@[simp] theorem State.count_plain (s : State) (ev i n : Nat) : (s.count ev i n).plain = s.plain := rfl
@[simp] theorem State.count_str (s : State) (ev i n : Nat) : (s.count ev i n).str = s.str := rfl
@[simp] theorem State.count_vale (s : State) (ev i n : Nat) : (s.count ev i n).vale = s.vale := rfl
@[simp] theorem State.count_mmq (s : State) (ev i n : Nat) : (s.count ev i n).mmq = s.mmq := rfl
@[simp] theorem State.count_btm (s : State) (ev i n : Nat) : (s.count ev i n).btm = s.btm := rfl
@[simp] theorem State.count_lsi (s : State) (ev i n : Nat) : (s.count ev i n).lsi = s.lsi := rfl
@[simp] theorem State.count_bmk (s : State) (ev i n : Nat) : (s.count ev i n).bmk = s.bmk := rfl
@[simp] theorem State.count_bld (s : State) (ev i n : Nat) : (s.count ev i n).bld = s.bld := rfl
@[simp] theorem State.count_stp (s : State) (ev i n : Nat) : (s.count ev i n).stp = s.stp := rfl
@[simp] theorem State.count_lanes (s : State) (ev i n : Nat) : (s.count ev i n).lanes = s.lanes := rfl
@[simp] theorem State.count_dma (s : State) (ev i n : Nat) : (s.count ev i n).dma = s.dma := rfl
@[simp] theorem State.count_dmaNext (s : State) (ev i n : Nat) : (s.count ev i n).dmaNext = s.dmaNext := rfl
@[simp] theorem State.count_pra (s : State) (ev i n : Nat) : (s.count ev i n).pra = s.pra := rfl
@[simp] theorem State.count_sense (s : State) (ev i n : Nat) : (s.count ev i n).sense = s.sense := rfl
@[simp] theorem State.count_pwr (s : State) (ev i n : Nat) : (s.count ev i n).pwr = s.pwr := rfl
@[simp] theorem State.count_thm (s : State) (ev i n : Nat) : (s.count ev i n).thm = s.thm := rfl
@[simp] theorem State.count_csm (s : State) (ev i n : Nat) : (s.count ev i n).csm = s.csm := rfl
@[simp] theorem State.count_xsp (s : State) (ev i n : Nat) : (s.count ev i n).xsp = s.xsp := rfl
@[simp] theorem State.count_mgt (s : State) (ev i n : Nat) : (s.count ev i n).mgt = s.mgt := rfl
@[simp] theorem State.count_pending (s : State) (ev i n : Nat) : (s.count ev i n).pending = s.pending := rfl
@[simp] theorem State.count_core (s : State) (ev i n : Nat) (m : Fin 12) : (s.count ev i n).core m = s.core m := rfl
@[simp] theorem State.count_getReg (s : State) (ev i n : Nat) (r : Nat) : (s.count ev i n).getReg r = s.getReg r := rfl
@[simp] theorem State.count_rd (s : State) (ev i n : Nat) (g : Fld) : (s.count ev i n).rd g = s.rd g := rfl
@[simp] theorem State.count_rdw (s : State) (ev i n : Nat) (r : Nat) : (s.count ev i n).rdw r = s.rdw r := rfl
@[simp] theorem State.count_readByte (s : State) (ev i n : Nat) (x : Nat) : (s.count ev i n).readByte x = s.readByte x := rfl

end Sys2Proof.Machine
end

