-- ==== Sys2Proof/Laws/Regs.lean ====
section
/-! SUPPORT. Reads of registers, fields and bytes after writes. -/

namespace Sys2Proof.Machine

@[simp] theorem State.getReg_setReg (s : State) (a : Nat) (w : RegWord) (b : Nat) :
    (s.setReg a w).getReg b = if b = a then w else s.getReg b := by
  simp only [State.getReg, State.setReg, sparseSet_get]

theorem State.readByte_writeByte (s : State) (a : Nat) (v : Byte) (b : Nat) :
    (s.writeByte a v).readByte b = if b = a then v else s.readByte b := by
  simp only [State.readByte, State.writeByte, sparseSet_get]

theorem testBit_bitsOf (w lsb width i : Nat) : (bitsOf w lsb width).testBit i = (decide (i < width) && w.testBit (lsb + i)) := by
  simp [bitsOf, Nat.testBit_mod_two_pow, Nat.testBit_div_two_pow, Nat.add_comm]

theorem bitsSet_eq (w lsb width v : Nat) :
    bitsSet w lsb width v = 2 ^ lsb * (2 ^ width * (w / 2 ^ lsb / 2 ^ width) + v % 2 ^ width) + w % 2 ^ lsb := by
  have h1 := Nat.div_add_mod w (2 ^ lsb)
  have h2 := Nat.div_add_mod (w / 2 ^ lsb) (2 ^ width)
  unfold bitsSet bitsOf
  generalize w / 2 ^ lsb / 2 ^ width = a at *
  generalize w / 2 ^ lsb % 2 ^ width = b at *
  generalize w % 2 ^ lsb = c at *
  generalize v % 2 ^ width = d
  generalize 2 ^ width = y at *
  rw [← h2] at h1
  have h3 : w = 2 ^ lsb * (y * a) + b * 2 ^ lsb + c := by rw [← h1, Nat.mul_add, Nat.mul_comm b]
  rw [h3, Nat.mul_add, Nat.mul_comm d]
  omega

theorem testBit_bitsSet (w lsb width v i : Nat) :
    (bitsSet w lsb width v).testBit i = if lsb ≤ i ∧ i < lsb + width then v.testBit (i - lsb) else w.testBit i := by
  rw [bitsSet_eq, Nat.testBit_two_pow_mul_add _ (Nat.mod_lt _ (Nat.two_pow_pos _))]
  by_cases h : i < lsb
  · rw [if_pos h, if_neg (by omega), Nat.testBit_mod_two_pow]
    simp [h]
  · rw [if_neg h, Nat.testBit_two_pow_mul_add _ (Nat.mod_lt _ (Nat.two_pow_pos _))]
    by_cases h' : i - lsb < width
    · rw [if_pos h', if_pos (by omega), Nat.testBit_mod_two_pow]
      simp [h']
    · rw [if_neg h', if_neg (by omega), Nat.testBit_div_two_pow, Nat.testBit_div_two_pow]
      congr 1
      omega

theorem bitsSet_lt {w lsb width v : Nat} (hw : w < 2 ^ 32) (h : lsb + width ≤ 32) : bitsSet w lsb width v < 2 ^ 32 := by
  apply Nat.lt_pow_two_of_testBit
  intro i hi
  rw [testBit_bitsSet, if_neg (by omega)]
  exact Nat.testBit_lt_two_pow (Nat.lt_of_lt_of_le hw (Nat.pow_le_pow_right (by decide) hi))

theorem bitsOf_bitsSet (w lsb width v : Nat) : bitsOf (bitsSet w lsb width v) lsb width = v % 2 ^ width := by
  apply Nat.eq_of_testBit_eq
  intro i
  rw [testBit_bitsOf, testBit_bitsSet, Nat.testBit_mod_two_pow]
  by_cases h : i < width
  · rw [if_pos (by omega)]
    simp [h]
  · simp [h]

theorem bitsOf_bitsSet_ne {w lsb width v lsb' width' : Nat} (h : lsb' + width' ≤ lsb ∨ lsb + width ≤ lsb') :
    bitsOf (bitsSet w lsb width v) lsb' width' = bitsOf w lsb' width' := by
  apply Nat.eq_of_testBit_eq
  intro i
  rw [testBit_bitsOf, testBit_bitsOf, testBit_bitsSet]
  by_cases hi : i < width'
  · rw [if_neg (by omega)]
  · simp [hi]

/-- A field reads what was written to it. -/
theorem State.rd_wr (s : State) (f : Fld) (v : Nat) (h : f.lsb + f.width ≤ 32) : (s.wr f v).rd f = v % 2 ^ f.width := by
  simp only [State.rd, State.wr, State.getReg_setReg, if_pos, BitVec.toNat_ofNat]
  rw [Nat.mod_eq_of_lt (bitsSet_lt (s.getReg f.off).isLt h), bitsOf_bitsSet]

/-- A field of another register, or other bits of the register, read as before. -/
theorem State.rd_wr_ne (s : State) (f g : Fld) (v : Nat) (hf : f.lsb + f.width ≤ 32)
    (h : g.off ≠ f.off ∨ g.lsb + g.width ≤ f.lsb ∨ f.lsb + f.width ≤ g.lsb) : (s.wr f v).rd g = s.rd g := by
  simp only [State.rd, State.wr, State.getReg_setReg]
  by_cases e : g.off = f.off
  · rw [if_pos e, BitVec.toNat_ofNat, Nat.mod_eq_of_lt (bitsSet_lt (s.getReg f.off).isLt hf), e]
    rcases h with h | h
    · exact absurd e h
    · exact bitsOf_bitsSet_ne h
  · rw [if_neg e]

/-- A register reads what was written to it, every other as before. -/
theorem State.rdw_wrw (s : State) (a v b : Nat) : (s.wrw a v).rdw b = if b = a then v % 2 ^ 32 else s.rdw b := by
  simp only [State.rdw, State.wrw, State.getReg_setReg]
  split <;> simp

theorem State.rdw_wr_ne (s : State) (f : Fld) (v b : Nat) (h : b ≠ f.off) : (s.wr f v).rdw b = s.rdw b := by
  simp [State.rdw, State.wr, h]

theorem State.rd_wrw_ne (s : State) (a v : Nat) (g : Fld) (h : g.off ≠ a) : (s.wrw a v).rd g = s.rd g := by
  simp [State.rd, State.wrw, h]

/-- A field of a register that was written whole. -/
theorem State.rd_wrw (s : State) (g : Fld) (v : Nat) : (s.wrw g.off v).rd g = bitsOf (v % 2 ^ 32) g.lsb g.width := by
  simp [State.rd, State.wrw]

theorem State.core_updCore (s : State) (n m : Fin 12) (f : CoreX → CoreX) :
    (s.updCore n f).core m = if m = n then f (s.core n) else s.core m := by
  simp only [State.core, State.updCore, Fin.getElem_fin, Vector.getElem_set]
  by_cases h : m = n
  · simp [h]
  · rw [if_neg (fun e => h (Fin.ext e.symm)), if_neg h]

theorem State.core_setX (s : State) (n m : Fin 12) (r : Fin 32) (v : Word) :
    (s.setX n r v).core m = if m = n ∧ r ≠ 0 then { s.core n with x := (s.core n).x.set r v } else s.core m := by
  unfold State.setX
  split
  · simp_all
  · simp_all [State.core_updCore]

theorem State.getX_setX (s : State) (n m : Fin 12) (r q : Fin 32) (v : Word) :
    (s.setX n r v).getX m q = if m = n ∧ q = r ∧ r ≠ 0 then v else s.getX m q := by
  unfold State.getX
  rw [State.core_setX]
  by_cases hm : m = n
  · subst hm
    by_cases hr : r = 0
    · simp [hr]
    · by_cases hq : q = r
      · simp [hq, hr]
      · have : ¬r.val = q.val := fun x => hq (Fin.ext x.symm)
        simp [hq, hr, this]
  · simp [hm]

end Sys2Proof.Machine
end

