-- ==== Sys2Proof/Laws/Core.lean ====
section
/-! SUPPORT. What an instruction of a core does: when it issues, where the pc goes, what an exception saves. -/

namespace Sys2Proof.Machine

/-- Only EVENING with fault status that wakes the device changes at the end of a command. -/
theorem State.settle_eq {s : State} (h : s.dev ≠ stEvening) : s.settle = s := by
  simp [State.settle, h]

/-- The core clock does not run in EVENING. -/
theorem State.dev_of_clock {s : State} (h : s.coreClock = true) : s.dev ≠ stEvening := by
  simp only [State.coreClock, Bool.and_eq_true, decide_eq_true_eq] at h
  have := h.2
  unfold stDusk at this
  unfold stEvening
  omega

theorem State.live_of_issue {s : State} {n : Fin 12} (h : s.canIssue n = true) : s.coreLive n = true := by
  simp only [State.canIssue, State.atBoundary, Bool.and_eq_true] at h
  exact h.1.1

theorem State.clock_of_live {s : State} {n : Fin 12} (h : s.coreLive n = true) : s.coreClock = true := by
  simp only [State.coreLive, Bool.and_eq_true] at h
  exact h.1.1

theorem State.issue_eq {s : State} {n : Fin 12} (h : s.issues n) (f : State → State) : s.issue n f = f s := by
  have hc := h.1
  simp only [State.canIssue, Bool.and_eq_true, Option.isNone_iff_eq_none] at hc
  simp [State.issue, hc.1, hc.2, h.2]

theorem State.nextPc_eq {s : State} {n : Fin 12} (h : (s.core n).pc + 4 < 0x10000) :
    s.nextPc n = (s.retired n).updCore n fun c => { c with pc := (s.core n).pc + 4 } := by
  have : ((s.retired n).core n).pc = (s.core n).pc := rfl
  simp only [State.nextPc, this]
  rw [if_pos h]

/-- An instruction that computes a register retires. -/
theorem State.retires_setX (s : State) (n : Fin 12) (rd : Fin 32) (v : Word) (pc : Nat) :
    s.Retires n rd v pc (((s.setX n rd v).retired n).updCore n fun c => { c with pc := pc }) := by
  have hc : ∀ m, (((s.setX n rd v).retired n).updCore n fun c => { c with pc := pc }).core m =
      if m = n then { (s.setX n rd v).core n with pc := pc } else (s.setX n rd v).core m := fun m => by
    rw [State.core_updCore]; rfl
  refine ⟨fun r => ?_, ?_, fun m hm => ?_, ?_⟩
  · unfold State.getX
    rw [hc, if_pos rfl]
    have := State.getX_setX s n n rd r v
    unfold State.getX at this
    simp only [true_and] at this
    show (if r = 0 then (0 : Word) else ((s.setX n rd v).core n).x[r]) = _
    rw [this]
    by_cases h : r = rd
    · subst h; simp
    · simp [h]
  · rw [hc, if_pos rfl, State.core_setX]
    split <;> rfl
  · rw [hc, if_neg hm, State.core_setX, if_neg (by simp [hm])]
  · unfold State.setX
    split <;> rfl

/-- An instruction whose effect is one register. -/
theorem State.issueNext_setX {s : State} {n : Fin 12} (h : s.issues n) (hp : (s.core n).pc + 4 < 0x10000) (rd : Fin 32) (v : Word) :
    ∃ t, ok (s.issueNext n fun s => s.setX n rd v) = .next t ∧ s.Retires n rd v ((s.core n).pc + 4) t := by
  have e : ((s.setX n rd v).core n).pc = (s.core n).pc := by rw [State.core_setX]; split <;> rfl
  refine ⟨_, ?_, State.retires_setX s n rd v _⟩
  simp only [ok, State.issueNext, State.issue_eq h]
  rw [State.nextPc_eq (by rw [e]; exact hp), e, State.settle_eq]
  have := State.dev_of_clock (State.clock_of_live (State.live_of_issue h.1))
  unfold State.setX
  split <;> exact this

end Sys2Proof.Machine
end

