-- ==== Sys2Proof/Laws/Keeps.lean ====
section
/-! SUPPORT. The few operations that touch the queue, the memories, the registers and the cores keep what `Keeps` says; every other
operation is made of them. -/

namespace Sys2Proof.Machine

theorem Keeps.refl (s : State) : Keeps s s := ⟨rfl, id⟩

theorem Keeps.trans {r s t : State} (h : Keeps r s) (h' : Keeps s t) : Keeps r t := ⟨h'.1.trans h.1, h'.2 ∘ h.2⟩

theorem keeps_ite {c : Prop} [Decidable c] {r s t : State} (hs : c → Keeps r s) (ht : ¬c → Keeps r t) :
    Keeps r (if c then s else t) := by
  split
  · exact hs ‹_›
  · exact ht ‹_›

/-- A change to the other fields. -/
theorem Keeps.same {r s t : State} (h : Keeps r s) (e : (t.pending, t.regs, t.mem, t.dieEpoch, t.dramEpoch, t.nvm, t.nvme, t.hostMem) =
    (s.pending, s.regs, s.mem, s.dieEpoch, s.dramEpoch, s.nvm, s.nvme, s.hostMem)) (hc : t.cores = s.cores) : Keeps r t := by
  simp only [Prod.mk.injEq] at e
  obtain ⟨e1, e2, e3, e4, e5, e6, e7, e8⟩ := e
  refine ⟨e1.trans h.1, fun hr => ?_⟩
  obtain ⟨⟨h1, h2, h3, h4, h5⟩, h6⟩ := h.2 hr
  exact ⟨⟨e2 ▸ h1, by unfold Memory.wf; rw [e3, e4, e5]; exact h2, e6 ▸ h3, e7 ▸ h4, e8 ▸ h5⟩, fun n => by
    have := h6 n; simpa only [State.core, hc] using this⟩

/-- Every field but those that matter takes a new value. -/
theorem keeps_mk {o s : State} {meridian : Nat} {clock : Nat} {lockAt : Nat} {slewRun : Nat} {firstAt : List (Nat × Nat)} {badAt : List Nat}
    {aon : AonX} {nowShadow : Vector RegWord 15} {alarmArmed : Bool} {bootClear : Bool} {imageLoaded : Bool} {released : Bool} {faultWake :
    Bool} {due : DueX} {pend : List Cmd} {psq : PsqX} {jrn : JrnX} {vsp : VspX} {fin : FinX} {fab : FabX} {hst : HstX} {pmx : PmxX} {plain :
    PlainX} {str : Vector StrX 8} {vale : ValeX} {mmq : List Mismatch} {btm : Vector BtmX 8} {lsi : LsiX} {bmk : Vector BmkX 8} {bld :
    Vector BldX 24} {stp : Vector StpX 48} {lanes : Vector (Option LaneJob) 4} {dma : Vector (Option DmaJob) 16} {dmaNext : Nat} {pra :
    PraX} {sense : SenseX} {pwr : PwrX} {thm : ThmX} {csm : CsmX} {xsp : XspX} {pmc : PmcX} {mgt : MgtX} (h : Keeps o s) :
    Keeps o { s with
      meridian := meridian
      clock := clock
      lockAt := lockAt
      slewRun := slewRun
      firstAt := firstAt
      badAt := badAt
      aon := aon
      nowShadow := nowShadow
      alarmArmed := alarmArmed
      bootClear := bootClear
      imageLoaded := imageLoaded
      released := released
      faultWake := faultWake
      due := due
      pend := pend
      psq := psq
      jrn := jrn
      vsp := vsp
      fin := fin
      fab := fab
      hst := hst
      pmx := pmx
      plain := plain
      str := str
      vale := vale
      mmq := mmq
      btm := btm
      lsi := lsi
      bmk := bmk
      bld := bld
      stp := stp
      lanes := lanes
      dma := dma
      dmaNext := dmaNext
      pra := pra
      sense := sense
      pwr := pwr
      thm := thm
      csm := csm
      xsp := xsp
      pmc := pmc
      mgt := mgt
    } :=
  h.same rfl rfl

theorem keeps_foldl {α : Type} {l : List α} {r s : State} {f : State → α → State} (h : Keeps r s)
    (hf : ∀ s x, Keeps r s → Keeps r (f s x)) : Keeps r (l.foldl f s) := by
  induction l generalizing s with
  | nil => exact h
  | cons x l ih => exact ih (hf s x h)

theorem keeps_forEach {α : Type} {l : List α} {r s : State} {f : State → α → State} (h : Keeps r s)
    (hf : ∀ s x, Keeps r s → Keeps r (f s x)) : Keeps r (forEach l s f) := keeps_foldl h hf

theorem keeps_forUpTo {n : Nat} {r s : State} {f : State → Nat → State} (h : Keeps r s)
    (hf : ∀ s x, Keeps r s → Keeps r (f s x)) : Keeps r (forUpTo n s f) := keeps_foldl h hf

theorem foldl_keeps {α β : Type} {P : β → Prop} {l : List α} {b : β} {f : β → α → β} (h : P b) (hf : ∀ b x, P b → P (f b x)) :
    P (l.foldl f b) := by
  induction l generalizing b with
  | nil => exact h
  | cons x l ih => exact ih (hf b x h)

theorem State.setReg_keeps {r s : State} (off : Nat) (w : RegWord) (h : Keeps r s) : Keeps r (s.setReg off w) :=
  ⟨h.1, fun hr => ⟨{ (h.2 hr).canonical with regs := sparseSet_wf _ (h.2 hr).canonical.regs off w }, (h.2 hr).cores⟩⟩

theorem State.writeByte_keeps {r s : State} (a : Nat) (b : Byte) (h : Keeps r s) : Keeps r (s.writeByte a b) :=
  ⟨h.1, fun hr => ⟨{ (h.2 hr).canonical with mem := sparseSet_wf _ (h.2 hr).canonical.mem a b }, (h.2 hr).cores⟩⟩

theorem storeWrite_wf {d : Nat → Byte} (bs : List Byte) {m : List Host.Cell} {a : Nat} (h : sparseWf d m) :
    sparseWf d (storeWrite d m a bs) := by
  induction bs generalizing m a with
  | nil => exact h
  | cons b bs ih => exact ih (sparseSet_wf _ h a b)

theorem State.nvmWrite_keeps {r s : State} (a : Nat) (bs : List Byte) (h : Keeps r s) : Keeps r (s.nvmWrite a bs) :=
  ⟨h.1, fun hr => ⟨{ (h.2 hr).canonical with nvm := storeWrite_wf bs (h.2 hr).canonical.nvm }, (h.2 hr).cores⟩⟩

theorem State.nvmeWrite_keeps {r s : State} (a : Nat) (bs : List Byte) (h : Keeps r s) : Keeps r (s.nvmeWrite a bs) :=
  ⟨h.1, fun hr => ⟨{ (h.2 hr).canonical with nvme := storeWrite_wf bs (h.2 hr).canonical.nvme }, (h.2 hr).cores⟩⟩

theorem State.hostWrite_keeps {r s : State} (a : Nat) (bs : List Byte) (h : Keeps r s) : Keeps r (s.hostWrite a bs) :=
  ⟨h.1, fun hr => ⟨{ (h.2 hr).canonical with hostMem := storeWrite_wf bs (h.2 hr).canonical.hostMem }, (h.2 hr).cores⟩⟩

theorem State.updCore_keeps {r s : State} {n : Fin 12} {f : CoreX → CoreX} (h : Keeps r s) (hf : ∀ c, c.Sound → (f c).Sound) :
    Keeps r (s.updCore n f) :=
  ⟨h.1, fun hr => ⟨⟨(h.2 hr).canonical.1, (h.2 hr).canonical.2, (h.2 hr).canonical.3, (h.2 hr).canonical.4,
    (h.2 hr).canonical.5⟩, fun m => by
    rw [State.core_updCore]
    split
    · exact hf _ ((h.2 hr).cores n)
    · exact (h.2 hr).cores m⟩⟩

/-- As `updCore_keeps`, where the change leaves the one core sound. -/
theorem State.updCore_at {r s : State} {n : Fin 12} {f : CoreX → CoreX} (h : Keeps r s)
    (hf : s.Sound → (f (s.core n)).Sound) : Keeps r (s.updCore n f) :=
  ⟨h.1, fun hr => ⟨⟨(h.2 hr).canonical.1, (h.2 hr).canonical.2, (h.2 hr).canonical.3, (h.2 hr).canonical.4,
    (h.2 hr).canonical.5⟩, fun m => by
    rw [State.core_updCore]
    split
    · exact hf (h.2 hr)
    · exact (h.2 hr).cores m⟩⟩

theorem keeps_id {o s : State} (h : Keeps o s) : Keeps o (id s) := h

theorem CoreX.sound_default (l : List (Nat × RegWord)) : CoreX.Sound { posted := l } :=
  ⟨rfl, ⟨by simp, by simp⟩, ⟨by simp, by simp⟩, by simp, by simp⟩

theorem CoreX.popShev_sound {c : CoreX} (h : c.Sound) : c.popShev.Sound :=
  ⟨h.1, h.2, h.3, h.4, by have := h.5; simp only [CoreX.popShev, List.length_tail]; omega⟩

theorem bitsOf_lt (w lsb width : Nat) : bitsOf w lsb width < 2 ^ width := Nat.mod_lt _ (Nat.two_pow_pos _)

theorem CoreX.writeReg_sound {c : CoreX} (num v : Nat) (h : c.Sound) : (c.writeReg num v).Sound := by
  have h14 := bitsOf_lt v 2 14
  have h8 := bitsOf_lt v 8 8
  unfold CoreX.writeReg
  split
  all_goals first
    | exact h
    | exact ⟨h.1, h.2, h.3, h.4, h.5⟩
    | exact ⟨h.1, h.2, ⟨by simp only; omega, by simp only; omega⟩, h.4, h.5⟩
    | exact ⟨h.1, h.2, h.3, h8, h.5⟩
    | skip
  · split <;> exact ⟨h.1, h.2, h.3, h.4, h.5⟩
  · have hp := CoreX.popShev_sound h
    dsimp only
    split <;> split <;> first
      | exact h
      | exact hp
      | exact ⟨h.1, h.2, h.3, h.4, h.5⟩
      | exact ⟨hp.1, hp.2, hp.3, hp.4, hp.5⟩

theorem State.writeLE_keeps {r : State} (n : Nat) {s : State} {a v : Nat} (h : Keeps r s) : Keeps r (s.writeLE a n v) := by
  induction n generalizing s a v with
  | zero => exact h
  | succ n ih => exact ih (State.writeByte_keeps _ _ h)

theorem State.writeBytes_keeps {r : State} (bs : List Byte) {s : State} {a : Nat} (h : Keeps r s) : Keeps r (s.writeBytes a bs) := by
  induction bs generalizing s a with
  | nil => exact h
  | cons b bs ih => exact ih (State.writeByte_keeps _ _ h)

end Sys2Proof.Machine
end

