-- ==== Sys2Proof/Laws/KeepsOps.lean ====
section
/-! SUPPORT. What `Keeps` says holds of every operation of Ops.lean. -/

namespace Sys2Proof.Machine

theorem State.wr_keeps {o : State} {s : State} {f : Fld} {v : Nat} (hs : Keeps o s) :
    Keeps o (State.wr s f v) := by
  unfold State.wr
  try dsimp only
  repeat' first
    | with_reducible assumption
    | intro _
    | with_reducible apply State.setReg_keeps
    | split

theorem State.wrw_keeps {o : State} {s : State} {off v : Nat} (hs : Keeps o s) :
    Keeps o (State.wrw s off v) := by
  unfold State.wrw
  try dsimp only
  repeat' first
    | with_reducible assumption
    | intro _
    | with_reducible apply State.setReg_keeps
    | split

theorem State.wr64_keeps {o : State} {s : State} {lo hi v : Nat} (hs : Keeps o s) :
    Keeps o (State.wr64 s lo hi v) := by
  unfold State.wr64
  try dsimp only
  repeat' first
    | with_reducible assumption
    | intro _
    | with_reducible apply State.wrw_keeps
    | split

theorem State.inc_keeps {o : State} {s : State} {f : Fld} (hs : Keeps o s) :
    Keeps o (State.inc s f) := by
  unfold State.inc
  try dsimp only
  repeat' first
    | with_reducible assumption
    | intro _
    | with_reducible apply State.wr_keeps
    | split

theorem State.addTo_keeps {o : State} {s : State} {f : Fld} {n : Nat} (hs : Keeps o s) :
    Keeps o (State.addTo s f n) := by
  unfold State.addTo
  try dsimp only
  repeat' first
    | with_reducible assumption
    | intro _
    | with_reducible apply State.wr_keeps
    | split

theorem State.incSat_keeps {o : State} {s : State} {f : Fld} (hs : Keeps o s) :
    Keeps o (State.incSat s f) := by
  unfold State.incSat
  try dsimp only
  repeat' first
    | with_reducible assumption
    | intro _
    | with_reducible apply keeps_ite
    | with_reducible apply State.inc_keeps
    | split

theorem State.plainWrite_keeps {o : State} {s : State} {off v : Nat} (hs : Keeps o s) :
    Keeps o (State.plainWrite s off v) := by
  unfold State.plainWrite
  try dsimp only
  repeat' first
    | with_reducible assumption
    | intro _
    | with_reducible apply State.wrw_keeps
    | split

theorem State.goTo_keeps {o : State} {s : State} {d : Nat} (hs : Keeps o s) :
    Keeps o (State.goTo s d) := by
  unfold State.goTo
  try dsimp only
  repeat' first
    | with_reducible assumption
    | intro _
    | with_reducible apply State.wr_keeps
    | split

theorem State.count_keeps {o : State} {s : State} {ev idx n : Nat} (hs : Keeps o s) :
    Keeps o (State.count s ev idx n) := by
  unfold State.count
  try dsimp only
  repeat' first
    | with_reducible assumption
    | intro _
    | split
    | (with_reducible apply keeps_mk) <;> first
      | with_reducible assumption
      | intro _
      | split

end Sys2Proof.Machine
end

