-- ==== Sys2Proof/Laws/KeepsFlags.lean ====
section
/-! SUPPORT. What `Keeps` says holds of every operation of Flags.lean. -/

namespace Sys2Proof.Machine

theorem State.msixSend_keeps {o : State} {s : State} {v : Nat} (hs : Keeps o s) :
    Keeps o (State.msixSend s v) := by
  unfold State.msixSend
  try dsimp only
  repeat' first
    | with_reducible assumption
    | intro _
    | with_reducible apply keeps_ite
    | split
    | (with_reducible apply keeps_mk) <;> first
      | with_reducible assumption
      | intro _
      | with_reducible apply keeps_ite
      | split

theorem State.faultHeld_keeps {o : State} {s : State} {b : Nat} {was : Bool} (hs : Keeps o s) :
    Keeps o (State.faultHeld s b was) := by
  unfold State.faultHeld
  try dsimp only
  repeat' first
    | with_reducible assumption
    | intro _
    | with_reducible apply keeps_ite
    | with_reducible apply State.wr_keeps
    | with_reducible apply State.msixSend_keeps
    | split
    | (with_reducible apply keeps_mk) <;> first
      | with_reducible assumption
      | intro _
      | with_reducible apply keeps_ite
      | with_reducible apply State.wr_keeps
      | with_reducible apply State.msixSend_keeps
      | split

theorem State.raiseAll_keeps {o : State} {s : State} {st : Nat} {l : List Nat} (hs : Keeps o s) :
    Keeps o (State.raiseAll s st l) := by
  unfold State.raiseAll
  try dsimp only
  repeat' first
    | with_reducible assumption
    | intro _
    | with_reducible apply keeps_foldl
    | with_reducible apply keeps_ite
    | with_reducible apply State.faultHeld_keeps
    | with_reducible apply State.wrw_keeps
    | split
    | (with_reducible apply keeps_mk) <;> first
      | with_reducible assumption
      | intro _
      | with_reducible apply keeps_foldl
      | with_reducible apply keeps_ite
      | with_reducible apply State.faultHeld_keeps
      | with_reducible apply State.wrw_keeps
      | split

theorem State.raise_keeps {o : State} {s : State} {st i : Nat} (hs : Keeps o s) :
    Keeps o (State.raise s st i) := by
  unfold State.raise
  try dsimp only
  repeat' first
    | with_reducible assumption
    | intro _
    | with_reducible apply State.raiseAll_keeps
    | split

theorem State.raiseInst_keeps {o : State} {s : State} {st i : Nat} {inst : Fld} {n : Nat} (hs : Keeps o s) :
    Keeps o (State.raiseInst s st i inst n) := by
  unfold State.raiseInst
  try dsimp only
  repeat' first
    | with_reducible assumption
    | intro _
    | with_reducible apply keeps_ite
    | with_reducible apply State.raise_keeps
    | with_reducible apply State.wr_keeps
    | split

theorem State.clearStatus_keeps {o : State} {s : State} {st v : Nat} (hs : Keeps o s) :
    Keeps o (State.clearStatus s st v) := by
  unfold State.clearStatus
  try dsimp only
  repeat' first
    | with_reducible assumption
    | intro _
    | with_reducible apply State.wrw_keeps
    | split

theorem State.writeIrqEn_keeps {o : State} {s : State} {st v : Nat} (hs : Keeps o s) :
    Keeps o (State.writeIrqEn s st v) := by
  unfold State.writeIrqEn
  try dsimp only
  repeat' first
    | with_reducible assumption
    | intro _
    | with_reducible apply State.faultHeld_keeps
    | with_reducible apply State.plainWrite_keeps
    | split

end Sys2Proof.Machine
end

