-- ==== Sys2Proof/Laws/KeepsRecords.lean ====
section
/-! SUPPORT. What `Keeps` says holds of every operation of Records.lean. -/

namespace Sys2Proof.Machine

theorem State.vesper_keeps {o : State} {s : State} {code flags src p0 p1 p2 p3 : Nat} (hs : Keeps o s) :
    Keeps o (State.vesper s code flags src p0 p1 p2 p3) := by
  unfold State.vesper
  try dsimp only
  repeat' first
    | with_reducible assumption
    | intro _
    | with_reducible apply keeps_ite
    | with_reducible apply State.raise_keeps
    | with_reducible apply State.inc_keeps
    | split
    | (with_reducible apply keeps_mk) <;> first
      | with_reducible assumption
      | intro _
      | with_reducible apply keeps_ite
      | with_reducible apply State.raise_keeps
      | with_reducible apply State.inc_keeps
      | split

theorem State.vesperAo_keeps {o : State} {s : State} {code p0 p1 p2 p3 : Nat} (hs : Keeps o s) :
    Keeps o (State.vesperAo s code p0 p1 p2 p3) := by
  unfold State.vesperAo
  try dsimp only
  repeat' first
    | with_reducible assumption
    | intro _
    | with_reducible apply State.vesper_keeps
    | split

theorem State.fabQueue_keeps {o : State} {s : State} {port : Nat} {m : FabMsg} (hs : Keeps o s) :
    Keeps o (State.fabQueue s port m) := by
  unfold State.fabQueue
  try dsimp only
  repeat' first
    | with_reducible assumption
    | intro _
    | with_reducible apply keeps_ite
    | with_reducible apply State.raise_keeps
    | with_reducible apply State.inc_keeps
    | with_reducible apply State.addTo_keeps
    | with_reducible apply State.count_keeps
    | split
    | (with_reducible apply keeps_mk) <;> first
      | with_reducible assumption
      | intro _
      | with_reducible apply keeps_ite
      | with_reducible apply State.raise_keeps
      | with_reducible apply State.inc_keeps
      | with_reducible apply State.addTo_keeps
      | with_reducible apply State.count_keeps
      | split

theorem State.fabEvent_keeps {o : State} {s : State} {m : FabMsg} (hs : Keeps o s) :
    Keeps o (State.fabEvent s m) := by
  unfold State.fabEvent
  try dsimp only
  repeat' first
    | with_reducible assumption
    | intro _
    | with_reducible apply State.fabQueue_keeps
    | with_reducible apply State.inc_keeps
    | split

theorem State.leqPush_keeps {o : State} {s : State} {e : LateErr} (hs : Keeps o s) :
    Keeps o (State.leqPush s e) := by
  unfold State.leqPush
  try dsimp only
  repeat' first
    | with_reducible assumption
    | intro _
    | with_reducible apply keeps_ite
    | with_reducible apply State.raise_keeps
    | with_reducible apply State.inc_keeps
    | split
    | (with_reducible apply keeps_mk) <;> first
      | with_reducible assumption
      | intro _
      | with_reducible apply keeps_ite
      | with_reducible apply State.raise_keeps
      | with_reducible apply State.inc_keeps
      | split

theorem State.writeFailed_keeps {o : State} {s : State} {src tag addr code : Nat} (hs : Keeps o s) :
    Keeps o (State.writeFailed s src tag addr code) := by
  unfold State.writeFailed
  try dsimp only
  repeat' first
    | with_reducible assumption
    | intro _
    | with_reducible apply State.vesper_keeps
    | split

theorem State.lateError_keeps {o : State} {s : State} {src tag addr code : Nat} (hs : Keeps o s) :
    Keeps o (State.lateError s src tag addr code) := by
  unfold State.lateError
  try dsimp only
  repeat' first
    | with_reducible assumption
    | intro _
    | with_reducible apply State.fabEvent_keeps
    | with_reducible apply State.writeFailed_keeps
    | split

theorem State.fabWrite_keeps {o : State} {s : State} {dst tag addr : Nat} {payload : List Byte} (hs : Keeps o s) :
    Keeps o (State.fabWrite s dst tag addr payload) := by
  unfold State.fabWrite
  try dsimp only
  repeat' first
    | with_reducible assumption
    | intro _
    | with_reducible apply State.fabQueue_keeps
    | with_reducible apply State.leqPush_keeps
    | with_reducible apply State.writeFailed_keeps
    | split

theorem State.mirror_keeps {o : State} {s : State} {e : JrnEntry} (hs : Keeps o s) :
    Keeps o (State.mirror s e) := by
  unfold State.mirror
  try dsimp only
  repeat' first
    | with_reducible assumption
    | intro _
    | with_reducible apply keeps_ite
    | with_reducible apply State.fabWrite_keeps
    | split
    | (with_reducible apply keeps_mk) <;> first
      | with_reducible assumption
      | intro _
      | with_reducible apply keeps_ite
      | with_reducible apply State.fabWrite_keeps
      | split

theorem State.jrnNumber_keeps {o : State} {s : State} {e : JrnEntry} (hs : Keeps o s) :
    Keeps o (State.jrnNumber s e) := by
  unfold State.jrnNumber
  try dsimp only
  repeat' first
    | with_reducible assumption
    | intro _
    | with_reducible apply keeps_ite
    | with_reducible apply State.wr64_keeps
    | with_reducible apply State.mirror_keeps
    | split
    | (with_reducible apply keeps_mk) <;> first
      | with_reducible assumption
      | intro _
      | with_reducible apply keeps_ite
      | with_reducible apply State.wr64_keeps
      | with_reducible apply State.mirror_keeps
      | split

theorem State.ringLoss_keeps {o : State} {s : State} (hs : Keeps o s) :
    Keeps o (State.ringLoss s) := by
  unfold State.ringLoss
  try dsimp only
  repeat' first
    | with_reducible assumption
    | intro _
    | with_reducible apply keeps_ite
    | with_reducible apply State.jrnNumber_keeps
    | split
    | (with_reducible apply keeps_mk) <;> first
      | with_reducible assumption
      | intro _
      | with_reducible apply keeps_ite
      | with_reducible apply State.jrnNumber_keeps
      | split

theorem State.jrnDevice_keeps {o : State} {s : State} {e : JrnEntry} (hs : Keeps o s) :
    Keeps o (State.jrnDevice s e) := by
  unfold State.jrnDevice
  try dsimp only
  repeat' first
    | with_reducible assumption
    | intro _
    | with_reducible apply keeps_ite
    | with_reducible apply State.raise_keeps
    | with_reducible apply State.inc_keeps
    | with_reducible apply State.wr64_keeps
    | with_reducible apply State.jrnNumber_keeps
    | with_reducible apply State.ringLoss_keeps
    | split
    | (with_reducible apply keeps_mk) <;> first
      | with_reducible assumption
      | intro _
      | with_reducible apply keeps_ite
      | with_reducible apply State.raise_keeps
      | with_reducible apply State.inc_keeps
      | with_reducible apply State.wr64_keeps
      | with_reducible apply State.jrnNumber_keeps
      | with_reducible apply State.ringLoss_keeps
      | split

theorem State.jrnOutcome_keeps {o : State} {s : State} {kind reason sheetSeq page tag : Nat} (hs : Keeps o s) :
    Keeps o (State.jrnOutcome s kind reason sheetSeq page tag) := by
  unfold State.jrnOutcome
  try dsimp only
  repeat' first
    | with_reducible assumption
    | intro _
    | with_reducible apply State.jrnDevice_keeps
    | split

theorem State.jrnBoot_keeps {o : State} {s : State} (hs : Keeps o s) :
    Keeps o (State.jrnBoot s) := by
  unfold State.jrnBoot
  try dsimp only
  repeat' first
    | with_reducible assumption
    | intro _
    | with_reducible apply State.jrnDevice_keeps
    | split

theorem State.shevPush_keeps {o : State} {s : State} {n : Fin 12} {e : ShEv} (hs : Keeps o s) :
    Keeps o (State.shevPush s n e) := by
  refine State.updCore_keeps hs fun c h => ?_
  split
  · refine ⟨h.1, h.2, h.3, h.4, ?_⟩
    simp only [List.length_append, List.length_cons, List.length_nil]
    omega
  · exact ⟨h.1, h.2, h.3, h.4, h.5⟩

theorem State.hostEvent_keeps {o : State} {s : State} {seq tag code spec reason : Nat} (hs : Keeps o s) :
    Keeps o (State.hostEvent s seq tag code spec reason) := by
  unfold State.hostEvent
  try dsimp only
  repeat' first
    | with_reducible assumption
    | intro _
    | with_reducible apply keeps_ite
    | with_reducible apply State.raise_keeps
    | with_reducible apply State.msixSend_keeps
    | with_reducible apply State.wr_keeps
    | with_reducible apply State.hostWrite_keeps
    | split

theorem State.finEvent_keeps {o : State} {s : State} {seq code spec reason : Nat} (hs : Keeps o s) :
    Keeps o (State.finEvent s seq code spec reason) := by
  unfold State.finEvent
  try dsimp only
  repeat' first
    | with_reducible assumption
    | intro _
    | with_reducible apply keeps_ite
    | split
    | (with_reducible apply keeps_mk) <;> first
      | with_reducible assumption
      | intro _
      | with_reducible apply keeps_ite
      | split

theorem State.fabSheetEvent_keeps {o : State} {s : State} {dev seq tag code spec reason : Nat} (hs : Keeps o s) :
    Keeps o (State.fabSheetEvent s dev seq tag code spec reason) := by
  unfold State.fabSheetEvent
  try dsimp only
  repeat' first
    | with_reducible assumption
    | intro _
    | with_reducible apply State.fabEvent_keeps
    | split

theorem State.csmInc_keeps {o : State} {s : State} {u : Nat} (hs : Keeps o s) :
    Keeps o (State.csmInc s u) := by
  unfold State.csmInc
  try dsimp only
  repeat' first
    | with_reducible assumption
    | intro _
    | with_reducible apply keeps_ite
    | with_reducible apply State.incSat_keeps
    | split

theorem State.csmPage_keeps {o : State} {s : State} {mask : Nat} (hs : Keeps o s) :
    Keeps o (State.csmPage s mask) := by
  unfold State.csmPage
  try dsimp only
  repeat' first
    | with_reducible assumption
    | intro _
    | with_reducible apply keeps_forUpTo
    | with_reducible apply keeps_ite
    | with_reducible apply State.csmInc_keeps
    | split

end Sys2Proof.Machine
end

