-- ==== Sys2Proof/Laws/KeepsPlain.lean ====
section
/-! SUPPORT. What `Keeps` says holds of every operation of Plain.lean. -/

namespace Sys2Proof.Machine

theorem State.extSet_keeps {o : State} {s : State} {e lsb width v : Nat} (hs : Keeps o s) :
    Keeps o (State.extSet s e lsb width v) := by
  unfold State.extSet
  try dsimp only
  repeat' first
    | with_reducible assumption
    | intro _
    | with_reducible apply State.writeLE_keeps
    | split

theorem State.loadInto_keeps {o : State} {s : State} {e f : Nat} (hs : Keeps o s) :
    Keeps o (State.loadInto s e f) := by
  unfold State.loadInto
  try dsimp only
  repeat' first
    | with_reducible assumption
    | intro _
    | with_reducible apply State.extSet_keeps
    | split
    | (with_reducible apply keeps_mk) <;> first
      | with_reducible assumption
      | intro _
      | with_reducible apply State.extSet_keeps
      | split

theorem State.loadWaits_keeps {o : State} {s : State} {e : Nat} (hs : Keeps o s) :
    Keeps o (State.loadWaits s e) := by
  unfold State.loadWaits
  try dsimp only
  repeat' first
    | with_reducible assumption
    | intro _
    | with_reducible apply keeps_ite
    | split
    | (with_reducible apply keeps_mk) <;> first
      | with_reducible assumption
      | intro _
      | with_reducible apply keeps_ite
      | split

theorem State.load_keeps {o : State} {s : State} {e : Nat} (hs : Keeps o s) :
    Keeps o (State.load s e) := by
  unfold State.load
  try dsimp only
  repeat' first
    | with_reducible assumption
    | intro _
    | with_reducible apply keeps_ite
    | with_reducible apply State.loadInto_keeps
    | with_reducible apply State.raise_keeps
    | with_reducible apply State.loadWaits_keeps
    | with_reducible apply State.extSet_keeps
    | split
    | (with_reducible apply keeps_mk) <;> first
      | with_reducible assumption
      | intro _
      | with_reducible apply keeps_ite
      | with_reducible apply State.loadInto_keeps
      | with_reducible apply State.raise_keeps
      | with_reducible apply State.loadWaits_keeps
      | with_reducible apply State.extSet_keeps
      | split

theorem State.retryLoads_keeps {o : State} {s : State} (hs : Keeps o s) :
    Keeps o (State.retryLoads s) := by
  unfold State.retryLoads
  try dsimp only
  repeat' first
    | with_reducible assumption
    | intro _
    | with_reducible apply keeps_forEach
    | with_reducible apply State.load_keeps
    | split
    | (with_reducible apply keeps_mk) <;> first
      | with_reducible assumption
      | intro _
      | with_reducible apply keeps_forEach
      | with_reducible apply State.load_keeps
      | split

theorem State.copyIn_keeps {o : State} {s : State} {d : Nat → Byte} {m : List Host.Cell} {src dst n : Nat} (hs : Keeps o s) :
    Keeps o (State.copyIn s d m src dst n) := by
  unfold State.copyIn
  try dsimp only
  repeat' first
    | with_reducible assumption
    | intro _
    | with_reducible apply State.writeBytes_keeps
    | split

theorem State.ownSend_keeps {o : State} {s : State} {kind dst tag addr : Nat} {payload : List Byte} (hs : Keeps o s) :
    Keeps o (State.ownSend s kind dst tag addr payload).1 := by
  unfold State.ownSend
  try dsimp only
  repeat' first
    | with_reducible assumption
    | intro _
    | with_reducible apply State.fabQueue_keeps
    | split

theorem State.snoop_keeps {o : State} {s : State} {a : Nat} {intentO : Bool} (hs : Keeps o s) :
    Keeps o (State.snoop s a intentO) := by
  unfold State.snoop
  try dsimp only
  repeat' first
    | with_reducible assumption
    | intro _
    | with_reducible apply keeps_ite
    | with_reducible apply State.ownSend_keeps
    | with_reducible apply State.count_keeps
    | split
    | (with_reducible apply keeps_mk) <;> first
      | with_reducible assumption
      | intro _
      | with_reducible apply keeps_ite
      | with_reducible apply State.ownSend_keeps
      | with_reducible apply State.count_keeps
      | split

theorem State.plainTouch_keeps {o : State} {s : State} {a : Nat} (hs : Keeps o s) :
    Keeps o (State.plainTouch s a) := by
  unfold State.plainTouch
  try dsimp only
  repeat' first
    | with_reducible assumption
    | intro _
    | with_reducible apply keeps_ite
    | with_reducible apply State.raise_keeps
    | with_reducible apply State.load_keeps
    | with_reducible apply State.snoop_keeps
    | split

theorem State.pinExtent_keeps {o : State} {s : State} {p e : Nat} (hs : Keeps o s) :
    Keeps o (State.pinExtent s p e) := by
  unfold State.pinExtent
  try dsimp only
  repeat' first
    | with_reducible assumption
    | intro _
    | with_reducible apply keeps_ite
    | with_reducible apply State.extSet_keeps
    | with_reducible apply State.inc_keeps
    | split
    | (with_reducible apply keeps_mk) <;> first
      | with_reducible assumption
      | intro _
      | with_reducible apply keeps_ite
      | with_reducible apply State.extSet_keeps
      | with_reducible apply State.inc_keeps
      | split

theorem State.unpinExtent_keeps {o : State} {s : State} {e : Nat} (hs : Keeps o s) :
    Keeps o (State.unpinExtent s e) := by
  unfold State.unpinExtent
  try dsimp only
  repeat' first
    | with_reducible assumption
    | intro _
    | with_reducible apply keeps_ite
    | with_reducible apply State.extSet_keeps
    | with_reducible apply State.wr_keeps
    | split

theorem State.pinGranule_keeps {o : State} {s : State} {p a : Nat} (hs : Keeps o s) :
    Keeps o (State.pinGranule s p a) := by
  unfold State.pinGranule
  try dsimp only
  repeat' first
    | with_reducible assumption
    | intro _
    | with_reducible apply keeps_ite
    | with_reducible apply State.ownSend_keeps
    | split
    | (with_reducible apply keeps_mk) <;> first
      | with_reducible assumption
      | intro _
      | with_reducible apply keeps_ite
      | with_reducible apply State.ownSend_keeps
      | split

theorem State.unpinGranule_keeps {o : State} {s : State} {p : Nat} {g : Granule} (hs : Keeps o s) :
    Keeps o (State.unpinGranule s p g) := by
  unfold State.unpinGranule
  try dsimp only
  repeat' first
    | with_reducible assumption
    | intro _
    | with_reducible apply keeps_ite
    | with_reducible apply State.ownSend_keeps
    | split
    | (with_reducible apply keeps_mk) <;> first
      | with_reducible assumption
      | intro _
      | with_reducible apply keeps_ite
      | with_reducible apply State.ownSend_keeps
      | split

theorem State.unpinPage_keeps {o : State} {s : State} {p : Nat} (hs : Keeps o s) :
    Keeps o (State.unpinPage s p) := by
  unfold State.unpinPage
  try dsimp only
  repeat' first
    | with_reducible assumption
    | intro _
    | with_reducible apply keeps_forEach
    | with_reducible apply State.unpinExtent_keeps
    | with_reducible apply State.retryLoads_keeps
    | with_reducible apply State.unpinGranule_keeps
    | split
    | (with_reducible apply keeps_mk) <;> first
      | with_reducible assumption
      | intro _
      | with_reducible apply keeps_forEach
      | with_reducible apply State.unpinExtent_keeps
      | with_reducible apply State.retryLoads_keeps
      | with_reducible apply State.unpinGranule_keeps
      | split

theorem State.plainStore_keeps {o : State} {s : State} {a : Nat} {bs : List Byte} (hs : Keeps o s) :
    Keeps o (State.plainStore s a bs) := by
  unfold State.plainStore
  try dsimp only
  repeat' first
    | with_reducible assumption
    | intro _
    | with_reducible apply keeps_ite
    | with_reducible apply State.extSet_keeps
    | with_reducible apply State.writeBytes_keeps
    | split
    | (with_reducible apply keeps_mk) <;> first
      | with_reducible assumption
      | intro _
      | with_reducible apply keeps_ite
      | with_reducible apply State.extSet_keeps
      | with_reducible apply State.writeBytes_keeps
      | split

theorem State.plainPut_keeps {o : State} {s : State} {tag a : Nat} {bs : List Byte} (hs : Keeps o s) :
    Keeps o (State.plainPut s tag a bs) := by
  unfold State.plainPut
  try dsimp only
  repeat' first
    | with_reducible assumption
    | intro _
    | with_reducible apply keeps_ite
    | with_reducible apply State.plainStore_keeps
    | with_reducible apply State.fabWrite_keeps
    | split

end Sys2Proof.Machine
end

