-- ==== Sys2Proof/Laws/KeepsStrBase.lean ====
section
/-! SUPPORT. What `Keeps` says holds of every operation of StrBase.lean. -/

namespace Sys2Proof.Machine

theorem State.updStr_keeps {o : State} {s : State} {k : Nat} {f : StrX → StrX} (hs : Keeps o s) :
    Keeps o (State.updStr s k f) := by
  unfold State.updStr
  try dsimp only
  repeat' first
    | with_reducible assumption
    | intro _
    | split
    | (with_reducible apply keeps_mk) <;> first
      | with_reducible assumption
      | intro _
      | split

theorem State.dropHead_keeps {o : State} {s : State} {k : Nat} (hs : Keeps o s) :
    Keeps o (State.dropHead s k) := by
  unfold State.dropHead
  try dsimp only
  repeat' first
    | with_reducible assumption
    | intro _
    | with_reducible apply State.updStr_keeps
    | with_reducible apply State.wr_keeps
    | split

theorem State.withdraw_keeps {o : State} {s : State} {k : Nat} {p : StrEntry → Bool} (hs : Keeps o s) :
    Keeps o (State.withdraw s k p) := by
  unfold State.withdraw
  try dsimp only
  repeat' first
    | with_reducible assumption
    | intro _
    | with_reducible apply keeps_ite
    | with_reducible apply State.updStr_keeps
    | with_reducible apply State.dropHead_keeps
    | split

theorem State.withdrawAll_keeps {o : State} {s : State} {p : StrEntry → Bool} (hs : Keeps o s) :
    Keeps o (State.withdrawAll s p) := by
  unfold State.withdrawAll
  try dsimp only
  repeat' first
    | with_reducible assumption
    | intro _
    | with_reducible apply keeps_forUpTo
    | with_reducible apply State.withdraw_keeps
    | split

theorem State.retire_keeps {o : State} {s : State} {k t q : Nat} (hs : Keeps o s) :
    Keeps o (State.retire s k t q) := by
  unfold State.retire
  try dsimp only
  repeat' first
    | with_reducible assumption
    | intro _
    | with_reducible apply keeps_ite
    | with_reducible apply State.dropHead_keeps
    | with_reducible apply State.updStr_keeps
    | split

theorem State.absentDisc_keeps {o : State} {s : State} {r n : Nat} (hs : Keeps o s) :
    Keeps o (State.absentDisc s r n) := by
  unfold State.absentDisc
  try dsimp only
  repeat' first
    | with_reducible assumption
    | intro _
    | with_reducible apply keeps_ite
    | with_reducible apply State.raise_keeps
    | with_reducible apply State.addTo_keeps
    | split

theorem State.disarm_keeps {o : State} {s : State} {k : Nat} (hs : Keeps o s) :
    Keeps o (State.disarm s k) := by
  unfold State.disarm
  try dsimp only
  repeat' first
    | with_reducible assumption
    | intro _
    | with_reducible apply State.wr_keeps
    | with_reducible apply State.withdraw_keeps
    | split

end Sys2Proof.Machine
end

