-- ==== Sys2Proof/Laws/KeepsTim.lean ====
section
/-! SUPPORT. What `Keeps` says holds of every operation of Tim.lean. -/

namespace Sys2Proof.Machine

theorem State.advance_keeps {o : State} {s : State} {n : Nat} (hs : Keeps o s) :
    Keeps o (State.advance s n) := by
  unfold State.advance
  try dsimp only
  repeat' first
    | with_reducible assumption
    | intro _
    | with_reducible apply keeps_ite
    | split
    | (with_reducible apply keeps_mk) <;> first
      | with_reducible assumption
      | intro _
      | with_reducible apply keeps_ite
      | split

theorem State.slew_keeps {o : State} {s : State} {mode count : Nat} (hs : Keeps o s) :
    Keeps o (State.slew s mode count) := by
  unfold State.slew
  try dsimp only
  repeat' first
    | with_reducible assumption
    | intro _
    | with_reducible apply keeps_ite
    | with_reducible apply State.wr_keeps
    | split
    | (with_reducible apply keeps_mk) <;> first
      | with_reducible assumption
      | intro _
      | with_reducible apply keeps_ite
      | with_reducible apply State.wr_keeps
      | split

theorem State.slewWrite_keeps {o : State} {s : State} {v : Nat} (hs : Keeps o s) :
    Keeps o (State.slewWrite s v) := by
  unfold State.slewWrite
  try dsimp only
  repeat' first
    | with_reducible assumption
    | intro _
    | with_reducible apply State.slew_keeps
    | split

theorem State.slewTick_keeps {o : State} {s : State} (hs : Keeps o s) :
    Keeps o (State.slewTick s) := by
  unfold State.slewTick
  try dsimp only
  repeat' first
    | with_reducible assumption
    | intro _
    | with_reducible apply keeps_ite
    | with_reducible apply State.advance_keeps
    | with_reducible apply State.wr_keeps
    | split
    | (with_reducible apply keeps_mk) <;> first
      | with_reducible assumption
      | intro _
      | with_reducible apply keeps_ite
      | with_reducible apply State.advance_keeps
      | with_reducible apply State.wr_keeps
      | split

theorem State.clockTick_keeps {o : State} {s : State} (hs : Keeps o s) :
    Keeps o (State.clockTick s) := by
  unfold State.clockTick
  try dsimp only
  repeat' first
    | with_reducible assumption
    | intro _
    | with_reducible apply keeps_ite
    | with_reducible apply State.slewTick_keeps
    | with_reducible apply State.advance_keeps
    | split
    | (with_reducible apply keeps_mk) <;> first
      | with_reducible assumption
      | intro _
      | with_reducible apply keeps_ite
      | with_reducible apply State.slewTick_keeps
      | with_reducible apply State.advance_keeps
      | split

theorem State.forwardStep_keeps {o : State} {s : State} {n : Nat} (hs : Keeps o s) :
    Keeps o (State.forwardStep s n) := by
  unfold State.forwardStep
  try dsimp only
  repeat' first
    | with_reducible assumption
    | intro _
    | with_reducible apply keeps_ite
    | with_reducible apply State.advance_keeps
    | with_reducible apply State.raise_keeps
    | split

theorem State.stepWrite_keeps {o : State} {s : State} {v : Nat} (hs : Keeps o s) :
    Keeps o (State.stepWrite s v) := by
  unfold State.stepWrite
  try dsimp only
  repeat' first
    | with_reducible assumption
    | intro _
    | with_reducible apply State.forwardStep_keeps
    | split

theorem State.timCtrl_keeps {o : State} {s : State} {v : Nat} (hs : Keeps o s) :
    Keeps o (State.timCtrl s v) := by
  unfold State.timCtrl
  try dsimp only
  repeat' first
    | with_reducible assumption
    | intro _
    | with_reducible apply keeps_ite
    | with_reducible apply State.plainWrite_keeps
    | split
    | (with_reducible apply keeps_mk) <;> first
      | with_reducible assumption
      | intro _
      | with_reducible apply keeps_ite
      | with_reducible apply State.plainWrite_keeps
      | split

theorem State.alarmHalf_keeps {o : State} {s : State} {a1 v : Nat} (hs : Keeps o s) :
    Keeps o (State.alarmHalf s a1 v) := by
  unfold State.alarmHalf
  try dsimp only
  repeat' first
    | with_reducible assumption
    | intro _
    | with_reducible apply keeps_ite
    | with_reducible apply State.plainWrite_keeps
    | split
    | (with_reducible apply keeps_mk) <;> first
      | with_reducible assumption
      | intro _
      | with_reducible apply keeps_ite
      | with_reducible apply State.plainWrite_keeps
      | split

theorem State.timWrite_keeps {o : State} {s : State} {a1 v : Nat} (hs : Keeps o s) :
    Keeps o (State.timWrite s a1 v) := by
  unfold State.timWrite
  try dsimp only
  repeat' first
    | with_reducible assumption
    | intro _
    | with_reducible apply keeps_ite
    | with_reducible apply State.slewWrite_keeps
    | with_reducible apply State.stepWrite_keeps
    | with_reducible apply State.alarmHalf_keeps
    | with_reducible apply State.timCtrl_keeps
    | with_reducible apply State.clearStatus_keeps
    | with_reducible apply State.writeIrqEn_keeps
    | with_reducible apply State.plainWrite_keeps
    | split

end Sys2Proof.Machine
end

