-- ==== Sys2Proof/Laws/KeepsPsq.lean ====
section
/-! SUPPORT. What `Keeps` says holds of every operation of Psq.lean. -/

namespace Sys2Proof.Machine

theorem State.updSheet_keeps {o : State} {s : State} {t : Nat} {f : SheetX → SheetX} (hs : Keeps o s) :
    Keeps o (State.updSheet s t f) := by
  unfold State.updSheet
  try dsimp only
  repeat' first
    | with_reducible assumption
    | intro _
    | split
    | (with_reducible apply keeps_mk) <;> first
      | with_reducible assumption
      | intro _
      | split

theorem State.updPage_keeps {o : State} {s : State} {n : Nat} {f : PageX → PageX} (hs : Keeps o s) :
    Keeps o (State.updPage s n f) := by
  unfold State.updPage
  try dsimp only
  repeat' first
    | with_reducible assumption
    | intro _
    | split
    | (with_reducible apply keeps_mk) <;> first
      | with_reducible assumption
      | intro _
      | split

theorem State.acted_keeps {o : State} {s : State} {rank : Nat} (hs : Keeps o s) :
    Keeps o (State.acted s rank) := by
  unfold State.acted
  try dsimp only
  repeat' first
    | with_reducible assumption
    | intro _
    | split
    | (with_reducible apply keeps_mk) <;> first
      | with_reducible assumption
      | intro _
      | split

theorem State.turn_keeps {o : State} {s : State} {rank : Nat} {f : State → State} (hs : Keeps o s) (hf : ∀ (b0 : State), Keeps o b0 →
    Keeps o (f b0)) :
    Keeps o (State.turn s rank f) := by
  unfold State.turn
  try dsimp only
  repeat' first
    | with_reducible assumption
    | intro _
    | with_reducible apply hf
    | with_reducible apply keeps_ite
    | with_reducible apply State.acted_keeps
    | split

theorem State.sendOutcome_keeps {o : State} {s : State} {t a2 : Nat} {fin : Bool} (hs : Keeps o s) :
    Keeps o (State.sendOutcome s t a2 fin) := by
  unfold State.sendOutcome
  try dsimp only
  repeat' first
    | with_reducible assumption
    | intro _
    | with_reducible apply keeps_forEach
    | with_reducible apply keeps_ite
    | with_reducible apply State.shevPush_keeps
    | with_reducible apply State.hostEvent_keeps
    | with_reducible apply State.finEvent_keeps
    | with_reducible apply State.fabSheetEvent_keeps
    | split

theorem State.seeCore_keeps {o : State} {s : State} {t : Nat} {n : Fin 12} (hs : Keeps o s) :
    Keeps o (State.seeCore s t n) := by
  unfold State.seeCore
  try dsimp only
  repeat' first
    | with_reducible assumption
    | intro _
    | with_reducible apply State.wr_keeps
    | split

theorem State.seeFab_keeps {o : State} {s : State} {t d : Nat} (hs : Keeps o s) :
    ∀ z, State.seeFab s t d = some z → Keeps o z := by
  intro z h
  simp only [State.seeFab] at h
  split at h
  · exact Option.some.inj h ▸ hs
  · split at h
    all_goals first
      | exact Option.some.inj h ▸ State.wr_keeps (State.wr_keeps hs)
      | cases h

theorem State.enqueue_keeps {o : State} {s : State} {c : Cmd} {done : Nat} (hs : Keeps o s) :
    Keeps o (State.enqueue s c done) := by
  unfold State.enqueue
  try dsimp only
  repeat' first
    | with_reducible assumption
    | intro _
    | split
    | (with_reducible apply keeps_mk) <;> first
      | with_reducible assumption
      | intro _
      | split

theorem State.popCmd_keeps {o : State} {s : State} {b : Nat} (hs : Keeps o s) :
    Keeps o (State.popCmd s b) := by
  unfold State.popCmd
  try dsimp only
  repeat' first
    | with_reducible assumption
    | intro _
    | split
    | (with_reducible apply keeps_mk) <;> first
      | with_reducible assumption
      | intro _
      | split

theorem State.releaseHeld_keeps {o : State} {s : State} {t : Nat} (hs : Keeps o s) :
    Keeps o (State.releaseHeld s t) := by
  unfold State.releaseHeld
  try dsimp only
  repeat' first
    | with_reducible assumption
    | intro _
    | with_reducible apply keeps_forEach
    | with_reducible apply State.enqueue_keeps
    | split
    | (with_reducible apply keeps_mk) <;> first
      | with_reducible assumption
      | intro _
      | with_reducible apply keeps_forEach
      | with_reducible apply State.enqueue_keeps
      | split

theorem State.dropHeld_keeps {o : State} {s : State} {t : Nat} (hs : Keeps o s) :
    Keeps o (State.dropHeld s t) := by
  unfold State.dropHeld
  try dsimp only
  repeat' first
    | with_reducible assumption
    | intro _
    | split
    | (with_reducible apply keeps_mk) <;> first
      | with_reducible assumption
      | intro _
      | split

theorem State.pageBack_keeps {o : State} {s : State} {n : Nat} (hs : Keeps o s) :
    Keeps o (State.pageBack s n) := by
  unfold State.pageBack
  try dsimp only
  repeat' first
    | with_reducible assumption
    | intro _
    | with_reducible apply keeps_ite
    | with_reducible apply State.wr_keeps
    | split

theorem State.sheetDone_keeps {o : State} {s : State} {t : Nat} (hs : Keeps o s) :
    Keeps o (State.sheetDone s t) := by
  unfold State.sheetDone
  try dsimp only
  repeat' first
    | with_reducible assumption
    | intro _
    | with_reducible apply keeps_ite
    | with_reducible apply State.wr_keeps
    | with_reducible apply State.updPage_keeps
    | with_reducible apply State.unpinPage_keeps
    | with_reducible apply State.csmPage_keeps
    | with_reducible apply State.jrnOutcome_keeps
    | split

theorem State.abortSheet_keeps {o : State} {s : State} {t reason : Nat} (hs : Keeps o s) :
    Keeps o (State.abortSheet s t reason) := by
  unfold State.abortSheet
  try dsimp only
  repeat' first
    | with_reducible assumption
    | intro _
    | with_reducible apply keeps_ite
    | with_reducible apply State.wr_keeps
    | with_reducible apply State.count_keeps
    | with_reducible apply State.inc_keeps
    | with_reducible apply State.dropHeld_keeps
    | with_reducible apply State.withdrawAll_keeps
    | with_reducible apply State.sendOutcome_keeps
    | with_reducible apply State.jrnOutcome_keeps
    | with_reducible apply State.pageBack_keeps
    | split
    | (with_reducible apply keeps_mk) <;> first
      | with_reducible assumption
      | intro _
      | with_reducible apply keeps_ite
      | with_reducible apply State.wr_keeps
      | with_reducible apply State.count_keeps
      | with_reducible apply State.inc_keeps
      | with_reducible apply State.dropHeld_keeps
      | with_reducible apply State.withdrawAll_keeps
      | with_reducible apply State.sendOutcome_keeps
      | with_reducible apply State.jrnOutcome_keeps
      | with_reducible apply State.pageBack_keeps
      | split

theorem State.spoilSheet_keeps {o : State} {s : State} {t reason : Nat} (hs : Keeps o s) :
    Keeps o (State.spoilSheet s t reason) := by
  unfold State.spoilSheet
  try dsimp only
  repeat' first
    | with_reducible assumption
    | intro _
    | with_reducible apply State.wr_keeps
    | with_reducible apply State.raise_keeps
    | with_reducible apply State.inc_keeps
    | with_reducible apply State.updSheet_keeps
    | with_reducible apply State.sendOutcome_keeps
    | with_reducible apply State.jrnOutcome_keeps
    | split

theorem State.spoilIf_keeps {o : State} {s : State} {t reason : Nat} (hs : Keeps o s) :
    Keeps o (State.spoilIf s t reason) := by
  unfold State.spoilIf
  try dsimp only
  repeat' first
    | with_reducible assumption
    | intro _
    | with_reducible apply keeps_ite
    | with_reducible apply State.spoilSheet_keeps
    | split

theorem State.endBound_keeps {o : State} {s : State} {t reason : Nat} (hs : Keeps o s) :
    Keeps o (State.endBound s t reason) := by
  unfold State.endBound
  try dsimp only
  repeat' first
    | with_reducible assumption
    | intro _
    | with_reducible apply State.wr_keeps
    | with_reducible apply State.withdrawAll_keeps
    | split

theorem State.withdrawPage_keeps {o : State} {s : State} {n reason shReason : Nat} (hs : Keeps o s) :
    Keeps o (State.withdrawPage s n reason shReason) := by
  unfold State.withdrawPage
  try dsimp only
  repeat' first
    | with_reducible assumption
    | intro _
    | with_reducible apply keeps_ite
    | with_reducible apply State.wr_keeps
    | with_reducible apply State.raise_keeps
    | with_reducible apply State.inc_keeps
    | with_reducible apply State.updPage_keeps
    | with_reducible apply State.unpinPage_keeps
    | with_reducible apply State.withdrawAll_keeps
    | with_reducible apply State.jrnOutcome_keeps
    | with_reducible apply State.endBound_keeps
    | with_reducible apply State.abortSheet_keeps
    | split

theorem State.bindSheet_keeps {o : State} {s : State} {t : Nat} (hs : Keeps o s) :
    Keeps o (State.bindSheet s t) := by
  unfold State.bindSheet
  try dsimp only
  repeat' first
    | with_reducible assumption
    | intro _
    | with_reducible apply keeps_ite
    | with_reducible apply State.wr_keeps
    | with_reducible apply State.wrw_keeps
    | with_reducible apply State.updSheet_keeps
    | split

theorem State.freeSheet_keeps {o : State} {s : State} {t : Nat} (hs : Keeps o s) :
    Keeps o (State.freeSheet s t) := by
  unfold State.freeSheet
  try dsimp only
  repeat' first
    | with_reducible assumption
    | intro _
    | with_reducible apply keeps_ite
    | with_reducible apply State.wr_keeps
    | with_reducible apply State.pageBack_keeps
    | split

theorem State.ownErr_keeps {o : State} {s : State} {src off master : Nat} (hs : Keeps o s) :
    Keeps o (State.ownErr s src off master) := by
  unfold State.ownErr
  try dsimp only
  repeat' first
    | with_reducible assumption
    | intro _
    | with_reducible apply State.raise_keeps
    | with_reducible apply State.wr_keeps
    | split

theorem State.sheetCtrl_keeps {o : State} {s : State} {t v master : Nat} (hs : Keeps o s) :
    Keeps o (State.sheetCtrl s t v master) := by
  unfold State.sheetCtrl
  try dsimp only
  repeat' first
    | with_reducible assumption
    | intro _
    | with_reducible apply keeps_ite
    | with_reducible apply State.ownErr_keeps
    | with_reducible apply State.wr_keeps
    | with_reducible apply State.wrw_keeps
    | with_reducible apply State.bindSheet_keeps
    | with_reducible apply State.freeSheet_keeps
    | split

theorem State.sheetField_keeps {o : State} {s : State} {t off v master : Nat} (hs : Keeps o s) :
    Keeps o (State.sheetField s t off v master) := by
  unfold State.sheetField
  try dsimp only
  repeat' first
    | with_reducible assumption
    | intro _
    | with_reducible apply keeps_ite
    | with_reducible apply State.ownErr_keeps
    | with_reducible apply State.plainWrite_keeps
    | split

theorem State.pageHi_keeps {o : State} {s : State} {n v : Nat} (hs : Keeps o s) :
    Keeps o (State.pageHi s n v) := by
  unfold State.pageHi
  try dsimp only
  repeat' first
    | with_reducible assumption
    | intro _
    | with_reducible apply keeps_ite
    | with_reducible apply State.wr_keeps
    | with_reducible apply State.wrw_keeps
    | with_reducible apply State.updPage_keeps
    | with_reducible apply State.unpinPage_keeps
    | split

theorem State.enterNoon_keeps {o : State} {s : State} (hs : Keeps o s) :
    Keeps o (State.enterNoon s) := by
  unfold State.enterNoon
  try dsimp only
  repeat' first
    | with_reducible assumption
    | intro _
    | with_reducible apply keeps_ite
    | with_reducible apply State.goTo_keeps
    | split
    | (with_reducible apply keeps_mk) <;> first
      | with_reducible assumption
      | intro _
      | with_reducible apply keeps_ite
      | with_reducible apply State.goTo_keeps
      | split

theorem State.grantCommit_keeps {o : State} {s : State} {t : Nat} (hs : Keeps o s) :
    Keeps o (State.grantCommit s t) := by
  unfold State.grantCommit
  try dsimp only
  repeat' first
    | with_reducible assumption
    | intro _
    | with_reducible apply State.wr_keeps
    | with_reducible apply State.count_keeps
    | with_reducible apply State.inc_keeps
    | with_reducible apply State.releaseHeld_keeps
    | with_reducible apply State.sendOutcome_keeps
    | with_reducible apply State.jrnOutcome_keeps
    | split

theorem State.evalSheet_keeps {o : State} {s : State} {t : Nat} (hs : Keeps o s) :
    Keeps o (State.evalSheet s t) := by
  unfold State.evalSheet
  try dsimp only
  repeat' first
    | with_reducible assumption
    | intro _
    | with_reducible apply State.updSheet_keeps
    | split

theorem State.mmPush_keeps {o : State} {s : State} {m : Mismatch} (hs : Keeps o s) :
    Keeps o (State.mmPush s m) := by
  unfold State.mmPush
  try dsimp only
  repeat' first
    | with_reducible assumption
    | intro _
    | with_reducible apply keeps_ite
    | with_reducible apply State.raise_keeps
    | split
    | (with_reducible apply keeps_mk) <;> first
      | with_reducible assumption
      | intro _
      | with_reducible apply keeps_ite
      | with_reducible apply State.raise_keeps
      | split

theorem State.streamMismatch_keeps {o : State} {s : State} {n t : Nat} (hs : Keeps o s) :
    Keeps o (State.streamMismatch s n t) := by
  unfold State.streamMismatch
  try dsimp only
  repeat' first
    | with_reducible assumption
    | intro _
    | with_reducible apply keeps_ite
    | with_reducible apply State.withdrawPage_keeps
    | with_reducible apply State.spoilIf_keeps
    | with_reducible apply State.updPage_keeps
    | split

end Sys2Proof.Machine
end

