-- ==== Sys2Proof/Laws/KeepsVale.lean ====
section
/-! SUPPORT. What `Keeps` says holds of every operation of Vale.lean. -/

namespace Sys2Proof.Machine

theorem State.valeErr_keeps {o : State} {s : State} {src a m : Nat} {write : Bool} (hs : Keeps o s) :
    Keeps o (State.valeErr s src a m write) := by
  unfold State.valeErr
  try dsimp only
  repeat' first
    | with_reducible assumption
    | intro _
    | with_reducible apply State.raise_keeps
    | with_reducible apply State.wr_keeps
    | split

theorem State.tableWrite_keeps {o : State} {s : State} {a : Nat} {bs : List Byte} (hs : Keeps o s) :
    Keeps o (State.tableWrite s a bs) := by
  unfold State.tableWrite
  try dsimp only
  repeat' first
    | with_reducible assumption
    | intro _
    | with_reducible apply keeps_forEach
    | with_reducible apply keeps_ite
    | with_reducible apply State.inc_keeps
    | with_reducible apply State.raise_keeps
    | with_reducible apply State.writeByte_keeps
    | split

theorem State.busWrite_keeps {o : State} {s : State} {m a : Nat} {bs : List Byte} (hs : Keeps o s) :
    Keeps o (State.busWrite s m a bs) := by
  unfold State.busWrite
  try dsimp only
  repeat' first
    | with_reducible assumption
    | intro _
    | with_reducible apply keeps_ite
    | with_reducible apply State.valeErr_keeps
    | with_reducible apply State.tableWrite_keeps
    | with_reducible apply State.writeBytes_keeps
    | split

theorem State.zeroRange_keeps {o : State} {s : State} {a n : Nat} (hs : Keeps o s) :
    Keeps o (State.zeroRange s a n) := by
  unfold State.zeroRange
  refine keeps_ite (fun _ => ⟨hs.1, fun h => ⟨?_, (hs.2 h).cores⟩⟩) fun _ => State.writeBytes_keeps _ hs
  have c := (hs.2 h).canonical
  exact ⟨c.1, sparseWf_filter _ c.2 _, c.3, c.4, c.5⟩

end Sys2Proof.Machine
end

