-- ==== Sys2Proof/Laws/KeepsStream.lean ====
section
/-! SUPPORT. What `Keeps` says holds of every operation of Stream.lean. -/

namespace Sys2Proof.Machine

theorem State.strCtrl_keeps {o : State} {s : State} {v : Nat} (hs : Keeps o s) :
    Keeps o (State.strCtrl s v) := by
  unfold State.strCtrl
  try dsimp only
  repeat' first
    | with_reducible assumption
    | intro _
    | with_reducible apply keeps_ite
    | with_reducible apply State.wr_keeps
    | with_reducible apply State.withdrawAll_keeps
    | split

theorem State.strStation_keeps {o : State} {s : State} {k v : Nat} (hs : Keeps o s) :
    Keeps o (State.strStation s k v) := by
  unfold State.strStation
  try dsimp only
  repeat' first
    | with_reducible assumption
    | intro _
    | with_reducible apply keeps_ite
    | with_reducible apply State.wr_keeps
    | with_reducible apply State.withdraw_keeps
    | with_reducible apply State.raiseInst_keeps
    | with_reducible apply State.disarm_keeps
    | split

theorem State.strPush_keeps {o : State} {s : State} {k v : Nat} (hs : Keeps o s) :
    Keeps o (State.strPush s k v) := by
  unfold State.strPush
  try dsimp only
  repeat' first
    | with_reducible assumption
    | intro _
    | with_reducible apply keeps_ite
    | with_reducible apply State.updStr_keeps
    | with_reducible apply State.raiseInst_keeps
    | split

theorem State.startFill_keeps {o : State} {s : State} {k : Nat} {e : StrEntry} (hs : Keeps o s) :
    Keeps o (State.startFill s k e) := by
  unfold State.startFill
  try dsimp only
  repeat' first
    | with_reducible assumption
    | intro _
    | with_reducible apply keeps_ite
    | with_reducible apply State.updStr_keeps
    | with_reducible apply State.wr_keeps
    | with_reducible apply State.zeroRange_keeps
    | split

theorem State.prefetch_keeps {o : State} {s : State} {k : Nat} (hs : Keeps o s) :
    Keeps o (State.prefetch s k) := by
  unfold State.prefetch
  try dsimp only
  repeat' first
    | with_reducible assumption
    | intro _
    | with_reducible apply keeps_ite
    | with_reducible apply State.updStr_keeps
    | with_reducible apply State.startFill_keeps
    | split

theorem State.bandFill_keeps {o : State} {s : State} {k : Nat} (hs : Keeps o s) :
    Keeps o (State.bandFill s k) := by
  unfold State.bandFill
  try dsimp only
  repeat' first
    | with_reducible assumption
    | intro _
    | with_reducible apply keeps_ite
    | with_reducible apply State.startFill_keeps
    | split

theorem State.issueBurst_keeps {o : State} {s : State} {k : Nat} (hs : Keeps o s) :
    Keeps o (State.issueBurst s k) := by
  unfold State.issueBurst
  try dsimp only
  repeat' first
    | with_reducible assumption
    | intro _
    | with_reducible apply keeps_ite
    | with_reducible apply State.count_keeps
    | with_reducible apply State.updStr_keeps
    | split

theorem State.updFill_keeps {o : State} {s : State} {k : Nat} {f : Fill → Fill} (hs : Keeps o s) :
    Keeps o (State.updFill s k f) := by
  unfold State.updFill
  try dsimp only
  repeat' first
    | with_reducible assumption
    | intro _
    | with_reducible apply State.updStr_keeps
    | split

theorem State.writeNibble_keeps {o : State} {s : State} {a : Nat} {high : Bool} {v : Nat} (hs : Keeps o s) :
    Keeps o (State.writeNibble s a high v) := by
  unfold State.writeNibble
  try dsimp only
  repeat' first
    | with_reducible assumption
    | intro _
    | with_reducible apply keeps_ite
    | with_reducible apply State.writeByte_keeps
    | split

theorem State.writeTile_keeps {o : State} {s : State} {k h left r c : Nat} {t : List Nat} (hs : Keeps o s) :
    Keeps o (State.writeTile s k h left r c t) := by
  unfold State.writeTile
  try dsimp only
  repeat' first
    | with_reducible assumption
    | intro _
    | with_reducible apply keeps_foldl
    | with_reducible apply keeps_ite
    | with_reducible apply State.writeNibble_keeps
    | split

theorem State.decoderMismatch_keeps {o : State} {s : State} {k : Nat} {t : BadTile} (hs : Keeps o s) :
    Keeps o (State.decoderMismatch s k t) := by
  unfold State.decoderMismatch
  try dsimp only
  repeat' first
    | with_reducible assumption
    | intro _
    | with_reducible apply State.mmPush_keeps
    | with_reducible apply State.inc_keeps
    | with_reducible apply State.raise_keeps
    | with_reducible apply State.streamMismatch_keeps
    | split

theorem State.badTile_keeps {o : State} {s : State} {k : Nat} {e : StrEntry} {kind row col : Nat} (hs : Keeps o s) :
    Keeps o (State.badTile s k e kind row col) := by
  unfold State.badTile
  try dsimp only
  repeat' first
    | with_reducible assumption
    | intro _
    | with_reducible apply State.updStr_keeps
    | split

theorem State.tileDone_keeps {o : State} {s : State} {k : Nat} {e : StrEntry} {h row col : Nat} {flush : Bool} {t : List Nat} {mm : Option
    Nat} (hs : Keeps o s) :
    Keeps o (State.tileDone s k e h row col flush t mm) := by
  unfold State.tileDone
  try dsimp only
  repeat' first
    | with_reducible assumption
    | intro _
    | with_reducible apply keeps_ite
    | with_reducible apply State.count_keeps
    | with_reducible apply State.inc_keeps
    | with_reducible apply State.writeTile_keeps
    | with_reducible apply State.badTile_keeps
    | split

theorem State.indexRaw_keeps {o : State} {s : State} {k : Nat} {f : Fill} {r : RawSlot} (hs : Keeps o s) :
    Keeps o (State.indexRaw s k f r) := by
  unfold State.indexRaw
  try dsimp only
  repeat' first
    | with_reducible assumption
    | intro _
    | with_reducible apply State.writeBytes_keeps
    | with_reducible apply State.updFill_keeps
    | split

theorem State.takeSlot_keeps {o : State} {s : State} {k : Nat} {e : StrEntry} {b : Landed} {row col : Nat} (hs : Keeps o s) :
    Keeps o (State.takeSlot s k e b row col) := by
  unfold State.takeSlot
  try dsimp only
  repeat' first
    | with_reducible assumption
    | intro _
    | with_reducible apply keeps_ite
    | with_reducible apply State.tileDone_keeps
    | with_reducible apply State.indexRaw_keeps
    | split

theorem State.placeRaw_keeps {o : State} {s : State} {k : Nat} {e : StrEntry} {b : Landed} {r : RawSlot} (hs : Keeps o s) :
    Keeps o (State.placeRaw s k e b r) := by
  unfold State.placeRaw
  try dsimp only
  repeat' first
    | with_reducible assumption
    | intro _
    | with_reducible apply keeps_ite
    | with_reducible apply State.inc_keeps
    | with_reducible apply State.tileDone_keeps
    | split

theorem State.takeBurst_keeps {o : State} {s : State} {k : Nat} {e : StrEntry} {f : Fill} {b : Landed} (hs : Keeps o s) :
    Keeps o (State.takeBurst s k e f b) := by
  unfold State.takeBurst
  try dsimp only
  repeat' first
    | with_reducible assumption
    | intro _
    | with_reducible apply keeps_forEach
    | with_reducible apply keeps_ite
    | with_reducible apply State.updFill_keeps
    | with_reducible apply State.takeSlot_keeps
    | with_reducible apply State.placeRaw_keeps
    | split

theorem State.beginPass2_keeps {o : State} {s : State} {k : Nat} {e : StrEntry} (hs : Keeps o s) :
    Keeps o (State.beginPass2 s k e) := by
  unfold State.beginPass2
  try dsimp only
  repeat' first
    | with_reducible assumption
    | intro _
    | with_reducible apply keeps_ite
    | with_reducible apply State.updFill_keeps
    | split

theorem State.consume_keeps {o : State} {s : State} {k : Nat} (hs : Keeps o s) :
    Keeps o (State.consume s k) := by
  unfold State.consume
  try dsimp only
  repeat' first
    | with_reducible assumption
    | intro _
    | with_reducible apply State.takeBurst_keeps
    | with_reducible apply State.updStr_keeps
    | with_reducible apply State.beginPass2_keeps
    | with_reducible apply State.updFill_keeps
    | split

theorem State.drain_keeps {o : State} {s : State} {k n : Nat} (hs : Keeps o s) :
    Keeps o (State.drain s k n) := by
  unfold State.drain
  try dsimp only
  repeat' first
    | with_reducible assumption
    | intro _
    | with_reducible apply keeps_forUpTo
    | with_reducible apply State.consume_keeps
    | split

theorem State.burstIssue_keeps {o : State} {s : State} {k n : Nat} (hs : Keeps o s) :
    Keeps o (State.burstIssue s k n) := by
  unfold State.burstIssue
  try dsimp only
  repeat' first
    | with_reducible assumption
    | intro _
    | with_reducible apply State.issueBurst_keeps
    | with_reducible apply State.drain_keeps
    | split

theorem State.landLive_keeps {o : State} {s : State} {k : Nat} {b : Burst} {failed : Bool} (hs : Keeps o s) :
    Keeps o (State.landLive s k b failed) := by
  unfold State.landLive
  try dsimp only
  repeat' first
    | with_reducible assumption
    | intro _
    | with_reducible apply keeps_ite
    | with_reducible apply State.raiseInst_keeps
    | with_reducible apply State.plainTouch_keeps
    | with_reducible apply State.writeBytes_keeps
    | with_reducible apply State.updStr_keeps
    | split

theorem State.burstDone_keeps {o : State} {s : State} {k : Nat} (hs : Keeps o s) :
    Keeps o (State.burstDone s k) := by
  unfold State.burstDone
  try dsimp only
  repeat' first
    | with_reducible assumption
    | intro _
    | with_reducible apply keeps_ite
    | with_reducible apply State.plainTouch_keeps
    | with_reducible apply State.count_keeps
    | with_reducible apply State.inc_keeps
    | with_reducible apply State.updStr_keeps
    | with_reducible apply State.landLive_keeps
    | split

theorem State.burstLand_keeps {o : State} {s : State} {k n : Nat} (hs : Keeps o s) :
    Keeps o (State.burstLand s k n) := by
  unfold State.burstLand
  try dsimp only
  repeat' first
    | with_reducible assumption
    | intro _
    | with_reducible apply State.drain_keeps
    | with_reducible apply State.burstDone_keeps
    | split

theorem State.decoderCheck_keeps {o : State} {s : State} {k j : Nat} (hs : Keeps o s) :
    Keeps o (State.decoderCheck s k j) := by
  unfold State.decoderCheck
  try dsimp only
  repeat' first
    | with_reducible assumption
    | intro _
    | with_reducible apply State.decoderMismatch_keeps
    | with_reducible apply State.updStr_keeps
    | split

theorem State.fillComplete_keeps {o : State} {s : State} {k : Nat} (hs : Keeps o s) :
    Keeps o (State.fillComplete s k) := by
  unfold State.fillComplete
  try dsimp only
  repeat' first
    | with_reducible assumption
    | intro _
    | with_reducible apply keeps_ite
    | with_reducible apply State.drain_keeps
    | with_reducible apply State.updFill_keeps
    | split

theorem State.fillSettle_keeps {o : State} {s : State} {k : Nat} (hs : Keeps o s) :
    Keeps o (State.fillSettle s k) := by
  unfold State.fillSettle
  try dsimp only
  repeat' first
    | with_reducible assumption
    | intro _
    | with_reducible apply keeps_ite
    | with_reducible apply State.inc_keeps
    | with_reducible apply State.updStr_keeps
    | with_reducible apply State.wr_keeps
    | split

theorem State.fenceBegins_keeps {o : State} {s : State} {k : Nat} (hs : Keeps o s) :
    Keeps o (State.fenceBegins s k) := by
  unfold State.fenceBegins
  try dsimp only
  repeat' first
    | with_reducible assumption
    | intro _
    | with_reducible apply keeps_ite
    | with_reducible apply State.absentDisc_keeps
    | with_reducible apply State.withdraw_keeps
    | split

theorem State.fenceFollows_keeps {o : State} {s : State} {k : Nat} (hs : Keeps o s) :
    Keeps o (State.fenceFollows s k) := by
  unfold State.fenceFollows
  try dsimp only
  repeat' first
    | with_reducible assumption
    | intro _
    | with_reducible apply keeps_ite
    | with_reducible apply State.fenceBegins_keeps
    | with_reducible apply State.updStr_keeps
    | split

theorem State.lineRead_keeps {o : State} {s : State} {k b t q l : Nat} (hs : Keeps o s) :
    Keeps o (State.lineRead s k b t q l).1 := by
  unfold State.lineRead
  try dsimp only
  repeat' first
    | with_reducible assumption
    | intro _
    | with_reducible apply keeps_ite
    | with_reducible apply State.wr_keeps
    | with_reducible apply State.valeErr_keeps
    | with_reducible apply State.raiseInst_keeps
    | with_reducible apply State.inc_keeps
    | with_reducible apply State.spoilIf_keeps
    | with_reducible apply State.count_keeps
    | split

theorem State.releaseHalf_keeps {o : State} {s : State} {k b t q : Nat} (hs : Keeps o s) :
    Keeps o (State.releaseHalf s k b t q) := by
  unfold State.releaseHalf
  try dsimp only
  repeat' first
    | with_reducible assumption
    | intro _
    | with_reducible apply keeps_ite
    | with_reducible apply State.updStr_keeps
    | with_reducible apply State.wr_keeps
    | split

end Sys2Proof.Machine
end

