-- ==== Sys2Proof/Laws/KeepsPages.lean ====
section
/-! SUPPORT. What `Keeps` says holds of every operation of Pages.lean. -/

namespace Sys2Proof.Machine

theorem State.dropFrame_keeps {o : State} {s : State} {e : Nat} (hs : Keeps o s) :
    Keeps o (State.dropFrame s e) := by
  unfold State.dropFrame
  try dsimp only
  repeat' first
    | with_reducible assumption
    | intro _
    | split
    | (with_reducible apply keeps_mk) <;> first
      | with_reducible assumption
      | intro _
      | split

theorem State.extentLoaded_keeps {o : State} {s : State} {e : Nat} {ok : Bool} (hs : Keeps o s) :
    Keeps o (State.extentLoaded s e ok) := by
  unfold State.extentLoaded
  try dsimp only
  repeat' first
    | with_reducible assumption
    | intro _
    | with_reducible apply keeps_forEach
    | with_reducible apply keeps_ite
    | with_reducible apply State.copyIn_keeps
    | with_reducible apply State.count_keeps
    | with_reducible apply State.addTo_keeps
    | with_reducible apply State.extSet_keeps
    | with_reducible apply State.retryLoads_keeps
    | with_reducible apply State.raise_keeps
    | with_reducible apply State.dropFrame_keeps
    | with_reducible apply State.withdrawPage_keeps
    | split
    | (with_reducible apply keeps_mk) <;> first
      | with_reducible assumption
      | intro _
      | with_reducible apply keeps_forEach
      | with_reducible apply keeps_ite
      | with_reducible apply State.copyIn_keeps
      | with_reducible apply State.count_keeps
      | with_reducible apply State.addTo_keeps
      | with_reducible apply State.extSet_keeps
      | with_reducible apply State.retryLoads_keeps
      | with_reducible apply State.raise_keeps
      | with_reducible apply State.dropFrame_keeps
      | with_reducible apply State.withdrawPage_keeps
      | split

theorem State.nvmeFlush_keeps {o : State} {s : State} (hs : Keeps o s) :
    Keeps o (State.nvmeFlush s) := by
  unfold State.nvmeFlush
  try dsimp only
  repeat' first
    | with_reducible assumption
    | intro _
    | split
    | (with_reducible apply keeps_mk) <;> first
      | with_reducible assumption
      | intro _
      | split

theorem State.nvmeInit_keeps {o : State} {s : State} (hs : Keeps o s) :
    Keeps o (State.nvmeInit s) := by
  unfold State.nvmeInit
  try dsimp only
  repeat' first
    | with_reducible assumption
    | intro _
    | with_reducible apply keeps_ite
    | with_reducible apply State.raise_keeps
    | split

theorem State.plainCtrl_keeps {o : State} {s : State} {v : Nat} (hs : Keeps o s) :
    Keeps o (State.plainCtrl s v) := by
  unfold State.plainCtrl
  try dsimp only
  repeat' first
    | with_reducible assumption
    | intro _
    | with_reducible apply keeps_forEach
    | with_reducible apply keeps_ite
    | with_reducible apply State.plainWrite_keeps
    | with_reducible apply State.nvmeInit_keeps
    | with_reducible apply State.nvmeFlush_keeps
    | with_reducible apply State.extSet_keeps
    | split
    | (with_reducible apply keeps_mk) <;> first
      | with_reducible assumption
      | intro _
      | with_reducible apply keeps_forEach
      | with_reducible apply keeps_ite
      | with_reducible apply State.plainWrite_keeps
      | with_reducible apply State.nvmeInit_keeps
      | with_reducible apply State.nvmeFlush_keeps
      | with_reducible apply State.extSet_keeps
      | split

theorem State.writtenBack_keeps {o : State} {s : State} {e : Nat} {ok : Bool} (hs : Keeps o s) :
    Keeps o (State.writtenBack s e ok) := by
  unfold State.writtenBack
  try dsimp only
  repeat' first
    | with_reducible assumption
    | intro _
    | with_reducible apply keeps_ite
    | with_reducible apply State.nvmeWrite_keeps
    | with_reducible apply State.addTo_keeps
    | with_reducible apply State.dropFrame_keeps
    | with_reducible apply State.extSet_keeps
    | with_reducible apply State.raise_keeps
    | with_reducible apply State.nvmeFlush_keeps
    | with_reducible apply State.retryLoads_keeps
    | split
    | (with_reducible apply keeps_mk) <;> first
      | with_reducible assumption
      | intro _
      | with_reducible apply keeps_ite
      | with_reducible apply State.nvmeWrite_keeps
      | with_reducible apply State.addTo_keeps
      | with_reducible apply State.dropFrame_keeps
      | with_reducible apply State.extSet_keeps
      | with_reducible apply State.raise_keeps
      | with_reducible apply State.nvmeFlush_keeps
      | with_reducible apply State.retryLoads_keeps
      | split

theorem State.evictGranule_keeps {o : State} {s : State} {g : Granule} {tag : Nat} (hs : Keeps o s) :
    Keeps o (State.evictGranule s g tag) := by
  unfold State.evictGranule
  try dsimp only
  repeat' first
    | with_reducible assumption
    | intro _
    | with_reducible apply keeps_ite
    | with_reducible apply State.ownSend_keeps
    | split
    | (with_reducible apply keeps_mk) <;> first
      | with_reducible assumption
      | intro _
      | with_reducible apply keeps_ite
      | with_reducible apply State.ownSend_keeps
      | split

theorem State.admitGo_keeps {o : State} {s : State} {v : Nat} (hs : Keeps o s) :
    Keeps o (State.admitGo s v) := by
  unfold State.admitGo
  try dsimp only
  repeat' first
    | with_reducible assumption
    | intro _
    | with_reducible apply keeps_ite
    | with_reducible apply State.wr_keeps
    | split
    | (with_reducible apply keeps_mk) <;> first
      | with_reducible assumption
      | intro _
      | with_reducible apply keeps_ite
      | with_reducible apply State.wr_keeps
      | split

theorem State.takeUnit_keeps {o : State} {s : State} {p a : Nat} (hs : Keeps o s) :
    Keeps o (State.takeUnit s p a) := by
  unfold State.takeUnit
  try dsimp only
  repeat' first
    | with_reducible assumption
    | intro _
    | with_reducible apply keeps_ite
    | with_reducible apply State.pinExtent_keeps
    | with_reducible apply State.evictGranule_keeps
    | with_reducible apply State.pinGranule_keeps
    | with_reducible apply State.plainTouch_keeps
    | split
    | (with_reducible apply keeps_mk) <;> first
      | with_reducible assumption
      | intro _
      | with_reducible apply keeps_ite
      | with_reducible apply State.pinExtent_keeps
      | with_reducible apply State.evictGranule_keeps
      | with_reducible apply State.pinGranule_keeps
      | with_reducible apply State.plainTouch_keeps
      | split

theorem State.takeRange_keeps {o : State} {s : State} {p a n : Nat} (hs : Keeps o s) :
    Keeps o (State.takeRange s p a n) := by
  unfold State.takeRange
  try dsimp only
  repeat' first
    | with_reducible assumption
    | intro _
    | with_reducible apply keeps_forEach
    | with_reducible apply State.takeUnit_keeps
    | split

theorem State.admitWaits_keeps {o : State} {s : State} {n : Nat} (hs : Keeps o s) :
    Keeps o (State.admitWaits s n) := by
  unfold State.admitWaits
  try dsimp only
  repeat' first
    | with_reducible assumption
    | intro _
    | with_reducible apply State.wr_keeps
    | split

theorem State.admitReadFailed_keeps {o : State} {s : State} {n : Nat} {f : PlainFail} (hs : Keeps o s) :
    Keeps o (State.admitReadFailed s n f) := by
  unfold State.admitReadFailed
  try dsimp only
  repeat' first
    | with_reducible assumption
    | intro _
    | with_reducible apply keeps_ite
    | with_reducible apply State.admitWaits_keeps
    | with_reducible apply State.withdrawPage_keeps
    | split

theorem State.admitMalformed_keeps {o : State} {s : State} {n : Nat} (hs : Keeps o s) :
    Keeps o (State.admitMalformed s n) := by
  unfold State.admitMalformed
  try dsimp only
  repeat' first
    | with_reducible assumption
    | intro _
    | with_reducible apply State.withdrawPage_keeps
    | with_reducible apply State.raise_keeps
    | split

theorem State.admitRaster_keeps {o : State} {s : State} {n : Nat} (hs : Keeps o s) :
    Keeps o (State.admitRaster s n) := by
  unfold State.admitRaster
  try dsimp only
  repeat' first
    | with_reducible assumption
    | intro _
    | with_reducible apply keeps_forEach
    | with_reducible apply State.takeRange_keeps
    | with_reducible apply State.admitReadFailed_keeps
    | with_reducible apply State.updPage_keeps
    | with_reducible apply State.wr_keeps
    | split

theorem State.admitTables_keeps {o : State} {s : State} {n : Nat} (hs : Keeps o s) :
    Keeps o (State.admitTables s n) := by
  unfold State.admitTables
  try dsimp only
  repeat' first
    | with_reducible assumption
    | intro _
    | with_reducible apply keeps_forEach
    | with_reducible apply keeps_ite
    | with_reducible apply State.takeRange_keeps
    | with_reducible apply State.admitReadFailed_keeps
    | with_reducible apply State.admitMalformed_keeps
    | with_reducible apply State.wr_keeps
    | with_reducible apply State.withdrawPage_keeps
    | with_reducible apply State.admitRaster_keeps
    | split

theorem State.admitDesc_keeps {o : State} {s : State} {n : Nat} {a2 : Option PlainFail} (hs : Keeps o s) :
    Keeps o (State.admitDesc s n a2) := by
  unfold State.admitDesc
  try dsimp only
  repeat' first
    | with_reducible assumption
    | intro _
    | with_reducible apply keeps_ite
    | with_reducible apply State.admitReadFailed_keeps
    | with_reducible apply State.admitMalformed_keeps
    | with_reducible apply State.withdrawPage_keeps
    | with_reducible apply State.admitTables_keeps
    | split

theorem State.admitSteps_keeps {o : State} {s : State} {n : Nat} (hs : Keeps o s) :
    Keeps o (State.admitSteps s n) := by
  unfold State.admitSteps
  try dsimp only
  repeat' first
    | with_reducible assumption
    | intro _
    | with_reducible apply State.takeRange_keeps
    | with_reducible apply State.admitDesc_keeps
    | split

theorem State.admitComplete_keeps {o : State} {s : State} (hs : Keeps o s) :
    Keeps o (State.admitComplete s) := by
  unfold State.admitComplete
  try dsimp only
  repeat' first
    | with_reducible assumption
    | intro _
    | with_reducible apply keeps_ite
    | with_reducible apply State.wr_keeps
    | with_reducible apply State.admitSteps_keeps
    | split
    | (with_reducible apply keeps_mk) <;> first
      | with_reducible assumption
      | intro _
      | with_reducible apply keeps_ite
      | with_reducible apply State.wr_keeps
      | with_reducible apply State.admitSteps_keeps
      | split

theorem State.checkCounts_keeps {o : State} {s : State} {n slots : Nat} (hs : Keeps o s) :
    Keeps o (State.checkCounts s n slots) := by
  unfold State.checkCounts
  try dsimp only
  repeat' first
    | with_reducible assumption
    | intro _
    | with_reducible apply State.wr_keeps
    | with_reducible apply State.updPage_keeps
    | with_reducible apply State.count_keeps
    | with_reducible apply State.addTo_keeps
    | split

theorem State.checkComplete_keeps {o : State} {s : State} {n : Nat} (hs : Keeps o s) :
    Keeps o (State.checkComplete s n) := by
  unfold State.checkComplete
  try dsimp only
  repeat' first
    | with_reducible assumption
    | intro _
    | with_reducible apply keeps_ite
    | with_reducible apply State.wr_keeps
    | with_reducible apply State.checkCounts_keeps
    | split

theorem State.checkStopped_keeps {o : State} {s : State} {n : Nat} {r : CheckRun} (hs : Keeps o s) :
    Keeps o (State.checkStopped s n r) := by
  unfold State.checkStopped
  try dsimp only
  repeat' first
    | with_reducible assumption
    | intro _
    | with_reducible apply State.withdrawPage_keeps
    | with_reducible apply State.plainTouch_keeps
    | with_reducible apply State.checkCounts_keeps
    | with_reducible apply State.mmPush_keeps
    | with_reducible apply State.inc_keeps
    | with_reducible apply State.raise_keeps
    | split

theorem State.checkMismatch_keeps {o : State} {s : State} {n : Nat} (hs : Keeps o s) :
    Keeps o (State.checkMismatch s n) := by
  unfold State.checkMismatch
  try dsimp only
  repeat' first
    | with_reducible assumption
    | intro _
    | with_reducible apply keeps_ite
    | with_reducible apply State.checkStopped_keeps
    | split

theorem State.mmPop_keeps {o : State} {s : State} {v : Nat} (hs : Keeps o s) :
    Keeps o (State.mmPop s v) := by
  unfold State.mmPop
  try dsimp only
  repeat' first
    | with_reducible assumption
    | intro _
    | with_reducible apply keeps_ite
    | split
    | (with_reducible apply keeps_mk) <;> first
      | with_reducible assumption
      | intro _
      | with_reducible apply keeps_ite
      | split

end Sys2Proof.Machine
end

