-- ==== Sys2Proof/Laws/KeepsLanes.lean ====
section
/-! SUPPORT. What `Keeps` says holds of every operation of Lanes.lean. -/

namespace Sys2Proof.Machine

theorem State.laneEnd_keeps {o : State} {s : State} {m e : Nat} (hs : Keeps o s) :
    Keeps o (State.laneEnd s m e) := by
  unfold State.laneEnd
  try dsimp only
  repeat' first
    | with_reducible assumption
    | intro _
    | with_reducible apply keeps_ite
    | with_reducible apply State.wr_keeps
    | with_reducible apply State.raise_keeps
    | split
    | (with_reducible apply keeps_mk) <;> first
      | with_reducible assumption
      | intro _
      | with_reducible apply keeps_ite
      | with_reducible apply State.wr_keeps
      | with_reducible apply State.raise_keeps
      | split

theorem State.laneGo_keeps {o : State} {s : State} {m : Nat} (hs : Keeps o s) :
    Keeps o (State.laneGo s m) := by
  unfold State.laneGo
  try dsimp only
  repeat' first
    | with_reducible assumption
    | intro _
    | with_reducible apply keeps_ite
    | with_reducible apply State.wr_keeps
    | with_reducible apply State.wrw_keeps
    | with_reducible apply State.laneEnd_keeps
    | split
    | (with_reducible apply keeps_mk) <;> first
      | with_reducible assumption
      | intro _
      | with_reducible apply keeps_ite
      | with_reducible apply State.wr_keeps
      | with_reducible apply State.wrw_keeps
      | with_reducible apply State.laneEnd_keeps
      | split

theorem LaneRun.put_keeps {o : State} {r : LaneRun} {tag a : Nat} {bs : List Byte} (hr : Keeps o r.st) :
    Keeps o (LaneRun.put r tag a bs).st := by
  unfold LaneRun.put
  try dsimp only
  repeat' first
    | with_reducible assumption
    | intro _
    | with_reducible apply keeps_ite
    | with_reducible apply State.plainPut_keeps
    | with_reducible apply State.raise_keeps
    | with_reducible apply State.plainTouch_keeps
    | split

theorem LaneRun.upd_keeps {o : State} {r : LaneRun} {f : State → State} (hr : Keeps o r.st) (hf : ∀ (b0 : State), Keeps o b0 → Keeps o (f
    b0)) :
    Keeps o (LaneRun.upd r f).st := by
  unfold LaneRun.upd
  try dsimp only
  repeat' first
    | with_reducible assumption
    | intro _
    | with_reducible apply hf
    | with_reducible apply keeps_ite
    | split

theorem LaneRun.slot_keeps {o : State} {run : LaneRun} {m : Nat} {j : LaneJob} {r c x slot : Nat} (hrun : Keeps o run.st) :
    Keeps o (LaneRun.slot run m j r c x slot).st := by
  unfold LaneRun.slot
  try dsimp only
  repeat' first
    | with_reducible assumption
    | intro _
    | with_reducible apply LaneRun.upd_keeps
    | with_reducible apply LaneRun.put_keeps
    | with_reducible apply State.count_keeps
    | with_reducible apply State.inc_keeps
    | split

theorem LaneRun.raw_keeps {o : State} {run : LaneRun} {m : Nat} {j : LaneJob} {r c : Nat} {flush : Bool} {lines : Nat} {t : List Nat}
    (hrun : Keeps o run.st) :
    Keeps o (LaneRun.raw run m j r c flush lines t).st := by
  unfold LaneRun.raw
  try dsimp only
  repeat' first
    | with_reducible assumption
    | intro _
    | with_reducible apply LaneRun.put_keeps
    | with_reducible apply LaneRun.slot_keeps
    | with_reducible apply LaneRun.upd_keeps
    | with_reducible apply State.count_keeps
    | with_reducible apply State.inc_keeps
    | split

theorem LaneRun.tile_keeps {o : State} {run : LaneRun} {m : Nat} {j : LaneJob} {r c : Nat} {differs : Bool} (hrun : Keeps o run.st) :
    Keeps o (LaneRun.tile run m j r c differs).st := by
  unfold LaneRun.tile
  try dsimp only
  repeat' first
    | with_reducible assumption
    | intro _
    | with_reducible apply keeps_ite
    | with_reducible apply LaneRun.upd_keeps
    | with_reducible apply LaneRun.raw_keeps
    | with_reducible apply State.inc_keeps
    | with_reducible apply State.raise_keeps
    | with_reducible apply LaneRun.slot_keeps
    | split

theorem LaneRun.bandEntry_keeps {o : State} {run : LaneRun} {m : Nat} {j : LaneJob} {b first : Nat} (hrun : Keeps o run.st) :
    Keeps o (LaneRun.bandEntry run m j b first).st := by
  unfold LaneRun.bandEntry
  try dsimp only
  repeat' first
    | with_reducible assumption
    | intro _
    | with_reducible apply keeps_ite
    | with_reducible apply LaneRun.put_keeps
    | with_reducible apply LaneRun.upd_keeps
    | with_reducible apply State.wr_keeps
    | split

theorem LaneRun.sourceFails_keeps {o : State} {run : LaneRun} {m n : Nat} (hrun : Keeps o run.st) :
    Keeps o (LaneRun.sourceFails run m n).st := by
  unfold LaneRun.sourceFails
  try dsimp only
  repeat' first
    | with_reducible assumption
    | intro _
    | with_reducible apply keeps_ite
    | with_reducible apply State.wr_keeps
    | split

theorem LaneRun.receive_keeps {o : State} {run : LaneRun} {m : Nat} {j : LaneJob} {lo hi : Nat} (hrun : Keeps o run.st) :
    Keeps o (LaneRun.receive run m j lo hi).st := by
  unfold LaneRun.receive
  try dsimp only
  repeat' first
    | with_reducible assumption
    | intro _
    | with_reducible apply LaneRun.sourceFails_keeps
    | split

theorem LaneRun.rows_keeps {o : State} {run : LaneRun} {m : Nat} {j : LaneJob} {diffs : List Nat} {lo hi : Nat} (hrun : Keeps o run.st) :
    Keeps o (LaneRun.rows run m j diffs lo hi).st := by
  unfold LaneRun.rows
  refine foldl_keeps (P := fun x : LaneRun => Keeps o x.st) hrun fun x r hx => ?_
  refine LaneRun.upd_keeps (foldl_keeps (P := fun x : LaneRun => Keeps o x.st) (LaneRun.receive_keeps hx) fun y c hy => ?_) fun s hs =>
    State.wr_keeps hs
  exact LaneRun.tile_keeps hy

theorem LaneRun.band_keeps {o : State} {run : LaneRun} {m : Nat} {j : LaneJob} {diffs : List Nat} {b : Nat} (hrun : Keeps o run.st) :
    Keeps o (LaneRun.band run m j diffs b).st := by
  unfold LaneRun.band
  try dsimp only
  repeat' first
    | with_reducible assumption
    | intro _
    | with_reducible apply LaneRun.bandEntry_keeps
    | with_reducible apply LaneRun.rows_keeps
    | split

theorem LaneRun.bands_keeps {o : State} {run : LaneRun} {m : Nat} {j : LaneJob} {diffs : List Nat} {n : Nat} (hrun : Keeps o run.st) :
    Keeps o (LaneRun.bands run m j diffs n).st := by
  exact foldl_keeps (P := fun x : LaneRun => Keeps o x.st) hrun fun x b hx => LaneRun.band_keeps hx

theorem LaneRun.cutBand_keeps {o : State} {run : LaneRun} {m : Nat} {j : LaneJob} {diffs : List Nat} {b lines : Nat} (hrun : Keeps o
    run.st) :
    Keeps o (LaneRun.cutBand run m j diffs b lines).st := by
  unfold LaneRun.cutBand
  dsimp only
  refine LaneRun.bandEntry_keeps (foldl_keeps (P := fun x : LaneRun => Keeps o x.st) ?_ fun x r hx =>
    foldl_keeps (P := fun x : LaneRun => Keeps o x.st) hx fun y c hy => LaneRun.slot_keeps hy)
  split
  · exact LaneRun.rows_keeps hrun
  · exact foldl_keeps (P := fun x : LaneRun => Keeps o x.st) (LaneRun.receive_keeps (LaneRun.rows_keeps hrun)) fun y c hy =>
      LaneRun.raw_keeps hy

theorem LaneRun.upTo_keeps {o : State} {run : LaneRun} {m : Nat} {j : LaneJob} {diffs : List Nat} {lines : Nat} (hrun : Keeps o run.st) :
    Keeps o (LaneRun.upTo run m j diffs lines).st := by
  unfold LaneRun.upTo
  try dsimp only
  repeat' first
    | with_reducible assumption
    | intro _
    | with_reducible apply keeps_ite
    | with_reducible apply LaneRun.bands_keeps
    | with_reducible apply LaneRun.cutBand_keeps
    | with_reducible apply LaneRun.upd_keeps
    | with_reducible apply State.wr_keeps
    | split

theorem State.laneWork_keeps {o : State} {s : State} {m : Nat} {j : LaneJob} {diffs : List Nat} (hs : Keeps o s) :
    Keeps o (State.laneWork s m j diffs).st := by
  unfold State.laneWork
  try dsimp only
  repeat' first
    | with_reducible assumption
    | intro _
    | with_reducible apply LaneRun.bands_keeps
    | with_reducible apply LaneRun.upTo_keeps
    | split

theorem State.laneDone_keeps {o : State} {s : State} {m : Nat} {diffs : List Nat} (hs : Keeps o s) :
    Keeps o (State.laneDone s m diffs) := by
  unfold State.laneDone
  try dsimp only
  repeat' first
    | with_reducible assumption
    | intro _
    | with_reducible apply keeps_ite
    | with_reducible apply State.laneWork_keeps
    | with_reducible apply State.laneEnd_keeps
    | with_reducible apply State.inc_keeps
    | with_reducible apply State.wr_keeps
    | with_reducible apply State.plainTouch_keeps
    | split

theorem State.laneRefused_keeps {o : State} {s : State} {m : Nat} {diffs : List Nat} (hs : Keeps o s) :
    Keeps o (State.laneRefused s m diffs) := by
  unfold State.laneRefused
  try dsimp only
  repeat' first
    | with_reducible assumption
    | intro _
    | with_reducible apply State.laneWork_keeps
    | with_reducible apply State.laneEnd_keeps
    | split

theorem State.laneSourceError_keeps {o : State} {s : State} {m lines : Nat} {diffs : List Nat} (hs : Keeps o s) :
    Keeps o (State.laneSourceError s m lines diffs) := by
  unfold State.laneSourceError
  try dsimp only
  repeat' first
    | with_reducible assumption
    | intro _
    | with_reducible apply keeps_ite
    | with_reducible apply LaneRun.rows_keeps
    | with_reducible apply LaneRun.bands_keeps
    | with_reducible apply State.laneEnd_keeps
    | with_reducible apply LaneRun.sourceFails_keeps
    | split

theorem State.laneFlush_keeps {o : State} {s : State} {m lines : Nat} {diffs : List Nat} (hs : Keeps o s) :
    Keeps o (State.laneFlush s m lines diffs) := by
  unfold State.laneFlush
  try dsimp only
  repeat' first
    | with_reducible assumption
    | intro _
    | with_reducible apply keeps_ite
    | with_reducible apply State.laneWork_keeps
    | with_reducible apply State.laneEnd_keeps
    | with_reducible apply State.laneDone_keeps
    | split
    | (with_reducible apply keeps_mk) <;> first
      | with_reducible assumption
      | intro _
      | with_reducible apply keeps_ite
      | with_reducible apply State.laneWork_keeps
      | with_reducible apply State.laneEnd_keeps
      | with_reducible apply State.laneDone_keeps
      | split

theorem State.laneCtrl_keeps {o : State} {s : State} {m v : Nat} (hs : Keeps o s) :
    Keeps o (State.laneCtrl s m v) := by
  unfold State.laneCtrl
  try dsimp only
  repeat' first
    | with_reducible assumption
    | intro _
    | with_reducible apply keeps_ite
    | with_reducible apply State.plainWrite_keeps
    | with_reducible apply State.laneFlush_keeps
    | with_reducible apply State.laneGo_keeps
    | split

end Sys2Proof.Machine
end

