-- ==== Sys2Proof/Laws/KeepsDma.lean ====
section
/-! SUPPORT. What `Keeps` says holds of every operation of Dma.lean. -/

namespace Sys2Proof.Machine

theorem State.dmaIdle_keeps {o : State} {s : State} {n : Nat} (hs : Keeps o s) :
    Keeps o (State.dmaIdle s n) := by
  unfold State.dmaIdle
  try dsimp only
  repeat' first
    | with_reducible assumption
    | intro _
    | with_reducible apply State.wr_keeps
    | split
    | (with_reducible apply keeps_mk) <;> first
      | with_reducible assumption
      | intro _
      | with_reducible apply State.wr_keeps
      | split

theorem State.dmaHalt_keeps {o : State} {s : State} {n e : Nat} {write : Bool} {a : Nat} (hs : Keeps o s) :
    Keeps o (State.dmaHalt s n e write a) := by
  unfold State.dmaHalt
  try dsimp only
  repeat' first
    | with_reducible assumption
    | intro _
    | with_reducible apply State.wr_keeps
    | with_reducible apply State.dmaIdle_keeps
    | with_reducible apply State.raise_keeps
    | with_reducible apply State.wr64_keeps
    | split

theorem State.dmaEnd_keeps {o : State} {s : State} {n : Nat} {stopped : Bool} (hs : Keeps o s) :
    Keeps o (State.dmaEnd s n stopped) := by
  unfold State.dmaEnd
  try dsimp only
  repeat' first
    | with_reducible assumption
    | intro _
    | with_reducible apply keeps_ite
    | with_reducible apply State.wr_keeps
    | with_reducible apply State.dmaIdle_keeps
    | split

theorem State.dmaFenceRead_keeps {o : State} {s : State} {n : Nat} {j : DmaJob} (hs : Keeps o s) :
    Keeps o (State.dmaFenceRead s n j) := by
  unfold State.dmaFenceRead
  try dsimp only
  repeat' first
    | with_reducible assumption
    | intro _
    | with_reducible apply keeps_ite
    | with_reducible apply State.fabQueue_keeps
    | with_reducible apply State.dmaHalt_keeps
    | split
    | (with_reducible apply keeps_mk) <;> first
      | with_reducible assumption
      | intro _
      | with_reducible apply keeps_ite
      | with_reducible apply State.fabQueue_keeps
      | with_reducible apply State.dmaHalt_keeps
      | split

theorem State.dmaGo_keeps {o : State} {s : State} {n : Nat} (hs : Keeps o s) :
    Keeps o (State.dmaGo s n) := by
  unfold State.dmaGo
  try dsimp only
  repeat' first
    | with_reducible assumption
    | intro _
    | with_reducible apply keeps_ite
    | with_reducible apply State.wr_keeps
    | with_reducible apply State.wrw_keeps
    | with_reducible apply State.dmaFenceRead_keeps
    | with_reducible apply State.raise_keeps
    | split
    | (with_reducible apply keeps_mk) <;> first
      | with_reducible assumption
      | intro _
      | with_reducible apply keeps_ite
      | with_reducible apply State.wr_keeps
      | with_reducible apply State.wrw_keeps
      | with_reducible apply State.dmaFenceRead_keeps
      | with_reducible apply State.raise_keeps
      | split

theorem State.dmaBlame_keeps {o : State} {s : State} {k a : Nat} {write : Bool} (hs : Keeps o s) :
    Keeps o (State.dmaBlame s k a write) := by
  unfold State.dmaBlame
  try dsimp only
  repeat' first
    | with_reducible assumption
    | intro _
    | with_reducible apply keeps_ite
    | with_reducible apply State.valeErr_keeps
    | with_reducible apply State.raise_keeps
    | with_reducible apply State.plainTouch_keeps
    | split

theorem State.dmaPut_keeps {o : State} {s : State} {n k a i : Nat} {bs : List Byte} (hs : Keeps o s) :
    Keeps o (State.dmaPut s n k a i bs) := by
  unfold State.dmaPut
  try dsimp only
  repeat' first
    | with_reducible assumption
    | intro _
    | with_reducible apply keeps_ite
    | with_reducible apply State.busWrite_keeps
    | with_reducible apply State.plainPut_keeps
    | with_reducible apply State.hostWrite_keeps
    | split

theorem DmaRun.halt_keeps {o : State} {r : DmaRun} {e : DmaStop} (hr : Keeps o r.st) :
    Keeps o (DmaRun.halt r e).st := by
  unfold DmaRun.halt
  try dsimp only
  repeat' first
    | with_reducible assumption
    | intro _
    | split

theorem DmaRun.write_keeps {o : State} {r : DmaRun} {n k a : Nat} {bs : List Byte} (hr : Keeps o r.st) :
    Keeps o (DmaRun.write r n k a bs).st := by
  unfold DmaRun.write
  try dsimp only
  repeat' first
    | with_reducible assumption
    | intro _
    | with_reducible apply keeps_ite
    | with_reducible apply DmaRun.halt_keeps
    | with_reducible apply State.dmaPut_keeps
    | split

theorem DmaRun.compare_keeps {o : State} {r : DmaRun} {l : List Nat} {a b : List (Nat × List Byte)} (hr : Keeps o r.st) :
    Keeps o (DmaRun.compare r l a b).st := by
  unfold DmaRun.compare
  try dsimp only
  repeat' first
    | with_reducible assumption
    | intro _
    | split

theorem DmaRun.step_keeps {o : State} {r : DmaRun} {n : Nat} {j : DmaJob} {i : Nat} (hr : Keeps o r.st) :
    Keeps o (DmaRun.step r n j i).st := by
  have hc : Keeps o (r.st.count 19 n 1) := State.count_keeps hr
  unfold DmaRun.step
  dsimp only
  split
  · split
    · exact DmaRun.halt_keeps hc
    · exact foldl_keeps (P := fun x : DmaRun => Keeps o x.st) hc fun x b hx => DmaRun.write_keeps hx
  · exact foldl_keeps (P := fun x : DmaRun => Keeps o x.st) hc fun x b hx => DmaRun.write_keeps hx
  · split
    · exact DmaRun.halt_keeps hc
    · exact DmaRun.halt_keeps hc
    · exact DmaRun.compare_keeps hc
  · exact hc

theorem State.dmaBlock_keeps {o : State} {s : State} {n : Nat} {j : DmaJob} (hs : Keeps o s) :
    Keeps o (State.dmaBlock s n j).st := by
  unfold State.dmaBlock
  try dsimp only
  repeat' first
    | with_reducible assumption
    | intro _
    | with_reducible apply DmaRun.step_keeps
    | split

theorem DmaRun.results_keeps {o : State} {r : DmaRun} {n : Nat} {j : DmaJob} (hr : Keeps o r.st) :
    Keeps o (DmaRun.results r n j) := by
  unfold DmaRun.results
  try dsimp only
  repeat' first
    | with_reducible assumption
    | intro _
    | with_reducible apply keeps_ite
    | with_reducible apply State.wrw_keeps
    | with_reducible apply State.wr_keeps
    | split

theorem State.dropUncached_keeps {o : State} {s : State} {j : DmaJob} (hs : Keeps o s) :
    Keeps o (State.dropUncached s j) := by
  unfold State.dropUncached
  try dsimp only
  repeat' first
    | with_reducible assumption
    | intro _
    | split
    | (with_reducible apply keeps_mk) <;> first
      | with_reducible assumption
      | intro _
      | split

theorem DmaRun.fail_keeps {o : State} {r : DmaRun} {n : Nat} {j : DmaJob} {e : Nat} {write : Bool} {k a : Nat} (hr : Keeps o r.st) :
    Keeps o (DmaRun.fail r n j e write k a) := by
  unfold DmaRun.fail
  try dsimp only
  repeat' first
    | with_reducible assumption
    | intro _
    | with_reducible apply State.dmaHalt_keeps
    | with_reducible apply State.dmaBlame_keeps
    | with_reducible apply DmaRun.results_keeps
    | split

theorem DmaRun.stopped_keeps {o : State} {r : DmaRun} {n : Nat} {j : DmaJob} {e : DmaStop} {s : State} (hr : Keeps o r.st) (hs : Keeps o
    s) :
    Keeps o (DmaRun.stopped r n j e s) := by
  unfold DmaRun.stopped
  try dsimp only
  repeat' first
    | with_reducible assumption
    | intro _
    | with_reducible apply keeps_ite
    | with_reducible apply DmaRun.fail_keeps
    | with_reducible apply State.plainTouch_keeps
    | split

theorem State.dmaFence_keeps {o : State} {s : State} {n : Nat} {j : DmaJob} (hs : Keeps o s) :
    Keeps o (State.dmaFence s n j) := by
  unfold State.dmaFence
  try dsimp only
  repeat' first
    | with_reducible assumption
    | intro _
    | with_reducible apply State.dmaEnd_keeps
    | with_reducible apply DmaRun.stopped_keeps
    | split

theorem State.dmaMove_keeps {o : State} {s : State} {n : Nat} {j : DmaJob} (hs : Keeps o s) :
    Keeps o (State.dmaMove s n j) := by
  unfold State.dmaMove
  try dsimp only
  repeat' first
    | with_reducible assumption
    | intro _
    | with_reducible apply keeps_ite
    | with_reducible apply State.dmaBlock_keeps
    | with_reducible apply DmaRun.stopped_keeps
    | with_reducible apply DmaRun.results_keeps
    | split
    | (with_reducible apply keeps_mk) <;> first
      | with_reducible assumption
      | intro _
      | with_reducible apply keeps_ite
      | with_reducible apply State.dmaBlock_keeps
      | with_reducible apply DmaRun.stopped_keeps
      | with_reducible apply DmaRun.results_keeps
      | split

theorem State.dmaTurn_keeps {o : State} {s : State} {n : Nat} (hs : Keeps o s) :
    Keeps o (State.dmaTurn s n) := by
  unfold State.dmaTurn
  try dsimp only
  repeat' first
    | with_reducible assumption
    | intro _
    | with_reducible apply keeps_ite
    | with_reducible apply State.dmaFence_keeps
    | with_reducible apply State.dmaEnd_keeps
    | with_reducible apply State.dropUncached_keeps
    | with_reducible apply State.dmaHalt_keeps
    | with_reducible apply State.dmaMove_keeps
    | split

theorem State.dmaStep_keeps {o : State} {s : State} (hs : Keeps o s) :
    Keeps o (State.dmaStep s) := by
  unfold State.dmaStep
  try dsimp only
  repeat' first
    | with_reducible assumption
    | intro _
    | with_reducible apply State.dmaTurn_keeps
    | split
    | (with_reducible apply keeps_mk) <;> first
      | with_reducible assumption
      | intro _
      | with_reducible apply State.dmaTurn_keeps
      | split

theorem State.dmaUntil_keeps {o : State} {s : State} {n k a3 : Nat} (hs : Keeps o s) :
    Keeps o (State.dmaUntil s n k a3) := by
  induction a3 generalizing s with
  | zero => exact hs
  | succ f ih =>
    unfold State.dmaUntil
    split
    · exact hs
    · exact keeps_ite (fun _ => hs) fun _ => ih (State.dmaStep_keeps hs)

theorem State.dmaReach_keeps {o : State} {s : State} {n k : Nat} (hs : Keeps o s) :
    Keeps o (State.dmaReach s n k) := by
  unfold State.dmaReach
  try dsimp only
  repeat' first
    | with_reducible assumption
    | intro _
    | with_reducible apply State.dmaUntil_keeps
    | split

theorem State.dmaDone_keeps {o : State} {s : State} {n : Nat} (hs : Keeps o s) :
    Keeps o (State.dmaDone s n) := by
  unfold State.dmaDone
  try dsimp only
  repeat' first
    | with_reducible assumption
    | intro _
    | with_reducible apply keeps_ite
    | with_reducible apply State.dmaReach_keeps
    | with_reducible apply State.dmaTurn_keeps
    | split

theorem State.dmaPartial_keeps {o : State} {s : State} {n : Nat} {j : DmaJob} {ofs : Nat} (hs : Keeps o s) :
    Keeps o (State.dmaPartial s n j ofs).st := by
  unfold State.dmaPartial
  refine foldl_keeps (P := fun x : DmaRun => Keeps o x.st) hs fun x b hx => ?_
  split
  · exact DmaRun.write_keeps hx
  · split
    · exact DmaRun.write_keeps hx
    · exact DmaRun.halt_keeps hx

theorem State.dmaFarError_keeps {o : State} {s : State} {n : Nat} {j : DmaJob} {ofs : Nat} {write absent : Bool} (hs : Keeps o s) :
    Keeps o (State.dmaFarError s n j ofs write absent) := by
  unfold State.dmaFarError
  try dsimp only
  repeat' first
    | with_reducible assumption
    | intro _
    | with_reducible apply keeps_ite
    | with_reducible apply State.dmaPartial_keeps
    | with_reducible apply State.dmaHalt_keeps
    | with_reducible apply DmaRun.results_keeps
    | with_reducible apply DmaRun.stopped_keeps
    | split

theorem State.dmaError_keeps {o : State} {s : State} {n ofs : Nat} {write absent : Bool} (hs : Keeps o s) :
    Keeps o (State.dmaError s n ofs write absent) := by
  unfold State.dmaError
  split
  · exact hs
  · dsimp only
    split
    · exact State.dmaReach_keeps hs
    · exact keeps_ite (fun _ => State.dmaFarError_keeps (State.dmaReach_keeps hs)) fun _ =>
        keeps_ite (fun _ => State.dmaFence_keeps (State.dmaReach_keeps hs)) fun _ => State.dmaReach_keeps hs

theorem State.dmaClaimLost_keeps {o : State} {s : State} {n : Nat} {before : List Grant} (hs : Keeps o s) :
    Keeps o (State.dmaClaimLost s n before) := by
  unfold State.dmaClaimLost
  try dsimp only
  repeat' first
    | with_reducible assumption
    | intro _
    | with_reducible apply keeps_ite
    | split
    | (with_reducible apply keeps_mk) <;> first
      | with_reducible assumption
      | intro _
      | with_reducible apply keeps_ite
      | split

theorem State.dmaStopped_keeps {o : State} {s : State} {n : Nat} {j : DmaJob} (hs : Keeps o s) :
    Keeps o (State.dmaStopped s n j) := by
  unfold State.dmaStopped
  try dsimp only
  repeat' first
    | with_reducible assumption
    | intro _
    | with_reducible apply State.dmaEnd_keeps
    | with_reducible apply State.dropUncached_keeps
    | split
    | (with_reducible apply keeps_mk) <;> first
      | with_reducible assumption
      | intro _
      | with_reducible apply State.dmaEnd_keeps
      | with_reducible apply State.dropUncached_keeps
      | split

theorem State.dmaStop_keeps {o : State} {s : State} {n block : Nat} (hs : Keeps o s) :
    Keeps o (State.dmaStop s n block) := by
  unfold State.dmaStop
  try dsimp only
  repeat' first
    | with_reducible assumption
    | intro _
    | with_reducible apply keeps_ite
    | with_reducible apply State.dmaReach_keeps
    | with_reducible apply State.dmaStopped_keeps
    | with_reducible apply State.dmaEnd_keeps
    | with_reducible apply State.dropUncached_keeps
    | split

theorem State.dmaCtrl_keeps {o : State} {s : State} {n v : Nat} (hs : Keeps o s) :
    Keeps o (State.dmaCtrl s n v) := by
  unfold State.dmaCtrl
  try dsimp only
  repeat' first
    | with_reducible assumption
    | intro _
    | with_reducible apply keeps_ite
    | with_reducible apply State.plainWrite_keeps
    | with_reducible apply State.dmaStop_keeps
    | with_reducible apply State.dmaGo_keeps
    | split

end Sys2Proof.Machine
end

