-- ==== Sys2Proof/Laws/KeepsBtm.lean ====
section
/-! SUPPORT. What `Keeps` says holds of every operation of Btm.lean. -/

namespace Sys2Proof.Machine

theorem State.updBtm_keeps {o : State} {s : State} {k : Nat} {f : BtmX → BtmX} (hs : Keeps o s) :
    Keeps o (State.updBtm s k f) := by
  unfold State.updBtm
  try dsimp only
  repeat' first
    | with_reducible assumption
    | intro _
    | split
    | (with_reducible apply keeps_mk) <;> first
      | with_reducible assumption
      | intro _
      | split

theorem State.updBmk_keeps {o : State} {s : State} {k : Nat} {f : BmkX → BmkX} (hs : Keeps o s) :
    Keeps o (State.updBmk s k f) := by
  unfold State.updBmk
  try dsimp only
  repeat' first
    | with_reducible assumption
    | intro _
    | split
    | (with_reducible apply keeps_mk) <;> first
      | with_reducible assumption
      | intro _
      | split

theorem State.endExposure_keeps {o : State} {s : State} {k : Nat} (hs : Keeps o s) :
    Keeps o (State.endExposure s k) := by
  unfold State.endExposure
  try dsimp only
  repeat' first
    | with_reducible assumption
    | intro _
    | with_reducible apply State.retire_keeps
    | with_reducible apply State.wr_keeps
    | with_reducible apply State.updBtm_keeps
    | split

theorem State.cutBeams_keeps {o : State} {s : State} {k : Nat} (hs : Keeps o s) :
    Keeps o (State.cutBeams s k) := by
  unfold State.cutBeams
  try dsimp only
  repeat' first
    | with_reducible assumption
    | intro _
    | with_reducible apply State.updBtm_keeps
    | split

theorem State.powerError_keeps {o : State} {s : State} {k e : Nat} (hs : Keeps o s) :
    Keeps o (State.powerError s k e) := by
  unfold State.powerError
  try dsimp only
  repeat' first
    | with_reducible assumption
    | intro _
    | with_reducible apply State.wr_keeps
    | with_reducible apply State.updBmk_keeps
    | with_reducible apply State.raise_keeps
    | split

theorem State.powerSkip_keeps {o : State} {s : State} {k : Nat} (hs : Keeps o s) :
    Keeps o (State.powerSkip s k) := by
  unfold State.powerSkip
  try dsimp only
  repeat' first
    | with_reducible assumption
    | intro _
    | with_reducible apply keeps_ite
    | with_reducible apply State.updBmk_keeps
    | with_reducible apply State.incSat_keeps
    | with_reducible apply State.powerError_keeps
    | split

theorem State.endCal_keeps {o : State} {s : State} {k : Nat} (hs : Keeps o s) :
    Keeps o (State.endCal s k) := by
  unfold State.endCal
  try dsimp only
  repeat' first
    | with_reducible assumption
    | intro _
    | with_reducible apply keeps_ite
    | with_reducible apply State.wr_keeps
    | with_reducible apply State.updBtm_keeps
    | with_reducible apply State.powerError_keeps
    | split

theorem State.testShown_keeps {o : State} {s : State} {k b : Nat} {pass skip : Bool} (hs : Keeps o s) :
    Keeps o (State.testShown s k b pass skip) := by
  unfold State.testShown
  try dsimp only
  repeat' first
    | with_reducible assumption
    | intro _
    | with_reducible apply State.wr_keeps
    | split

theorem State.skipTest_keeps {o : State} {s : State} {k b : Nat} (hs : Keeps o s) :
    Keeps o (State.skipTest s k b) := by
  unfold State.skipTest
  try dsimp only
  repeat' first
    | with_reducible assumption
    | intro _
    | with_reducible apply State.inc_keeps
    | with_reducible apply State.testShown_keeps
    | split

theorem State.dropTest_keeps {o : State} {s : State} {k : Nat} (hs : Keeps o s) :
    Keeps o (State.dropTest s k) := by
  unfold State.dropTest
  try dsimp only
  repeat' first
    | with_reducible assumption
    | intro _
    | with_reducible apply State.skipTest_keeps
    | with_reducible apply State.updBmk_keeps
    | split

theorem State.readyLost_keeps {o : State} {s : State} {k : Nat} (hs : Keeps o s) :
    Keeps o (State.readyLost s k) := by
  unfold State.readyLost
  try dsimp only
  repeat' first
    | with_reducible assumption
    | intro _
    | with_reducible apply keeps_forUpTo
    | with_reducible apply keeps_ite
    | with_reducible apply State.raise_keeps
    | with_reducible apply State.spoilIf_keeps
    | with_reducible apply State.endExposure_keeps
    | with_reducible apply State.cutBeams_keeps
    | split

theorem State.updStation_keeps {o : State} {s : State} {k : Nat} (hs : Keeps o s) :
    Keeps o (State.updStation s k) := by
  unfold State.updStation
  try dsimp only
  repeat' first
    | with_reducible assumption
    | intro _
    | with_reducible apply keeps_ite
    | with_reducible apply State.fenceFollows_keeps
    | with_reducible apply State.wr_keeps
    | with_reducible apply State.readyLost_keeps
    | split

theorem State.updStations_keeps {o : State} {s : State} (hs : Keeps o s) :
    Keeps o (State.updStations s) := by
  unfold State.updStations
  try dsimp only
  repeat' first
    | with_reducible assumption
    | intro _
    | with_reducible apply keeps_forUpTo
    | with_reducible apply State.updStation_keeps
    | split

theorem State.btmApply_keeps {o : State} {s : State} {k : Nat} {gap : Bool} (hs : Keeps o s) :
    Keeps o (State.btmApply s k gap) := by
  unfold State.btmApply
  try dsimp only
  repeat' first
    | with_reducible assumption
    | intro _
    | with_reducible apply keeps_ite
    | with_reducible apply State.updBtm_keeps
    | with_reducible apply State.wr_keeps
    | with_reducible apply State.updStation_keeps
    | split

theorem State.btmSoon_keeps {o : State} {s : State} {k : Nat} (hs : Keeps o s) :
    Keeps o (State.btmSoon s k) := by
  unfold State.btmSoon
  try dsimp only
  repeat' first
    | with_reducible assumption
    | intro _
    | with_reducible apply keeps_ite
    | with_reducible apply State.btmApply_keeps
    | split

theorem State.tableParity_keeps {o : State} {s : State} {k a : Nat} (hs : Keeps o s) :
    Keeps o (State.tableParity s k a) := by
  unfold State.tableParity
  try dsimp only
  repeat' first
    | with_reducible assumption
    | intro _
    | with_reducible apply State.inc_keeps
    | with_reducible apply State.valeErr_keeps
    | with_reducible apply State.raise_keeps
    | with_reducible apply State.updStation_keeps
    | with_reducible apply State.wr_keeps
    | split

theorem State.reportWords_keeps {o : State} {s : State} {k : Nat} {odd : Bool} {l : List Nat} (hs : Keeps o s) :
    Keeps o (State.reportWords s k odd l) := by
  unfold State.reportWords
  try dsimp only
  repeat' first
    | with_reducible assumption
    | intro _
    | with_reducible apply keeps_forEach
    | with_reducible apply State.tableParity_keeps
    | split

theorem State.reportBeams_keeps {o : State} {s : State} {k : Nat} {beams : List Nat} (hs : Keeps o s) :
    Keeps o (State.reportBeams s k beams) := by
  unfold State.reportBeams
  try dsimp only
  repeat' first
    | with_reducible assumption
    | intro _
    | with_reducible apply keeps_ite
    | with_reducible apply State.reportWords_keeps
    | split

theorem State.readLines_keeps {o : State} {s : State} {k : Nat} {e : Exposure} {lines : List Nat} (hs : Keeps o s) :
    Keeps o (State.readLines s k e lines).1 := by
  exact foldl_keeps (P := fun x : State × List Nat => Keeps o x.1) hs fun x l hx => State.lineRead_keeps hx

theorem State.emitFacet_keeps {o : State} {s : State} {k : Nat} {d : List (Nat × Int × Int) × List (Nat × Int)} (hs : Keeps o s) :
    Keeps o (State.emitFacet s k d) := by
  unfold State.emitFacet
  try dsimp only
  repeat' first
    | with_reducible assumption
    | intro _
    | with_reducible apply State.updBtm_keeps
    | split

theorem State.printPage_keeps {o : State} {s : State} {k : Nat} {e : Exposure} (hs : Keeps o s) :
    Keeps o (State.printPage s k e) := by
  unfold State.printPage
  try dsimp only
  repeat' first
    | with_reducible assumption
    | intro _
    | with_reducible apply keeps_ite
    | with_reducible apply State.readLines_keeps
    | with_reducible apply State.reportBeams_keeps
    | with_reducible apply State.emitFacet_keeps
    | split

theorem State.printCal_keeps {o : State} {s : State} {k : Nat} (hs : Keeps o s) :
    Keeps o (State.printCal s k) := by
  unfold State.printCal
  try dsimp only
  repeat' first
    | with_reducible assumption
    | intro _
    | with_reducible apply State.reportBeams_keeps
    | with_reducible apply State.emitFacet_keeps
    | split

theorem State.facetDots_keeps {o : State} {s : State} {k : Nat} (hs : Keeps o s) :
    Keeps o (State.facetDots s k) := by
  unfold State.facetDots
  try dsimp only
  repeat' first
    | with_reducible assumption
    | intro _
    | with_reducible apply keeps_ite
    | with_reducible apply State.updBtm_keeps
    | with_reducible apply State.printPage_keeps
    | with_reducible apply State.printCal_keeps
    | split

theorem State.calRedraw_keeps {o : State} {s : State} {k : Nat} (hs : Keeps o s) :
    Keeps o (State.calRedraw s k) := by
  unfold State.calRedraw
  try dsimp only
  repeat' first
    | with_reducible assumption
    | intro _
    | with_reducible apply keeps_ite
    | with_reducible apply State.updBtm_keeps
    | split

theorem State.dropsCounted_keeps {o : State} {s : State} {k : Nat} (hs : Keeps o s) :
    Keeps o (State.dropsCounted s k) := by
  unfold State.dropsCounted
  try dsimp only
  repeat' first
    | with_reducible assumption
    | intro _
    | with_reducible apply keeps_forEach
    | with_reducible apply keeps_ite
    | with_reducible apply State.updBtm_keeps
    | with_reducible apply State.count_keeps
    | with_reducible apply State.inc_keeps
    | split

theorem State.beginExposure_keeps {o : State} {s : State} {k t : Nat} (hs : Keeps o s) :
    Keeps o (State.beginExposure s k t) := by
  unfold State.beginExposure
  try dsimp only
  repeat' first
    | with_reducible assumption
    | intro _
    | with_reducible apply keeps_ite
    | with_reducible apply State.updBtm_keeps
    | with_reducible apply State.wr_keeps
    | split

theorem State.beginCal_keeps {o : State} {s : State} {k : Nat} (hs : Keeps o s) :
    Keeps o (State.beginCal s k) := by
  unfold State.beginCal
  try dsimp only
  repeat' first
    | with_reducible assumption
    | intro _
    | with_reducible apply keeps_ite
    | with_reducible apply State.wr_keeps
    | with_reducible apply State.updBtm_keeps
    | split

theorem State.bmkFacet_keeps {o : State} {s : State} {k : Nat} (hs : Keeps o s) :
    Keeps o (State.bmkFacet s k) := by
  unfold State.bmkFacet
  try dsimp only
  repeat' first
    | with_reducible assumption
    | intro _
    | with_reducible apply State.updBmk_keeps
    | split

theorem State.calFacet_keeps {o : State} {s : State} {k : Nat} (hs : Keeps o s) :
    Keeps o (State.calFacet s k) := by
  unfold State.calFacet
  try dsimp only
  repeat' first
    | with_reducible assumption
    | intro _
    | with_reducible apply keeps_ite
    | with_reducible apply State.updBtm_keeps
    | with_reducible apply State.endCal_keeps
    | split

theorem State.lineFinish_keeps {o : State} {s : State} {k : Nat} (hs : Keeps o s) :
    Keeps o (State.lineFinish s k) := by
  unfold State.lineFinish
  try dsimp only
  repeat' first
    | with_reducible assumption
    | intro _
    | with_reducible apply keeps_ite
    | with_reducible apply State.releaseHalf_keeps
    | with_reducible apply State.updBtm_keeps
    | with_reducible apply State.endExposure_keeps
    | with_reducible apply State.calFacet_keeps
    | split

theorem State.facetOver_keeps {o : State} {s : State} {k : Nat} (hs : Keeps o s) :
    Keeps o (State.facetOver s k) := by
  unfold State.facetOver
  try dsimp only
  repeat' first
    | with_reducible assumption
    | intro _
    | with_reducible apply keeps_ite
    | with_reducible apply State.lineFinish_keeps
    | with_reducible apply State.inc_keeps
    | with_reducible apply State.powerSkip_keeps
    | split

theorem State.planFacet_keeps {o : State} {s : State} {k f taps : Nat} (hs : Keeps o s) :
    Keeps o (State.planFacet s k f taps) := by
  unfold State.planFacet
  try dsimp only
  repeat' first
    | with_reducible assumption
    | intro _
    | with_reducible apply keeps_ite
    | with_reducible apply State.updBtm_keeps
    | with_reducible apply State.reportWords_keeps
    | split

theorem State.facetSettings_keeps {o : State} {s : State} {k taps : Nat} {captured : Bool} (hs : Keeps o s) :
    Keeps o (State.facetSettings s k taps captured) := by
  unfold State.facetSettings
  try dsimp only
  repeat' first
    | with_reducible assumption
    | intro _
    | with_reducible apply State.updBtm_keeps
    | split

theorem State.periodShown_keeps {o : State} {s : State} {k taps : Nat} (hs : Keeps o s) :
    Keeps o (State.periodShown s k taps) := by
  unfold State.periodShown
  try dsimp only
  repeat' first
    | with_reducible assumption
    | intro _
    | with_reducible apply State.wrw_keeps
    | split

theorem State.facetShown_keeps {o : State} {s : State} {k f taps : Nat} {captured : Bool} (hs : Keeps o s) :
    Keeps o (State.facetShown s k f taps captured) := by
  unfold State.facetShown
  try dsimp only
  repeat' first
    | with_reducible assumption
    | intro _
    | with_reducible apply State.wrw_keeps
    | with_reducible apply State.facetSettings_keeps
    | with_reducible apply State.wr_keeps
    | with_reducible apply State.bmkFacet_keeps
    | with_reducible apply State.inc_keeps
    | split

theorem State.powerNoCal_keeps {o : State} {s : State} {k : Nat} (hs : Keeps o s) :
    Keeps o (State.powerNoCal s k) := by
  unfold State.powerNoCal
  try dsimp only
  repeat' first
    | with_reducible assumption
    | intro _
    | with_reducible apply keeps_ite
    | with_reducible apply State.powerSkip_keeps
    | split

theorem State.beginFacet_keeps {o : State} {s : State} {k taps : Nat} {captured : Bool} (hs : Keeps o s) :
    Keeps o (State.beginFacet s k taps captured) := by
  unfold State.beginFacet
  try dsimp only
  repeat' first
    | with_reducible assumption
    | intro _
    | with_reducible apply State.facetOver_keeps
    | with_reducible apply State.facetShown_keeps
    | with_reducible apply State.periodShown_keeps
    | with_reducible apply State.powerNoCal_keeps
    | with_reducible apply State.planFacet_keeps
    | with_reducible apply State.beginCal_keeps
    | with_reducible apply State.beginExposure_keeps
    | split

theorem State.windowSettings_keeps {o : State} {s : State} {k : Nat} (hs : Keeps o s) :
    Keeps o (State.windowSettings s k) := by
  unfold State.windowSettings
  try dsimp only
  repeat' first
    | with_reducible assumption
    | intro _
    | with_reducible apply State.updBtm_keeps
    | split

theorem State.sosWindow_keeps {o : State} {s : State} {k : Nat} (hs : Keeps o s) :
    Keeps o (State.sosWindow s k) := by
  unfold State.sosWindow
  try dsimp only
  repeat' first
    | with_reducible assumption
    | intro _
    | with_reducible apply keeps_ite
    | with_reducible apply State.updBtm_keeps
    | with_reducible apply State.windowSettings_keeps
    | split

theorem State.acquire_keeps {o : State} {s : State} {k : Nat} (hs : Keeps o s) :
    Keeps o (State.acquire s k) := by
  unfold State.acquire
  try dsimp only
  repeat' first
    | with_reducible assumption
    | intro _
    | with_reducible apply State.windowSettings_keeps
    | with_reducible apply State.wr_keeps
    | split

theorem State.sosCapture_keeps {o : State} {s : State} {k tap : Nat} (hs : Keeps o s) :
    Keeps o (State.sosCapture s k tap) := by
  unfold State.sosCapture
  try dsimp only
  repeat' first
    | with_reducible assumption
    | intro _
    | with_reducible apply keeps_ite
    | with_reducible apply State.sosWindow_keeps
    | with_reducible apply State.updBtm_keeps
    | with_reducible apply State.wr_keeps
    | with_reducible apply State.windowSettings_keeps
    | with_reducible apply State.updStation_keeps
    | with_reducible apply State.beginFacet_keeps
    | split

theorem State.sosMiss_keeps {o : State} {s : State} {k : Nat} (hs : Keeps o s) :
    Keeps o (State.sosMiss s k) := by
  unfold State.sosMiss
  try dsimp only
  repeat' first
    | with_reducible assumption
    | intro _
    | with_reducible apply keeps_ite
    | with_reducible apply State.updBtm_keeps
    | with_reducible apply State.count_keeps
    | with_reducible apply State.inc_keeps
    | with_reducible apply State.raise_keeps
    | with_reducible apply State.updStation_keeps
    | with_reducible apply State.acquire_keeps
    | with_reducible apply State.beginFacet_keeps
    | split

theorem State.powerFacet_keeps {o : State} {s : State} {k v : Nat} (hs : Keeps o s) :
    Keeps o (State.powerFacet s k v) := by
  unfold State.powerFacet
  try dsimp only
  repeat' first
    | with_reducible assumption
    | intro _
    | with_reducible apply keeps_ite
    | with_reducible apply State.powerSkip_keeps
    | with_reducible apply State.updBmk_keeps
    | with_reducible apply State.wr_keeps
    | split

theorem State.powerDue_keeps {o : State} {s : State} {k : Nat} (hs : Keeps o s) :
    Keeps o (State.powerDue s k) := by
  unfold State.powerDue
  try dsimp only
  repeat' first
    | with_reducible assumption
    | intro _
    | with_reducible apply State.powerFacet_keeps
    | split

theorem State.lineEnd_keeps {o : State} {s : State} {k : Nat} (hs : Keeps o s) :
    Keeps o (State.lineEnd s k) := by
  unfold State.lineEnd
  try dsimp only
  repeat' first
    | with_reducible assumption
    | intro _
    | with_reducible apply keeps_ite
    | with_reducible apply State.powerDue_keeps
    | with_reducible apply State.facetDots_keeps
    | with_reducible apply State.lineFinish_keeps
    | with_reducible apply State.updBtm_keeps
    | split

theorem State.eosCapture_keeps {o : State} {s : State} {k tap : Nat} (hs : Keeps o s) :
    Keeps o (State.eosCapture s k tap) := by
  unfold State.eosCapture
  try dsimp only
  repeat' first
    | with_reducible assumption
    | intro _
    | with_reducible apply keeps_ite
    | with_reducible apply State.lineEnd_keeps
    | with_reducible apply State.updBtm_keeps
    | with_reducible apply State.wrw_keeps
    | with_reducible apply State.powerSkip_keeps
    | split

theorem State.eosMiss_keeps {o : State} {s : State} {k : Nat} (hs : Keeps o s) :
    Keeps o (State.eosMiss s k) := by
  unfold State.eosMiss
  try dsimp only
  repeat' first
    | with_reducible assumption
    | intro _
    | with_reducible apply keeps_ite
    | with_reducible apply State.inc_keeps
    | with_reducible apply State.updBtm_keeps
    | with_reducible apply State.powerSkip_keeps
    | split

theorem State.btmStop_keeps {o : State} {s : State} {k : Nat} (hs : Keeps o s) :
    Keeps o (State.btmStop s k) := by
  unfold State.btmStop
  try dsimp only
  repeat' first
    | with_reducible assumption
    | intro _
    | with_reducible apply State.updBtm_keeps
    | with_reducible apply State.cutBeams_keeps
    | with_reducible apply State.wr_keeps
    | with_reducible apply State.updStation_keeps
    | with_reducible apply State.endCal_keeps
    | with_reducible apply State.dropTest_keeps
    | split

theorem State.btmStart_keeps {o : State} {s : State} {k : Nat} (hs : Keeps o s) :
    Keeps o (State.btmStart s k) := by
  unfold State.btmStart
  try dsimp only
  repeat' first
    | with_reducible assumption
    | intro _
    | with_reducible apply State.acquire_keeps
    | with_reducible apply State.updBtm_keeps
    | with_reducible apply State.btmStop_keeps
    | split

theorem State.dllLock_keeps {o : State} {s : State} {k : Nat} (hs : Keeps o s) :
    Keeps o (State.dllLock s k) := by
  unfold State.dllLock
  try dsimp only
  repeat' first
    | with_reducible assumption
    | intro _
    | with_reducible apply keeps_ite
    | with_reducible apply State.updStation_keeps
    | with_reducible apply State.wr_keeps
    | with_reducible apply State.updBtm_keeps
    | split

theorem State.dllUnlock_keeps {o : State} {s : State} {k : Nat} (hs : Keeps o s) :
    Keeps o (State.dllUnlock s k) := by
  unfold State.dllUnlock
  try dsimp only
  repeat' first
    | with_reducible assumption
    | intro _
    | with_reducible apply keeps_ite
    | with_reducible apply State.inc_keeps
    | with_reducible apply State.raise_keeps
    | with_reducible apply State.wr_keeps
    | with_reducible apply State.updStation_keeps
    | split

theorem State.btmHalt_keeps {o : State} {s : State} (hs : Keeps o s) :
    Keeps o (State.btmHalt s) := by
  unfold State.btmHalt
  try dsimp only
  repeat' first
    | with_reducible assumption
    | intro _
    | with_reducible apply keeps_forUpTo
    | with_reducible apply State.btmStop_keeps
    | with_reducible apply State.wr_keeps
    | split

theorem State.btmResume_keeps {o : State} {s : State} (hs : Keeps o s) :
    Keeps o (State.btmResume s) := by
  unfold State.btmResume
  try dsimp only
  repeat' first
    | with_reducible assumption
    | intro _
    | with_reducible apply keeps_forUpTo
    | with_reducible apply keeps_ite
    | with_reducible apply State.btmSoon_keeps
    | with_reducible apply State.btmStart_keeps
    | split

theorem State.btmRefuse_keeps {o : State} {s : State} {k : Nat} {c : Cmd} (hs : Keeps o s) :
    Keeps o (State.btmRefuse s k c) := by
  unfold State.btmRefuse
  try dsimp only
  repeat' first
    | with_reducible assumption
    | intro _
    | with_reducible apply keeps_ite
    | with_reducible apply State.inc_keeps
    | with_reducible apply State.raise_keeps
    | with_reducible apply State.spoilIf_keeps
    | split

theorem State.expose_keeps {o : State} {s : State} {k : Nat} {c : Cmd} (hs : Keeps o s) :
    Keeps o (State.expose s k c) := by
  unfold State.expose
  try dsimp only
  repeat' first
    | with_reducible assumption
    | intro _
    | with_reducible apply keeps_ite
    | with_reducible apply State.btmRefuse_keeps
    | with_reducible apply State.updBtm_keeps
    | split

theorem State.calStart_keeps {o : State} {s : State} {k : Nat} {c : Cmd} (hs : Keeps o s) :
    Keeps o (State.calStart s k c) := by
  unfold State.calStart
  try dsimp only
  repeat' first
    | with_reducible assumption
    | intro _
    | with_reducible apply keeps_ite
    | with_reducible apply State.updBtm_keeps
    | with_reducible apply State.btmRefuse_keeps
    | split

theorem State.calOff_keeps {o : State} {s : State} {k : Nat} (hs : Keeps o s) :
    Keeps o (State.calOff s k) := by
  unfold State.calOff
  try dsimp only
  repeat' first
    | with_reducible assumption
    | intro _
    | with_reducible apply keeps_ite
    | with_reducible apply State.endCal_keeps
    | with_reducible apply State.cutBeams_keeps
    | split

theorem State.calStop_keeps {o : State} {s : State} {k : Nat} (hs : Keeps o s) :
    Keeps o (State.calStop s k) := by
  unfold State.calStop
  try dsimp only
  repeat' first
    | with_reducible assumption
    | intro _
    | with_reducible apply keeps_ite
    | with_reducible apply State.calOff_keeps
    | split

theorem State.calCut_keeps {o : State} {s : State} {k : Nat} (hs : Keeps o s) :
    Keeps o (State.calCut s k) := by
  unfold State.calCut
  try dsimp only
  repeat' first
    | with_reducible assumption
    | intro _
    | with_reducible apply keeps_ite
    | with_reducible apply State.calOff_keeps
    | with_reducible apply State.inc_keeps
    | with_reducible apply State.raise_keeps
    | with_reducible apply State.updBtm_keeps
    | split

theorem State.lsiActive_keeps {o : State} {s : State} (hs : Keeps o s) :
    Keeps o (State.lsiActive s) := by
  unfold State.lsiActive
  try dsimp only
  repeat' first
    | with_reducible assumption
    | intro _
    | with_reducible apply keeps_forUpTo
    | with_reducible apply keeps_ite
    | with_reducible apply State.vesperAo_keeps
    | with_reducible apply State.raise_keeps
    | with_reducible apply State.powerError_keeps
    | with_reducible apply State.dropTest_keeps
    | with_reducible apply State.updStations_keeps
    | split
    | (with_reducible apply keeps_mk) <;> first
      | with_reducible assumption
      | intro _
      | with_reducible apply keeps_forUpTo
      | with_reducible apply keeps_ite
      | with_reducible apply State.vesperAo_keeps
      | with_reducible apply State.raise_keeps
      | with_reducible apply State.powerError_keeps
      | with_reducible apply State.dropTest_keeps
      | with_reducible apply State.updStations_keeps
      | split

theorem State.lsiLow_keeps {o : State} {s : State} {low1 : Bool} (hs : Keeps o s) :
    Keeps o (State.lsiLow s low1) := by
  unfold State.lsiLow
  try dsimp only
  repeat' first
    | with_reducible assumption
    | intro _
    | with_reducible apply keeps_ite
    | with_reducible apply State.lsiActive_keeps
    | split
    | (with_reducible apply keeps_mk) <;> first
      | with_reducible assumption
      | intro _
      | with_reducible apply keeps_ite
      | with_reducible apply State.lsiActive_keeps
      | split

theorem State.lsiHigh_keeps {o : State} {s : State} {in1 : Bool} (hs : Keeps o s) :
    Keeps o (State.lsiHigh s in1) := by
  unfold State.lsiHigh
  try dsimp only
  repeat' first
    | with_reducible assumption
    | intro _
    | with_reducible apply keeps_ite
    | split
    | (with_reducible apply keeps_mk) <;> first
      | with_reducible assumption
      | intro _
      | with_reducible apply keeps_ite
      | split

theorem State.lsiDisagree_keeps {o : State} {s : State} (hs : Keeps o s) :
    Keeps o (State.lsiDisagree s) := by
  unfold State.lsiDisagree
  try dsimp only
  repeat' first
    | with_reducible assumption
    | intro _
    | with_reducible apply keeps_ite
    | split
    | (with_reducible apply keeps_mk) <;> first
      | with_reducible assumption
      | intro _
      | with_reducible apply keeps_ite
      | split

theorem State.lsiRearm_keeps {o : State} {s : State} {v : Nat} (hs : Keeps o s) :
    Keeps o (State.lsiRearm s v) := by
  unfold State.lsiRearm
  try dsimp only
  repeat' first
    | with_reducible assumption
    | intro _
    | with_reducible apply keeps_ite
    | with_reducible apply State.updStations_keeps
    | split
    | (with_reducible apply keeps_mk) <;> first
      | with_reducible assumption
      | intro _
      | with_reducible apply keeps_ite
      | with_reducible apply State.updStations_keeps
      | split

theorem State.btmWrite_keeps {o : State} {s : State} {k a2 v : Nat} (hs : Keeps o s) :
    Keeps o (State.btmWrite s k a2 v) := by
  unfold State.btmWrite
  try dsimp only
  repeat' first
    | with_reducible assumption
    | intro _
    | with_reducible apply keeps_ite
    | with_reducible apply State.plainWrite_keeps
    | with_reducible apply State.btmStart_keeps
    | with_reducible apply State.btmStop_keeps
    | with_reducible apply State.powerError_keeps
    | with_reducible apply State.btmSoon_keeps
    | with_reducible apply State.wr_keeps
    | with_reducible apply State.lsiRearm_keeps
    | with_reducible apply State.calRedraw_keeps
    | split

end Sys2Proof.Machine
end

