-- ==== Sys2Proof/Laws/KeepsBmk.lean ====
section
/-! SUPPORT. What `Keeps` says holds of every operation of Bmk.lean. -/

namespace Sys2Proof.Machine

theorem State.beamDead_keeps {o : State} {s : State} {k b : Nat} (hs : Keeps o s) :
    Keeps o (State.beamDead s k b) := by
  unfold State.beamDead
  try dsimp only
  repeat' first
    | with_reducible assumption
    | intro _
    | with_reducible apply keeps_ite
    | with_reducible apply State.wrw_keeps
    | with_reducible apply State.raise_keeps
    | with_reducible apply State.wr_keeps
    | split

theorem State.testOf_keeps {o : State} {s : State} {k b : Nat} (hs : Keeps o s) :
    Keeps o (State.testOf s k b) := by
  unfold State.testOf
  try dsimp only
  repeat' first
    | with_reducible assumption
    | intro _
    | with_reducible apply keeps_ite
    | with_reducible apply State.skipTest_keeps
    | with_reducible apply State.updBmk_keeps
    | split

theorem State.testMaybe_keeps {o : State} {s : State} {k : Nat} {a2 : Option Nat} (hs : Keeps o s) :
    Keeps o (State.testMaybe s k a2) := by
  unfold State.testMaybe
  try dsimp only
  repeat' first
    | with_reducible assumption
    | intro _
    | with_reducible apply State.testOf_keeps
    | with_reducible apply State.updBmk_keeps
    | split

theorem State.beamTest_keeps {o : State} {s : State} {k : Nat} (hs : Keeps o s) :
    Keeps o (State.beamTest s k) := by
  unfold State.beamTest
  try dsimp only
  repeat' first
    | with_reducible assumption
    | intro _
    | with_reducible apply keeps_ite
    | with_reducible apply State.updBmk_keeps
    | with_reducible apply State.testMaybe_keeps
    | split

theorem State.testOver_keeps {o : State} {s : State} {k b : Nat} {pass : Bool} {lit : Nat} (hs : Keeps o s) :
    Keeps o (State.testOver s k b pass lit) := by
  unfold State.testOver
  try dsimp only
  repeat' first
    | with_reducible assumption
    | intro _
    | with_reducible apply State.inc_keeps
    | with_reducible apply State.testShown_keeps
    | with_reducible apply State.updBmk_keeps
    | split

theorem State.testPass_keeps {o : State} {s : State} {k tap : Nat} (hs : Keeps o s) :
    Keeps o (State.testPass s k tap) := by
  unfold State.testPass
  try dsimp only
  repeat' first
    | with_reducible assumption
    | intro _
    | with_reducible apply keeps_ite
    | with_reducible apply State.wr_keeps
    | with_reducible apply State.testOver_keeps
    | with_reducible apply State.wrw_keeps
    | split

theorem State.testMiss_keeps {o : State} {s : State} {k : Nat} (hs : Keeps o s) :
    Keeps o (State.testMiss s k) := by
  unfold State.testMiss
  try dsimp only
  repeat' first
    | with_reducible assumption
    | intro _
    | with_reducible apply keeps_ite
    | with_reducible apply State.incSat_keeps
    | with_reducible apply State.testOver_keeps
    | with_reducible apply State.inc_keeps
    | with_reducible apply State.beamDead_keeps
    | split

theorem State.beforeWrites_keeps {o : State} {s : State} {k i : Nat} (hs : Keeps o s) :
    Keeps o (State.beforeWrites s k i) := by
  unfold State.beforeWrites
  try dsimp only
  repeat' first
    | with_reducible assumption
    | intro _
    | with_reducible apply keeps_forEach
    | with_reducible apply State.setReg_keeps
    | split

theorem State.setLive_keeps {o : State} {s : State} {k i : Nat} (hs : Keeps o s) :
    Keeps o (State.setLive s k i) := by
  unfold State.setLive
  try dsimp only
  repeat' first
    | with_reducible assumption
    | intro _
    | with_reducible apply keeps_forUpTo
    | with_reducible apply State.updBmk_keeps
    | with_reducible apply State.inc_keeps
    | with_reducible apply State.wr_keeps
    | split

theorem State.maskApply_keeps {o : State} {s : State} {k : Nat} (hs : Keeps o s) :
    Keeps o (State.maskApply s k) := by
  unfold State.maskApply
  try dsimp only
  repeat' first
    | with_reducible assumption
    | intro _
    | with_reducible apply keeps_ite
    | with_reducible apply State.testMiss_keeps
    | with_reducible apply State.beforeWrites_keeps
    | with_reducible apply State.setLive_keeps
    | with_reducible apply State.wr_keeps
    | with_reducible apply State.raise_keeps
    | split

theorem State.setWrite_keeps {o : State} {s : State} {k a2 v : Nat} (hs : Keeps o s) :
    Keeps o (State.setWrite s k a2 v) := by
  unfold State.setWrite
  try dsimp only
  repeat' first
    | with_reducible assumption
    | intro _
    | with_reducible apply keeps_ite
    | with_reducible apply State.raise_keeps
    | with_reducible apply State.plainWrite_keeps
    | with_reducible apply State.updBmk_keeps
    | split

theorem State.testCfg_keeps {o : State} {s : State} {k v : Nat} (hs : Keeps o s) :
    Keeps o (State.testCfg s k v) := by
  unfold State.testCfg
  try dsimp only
  repeat' first
    | with_reducible assumption
    | intro _
    | with_reducible apply keeps_forEach
    | with_reducible apply keeps_ite
    | with_reducible apply State.plainWrite_keeps
    | with_reducible apply State.wr_keeps
    | with_reducible apply State.updBmk_keeps
    | with_reducible apply State.beamDead_keeps
    | split

theorem State.deadClear_keeps {o : State} {s : State} {k b0 v : Nat} (hs : Keeps o s) :
    Keeps o (State.deadClear s k b0 v) := by
  unfold State.deadClear
  try dsimp only
  repeat' first
    | with_reducible assumption
    | intro _
    | with_reducible apply keeps_foldl
    | with_reducible apply keeps_ite
    | with_reducible apply State.wrw_keeps
    | split

theorem State.powerGo_keeps {o : State} {s : State} {k : Nat} (hs : Keeps o s) :
    Keeps o (State.powerGo s k) := by
  unfold State.powerGo
  try dsimp only
  repeat' first
    | with_reducible assumption
    | intro _
    | with_reducible apply keeps_ite
    | with_reducible apply State.wr_keeps
    | with_reducible apply State.wrw_keeps
    | with_reducible apply State.updBmk_keeps
    | with_reducible apply State.powerError_keeps
    | split

theorem State.powerDone_keeps {o : State} {s : State} {k : Nat} (hs : Keeps o s) :
    Keeps o (State.powerDone s k) := by
  unfold State.powerDone
  try dsimp only
  repeat' first
    | with_reducible assumption
    | intro _
    | with_reducible apply keeps_foldl
    | with_reducible apply keeps_ite
    | with_reducible apply State.updBmk_keeps
    | with_reducible apply State.wr_keeps
    | split

theorem State.bmkWrite_keeps {o : State} {s : State} {k a2 v : Nat} (hs : Keeps o s) :
    Keeps o (State.bmkWrite s k a2 v) := by
  unfold State.bmkWrite
  try dsimp only
  repeat' first
    | with_reducible assumption
    | intro _
    | with_reducible apply keeps_ite
    | with_reducible apply State.setWrite_keeps
    | with_reducible apply State.plainWrite_keeps
    | with_reducible apply State.wr_keeps
    | with_reducible apply State.maskApply_keeps
    | with_reducible apply State.testCfg_keeps
    | with_reducible apply State.deadClear_keeps
    | with_reducible apply State.powerGo_keeps
    | split

end Sys2Proof.Machine
end

