-- ==== Sys2Proof/Laws/KeepsBld.lean ====
section
/-! SUPPORT. What `Keeps` says holds of every operation of Bld.lean. -/

namespace Sys2Proof.Machine

theorem State.updBld_keeps {o : State} {s : State} {n : Nat} {f : BldX → BldX} (hs : Keeps o s) :
    Keeps o (State.updBld s n f) := by
  unfold State.updBld
  try dsimp only
  repeat' first
    | with_reducible assumption
    | intro _
    | split
    | (with_reducible apply keeps_mk) <;> first
      | with_reducible assumption
      | intro _
      | split

theorem State.bldLimits_keeps {o : State} {s : State} {n : Nat} (hs : Keeps o s) :
    Keeps o (State.bldLimits s n) := by
  unfold State.bldLimits
  try dsimp only
  repeat' first
    | with_reducible assumption
    | intro _
    | with_reducible apply keeps_ite
    | with_reducible apply State.updBld_keeps
    | with_reducible apply State.wr_keeps
    | split

theorem State.bldDuty_keeps {o : State} {s : State} {n d : Nat} (hs : Keeps o s) :
    Keeps o (State.bldDuty s n d) := by
  unfold State.bldDuty
  try dsimp only
  repeat' first
    | with_reducible assumption
    | intro _
    | with_reducible apply keeps_ite
    | with_reducible apply State.bldLimits_keeps
    | with_reducible apply State.wr_keeps
    | split

theorem State.bldPeriodStart_keeps {o : State} {s : State} {n : Nat} (hs : Keeps o s) :
    Keeps o (State.bldPeriodStart s n) := by
  unfold State.bldPeriodStart
  try dsimp only
  repeat' first
    | with_reducible assumption
    | intro _
    | with_reducible apply keeps_ite
    | with_reducible apply State.bldLimits_keeps
    | with_reducible apply State.updBld_keeps
    | with_reducible apply State.count_keeps
    | with_reducible apply State.inc_keeps
    | split

theorem State.blGo_keeps {o : State} {s : State} {n x : Nat} (hs : Keeps o s) :
    Keeps o (State.blGo s n x) := by
  unfold State.blGo
  try dsimp only
  repeat' first
    | with_reducible assumption
    | intro _
    | with_reducible apply keeps_ite
    | with_reducible apply State.wr_keeps
    | with_reducible apply State.updBld_keeps
    | with_reducible apply State.wrw_keeps
    | split

theorem State.bldRaise_keeps {o : State} {s : State} {i n : Nat} (hs : Keeps o s) :
    Keeps o (State.bldRaise s i n) := by
  unfold State.bldRaise
  try dsimp only
  repeat' first
    | with_reducible assumption
    | intro _
    | with_reducible apply State.raiseInst_keeps
    | split

theorem State.driveLostBld_keeps {o : State} {s : State} {n : Nat} (hs : Keeps o s) :
    Keeps o (State.driveLostBld s n) := by
  unfold State.driveLostBld
  try dsimp only
  repeat' first
    | with_reducible assumption
    | intro _
    | with_reducible apply keeps_ite
    | split
    | (with_reducible apply keeps_mk) <;> first
      | with_reducible assumption
      | intro _
      | with_reducible apply keeps_ite
      | split

theorem State.bldOverrule_keeps {o : State} {s : State} {n : Nat} (hs : Keeps o s) :
    Keeps o (State.bldOverrule s n) := by
  unfold State.bldOverrule
  try dsimp only
  repeat' first
    | with_reducible assumption
    | intro _
    | with_reducible apply State.updBld_keeps
    | split

theorem State.bldFail_keeps {o : State} {s : State} {n i f : Nat} (hs : Keeps o s) :
    Keeps o (State.bldFail s n i f) := by
  unfold State.bldFail
  try dsimp only
  repeat' first
    | with_reducible assumption
    | intro _
    | with_reducible apply keeps_ite
    | with_reducible apply State.driveLostBld_keeps
    | with_reducible apply State.wr_keeps
    | with_reducible apply State.blGo_keeps
    | with_reducible apply State.bldRaise_keeps
    | with_reducible apply State.bldOverrule_keeps
    | split

theorem State.bldStart_keeps {o : State} {s : State} {n : Nat} (hs : Keeps o s) :
    Keeps o (State.bldStart s n) := by
  unfold State.bldStart
  try dsimp only
  repeat' first
    | with_reducible assumption
    | intro _
    | with_reducible apply keeps_ite
    | with_reducible apply State.wr_keeps
    | with_reducible apply State.updBld_keeps
    | with_reducible apply State.blGo_keeps
    | split

theorem State.bldCoast_keeps {o : State} {s : State} {n : Nat} (hs : Keeps o s) :
    Keeps o (State.bldCoast s n) := by
  unfold State.bldCoast
  try dsimp only
  repeat' first
    | with_reducible assumption
    | intro _
    | with_reducible apply keeps_ite
    | with_reducible apply State.bldOverrule_keeps
    | with_reducible apply State.blGo_keeps
    | split

theorem State.bldStamp_keeps {o : State} {s : State} {n t : Nat} (hs : Keeps o s) :
    Keeps o (State.bldStamp s n t) := by
  unfold State.bldStamp
  try dsimp only
  repeat' first
    | with_reducible assumption
    | intro _
    | with_reducible apply State.updBld_keeps
    | split

theorem State.bldRevolution_keeps {o : State} {s : State} {n : Nat} (hs : Keeps o s) :
    Keeps o (State.bldRevolution s n) := by
  unfold State.bldRevolution
  try dsimp only
  repeat' first
    | with_reducible assumption
    | intro _
    | with_reducible apply State.wrw_keeps
    | split

theorem State.bldRun_keeps {o : State} {s : State} {n x : Nat} (hs : Keeps o s) :
    Keeps o (State.bldRun s n x) := by
  unfold State.bldRun
  try dsimp only
  repeat' first
    | with_reducible assumption
    | intro _
    | with_reducible apply keeps_ite
    | with_reducible apply State.wr_keeps
    | with_reducible apply State.blGo_keeps
    | with_reducible apply State.updBld_keeps
    | with_reducible apply State.bldRevolution_keeps
    | with_reducible apply State.bldLimits_keeps
    | with_reducible apply State.bldPeriodStart_keeps
    | split

theorem State.bldDetect_keeps {o : State} {s : State} {n x : Nat} (hs : Keeps o s) :
    Keeps o (State.bldDetect s n x) := by
  unfold State.bldDetect
  try dsimp only
  repeat' first
    | with_reducible assumption
    | intro _
    | with_reducible apply keeps_ite
    | with_reducible apply State.updBld_keeps
    | with_reducible apply State.bldStamp_keeps
    | with_reducible apply State.bldRaise_keeps
    | with_reducible apply State.bldRun_keeps
    | split

theorem State.bldRampCross_keeps {o : State} {s : State} {n : Nat} (hs : Keeps o s) :
    Keeps o (State.bldRampCross s n) := by
  unfold State.bldRampCross
  try dsimp only
  repeat' first
    | with_reducible assumption
    | intro _
    | with_reducible apply keeps_ite
    | with_reducible apply State.bldStamp_keeps
    | with_reducible apply State.updBld_keeps
    | with_reducible apply State.bldRun_keeps
    | split

theorem State.bldSyncLost_keeps {o : State} {s : State} {n : Nat} (hs : Keeps o s) :
    Keeps o (State.bldSyncLost s n) := by
  unfold State.bldSyncLost
  try dsimp only
  repeat' first
    | with_reducible assumption
    | intro _
    | with_reducible apply keeps_ite
    | with_reducible apply State.updBld_keeps
    | with_reducible apply State.blGo_keeps
    | with_reducible apply State.driveLostBld_keeps
    | split

theorem State.bldSeen_keeps {o : State} {s : State} {n : Nat} (hs : Keeps o s) :
    Keeps o (State.bldSeen s n) := by
  unfold State.bldSeen
  try dsimp only
  repeat' first
    | with_reducible assumption
    | intro _
    | with_reducible apply keeps_ite
    | with_reducible apply State.updBld_keeps
    | with_reducible apply State.bldRevolution_keeps
    | with_reducible apply State.bldStamp_keeps
    | with_reducible apply State.bldLimits_keeps
    | with_reducible apply State.wr_keeps
    | split

theorem State.bldCrossing_keeps {o : State} {s : State} {n p : Nat} {up : Bool} (hs : Keeps o s) :
    Keeps o (State.bldCrossing s n p up) := by
  unfold State.bldCrossing
  try dsimp only
  repeat' first
    | with_reducible assumption
    | intro _
    | with_reducible apply keeps_ite
    | with_reducible apply State.bldDetect_keeps
    | with_reducible apply State.bldRampCross_keeps
    | with_reducible apply State.bldSeen_keeps
    | split

theorem State.bldSkip_keeps {o : State} {s : State} {n : Nat} (hs : Keeps o s) :
    Keeps o (State.bldSkip s n) := by
  unfold State.bldSkip
  try dsimp only
  repeat' first
    | with_reducible assumption
    | intro _
    | with_reducible apply keeps_ite
    | with_reducible apply State.inc_keeps
    | with_reducible apply State.updBld_keeps
    | with_reducible apply State.bldLimits_keeps
    | with_reducible apply State.bldRevolution_keeps
    | split

theorem State.bldSample_keeps {o : State} {s : State} {n : Nat} (hs : Keeps o s) :
    Keeps o (State.bldSample s n) := by
  unfold State.bldSample
  try dsimp only
  repeat' first
    | with_reducible assumption
    | intro _
    | with_reducible apply keeps_ite
    | with_reducible apply State.bldSkip_keeps
    | with_reducible apply State.updBld_keeps
    | split

theorem State.bldPwm_keeps {o : State} {s : State} {n : Nat} (hs : Keeps o s) :
    Keeps o (State.bldPwm s n) := by
  unfold State.bldPwm
  try dsimp only
  repeat' first
    | with_reducible assumption
    | intro _
    | with_reducible apply keeps_ite
    | with_reducible apply State.bldPeriodStart_keeps
    | split

theorem State.bldStep_keeps {o : State} {s : State} {n : Nat} (hs : Keeps o s) :
    Keeps o (State.bldStep s n) := by
  unfold State.bldStep
  try dsimp only
  repeat' first
    | with_reducible assumption
    | intro _
    | with_reducible apply State.wr_keeps
    | with_reducible apply State.bldLimits_keeps
    | with_reducible apply State.updBld_keeps
    | split

theorem State.bldCommutate_keeps {o : State} {s : State} {n : Nat} (hs : Keeps o s) :
    Keeps o (State.bldCommutate s n) := by
  unfold State.bldCommutate
  try dsimp only
  repeat' first
    | with_reducible assumption
    | intro _
    | with_reducible apply keeps_ite
    | with_reducible apply State.bldStep_keeps
    | with_reducible apply State.incSat_keeps
    | with_reducible apply State.inc_keeps
    | split

theorem State.bldQuiet_keeps {o : State} {s : State} {n : Nat} (hs : Keeps o s) :
    Keeps o (State.bldQuiet s n) := by
  unfold State.bldQuiet
  try dsimp only
  repeat' first
    | with_reducible assumption
    | intro _
    | with_reducible apply keeps_ite
    | with_reducible apply State.bldPeriodStart_keeps
    | with_reducible apply State.wr_keeps
    | with_reducible apply State.blGo_keeps
    | split

theorem State.bldTimeout_keeps {o : State} {s : State} {n : Nat} (hs : Keeps o s) :
    Keeps o (State.bldTimeout s n) := by
  unfold State.bldTimeout
  try dsimp only
  repeat' first
    | with_reducible assumption
    | intro _
    | with_reducible apply keeps_ite
    | with_reducible apply State.bldFail_keeps
    | split

theorem State.bldAligned_keeps {o : State} {s : State} {n : Nat} (hs : Keeps o s) :
    Keeps o (State.bldAligned s n) := by
  unfold State.bldAligned
  try dsimp only
  repeat' first
    | with_reducible assumption
    | intro _
    | with_reducible apply keeps_ite
    | with_reducible apply State.bldLimits_keeps
    | with_reducible apply State.updBld_keeps
    | with_reducible apply State.blGo_keeps
    | split

theorem State.bldRampFail_keeps {o : State} {s : State} {n : Nat} (hs : Keeps o s) :
    Keeps o (State.bldRampFail s n) := by
  unfold State.bldRampFail
  try dsimp only
  repeat' first
    | with_reducible assumption
    | intro _
    | with_reducible apply keeps_ite
    | with_reducible apply State.bldFail_keeps
    | split

theorem State.bldFault_keeps {o : State} {s : State} {n : Nat} (hs : Keeps o s) :
    Keeps o (State.bldFault s n) := by
  unfold State.bldFault
  try dsimp only
  repeat' first
    | with_reducible assumption
    | intro _
    | with_reducible apply keeps_ite
    | with_reducible apply State.updBld_keeps
    | with_reducible apply State.bldFail_keeps
    | split

theorem State.bldFltInput_keeps {o : State} {s : State} {n : Nat} {low : Bool} (hs : Keeps o s) :
    Keeps o (State.bldFltInput s n low) := by
  unfold State.bldFltInput
  try dsimp only
  repeat' first
    | with_reducible assumption
    | intro _
    | with_reducible apply keeps_ite
    | with_reducible apply State.updBld_keeps
    | with_reducible apply State.bldFault_keeps
    | split

theorem State.bldClaimLost_keeps {o : State} {s : State} {n : Nat} (hs : Keeps o s) :
    Keeps o (State.bldClaimLost s n) := by
  unfold State.bldClaimLost
  try dsimp only
  repeat' first
    | with_reducible assumption
    | intro _
    | with_reducible apply keeps_ite
    | with_reducible apply State.bldFail_keeps
    | split

theorem State.bldEvening_keeps {o : State} {s : State} (hs : Keeps o s) :
    Keeps o (State.bldEvening s) := by
  unfold State.bldEvening
  try dsimp only
  repeat' first
    | with_reducible assumption
    | intro _
    | with_reducible apply keeps_forUpTo
    | with_reducible apply keeps_ite
    | with_reducible apply State.bldOverrule_keeps
    | with_reducible apply State.blGo_keeps
    | split

theorem State.bldDue_keeps {o : State} {s : State} {n : Nat} (hs : Keeps o s) :
    Keeps o (State.bldDue s n) := by
  unfold State.bldDue
  try dsimp only
  repeat' first
    | with_reducible assumption
    | intro _
    | with_reducible apply keeps_ite
    | with_reducible apply State.bldFault_keeps
    | with_reducible apply State.bldRampFail_keeps
    | with_reducible apply State.bldAligned_keeps
    | with_reducible apply State.bldTimeout_keeps
    | with_reducible apply State.bldQuiet_keeps
    | with_reducible apply State.bldSyncLost_keeps
    | with_reducible apply State.bldCommutate_keeps
    | with_reducible apply State.bldSample_keeps
    | with_reducible apply State.bldPwm_keeps
    | split

theorem State.bldEnd_keeps {o : State} {s : State} {n : Nat} (hs : Keeps o s) :
    Keeps o (State.bldEnd s n) := by
  unfold State.bldEnd
  try dsimp only
  repeat' first
    | with_reducible assumption
    | intro _
    | with_reducible apply keeps_ite
    | with_reducible apply State.updBld_keeps
    | with_reducible apply State.bldRaise_keeps
    | with_reducible apply State.wr_keeps
    | with_reducible apply State.inc_keeps
    | split

theorem State.bldEnable_keeps {o : State} {s : State} {v : Nat} (hs : Keeps o s) :
    Keeps o (State.bldEnable s v) := by
  unfold State.bldEnable
  try dsimp only
  repeat' first
    | with_reducible assumption
    | intro _
    | with_reducible apply keeps_forUpTo
    | with_reducible apply keeps_ite
    | with_reducible apply State.plainWrite_keeps
    | with_reducible apply State.blGo_keeps
    | with_reducible apply State.bldFault_keeps
    | with_reducible apply State.bldOverrule_keeps
    | split

theorem State.bldCtrl_keeps {o : State} {s : State} {n v : Nat} (hs : Keeps o s) :
    Keeps o (State.bldCtrl s n v) := by
  unfold State.bldCtrl
  try dsimp only
  repeat' first
    | with_reducible assumption
    | intro _
    | with_reducible apply keeps_ite
    | with_reducible apply State.plainWrite_keeps
    | with_reducible apply State.wr_keeps
    | with_reducible apply State.bldStart_keeps
    | with_reducible apply State.bldCoast_keeps
    | with_reducible apply State.bldLimits_keeps
    | split

theorem State.bldChannelWrite_keeps {o : State} {s : State} {n a2 v : Nat} (hs : Keeps o s) :
    Keeps o (State.bldChannelWrite s n a2 v) := by
  unfold State.bldChannelWrite
  try dsimp only
  repeat' first
    | with_reducible assumption
    | intro _
    | with_reducible apply keeps_ite
    | with_reducible apply State.bldCtrl_keeps
    | with_reducible apply State.plainWrite_keeps
    | with_reducible apply State.bldLimits_keeps
    | with_reducible apply State.wr_keeps
    | split

end Sys2Proof.Machine
end

