-- ==== Sys2Proof/Laws/KeepsStp.lean ====
section
/-! SUPPORT. What `Keeps` says holds of every operation of Stp.lean. -/

namespace Sys2Proof.Machine

theorem State.updStp_keeps {o : State} {s : State} {n : Nat} {f : StpX → StpX} (hs : Keeps o s) :
    Keeps o (State.updStp s n f) := by
  unfold State.updStp
  try dsimp only
  repeat' first
    | with_reducible assumption
    | intro _
    | split
    | (with_reducible apply keeps_mk) <;> first
      | with_reducible assumption
      | intro _
      | split

theorem State.stpRaise_keeps {o : State} {s : State} {i n : Nat} (hs : Keeps o s) :
    Keeps o (State.stpRaise s i n) := by
  unfold State.stpRaise
  try dsimp only
  repeat' first
    | with_reducible assumption
    | intro _
    | with_reducible apply State.raiseInst_keeps
    | split

theorem State.stpMovingBit_keeps {o : State} {s : State} {n : Nat} {b : Bool} (hs : Keeps o s) :
    Keeps o (State.stpMovingBit s n b) := by
  unfold State.stpMovingBit
  try dsimp only
  repeat' first
    | with_reducible assumption
    | intro _
    | with_reducible apply keeps_ite
    | with_reducible apply State.wr_keeps
    | split

theorem State.stpEnd_keeps {o : State} {s : State} {n x : Nat} (hs : Keeps o s) :
    Keeps o (State.stpEnd s n x) := by
  unfold State.stpEnd
  try dsimp only
  repeat' first
    | with_reducible assumption
    | intro _
    | with_reducible apply State.wrw_keeps
    | with_reducible apply State.wr_keeps
    | with_reducible apply State.updStp_keeps
    | with_reducible apply State.stpMovingBit_keeps
    | split

theorem State.stpLost_keeps {o : State} {s : State} {n : Nat} (hs : Keeps o s) :
    Keeps o (State.stpLost s n) := by
  unfold State.stpLost
  try dsimp only
  repeat' first
    | with_reducible assumption
    | intro _
    | with_reducible apply State.stpRaise_keeps
    | with_reducible apply State.wr_keeps
    | split

theorem State.stpRise_keeps {o : State} {s : State} {n : Nat} (hs : Keeps o s) :
    Keeps o (State.stpRise s n) := by
  unfold State.stpRise
  try dsimp only
  repeat' first
    | with_reducible assumption
    | intro _
    | with_reducible apply State.updStp_keeps
    | split

theorem State.stpDrop_keeps {o : State} {s : State} {n x : Nat} (hs : Keeps o s) :
    Keeps o (State.stpDrop s n x) := by
  unfold State.stpDrop
  try dsimp only
  repeat' first
    | with_reducible assumption
    | intro _
    | with_reducible apply keeps_ite
    | with_reducible apply State.stpEnd_keeps
    | with_reducible apply State.stpLost_keeps
    | split

theorem State.driveLostStp_keeps {o : State} {s : State} {n : Nat} (hs : Keeps o s) :
    Keeps o (State.driveLostStp s n) := by
  unfold State.driveLostStp
  try dsimp only
  repeat' first
    | with_reducible assumption
    | intro _
    | with_reducible apply keeps_ite
    | split
    | (with_reducible apply keeps_mk) <;> first
      | with_reducible assumption
      | intro _
      | with_reducible apply keeps_ite
      | split

theorem State.stpRevoke_keeps {o : State} {s : State} {n : Nat} (hs : Keeps o s) :
    Keeps o (State.stpRevoke s n) := by
  unfold State.stpRevoke
  try dsimp only
  repeat' first
    | with_reducible assumption
    | intro _
    | with_reducible apply State.updStp_keeps
    | with_reducible apply State.wrw_keeps
    | with_reducible apply State.wr_keeps
    | with_reducible apply State.addTo_keeps
    | split

theorem State.stpForced_keeps {o : State} {s : State} {n i f : Nat} (hs : Keeps o s) :
    Keeps o (State.stpForced s n i f) := by
  unfold State.stpForced
  try dsimp only
  repeat' first
    | with_reducible assumption
    | intro _
    | with_reducible apply keeps_ite
    | with_reducible apply State.stpRevoke_keeps
    | with_reducible apply State.driveLostStp_keeps
    | with_reducible apply State.stpRaise_keeps
    | with_reducible apply State.wr_keeps
    | with_reducible apply State.stpDrop_keeps
    | with_reducible apply State.updStp_keeps
    | split

theorem State.stpFault_keeps {o : State} {s : State} {n : Nat} (hs : Keeps o s) :
    Keeps o (State.stpFault s n) := by
  unfold State.stpFault
  try dsimp only
  repeat' first
    | with_reducible assumption
    | intro _
    | with_reducible apply keeps_ite
    | with_reducible apply State.stpForced_keeps
    | split

theorem State.stpFltInput_keeps {o : State} {s : State} {n : Nat} {low : Bool} (hs : Keeps o s) :
    Keeps o (State.stpFltInput s n low) := by
  unfold State.stpFltInput
  try dsimp only
  repeat' first
    | with_reducible assumption
    | intro _
    | with_reducible apply keeps_ite
    | with_reducible apply State.updStp_keeps
    | with_reducible apply State.stpFault_keeps
    | split

theorem State.stpClaimLost_keeps {o : State} {s : State} {n : Nat} (hs : Keeps o s) :
    Keeps o (State.stpClaimLost s n) := by
  unfold State.stpClaimLost
  try dsimp only
  repeat' first
    | with_reducible assumption
    | intro _
    | with_reducible apply State.stpForced_keeps
    | split

theorem State.stpEvening_keeps {o : State} {s : State} (hs : Keeps o s) :
    Keeps o (State.stpEvening s) := by
  unfold State.stpEvening
  try dsimp only
  repeat' first
    | with_reducible assumption
    | intro _
    | with_reducible apply keeps_forUpTo
    | with_reducible apply keeps_ite
    | with_reducible apply State.stpDrop_keeps
    | split

theorem State.stpRefuse_keeps {o : State} {s : State} {n f : Nat} (hs : Keeps o s) :
    Keeps o (State.stpRefuse s n f) := by
  unfold State.stpRefuse
  try dsimp only
  repeat' first
    | with_reducible assumption
    | intro _
    | with_reducible apply State.inc_keeps
    | with_reducible apply State.wr_keeps
    | split

theorem State.stpTakes_keeps {o : State} {s : State} {n : Nat} (hs : Keeps o s) :
    Keeps o (State.stpTakes s n) := by
  unfold State.stpTakes
  try dsimp only
  repeat' first
    | with_reducible assumption
    | intro _
    | with_reducible apply State.updStp_keeps
    | split

theorem State.stpComplete_keeps {o : State} {s : State} {n : Nat} (hs : Keeps o s) :
    Keeps o (State.stpComplete s n) := by
  unfold State.stpComplete
  try dsimp only
  repeat' first
    | with_reducible assumption
    | intro _
    | with_reducible apply keeps_ite
    | with_reducible apply State.inc_keeps
    | with_reducible apply State.stpEnd_keeps
    | split

theorem State.stpChoose_keeps {o : State} {s : State} {n : Nat} (hs : Keeps o s) :
    Keeps o (State.stpChoose s n) := by
  unfold State.stpChoose
  try dsimp only
  repeat' first
    | with_reducible assumption
    | intro _
    | with_reducible apply State.updStp_keeps
    | with_reducible apply State.wr_keeps
    | split

theorem State.stpLaunch_keeps {o : State} {s : State} {n target : Nat} (hs : Keeps o s) :
    Keeps o (State.stpLaunch s n target) := by
  unfold State.stpLaunch
  try dsimp only
  repeat' first
    | with_reducible assumption
    | intro _
    | with_reducible apply State.wr_keeps
    | with_reducible apply State.stpMovingBit_keeps
    | with_reducible apply State.stpChoose_keeps
    | with_reducible apply State.updStp_keeps
    | split

theorem State.stpGoto_keeps {o : State} {s : State} {n target : Nat} (hs : Keeps o s) :
    Keeps o (State.stpGoto s n target) := by
  unfold State.stpGoto
  try dsimp only
  repeat' first
    | with_reducible assumption
    | intro _
    | with_reducible apply keeps_ite
    | with_reducible apply State.stpComplete_keeps
    | with_reducible apply State.inc_keeps
    | with_reducible apply State.stpRefuse_keeps
    | with_reducible apply State.stpRaise_keeps
    | with_reducible apply State.stpTakes_keeps
    | with_reducible apply State.stpRise_keeps
    | with_reducible apply State.wrw_keeps
    | with_reducible apply State.wr_keeps
    | with_reducible apply State.stpLaunch_keeps
    | split

theorem State.stpMove_keeps {o : State} {s : State} {n d : Nat} (hs : Keeps o s) :
    Keeps o (State.stpMove s n d) := by
  unfold State.stpMove
  try dsimp only
  repeat' first
    | with_reducible assumption
    | intro _
    | with_reducible apply State.stpGoto_keeps
    | split

theorem State.stpPreset_keeps {o : State} {s : State} {n p : Nat} (hs : Keeps o s) :
    Keeps o (State.stpPreset s n p) := by
  unfold State.stpPreset
  try dsimp only
  repeat' first
    | with_reducible assumption
    | intro _
    | with_reducible apply State.stpGoto_keeps
    | split

theorem State.stpStop_keeps {o : State} {s : State} {n : Nat} (hs : Keeps o s) :
    Keeps o (State.stpStop s n) := by
  unfold State.stpStop
  try dsimp only
  repeat' first
    | with_reducible assumption
    | intro _
    | with_reducible apply keeps_ite
    | with_reducible apply State.stpComplete_keeps
    | with_reducible apply State.inc_keeps
    | with_reducible apply State.stpTakes_keeps
    | with_reducible apply State.stpLost_keeps
    | with_reducible apply State.wr_keeps
    | with_reducible apply State.stpEnd_keeps
    | with_reducible apply State.stpRise_keeps
    | split

theorem State.stpAdvance_keeps {o : State} {s : State} {n : Nat} (hs : Keeps o s) :
    Keeps o (State.stpAdvance s n) := by
  unfold State.stpAdvance
  try dsimp only
  repeat' first
    | with_reducible assumption
    | intro _
    | with_reducible apply keeps_ite
    | with_reducible apply State.stpChoose_keeps
    | with_reducible apply State.updStp_keeps
    | with_reducible apply State.wrw_keeps
    | split

theorem State.stpPulses_keeps {o : State} {s : State} {n : Nat} (hs : Keeps o s) :
    Keeps o (State.stpPulses s n) := by
  unfold State.stpPulses
  try dsimp only
  repeat' first
    | with_reducible assumption
    | intro _
    | with_reducible apply keeps_ite
    | with_reducible apply State.updStp_keeps
    | with_reducible apply State.count_keeps
    | with_reducible apply State.addTo_keeps
    | split

theorem State.stpProfile_keeps {o : State} {s : State} {n : Nat} (hs : Keeps o s) :
    Keeps o (State.stpProfile s n) := by
  unfold State.stpProfile
  try dsimp only
  repeat' first
    | with_reducible assumption
    | intro _
    | with_reducible apply keeps_ite
    | with_reducible apply State.wr_keeps
    | with_reducible apply State.updStp_keeps
    | split

theorem State.ofsSat_keeps {o : State} {s : State} {n : Nat} (hs : Keeps o s) :
    Keeps o (State.ofsSat s n) := by
  unfold State.ofsSat
  try dsimp only
  repeat' first
    | with_reducible assumption
    | intro _
    | with_reducible apply State.wr_keeps
    | split

theorem State.stpAdapt_keeps {o : State} {s : State} {n w : Nat} (hs : Keeps o s) :
    Keeps o (State.stpAdapt s n w) := by
  unfold State.stpAdapt
  try dsimp only
  repeat' first
    | with_reducible assumption
    | intro _
    | with_reducible apply keeps_ite
    | with_reducible apply State.updStp_keeps
    | with_reducible apply State.ofsSat_keeps
    | with_reducible apply State.wr_keeps
    | split

theorem State.stpChop_keeps {o : State} {s : State} {n w i : Nat} {above : Bool} (hs : Keeps o s) :
    Keeps o (State.stpChop s n w i above) := by
  unfold State.stpChop
  try dsimp only
  repeat' first
    | with_reducible assumption
    | intro _
    | with_reducible apply keeps_ite
    | with_reducible apply State.updStp_keeps
    | with_reducible apply State.stpAdapt_keeps
    | split

theorem State.stpDue_keeps {o : State} {s : State} {n : Nat} (hs : Keeps o s) :
    Keeps o (State.stpDue s n) := by
  unfold State.stpDue
  try dsimp only
  repeat' first
    | with_reducible assumption
    | intro _
    | with_reducible apply keeps_ite
    | with_reducible apply State.stpFault_keeps
    | with_reducible apply State.stpAdapt_keeps
    | with_reducible apply State.stpPulses_keeps
    | with_reducible apply State.stpProfile_keeps
    | with_reducible apply State.stpComplete_keeps
    | split

theorem State.stpClock_keeps {o : State} {s : State} {n : Nat} (hs : Keeps o s) :
    Keeps o (State.stpClock s n) := by
  unfold State.stpClock
  try dsimp only
  repeat' first
    | with_reducible assumption
    | intro _
    | with_reducible apply keeps_ite
    | with_reducible apply State.updStp_keeps
    | with_reducible apply State.stpAdvance_keeps
    | split

theorem State.stpEnable_keeps {o : State} {s : State} {v : Nat} (hs : Keeps o s) :
    Keeps o (State.stpEnable s v) := by
  unfold State.stpEnable
  try dsimp only
  repeat' first
    | with_reducible assumption
    | intro _
    | with_reducible apply keeps_forUpTo
    | with_reducible apply keeps_ite
    | with_reducible apply State.plainWrite_keeps
    | with_reducible apply State.stpRise_keeps
    | with_reducible apply State.wr_keeps
    | with_reducible apply State.stpFault_keeps
    | with_reducible apply State.stpDrop_keeps
    | split

theorem State.xactWrite_keeps {o : State} {s : State} {n v : Nat} (hs : Keeps o s) :
    Keeps o (State.xactWrite s n v) := by
  unfold State.xactWrite
  try dsimp only
  repeat' first
    | with_reducible assumption
    | intro _
    | with_reducible apply keeps_ite
    | with_reducible apply State.stpComplete_keeps
    | with_reducible apply State.stpRaise_keeps
    | with_reducible apply State.wr_keeps
    | with_reducible apply State.wrw_keeps
    | split

theorem State.stpCtrl_keeps {o : State} {s : State} {n v : Nat} (hs : Keeps o s) :
    Keeps o (State.stpCtrl s n v) := by
  unfold State.stpCtrl
  try dsimp only
  repeat' first
    | with_reducible assumption
    | intro _
    | with_reducible apply keeps_ite
    | with_reducible apply State.plainWrite_keeps
    | with_reducible apply State.wr_keeps
    | with_reducible apply State.wrw_keeps
    | with_reducible apply State.stpGoto_keeps
    | with_reducible apply State.stpStop_keeps
    | split

theorem State.stpChannelWrite_keeps {o : State} {s : State} {n a2 v : Nat} (hs : Keeps o s) :
    Keeps o (State.stpChannelWrite s n a2 v) := by
  unfold State.stpChannelWrite
  try dsimp only
  repeat' first
    | with_reducible assumption
    | intro _
    | with_reducible apply keeps_ite
    | with_reducible apply State.stpCtrl_keeps
    | with_reducible apply State.wr_keeps
    | with_reducible apply State.updStp_keeps
    | with_reducible apply State.xactWrite_keeps
    | with_reducible apply State.plainWrite_keeps
    | with_reducible apply State.ofsSat_keeps
    | split

end Sys2Proof.Machine
end

