-- ==== Sys2Proof/Laws/KeepsPra.lean ====
section
/-! SUPPORT. What `Keeps` says holds of every operation of Pra.lean. -/

namespace Sys2Proof.Machine

theorem State.updSlot_keeps {o : State} {s : State} {n : Nat} {f : SlotX → SlotX} (hs : Keeps o s) :
    Keeps o (State.updSlot s n f) := by
  unfold State.updSlot
  try dsimp only
  repeat' first
    | with_reducible assumption
    | intro _
    | split
    | (with_reducible apply keeps_mk) <;> first
      | with_reducible assumption
      | intro _
      | split

theorem State.praRaise_keeps {o : State} {s : State} {i n : Nat} (hs : Keeps o s) :
    Keeps o (State.praRaise s i n) := by
  unfold State.praRaise
  try dsimp only
  repeat' first
    | with_reducible assumption
    | intro _
    | with_reducible apply State.raiseInst_keeps
    | split

theorem State.setLocked_keeps {o : State} {s : State} {n : Nat} {b : Bool} (hs : Keeps o s) :
    Keeps o (State.setLocked s n b) := by
  unfold State.setLocked
  try dsimp only
  repeat' first
    | with_reducible assumption
    | intro _
    | with_reducible apply State.wr_keeps
    | split

theorem State.unlock_keeps {o : State} {s : State} {n : Nat} (hs : Keeps o s) :
    Keeps o (State.unlock s n) := by
  unfold State.unlock
  try dsimp only
  repeat' first
    | with_reducible assumption
    | intro _
    | with_reducible apply keeps_forUpTo
    | with_reducible apply keeps_ite
    | with_reducible apply State.setLocked_keeps
    | with_reducible apply State.praRaise_keeps
    | with_reducible apply State.spoilIf_keeps
    | split

theorem State.praOutput_keeps {o : State} {s : State} {n y : Nat} (hs : Keeps o s) :
    Keeps o (State.praOutput s n y) := by
  unfold State.praOutput
  try dsimp only
  repeat' first
    | with_reducible assumption
    | intro _
    | with_reducible apply State.wr_keeps
    | split

theorem State.praExchange_keeps {o : State} {s : State} {n m : Nat} (hs : Keeps o s) :
    Keeps o (State.praExchange s n m) := by
  unfold State.praExchange
  try dsimp only
  repeat' first
    | with_reducible assumption
    | intro _
    | with_reducible apply keeps_forEach
    | with_reducible apply State.wrw_keeps
    | split

theorem State.praSwap_keeps {o : State} {s : State} {n : Nat} {taken : List Nat} (hs : Keeps o s) :
    Keeps o (State.praSwap s n taken) := by
  unfold State.praSwap
  try dsimp only
  repeat' first
    | with_reducible assumption
    | intro _
    | with_reducible apply keeps_ite
    | with_reducible apply State.wr_keeps
    | with_reducible apply State.praExchange_keeps
    | with_reducible apply State.praRaise_keeps
    | split

theorem State.praFree_keeps {o : State} {s : State} {n t : Nat} (hs : Keeps o s) :
    Keeps o (State.praFree s n t) := by
  unfold State.praFree
  try dsimp only
  repeat' first
    | with_reducible assumption
    | intro _
    | with_reducible apply keeps_ite
    | with_reducible apply State.praSwap_keeps
    | split
    | (with_reducible apply keeps_mk) <;> first
      | with_reducible assumption
      | intro _
      | with_reducible apply keeps_ite
      | with_reducible apply State.praSwap_keeps
      | split

theorem State.praDiscard_keeps {o : State} {s : State} {n : Nat} (hs : Keeps o s) :
    Keeps o (State.praDiscard s n) := by
  unfold State.praDiscard
  try dsimp only
  repeat' first
    | with_reducible assumption
    | intro _
    | with_reducible apply keeps_ite
    | with_reducible apply State.praFree_keeps
    | split
    | (with_reducible apply keeps_mk) <;> first
      | with_reducible assumption
      | intro _
      | with_reducible apply keeps_ite
      | with_reducible apply State.praFree_keeps
      | split

theorem State.praGo_keeps {o : State} {s : State} {n x : Nat} (hs : Keeps o s) :
    Keeps o (State.praGo s n x) := by
  unfold State.praGo
  try dsimp only
  repeat' first
    | with_reducible assumption
    | intro _
    | with_reducible apply State.unlock_keeps
    | with_reducible apply State.updSlot_keeps
    | with_reducible apply State.wr_keeps
    | split

theorem State.setPraI_keeps {o : State} {s : State} {n : Nat} {i : Int} (hs : Keeps o s) :
    Keeps o (State.setPraI s n i) := by
  unfold State.setPraI
  try dsimp only
  repeat' first
    | with_reducible assumption
    | intro _
    | with_reducible apply keeps_ite
    | with_reducible apply State.wr_keeps
    | with_reducible apply State.wrw_keeps
    | split

theorem State.praSync_keeps {o : State} {s : State} {n : Nat} (hs : Keeps o s) :
    Keeps o (State.praSync s n) := by
  unfold State.praSync
  try dsimp only
  repeat' first
    | with_reducible assumption
    | intro _
    | with_reducible apply State.praGo_keeps
    | with_reducible apply State.praDiscard_keeps
    | with_reducible apply State.wr_keeps
    | with_reducible apply State.updSlot_keeps
    | with_reducible apply State.praOutput_keeps
    | with_reducible apply State.setPraI_keeps
    | split

theorem State.praOffNow_keeps {o : State} {s : State} {n : Nat} (hs : Keeps o s) :
    Keeps o (State.praOffNow s n) := by
  unfold State.praOffNow
  try dsimp only
  repeat' first
    | with_reducible assumption
    | intro _
    | with_reducible apply keeps_ite
    | with_reducible apply State.praOutput_keeps
    | with_reducible apply State.praGo_keeps
    | with_reducible apply State.praDiscard_keeps
    | split

theorem State.praOn_keeps {o : State} {s : State} {n : Nat} (hs : Keeps o s) :
    Keeps o (State.praOn s n) := by
  unfold State.praOn
  try dsimp only
  repeat' first
    | with_reducible assumption
    | intro _
    | with_reducible apply keeps_ite
    | with_reducible apply State.praRaise_keeps
    | with_reducible apply State.praSync_keeps
    | split

theorem State.praSyncCmd_keeps {o : State} {s : State} {n : Nat} (hs : Keeps o s) :
    Keeps o (State.praSyncCmd s n) := by
  unfold State.praSyncCmd
  try dsimp only
  repeat' first
    | with_reducible assumption
    | intro _
    | with_reducible apply keeps_ite
    | with_reducible apply State.praSync_keeps
    | split

theorem State.praAllOff_keeps {o : State} {s : State} (hs : Keeps o s) :
    Keeps o (State.praAllOff s) := by
  unfold State.praAllOff
  try dsimp only
  repeat' first
    | with_reducible assumption
    | intro _
    | with_reducible apply keeps_forUpTo
    | with_reducible apply State.praOffNow_keeps
    | split

theorem State.takeTrim_keeps {o : State} {s : State} {a : Nat} (hs : Keeps o s) :
    Keeps o (State.takeTrim s a) := by
  unfold State.takeTrim
  try dsimp only
  repeat' first
    | with_reducible assumption
    | intro _
    | split
    | (with_reducible apply keeps_mk) <;> first
      | with_reducible assumption
      | intro _
      | split

theorem State.adcStore_keeps {o : State} {s : State} {i e code : Nat} (hs : Keeps o s) :
    Keeps o (State.adcStore s i e code) := by
  unfold State.adcStore
  try dsimp only
  repeat' first
    | with_reducible assumption
    | intro _
    | with_reducible apply keeps_ite
    | with_reducible apply State.wrw_keeps
    | split
    | (with_reducible apply keeps_mk) <;> first
      | with_reducible assumption
      | intro _
      | with_reducible apply keeps_ite
      | with_reducible apply State.wrw_keeps
      | split

theorem State.updRail_keeps {o : State} {s : State} {r : Nat} {f : RailX → RailX} (hs : Keeps o s) :
    Keeps o (State.updRail s r f) := by
  unfold State.updRail
  try dsimp only
  repeat' first
    | with_reducible assumption
    | intro _
    | split
    | (with_reducible apply keeps_mk) <;> first
      | with_reducible assumption
      | intro _
      | split

theorem State.scanReading_keeps {o : State} {s : State} {r code : Nat} (hs : Keeps o s) :
    Keeps o (State.scanReading s r code) := by
  unfold State.scanReading
  try dsimp only
  repeat' first
    | with_reducible assumption
    | intro _
    | with_reducible apply keeps_ite
    | with_reducible apply State.updRail_keeps
    | split

theorem State.adcConversion_keeps {o : State} {s : State} {a e raw : Nat} (hs : Keeps o s) :
    Keeps o (State.adcConversion s a e raw) := by
  unfold State.adcConversion
  try dsimp only
  repeat' first
    | with_reducible assumption
    | intro _
    | with_reducible apply keeps_ite
    | with_reducible apply State.inc_keeps
    | with_reducible apply State.scanReading_keeps
    | with_reducible apply State.adcStore_keeps
    | split
    | (with_reducible apply keeps_mk) <;> first
      | with_reducible assumption
      | intro _
      | with_reducible apply keeps_ite
      | with_reducible apply State.inc_keeps
      | with_reducible apply State.scanReading_keeps
      | with_reducible apply State.adcStore_keeps
      | split

theorem State.adcDue_keeps {o : State} {s : State} {a : Nat} (hs : Keeps o s) :
    Keeps o (State.adcDue s a) := by
  unfold State.adcDue
  try dsimp only
  repeat' first
    | with_reducible assumption
    | intro _
    | with_reducible apply keeps_ite
    | with_reducible apply State.adcConversion_keeps
    | split

theorem State.askBank_keeps {o : State} {s : State} {a b : Nat} (hs : Keeps o s) :
    Keeps o (State.askBank s a b) := by
  unfold State.askBank
  try dsimp only
  repeat' first
    | with_reducible assumption
    | intro _
    | split
    | (with_reducible apply keeps_mk) <;> first
      | with_reducible assumption
      | intro _
      | split

theorem State.adcSwitch_keeps {o : State} {s : State} {a : Nat} (hs : Keeps o s) :
    Keeps o (State.adcSwitch s a) := by
  unfold State.adcSwitch
  try dsimp only
  repeat' first
    | with_reducible assumption
    | intro _
    | with_reducible apply keeps_ite
    | with_reducible apply State.wr_keeps
    | with_reducible apply State.raise_keeps
    | split
    | (with_reducible apply keeps_mk) <;> first
      | with_reducible assumption
      | intro _
      | with_reducible apply keeps_ite
      | with_reducible apply State.wr_keeps
      | with_reducible apply State.raise_keeps
      | split

theorem State.seqSel_keeps {o : State} {s : State} {u b : Nat} (hs : Keeps o s) :
    Keeps o (State.seqSel s u b) := by
  unfold State.seqSel
  try dsimp only
  repeat' first
    | with_reducible assumption
    | intro _
    | with_reducible apply keeps_ite
    | with_reducible apply State.askBank_keeps
    | with_reducible apply State.raise_keeps
    | split

theorem State.adcNext_keeps {o : State} {s : State} {a v : Nat} (hs : Keeps o s) :
    Keeps o (State.adcNext s a v) := by
  unfold State.adcNext
  try dsimp only
  repeat' first
    | with_reducible assumption
    | intro _
    | with_reducible apply State.askBank_keeps
    | with_reducible apply State.plainWrite_keeps
    | split

theorem State.praDelay_keeps {o : State} {s : State} {n t u : Nat} (hs : Keeps o s) :
    Keeps o (State.praDelay s n t u) := by
  unfold State.praDelay
  try dsimp only
  repeat' first
    | with_reducible assumption
    | intro _
    | with_reducible apply State.wr_keeps
    | split

theorem State.praLock_keeps {o : State} {s : State} {n : Nat} {e : Int} (hs : Keeps o s) :
    Keeps o (State.praLock s n e) := by
  unfold State.praLock
  try dsimp only
  repeat' first
    | with_reducible assumption
    | intro _
    | with_reducible apply keeps_ite
    | with_reducible apply State.updSlot_keeps
    | with_reducible apply State.setLocked_keeps
    | with_reducible apply State.unlock_keeps
    | split

theorem State.setPolicy_keeps {o : State} {s : State} {n : Nat} {b : Bool} (hs : Keeps o s) :
    Keeps o (State.setPolicy s n b) := by
  unfold State.setPolicy
  try dsimp only
  repeat' first
    | with_reducible assumption
    | intro _
    | with_reducible apply State.wr_keeps
    | split

theorem State.praApply_keeps {o : State} {s : State} {n : Nat} {l : Loop} (hs : Keeps o s) :
    Keeps o (State.praApply s n l) := by
  unfold State.praApply
  try dsimp only
  repeat' first
    | with_reducible assumption
    | intro _
    | with_reducible apply keeps_ite
    | with_reducible apply State.wrw_keeps
    | with_reducible apply State.updSlot_keeps
    | with_reducible apply State.setPraI_keeps
    | with_reducible apply State.wr_keeps
    | with_reducible apply State.inc_keeps
    | with_reducible apply State.count_keeps
    | with_reducible apply State.praLock_keeps
    | with_reducible apply State.praOutput_keeps
    | with_reducible apply State.setPolicy_keeps
    | split

theorem State.loopComputation_keeps {o : State} {s : State} (hs : Keeps o s) :
    Keeps o (State.loopComputation s) := by
  unfold State.loopComputation
  try dsimp only
  repeat' first
    | with_reducible assumption
    | intro _
    | with_reducible apply keeps_ite
    | with_reducible apply State.praFree_keeps
    | with_reducible apply State.praDelay_keeps
    | with_reducible apply State.praApply_keeps
    | split

theorem State.praOverrun_keeps {o : State} {s : State} (hs : Keeps o s) :
    Keeps o (State.praOverrun s) := by
  unfold State.praOverrun
  try dsimp only
  repeat' first
    | with_reducible assumption
    | intro _
    | with_reducible apply State.praRaise_keeps
    | split

theorem State.frameStart_keeps {o : State} {s : State} (hs : Keeps o s) :
    Keeps o (State.frameStart s) := by
  unfold State.frameStart
  try dsimp only
  repeat' first
    | with_reducible assumption
    | intro _
    | with_reducible apply keeps_forUpTo
    | with_reducible apply keeps_ite
    | with_reducible apply State.praOverrun_keeps
    | with_reducible apply State.loopComputation_keeps
    | with_reducible apply State.adcDue_keeps
    | with_reducible apply State.wr_keeps
    | with_reducible apply State.wrw_keeps
    | with_reducible apply State.adcSwitch_keeps
    | with_reducible apply State.takeTrim_keeps
    | split
    | (with_reducible apply keeps_mk) <;> first
      | with_reducible assumption
      | intro _
      | with_reducible apply keeps_forUpTo
      | with_reducible apply keeps_ite
      | with_reducible apply State.praOverrun_keeps
      | with_reducible apply State.loopComputation_keeps
      | with_reducible apply State.adcDue_keeps
      | with_reducible apply State.wr_keeps
      | with_reducible apply State.wrw_keeps
      | with_reducible apply State.adcSwitch_keeps
      | with_reducible apply State.takeTrim_keeps
      | split

theorem State.praTake_keeps {o : State} {s : State} {n : Nat} (hs : Keeps o s) :
    Keeps o (State.praTake s n) := by
  unfold State.praTake
  try dsimp only
  repeat' first
    | with_reducible assumption
    | intro _
    | with_reducible apply keeps_ite
    | with_reducible apply State.updSlot_keeps
    | with_reducible apply State.wr_keeps
    | split
    | (with_reducible apply keeps_mk) <;> first
      | with_reducible assumption
      | intro _
      | with_reducible apply keeps_ite
      | with_reducible apply State.updSlot_keeps
      | with_reducible apply State.wr_keeps
      | split

theorem State.slotSample_keeps {o : State} {s : State} {n : Nat} (hs : Keeps o s) :
    Keeps o (State.slotSample s n) := by
  unfold State.slotSample
  try dsimp only
  repeat' first
    | with_reducible assumption
    | intro _
    | with_reducible apply keeps_forUpTo
    | with_reducible apply keeps_ite
    | with_reducible apply State.adcDue_keeps
    | with_reducible apply State.updSlot_keeps
    | with_reducible apply State.praTake_keeps
    | with_reducible apply State.praSync_keeps
    | with_reducible apply State.praRaise_keeps
    | with_reducible apply State.praGo_keeps
    | with_reducible apply State.praDiscard_keeps
    | split
    | (with_reducible apply keeps_mk) <;> first
      | with_reducible assumption
      | intro _
      | with_reducible apply keeps_forUpTo
      | with_reducible apply keeps_ite
      | with_reducible apply State.adcDue_keeps
      | with_reducible apply State.updSlot_keeps
      | with_reducible apply State.praTake_keeps
      | with_reducible apply State.praSync_keeps
      | with_reducible apply State.praRaise_keeps
      | with_reducible apply State.praGo_keeps
      | with_reducible apply State.praDiscard_keeps
      | split

theorem State.praStart_keeps {o : State} {s : State} (hs : Keeps o s) :
    Keeps o (State.praStart s) := by
  unfold State.praStart
  try dsimp only
  repeat' first
    | with_reducible assumption
    | intro _
    | with_reducible apply keeps_ite
    | split
    | (with_reducible apply keeps_mk) <;> first
      | with_reducible assumption
      | intro _
      | with_reducible apply keeps_ite
      | split

theorem State.praSet_keeps {o : State} {s : State} {n v : Nat} (hs : Keeps o s) :
    Keeps o (State.praSet s n v) := by
  unfold State.praSet
  try dsimp only
  repeat' first
    | with_reducible assumption
    | intro _
    | with_reducible apply State.wrw_keeps
    | split

theorem State.praCap_keeps {o : State} {s : State} {n v : Nat} (hs : Keeps o s) :
    Keeps o (State.praCap s n v) := by
  unfold State.praCap
  try dsimp only
  repeat' first
    | with_reducible assumption
    | intro _
    | with_reducible apply State.wr_keeps
    | split

theorem State.praSwaps_keeps {o : State} {s : State} (hs : Keeps o s) :
    Keeps o (State.praSwaps s) := by
  unfold State.praSwaps forUpTo
  refine foldl_keeps (P := fun x : State × List Nat => Keeps o x.1) hs fun x n hx => ?_
  obtain ⟨s, taken⟩ := x
  dsimp only
  split
  · refine keeps_ite (fun _ => ?_) fun _ => State.praSwap_keeps hx
    exact hx.same rfl rfl
  · exact hx

theorem State.swapRequest_keeps {o : State} {s : State} {n v : Nat} (hs : Keeps o s) :
    Keeps o (State.swapRequest s n v) := by
  unfold State.swapRequest
  try dsimp only
  repeat' first
    | with_reducible assumption
    | intro _
    | with_reducible apply keeps_ite
    | with_reducible apply State.plainWrite_keeps
    | with_reducible apply State.wr_keeps
    | with_reducible apply State.praSwaps_keeps
    | split

theorem State.praSlotCtrl_keeps {o : State} {s : State} {n v : Nat} (hs : Keeps o s) :
    Keeps o (State.praSlotCtrl s n v) := by
  unfold State.praSlotCtrl
  try dsimp only
  repeat' first
    | with_reducible assumption
    | intro _
    | with_reducible apply keeps_ite
    | with_reducible apply State.plainWrite_keeps
    | with_reducible apply State.wr_keeps
    | with_reducible apply State.praOn_keeps
    | with_reducible apply State.praOffNow_keeps
    | with_reducible apply State.praSyncCmd_keeps
    | split

theorem State.praSlotWrite_keeps {o : State} {s : State} {n a2 v : Nat} (hs : Keeps o s) :
    Keeps o (State.praSlotWrite s n a2 v) := by
  unfold State.praSlotWrite
  try dsimp only
  repeat' first
    | with_reducible assumption
    | intro _
    | with_reducible apply State.praSlotCtrl_keeps
    | with_reducible apply State.wr_keeps
    | with_reducible apply State.plainWrite_keeps
    | with_reducible apply State.swapRequest_keeps
    | split

theorem State.praCtrl_keeps {o : State} {s : State} {v : Nat} (hs : Keeps o s) :
    Keeps o (State.praCtrl s v) := by
  unfold State.praCtrl
  try dsimp only
  repeat' first
    | with_reducible assumption
    | intro _
    | with_reducible apply keeps_ite
    | with_reducible apply State.plainWrite_keeps
    | with_reducible apply State.praAllOff_keeps
    | split

theorem State.praLoad_keeps {o : State} {s : State} {v : Nat} (hs : Keeps o s) :
    Keeps o (State.praLoad s v) := by
  unfold State.praLoad
  try dsimp only
  repeat' first
    | with_reducible assumption
    | intro _
    | with_reducible apply keeps_ite
    | with_reducible apply State.wr_keeps
    | split

theorem State.praWrite_keeps {o : State} {s : State} {a1 v : Nat} (hs : Keeps o s) :
    Keeps o (State.praWrite s a1 v) := by
  unfold State.praWrite
  try dsimp only
  repeat' first
    | with_reducible assumption
    | intro _
    | with_reducible apply keeps_ite
    | with_reducible apply State.praSlotWrite_keeps
    | with_reducible apply State.praCtrl_keeps
    | with_reducible apply State.praLoad_keeps
    | with_reducible apply State.wr_keeps
    | with_reducible apply State.plainWrite_keeps
    | split

theorem State.adcWrite_keeps {o : State} {s : State} {a1 v : Nat} (hs : Keeps o s) :
    Keeps o (State.adcWrite s a1 v) := by
  unfold State.adcWrite
  try dsimp only
  repeat' first
    | with_reducible assumption
    | intro _
    | with_reducible apply keeps_ite
    | with_reducible apply State.raise_keeps
    | with_reducible apply State.plainWrite_keeps
    | with_reducible apply State.adcNext_keeps
    | split

theorem State.lpoDue_keeps {o : State} {s : State} {j : Nat} (hs : Keeps o s) :
    Keeps o (State.lpoDue s j) := by
  unfold State.lpoDue
  try dsimp only
  repeat' first
    | with_reducible assumption
    | intro _
    | with_reducible apply keeps_ite
    | split
    | (with_reducible apply keeps_mk) <;> first
      | with_reducible assumption
      | intro _
      | with_reducible apply keeps_ite
      | split

theorem State.praDueNow_keeps {o : State} {s : State} (hs : Keeps o s) :
    Keeps o (State.praDueNow s) := by
  unfold State.praDueNow
  try dsimp only
  repeat' first
    | with_reducible assumption
    | intro _
    | with_reducible apply keeps_forUpTo
    | with_reducible apply State.frameStart_keeps
    | with_reducible apply State.loopComputation_keeps
    | with_reducible apply State.adcDue_keeps
    | with_reducible apply State.praStart_keeps
    | with_reducible apply State.slotSample_keeps
    | with_reducible apply State.lpoDue_keeps
    | split

theorem State.sensorEdge_keeps {o : State} {s : State} {n : Nat} {up : Bool} (hs : Keeps o s) :
    Keeps o (State.sensorEdge s n up) := by
  unfold State.sensorEdge
  try dsimp only
  repeat' first
    | with_reducible assumption
    | intro _
    | with_reducible apply keeps_ite
    | split
    | (with_reducible apply keeps_mk) <;> first
      | with_reducible assumption
      | intro _
      | with_reducible apply keeps_ite
      | split

theorem State.encoderEdge_keeps {o : State} {s : State} {n : Nat} {up : Bool} (hs : Keeps o s) :
    Keeps o (State.encoderEdge s n up) := by
  unfold State.encoderEdge
  try dsimp only
  repeat' first
    | with_reducible assumption
    | intro _
    | with_reducible apply keeps_ite
    | split
    | (with_reducible apply keeps_mk) <;> first
      | with_reducible assumption
      | intro _
      | with_reducible apply keeps_ite
      | split

end Sys2Proof.Machine
end

