-- ==== Sys2Proof/Laws/KeepsPwr.lean ====
section
/-! SUPPORT. What `Keeps` says holds of every operation of Pwr.lean. -/

namespace Sys2Proof.Machine

theorem State.setEn_keeps {o : State} {s : State} {r : Nat} {up : Bool} (hs : Keeps o s) :
    Keeps o (State.setEn s r up) := by
  unfold State.setEn
  try dsimp only
  repeat' first
    | with_reducible assumption
    | intro _
    | with_reducible apply keeps_ite
    | with_reducible apply State.wr_keeps
    | with_reducible apply State.updStations_keeps
    | with_reducible apply State.updRail_keeps
    | split

theorem State.toStep_keeps {o : State} {s : State} {steps : List Nat} {done : Nat} (hs : Keeps o s) :
    Keeps o (State.toStep s steps done) := by
  unfold State.toStep
  try dsimp only
  repeat' first
    | with_reducible assumption
    | intro _
    | with_reducible apply State.wr_keeps
    | split
    | (with_reducible apply keeps_mk) <;> first
      | with_reducible assumption
      | intro _
      | with_reducible apply State.wr_keeps
      | split

theorem State.upSequence_keeps {o : State} {s : State} {eve : Bool} (hs : Keeps o s) :
    Keeps o (State.upSequence s eve) := by
  unfold State.upSequence
  try dsimp only
  repeat' first
    | with_reducible assumption
    | intro _
    | with_reducible apply keeps_forUpTo
    | with_reducible apply keeps_ite
    | with_reducible apply State.wrw_keeps
    | with_reducible apply State.setEn_keeps
    | with_reducible apply State.toStep_keeps
    | with_reducible apply State.wr_keeps
    | split
    | (with_reducible apply keeps_mk) <;> first
      | with_reducible assumption
      | intro _
      | with_reducible apply keeps_forUpTo
      | with_reducible apply keeps_ite
      | with_reducible apply State.wrw_keeps
      | with_reducible apply State.setEn_keeps
      | with_reducible apply State.toStep_keeps
      | with_reducible apply State.wr_keeps
      | split

theorem State.downSequence_keeps {o : State} {s : State} {eve : Bool} (hs : Keeps o s) :
    Keeps o (State.downSequence s eve) := by
  unfold State.downSequence
  try dsimp only
  repeat' first
    | with_reducible assumption
    | intro _
    | with_reducible apply keeps_forUpTo
    | with_reducible apply keeps_ite
    | with_reducible apply State.setEn_keeps
    | with_reducible apply State.toStep_keeps
    | with_reducible apply State.wr_keeps
    | split
    | (with_reducible apply keeps_mk) <;> first
      | with_reducible assumption
      | intro _
      | with_reducible apply keeps_forUpTo
      | with_reducible apply keeps_ite
      | with_reducible apply State.setEn_keeps
      | with_reducible apply State.toStep_keeps
      | with_reducible apply State.wr_keeps
      | split

theorem State.upStep_keeps {o : State} {s : State} (hs : Keeps o s) :
    Keeps o (State.upStep s) := by
  unfold State.upStep
  try dsimp only
  repeat' first
    | with_reducible assumption
    | intro _
    | with_reducible apply keeps_ite
    | with_reducible apply State.setEn_keeps
    | with_reducible apply State.toStep_keeps
    | split
    | (with_reducible apply keeps_mk) <;> first
      | with_reducible assumption
      | intro _
      | with_reducible apply keeps_ite
      | with_reducible apply State.setEn_keeps
      | with_reducible apply State.toStep_keeps
      | split

theorem State.railUp_keeps {o : State} {s : State} {r : Nat} (hs : Keeps o s) :
    Keeps o (State.railUp s r) := by
  unfold State.railUp
  try dsimp only
  repeat' first
    | with_reducible assumption
    | intro _
    | with_reducible apply keeps_ite
    | with_reducible apply State.wr_keeps
    | with_reducible apply State.updStations_keeps
    | with_reducible apply State.updRail_keeps
    | with_reducible apply State.toStep_keeps
    | split

theorem State.upTimeout_keeps {o : State} {s : State} (hs : Keeps o s) :
    Keeps o (State.upTimeout s) := by
  unfold State.upTimeout
  try dsimp only
  repeat' first
    | with_reducible assumption
    | intro _
    | with_reducible apply keeps_ite
    | with_reducible apply State.wr_keeps
    | with_reducible apply State.raiseInst_keeps
    | split
    | (with_reducible apply keeps_mk) <;> first
      | with_reducible assumption
      | intro _
      | with_reducible apply keeps_ite
      | with_reducible apply State.wr_keeps
      | with_reducible apply State.raiseInst_keeps
      | split

theorem State.downBegin_keeps {o : State} {s : State} (hs : Keeps o s) :
    Keeps o (State.downBegin s) := by
  unfold State.downBegin
  try dsimp only
  repeat' first
    | with_reducible assumption
    | intro _
    | with_reducible apply keeps_ite
    | split
    | (with_reducible apply keeps_mk) <;> first
      | with_reducible assumption
      | intro _
      | with_reducible apply keeps_ite
      | split

theorem State.downStep_keeps {o : State} {s : State} (hs : Keeps o s) :
    Keeps o (State.downStep s) := by
  unfold State.downStep
  try dsimp only
  repeat' first
    | with_reducible assumption
    | intro _
    | with_reducible apply keeps_ite
    | with_reducible apply State.toStep_keeps
    | with_reducible apply State.setEn_keeps
    | with_reducible apply State.upSequence_keeps
    | split
    | (with_reducible apply keeps_mk) <;> first
      | with_reducible assumption
      | intro _
      | with_reducible apply keeps_ite
      | with_reducible apply State.toStep_keeps
      | with_reducible apply State.setEn_keeps
      | with_reducible apply State.upSequence_keeps
      | split

theorem State.snapshot_keeps {o : State} {s : State} {source : Nat} {cmp high : Bool} (hs : Keeps o s) :
    Keeps o (State.snapshot s source cmp high) := by
  unfold State.snapshot
  try dsimp only
  repeat' first
    | with_reducible assumption
    | intro _
    | with_reducible apply keeps_forUpTo
    | with_reducible apply keeps_ite
    | with_reducible apply State.wr64_keeps
    | with_reducible apply State.wrw_keeps
    | split

theorem State.groupReaction_keeps {o : State} {s : State} {r : Nat} (hs : Keeps o s) :
    Keeps o (State.groupReaction s r) := by
  unfold State.groupReaction
  try dsimp only
  repeat' first
    | with_reducible assumption
    | intro _
    | with_reducible apply keeps_forUpTo
    | with_reducible apply keeps_ite
    | with_reducible apply State.updRail_keeps
    | with_reducible apply State.setEn_keeps
    | with_reducible apply State.wr_keeps
    | split

theorem State.resetReaction_keeps {o : State} {s : State} (hs : Keeps o s) :
    Keeps o (State.resetReaction s) := by
  unfold State.resetReaction
  try dsimp only
  repeat' first
    | with_reducible assumption
    | intro _
    | with_reducible apply keeps_ite
    | with_reducible apply State.downSequence_keeps
    | with_reducible apply State.upSequence_keeps
    | split
    | (with_reducible apply keeps_mk) <;> first
      | with_reducible assumption
      | intro _
      | with_reducible apply keeps_ite
      | with_reducible apply State.downSequence_keeps
      | with_reducible apply State.upSequence_keeps
      | split

theorem State.railRaise_keeps {o : State} {s : State} {i r : Nat} (hs : Keeps o s) :
    Keeps o (State.railRaise s i r) := by
  unfold State.railRaise
  try dsimp only
  repeat' first
    | with_reducible assumption
    | intro _
    | with_reducible apply keeps_ite
    | with_reducible apply State.raise_keeps
    | with_reducible apply State.wr_keeps
    | split

theorem State.retryOff_keeps {o : State} {s : State} {r tries : Nat} (hs : Keeps o s) :
    Keeps o (State.retryOff s r tries) := by
  unfold State.retryOff
  try dsimp only
  repeat' first
    | with_reducible assumption
    | intro _
    | with_reducible apply State.updRail_keeps
    | with_reducible apply State.setEn_keeps
    | split

theorem State.railReact_keeps {o : State} {s : State} {r : Nat} (hs : Keeps o s) :
    Keeps o (State.railReact s r) := by
  unfold State.railReact
  try dsimp only
  repeat' first
    | with_reducible assumption
    | intro _
    | with_reducible apply keeps_ite
    | with_reducible apply State.retryOff_keeps
    | with_reducible apply State.groupReaction_keeps
    | with_reducible apply State.resetReaction_keeps
    | split

theorem State.railFault_keeps {o : State} {s : State} {r : Nat} {cmp high : Bool} (hs : Keeps o s) :
    Keeps o (State.railFault s r cmp high) := by
  unfold State.railFault
  try dsimp only
  repeat' first
    | with_reducible assumption
    | intro _
    | with_reducible apply State.snapshot_keeps
    | with_reducible apply State.inc_keeps
    | with_reducible apply State.railRaise_keeps
    | with_reducible apply State.wr_keeps
    | with_reducible apply State.railReact_keeps
    | with_reducible apply State.updStations_keeps
    | with_reducible apply State.updRail_keeps
    | split

theorem State.comparatorFault_keeps {o : State} {s : State} {r : Nat} {high : Bool} (hs : Keeps o s) :
    Keeps o (State.comparatorFault s r high) := by
  unfold State.comparatorFault
  try dsimp only
  repeat' first
    | with_reducible assumption
    | intro _
    | with_reducible apply keeps_ite
    | with_reducible apply State.railFault_keeps
    | split

theorem State.scanFault_keeps {o : State} {s : State} {r : Nat} (hs : Keeps o s) :
    Keeps o (State.scanFault s r) := by
  unfold State.scanFault
  try dsimp only
  repeat' first
    | with_reducible assumption
    | intro _
    | with_reducible apply keeps_ite
    | with_reducible apply State.railFault_keeps
    | split

theorem State.retryFailed_keeps {o : State} {s : State} {r : Nat} (hs : Keeps o s) :
    Keeps o (State.retryFailed s r) := by
  unfold State.retryFailed
  try dsimp only
  repeat' first
    | with_reducible assumption
    | intro _
    | with_reducible apply keeps_ite
    | with_reducible apply State.groupReaction_keeps
    | with_reducible apply State.raiseInst_keeps
    | with_reducible apply State.retryOff_keeps
    | split

theorem State.retryTimer_keeps {o : State} {s : State} {r : Nat} (hs : Keeps o s) :
    Keeps o (State.retryTimer s r) := by
  unfold State.retryTimer
  try dsimp only
  repeat' first
    | with_reducible assumption
    | intro _
    | with_reducible apply keeps_ite
    | with_reducible apply State.updRail_keeps
    | with_reducible apply State.setEn_keeps
    | with_reducible apply State.retryFailed_keeps
    | split

theorem State.pwrDue_keeps {o : State} {s : State} (hs : Keeps o s) :
    Keeps o (State.pwrDue s) := by
  unfold State.pwrDue
  try dsimp only
  repeat' first
    | with_reducible assumption
    | intro _
    | with_reducible apply keeps_forUpTo
    | with_reducible apply State.downStep_keeps
    | with_reducible apply State.downBegin_keeps
    | with_reducible apply State.upTimeout_keeps
    | with_reducible apply State.upStep_keeps
    | with_reducible apply State.retryTimer_keeps
    | split

theorem State.pwrCmdError_keeps {o : State} {s : State} {u : Nat} (hs : Keeps o s) :
    Keeps o (State.pwrCmdError s u) := by
  unfold State.pwrCmdError
  try dsimp only
  repeat' first
    | with_reducible assumption
    | intro _
    | with_reducible apply keeps_ite
    | with_reducible apply State.raiseInst_keeps
    | with_reducible apply State.raise_keeps
    | split

theorem State.railSwitch_keeps {o : State} {s : State} {u : Nat} {act : State → State} (hs : Keeps o s) (hact : ∀ (b0 : State), Keeps o b0
    → Keeps o (act b0)) :
    Keeps o (State.railSwitch s u act) := by
  unfold State.railSwitch
  try dsimp only
  repeat' first
    | with_reducible assumption
    | intro _
    | with_reducible apply hact
    | with_reducible apply keeps_ite
    | with_reducible apply State.pwrCmdError_keeps
    | split

theorem State.pwrOn_keeps {o : State} {s : State} {u : Nat} (hs : Keeps o s) :
    Keeps o (State.pwrOn s u) := by
  unfold State.pwrOn
  try dsimp only
  repeat' first
    | with_reducible assumption
    | intro _
    | with_reducible apply State.railSwitch_keeps
    | with_reducible apply State.wr_keeps
    | with_reducible apply State.setEn_keeps
    | split

theorem State.pwrOff_keeps {o : State} {s : State} {u : Nat} (hs : Keeps o s) :
    Keeps o (State.pwrOff s u) := by
  unfold State.pwrOff
  try dsimp only
  repeat' first
    | with_reducible assumption
    | intro _
    | with_reducible apply State.railSwitch_keeps
    | with_reducible apply State.setEn_keeps
    | split

theorem State.pwrCtrl_keeps {o : State} {s : State} {v : Nat} (hs : Keeps o s) :
    Keeps o (State.pwrCtrl s v) := by
  unfold State.pwrCtrl
  try dsimp only
  repeat' first
    | with_reducible assumption
    | intro _
    | with_reducible apply keeps_ite
    | with_reducible apply State.plainWrite_keeps
    | with_reducible apply State.wr_keeps
    | split

theorem State.railCfg_keeps {o : State} {s : State} {r v : Nat} (hs : Keeps o s) :
    Keeps o (State.railCfg s r v) := by
  unfold State.railCfg
  try dsimp only
  repeat' first
    | with_reducible assumption
    | intro _
    | with_reducible apply State.plainWrite_keeps
    | with_reducible apply State.wr_keeps
    | split

theorem State.pwrWrite_keeps {o : State} {s : State} {a1 v : Nat} (hs : Keeps o s) :
    Keeps o (State.pwrWrite s a1 v) := by
  unfold State.pwrWrite
  try dsimp only
  repeat' first
    | with_reducible assumption
    | intro _
    | with_reducible apply keeps_ite
    | with_reducible apply State.pwrCtrl_keeps
    | with_reducible apply State.updStations_keeps
    | with_reducible apply State.plainWrite_keeps
    | with_reducible apply State.wr_keeps
    | with_reducible apply State.railCfg_keeps
    | with_reducible apply State.pwrOn_keeps
    | with_reducible apply State.pwrOff_keeps
    | split

theorem State.divApply_keeps {o : State} {s : State} (hs : Keeps o s) :
    Keeps o (State.divApply s) := by
  unfold State.divApply
  try dsimp only
  repeat' first
    | with_reducible assumption
    | intro _
    | with_reducible apply keeps_forUpTo
    | with_reducible apply keeps_ite
    | with_reducible apply State.wr_keeps
    | with_reducible apply State.wrw_keeps
    | with_reducible apply State.raise_keeps
    | split

theorem State.divCommit_keeps {o : State} {s : State} (hs : Keeps o s) :
    Keeps o (State.divCommit s) := by
  unfold State.divCommit
  try dsimp only
  repeat' first
    | with_reducible assumption
    | intro _
    | with_reducible apply keeps_ite
    | with_reducible apply State.wr_keeps
    | with_reducible apply State.divApply_keeps
    | split

theorem State.clkWrite_keeps {o : State} {s : State} {a1 v : Nat} (hs : Keeps o s) :
    Keeps o (State.clkWrite s a1 v) := by
  unfold State.clkWrite
  try dsimp only
  repeat' first
    | with_reducible assumption
    | intro _
    | with_reducible apply keeps_ite
    | with_reducible apply State.divCommit_keeps
    | with_reducible apply State.plainWrite_keeps
    | split

end Sys2Proof.Machine
end

