-- ==== Sys2Proof/Laws/KeepsPmx.lean ====
section
/-! SUPPORT. What `Keeps` says holds of every operation of Pmx.lean. -/

namespace Sys2Proof.Machine

theorem State.claimDenied_keeps {o : State} {s : State} {l : List Nat} (hs : Keeps o s) :
    Keeps o (State.claimDenied s l) := by
  unfold State.claimDenied
  try dsimp only
  repeat' first
    | with_reducible assumption
    | intro _
    | with_reducible apply keeps_ite
    | with_reducible apply State.wr_keeps
    | with_reducible apply State.faultHeld_keeps
    | split
    | (with_reducible apply keeps_mk) <;> first
      | with_reducible assumption
      | intro _
      | with_reducible apply keeps_ite
      | with_reducible apply State.wr_keeps
      | with_reducible apply State.faultHeld_keeps
      | split

theorem State.finCut_keeps {o : State} {s : State} (hs : Keeps o s) :
    Keeps o (State.finCut s) := by
  unfold State.finCut
  try dsimp only
  repeat' first
    | with_reducible assumption
    | intro _
    | with_reducible apply keeps_ite
    | split
    | (with_reducible apply keeps_mk) <;> first
      | with_reducible assumption
      | intro _
      | with_reducible apply keeps_ite
      | split

theorem State.claimsLost_keeps {o : State} {s : State} {before : List Grant} (hs : Keeps o s) :
    Keeps o (State.claimsLost s before) := by
  unfold State.claimsLost
  try dsimp only
  repeat' first
    | with_reducible assumption
    | intro _
    | with_reducible apply keeps_forUpTo
    | with_reducible apply keeps_ite
    | with_reducible apply State.raiseInst_keeps
    | with_reducible apply State.disarm_keeps
    | with_reducible apply State.wr_keeps
    | with_reducible apply State.dmaClaimLost_keeps
    | with_reducible apply State.bldClaimLost_keeps
    | with_reducible apply State.stpClaimLost_keeps
    | with_reducible apply State.finCut_keeps
    | with_reducible apply State.updStations_keeps
    | split

theorem State.claimCommit_keeps {o : State} {s : State} (hs : Keeps o s) :
    Keeps o (State.claimCommit s) := by
  unfold State.claimCommit
  try dsimp only
  repeat' first
    | with_reducible assumption
    | intro _
    | with_reducible apply keeps_forUpTo
    | with_reducible apply keeps_ite
    | with_reducible apply State.wr_keeps
    | with_reducible apply State.claimDenied_keeps
    | with_reducible apply State.claimsLost_keeps
    | split
    | (with_reducible apply keeps_mk) <;> first
      | with_reducible assumption
      | intro _
      | with_reducible apply keeps_forUpTo
      | with_reducible apply keeps_ite
      | with_reducible apply State.wr_keeps
      | with_reducible apply State.claimDenied_keeps
      | with_reducible apply State.claimsLost_keeps
      | split

theorem State.claimRequest_keeps {o : State} {s : State} (hs : Keeps o s) :
    Keeps o (State.claimRequest s) := by
  unfold State.claimRequest
  try dsimp only
  repeat' first
    | with_reducible assumption
    | intro _
    | with_reducible apply keeps_ite
    | with_reducible apply State.wr_keeps
    | with_reducible apply State.claimCommit_keeps
    | split

theorem State.timerCtrl_keeps {o : State} {s : State} {t v : Nat} (hs : Keeps o s) :
    Keeps o (State.timerCtrl s t v) := by
  unfold State.timerCtrl
  try dsimp only
  repeat' first
    | with_reducible assumption
    | intro _
    | with_reducible apply keeps_ite
    | with_reducible apply State.plainWrite_keeps
    | with_reducible apply State.wr_keeps
    | split
    | (with_reducible apply keeps_mk) <;> first
      | with_reducible assumption
      | intro _
      | with_reducible apply keeps_ite
      | with_reducible apply State.plainWrite_keeps
      | with_reducible apply State.wr_keeps
      | split

theorem State.timerNext_keeps {o : State} {s : State} {t : Nat} (hs : Keeps o s) :
    Keeps o (State.timerNext s t) := by
  unfold State.timerNext
  try dsimp only
  repeat' first
    | with_reducible assumption
    | intro _
    | with_reducible apply keeps_ite
    | with_reducible apply State.wr_keeps
    | split
    | (with_reducible apply keeps_mk) <;> first
      | with_reducible assumption
      | intro _
      | with_reducible apply keeps_ite
      | with_reducible apply State.wr_keeps
      | split

theorem State.timerRoll_keeps {o : State} {s : State} {t : Nat} (hs : Keeps o s) :
    Keeps o (State.timerRoll s t) := by
  unfold State.timerRoll
  try dsimp only
  repeat' first
    | with_reducible assumption
    | intro _
    | with_reducible apply keeps_ite
    | with_reducible apply State.timerNext_keeps
    | split

theorem State.timerCap_keeps {o : State} {s : State} {t value : Nat} (hs : Keeps o s) :
    Keeps o (State.timerCap s t value) := by
  unfold State.timerCap
  try dsimp only
  repeat' first
    | with_reducible assumption
    | intro _
    | with_reducible apply State.wr_keeps
    | with_reducible apply State.wr64_keeps
    | split

theorem State.windowCapture_keeps {o : State} {s : State} {t : Nat} (hs : Keeps o s) :
    Keeps o (State.windowCapture s t) := by
  unfold State.windowCapture
  try dsimp only
  repeat' first
    | with_reducible assumption
    | intro _
    | with_reducible apply keeps_ite
    | with_reducible apply State.timerRoll_keeps
    | with_reducible apply State.timerCap_keeps
    | with_reducible apply State.timerNext_keeps
    | split
    | (with_reducible apply keeps_mk) <;> first
      | with_reducible assumption
      | intro _
      | with_reducible apply keeps_ite
      | with_reducible apply State.timerRoll_keeps
      | with_reducible apply State.timerCap_keeps
      | with_reducible apply State.timerNext_keeps
      | split

theorem State.windowEnd_keeps {o : State} {s : State} {t : Nat} (hs : Keeps o s) :
    Keeps o (State.windowEnd s t) := by
  unfold State.windowEnd
  try dsimp only
  repeat' first
    | with_reducible assumption
    | intro _
    | with_reducible apply keeps_ite
    | with_reducible apply State.timerNext_keeps
    | with_reducible apply State.wr_keeps
    | split

theorem State.encoderLatch_keeps {o : State} {s : State} {t : Nat} (hs : Keeps o s) :
    Keeps o (State.encoderLatch s t) := by
  unfold State.encoderLatch
  try dsimp only
  repeat' first
    | with_reducible assumption
    | intro _
    | with_reducible apply keeps_ite
    | with_reducible apply State.timerNext_keeps
    | with_reducible apply State.timerCap_keeps
    | split

theorem State.pmxWrite_keeps {o : State} {s : State} {a1 v : Nat} (hs : Keeps o s) :
    Keeps o (State.pmxWrite s a1 v) := by
  unfold State.pmxWrite
  try dsimp only
  repeat' first
    | with_reducible assumption
    | intro _
    | with_reducible apply keeps_ite
    | with_reducible apply State.claimRequest_keeps
    | with_reducible apply State.clearStatus_keeps
    | with_reducible apply State.writeIrqEn_keeps
    | with_reducible apply State.timerCtrl_keeps
    | with_reducible apply State.plainWrite_keeps
    | split

end Sys2Proof.Machine
end

