-- ==== Sys2Proof/Laws/KeepsCal.lean ====
section
/-! SUPPORT. What `Keeps` says holds of every operation of Cal.lean. -/

namespace Sys2Proof.Machine

theorem State.bldWrite_keeps {o : State} {s : State} {a1 v : Nat} (hs : Keeps o s) :
    Keeps o (State.bldWrite s a1 v) := by
  unfold State.bldWrite
  try dsimp only
  repeat' first
    | with_reducible assumption
    | intro _
    | with_reducible apply keeps_ite
    | with_reducible apply State.bldChannelWrite_keeps
    | with_reducible apply State.bldEnable_keeps
    | with_reducible apply State.plainWrite_keeps
    | split

theorem State.stpWrite_keeps {o : State} {s : State} {a1 v : Nat} (hs : Keeps o s) :
    Keeps o (State.stpWrite s a1 v) := by
  unfold State.stpWrite
  try dsimp only
  repeat' first
    | with_reducible assumption
    | intro _
    | with_reducible apply keeps_ite
    | with_reducible apply State.stpChannelWrite_keeps
    | with_reducible apply State.stpEnable_keeps
    | with_reducible apply State.plainWrite_keeps
    | split

theorem State.engineWrite_keeps {o : State} {s : State} {off v : Nat} (hs : Keeps o s) :
    Keeps o (State.engineWrite s off v) := by
  unfold State.engineWrite
  try dsimp only
  repeat' first
    | with_reducible assumption
    | intro _
    | with_reducible apply keeps_ite
    | with_reducible apply State.btmWrite_keeps
    | with_reducible apply State.bmkWrite_keeps
    | with_reducible apply State.plainWrite_keeps
    | with_reducible apply State.bldWrite_keeps
    | with_reducible apply State.stpWrite_keeps
    | with_reducible apply State.praWrite_keeps
    | with_reducible apply State.adcWrite_keeps
    | split

theorem State.calEntry_keeps {o : State} {s : State} {b n : Nat} (hs : Keeps o s) :
    Keeps o (State.calEntry s b n) := by
  unfold State.calEntry
  try dsimp only
  repeat' first
    | with_reducible assumption
    | intro _
    | with_reducible apply keeps_ite
    | with_reducible apply State.raise_keeps
    | with_reducible apply State.wrw_keeps
    | with_reducible apply State.engineWrite_keeps
    | with_reducible apply State.takeTrim_keeps
    | split

theorem State.calApply_keeps {o : State} {s : State} (hs : Keeps o s) :
    Keeps o (State.calApply s) := by
  unfold State.calApply
  try dsimp only
  repeat' first
    | with_reducible assumption
    | intro _
    | with_reducible apply keeps_forUpTo
    | with_reducible apply keeps_ite
    | with_reducible apply State.inc_keeps
    | with_reducible apply State.calEntry_keeps
    | split

theorem State.calSwitch_keeps {o : State} {s : State} (hs : Keeps o s) :
    Keeps o (State.calSwitch s) := by
  unfold State.calSwitch
  try dsimp only
  repeat' first
    | with_reducible assumption
    | intro _
    | with_reducible apply keeps_ite
    | with_reducible apply State.wr_keeps
    | with_reducible apply State.raise_keeps
    | split

theorem State.calStep_keeps {o : State} {s : State} (hs : Keeps o s) :
    Keeps o (State.calStep s) := by
  unfold State.calStep
  try dsimp only
  repeat' first
    | with_reducible assumption
    | intro _
    | with_reducible apply State.calApply_keeps
    | with_reducible apply State.calSwitch_keeps
    | split

theorem State.calTick_keeps {o : State} {s : State} (hs : Keeps o s) :
    Keeps o (State.calTick s) := by
  unfold State.calTick
  try dsimp only
  repeat' first
    | with_reducible assumption
    | intro _
    | with_reducible apply keeps_ite
    | with_reducible apply State.calStep_keeps
    | split
    | (with_reducible apply keeps_mk) <;> first
      | with_reducible assumption
      | intro _
      | with_reducible apply keeps_ite
      | with_reducible apply State.calStep_keeps
      | split

theorem State.calCtrl_keeps {o : State} {s : State} {v : Nat} (hs : Keeps o s) :
    Keeps o (State.calCtrl s v) := by
  unfold State.calCtrl
  try dsimp only
  repeat' first
    | with_reducible assumption
    | intro _
    | with_reducible apply keeps_ite
    | with_reducible apply State.plainWrite_keeps
    | with_reducible apply State.wr_keeps
    | with_reducible apply State.calSwitch_keeps
    | with_reducible apply State.calApply_keeps
    | split

theorem State.calInstall_keeps {o : State} {s : State} {n : Nat} (hs : Keeps o s) :
    Keeps o (State.calInstall s n) := by
  unfold State.calInstall
  try dsimp only
  repeat' first
    | with_reducible assumption
    | intro _
    | with_reducible apply keeps_forUpTo
    | with_reducible apply keeps_ite
    | with_reducible apply State.wrw_keeps
    | split

theorem State.calCheck_keeps {o : State} {s : State} (hs : Keeps o s) :
    Keeps o (State.calCheck s) := by
  unfold State.calCheck
  try dsimp only
  repeat' first
    | with_reducible assumption
    | intro _
    | with_reducible apply keeps_ite
    | with_reducible apply State.wr_keeps
    | with_reducible apply State.inc_keeps
    | with_reducible apply State.calInstall_keeps
    | with_reducible apply State.raise_keeps
    | with_reducible apply State.vesper_keeps
    | split

theorem State.calCheckCtrl_keeps {o : State} {s : State} {v : Nat} (hs : Keeps o s) :
    Keeps o (State.calCheckCtrl s v) := by
  unfold State.calCheckCtrl
  try dsimp only
  repeat' first
    | with_reducible assumption
    | intro _
    | with_reducible apply keeps_ite
    | with_reducible apply State.plainWrite_keeps
    | with_reducible apply State.calCheck_keeps
    | split

theorem State.calWrite_keeps {o : State} {s : State} {a1 v : Nat} (hs : Keeps o s) :
    Keeps o (State.calWrite s a1 v) := by
  unfold State.calWrite
  try dsimp only
  repeat' first
    | with_reducible assumption
    | intro _
    | with_reducible apply keeps_ite
    | with_reducible apply State.raise_keeps
    | with_reducible apply State.plainWrite_keeps
    | with_reducible apply State.wr_keeps
    | with_reducible apply State.calCtrl_keeps
    | with_reducible apply State.calCheckCtrl_keeps
    | split

end Sys2Proof.Machine
end

