-- ==== Sys2Proof/Laws/KeepsCsm.lean ====
section
/-! SUPPORT. What `Keeps` says holds of every operation of Csm.lean. -/

namespace Sys2Proof.Machine

theorem State.csmRaise_keeps {o : State} {s : State} {i u : Nat} (hs : Keeps o s) :
    Keeps o (State.csmRaise s i u) := by
  unfold State.csmRaise
  try dsimp only
  repeat' first
    | with_reducible assumption
    | intro _
    | with_reducible apply State.raiseInst_keeps
    | split

theorem State.csmAuth_keeps {o : State} {s : State} {u : Nat} (hs : Keeps o s) :
    Keeps o (State.csmAuth s u) := by
  unfold State.csmAuth
  try dsimp only
  repeat' first
    | with_reducible assumption
    | intro _
    | with_reducible apply keeps_ite
    | with_reducible apply State.wr_keeps
    | split
    | (with_reducible apply keeps_mk) <;> first
      | with_reducible assumption
      | intro _
      | with_reducible apply keeps_ite
      | with_reducible apply State.wr_keeps
      | split

theorem State.csmLoad_keeps {o : State} {s : State} {u uid : Nat} (hs : Keeps o s) :
    Keeps o (State.csmLoad s u uid) := by
  unfold State.csmLoad
  try dsimp only
  repeat' first
    | with_reducible assumption
    | intro _
    | with_reducible apply keeps_foldl
    | with_reducible apply State.wrw_keeps
    | with_reducible apply State.wr_keeps
    | split

theorem State.csmAccept_keeps {o : State} {s : State} {u uid : Nat} (hs : Keeps o s) :
    Keeps o (State.csmAccept s u uid) := by
  unfold State.csmAccept
  try dsimp only
  repeat' first
    | with_reducible assumption
    | intro _
    | with_reducible apply keeps_ite
    | with_reducible apply State.wr_keeps
    | with_reducible apply State.wr64_keeps
    | with_reducible apply State.csmLoad_keeps
    | split

theorem State.authReply_keeps {o : State} {s : State} {u : Nat} {r : ChipReply} (hs : Keeps o s) :
    Keeps o (State.authReply s u r) := by
  unfold State.authReply
  try dsimp only
  repeat' first
    | with_reducible assumption
    | intro _
    | with_reducible apply keeps_ite
    | with_reducible apply State.csmRaise_keeps
    | with_reducible apply State.wr_keeps
    | with_reducible apply State.csmAccept_keeps
    | split

theorem State.csmUnitCtrl_keeps {o : State} {s : State} {u v : Nat} (hs : Keeps o s) :
    Keeps o (State.csmUnitCtrl s u v) := by
  unfold State.csmUnitCtrl
  try dsimp only
  repeat' first
    | with_reducible assumption
    | intro _
    | with_reducible apply keeps_ite
    | with_reducible apply State.csmInc_keeps
    | with_reducible apply State.csmAuth_keeps
    | split

theorem State.csmWrite_keeps {o : State} {s : State} {a1 v : Nat} (hs : Keeps o s) :
    Keeps o (State.csmWrite s a1 v) := by
  unfold State.csmWrite
  try dsimp only
  repeat' first
    | with_reducible assumption
    | intro _
    | with_reducible apply keeps_ite
    | with_reducible apply State.csmUnitCtrl_keeps
    | with_reducible apply State.wr_keeps
    | with_reducible apply State.plainWrite_keeps
    | split

end Sys2Proof.Machine
end

