-- ==== Sys2Proof/Laws/KeepsJrn.lean ====
section
/-! SUPPORT. What `Keeps` says holds of every operation of Jrn.lean. -/

namespace Sys2Proof.Machine

theorem State.xspSettled_keeps {o : State} {s : State} (hs : Keeps o s) :
    Keeps o (State.xspSettled s) := by
  unfold State.xspSettled
  try dsimp only
  repeat' first
    | with_reducible assumption
    | intro _
    | split
    | (with_reducible apply keeps_mk) <;> first
      | with_reducible assumption
      | intro _
      | split

theorem State.xspProgram_keeps {o : State} {s : State} {a : Nat} {bs : List Byte} (hs : Keeps o s) :
    Keeps o (State.xspProgram s a bs) := by
  unfold State.xspProgram
  try dsimp only
  repeat' first
    | with_reducible assumption
    | intro _
    | with_reducible apply State.inc_keeps
    | with_reducible apply State.xspSettled_keeps
    | with_reducible apply State.nvmWrite_keeps
    | split

theorem State.xspFail_keeps {o : State} {s : State} {r : NvmResult} (hs : Keeps o s) :
    Keeps o (State.xspFail s r) := by
  unfold State.xspFail
  try dsimp only
  repeat' first
    | with_reducible assumption
    | intro _
    | with_reducible apply State.raise_keeps
    | split

theorem State.xspGo_keeps {o : State} {s : State} (hs : Keeps o s) :
    Keeps o (State.xspGo s) := by
  unfold State.xspGo
  try dsimp only
  repeat' first
    | with_reducible assumption
    | intro _
    | with_reducible apply State.wr_keeps
    | split

theorem State.xspDone_keeps {o : State} {s : State} (hs : Keeps o s) :
    Keeps o (State.xspDone s) := by
  unfold State.xspDone
  try dsimp only
  repeat' first
    | with_reducible assumption
    | intro _
    | with_reducible apply keeps_ite
    | with_reducible apply State.wr_keeps
    | with_reducible apply State.wrw_keeps
    | with_reducible apply State.xspSettled_keeps
    | split

theorem State.jrnScan_keeps {o : State} {s : State} (hs : Keeps o s) :
    Keeps o (State.jrnScan s) := by
  unfold State.jrnScan
  try dsimp only
  repeat' first
    | with_reducible assumption
    | intro _
    | with_reducible apply keeps_forEach
    | with_reducible apply keeps_foldl
    | with_reducible apply keeps_ite
    | with_reducible apply State.wr64_keeps
    | with_reducible apply State.wrw_keeps
    | with_reducible apply State.raise_keeps
    | with_reducible apply State.jrnBoot_keeps
    | with_reducible apply State.jrnNumber_keeps
    | split
    | (with_reducible apply keeps_mk) <;> first
      | with_reducible assumption
      | intro _
      | with_reducible apply keeps_forEach
      | with_reducible apply keeps_foldl
      | with_reducible apply keeps_ite
      | with_reducible apply State.wr64_keeps
      | with_reducible apply State.wrw_keeps
      | with_reducible apply State.raise_keeps
      | with_reducible apply State.jrnBoot_keeps
      | with_reducible apply State.jrnNumber_keeps
      | split

theorem State.jrnKeep_keeps {o : State} {s : State} {e : JrnEntry} (hs : Keeps o s) :
    Keeps o (State.jrnKeep s e) := by
  unfold State.jrnKeep
  try dsimp only
  repeat' first
    | with_reducible assumption
    | intro _
    | split
    | (with_reducible apply keeps_mk) <;> first
      | with_reducible assumption
      | intro _
      | split

theorem State.jrnWritten_keeps {o : State} {s : State} {e : JrnEntry} (hs : Keeps o s) :
    Keeps o (State.jrnWritten s e) := by
  unfold State.jrnWritten
  try dsimp only
  repeat' first
    | with_reducible assumption
    | intro _
    | with_reducible apply keeps_foldl
    | with_reducible apply keeps_ite
    | with_reducible apply State.wr64_keeps
    | with_reducible apply State.count_keeps
    | with_reducible apply State.inc_keeps
    | split

theorem State.sendAck_keeps {o : State} {s : State} {dst seq : Nat} (hs : Keeps o s) :
    Keeps o (State.sendAck s dst seq) := by
  unfold State.sendAck
  try dsimp only
  repeat' first
    | with_reducible assumption
    | intro _
    | with_reducible apply State.fabEvent_keeps
    | split

theorem State.mateResend_keeps {o : State} {s : State} (hs : Keeps o s) :
    Keeps o (State.mateResend s) := by
  unfold State.mateResend
  try dsimp only
  repeat' first
    | with_reducible assumption
    | intro _
    | with_reducible apply keeps_forEach
    | with_reducible apply State.fabWrite_keeps
    | split
    | (with_reducible apply keeps_mk) <;> first
      | with_reducible assumption
      | intro _
      | with_reducible apply keeps_forEach
      | with_reducible apply State.fabWrite_keeps
      | split

theorem State.mateAck_keeps {o : State} {s : State} {q : Nat} (hs : Keeps o s) :
    Keeps o (State.mateAck s q) := by
  unfold State.mateAck
  try dsimp only
  repeat' first
    | with_reducible assumption
    | intro _
    | with_reducible apply keeps_ite
    | with_reducible apply State.mateResend_keeps
    | split
    | (with_reducible apply keeps_mk) <;> first
      | with_reducible assumption
      | intro _
      | with_reducible apply keeps_ite
      | with_reducible apply State.mateResend_keeps
      | split

theorem State.mateSilent_keeps {o : State} {s : State} (hs : Keeps o s) :
    Keeps o (State.mateSilent s) := by
  unfold State.mateSilent
  try dsimp only
  repeat' first
    | with_reducible assumption
    | intro _
    | with_reducible apply keeps_ite
    | with_reducible apply State.raise_keeps
    | split
    | (with_reducible apply keeps_mk) <;> first
      | with_reducible assumption
      | intro _
      | with_reducible apply keeps_ite
      | with_reducible apply State.raise_keeps
      | split

theorem State.jrnWrite_keeps {o : State} {s : State} {a1 v : Nat} (hs : Keeps o s) :
    Keeps o (State.jrnWrite s a1 v) := by
  unfold State.jrnWrite
  try dsimp only
  repeat' first
    | with_reducible assumption
    | intro _
    | with_reducible apply keeps_ite
    | with_reducible apply State.wr_keeps
    | with_reducible apply State.plainWrite_keeps
    | split

end Sys2Proof.Machine
end

