-- ==== Sys2Proof/Laws/KeepsHst.lean ====
section
/-! SUPPORT. What `Keeps` says holds of every operation of Hst.lean. -/

namespace Sys2Proof.Machine

theorem State.cplWrite_keeps {o : State} {s : State} {c : Cpl} (hs : Keeps o s) :
    Keeps o (State.cplWrite s c) := by
  unfold State.cplWrite
  try dsimp only
  repeat' first
    | with_reducible assumption
    | intro _
    | with_reducible apply keeps_ite
    | with_reducible apply State.hostWrite_keeps
    | with_reducible apply State.msixSend_keeps
    | split
    | (with_reducible apply keeps_mk) <;> first
      | with_reducible assumption
      | intro _
      | with_reducible apply keeps_ite
      | with_reducible apply State.hostWrite_keeps
      | with_reducible apply State.msixSend_keeps
      | split

theorem State.post_keeps {o : State} {s : State} {c : Cpl} (hs : Keeps o s) :
    Keeps o (State.post s c) := by
  unfold State.post
  try dsimp only
  repeat' first
    | with_reducible assumption
    | intro _
    | with_reducible apply keeps_ite
    | with_reducible apply State.cplWrite_keeps
    | split
    | (with_reducible apply keeps_mk) <;> first
      | with_reducible assumption
      | intro _
      | with_reducible apply keeps_ite
      | with_reducible apply State.cplWrite_keeps
      | split

theorem State.drainReady_keeps {o : State} {s : State} {n : Nat} (hs : Keeps o s) :
    Keeps o (State.drainReady s n) := by
  unfold State.drainReady
  try dsimp only
  repeat' first
    | with_reducible assumption
    | intro _
    | with_reducible apply keeps_forEach
    | with_reducible apply keeps_ite
    | with_reducible apply State.post_keeps
    | split
    | (with_reducible apply keeps_mk) <;> first
      | with_reducible assumption
      | intro _
      | with_reducible apply keeps_forEach
      | with_reducible apply keeps_ite
      | with_reducible apply State.post_keeps
      | split

theorem State.pumpCpl_keeps {o : State} {s : State} (hs : Keeps o s) :
    Keeps o (State.pumpCpl s) := by
  unfold State.pumpCpl
  try dsimp only
  repeat' first
    | with_reducible assumption
    | intro _
    | with_reducible apply keeps_forEach
    | with_reducible apply keeps_ite
    | with_reducible apply State.post_keeps
    | split
    | (with_reducible apply keeps_mk) <;> first
      | with_reducible assumption
      | intro _
      | with_reducible apply keeps_forEach
      | with_reducible apply keeps_ite
      | with_reducible apply State.post_keeps
      | split

theorem State.complete_keeps {o : State} {s : State} {c : Cpl} (hs : Keeps o s) :
    Keeps o (State.complete s c) := by
  unfold State.complete
  try dsimp only
  repeat' first
    | with_reducible assumption
    | intro _
    | with_reducible apply State.pumpCpl_keeps
    | split
    | (with_reducible apply keeps_mk) <;> first
      | with_reducible assumption
      | intro _
      | with_reducible apply State.pumpCpl_keeps
      | split

theorem State.dropQueues_keeps {o : State} {s : State} (hs : Keeps o s) :
    Keeps o (State.dropQueues s) := by
  unfold State.dropQueues
  try dsimp only
  repeat' first
    | with_reducible assumption
    | intro _
    | with_reducible apply keeps_forUpTo
    | with_reducible apply State.wr_keeps
    | split
    | (with_reducible apply keeps_mk) <;> first
      | with_reducible assumption
      | intro _
      | with_reducible apply keeps_forUpTo
      | with_reducible apply State.wr_keeps
      | split

theorem State.linkUp_keeps {o : State} {s : State} (hs : Keeps o s) :
    Keeps o (State.linkUp s) := by
  unfold State.linkUp
  try dsimp only
  repeat' first
    | with_reducible assumption
    | intro _
    | with_reducible apply keeps_ite
    | split
    | (with_reducible apply keeps_mk) <;> first
      | with_reducible assumption
      | intro _
      | with_reducible apply keeps_ite
      | split

theorem State.linkDown_keeps {o : State} {s : State} (hs : Keeps o s) :
    Keeps o (State.linkDown s) := by
  unfold State.linkDown
  try dsimp only
  repeat' first
    | with_reducible assumption
    | intro _
    | with_reducible apply keeps_ite
    | with_reducible apply State.raise_keeps
    | with_reducible apply State.dropQueues_keeps
    | split
    | (with_reducible apply keeps_mk) <;> first
      | with_reducible assumption
      | intro _
      | with_reducible apply keeps_ite
      | with_reducible apply State.raise_keeps
      | with_reducible apply State.dropQueues_keeps
      | split

theorem State.qpCfg_keeps {o : State} {s : State} {n v : Nat} (hs : Keeps o s) :
    Keeps o (State.qpCfg s n v) := by
  unfold State.qpCfg
  try dsimp only
  repeat' first
    | with_reducible assumption
    | intro _
    | with_reducible apply keeps_ite
    | with_reducible apply State.plainWrite_keeps
    | with_reducible apply State.wr_keeps
    | with_reducible apply State.raise_keeps
    | split
    | (with_reducible apply keeps_mk) <;> first
      | with_reducible assumption
      | intro _
      | with_reducible apply keeps_ite
      | with_reducible apply State.plainWrite_keeps
      | with_reducible apply State.wr_keeps
      | with_reducible apply State.raise_keeps
      | split

theorem State.cqHead_keeps {o : State} {s : State} {n v : Nat} (hs : Keeps o s) :
    Keeps o (State.cqHead s n v) := by
  unfold State.cqHead
  try dsimp only
  repeat' first
    | with_reducible assumption
    | intro _
    | with_reducible apply State.drainReady_keeps
    | with_reducible apply State.plainWrite_keeps
    | split

theorem State.hstWrite_keeps {o : State} {s : State} {a1 v : Nat} (hs : Keeps o s) :
    Keeps o (State.hstWrite s a1 v) := by
  unfold State.hstWrite
  try dsimp only
  repeat' first
    | with_reducible assumption
    | intro _
    | with_reducible apply keeps_ite
    | with_reducible apply State.qpCfg_keeps
    | with_reducible apply State.cqHead_keeps
    | with_reducible apply State.plainWrite_keeps
    | split

theorem State.subTake_keeps {o : State} {s : State} {n : Nat} (hs : Keeps o s) :
    Keeps o (State.subTake s n) := by
  unfold State.subTake
  try dsimp only
  repeat' first
    | with_reducible assumption
    | intro _
    | with_reducible apply State.wr_keeps
    | split
    | (with_reducible apply keeps_mk) <;> first
      | with_reducible assumption
      | intro _
      | with_reducible apply State.wr_keeps
      | split

theorem State.refuse_keeps {o : State} {s : State} {n : Nat} {c : Sub} {st : Nat} (hs : Keeps o s) :
    Keeps o (State.refuse s n c st) := by
  unfold State.refuse
  try dsimp only
  repeat' first
    | with_reducible assumption
    | intro _
    | with_reducible apply keeps_ite
    | with_reducible apply State.raise_keeps
    | with_reducible apply State.post_keeps
    | split

theorem State.accept_keeps {o : State} {s : State} {n : Nat} {c : Sub} {sheetSeq result : Nat} {effect : State → State} (hs : Keeps o s)
    (heffect : ∀ (b0 : State), Keeps o b0 → Keeps o (effect b0)) :
    Keeps o (State.accept s n c sheetSeq result effect) := by
  unfold State.accept
  try dsimp only
  repeat' first
    | with_reducible assumption
    | intro _
    | with_reducible apply heffect
    | with_reducible apply State.count_keeps
    | with_reducible apply State.complete_keeps
    | with_reducible apply State.jrnNumber_keeps
    | split

theorem State.hostCommand_keeps {o : State} {s : State} {n op mask : Nat} {mine : Sub → Bool} {status : State → Sub → Nat} {act : State →
    Sub → State} (hs : Keeps o s) (hact : ∀ (b0 : State) (b1 : Sub), Keeps o b0 → Keeps o (act b0 b1)) :
    Keeps o (State.hostCommand s n op mask mine status act) := by
  unfold State.hostCommand
  try dsimp only
  repeat' first
    | with_reducible assumption
    | intro _
    | with_reducible apply hact
    | with_reducible apply keeps_ite
    | with_reducible apply State.refuse_keeps
    | with_reducible apply State.subTake_keeps
    | split

theorem State.journaled_keeps {o : State} {s : State} {n op mask : Nat} {mine : Sub → Bool} {status : State → Sub → Nat} {act : State →
    Sub → State} (hs : Keeps o s) (hact : ∀ (b0 : State) (b1 : Sub), Keeps o b0 → Keeps o (act b0 b1)) :
    Keeps o (State.journaled s n op mask mine status act) := by
  unfold State.journaled
  try dsimp only
  repeat' first
    | with_reducible assumption
    | intro _
    | with_reducible apply hact
    | with_reducible apply keeps_ite
    | with_reducible apply State.hostCommand_keeps
    | split

theorem State.jobOpen_keeps {o : State} {s : State} {n : Nat} (hs : Keeps o s) :
    Keeps o (State.jobOpen s n) := by
  unfold State.jobOpen
  try dsimp only
  repeat' first
    | with_reducible assumption
    | intro _
    | with_reducible apply State.journaled_keeps
    | with_reducible apply State.accept_keeps
    | split
    | (with_reducible apply keeps_mk) <;> first
      | with_reducible assumption
      | intro _
      | with_reducible apply State.journaled_keeps
      | with_reducible apply State.accept_keeps
      | split

theorem State.jobClose_keeps {o : State} {s : State} {n : Nat} (hs : Keeps o s) :
    Keeps o (State.jobClose s n) := by
  unfold State.jobClose
  try dsimp only
  repeat' first
    | with_reducible assumption
    | intro _
    | with_reducible apply State.journaled_keeps
    | with_reducible apply State.accept_keeps
    | split
    | (with_reducible apply keeps_mk) <;> first
      | with_reducible assumption
      | intro _
      | with_reducible apply State.journaled_keeps
      | with_reducible apply State.accept_keeps
      | split

theorem State.pageSubmit_keeps {o : State} {s : State} {n : Nat} (hs : Keeps o s) :
    Keeps o (State.pageSubmit s n) := by
  unfold State.pageSubmit
  try dsimp only
  repeat' first
    | with_reducible assumption
    | intro _
    | with_reducible apply keeps_ite
    | with_reducible apply State.journaled_keeps
    | with_reducible apply State.accept_keeps
    | with_reducible apply State.pageHi_keeps
    | with_reducible apply State.wrw_keeps
    | with_reducible apply State.updPage_keeps
    | split

theorem State.pageBind_keeps {o : State} {s : State} {n : Nat} (hs : Keeps o s) :
    Keeps o (State.pageBind s n) := by
  unfold State.pageBind
  try dsimp only
  repeat' first
    | with_reducible assumption
    | intro _
    | with_reducible apply keeps_ite
    | with_reducible apply State.journaled_keeps
    | with_reducible apply State.accept_keeps
    | with_reducible apply State.wr_keeps
    | with_reducible apply State.wrw_keeps
    | with_reducible apply State.bindSheet_keeps
    | split

theorem State.commitPolicy_keeps {o : State} {s : State} {n : Nat} (hs : Keeps o s) :
    Keeps o (State.commitPolicy s n) := by
  unfold State.commitPolicy
  try dsimp only
  repeat' first
    | with_reducible assumption
    | intro _
    | with_reducible apply State.journaled_keeps
    | with_reducible apply State.accept_keeps
    | split

theorem State.cancel_keeps {o : State} {s : State} {n : Nat} (hs : Keeps o s) :
    Keeps o (State.cancel s n) := by
  unfold State.cancel
  try dsimp only
  repeat' first
    | with_reducible assumption
    | intro _
    | with_reducible apply keeps_forEach
    | with_reducible apply keeps_ite
    | with_reducible apply State.journaled_keeps
    | with_reducible apply State.accept_keeps
    | with_reducible apply State.withdrawPage_keeps
    | split

theorem State.status_keeps {o : State} {s : State} {n : Nat} (hs : Keeps o s) :
    Keeps o (State.status s n) := by
  unfold State.status
  try dsimp only
  repeat' first
    | with_reducible assumption
    | intro _
    | with_reducible apply State.hostCommand_keeps
    | with_reducible apply State.post_keeps
    | split

theorem State.jrnCopyOut_keeps {o : State} {s : State} {mirror : Bool} {q a top a5 : Nat} (hs : Keeps o s) :
    Keeps o (State.jrnCopyOut s mirror q a top a5) := by
  induction a5 generalizing s q a with
  | zero => exact hs
  | succ k ih =>
    unfold State.jrnCopyOut
    split
    · exact hs
    · exact ih (State.hostWrite_keeps _ _ (keeps_ite (fun _ => State.xspSettled_keeps hs) fun _ => hs))

theorem State.journalRead_keeps {o : State} {s : State} {n : Nat} (hs : Keeps o s) :
    Keeps o (State.journalRead s n) := by
  unfold State.journalRead
  try dsimp only
  repeat' first
    | with_reducible assumption
    | intro _
    | with_reducible apply keeps_ite
    | with_reducible apply State.hostCommand_keeps
    | with_reducible apply State.jrnCopyOut_keeps
    | with_reducible apply State.post_keeps
    | split

theorem State.fwStage_keeps {o : State} {s : State} {n op : Nat} {status : State → Sub → Nat} {act : State → Sub → State} (hs : Keeps o s)
    (hact : ∀ (b0 : State) (b1 : Sub), Keeps o b0 → Keeps o (act b0 b1)) :
    Keeps o (State.fwStage s n op status act) := by
  unfold State.fwStage
  try dsimp only
  repeat' first
    | with_reducible assumption
    | intro _
    | with_reducible apply hact
    | with_reducible apply keeps_ite
    | with_reducible apply State.journaled_keeps
    | split

theorem State.fwWrite_keeps {o : State} {s : State} {n : Nat} (hs : Keeps o s) :
    Keeps o (State.fwWrite s n) := by
  unfold State.fwWrite
  try dsimp only
  repeat' first
    | with_reducible assumption
    | intro _
    | with_reducible apply keeps_ite
    | with_reducible apply State.fwStage_keeps
    | with_reducible apply State.wr_keeps
    | with_reducible apply State.jrnNumber_keeps
    | split
    | (with_reducible apply keeps_mk) <;> first
      | with_reducible assumption
      | intro _
      | with_reducible apply keeps_ite
      | with_reducible apply State.fwStage_keeps
      | with_reducible apply State.wr_keeps
      | with_reducible apply State.jrnNumber_keeps
      | split

theorem State.fwVerify_keeps {o : State} {s : State} {n : Nat} (hs : Keeps o s) :
    Keeps o (State.fwVerify s n) := by
  unfold State.fwVerify
  try dsimp only
  repeat' first
    | with_reducible assumption
    | intro _
    | with_reducible apply State.fwStage_keeps
    | split
    | (with_reducible apply keeps_mk) <;> first
      | with_reducible assumption
      | intro _
      | with_reducible apply State.fwStage_keeps
      | split

theorem State.fwDone_keeps {o : State} {s : State} {valid : Bool} (hs : Keeps o s) :
    Keeps o (State.fwDone s valid) := by
  unfold State.fwDone
  try dsimp only
  repeat' first
    | with_reducible assumption
    | intro _
    | with_reducible apply keeps_ite
    | with_reducible apply State.xspFail_keeps
    | with_reducible apply State.xspProgram_keeps
    | with_reducible apply State.complete_keeps
    | with_reducible apply State.xspSettled_keeps
    | with_reducible apply State.wr_keeps
    | with_reducible apply State.jrnNumber_keeps
    | with_reducible apply State.post_keeps
    | split
    | (with_reducible apply keeps_mk) <;> first
      | with_reducible assumption
      | intro _
      | with_reducible apply keeps_ite
      | with_reducible apply State.xspFail_keeps
      | with_reducible apply State.xspProgram_keeps
      | with_reducible apply State.complete_keeps
      | with_reducible apply State.xspSettled_keeps
      | with_reducible apply State.wr_keeps
      | with_reducible apply State.jrnNumber_keeps
      | with_reducible apply State.post_keeps
      | split

theorem State.bankSwitch_keeps {o : State} {s : State} (hs : Keeps o s) :
    Keeps o (State.bankSwitch s) := by
  unfold State.bankSwitch
  try dsimp only
  repeat' first
    | with_reducible assumption
    | intro _
    | with_reducible apply keeps_ite
    | with_reducible apply State.wr_keeps
    | split
    | (with_reducible apply keeps_mk) <;> first
      | with_reducible assumption
      | intro _
      | with_reducible apply keeps_ite
      | with_reducible apply State.wr_keeps
      | split

theorem State.fwSwitch_keeps {o : State} {s : State} {n : Nat} (hs : Keeps o s) :
    Keeps o (State.fwSwitch s n) := by
  unfold State.fwSwitch
  try dsimp only
  repeat' first
    | with_reducible assumption
    | intro _
    | with_reducible apply keeps_ite
    | with_reducible apply State.fwStage_keeps
    | with_reducible apply State.accept_keeps
    | with_reducible apply State.wr_keeps
    | with_reducible apply State.bankSwitch_keeps
    | split

theorem State.xspWrite_keeps {o : State} {s : State} {a1 v : Nat} (hs : Keeps o s) :
    Keeps o (State.xspWrite s a1 v) := by
  unfold State.xspWrite
  try dsimp only
  repeat' first
    | with_reducible assumption
    | intro _
    | with_reducible apply keeps_ite
    | with_reducible apply State.plainWrite_keeps
    | with_reducible apply State.pumpCpl_keeps
    | with_reducible apply State.xspGo_keeps
    | split

end Sys2Proof.Machine
end

