-- ==== Sys2Proof/Laws/KeepsThm.lean ====
section
/-! SUPPORT. What `Keeps` says holds of every operation of Thm.lean. -/

namespace Sys2Proof.Machine

theorem State.modelValues_keeps {o : State} {s : State} {t p : Vector (BitVec 16) 16} {pkg k : BitVec 16} (hs : Keeps o s) :
    Keeps o (State.modelValues s t p pkg k) := by
  unfold State.modelValues
  try dsimp only
  repeat' first
    | with_reducible assumption
    | intro _
    | with_reducible apply keeps_forUpTo
    | with_reducible apply keeps_ite
    | with_reducible apply State.wr_keeps
    | split

theorem State.throttleOn_keeps {o : State} {s : State} (hs : Keeps o s) :
    Keeps o (State.throttleOn s) := by
  unfold State.throttleOn
  try dsimp only
  repeat' first
    | with_reducible assumption
    | intro _
    | with_reducible apply State.raise_keeps
    | with_reducible apply State.wr_keeps
    | with_reducible apply State.inc_keeps
    | split

theorem State.throttleOff_keeps {o : State} {s : State} (hs : Keeps o s) :
    Keeps o (State.throttleOff s) := by
  unfold State.throttleOff
  try dsimp only
  repeat' first
    | with_reducible assumption
    | intro _
    | with_reducible apply State.wr_keeps
    | split

theorem State.throttleTime_keeps {o : State} {s : State} (hs : Keeps o s) :
    Keeps o (State.throttleTime s) := by
  unfold State.throttleTime
  try dsimp only
  repeat' first
    | with_reducible assumption
    | intro _
    | with_reducible apply keeps_ite
    | with_reducible apply State.inc_keeps
    | split
    | (with_reducible apply keeps_mk) <;> first
      | with_reducible assumption
      | intro _
      | with_reducible apply keeps_ite
      | with_reducible apply State.inc_keeps
      | split

theorem State.evalThrottle_keeps {o : State} {s : State} (hs : Keeps o s) :
    Keeps o (State.evalThrottle s) := by
  unfold State.evalThrottle
  try dsimp only
  repeat' first
    | with_reducible assumption
    | intro _
    | with_reducible apply keeps_ite
    | with_reducible apply State.throttleOn_keeps
    | with_reducible apply State.throttleOff_keeps
    | with_reducible apply State.throttleTime_keeps
    | split
    | (with_reducible apply keeps_mk) <;> first
      | with_reducible assumption
      | intro _
      | with_reducible apply keeps_ite
      | with_reducible apply State.throttleOn_keeps
      | with_reducible apply State.throttleOff_keeps
      | with_reducible apply State.throttleTime_keeps
      | split

theorem State.evalDusk_keeps {o : State} {s : State} (hs : Keeps o s) :
    Keeps o (State.evalDusk s) := by
  unfold State.evalDusk
  try dsimp only
  repeat' first
    | with_reducible assumption
    | intro _
    | with_reducible apply keeps_ite
    | with_reducible apply State.raise_keeps
    | with_reducible apply State.wr_keeps
    | with_reducible apply State.goTo_keeps
    | split
    | (with_reducible apply keeps_mk) <;> first
      | with_reducible assumption
      | intro _
      | with_reducible apply keeps_ite
      | with_reducible apply State.raise_keeps
      | with_reducible apply State.wr_keeps
      | with_reducible apply State.goTo_keeps
      | split

theorem State.evalNvm_keeps {o : State} {s : State} (hs : Keeps o s) :
    Keeps o (State.evalNvm s) := by
  unfold State.evalNvm
  try dsimp only
  repeat' first
    | with_reducible assumption
    | intro _
    | with_reducible apply keeps_ite
    | with_reducible apply State.pumpCpl_keeps
    | with_reducible apply State.raise_keeps
    | with_reducible apply State.wr_keeps
    | split
    | (with_reducible apply keeps_mk) <;> first
      | with_reducible assumption
      | intro _
      | with_reducible apply keeps_ite
      | with_reducible apply State.pumpCpl_keeps
      | with_reducible apply State.raise_keeps
      | with_reducible apply State.wr_keeps
      | split

theorem State.evalHeat_keeps {o : State} {s : State} (hs : Keeps o s) :
    Keeps o (State.evalHeat s) := by
  unfold State.evalHeat
  try dsimp only
  repeat' first
    | with_reducible assumption
    | intro _
    | with_reducible apply keeps_ite
    | with_reducible apply State.wr_keeps
    | split

theorem State.staleDue_keeps {o : State} {s : State} (hs : Keeps o s) :
    Keeps o (State.staleDue s) := by
  unfold State.staleDue
  try dsimp only
  repeat' first
    | with_reducible assumption
    | intro _
    | with_reducible apply keeps_ite
    | with_reducible apply State.raise_keeps
    | split

theorem State.modelUpdate_keeps {o : State} {s : State} {t p : Vector (BitVec 16) 16} {pkg k : BitVec 16} (hs : Keeps o s) :
    Keeps o (State.modelUpdate s t p pkg k).1 := by
  unfold State.modelUpdate
  try dsimp only
  repeat' first
    | with_reducible assumption
    | intro _
    | with_reducible apply keeps_ite
    | with_reducible apply State.staleDue_keeps
    | with_reducible apply State.modelValues_keeps
    | with_reducible apply State.evalHeat_keeps
    | with_reducible apply State.evalNvm_keeps
    | with_reducible apply State.evalDusk_keeps
    | with_reducible apply State.evalThrottle_keeps
    | split
    | (with_reducible apply keeps_mk) <;> first
      | with_reducible assumption
      | intro _
      | with_reducible apply keeps_ite
      | with_reducible apply State.staleDue_keeps
      | with_reducible apply State.modelValues_keeps
      | with_reducible apply State.evalHeat_keeps
      | with_reducible apply State.evalNvm_keeps
      | with_reducible apply State.evalDusk_keeps
      | with_reducible apply State.evalThrottle_keeps
      | split

theorem State.calibrate_keeps {o : State} {s : State} (hs : Keeps o s) :
    Keeps o (State.calibrate s) := by
  unfold State.calibrate
  try dsimp only
  repeat' first
    | with_reducible assumption
    | intro _
    | split
    | (with_reducible apply keeps_mk) <;> first
      | with_reducible assumption
      | intro _
      | split

theorem State.calibrated_keeps {o : State} {s : State} {d0 d1 : BitVec 16} (hs : Keeps o s) :
    Keeps o (State.calibrated s d0 d1) := by
  unfold State.calibrated
  try dsimp only
  repeat' first
    | with_reducible assumption
    | intro _
    | with_reducible apply keeps_forUpTo
    | with_reducible apply keeps_ite
    | with_reducible apply State.wr_keeps
    | with_reducible apply State.raise_keeps
    | split
    | (with_reducible apply keeps_mk) <;> first
      | with_reducible assumption
      | intro _
      | with_reducible apply keeps_forUpTo
      | with_reducible apply keeps_ite
      | with_reducible apply State.wr_keeps
      | with_reducible apply State.raise_keeps
      | split

theorem State.thmCtrl_keeps {o : State} {s : State} {v : Nat} (hs : Keeps o s) :
    Keeps o (State.thmCtrl s v) := by
  unfold State.thmCtrl
  try dsimp only
  repeat' first
    | with_reducible assumption
    | intro _
    | with_reducible apply keeps_ite
    | with_reducible apply State.evalHeat_keeps
    | with_reducible apply State.plainWrite_keeps
    | with_reducible apply State.calibrate_keeps
    | split

theorem State.thmWrite_keeps {o : State} {s : State} {a1 v : Nat} (hs : Keeps o s) :
    Keeps o (State.thmWrite s a1 v) := by
  unfold State.thmWrite
  try dsimp only
  repeat' first
    | with_reducible assumption
    | intro _
    | with_reducible apply keeps_ite
    | with_reducible apply State.thmCtrl_keeps
    | with_reducible apply State.plainWrite_keeps
    | with_reducible apply State.wr_keeps
    | split
    | (with_reducible apply keeps_mk) <;> first
      | with_reducible assumption
      | intro _
      | with_reducible apply keeps_ite
      | with_reducible apply State.thmCtrl_keeps
      | with_reducible apply State.plainWrite_keeps
      | with_reducible apply State.wr_keeps
      | split

end Sys2Proof.Machine
end

