-- ==== Sys2Proof/Laws/KeepsFabMem.lean ====
section
/-! SUPPORT. What `Keeps` says holds of every operation of FabMem.lean. -/

namespace Sys2Proof.Machine

theorem State.fabReply_keeps {o : State} {s : State} {cls kind dst tag addr : Nat} {payload : List Byte} (hs : Keeps o s) :
    Keeps o (State.fabReply s cls kind dst tag addr payload) := by
  unfold State.fabReply
  try dsimp only
  repeat' first
    | with_reducible assumption
    | intro _
    | with_reducible apply State.fabQueue_keeps
    | split

theorem State.readFailed_keeps {o : State} {s : State} {tag code : Nat} (hs : Keeps o s) :
    Keeps o (State.readFailed s tag code) := by
  unfold State.readFailed
  try dsimp only
  repeat' first
    | with_reducible assumption
    | intro _
    | with_reducible apply keeps_ite
    | with_reducible apply State.dmaHalt_keeps
    | split
    | (with_reducible apply keeps_mk) <;> first
      | with_reducible assumption
      | intro _
      | with_reducible apply keeps_ite
      | with_reducible apply State.dmaHalt_keeps
      | split

theorem State.absentArrives_keeps {o : State} {s : State} {tag g : Nat} (hs : Keeps o s) :
    Keeps o (State.absentArrives s tag g) := by
  unfold State.absentArrives
  try dsimp only
  repeat' first
    | with_reducible assumption
    | intro _
    | with_reducible apply keeps_forEach
    | with_reducible apply keeps_ite
    | with_reducible apply State.withdrawPage_keeps
    | split
    | (with_reducible apply keeps_mk) <;> first
      | with_reducible assumption
      | intro _
      | with_reducible apply keeps_forEach
      | with_reducible apply keeps_ite
      | with_reducible apply State.withdrawPage_keeps
      | split

theorem State.fabStopped_keeps {o : State} {s : State} {m : FabMsg} (hs : Keeps o s) :
    Keeps o (State.fabStopped s m) := by
  unfold State.fabStopped
  try dsimp only
  repeat' first
    | with_reducible assumption
    | intro _
    | with_reducible apply keeps_ite
    | with_reducible apply State.leqPush_keeps
    | with_reducible apply State.writeFailed_keeps
    | with_reducible apply State.lateError_keeps
    | with_reducible apply State.readFailed_keeps
    | with_reducible apply State.fabReply_keeps
    | with_reducible apply State.absentArrives_keeps
    | with_reducible apply State.inc_keeps
    | split

theorem State.fabForward_keeps {o : State} {s : State} {m : FabMsg} (hs : Keeps o s) :
    Keeps o (State.fabForward s m) := by
  unfold State.fabForward
  try dsimp only
  repeat' first
    | with_reducible assumption
    | intro _
    | with_reducible apply State.fabQueue_keeps
    | with_reducible apply State.fabStopped_keeps
    | split

theorem State.fabArrive_keeps {o : State} {s : State} {p : Nat} {m : FabMsg} {home : State → State} (hs : Keeps o s) (hhome : ∀ (b0 :
    State), Keeps o b0 → Keeps o (home b0)) :
    Keeps o (State.fabArrive s p m home) := by
  unfold State.fabArrive
  try dsimp only
  repeat' first
    | with_reducible assumption
    | intro _
    | with_reducible apply hhome
    | with_reducible apply keeps_ite
    | with_reducible apply State.fabForward_keeps
    | split

theorem State.malformed_keeps {o : State} {s : State} (hs : Keeps o s) :
    Keeps o (State.malformed s) := by
  unfold State.malformed
  try dsimp only
  repeat' first
    | with_reducible assumption
    | intro _
    | with_reducible apply State.inc_keeps
    | split

theorem State.waitHere_keeps {o : State} {s : State} {m : FabMsg} (hs : Keeps o s) :
    Keeps o (State.waitHere s m) := by
  unfold State.waitHere
  try dsimp only
  repeat' first
    | with_reducible assumption
    | intro _
    | split
    | (with_reducible apply keeps_mk) <;> first
      | with_reducible assumption
      | intro _
      | split

theorem State.mirrorArrives_keeps {o : State} {s : State} {m : FabMsg} (hs : Keeps o s) :
    Keeps o (State.mirrorArrives s m) := by
  unfold State.mirrorArrives
  try dsimp only
  repeat' first
    | with_reducible assumption
    | intro _
    | with_reducible apply keeps_ite
    | with_reducible apply State.lateError_keeps
    | split
    | (with_reducible apply keeps_mk) <;> first
      | with_reducible assumption
      | intro _
      | with_reducible apply keeps_ite
      | with_reducible apply State.lateError_keeps
      | split

theorem State.homeWrite_keeps {o : State} {s : State} {m : FabMsg} {taken : Bool} (hs : Keeps o s) :
    Keeps o (State.homeWrite s m taken) := by
  unfold State.homeWrite
  try dsimp only
  repeat' first
    | with_reducible assumption
    | intro _
    | with_reducible apply keeps_ite
    | with_reducible apply State.malformed_keeps
    | with_reducible apply State.mirrorArrives_keeps
    | with_reducible apply State.lateError_keeps
    | with_reducible apply State.waitHere_keeps
    | with_reducible apply State.plainTouch_keeps
    | with_reducible apply State.plainStore_keeps
    | split

theorem State.homeRead_keeps {o : State} {s : State} {m : FabMsg} {taken : Bool} (hs : Keeps o s) :
    Keeps o (State.homeRead s m taken) := by
  unfold State.homeRead
  try dsimp only
  repeat' first
    | with_reducible assumption
    | intro _
    | with_reducible apply keeps_ite
    | with_reducible apply State.fabReply_keeps
    | with_reducible apply State.malformed_keeps
    | with_reducible apply State.waitHere_keeps
    | with_reducible apply State.plainTouch_keeps
    | split

theorem State.dirPut_keeps {o : State} {s : State} {g : Nat} {f : DirEntry → DirEntry} (hs : Keeps o s) :
    Keeps o (State.dirPut s g f) := by
  unfold State.dirPut
  try dsimp only
  repeat' first
    | with_reducible assumption
    | intro _
    | with_reducible apply keeps_ite
    | split
    | (with_reducible apply keeps_mk) <;> first
      | with_reducible assumption
      | intro _
      | with_reducible apply keeps_ite
      | split

theorem State.grantGranule_keeps {o : State} {s : State} {req tag g : Nat} {intentO : Bool} {kind : Nat} (hs : Keeps o s) :
    Keeps o (State.grantGranule s req tag g intentO kind) := by
  unfold State.grantGranule
  try dsimp only
  repeat' first
    | with_reducible assumption
    | intro _
    | with_reducible apply keeps_ite
    | with_reducible apply State.fabReply_keeps
    | with_reducible apply State.dirPut_keeps
    | split

theorem State.recallFrom_keeps {o : State} {s : State} {m : FabMsg} {g : Nat} {intentO : Bool} {l : List Nat} (hs : Keeps o s) :
    Keeps o (State.recallFrom s m g intentO l) := by
  unfold State.recallFrom
  try dsimp only
  repeat' first
    | with_reducible assumption
    | intro _
    | with_reducible apply keeps_forEach
    | with_reducible apply State.fabReply_keeps
    | with_reducible apply State.inc_keeps
    | split
    | (with_reducible apply keeps_mk) <;> first
      | with_reducible assumption
      | intro _
      | with_reducible apply keeps_forEach
      | with_reducible apply State.fabReply_keeps
      | with_reducible apply State.inc_keeps
      | split

theorem State.answerSnoop_keeps {o : State} {s : State} {m : FabMsg} {g : Nat} {intentO : Bool} (hs : Keeps o s) :
    Keeps o (State.answerSnoop s m g intentO) := by
  unfold State.answerSnoop
  try dsimp only
  repeat' first
    | with_reducible assumption
    | intro _
    | with_reducible apply keeps_ite
    | with_reducible apply State.fabReply_keeps
    | with_reducible apply State.raise_keeps
    | with_reducible apply State.recallFrom_keeps
    | with_reducible apply State.grantGranule_keeps
    | split

theorem State.awaitEvict_keeps {o : State} {s : State} {m : FabMsg} {g d : Nat} (hs : Keeps o s) :
    Keeps o (State.awaitEvict s m g d) := by
  unfold State.awaitEvict
  try dsimp only
  repeat' first
    | with_reducible assumption
    | intro _
    | split
    | (with_reducible apply keeps_mk) <;> first
      | with_reducible assumption
      | intro _
      | split

theorem State.homeSnoop_keeps {o : State} {s : State} {m : FabMsg} {taken : Bool} (hs : Keeps o s) :
    Keeps o (State.homeSnoop s m taken) := by
  unfold State.homeSnoop
  try dsimp only
  repeat' first
    | with_reducible assumption
    | intro _
    | with_reducible apply keeps_ite
    | with_reducible apply State.fabReply_keeps
    | with_reducible apply State.waitHere_keeps
    | with_reducible apply State.awaitEvict_keeps
    | with_reducible apply State.plainTouch_keeps
    | with_reducible apply State.answerSnoop_keeps
    | split

theorem State.recallAnswered_keeps {o : State} {s : State} {d g kind : Nat} (hs : Keeps o s) :
    Keeps o (State.recallAnswered s d g kind) := by
  unfold State.recallAnswered
  try dsimp only
  repeat' first
    | with_reducible assumption
    | intro _
    | with_reducible apply keeps_ite
    | with_reducible apply State.inc_keeps
    | with_reducible apply State.grantGranule_keeps
    | split
    | (with_reducible apply keeps_mk) <;> first
      | with_reducible assumption
      | intro _
      | with_reducible apply keeps_ite
      | with_reducible apply State.inc_keeps
      | with_reducible apply State.grantGranule_keeps
      | split

theorem State.homeEvict_keeps {o : State} {s : State} {m : FabMsg} {taken : Bool} (hs : Keeps o s) :
    Keeps o (State.homeEvict s m taken) := by
  unfold State.homeEvict
  try dsimp only
  repeat' first
    | with_reducible assumption
    | intro _
    | with_reducible apply keeps_ite
    | with_reducible apply State.fabReply_keeps
    | with_reducible apply State.waitHere_keeps
    | with_reducible apply State.plainTouch_keeps
    | with_reducible apply State.plainStore_keeps
    | with_reducible apply State.dirPut_keeps
    | with_reducible apply State.recallAnswered_keeps
    | split

theorem State.homePin_keeps {o : State} {s : State} {m : FabMsg} {pin : Bool} (hs : Keeps o s) :
    Keeps o (State.homePin s m pin) := by
  unfold State.homePin
  try dsimp only
  repeat' first
    | with_reducible assumption
    | intro _
    | with_reducible apply keeps_ite
    | with_reducible apply State.fabReply_keeps
    | with_reducible apply State.dirPut_keeps
    | split

theorem State.homeServe_keeps {o : State} {s : State} {m : FabMsg} {taken : Bool} (hs : Keeps o s) :
    Keeps o (State.homeServe s m taken) := by
  unfold State.homeServe
  try dsimp only
  repeat' first
    | with_reducible assumption
    | intro _
    | with_reducible apply keeps_ite
    | with_reducible apply State.homeWrite_keeps
    | with_reducible apply State.homeRead_keeps
    | with_reducible apply State.homeSnoop_keeps
    | with_reducible apply State.homeEvict_keeps
    | split

theorem State.retryIn_keeps {o : State} {s : State} (hs : Keeps o s) :
    Keeps o (State.retryIn s) := by
  unfold State.retryIn
  try dsimp only
  repeat' first
    | with_reducible assumption
    | intro _
    | with_reducible apply keeps_forEach
    | with_reducible apply State.homeServe_keeps
    | split
    | (with_reducible apply keeps_mk) <;> first
      | with_reducible assumption
      | intro _
      | with_reducible apply keeps_forEach
      | with_reducible apply State.homeServe_keeps
      | split

theorem State.readData_keeps {o : State} {s : State} {tag : Nat} (hs : Keeps o s) :
    Keeps o (State.readData s tag) := by
  unfold State.readData
  try dsimp only
  repeat' first
    | with_reducible assumption
    | intro _
    | with_reducible apply State.inc_keeps
    | split
    | (with_reducible apply keeps_mk) <;> first
      | with_reducible assumption
      | intro _
      | with_reducible apply State.inc_keeps
      | split

theorem State.readTimeout_keeps {o : State} {s : State} (hs : Keeps o s) :
    Keeps o (State.readTimeout s) := by
  unfold State.readTimeout
  try dsimp only
  repeat' first
    | with_reducible assumption
    | intro _
    | with_reducible apply keeps_ite
    | with_reducible apply State.dmaHalt_keeps
    | with_reducible apply State.raise_keeps
    | split
    | (with_reducible apply keeps_mk) <;> first
      | with_reducible assumption
      | intro _
      | with_reducible apply keeps_ite
      | with_reducible apply State.dmaHalt_keeps
      | with_reducible apply State.raise_keeps
      | split

theorem State.snoopOver_keeps {o : State} {s : State} {g : Nat} (hs : Keeps o s) :
    Keeps o (State.snoopOver s g) := by
  unfold State.snoopOver
  try dsimp only
  repeat' first
    | with_reducible assumption
    | intro _
    | split
    | (with_reducible apply keeps_mk) <;> first
      | with_reducible assumption
      | intro _
      | split

theorem State.uncachedData_keeps {o : State} {s : State} {g : Granule} (hs : Keeps o s) :
    Keeps o (State.uncachedData s g) := by
  unfold State.uncachedData
  try dsimp only
  repeat' first
    | with_reducible assumption
    | intro _
    | split
    | (with_reducible apply keeps_mk) <;> first
      | with_reducible assumption
      | intro _
      | split

theorem State.cacheMakeRoom_keeps {o : State} {s : State} (hs : Keeps o s) :
    Keeps o (State.cacheMakeRoom s) := by
  unfold State.cacheMakeRoom
  try dsimp only
  repeat' first
    | with_reducible assumption
    | intro _
    | with_reducible apply keeps_ite
    | with_reducible apply State.evictGranule_keeps
    | split

theorem State.cacheAdd_keeps {o : State} {s : State} {x : Granule} (hs : Keeps o s) :
    Keeps o (State.cacheAdd s x) := by
  unfold State.cacheAdd
  try dsimp only
  repeat' first
    | with_reducible assumption
    | intro _
    | with_reducible apply keeps_ite
    | with_reducible apply State.uncachedData_keeps
    | split
    | (with_reducible apply keeps_mk) <;> first
      | with_reducible assumption
      | intro _
      | with_reducible apply keeps_ite
      | with_reducible apply State.uncachedData_keeps
      | split

theorem State.dataArrives_keeps {o : State} {s : State} {g : Nat} {data : List Byte} (hs : Keeps o s) :
    Keeps o (State.dataArrives s g data) := by
  unfold State.dataArrives
  try dsimp only
  repeat' first
    | with_reducible assumption
    | intro _
    | with_reducible apply State.snoopOver_keeps
    | with_reducible apply State.cacheAdd_keeps
    | with_reducible apply State.cacheMakeRoom_keeps
    | split
    | (with_reducible apply keeps_mk) <;> first
      | with_reducible assumption
      | intro _
      | with_reducible apply State.snoopOver_keeps
      | with_reducible apply State.cacheAdd_keeps
      | with_reducible apply State.cacheMakeRoom_keeps
      | split

theorem State.uncachedArrives_keeps {o : State} {s : State} {g : Nat} {data : List Byte} (hs : Keeps o s) :
    Keeps o (State.uncachedArrives s g data) := by
  unfold State.uncachedArrives
  try dsimp only
  repeat' first
    | with_reducible assumption
    | intro _
    | with_reducible apply keeps_ite
    | with_reducible apply State.inc_keeps
    | with_reducible apply State.uncachedData_keeps
    | with_reducible apply State.snoopOver_keeps
    | split

theorem State.snoopRefused_keeps {o : State} {s : State} {g : Nat} (hs : Keeps o s) :
    Keeps o (State.snoopRefused s g) := by
  unfold State.snoopRefused
  try dsimp only
  repeat' first
    | with_reducible assumption
    | intro _
    | with_reducible apply State.snoopOver_keeps
    | split

theorem State.recallArrives_keeps {o : State} {s : State} {home tag g : Nat} (hs : Keeps o s) :
    Keeps o (State.recallArrives s home tag g) := by
  unfold State.recallArrives
  try dsimp only
  repeat' first
    | with_reducible assumption
    | intro _
    | with_reducible apply keeps_forEach
    | with_reducible apply keeps_ite
    | with_reducible apply State.updPage_keeps
    | with_reducible apply State.fabReply_keeps
    | split
    | (with_reducible apply keeps_mk) <;> first
      | with_reducible assumption
      | intro _
      | with_reducible apply keeps_forEach
      | with_reducible apply keeps_ite
      | with_reducible apply State.updPage_keeps
      | with_reducible apply State.fabReply_keeps
      | split

theorem State.evictAgain_keeps {o : State} {s : State} (hs : Keeps o s) :
    Keeps o (State.evictAgain s) := by
  unfold State.evictAgain
  try dsimp only
  repeat' first
    | with_reducible assumption
    | intro _
    | with_reducible apply keeps_forEach
    | with_reducible apply keeps_ite
    | with_reducible apply State.evictGranule_keeps
    | split
    | (with_reducible apply keeps_mk) <;> first
      | with_reducible assumption
      | intro _
      | with_reducible apply keeps_forEach
      | with_reducible apply keeps_ite
      | with_reducible apply State.evictGranule_keeps
      | split

end Sys2Proof.Machine
end

