-- ==== Sys2Proof/Laws/KeepsFabLink.lean ====
section
/-! SUPPORT. What `Keeps` says holds of every operation of FabLink.lean. -/

namespace Sys2Proof.Machine

theorem State.fabOut_keeps {o : State} {s : State} {p cls kind tag : Nat} {payload : List Byte} (hs : Keeps o s) :
    Keeps o (State.fabOut s p cls kind tag payload) := by
  unfold State.fabOut
  try dsimp only
  repeat' first
    | with_reducible assumption
    | intro _
    | with_reducible apply State.fabQueue_keeps
    | split

theorem State.routeTo_keeps {o : State} {s : State} {d : Nat} (hs : Keeps o s) :
    Keeps o (State.routeTo s d) := by
  unfold State.routeTo
  try dsimp only
  repeat' first
    | with_reducible assumption
    | intro _
    | with_reducible apply keeps_ite
    | with_reducible apply State.wr_keeps
    | split

theorem State.sendRoutes_keeps {o : State} {s : State} {p : Nat} {l : List Nat} (hs : Keeps o s) :
    Keeps o (State.sendRoutes s p l) := by
  unfold State.sendRoutes
  try dsimp only
  repeat' first
    | with_reducible assumption
    | intro _
    | with_reducible apply keeps_forUpTo
    | with_reducible apply State.fabOut_keeps
    | split

theorem State.reroute_keeps {o : State} {s : State} {l : List Nat} (hs : Keeps o s) :
    Keeps o (State.reroute s l) := by
  unfold State.reroute
  try dsimp only
  repeat' first
    | with_reducible assumption
    | intro _
    | with_reducible apply keeps_forEach
    | with_reducible apply keeps_ite
    | with_reducible apply State.routeTo_keeps
    | with_reducible apply State.sendRoutes_keeps
    | split

theorem State.routeArrives_keeps {o : State} {s : State} {p : Nat} {l : List (Nat × Nat)} (hs : Keeps o s) :
    Keeps o (State.routeArrives s p l) := by
  unfold State.routeArrives
  try dsimp only
  repeat' first
    | with_reducible assumption
    | intro _
    | with_reducible apply keeps_ite
    | with_reducible apply State.reroute_keeps
    | split
    | (with_reducible apply keeps_mk) <;> first
      | with_reducible assumption
      | intro _
      | with_reducible apply keeps_ite
      | with_reducible apply State.reroute_keeps
      | split

theorem State.routeWrite_keeps {o : State} {s : State} {d v : Nat} (hs : Keeps o s) :
    Keeps o (State.routeWrite s d v) := by
  unfold State.routeWrite
  try dsimp only
  repeat' first
    | with_reducible assumption
    | intro _
    | with_reducible apply keeps_ite
    | with_reducible apply State.plainWrite_keeps
    | with_reducible apply State.wr_keeps
    | with_reducible apply State.reroute_keeps
    | split

theorem State.portDown_keeps {o : State} {s : State} {p : Nat} (hs : Keeps o s) :
    Keeps o (State.portDown s p) := by
  unfold State.portDown
  try dsimp only
  repeat' first
    | with_reducible assumption
    | intro _
    | with_reducible apply keeps_forEach
    | with_reducible apply keeps_ite
    | with_reducible apply State.wr_keeps
    | with_reducible apply State.raise_keeps
    | with_reducible apply State.fabStopped_keeps
    | with_reducible apply State.reroute_keeps
    | split
    | (with_reducible apply keeps_mk) <;> first
      | with_reducible assumption
      | intro _
      | with_reducible apply keeps_forEach
      | with_reducible apply keeps_ite
      | with_reducible apply State.wr_keeps
      | with_reducible apply State.raise_keeps
      | with_reducible apply State.fabStopped_keeps
      | with_reducible apply State.reroute_keeps
      | split

theorem State.sendHello_keeps {o : State} {s : State} {p : Nat} (hs : Keeps o s) :
    Keeps o (State.sendHello s p) := by
  unfold State.sendHello
  try dsimp only
  repeat' first
    | with_reducible assumption
    | intro _
    | with_reducible apply State.fabOut_keeps
    | split

theorem State.portLocked_keeps {o : State} {s : State} {p lanes : Nat} (hs : Keeps o s) :
    Keeps o (State.portLocked s p lanes) := by
  unfold State.portLocked
  try dsimp only
  repeat' first
    | with_reducible assumption
    | intro _
    | with_reducible apply State.sendHello_keeps
    | with_reducible apply State.wr_keeps
    | split

theorem State.trainFrom_keeps {o : State} {s : State} {p : Nat} (hs : Keeps o s) :
    Keeps o (State.trainFrom s p) := by
  unfold State.trainFrom
  try dsimp only
  repeat' first
    | with_reducible assumption
    | intro _
    | with_reducible apply State.wr_keeps
    | split
    | (with_reducible apply keeps_mk) <;> first
      | with_reducible assumption
      | intro _
      | with_reducible apply State.wr_keeps
      | split

theorem State.blockLock_keeps {o : State} {s : State} {p : Nat} {lane0 lane1 inv0 inv1 : Bool} (hs : Keeps o s) :
    Keeps o (State.blockLock s p lane0 lane1 inv0 inv1) := by
  unfold State.blockLock
  try dsimp only
  repeat' first
    | with_reducible assumption
    | intro _
    | with_reducible apply keeps_ite
    | with_reducible apply State.wr_keeps
    | with_reducible apply State.portLocked_keeps
    | with_reducible apply State.trainFrom_keeps
    | split

theorem State.laneTimeout_keeps {o : State} {s : State} {p : Nat} (hs : Keeps o s) :
    Keeps o (State.laneTimeout s p) := by
  unfold State.laneTimeout
  try dsimp only
  repeat' first
    | with_reducible assumption
    | intro _
    | with_reducible apply keeps_ite
    | with_reducible apply State.portLocked_keeps
    | with_reducible apply State.raise_keeps
    | split

theorem State.frameArrives_keeps {o : State} {s : State} {p frame : Nat} {crcOk : Bool} {headers : List (BitVec 128)} (hs : Keeps o s) :
    Keeps o (State.frameArrives s p frame crcOk headers) := by
  unfold State.frameArrives
  try dsimp only
  repeat' first
    | with_reducible assumption
    | intro _
    | with_reducible apply keeps_ite
    | with_reducible apply State.addTo_keeps
    | with_reducible apply State.inc_keeps
    | with_reducible apply State.portDown_keeps
    | split
    | (with_reducible apply keeps_mk) <;> first
      | with_reducible assumption
      | intro _
      | with_reducible apply keeps_ite
      | with_reducible apply State.addTo_keeps
      | with_reducible apply State.inc_keeps
      | with_reducible apply State.portDown_keeps
      | split

theorem State.replay_keeps {o : State} {s : State} {p frame count : Nat} (hs : Keeps o s) :
    Keeps o (State.replay s p frame count) := by
  unfold State.replay
  try dsimp only
  repeat' first
    | with_reducible assumption
    | intro _
    | with_reducible apply keeps_ite
    | with_reducible apply State.count_keeps
    | with_reducible apply State.addTo_keeps
    | with_reducible apply State.portDown_keeps
    | split
    | (with_reducible apply keeps_mk) <;> first
      | with_reducible assumption
      | intro _
      | with_reducible apply keeps_ite
      | with_reducible apply State.count_keeps
      | with_reducible apply State.addTo_keeps
      | with_reducible apply State.portDown_keeps
      | split

theorem State.learn_keeps {o : State} {s : State} {eui id : Nat} (hs : Keeps o s) :
    Keeps o (State.learn s eui id) := by
  unfold State.learn
  try dsimp only
  repeat' first
    | with_reducible assumption
    | intro _
    | with_reducible apply keeps_forEach
    | with_reducible apply keeps_ite
    | with_reducible apply State.wr_keeps
    | split
    | (with_reducible apply keeps_mk) <;> first
      | with_reducible assumption
      | intro _
      | with_reducible apply keeps_forEach
      | with_reducible apply keeps_ite
      | with_reducible apply State.wr_keeps
      | split

theorem State.takeId_keeps {o : State} {s : State} {id : Nat} (hs : Keeps o s) :
    Keeps o (State.takeId s id) := by
  unfold State.takeId
  try dsimp only
  repeat' first
    | with_reducible assumption
    | intro _
    | with_reducible apply keeps_forEach
    | with_reducible apply State.wr_keeps
    | with_reducible apply State.sendRoutes_keeps
    | split

theorem State.flood_keeps {o : State} {s : State} {from_ : Option Nat} {kind number : Nat} {payload : List Byte} (hs : Keeps o s) :
    Keeps o (State.flood s from_ kind number payload) := by
  unfold State.flood
  try dsimp only
  repeat' first
    | with_reducible assumption
    | intro _
    | with_reducible apply keeps_forEach
    | with_reducible apply State.fabOut_keeps
    | split
    | (with_reducible apply keeps_mk) <;> first
      | with_reducible assumption
      | intro _
      | with_reducible apply keeps_forEach
      | with_reducible apply State.fabOut_keeps
      | split

theorem State.beginFlood_keeps {o : State} {s : State} {kind : Nat} {payload : List Byte} (hs : Keeps o s) :
    Keeps o (State.beginFlood s kind payload) := by
  unfold State.beginFlood
  try dsimp only
  repeat' first
    | with_reducible assumption
    | intro _
    | with_reducible apply State.flood_keeps
    | split
    | (with_reducible apply keeps_mk) <;> first
      | with_reducible assumption
      | intro _
      | with_reducible apply State.flood_keeps
      | split

theorem State.discover_keeps {o : State} {s : State} (hs : Keeps o s) :
    Keeps o (State.discover s) := by
  unfold State.discover
  try dsimp only
  repeat' first
    | with_reducible assumption
    | intro _
    | with_reducible apply keeps_forEach
    | with_reducible apply keeps_ite
    | with_reducible apply State.sendHello_keeps
    | with_reducible apply State.learn_keeps
    | with_reducible apply State.takeId_keeps
    | with_reducible apply State.raise_keeps
    | with_reducible apply State.beginFlood_keeps
    | split

theorem State.helloArrives_keeps {o : State} {s : State} {p eui verMin verMax : Nat} {held : Option Nat} (hs : Keeps o s) :
    Keeps o (State.helloArrives s p eui verMin verMax held) := by
  unfold State.helloArrives
  try dsimp only
  repeat' first
    | with_reducible assumption
    | intro _
    | with_reducible apply keeps_ite
    | with_reducible apply State.portDown_keeps
    | with_reducible apply State.raise_keeps
    | with_reducible apply State.wr_keeps
    | with_reducible apply State.sendRoutes_keeps
    | with_reducible apply State.discover_keeps
    | split
    | (with_reducible apply keeps_mk) <;> first
      | with_reducible assumption
      | intro _
      | with_reducible apply keeps_ite
      | with_reducible apply State.portDown_keeps
      | with_reducible apply State.raise_keeps
      | with_reducible apply State.wr_keeps
      | with_reducible apply State.sendRoutes_keeps
      | with_reducible apply State.discover_keeps
      | split

theorem State.discoverArrives_keeps {o : State} {s : State} {p number root : Nat} (hs : Keeps o s) :
    Keeps o (State.discoverArrives s p number root) := by
  unfold State.discoverArrives
  try dsimp only
  repeat' first
    | with_reducible assumption
    | intro _
    | with_reducible apply keeps_ite
    | with_reducible apply State.flood_keeps
    | with_reducible apply State.raise_keeps
    | with_reducible apply State.beginFlood_keeps
    | split
    | (with_reducible apply keeps_mk) <;> first
      | with_reducible assumption
      | intro _
      | with_reducible apply keeps_ite
      | with_reducible apply State.flood_keeps
      | with_reducible apply State.raise_keeps
      | with_reducible apply State.beginFlood_keeps
      | split

theorem State.grantHeard_keeps {o : State} {s : State} {eui : Nat} {id : Option Nat} (hs : Keeps o s) :
    Keeps o (State.grantHeard s eui id) := by
  unfold State.grantHeard
  try dsimp only
  repeat' first
    | with_reducible assumption
    | intro _
    | with_reducible apply keeps_ite
    | with_reducible apply State.learn_keeps
    | with_reducible apply State.takeId_keeps
    | with_reducible apply State.raise_keeps
    | with_reducible apply State.wr_keeps
    | split

theorem State.assignArrives_keeps {o : State} {s : State} {p number : Nat} {a : Assign} (hs : Keeps o s) :
    Keeps o (State.assignArrives s p number a) := by
  unfold State.assignArrives
  try dsimp only
  repeat' first
    | with_reducible assumption
    | intro _
    | with_reducible apply keeps_ite
    | with_reducible apply State.flood_keeps
    | with_reducible apply State.beginFlood_keeps
    | with_reducible apply State.grantHeard_keeps
    | split

theorem State.peerAction_keeps {o : State} {s : State} {dev seq code : Nat} (hs : Keeps o s) :
    Keeps o (State.peerAction s dev seq code) := by
  unfold State.peerAction
  try dsimp only
  repeat' first
    | with_reducible assumption
    | intro _
    | with_reducible apply keeps_forUpTo
    | with_reducible apply keeps_ite
    | with_reducible apply State.abortSheet_keeps
    | with_reducible apply State.spoilIf_keeps
    | split

theorem State.peerOutcome_keeps {o : State} {s : State} {dev seq code : Nat} (hs : Keeps o s) :
    Keeps o (State.peerOutcome s dev seq code) := by
  unfold State.peerOutcome
  try dsimp only
  repeat' first
    | with_reducible assumption
    | intro _
    | with_reducible apply keeps_ite
    | split
    | (with_reducible apply keeps_mk) <;> first
      | with_reducible assumption
      | intro _
      | with_reducible apply keeps_ite
      | split

theorem State.sheetEventArrives_keeps {o : State} {s : State} {dev : Nat} {b : List Byte} (hs : Keeps o s) :
    Keeps o (State.sheetEventArrives s dev b) := by
  unfold State.sheetEventArrives
  try dsimp only
  repeat' first
    | with_reducible assumption
    | intro _
    | with_reducible apply keeps_ite
    | with_reducible apply State.raise_keeps
    | with_reducible apply State.peerAction_keeps
    | with_reducible apply State.peerOutcome_keeps
    | split
    | (with_reducible apply keeps_mk) <;> first
      | with_reducible assumption
      | intro _
      | with_reducible apply keeps_ite
      | with_reducible apply State.raise_keeps
      | with_reducible apply State.peerAction_keeps
      | with_reducible apply State.peerOutcome_keeps
      | split

theorem State.lateErrorArrives_keeps {o : State} {s : State} {p dev : Nat} {b : List Byte} (hs : Keeps o s) :
    Keeps o (State.lateErrorArrives s p dev b) := by
  unfold State.lateErrorArrives
  try dsimp only
  repeat' first
    | with_reducible assumption
    | intro _
    | with_reducible apply keeps_ite
    | with_reducible apply State.leqPush_keeps
    | split

theorem State.journalAck_keeps {o : State} {s : State} {dev : Nat} {b : List Byte} (hs : Keeps o s) :
    Keeps o (State.journalAck s dev b) := by
  unfold State.journalAck
  try dsimp only
  repeat' first
    | with_reducible assumption
    | intro _
    | with_reducible apply keeps_ite
    | with_reducible apply State.pumpCpl_keeps
    | with_reducible apply State.mateAck_keeps
    | split

theorem State.syncCorrect_keeps {o : State} {s : State} {ofs : Int} (hs : Keeps o s) :
    Keeps o (State.syncCorrect s ofs) := by
  unfold State.syncCorrect
  try dsimp only
  repeat' first
    | with_reducible assumption
    | intro _
    | with_reducible apply keeps_ite
    | with_reducible apply State.wr_keeps
    | with_reducible apply State.forwardStep_keeps
    | with_reducible apply State.slew_keeps
    | split

theorem State.syncLock_keeps {o : State} {s : State} {ofs : Int} (hs : Keeps o s) :
    Keeps o (State.syncLock s ofs) := by
  unfold State.syncLock
  try dsimp only
  repeat' first
    | with_reducible assumption
    | intro _
    | with_reducible apply keeps_ite
    | with_reducible apply State.wr_keeps
    | with_reducible apply State.raise_keeps
    | split
    | (with_reducible apply keeps_mk) <;> first
      | with_reducible assumption
      | intro _
      | with_reducible apply keeps_ite
      | with_reducible apply State.wr_keeps
      | with_reducible apply State.raise_keeps
      | split

theorem State.syncArrives_keeps {o : State} {s : State} {p src prio sent acc : Nat} (hs : Keeps o s) :
    Keeps o (State.syncArrives s p src prio sent acc) := by
  unfold State.syncArrives
  try dsimp only
  repeat' first
    | with_reducible assumption
    | intro _
    | with_reducible apply keeps_forEach
    | with_reducible apply keeps_ite
    | with_reducible apply State.wrw_keeps
    | with_reducible apply State.wr_keeps
    | with_reducible apply State.fabQueue_keeps
    | with_reducible apply State.syncLock_keeps
    | with_reducible apply State.syncCorrect_keeps
    | split
    | (with_reducible apply keeps_mk) <;> first
      | with_reducible assumption
      | intro _
      | with_reducible apply keeps_forEach
      | with_reducible apply keeps_ite
      | with_reducible apply State.wrw_keeps
      | with_reducible apply State.wr_keeps
      | with_reducible apply State.fabQueue_keeps
      | with_reducible apply State.syncLock_keeps
      | with_reducible apply State.syncCorrect_keeps
      | split

theorem State.syncSend_keeps {o : State} {s : State} (hs : Keeps o s) :
    Keeps o (State.syncSend s) := by
  unfold State.syncSend
  try dsimp only
  repeat' first
    | with_reducible assumption
    | intro _
    | with_reducible apply keeps_forEach
    | with_reducible apply keeps_ite
    | with_reducible apply State.wr_keeps
    | with_reducible apply State.fabOut_keeps
    | split
    | (with_reducible apply keeps_mk) <;> first
      | with_reducible assumption
      | intro _
      | with_reducible apply keeps_forEach
      | with_reducible apply keeps_ite
      | with_reducible apply State.wr_keeps
      | with_reducible apply State.fabOut_keeps
      | split

theorem State.syncTimeout_keeps {o : State} {s : State} (hs : Keeps o s) :
    Keeps o (State.syncTimeout s) := by
  unfold State.syncTimeout
  try dsimp only
  repeat' first
    | with_reducible assumption
    | intro _
    | with_reducible apply keeps_ite
    | with_reducible apply State.raise_keeps
    | with_reducible apply State.wr_keeps
    | split
    | (with_reducible apply keeps_mk) <;> first
      | with_reducible assumption
      | intro _
      | with_reducible apply keeps_ite
      | with_reducible apply State.raise_keeps
      | with_reducible apply State.wr_keeps
      | split

theorem State.delayMeasure_keeps {o : State} {s : State} (hs : Keeps o s) :
    Keeps o (State.delayMeasure s) := by
  unfold State.delayMeasure
  try dsimp only
  repeat' first
    | with_reducible assumption
    | intro _
    | with_reducible apply keeps_forEach
    | with_reducible apply keeps_ite
    | with_reducible apply State.fabOut_keeps
    | split
    | (with_reducible apply keeps_mk) <;> first
      | with_reducible assumption
      | intro _
      | with_reducible apply keeps_forEach
      | with_reducible apply keeps_ite
      | with_reducible apply State.fabOut_keeps
      | split

theorem State.delayAnswer_keeps {o : State} {s : State} {p residence : Nat} (hs : Keeps o s) :
    Keeps o (State.delayAnswer s p residence) := by
  unfold State.delayAnswer
  try dsimp only
  repeat' first
    | with_reducible assumption
    | intro _
    | with_reducible apply keeps_ite
    | with_reducible apply State.fabOut_keeps
    | split

theorem State.delayArrives_keeps {o : State} {s : State} {p part residence : Nat} (hs : Keeps o s) :
    Keeps o (State.delayArrives s p part residence) := by
  unfold State.delayArrives
  try dsimp only
  repeat' first
    | with_reducible assumption
    | intro _
    | with_reducible apply keeps_ite
    | with_reducible apply State.wr_keeps
    | split
    | (with_reducible apply keeps_mk) <;> first
      | with_reducible assumption
      | intro _
      | with_reducible apply keeps_ite
      | with_reducible apply State.wr_keeps
      | split

theorem State.fabLeave_keeps {o : State} {s : State} (hs : Keeps o s) :
    Keeps o (State.fabLeave s) := by
  unfold State.fabLeave
  try dsimp only
  repeat' first
    | with_reducible assumption
    | intro _
    | with_reducible apply keeps_forEach
    | with_reducible apply keeps_ite
    | with_reducible apply State.portDown_keeps
    | with_reducible apply State.wr_keeps
    | split
    | (with_reducible apply keeps_mk) <;> first
      | with_reducible assumption
      | intro _
      | with_reducible apply keeps_forEach
      | with_reducible apply keeps_ite
      | with_reducible apply State.portDown_keeps
      | with_reducible apply State.wr_keeps
      | split

theorem State.fabCtrl_keeps {o : State} {s : State} {v : Nat} (hs : Keeps o s) :
    Keeps o (State.fabCtrl s v) := by
  unfold State.fabCtrl
  try dsimp only
  repeat' first
    | with_reducible assumption
    | intro _
    | with_reducible apply keeps_forEach
    | with_reducible apply keeps_ite
    | with_reducible apply State.plainWrite_keeps
    | with_reducible apply State.fabLeave_keeps
    | with_reducible apply State.trainFrom_keeps
    | with_reducible apply State.discover_keeps
    | split

theorem State.portCfg_keeps {o : State} {s : State} {p v : Nat} (hs : Keeps o s) :
    Keeps o (State.portCfg s p v) := by
  unfold State.portCfg
  try dsimp only
  repeat' first
    | with_reducible assumption
    | intro _
    | with_reducible apply keeps_ite
    | with_reducible apply State.plainWrite_keeps
    | with_reducible apply State.portDown_keeps
    | with_reducible apply State.trainFrom_keeps
    | split

theorem State.leqPop_keeps {o : State} {s : State} {v : Nat} (hs : Keeps o s) :
    Keeps o (State.leqPop s v) := by
  unfold State.leqPop
  try dsimp only
  repeat' first
    | with_reducible assumption
    | intro _
    | with_reducible apply keeps_ite
    | split
    | (with_reducible apply keeps_mk) <;> first
      | with_reducible assumption
      | intro _
      | with_reducible apply keeps_ite
      | split

theorem State.evqPop_keeps {o : State} {s : State} {v : Nat} (hs : Keeps o s) :
    Keeps o (State.evqPop s v) := by
  unfold State.evqPop
  try dsimp only
  repeat' first
    | with_reducible assumption
    | intro _
    | with_reducible apply keeps_ite
    | split
    | (with_reducible apply keeps_mk) <;> first
      | with_reducible assumption
      | intro _
      | with_reducible apply keeps_ite
      | split

theorem State.atLeast1_keeps {o : State} {s : State} {f : Fld} (hs : Keeps o s) :
    Keeps o (State.atLeast1 s f) := by
  unfold State.atLeast1
  try dsimp only
  repeat' first
    | with_reducible assumption
    | intro _
    | with_reducible apply keeps_ite
    | with_reducible apply State.wr_keeps
    | split

theorem State.fabWriteReg_keeps {o : State} {s : State} {a1 v : Nat} (hs : Keeps o s) :
    Keeps o (State.fabWriteReg s a1 v) := by
  unfold State.fabWriteReg
  try dsimp only
  repeat' first
    | with_reducible assumption
    | intro _
    | with_reducible apply keeps_ite
    | with_reducible apply State.fabCtrl_keeps
    | with_reducible apply State.clearStatus_keeps
    | with_reducible apply State.writeIrqEn_keeps
    | with_reducible apply State.atLeast1_keeps
    | with_reducible apply State.plainWrite_keeps
    | with_reducible apply State.leqPop_keeps
    | with_reducible apply State.evqPop_keeps
    | with_reducible apply State.routeWrite_keeps
    | with_reducible apply State.portCfg_keeps
    | split

end Sys2Proof.Machine
end

