-- ==== Sys2Proof/Laws/KeepsSys.lean ====
section
/-! SUPPORT. What `Keeps` says holds of every operation of Sys.lean. -/

namespace Sys2Proof.Machine

theorem State.loadOtp_keeps {o : State} {s : State} {power : Bool} (hs : Keeps o s) :
    Keeps o (State.loadOtp s power) := by
  unfold State.loadOtp
  try dsimp only
  repeat' first
    | with_reducible assumption
    | intro _
    | with_reducible apply keeps_forEach
    | with_reducible apply keeps_ite
    | with_reducible apply State.setReg_keeps
    | with_reducible apply State.wr_keeps
    | with_reducible apply State.wr64_keeps
    | split

theorem State.lost_keeps {o : State} {s : State} {die power : Bool} (hs : Keeps o s) :
    Keeps o (State.lost s die power) := by
  refine State.loadOtp_keeps ⟨hs.1, fun h => ?_⟩
  obtain ⟨h1, h2, h3, h4, h5⟩ := (hs.2 h).canonical
  refine ⟨⟨?_, ?_, h3, h4, h5⟩, fun n => ?_⟩
  · cases power
    · exact sparseWf_filter _ h1 _
    · exact ⟨List.Pairwise.nil, fun _ h => nomatch h⟩
  · cases die
    · refine ⟨h2.1.filter _, fun e he => ?_⟩
      have lo : e.1 < dramBase := by simpa using (List.mem_filter.1 he).2
      have := h2.2 e (List.mem_filter.1 he).1
      simpa only [unlistedByte, if_neg (Nat.not_le.2 lo), Bool.false_eq_true, if_false] using this
    · exact ⟨List.Pairwise.nil, fun _ h => nomatch h⟩
  · have e : State.core { regs := if power then [] else s.regs.filter fun e => keptReg e.1 } n = {} := by
      simp [State.core]
    simpa [State.core] using CoreX.sound_default []

theorem State.coreStop_keeps {o : State} {s : State} {n : Fin 12} (hs : Keeps o s) :
    Keeps o (State.coreStop s n) := by
  unfold State.coreStop
  try dsimp only
  repeat' first
    | exact fun c h => ⟨h.1, h.2, h.3, h.4, h.5⟩
    | with_reducible assumption
    | intro _
    | with_reducible apply State.updCore_keeps
    | split

theorem State.coreRelease_keeps {o : State} {s : State} {n : Fin 12} (hs : Keeps o s) :
    Keeps o (State.coreRelease s n) := by
  exact State.updCore_keeps hs fun c _ => CoreX.sound_default _

theorem State.runCores_keeps {o : State} {s : State} {v : Nat} (hs : Keeps o s) :
    Keeps o (State.runCores s v) := by
  unfold State.runCores
  try dsimp only
  repeat' first
    | with_reducible assumption
    | intro _
    | with_reducible apply keeps_forEach
    | with_reducible apply keeps_ite
    | with_reducible apply State.wr_keeps
    | with_reducible apply State.coreRelease_keeps
    | with_reducible apply State.coreStop_keeps
    | with_reducible apply State.updStations_keeps
    | split

theorem State.releaseN11_keeps {o : State} {s : State} (hs : Keeps o s) :
    Keeps o (State.releaseN11 s) := by
  unfold State.releaseN11
  try dsimp only
  repeat' first
    | with_reducible assumption
    | intro _
    | with_reducible apply keeps_ite
    | with_reducible apply State.wr_keeps
    | with_reducible apply State.runCores_keeps
    | split
    | (with_reducible apply keeps_mk) <;> first
      | with_reducible assumption
      | intro _
      | with_reducible apply keeps_ite
      | with_reducible apply State.wr_keeps
      | with_reducible apply State.runCores_keeps
      | split

theorem State.gapChanges_keeps {o : State} {s : State} {opens cal : Bool} (hs : Keeps o s) :
    Keeps o (State.gapChanges s opens cal) := by
  unfold State.gapChanges
  try dsimp only
  repeat' first
    | with_reducible assumption
    | intro _
    | with_reducible apply keeps_forUpTo
    | with_reducible apply keeps_ite
    | with_reducible apply State.claimCommit_keeps
    | with_reducible apply State.divApply_keeps
    | with_reducible apply State.btmApply_keeps
    | with_reducible apply State.maskApply_keeps
    | with_reducible apply State.calStep_keeps
    | with_reducible apply State.bankSwitch_keeps
    | with_reducible apply State.praSwaps_keeps
    | split

theorem State.gapOpening_keeps {o : State} {s : State} (hs : Keeps o s) :
    Keeps o (State.gapOpening s) := by
  unfold State.gapOpening
  try dsimp only
  repeat' first
    | with_reducible assumption
    | intro _
    | with_reducible apply keeps_ite
    | with_reducible apply State.gapChanges_keeps
    | with_reducible apply State.inc_keeps
    | split
    | (with_reducible apply keeps_mk) <;> first
      | with_reducible assumption
      | intro _
      | with_reducible apply keeps_ite
      | with_reducible apply State.gapChanges_keeps
      | with_reducible apply State.inc_keeps
      | split

theorem State.gapClosing_keeps {o : State} {s : State} (hs : Keeps o s) :
    Keeps o (State.gapClosing s) := by
  unfold State.gapClosing
  try dsimp only
  repeat' first
    | with_reducible assumption
    | intro _
    | with_reducible apply keeps_forUpTo
    | with_reducible apply keeps_ite
    | with_reducible apply State.calCut_keeps
    | split
    | (with_reducible apply keeps_mk) <;> first
      | with_reducible assumption
      | intro _
      | with_reducible apply keeps_forUpTo
      | with_reducible apply keeps_ite
      | with_reducible apply State.calCut_keeps
      | split

theorem State.backToMorning_keeps {o : State} {s : State} (hs : Keeps o s) :
    Keeps o (State.backToMorning s) := by
  unfold State.backToMorning
  try dsimp only
  repeat' first
    | with_reducible assumption
    | intro _
    | with_reducible apply State.goTo_keeps
    | with_reducible apply State.gapChanges_keeps
    | split
    | (with_reducible apply keeps_mk) <;> first
      | with_reducible assumption
      | intro _
      | with_reducible apply State.goTo_keeps
      | with_reducible apply State.gapChanges_keeps
      | split

theorem State.holdCores_keeps {o : State} {s : State} (hs : Keeps o s) :
    Keeps o (State.holdCores s) := by
  unfold State.holdCores
  try dsimp only
  repeat' first
    | with_reducible assumption
    | intro _
    | with_reducible apply State.wr_keeps
    | with_reducible apply State.runCores_keeps
    | split
    | (with_reducible apply keeps_mk) <;> first
      | with_reducible assumption
      | intro _
      | with_reducible apply State.wr_keeps
      | with_reducible apply State.runCores_keeps
      | split

theorem State.dawn_keeps {o : State} {s : State} {kind : Nat} (hs : Keeps o s) :
    Keeps o (State.dawn s kind) := by
  unfold State.dawn
  try dsimp only
  repeat' first
    | with_reducible assumption
    | intro _
    | with_reducible apply keeps_ite
    | with_reducible apply State.upSequence_keeps
    | with_reducible apply State.holdCores_keeps
    | with_reducible apply State.wr_keeps
    | with_reducible apply State.goTo_keeps
    | split
    | (with_reducible apply keeps_mk) <;> first
      | with_reducible assumption
      | intro _
      | with_reducible apply keeps_ite
      | with_reducible apply State.upSequence_keeps
      | with_reducible apply State.holdCores_keeps
      | with_reducible apply State.wr_keeps
      | with_reducible apply State.goTo_keeps
      | split

theorem State.resume_keeps {o : State} {s : State} (hs : Keeps o s) :
    Keeps o (State.resume s) := by
  unfold State.resume
  try dsimp only
  repeat' first
    | with_reducible assumption
    | intro _
    | with_reducible apply keeps_ite
    | with_reducible apply State.holdCores_keeps
    | with_reducible apply State.wr_keeps
    | with_reducible apply State.goTo_keeps
    | with_reducible apply State.releaseN11_keeps
    | with_reducible apply State.jrnBoot_keeps
    | with_reducible apply State.btmResume_keeps
    | with_reducible apply State.gapChanges_keeps
    | with_reducible apply State.upSequence_keeps
    | split
    | (with_reducible apply keeps_mk) <;> first
      | with_reducible assumption
      | intro _
      | with_reducible apply keeps_ite
      | with_reducible apply State.holdCores_keeps
      | with_reducible apply State.wr_keeps
      | with_reducible apply State.goTo_keeps
      | with_reducible apply State.releaseN11_keeps
      | with_reducible apply State.jrnBoot_keeps
      | with_reducible apply State.btmResume_keeps
      | with_reducible apply State.gapChanges_keeps
      | with_reducible apply State.upSequence_keeps
      | split

theorem State.systemReset_keeps {o : State} {s : State} {cause : Nat} (hs : Keeps o s) :
    Keeps o (State.systemReset s cause) := by
  unfold State.systemReset
  try dsimp only
  repeat' first
    | with_reducible assumption
    | intro _
    | with_reducible apply keeps_ite
    | with_reducible apply State.lost_keeps
    | with_reducible apply State.wrw_keeps
    | with_reducible apply State.wr_keeps
    | split

theorem State.afterSequence_keeps {o : State} {s : State} (hs : Keeps o s) :
    Keeps o (State.afterSequence s) := by
  unfold State.afterSequence
  try dsimp only
  repeat' first
    | with_reducible assumption
    | intro _
    | with_reducible apply keeps_ite
    | with_reducible apply State.systemReset_keeps
    | with_reducible apply State.releaseN11_keeps
    | split

theorem State.settle_keeps {o : State} {s : State} (hs : Keeps o s) :
    Keeps o (State.settle s) := by
  unfold State.settle
  try dsimp only
  repeat' first
    | with_reducible assumption
    | intro _
    | with_reducible apply keeps_ite
    | with_reducible apply State.resume_keeps
    | split

theorem State.night_keeps {o : State} {s : State} (hs : Keeps o s) :
    Keeps o (State.night s) := by
  unfold State.night
  try dsimp only
  repeat' first
    | with_reducible assumption
    | intro _
    | with_reducible apply State.lost_keeps
    | with_reducible apply State.downSequence_keeps
    | with_reducible apply State.wr_keeps
    | split

theorem State.nightSheets_keeps {o : State} {s : State} (hs : Keeps o s) :
    Keeps o (State.nightSheets s) := by
  unfold State.nightSheets
  try dsimp only
  repeat' first
    | with_reducible assumption
    | intro _
    | with_reducible apply keeps_forUpTo
    | with_reducible apply keeps_ite
    | with_reducible apply State.spoilSheet_keeps
    | with_reducible apply State.abortSheet_keeps
    | split
    | (with_reducible apply keeps_mk) <;> first
      | with_reducible assumption
      | intro _
      | with_reducible apply keeps_forUpTo
      | with_reducible apply keeps_ite
      | with_reducible apply State.spoilSheet_keeps
      | with_reducible apply State.abortSheet_keeps
      | split

theorem State.nightEntry_keeps {o : State} {s : State} (hs : Keeps o s) :
    Keeps o (State.nightEntry s) := by
  unfold State.nightEntry
  try dsimp only
  repeat' first
    | with_reducible assumption
    | intro _
    | with_reducible apply State.jrnDevice_keeps
    | split

theorem State.outputsOff_keeps {o : State} {s : State} (hs : Keeps o s) :
    Keeps o (State.outputsOff s) := by
  unfold State.outputsOff
  try dsimp only
  repeat' first
    | with_reducible assumption
    | intro _
    | with_reducible apply State.praAllOff_keeps
    | with_reducible apply State.stpEvening_keeps
    | with_reducible apply State.bldEvening_keeps
    | with_reducible apply State.btmHalt_keeps
    | split

theorem State.thermalNight_keeps {o : State} {s : State} (hs : Keeps o s) :
    Keeps o (State.thermalNight s) := by
  unfold State.thermalNight
  try dsimp only
  repeat' first
    | with_reducible assumption
    | intro _
    | with_reducible apply keeps_forUpTo
    | with_reducible apply keeps_ite
    | with_reducible apply State.vesperAo_keeps
    | with_reducible apply State.outputsOff_keeps
    | with_reducible apply State.nightEntry_keeps
    | with_reducible apply State.nightSheets_keeps
    | with_reducible apply State.wrw_keeps
    | with_reducible apply State.runCores_keeps
    | with_reducible apply State.goTo_keeps
    | with_reducible apply State.wr_keeps
    | with_reducible apply State.setEn_keeps
    | split
    | (with_reducible apply keeps_mk) <;> first
      | with_reducible assumption
      | intro _
      | with_reducible apply keeps_forUpTo
      | with_reducible apply keeps_ite
      | with_reducible apply State.vesperAo_keeps
      | with_reducible apply State.outputsOff_keeps
      | with_reducible apply State.nightEntry_keeps
      | with_reducible apply State.nightSheets_keeps
      | with_reducible apply State.wrw_keeps
      | with_reducible apply State.runCores_keeps
      | with_reducible apply State.goTo_keeps
      | with_reducible apply State.wr_keeps
      | with_reducible apply State.setEn_keeps
      | split

theorem State.modelStep_keeps {o : State} {s : State} {t p : Vector (BitVec 16) 16} {pkg k : BitVec 16} (hs : Keeps o s) :
    Keeps o (State.modelStep s t p pkg k) := by
  unfold State.modelStep
  try dsimp only
  repeat' first
    | with_reducible assumption
    | intro _
    | with_reducible apply keeps_ite
    | with_reducible apply State.modelUpdate_keeps
    | with_reducible apply State.thermalNight_keeps
    | with_reducible apply State.pumpCpl_keeps
    | split

theorem State.holdUpCut_keeps {o : State} {s : State} (hs : Keeps o s) :
    Keeps o (State.holdUpCut s) := by
  have h1 : Keeps o (forUpTo 32 s fun s r => s.setEn r false) := keeps_forUpTo hs fun s r h => State.setEn_keeps h
  have h2 : ∀ t : State, Keeps o t → Keeps o { t with
      aon := { t.aon with holdUp := false, wakeAtEnd := false }, xsp := { t.xsp with job := none } } := fun t h => h.same rfl rfl
  exact h2 _ h1

theorem State.holdUpNight_keeps {o : State} {s : State} (hs : Keeps o s) :
    Keeps o (State.holdUpNight s) := by
  unfold State.holdUpNight
  try dsimp only
  repeat' first
    | with_reducible assumption
    | intro _
    | with_reducible apply State.wr_keeps
    | with_reducible apply State.lost_keeps
    | with_reducible apply State.holdUpCut_keeps
    | split

theorem State.holdUpEnd_keeps {o : State} {s : State} (hs : Keeps o s) :
    Keeps o (State.holdUpEnd s) := by
  unfold State.holdUpEnd
  try dsimp only
  repeat' first
    | with_reducible assumption
    | intro _
    | with_reducible apply keeps_ite
    | with_reducible apply State.dawn_keeps
    | with_reducible apply State.holdUpNight_keeps
    | split

theorem State.holdUpDue_keeps {o : State} {s : State} (hs : Keeps o s) :
    Keeps o (State.holdUpDue s) := by
  unfold State.holdUpDue
  try dsimp only
  repeat' first
    | with_reducible assumption
    | intro _
    | with_reducible apply keeps_ite
    | with_reducible apply State.holdUpEnd_keeps
    | split

theorem State.evening_keeps {o : State} {s : State} (hs : Keeps o s) :
    Keeps o (State.evening s) := by
  unfold State.evening
  try dsimp only
  repeat' first
    | with_reducible assumption
    | intro _
    | with_reducible apply State.outputsOff_keeps
    | with_reducible apply State.goTo_keeps
    | with_reducible apply State.downSequence_keeps
    | with_reducible apply State.wr_keeps
    | split

theorem State.request_keeps {o : State} {s : State} {target : Nat} (hs : Keeps o s) :
    Keeps o (State.request s target) := by
  unfold State.request
  try dsimp only
  repeat' first
    | with_reducible assumption
    | intro _
    | with_reducible apply keeps_ite
    | with_reducible apply State.wr_keeps
    | with_reducible apply State.raise_keeps
    | with_reducible apply State.night_keeps
    | with_reducible apply State.evening_keeps
    | with_reducible apply State.goTo_keeps
    | split

theorem State.requestWrite_keeps {o : State} {s : State} {v : Nat} (hs : Keeps o s) :
    Keeps o (State.requestWrite s v) := by
  unfold State.requestWrite
  try dsimp only
  repeat' first
    | with_reducible assumption
    | intro _
    | with_reducible apply keeps_ite
    | with_reducible apply State.request_keeps
    | split

theorem State.noonEnds_keeps {o : State} {s : State} (hs : Keeps o s) :
    Keeps o (State.noonEnds s) := by
  unfold State.noonEnds
  try dsimp only
  repeat' first
    | with_reducible assumption
    | intro _
    | with_reducible apply keeps_ite
    | with_reducible apply State.gapOpening_keeps
    | with_reducible apply State.backToMorning_keeps
    | split

theorem State.duskEnds_keeps {o : State} {s : State} (hs : Keeps o s) :
    Keeps o (State.duskEnds s) := by
  unfold State.duskEnds
  try dsimp only
  repeat' first
    | with_reducible assumption
    | intro _
    | with_reducible apply keeps_ite
    | with_reducible apply State.gapOpening_keeps
    | with_reducible apply State.backToMorning_keeps
    | split

theorem State.wake_keeps {o : State} {s : State} (hs : Keeps o s) :
    Keeps o (State.wake s) := by
  unfold State.wake
  try dsimp only
  repeat' first
    | with_reducible assumption
    | intro _
    | with_reducible apply keeps_ite
    | with_reducible apply State.dawn_keeps
    | with_reducible apply State.resume_keeps
    | split
    | (with_reducible apply keeps_mk) <;> first
      | with_reducible assumption
      | intro _
      | with_reducible apply keeps_ite
      | with_reducible apply State.dawn_keeps
      | with_reducible apply State.resume_keeps
      | split

theorem State.wakePhrase_keeps {o : State} {s : State} {phrase : Nat} (hs : Keeps o s) :
    Keeps o (State.wakePhrase s phrase) := by
  unfold State.wakePhrase
  try dsimp only
  repeat' first
    | with_reducible assumption
    | intro _
    | with_reducible apply keeps_ite
    | with_reducible apply State.wake_keeps
    | split

theorem State.alarmFire_keeps {o : State} {s : State} (hs : Keeps o s) :
    Keeps o (State.alarmFire s) := by
  unfold State.alarmFire
  try dsimp only
  repeat' first
    | with_reducible assumption
    | intro _
    | with_reducible apply keeps_ite
    | with_reducible apply State.raise_keeps
    | with_reducible apply State.resume_keeps
    | split
    | (with_reducible apply keeps_mk) <;> first
      | with_reducible assumption
      | intro _
      | with_reducible apply keeps_ite
      | with_reducible apply State.raise_keeps
      | with_reducible apply State.resume_keeps
      | split

theorem State.powerUp_keeps {o : State} {s : State} (hs : Keeps o s) :
    Keeps o (State.powerUp s) := by
  unfold State.powerUp
  try dsimp only
  repeat' first
    | with_reducible assumption
    | intro _
    | with_reducible apply keeps_ite
    | with_reducible apply State.wr_keeps
    | with_reducible apply State.lost_keeps
    | with_reducible apply State.dawn_keeps
    | split
    | (with_reducible apply keeps_mk) <;> first
      | with_reducible assumption
      | intro _
      | with_reducible apply keeps_ite
      | with_reducible apply State.wr_keeps
      | with_reducible apply State.lost_keeps
      | with_reducible apply State.dawn_keeps
      | split

theorem State.aoGood_keeps {o : State} {s : State} (hs : Keeps o s) :
    Keeps o (State.aoGood s) := by
  unfold State.aoGood
  try dsimp only
  repeat' first
    | with_reducible assumption
    | intro _
    | with_reducible apply keeps_ite
    | with_reducible apply State.powerUp_keeps
    | split

theorem State.porst_keeps {o : State} {s : State} (hs : Keeps o s) :
    Keeps o (State.porst s) := by
  unfold State.porst
  try dsimp only
  repeat' first
    | with_reducible assumption
    | intro _
    | with_reducible apply keeps_ite
    | with_reducible apply State.powerUp_keeps
    | split

theorem State.powerLoss_keeps {o : State} {s : State} (hs : Keeps o s) :
    Keeps o (State.powerLoss s) := by
  unfold State.powerLoss
  try dsimp only
  repeat' first
    | with_reducible assumption
    | intro _
    | with_reducible apply State.wr_keeps
    | with_reducible apply State.lost_keeps
    | split
    | (with_reducible apply keeps_mk) <;> first
      | with_reducible assumption
      | intro _
      | with_reducible apply State.wr_keeps
      | with_reducible apply State.lost_keeps
      | split

theorem State.clockStart_keeps {o : State} {s : State} (hs : Keeps o s) :
    Keeps o (State.clockStart s) := by
  unfold State.clockStart
  try dsimp only
  repeat' first
    | with_reducible assumption
    | intro _
    | split
    | (with_reducible apply keeps_mk) <;> first
      | with_reducible assumption
      | intro _
      | split

theorem State.pllLock_keeps {o : State} {s : State} {band time : Nat} {retry : Bool} (hs : Keeps o s) :
    Keeps o (State.pllLock s band time retry) := by
  unfold State.pllLock
  try dsimp only
  repeat' first
    | with_reducible assumption
    | intro _
    | with_reducible apply keeps_ite
    | with_reducible apply State.wr_keeps
    | with_reducible apply State.raise_keeps
    | with_reducible apply State.calibrate_keeps
    | with_reducible apply State.clockStart_keeps
    | split

theorem State.pllLoss_keeps {o : State} {s : State} {ref : Bool} (hs : Keeps o s) :
    Keeps o (State.pllLoss s ref) := by
  unfold State.pllLoss
  try dsimp only
  repeat' first
    | with_reducible assumption
    | intro _
    | with_reducible apply keeps_ite
    | with_reducible apply State.wr_keeps
    | with_reducible apply State.vesperAo_keeps
    | with_reducible apply State.snapshot_keeps
    | with_reducible apply State.railRaise_keeps
    | with_reducible apply State.afterSequence_keeps
    | with_reducible apply State.resetReaction_keeps
    | split

theorem State.railEvent_keeps {o : State} {s : State} {r : Nat} {find : State → State} (hs : Keeps o s) (hfind : ∀ (b0 : State), Keeps o
    b0 → Keeps o (find b0)) :
    Keeps o (State.railEvent s r find) := by
  unfold State.railEvent
  try dsimp only
  repeat' first
    | with_reducible assumption
    | intro _
    | with_reducible apply hfind
    | with_reducible apply keeps_ite
    | with_reducible apply State.holdUpEnd_keeps
    | with_reducible apply State.afterSequence_keeps
    | split

theorem State.bootLoad_keeps {o : State} {s : State} {boot other : Bool} {image : List (Nat × List Byte)} (hs : Keeps o s) :
    Keeps o (State.bootLoad s boot other image) := by
  unfold State.bootLoad
  try dsimp only
  repeat' first
    | with_reducible assumption
    | intro _
    | with_reducible apply keeps_forEach
    | with_reducible apply keeps_ite
    | with_reducible apply State.raise_keeps
    | with_reducible apply State.wr_keeps
    | with_reducible apply State.vesper_keeps
    | with_reducible apply State.writeBytes_keeps
    | split
    | (with_reducible apply keeps_mk) <;> first
      | with_reducible assumption
      | intro _
      | with_reducible apply keeps_forEach
      | with_reducible apply keeps_ite
      | with_reducible apply State.raise_keeps
      | with_reducible apply State.wr_keeps
      | with_reducible apply State.vesper_keeps
      | with_reducible apply State.writeBytes_keeps
      | split

theorem State.bootMapWrite_keeps {o : State} {s : State} {v : Nat} (hs : Keeps o s) :
    Keeps o (State.bootMapWrite s v) := by
  unfold State.bootMapWrite
  try dsimp only
  repeat' first
    | with_reducible assumption
    | intro _
    | with_reducible apply keeps_ite
    | split
    | (with_reducible apply keeps_mk) <;> first
      | with_reducible assumption
      | intro _
      | with_reducible apply keeps_ite
      | split

theorem State.ringDoorbell_keeps {o : State} {s : State} {v : Nat} (hs : Keeps o s) :
    Keeps o (State.ringDoorbell s v) := by
  unfold State.ringDoorbell
  try dsimp only
  repeat' first
    | exact fun c h => ⟨h.1, h.2, h.3, h.4, h.5⟩
    | with_reducible assumption
    | intro _
    | with_reducible apply keeps_forEach
    | with_reducible apply keeps_ite
    | with_reducible apply State.updCore_keeps
    | split

theorem State.resetWrite_keeps {o : State} {s : State} {v : Nat} (hs : Keeps o s) :
    Keeps o (State.resetWrite s v) := by
  unfold State.resetWrite
  try dsimp only
  repeat' first
    | with_reducible assumption
    | intro _
    | with_reducible apply keeps_ite
    | with_reducible apply State.systemReset_keeps
    | split

theorem State.sysWrite_keeps {o : State} {s : State} {a1 v : Nat} (hs : Keeps o s) :
    Keeps o (State.sysWrite s a1 v) := by
  unfold State.sysWrite
  try dsimp only
  repeat' first
    | with_reducible assumption
    | intro _
    | with_reducible apply keeps_ite
    | with_reducible apply State.requestWrite_keeps
    | with_reducible apply State.resetWrite_keeps
    | with_reducible apply State.runCores_keeps
    | with_reducible apply State.ringDoorbell_keeps
    | with_reducible apply State.bootMapWrite_keeps
    | with_reducible apply State.plainWrite_keeps
    | split

end Sys2Proof.Machine
end

