-- ==== Sys2Proof/Laws/KeepsVsp.lean ====
section
/-! SUPPORT. What `Keeps` says holds of every operation of Vsp.lean. -/

namespace Sys2Proof.Machine

theorem State.vspScan_keeps {o : State} {s : State} (hs : Keeps o s) :
    Keeps o (State.vspScan s) := by
  unfold State.vspScan
  try dsimp only
  repeat' first
    | with_reducible assumption
    | intro _
    | with_reducible apply keeps_foldl
    | with_reducible apply keeps_ite
    | with_reducible apply State.wr_keeps
    | with_reducible apply State.vesper_keeps
    | split
    | (with_reducible apply keeps_mk) <;> first
      | with_reducible assumption
      | intro _
      | with_reducible apply keeps_foldl
      | with_reducible apply keeps_ite
      | with_reducible apply State.wr_keeps
      | with_reducible apply State.vesper_keeps
      | split

theorem State.vspSpace_keeps {o : State} {s : State} (hs : Keeps o s) :
    Keeps o (State.vspSpace s) := by
  unfold State.vspSpace
  try dsimp only
  repeat' first
    | with_reducible assumption
    | intro _
    | with_reducible apply keeps_ite
    | with_reducible apply State.vesper_keeps
    | split
    | (with_reducible apply keeps_mk) <;> first
      | with_reducible assumption
      | intro _
      | with_reducible apply keeps_ite
      | with_reducible apply State.vesper_keeps
      | split

theorem State.vspReadGo_keeps {o : State} {s : State} (hs : Keeps o s) :
    Keeps o (State.vspReadGo s) := by
  unfold State.vspReadGo
  try dsimp only
  repeat' first
    | with_reducible assumption
    | intro _
    | with_reducible apply keeps_ite
    | with_reducible apply State.wr_keeps
    | split
    | (with_reducible apply keeps_mk) <;> first
      | with_reducible assumption
      | intro _
      | with_reducible apply keeps_ite
      | with_reducible apply State.wr_keeps
      | split

theorem State.vspRaiseCode_keeps {o : State} {s : State} {m v : Nat} (hs : Keeps o s) :
    Keeps o (State.vspRaiseCode s m v) := by
  unfold State.vspRaiseCode
  try dsimp only
  repeat' first
    | with_reducible assumption
    | intro _
    | with_reducible apply keeps_ite
    | with_reducible apply State.vesper_keeps
    | split
    | (with_reducible apply keeps_mk) <;> first
      | with_reducible assumption
      | intro _
      | with_reducible apply keeps_ite
      | with_reducible apply State.vesper_keeps
      | split

theorem State.vspRaiseParam_keeps {o : State} {s : State} {m i v : Nat} (hs : Keeps o s) :
    Keeps o (State.vspRaiseParam s m i v) := by
  unfold State.vspRaiseParam
  try dsimp only
  repeat' first
    | with_reducible assumption
    | intro _
    | split
    | (with_reducible apply keeps_mk) <;> first
      | with_reducible assumption
      | intro _
      | split

theorem State.operatingSecond_keeps {o : State} {s : State} (hs : Keeps o s) :
    Keeps o (State.operatingSecond s) := by
  unfold State.operatingSecond
  try dsimp only
  repeat' first
    | with_reducible assumption
    | intro _
    | with_reducible apply keeps_ite
    | with_reducible apply State.wr_keeps
    | split
    | (with_reducible apply keeps_mk) <;> first
      | with_reducible assumption
      | intro _
      | with_reducible apply keeps_ite
      | with_reducible apply State.wr_keeps
      | split

theorem State.vspWrite_keeps {o : State} {s : State} {m a2 v : Nat} (hs : Keeps o s) :
    Keeps o (State.vspWrite s m a2 v) := by
  unfold State.vspWrite
  try dsimp only
  repeat' first
    | with_reducible assumption
    | intro _
    | with_reducible apply keeps_ite
    | with_reducible apply State.vspRaiseCode_keeps
    | with_reducible apply State.vspRaiseParam_keeps
    | with_reducible apply State.plainWrite_keeps
    | with_reducible apply State.vspReadGo_keeps
    | split

end Sys2Proof.Machine
end

