-- ==== Sys2Proof/Laws/KeepsPmc.lean ====
section
/-! SUPPORT. What `Keeps` says holds of every operation of Pmc.lean. -/

namespace Sys2Proof.Machine

theorem State.pmcAdd_keeps {o : State} {s : State} {c v : Nat} (hs : Keeps o s) :
    Keeps o (State.pmcAdd s c v) := by
  unfold State.pmcAdd
  try dsimp only
  repeat' first
    | with_reducible assumption
    | intro _
    | with_reducible apply keeps_ite
    | with_reducible apply State.wr_keeps
    | with_reducible apply State.wrw_keeps
    | split

theorem State.pmcTick_keeps {o : State} {s : State} (hs : Keeps o s) :
    Keeps o (State.pmcTick s) := by
  unfold State.pmcTick
  try dsimp only
  repeat' first
    | with_reducible assumption
    | intro _
    | with_reducible apply keeps_forUpTo
    | with_reducible apply keeps_ite
    | with_reducible apply State.pmcAdd_keeps
    | split
    | (with_reducible apply keeps_mk) <;> first
      | with_reducible assumption
      | intro _
      | with_reducible apply keeps_forUpTo
      | with_reducible apply keeps_ite
      | with_reducible apply State.pmcAdd_keeps
      | split

theorem State.counterWrap_keeps {o : State} {s : State} {c : Nat} (hs : Keeps o s) :
    Keeps o (State.counterWrap s c) := by
  unfold State.counterWrap
  try dsimp only
  repeat' first
    | with_reducible assumption
    | intro _
    | with_reducible apply keeps_ite
    | with_reducible apply State.pmcAdd_keeps
    | split
    | (with_reducible apply keeps_mk) <;> first
      | with_reducible assumption
      | intro _
      | with_reducible apply keeps_ite
      | with_reducible apply State.pmcAdd_keeps
      | split

theorem State.pmcClear_keeps {o : State} {s : State} (hs : Keeps o s) :
    Keeps o (State.pmcClear s) := by
  unfold State.pmcClear
  try dsimp only
  repeat' first
    | with_reducible assumption
    | intro _
    | with_reducible apply keeps_forUpTo
    | with_reducible apply State.wrw_keeps
    | split

theorem State.pmcCtrl_keeps {o : State} {s : State} {v : Nat} (hs : Keeps o s) :
    Keeps o (State.pmcCtrl s v) := by
  unfold State.pmcCtrl
  try dsimp only
  repeat' first
    | with_reducible assumption
    | intro _
    | with_reducible apply keeps_ite
    | with_reducible apply State.plainWrite_keeps
    | with_reducible apply State.pmcClear_keeps
    | split

theorem State.pmcSelect_keeps {o : State} {s : State} {c v : Nat} (hs : Keeps o s) :
    Keeps o (State.pmcSelect s c v) := by
  unfold State.pmcSelect
  try dsimp only
  repeat' first
    | with_reducible assumption
    | intro _
    | with_reducible apply keeps_ite
    | with_reducible apply State.raise_keeps
    | with_reducible apply State.plainWrite_keeps
    | split

theorem State.pmcDump_keeps {o : State} {s : State} {r : DumpResult} (hs : Keeps o s) :
    Keeps o (State.pmcDump s r) := by
  unfold State.pmcDump
  try dsimp only
  repeat' first
    | with_reducible assumption
    | intro _
    | with_reducible apply keeps_ite
    | with_reducible apply State.wrw_keeps
    | with_reducible apply State.raise_keeps
    | with_reducible apply State.writeBytes_keeps
    | split
    | (with_reducible apply keeps_mk) <;> first
      | with_reducible assumption
      | intro _
      | with_reducible apply keeps_ite
      | with_reducible apply State.wrw_keeps
      | with_reducible apply State.raise_keeps
      | with_reducible apply State.writeBytes_keeps
      | split

theorem State.bwClose_keeps {o : State} {s : State} {moved : Vector Nat 25} (hs : Keeps o s) :
    Keeps o (State.bwClose s moved) := by
  unfold State.bwClose
  try dsimp only
  repeat' first
    | with_reducible assumption
    | intro _
    | with_reducible apply keeps_forEach
    | with_reducible apply keeps_ite
    | with_reducible apply State.wrw_keeps
    | split
    | (with_reducible apply keeps_mk) <;> first
      | with_reducible assumption
      | intro _
      | with_reducible apply keeps_forEach
      | with_reducible apply keeps_ite
      | with_reducible apply State.wrw_keeps
      | split

theorem State.dumpCfg_keeps {o : State} {s : State} {v : Nat} (hs : Keeps o s) :
    Keeps o (State.dumpCfg s v) := by
  unfold State.dumpCfg
  try dsimp only
  repeat' first
    | with_reducible assumption
    | intro _
    | with_reducible apply keeps_ite
    | with_reducible apply State.plainWrite_keeps
    | split
    | (with_reducible apply keeps_mk) <;> first
      | with_reducible assumption
      | intro _
      | with_reducible apply keeps_ite
      | with_reducible apply State.plainWrite_keeps
      | split

theorem State.pmcWrite_keeps {o : State} {s : State} {a1 v : Nat} (hs : Keeps o s) :
    Keeps o (State.pmcWrite s a1 v) := by
  unfold State.pmcWrite
  try dsimp only
  repeat' first
    | with_reducible assumption
    | intro _
    | with_reducible apply keeps_ite
    | with_reducible apply State.pmcCtrl_keeps
    | with_reducible apply State.dumpCfg_keeps
    | with_reducible apply State.plainWrite_keeps
    | with_reducible apply State.pmcSelect_keeps
    | split
    | (with_reducible apply keeps_mk) <;> first
      | with_reducible assumption
      | intro _
      | with_reducible apply keeps_ite
      | with_reducible apply State.pmcCtrl_keeps
      | with_reducible apply State.dumpCfg_keeps
      | with_reducible apply State.plainWrite_keeps
      | with_reducible apply State.pmcSelect_keeps
      | split

end Sys2Proof.Machine
end

