-- ==== Sys2Proof/Laws/KeepsMgt.lean ====
section
/-! SUPPORT. What `Keeps` says holds of every operation of Mgt.lean. -/

namespace Sys2Proof.Machine

theorem State.aliveToggle_keeps {o : State} {s : State} (hs : Keeps o s) :
    Keeps o (State.aliveToggle s) := by
  unfold State.aliveToggle
  try dsimp only
  repeat' first
    | with_reducible assumption
    | intro _
    | with_reducible apply keeps_ite
    | with_reducible apply State.wrw_keeps
    | with_reducible apply State.wr_keeps
    | split
    | (with_reducible apply keeps_mk) <;> first
      | with_reducible assumption
      | intro _
      | with_reducible apply keeps_ite
      | with_reducible apply State.wrw_keeps
      | with_reducible apply State.wr_keeps
      | split

theorem State.smbusCall_keeps {o : State} {s : State} {addr a2 : Nat} {pec : Option Bool} (hs : Keeps o s) :
    Keeps o (State.smbusCall s addr a2 pec) := by
  unfold State.smbusCall
  try dsimp only
  repeat' first
    | with_reducible assumption
    | intro _
    | with_reducible apply keeps_ite
    | with_reducible apply State.raise_keeps
    | split
    | (with_reducible apply keeps_mk) <;> first
      | with_reducible assumption
      | intro _
      | with_reducible apply keeps_ite
      | with_reducible apply State.raise_keeps
      | split

theorem State.uartByte_keeps {o : State} {s : State} {b : Byte} (hs : Keeps o s) :
    Keeps o (State.uartByte s b) := by
  unfold State.uartByte
  try dsimp only
  repeat' first
    | with_reducible assumption
    | intro _
    | with_reducible apply keeps_ite
    | split
    | (with_reducible apply keeps_mk) <;> first
      | with_reducible assumption
      | intro _
      | with_reducible apply keeps_ite
      | split

theorem State.uartLine_keeps {o : State} {s : State} {line : List Byte} (hs : Keeps o s) :
    Keeps o (State.uartLine s line) := by
  unfold State.uartLine
  try dsimp only
  repeat' first
    | with_reducible assumption
    | intro _
    | with_reducible apply keeps_ite
    | split
    | (with_reducible apply keeps_mk) <;> first
      | with_reducible assumption
      | intro _
      | with_reducible apply keeps_ite
      | split

theorem State.uartSend_keeps {o : State} {s : State} {b : Byte} (hs : Keeps o s) :
    Keeps o (State.uartSend s b) := by
  unfold State.uartSend
  try dsimp only
  repeat' first
    | with_reducible assumption
    | intro _
    | with_reducible apply keeps_ite
    | split
    | (with_reducible apply keeps_mk) <;> first
      | with_reducible assumption
      | intro _
      | with_reducible apply keeps_ite
      | split

theorem State.uartTick_keeps {o : State} {s : State} (hs : Keeps o s) :
    Keeps o (State.uartTick s) := by
  unfold State.uartTick
  try dsimp only
  repeat' first
    | with_reducible assumption
    | intro _
    | with_reducible apply keeps_ite
    | split
    | (with_reducible apply keeps_mk) <;> first
      | with_reducible assumption
      | intro _
      | with_reducible apply keeps_ite
      | split

theorem State.uartTake_keeps {o : State} {s : State} (hs : Keeps o s) :
    Keeps o (State.uartTake s) := by
  unfold State.uartTake
  try dsimp only
  repeat' first
    | with_reducible assumption
    | intro _
    | split
    | (with_reducible apply keeps_mk) <;> first
      | with_reducible assumption
      | intro _
      | split

theorem State.pmbusPoll_keeps {o : State} {s : State} {r : Fin 32} {answer : Option Regulator} (hs : Keeps o s) :
    Keeps o (State.pmbusPoll s r answer) := by
  unfold State.pmbusPoll
  try dsimp only
  repeat' first
    | with_reducible assumption
    | intro _
    | with_reducible apply keeps_ite
    | with_reducible apply State.wrw_keeps
    | with_reducible apply State.raise_keeps
    | with_reducible apply State.wr_keeps
    | split
    | (with_reducible apply keeps_mk) <;> first
      | with_reducible assumption
      | intro _
      | with_reducible apply keeps_ite
      | with_reducible apply State.wrw_keeps
      | with_reducible apply State.raise_keeps
      | with_reducible apply State.wr_keeps
      | split

theorem State.railCompare_keeps {o : State} {s : State} {r : Fin 32} (hs : Keeps o s) :
    Keeps o (State.railCompare s r) := by
  unfold State.railCompare
  try dsimp only
  repeat' first
    | with_reducible assumption
    | intro _
    | with_reducible apply keeps_ite
    | with_reducible apply State.raise_keeps
    | with_reducible apply State.wr_keeps
    | split
    | (with_reducible apply keeps_mk) <;> first
      | with_reducible assumption
      | intro _
      | with_reducible apply keeps_ite
      | with_reducible apply State.raise_keeps
      | with_reducible apply State.wr_keeps
      | split

theorem State.mirrorUpdate_keeps {o : State} {s : State} (hs : Keeps o s) :
    Keeps o (State.mirrorUpdate s) := by
  unfold State.mirrorUpdate
  try dsimp only
  repeat' first
    | with_reducible assumption
    | intro _
    | with_reducible apply keeps_forEach
    | with_reducible apply keeps_forUpTo
    | with_reducible apply keeps_ite
    | with_reducible apply State.wrw_keeps
    | with_reducible apply State.railCompare_keeps
    | split
    | (with_reducible apply keeps_mk) <;> first
      | with_reducible assumption
      | intro _
      | with_reducible apply keeps_forEach
      | with_reducible apply keeps_forUpTo
      | with_reducible apply keeps_ite
      | with_reducible apply State.wrw_keeps
      | with_reducible apply State.railCompare_keeps
      | split

theorem State.mgtWrite_keeps {o : State} {s : State} {a1 v : Nat} (hs : Keeps o s) :
    Keeps o (State.mgtWrite s a1 v) := by
  unfold State.mgtWrite
  try dsimp only
  repeat' first
    | with_reducible assumption
    | intro _
    | with_reducible apply keeps_ite
    | with_reducible apply State.uartSend_keeps
    | with_reducible apply State.plainWrite_keeps
    | split

theorem State.finStart_keeps {o : State} {s : State} (hs : Keeps o s) :
    Keeps o (State.finStart s) := by
  unfold State.finStart
  try dsimp only
  repeat' first
    | with_reducible assumption
    | intro _
    | with_reducible apply keeps_ite
    | split
    | (with_reducible apply keeps_mk) <;> first
      | with_reducible assumption
      | intro _
      | with_reducible apply keeps_ite
      | split

theorem State.finSent_keeps {o : State} {s : State} (hs : Keeps o s) :
    Keeps o (State.finSent s) := by
  unfold State.finSent
  try dsimp only
  repeat' first
    | with_reducible assumption
    | intro _
    | with_reducible apply keeps_ite
    | with_reducible apply State.finStart_keeps
    | split
    | (with_reducible apply keeps_mk) <;> first
      | with_reducible assumption
      | intro _
      | with_reducible apply keeps_ite
      | with_reducible apply State.finStart_keeps
      | split

theorem State.finPulseEnd_keeps {o : State} {s : State} (hs : Keeps o s) :
    Keeps o (State.finPulseEnd s) := by
  unfold State.finPulseEnd
  try dsimp only
  repeat' first
    | with_reducible assumption
    | intro _
    | with_reducible apply keeps_ite
    | split
    | (with_reducible apply keeps_mk) <;> first
      | with_reducible assumption
      | intro _
      | with_reducible apply keeps_ite
      | split

end Sys2Proof.Machine
end

