-- ==== Sys2Proof/Laws/KeepsCoreOps.lean ====
section
/-! SUPPORT. What `Keeps` says holds of every operation of CoreOps.lean. -/

namespace Sys2Proof.Machine

theorem State.setX_keeps {o : State} {s : State} {n : Fin 12} {r : Fin 32} {v : Word} (hs : Keeps o s) :
    Keeps o (State.setX s n r v) := by
  refine keeps_ite (fun _ => hs) fun hr => State.updCore_keeps hs fun c h => ⟨?_, h.2, h.3, h.4, h.5⟩
  have : ¬(r.val = 0) := fun e => hr (Fin.ext e)
  simp only [Fin.getElem_fin, Vector.getElem_set, if_neg this]
  exact h.1

theorem State.coreHalt_keeps {o : State} {s : State} {n : Fin 12} {code detail : Nat} (hs : Keeps o s) :
    Keeps o (State.coreHalt s n code detail) := by
  unfold State.coreHalt
  try dsimp only
  repeat' first
    | exact fun c h => ⟨h.1, h.2, h.3, h.4, h.5⟩
    | with_reducible assumption
    | intro _
    | with_reducible apply keeps_ite
    | with_reducible apply State.writeBytes_keeps
    | with_reducible apply State.updCore_keeps
    | with_reducible apply State.wr_keeps
    | split

theorem State.coreEnter_keeps {o s : State} {n : Fin 12} {epc code detail : Nat} {int : Bool} {tval : Word} (hs : Keeps o s)
    (he : s.Sound → epc % 4 = 0) : Keeps o (s.coreEnter n epc code detail int tval) := by
  refine State.updCore_at hs fun h => ?_
  have he := he h
  have hv := (h.cores n).vbase
  refine ⟨(h.cores n).zero, ?_, ⟨Nat.mod_lt _ (by decide), by simp only; omega⟩, hv, (h.cores n).shev⟩
  cases int <;> exact ⟨by simp <;> omega, by simp <;> omega⟩

theorem State.coreRaise_keeps {o s : State} {n : Fin 12} {epc code detail : Nat} {tval : Word} (hs : Keeps o s)
    (he : s.Sound → epc % 4 = 0) : Keeps o (s.coreRaise n epc code detail tval) :=
  keeps_ite (fun _ => State.coreHalt_keeps hs) fun _ => State.coreEnter_keeps hs he

theorem State.trap_keeps {o s : State} {n : Fin 12} {code detail : Nat} {tval : Word} (hs : Keeps o s) :
    Keeps o (s.trap n code detail tval) :=
  State.coreRaise_keeps hs fun h => (h.cores n).pc.2

theorem State.retired_keeps {o : State} {s : State} {n : Fin 12} (hs : Keeps o s) :
    Keeps o (State.retired s n) := by
  unfold State.retired
  try dsimp only
  repeat' first
    | with_reducible assumption
    | intro _
    | with_reducible apply State.count_keeps
    | split

theorem State.nextPc_keeps {o s : State} {n : Fin 12} (hs : Keeps o s) : Keeps o (s.nextPc n) := by
  have h1 : Keeps o (s.retired n) := State.retired_keeps hs
  unfold State.nextPc
  refine keeps_ite (fun hp => State.updCore_at h1 fun h => ?_) fun _ => State.coreRaise_keeps h1 fun h => ?_
  · have hc := h.cores n
    have := hc.pc.2
    exact ⟨hc.1, ⟨hp, by simp only; omega⟩, hc.3, hc.4, hc.5⟩
  · have := (h.cores n).pc.2
    omega

theorem State.jumpTo_keeps {o s : State} {n : Fin 12} {target : Word} {link : State → State} (hs : Keeps o s)
    (hlink : ∀ s, Keeps o s → Keeps o (link s)) : Keeps o (s.jumpTo n target link) := by
  unfold State.jumpTo
  split
  · exact State.trap_keeps hs
  · rename_i hj
    unfold jumpFault at hj
    split at hj
    · cases hj
    · split at hj
      · cases hj
      · have h2 : Keeps o ((link (s.retired n)).updCore n fun c => { c with pc := target.toNat }) :=
          State.updCore_keeps (hlink _ (State.retired_keeps hs)) fun c h => ⟨h.1, ⟨by simp only; omega, by simp only; omega⟩, h.3, h.4, h.5⟩
        refine keeps_ite (fun _ => ?_) fun _ => h2
        exact (State.wr_keeps h2).same rfl rfl

theorem State.coreReturn_keeps {o s : State} {n : Fin 12} (hs : Keeps o s) : Keeps o (s.coreReturn n) :=
  State.updCore_keeps (State.retired_keeps hs) fun _ h => ⟨h.1, h.3, h.3, h.4, h.5⟩

theorem State.enterInterrupt_keeps {o : State} {s : State} {n : Fin 12} (hs : Keeps o s) :
    Keeps o (State.enterInterrupt s n) := by
  unfold State.enterInterrupt
  split
  · exact State.coreEnter_keeps hs fun h => (h.cores n).pc.2
  · exact hs

theorem State.issue_keeps {o : State} {s : State} {n : Fin 12} {f : State → State} (hs : Keeps o s) (hf : ∀ (b0 : State), Keeps o b0 →
    Keeps o (f b0)) :
    Keeps o (State.issue s n f) := by
  unfold State.issue
  try dsimp only
  repeat' first
    | with_reducible assumption
    | intro _
    | with_reducible apply hf
    | with_reducible apply keeps_ite
    | with_reducible apply State.enterInterrupt_keeps
    | with_reducible apply State.trap_keeps
    | split

theorem State.issueNext_keeps {o : State} {s : State} {n : Fin 12} {f : State → State} (hs : Keeps o s) (hf : ∀ (b0 : State), Keeps o b0 →
    Keeps o (f b0)) :
    Keeps o (State.issueNext s n f) := by
  unfold State.issueNext
  try dsimp only
  repeat' first
    | with_reducible assumption
    | intro _
    | with_reducible apply hf
    | with_reducible apply State.issue_keeps
    | with_reducible apply State.nextPc_keeps
    | split

end Sys2Proof.Machine
end

