-- ==== Sys2Proof/Laws/KeepsBus.lean ====
section
/-! SUPPORT. What `Keeps` says holds of every operation of Bus.lean. -/

namespace Sys2Proof.Machine

theorem State.decodeErr_keeps {o : State} {s : State} {off : Nat} {write : Bool} {m : Nat} (hs : Keeps o s) :
    Keeps o (State.decodeErr s off write m) := by
  unfold State.decodeErr
  try dsimp only
  repeat' first
    | with_reducible assumption
    | intro _
    | with_reducible apply State.raise_keeps
    | with_reducible apply State.wr_keeps
    | split

theorem State.readEffect_keeps {o : State} {s : State} {m off : Nat} (hs : Keeps o s) :
    Keeps o (State.readEffect s m off) := by
  unfold State.readEffect
  try dsimp only
  repeat' first
    | with_reducible assumption
    | intro _
    | with_reducible apply keeps_ite
    | with_reducible apply State.updBtm_keeps
    | with_reducible apply State.wr_keeps
    | with_reducible apply State.uartTake_keeps
    | split
    | (with_reducible apply keeps_mk) <;> first
      | with_reducible assumption
      | intro _
      | with_reducible apply keeps_ite
      | with_reducible apply State.updBtm_keeps
      | with_reducible apply State.wr_keeps
      | with_reducible apply State.uartTake_keeps
      | split

theorem State.ctrlRead_keeps {o : State} {s : State} {m off : Nat} (hs : Keeps o s) :
    Keeps o (State.ctrlRead s m off).1 := by
  unfold State.ctrlRead
  try dsimp only
  repeat' first
    | with_reducible assumption
    | intro _
    | with_reducible apply keeps_ite
    | with_reducible apply State.decodeErr_keeps
    | with_reducible apply State.readEffect_keeps
    | split

theorem State.psqWrite_keeps {o : State} {s : State} {m a2 v : Nat} (hs : Keeps o s) :
    Keeps o (State.psqWrite s m a2 v) := by
  unfold State.psqWrite
  try dsimp only
  repeat' first
    | with_reducible assumption
    | intro _
    | with_reducible apply keeps_ite
    | with_reducible apply State.plainWrite_keeps
    | with_reducible apply State.wr_keeps
    | with_reducible apply State.sheetCtrl_keeps
    | with_reducible apply State.sheetField_keeps
    | with_reducible apply State.pageHi_keeps
    | split

theorem State.strWrite_keeps {o : State} {s : State} {a1 v : Nat} (hs : Keeps o s) :
    Keeps o (State.strWrite s a1 v) := by
  unfold State.strWrite
  try dsimp only
  repeat' first
    | with_reducible assumption
    | intro _
    | with_reducible apply keeps_ite
    | with_reducible apply State.strCtrl_keeps
    | with_reducible apply State.strStation_keeps
    | with_reducible apply State.strPush_keeps
    | with_reducible apply State.plainCtrl_keeps
    | with_reducible apply State.updStations_keeps
    | with_reducible apply State.plainWrite_keeps
    | with_reducible apply State.admitGo_keeps
    | split

theorem State.cdcWrite_keeps {o : State} {s : State} {a1 v : Nat} (hs : Keeps o s) :
    Keeps o (State.cdcWrite s a1 v) := by
  unfold State.cdcWrite
  try dsimp only
  repeat' first
    | with_reducible assumption
    | intro _
    | with_reducible apply keeps_ite
    | with_reducible apply State.laneCtrl_keeps
    | with_reducible apply State.mmPop_keeps
    | with_reducible apply State.plainWrite_keeps
    | split

theorem State.valeCtrl_keeps {o : State} {s : State} {v : Nat} (hs : Keeps o s) :
    Keeps o (State.valeCtrl s v) := by
  unfold State.valeCtrl
  try dsimp only
  repeat' first
    | with_reducible assumption
    | intro _
    | with_reducible apply keeps_ite
    | split
    | (with_reducible apply keeps_mk) <;> first
      | with_reducible assumption
      | intro _
      | with_reducible apply keeps_ite
      | split

theorem State.dmaWrite_keeps {o : State} {s : State} {a1 v : Nat} (hs : Keeps o s) :
    Keeps o (State.dmaWrite s a1 v) := by
  unfold State.dmaWrite
  try dsimp only
  repeat' first
    | with_reducible assumption
    | intro _
    | with_reducible apply keeps_ite
    | with_reducible apply State.dmaCtrl_keeps
    | with_reducible apply State.plainWrite_keeps
    | split

theorem State.causesAgain_keeps {o : State} {s : State} {st : Nat} (hs : Keeps o s) :
    Keeps o (State.causesAgain s st) := by
  unfold State.causesAgain
  try dsimp only
  repeat' first
    | with_reducible assumption
    | intro _
    | with_reducible apply keeps_forUpTo
    | with_reducible apply keeps_ite
    | with_reducible apply State.raiseInst_keeps
    | with_reducible apply State.railRaise_keeps
    | with_reducible apply State.raise_keeps
    | split

theorem State.blockWrite_keeps {o : State} {s : State} {m off v : Nat} (hs : Keeps o s) :
    Keeps o (State.blockWrite s m off v) := by
  unfold State.blockWrite
  try dsimp only
  repeat' first
    | with_reducible assumption
    | intro _
    | with_reducible apply keeps_ite
    | with_reducible apply State.sysWrite_keeps
    | with_reducible apply State.timWrite_keeps
    | with_reducible apply State.clkWrite_keeps
    | with_reducible apply State.pwrWrite_keeps
    | with_reducible apply State.thmWrite_keeps
    | with_reducible apply State.calWrite_keeps
    | with_reducible apply State.vspWrite_keeps
    | with_reducible apply State.pmcWrite_keeps
    | with_reducible apply State.dmaWrite_keeps
    | with_reducible apply State.valeCtrl_keeps
    | with_reducible apply State.plainWrite_keeps
    | with_reducible apply State.psqWrite_keeps
    | with_reducible apply State.strWrite_keeps
    | with_reducible apply State.cdcWrite_keeps
    | with_reducible apply State.fabWriteReg_keeps
    | with_reducible apply State.hstWrite_keeps
    | with_reducible apply State.jrnWrite_keeps
    | with_reducible apply State.xspWrite_keeps
    | with_reducible apply State.csmWrite_keeps
    | with_reducible apply State.pmxWrite_keeps
    | with_reducible apply State.mgtWrite_keeps
    | with_reducible apply State.engineWrite_keeps
    | with_reducible apply State.gapOpening_keeps
    | split

theorem State.ctrlWrite_keeps {o : State} {s : State} {m off v : Nat} (hs : Keeps o s) :
    Keeps o (State.ctrlWrite s m off v) := by
  unfold State.ctrlWrite
  try dsimp only
  repeat' first
    | with_reducible assumption
    | intro _
    | with_reducible apply keeps_ite
    | with_reducible apply State.decodeErr_keeps
    | with_reducible apply State.causesAgain_keeps
    | with_reducible apply State.clearStatus_keeps
    | with_reducible apply State.writeIrqEn_keeps
    | with_reducible apply State.blockWrite_keeps
    | split

theorem State.drainOne_keeps {o : State} {s : State} {n : Fin 12} (hs : Keeps o s) :
    Keeps o (State.drainOne s n) := by
  unfold State.drainOne
  try dsimp only
  repeat' first
    | exact fun c h => ⟨h.1, h.2, h.3, h.4, h.5⟩
    | with_reducible assumption
    | intro _
    | with_reducible apply State.ctrlWrite_keeps
    | with_reducible apply State.updCore_keeps
    | split

theorem State.drainAll_keeps {o : State} {s : State} {n : Fin 12} (hs : Keeps o s) :
    Keeps o (State.drainAll s n) := by
  unfold State.drainAll
  try dsimp only
  repeat' first
    | exact fun c h => ⟨h.1, h.2, h.3, h.4, h.5⟩
    | with_reducible assumption
    | intro _
    | with_reducible apply keeps_forEach
    | with_reducible apply State.updCore_keeps
    | with_reducible apply State.ctrlWrite_keeps
    | split

theorem State.drainBlock_keeps {o : State} {s : State} {n : Fin 12} {b : Nat} (hs : Keeps o s) :
    Keeps o (State.drainBlock s n b) := by
  unfold State.drainBlock
  try dsimp only
  repeat' first
    | exact fun c h => ⟨h.1, h.2, h.3, h.4, h.5⟩
    | with_reducible assumption
    | intro _
    | with_reducible apply keeps_forEach
    | with_reducible apply State.updCore_keeps
    | with_reducible apply State.ctrlWrite_keeps
    | split

theorem State.postWrite_keeps {o : State} {s : State} {n : Fin 12} {off : Nat} {v : RegWord} (hs : Keeps o s) :
    Keeps o (State.postWrite s n off v) := by
  unfold State.postWrite
  try dsimp only
  repeat' first
    | exact fun c h => ⟨h.1, h.2, h.3, h.4, h.5⟩
    | with_reducible assumption
    | intro _
    | with_reducible apply keeps_ite
    | with_reducible apply State.drainOne_keeps
    | with_reducible apply State.updCore_keeps
    | split

theorem State.drainFor_keeps {o : State} {s : State} {m : Master} {off : Nat} (hs : Keeps o s) :
    Keeps o (State.drainFor s m off) := by
  unfold State.drainFor
  try dsimp only
  repeat' first
    | with_reducible assumption
    | intro _
    | with_reducible apply State.drainBlock_keeps
    | split

theorem State.hostRefused_keeps {o : State} {s : State} {off : Nat} {decoded : Bool} (hs : Keeps o s) :
    Keeps o (State.hostRefused s off decoded) := by
  unfold State.hostRefused
  try dsimp only
  repeat' first
    | with_reducible assumption
    | intro _
    | with_reducible apply keeps_ite
    | with_reducible apply State.raiseAll_keeps
    | with_reducible apply State.wr_keeps
    | split

theorem State.asMaster_keeps {o : State} {s : State} {m : Master} {off : Nat} {f : State → State} (hs : Keeps o s) (hf : ∀ (b0 : State),
    Keeps o b0 → Keeps o (f b0)) :
    Keeps o (State.asMaster s m off f) := by
  unfold State.asMaster
  try dsimp only
  repeat' first
    | with_reducible assumption
    | intro _
    | with_reducible apply hf
    | with_reducible apply keeps_ite
    | with_reducible apply State.trap_keeps
    | with_reducible apply State.ownErr_keeps
    | with_reducible apply State.drainFor_keeps
    | with_reducible apply State.hostRefused_keeps
    | split

theorem State.masterWrite_keeps {o : State} {s : State} {m : Master} {off : Nat} {v : RegWord} (hs : Keeps o s) :
    Keeps o (State.masterWrite s m off v) := by
  unfold State.masterWrite
  try dsimp only
  repeat' first
    | with_reducible assumption
    | intro _
    | with_reducible apply State.asMaster_keeps
    | with_reducible apply State.ctrlWrite_keeps
    | split

theorem State.busStore_keeps {o : State} {s : State} {m : Master} {off size : Nat} {v : Word} (hs : Keeps o s) :
    Keeps o (State.busStore s m off size v) := by
  unfold State.busStore
  try dsimp only
  repeat' first
    | with_reducible assumption
    | intro _
    | with_reducible apply keeps_ite
    | with_reducible apply State.masterWrite_keeps
    | with_reducible apply State.hostRefused_keeps
    | with_reducible apply State.decodeErr_keeps
    | split

theorem State.masterRead_keeps {o : State} {s : State} {m : Master} {off : Nat} (hs : Keeps o s) :
    Keeps o (State.masterRead s m off).1 := by
  unfold State.masterRead
  try dsimp only
  repeat' first
    | with_reducible assumption
    | intro _
    | with_reducible apply keeps_ite
    | with_reducible apply State.ctrlRead_keeps
    | with_reducible apply State.drainFor_keeps
    | split

end Sys2Proof.Machine
end

