-- ==== Sys2Proof/Laws/KeepsNovdon.lean ====
section
/-! SUPPORT. What `Keeps` says holds of every operation of Novdon.lean. -/

namespace Sys2Proof.Machine

theorem State.accessNoted_keeps {o : State} {s : State} {n : Fin 12} {k : Access} {l detail : Nat} (hs : Keeps o s) :
    Keeps o (State.accessNoted s n k l detail) := by
  unfold State.accessNoted
  try dsimp only
  repeat' first
    | with_reducible assumption
    | intro _
    | with_reducible apply keeps_ite
    | with_reducible apply State.valeErr_keeps
    | split

theorem State.splitNoted_keeps {o : State} {s : State} {l len : Nat} (hs : Keeps o s) :
    Keeps o (State.splitNoted s l len) := by
  unfold State.splitNoted
  try dsimp only
  repeat' first
    | with_reducible assumption
    | intro _
    | with_reducible apply keeps_ite
    | with_reducible apply State.count_keeps
    | with_reducible apply State.inc_keeps
    | split

theorem State.markAbsent_keeps {o : State} {s : State} {n : Fin 12} (hs : Keeps o s) :
    Keeps o (State.markAbsent s n) := by
  unfold State.markAbsent
  try dsimp only
  repeat' first
    | exact fun c h => ⟨h.1, h.2, h.3, h.4, h.5⟩
    | with_reducible assumption
    | intro _
    | with_reducible apply State.updCore_keeps
    | split

theorem State.controlLoad_keeps {o : State} {s : State} {n : Fin 12} {len : Nat} {signed : Bool} {rd : Fin 32} {off : Nat} (hs : Keeps o
    s) :
    Keeps o (State.controlLoad s n len signed rd off) := by
  unfold State.controlLoad
  try dsimp only
  repeat' first
    | with_reducible assumption
    | intro _
    | with_reducible apply keeps_ite
    | with_reducible apply State.nextPc_keeps
    | with_reducible apply State.setX_keeps
    | with_reducible apply State.decodeErr_keeps
    | with_reducible apply State.drainBlock_keeps
    | with_reducible apply State.ctrlRead_keeps
    | split

theorem State.controlStore_keeps {o : State} {s : State} {n : Fin 12} {len off : Nat} {addr v : Word} (hs : Keeps o s) :
    Keeps o (State.controlStore s n len off addr v) := by
  unfold State.controlStore
  try dsimp only
  repeat' first
    | with_reducible assumption
    | intro _
    | with_reducible apply keeps_ite
    | with_reducible apply State.nextPc_keeps
    | with_reducible apply State.decodeErr_keeps
    | with_reducible apply State.trap_keeps
    | with_reducible apply State.ownErr_keeps
    | with_reducible apply State.postWrite_keeps
    | split

theorem State.coreLoad_keeps {o : State} {s : State} {n : Fin 12} {len : Nat} {signed : Bool} {rd ra : Fin 32} {imm : BitVec 16} (hs :
    Keeps o s) :
    Keeps o (State.coreLoad s n len signed rd ra imm) := by
  unfold State.coreLoad
  try dsimp only
  repeat' first
    | with_reducible assumption
    | intro _
    | with_reducible apply keeps_ite
    | with_reducible apply State.issue_keeps
    | with_reducible apply State.trap_keeps
    | with_reducible apply State.accessNoted_keeps
    | with_reducible apply State.controlLoad_keeps
    | with_reducible apply State.nextPc_keeps
    | with_reducible apply State.setX_keeps
    | with_reducible apply State.markAbsent_keeps
    | with_reducible apply State.splitNoted_keeps
    | split

theorem State.coreStore_keeps {o : State} {s : State} {n : Fin 12} {len : Nat} {rs ra : Fin 32} {imm : BitVec 16} (hs : Keeps o s) :
    Keeps o (State.coreStore s n len rs ra imm) := by
  unfold State.coreStore
  try dsimp only
  repeat' first
    | with_reducible assumption
    | intro _
    | with_reducible apply keeps_ite
    | with_reducible apply State.issue_keeps
    | with_reducible apply State.trap_keeps
    | with_reducible apply State.accessNoted_keeps
    | with_reducible apply State.controlStore_keeps
    | with_reducible apply State.nextPc_keeps
    | with_reducible apply State.markAbsent_keeps
    | with_reducible apply State.busWrite_keeps
    | with_reducible apply State.splitNoted_keeps
    | split

theorem State.amo_keeps {o : State} {s : State} {n : Fin 12} {rd ra : Fin 32} {f : State → Word → Option Word} (hs : Keeps o s) :
    Keeps o (State.amo s n rd ra f) := by
  unfold State.amo
  try dsimp only
  repeat' first
    | with_reducible assumption
    | intro _
    | with_reducible apply keeps_ite
    | with_reducible apply State.issue_keeps
    | with_reducible apply State.trap_keeps
    | with_reducible apply State.accessNoted_keeps
    | with_reducible apply State.nextPc_keeps
    | with_reducible apply State.setX_keeps
    | with_reducible apply State.markAbsent_keeps
    | with_reducible apply State.busWrite_keeps
    | split

theorem State.opR_keeps {o : State} {s : State} {n : Fin 12} {rd ra rb : Fin 32} {f : Word → Word → Word} (hs : Keeps o s) :
    Keeps o (State.opR s n rd ra rb f) := by
  unfold State.opR
  try dsimp only
  repeat' first
    | with_reducible assumption
    | intro _
    | with_reducible apply State.issueNext_keeps
    | with_reducible apply State.setX_keeps
    | split

theorem State.opI_keeps {o : State} {s : State} {n : Fin 12} {rd ra : Fin 32} {f : Word → Word} (hs : Keeps o s) :
    Keeps o (State.opI s n rd ra f) := by
  unfold State.opI
  try dsimp only
  repeat' first
    | with_reducible assumption
    | intro _
    | with_reducible apply State.issueNext_keeps
    | with_reducible apply State.setX_keeps
    | split

theorem State.branch_keeps {o : State} {s : State} {n : Fin 12} {ra rb : Fin 32} {off : BitVec 16} {c : Word → Word → Bool} (hs : Keeps o
    s) :
    Keeps o (State.branch s n ra rb off c) := by
  unfold State.branch
  try dsimp only
  repeat' first
    | with_reducible assumption
    | intro _
    | with_reducible apply keeps_id
    | with_reducible apply keeps_ite
    | with_reducible apply State.issue_keeps
    | with_reducible apply State.jumpTo_keeps
    | with_reducible apply State.nextPc_keeps
    | split

theorem State.privileged_keeps {o : State} {s : State} {n : Fin 12} {allowed : State → Bool} {word : Word} {f : State → State} (hs : Keeps
    o s) (hf : ∀ (b0 : State), Keeps o b0 → Keeps o (f b0)) :
    Keeps o (State.privileged s n allowed word f) := by
  unfold State.privileged
  try dsimp only
  repeat' first
    | with_reducible assumption
    | intro _
    | with_reducible apply hf
    | with_reducible apply keeps_ite
    | with_reducible apply State.issue_keeps
    | with_reducible apply State.trap_keeps
    | split

theorem State.fence_keeps {o : State} {s : State} {n : Fin 12} (hs : Keeps o s) :
    Keeps o (State.fence s n) := by
  unfold State.fence
  try dsimp only
  repeat' first
    | with_reducible assumption
    | intro _
    | with_reducible apply keeps_ite
    | with_reducible apply State.issue_keeps
    | with_reducible apply State.drainAll_keeps
    | with_reducible apply State.nextPc_keeps
    | split

theorem State.rdpmcAt_keeps {o : State} {s : State} {n : Fin 12} {rd : Fin 32} {c : Fin 64} (hs : Keeps o s) :
    Keeps o (State.rdpmcAt s n rd c) := by
  unfold State.rdpmcAt
  try dsimp only
  repeat' first
    | with_reducible assumption
    | intro _
    | with_reducible apply State.privileged_keeps
    | with_reducible apply State.nextPc_keeps
    | with_reducible apply State.setX_keeps
    | split

theorem State.mfcr_keeps {o : State} {s : State} {n : Fin 12} {rd : Fin 32} {num : BitVec 12} (hs : Keeps o s) :
    Keeps o (State.mfcr s n rd num) := by
  unfold State.mfcr
  try dsimp only
  repeat' first
    | with_reducible assumption
    | intro _
    | with_reducible apply keeps_ite
    | with_reducible apply State.issue_keeps
    | with_reducible apply State.trap_keeps
    | with_reducible apply State.nextPc_keeps
    | with_reducible apply State.setX_keeps
    | split

theorem State.mtcr_keeps {o : State} {s : State} {n : Fin 12} {ra : Fin 32} {num : BitVec 12} (hs : Keeps o s) :
    Keeps o (State.mtcr s n ra num) := by
  refine State.issue_keeps hs fun s hs => ?_
  refine keeps_ite (fun _ => State.trap_keeps hs) fun _ => keeps_ite (fun _ => ?_) fun _ => State.trap_keeps hs
  exact State.nextPc_keeps (State.updCore_keeps hs fun c h => CoreX.writeReg_sound _ _ h)

theorem State.setWait_keeps {o : State} {s : State} {n : Fin 12} {w : Wait} (hs : Keeps o s) :
    Keeps o (State.setWait s n w) := by
  unfold State.setWait
  try dsimp only
  repeat' first
    | exact fun c h => ⟨h.1, h.2, h.3, h.4, h.5⟩
    | with_reducible assumption
    | intro _
    | with_reducible apply State.updCore_keeps
    | split

theorem State.waitt_keeps {o : State} {s : State} {n : Fin 12} {rd ra : Fin 32} (hs : Keeps o s) :
    Keeps o (State.waitt s n rd ra) := by
  unfold State.waitt
  try dsimp only
  repeat' first
    | with_reducible assumption
    | intro _
    | with_reducible apply State.issue_keeps
    | with_reducible apply State.setWait_keeps
    | split

theorem State.waittEnd_keeps {o : State} {s : State} {n : Fin 12} (hs : Keeps o s) :
    Keeps o (State.waittEnd s n) := by
  unfold State.waittEnd
  try dsimp only
  repeat' first
    | with_reducible assumption
    | intro _
    | with_reducible apply keeps_ite
    | with_reducible apply State.nextPc_keeps
    | with_reducible apply State.setX_keeps
    | with_reducible apply State.setWait_keeps
    | split

theorem State.wfiEnd_keeps {o : State} {s : State} {n : Fin 12} (hs : Keeps o s) :
    Keeps o (State.wfiEnd s n) := by
  unfold State.wfiEnd
  try dsimp only
  repeat' first
    | with_reducible assumption
    | intro _
    | with_reducible apply keeps_ite
    | with_reducible apply State.nextPc_keeps
    | with_reducible apply State.setWait_keeps
    | split

theorem State.wfi_keeps {o : State} {s : State} {n : Fin 12} (hs : Keeps o s) :
    Keeps o (State.wfi s n) := by
  unfold State.wfi
  try dsimp only
  repeat' first
    | with_reducible assumption
    | intro _
    | with_reducible apply State.wfiEnd_keeps
    | with_reducible apply State.setWait_keeps
    | split

theorem State.sampleTake_keeps {o : State} {s : State} {n : Fin 12} {rd : Fin 32} {sel : Nat} (hs : Keeps o s) :
    Keeps o (State.sampleTake s n rd sel) := by
  unfold State.sampleTake
  try dsimp only
  repeat' first
    | with_reducible assumption
    | intro _
    | with_reducible apply State.nextPc_keeps
    | with_reducible apply State.setX_keeps
    | with_reducible apply State.setWait_keeps
    | split

theorem State.sample_keeps {o : State} {s : State} {n : Fin 12} {rd ra rb : Fin 32} (hs : Keeps o s) :
    Keeps o (State.sample s n rd ra rb) := by
  unfold State.sample
  try dsimp only
  repeat' first
    | with_reducible assumption
    | intro _
    | with_reducible apply keeps_ite
    | with_reducible apply State.issue_keeps
    | with_reducible apply State.trap_keeps
    | with_reducible apply State.sampleTake_keeps
    | with_reducible apply State.setWait_keeps
    | split

theorem State.sampleEnd_keeps {o : State} {s : State} {n : Fin 12} (hs : Keeps o s) :
    Keeps o (State.sampleEnd s n) := by
  unfold State.sampleEnd
  try dsimp only
  repeat' first
    | with_reducible assumption
    | intro _
    | with_reducible apply keeps_ite
    | with_reducible apply State.sampleTake_keeps
    | split

theorem State.colAct_keeps {o : State} {s : State} {t : Nat} (hs : Keeps o s) :
    Keeps o (State.colAct s t) := by
  unfold State.colAct
  try dsimp only
  repeat' first
    | with_reducible assumption
    | intro _
    | with_reducible apply keeps_ite
    | with_reducible apply State.abortSheet_keeps
    | with_reducible apply State.raise_keeps
    | split

theorem State.colsAct_keeps {o : State} {s : State} (hs : Keeps o s) :
    Keeps o (State.colsAct s) := by
  unfold State.colsAct
  try dsimp only
  repeat' first
    | with_reducible assumption
    | intro _
    | with_reducible apply keeps_forUpTo
    | with_reducible apply State.colAct_keeps
    | split

theorem State.commitAct_keeps {o : State} {s : State} {t : Nat} (hs : Keeps o s) :
    Keeps o (State.commitAct s t) := by
  unfold State.commitAct
  try dsimp only
  repeat' first
    | with_reducible assumption
    | intro _
    | with_reducible apply keeps_ite
    | with_reducible apply State.grantCommit_keeps
    | with_reducible apply State.evalSheet_keeps
    | split

theorem State.emitDone_keeps {o : State} {s : State} {c : Cmd} {verdict done : Nat} (hs : Keeps o s) :
    Keeps o (State.emitDone s c verdict done) := by
  unfold State.emitDone
  try dsimp only
  repeat' first
    | with_reducible assumption
    | intro _
    | with_reducible apply keeps_ite
    | with_reducible apply State.enqueue_keeps
    | with_reducible apply State.raise_keeps
    | split
    | (with_reducible apply keeps_mk) <;> first
      | with_reducible assumption
      | intro _
      | with_reducible apply keeps_ite
      | with_reducible apply State.enqueue_keeps
      | with_reducible apply State.raise_keeps
      | split

theorem State.beforeVerdict_keeps {o : State} {s : State} {c : Cmd} (hs : Keeps o s) :
    Keeps o (State.beforeVerdict s c) := by
  unfold State.beforeVerdict
  try dsimp only
  repeat' first
    | with_reducible assumption
    | intro _
    | with_reducible apply State.commitAct_keeps
    | with_reducible apply State.colAct_keeps
    | split

theorem State.emitTry_keeps {o : State} {s : State} {n : Fin 12} {irrev : Bool} {rd ra rb : Fin 32} {ticks : Nat} {counted : Bool} (hs :
    Keeps o s) :
    Keeps o (State.emitTry s n irrev rd ra rb ticks counted) := by
  unfold State.emitTry
  try dsimp only
  repeat' first
    | with_reducible assumption
    | intro _
    | with_reducible apply keeps_ite
    | with_reducible apply State.beforeVerdict_keeps
    | with_reducible apply State.inc_keeps
    | with_reducible apply State.raise_keeps
    | with_reducible apply State.setWait_keeps
    | with_reducible apply State.nextPc_keeps
    | with_reducible apply State.setX_keeps
    | with_reducible apply State.emitDone_keeps
    | split

theorem State.emit_keeps {o : State} {s : State} {n : Fin 12} {irrev : Bool} {rd ra rb : Fin 32} (hs : Keeps o s) :
    Keeps o (State.emit s n irrev rd ra rb) := by
  unfold State.emit
  try dsimp only
  repeat' first
    | with_reducible assumption
    | intro _
    | with_reducible apply State.issue_keeps
    | with_reducible apply State.trap_keeps
    | with_reducible apply State.turn_keeps
    | with_reducible apply State.emitTry_keeps
    | split

theorem State.emitAgain_keeps {o : State} {s : State} {n : Fin 12} (hs : Keeps o s) :
    Keeps o (State.emitAgain s n) := by
  unfold State.emitAgain
  try dsimp only
  repeat' first
    | with_reducible assumption
    | intro _
    | with_reducible apply keeps_ite
    | with_reducible apply State.turn_keeps
    | with_reducible apply State.emitTry_keeps
    | split

theorem State.regionTurn_keeps {o : State} {s : State} {n : Fin 12} {f : State → State} (hs : Keeps o s) (hf : ∀ (b0 : State), Keeps o b0
    → Keeps o (f b0)) :
    Keeps o (State.regionTurn s n f) := by
  unfold State.regionTurn
  try dsimp only
  repeat' first
    | with_reducible assumption
    | intro _
    | with_reducible apply hf
    | with_reducible apply State.turn_keeps
    | split

theorem State.result_keeps {o : State} {s : State} {n : Fin 12} {rd : Fin 32} {v : Nat} (hs : Keeps o s) :
    Keeps o (State.result s n rd v) := by
  unfold State.result
  try dsimp only
  repeat' first
    | with_reducible assumption
    | intro _
    | with_reducible apply State.nextPc_keeps
    | with_reducible apply State.setX_keeps
    | split

theorem State.openRegion_keeps {o : State} {s : State} {n : Fin 12} {t : Nat} {joined : Bool} (hs : Keeps o s) :
    Keeps o (State.openRegion s n t joined) := by
  unfold State.openRegion
  try dsimp only
  repeat' first
    | exact fun c h => ⟨h.1, h.2, h.3, h.4, h.5⟩
    | with_reducible assumption
    | intro _
    | with_reducible apply State.seeCore_keeps
    | with_reducible apply State.updCore_keeps
    | split

theorem State.closeRegion_keeps {o : State} {s : State} {n : Fin 12} {t : Nat} (hs : Keeps o s) :
    Keeps o (State.closeRegion s n t) := by
  refine State.updCore_keeps hs fun c h => ?_
  split
  · split <;> exact ⟨h.1, h.2, h.3, h.4, h.5⟩
  · exact h

theorem State.launch_keeps {o : State} {s : State} {n : Fin 12} {rd : Fin 32} {t : Nat} (hs : Keeps o s) :
    Keeps o (State.launch s n rd t) := by
  unfold State.launch
  try dsimp only
  repeat' first
    | with_reducible assumption
    | intro _
    | with_reducible apply keeps_ite
    | with_reducible apply State.colsAct_keeps
    | with_reducible apply State.result_keeps
    | with_reducible apply State.raise_keeps
    | with_reducible apply State.wr_keeps
    | with_reducible apply State.openRegion_keeps
    | with_reducible apply State.enterNoon_keeps
    | split

theorem State.join_keeps {o : State} {s : State} {n : Fin 12} {rd : Fin 32} {t : Nat} (hs : Keeps o s) :
    Keeps o (State.join s n rd t) := by
  unfold State.join
  try dsimp only
  repeat' first
    | with_reducible assumption
    | intro _
    | with_reducible apply keeps_ite
    | with_reducible apply State.colAct_keeps
    | with_reducible apply State.result_keeps
    | with_reducible apply State.openRegion_keeps
    | split

theorem State.whereNoRegion_keeps {o : State} {s : State} {n : Fin 12} {t : Nat} {f : State → State} (hs : Keeps o s) (hf : ∀ (b0 :
    State), Keeps o b0 → Keeps o (f b0)) :
    Keeps o (State.whereNoRegion s n t f) := by
  unfold State.whereNoRegion
  try dsimp only
  repeat' first
    | with_reducible assumption
    | intro _
    | with_reducible apply hf
    | with_reducible apply keeps_ite
    | with_reducible apply State.trap_keeps
    | split

theorem State.leave_keeps {o : State} {s : State} {n : Fin 12} {rd : Fin 32} (hs : Keeps o s) :
    Keeps o (State.leave s n rd) := by
  unfold State.leave
  try dsimp only
  repeat' first
    | exact fun c h => ⟨h.1, h.2, h.3, h.4, h.5⟩
    | with_reducible assumption
    | intro _
    | with_reducible apply keeps_ite
    | with_reducible apply State.result_keeps
    | with_reducible apply State.updCore_keeps
    | split

theorem State.arm_keeps {o : State} {s : State} {n : Fin 12} {rd : Fin 32} {t : Nat} (hs : Keeps o s) :
    Keeps o (State.arm s n rd t) := by
  unfold State.arm
  try dsimp only
  repeat' first
    | with_reducible assumption
    | intro _
    | with_reducible apply keeps_ite
    | with_reducible apply State.closeRegion_keeps
    | with_reducible apply State.colAct_keeps
    | with_reducible apply State.result_keeps
    | with_reducible apply State.evalSheet_keeps
    | with_reducible apply State.wr_keeps
    | with_reducible apply State.raise_keeps
    | split

theorem State.abort_keeps {o : State} {s : State} {n : Fin 12} {rd : Fin 32} {t : Nat} (hs : Keeps o s) :
    Keeps o (State.abort s n rd t) := by
  unfold State.abort
  try dsimp only
  repeat' first
    | with_reducible assumption
    | intro _
    | with_reducible apply keeps_ite
    | with_reducible apply State.closeRegion_keeps
    | with_reducible apply State.colAct_keeps
    | with_reducible apply State.result_keeps
    | with_reducible apply State.abortSheet_keeps
    | with_reducible apply State.pageBack_keeps
    | with_reducible apply State.endBound_keeps
    | with_reducible apply State.raise_keeps
    | split

theorem State.finishWait_keeps {o : State} {s : State} {n : Fin 12} (hs : Keeps o s) :
    Keeps o (State.finishWait s n) := by
  unfold State.finishWait
  try dsimp only
  repeat' first
    | with_reducible assumption
    | intro _
    | with_reducible apply State.wfiEnd_keeps
    | with_reducible apply State.sampleEnd_keeps
    | with_reducible apply State.waittEnd_keeps
    | split

theorem State.takeInterrupt_keeps {o s : State} {n : Fin 12} (hs : Keeps o s) : Keeps o (s.takeInterrupt n) :=
  keeps_ite (fun _ => State.enterInterrupt_keeps (State.finishWait_keeps hs)) fun _ => hs

end Sys2Proof.Machine
end

