-- ==== Sys2Proof/Laws/KeepsNovDecode.lean ====
section
/-! SUPPORT. What `Keeps` says holds of every operation of NovDecode.lean. -/

namespace Sys2Proof.Machine

theorem State.illegal_keeps {o : State} {s : State} {n : Fin 12} (hs : Keeps o s) :
    Keeps o (State.illegal s n) := by
  unfold State.illegal
  try dsimp only
  repeat' first
    | with_reducible assumption
    | intro _
    | with_reducible apply State.issue_keeps
    | with_reducible apply State.trap_keeps
    | split

end Sys2Proof.Machine
end

