-- ==== Sys2Proof/Laws/KeepsPsqFlow.lean ====
section
/-! SUPPORT. What `Keeps` says holds of every operation of PsqFlow.lean. -/

namespace Sys2Proof.Machine

theorem State.purgeAtCol_keeps {o : State} {s : State} {t : Nat} (hs : Keeps o s) :
    Keeps o (State.purgeAtCol s t) := by
  unfold State.purgeAtCol
  try dsimp only
  repeat' first
    | with_reducible assumption
    | intro _
    | with_reducible apply keeps_ite
    | split
    | (with_reducible apply keeps_mk) <;> first
      | with_reducible assumption
      | intro _
      | with_reducible apply keeps_ite
      | split

theorem State.purgeEnd_keeps {o : State} {s : State} {t : Nat} (hs : Keeps o s) :
    Keeps o (State.purgeEnd s t) := by
  unfold State.purgeEnd
  try dsimp only
  repeat' first
    | with_reducible assumption
    | intro _
    | with_reducible apply keeps_ite
    | with_reducible apply State.sheetDone_keeps
    | split
    | (with_reducible apply keeps_mk) <;> first
      | with_reducible assumption
      | intro _
      | with_reducible apply keeps_ite
      | with_reducible apply State.sheetDone_keeps
      | split

theorem State.webEnd_keeps {o : State} {s : State} {t : Nat} (hs : Keeps o s) :
    Keeps o (State.webEnd s t) := by
  unfold State.webEnd
  try dsimp only
  repeat' first
    | with_reducible assumption
    | intro _
    | with_reducible apply keeps_ite
    | with_reducible apply State.sheetDone_keeps
    | split

theorem State.spoilPoint_keeps {o : State} {s : State} {t : Nat} (hs : Keeps o s) :
    Keeps o (State.spoilPoint s t) := by
  unfold State.spoilPoint
  try dsimp only
  repeat' first
    | with_reducible assumption
    | intro _
    | with_reducible apply keeps_ite
    | split
    | (with_reducible apply keeps_mk) <;> first
      | with_reducible assumption
      | intro _
      | with_reducible apply keeps_ite
      | split

theorem State.spoilEnd_keeps {o : State} {s : State} {t : Nat} (hs : Keeps o s) :
    Keeps o (State.spoilEnd s t) := by
  unfold State.spoilEnd
  try dsimp only
  repeat' first
    | with_reducible assumption
    | intro _
    | with_reducible apply keeps_ite
    | with_reducible apply State.sheetDone_keeps
    | split
    | (with_reducible apply keeps_mk) <;> first
      | with_reducible assumption
      | intro _
      | with_reducible apply keeps_ite
      | with_reducible apply State.sheetDone_keeps
      | split

theorem State.driveGone_keeps {o : State} {s : State} (hs : Keeps o s) :
    Keeps o (State.driveGone s) := by
  unfold State.driveGone
  try dsimp only
  repeat' first
    | with_reducible assumption
    | intro _
    | with_reducible apply keeps_forUpTo
    | with_reducible apply keeps_ite
    | with_reducible apply State.spoilSheet_keeps
    | with_reducible apply State.abortSheet_keeps
    | with_reducible apply State.raise_keeps
    | split
    | (with_reducible apply keeps_mk) <;> first
      | with_reducible assumption
      | intro _
      | with_reducible apply keeps_forUpTo
      | with_reducible apply keeps_ite
      | with_reducible apply State.spoilSheet_keeps
      | with_reducible apply State.abortSheet_keeps
      | with_reducible apply State.raise_keeps
      | split

theorem State.psqRefuse_keeps {o : State} {s : State} (hs : Keeps o s) :
    Keeps o (State.psqRefuse s) := by
  unfold State.psqRefuse
  try dsimp only
  repeat' first
    | with_reducible assumption
    | intro _
    | with_reducible apply State.raise_keeps
    | split

theorem State.finRelease_keeps {o : State} {s : State} {spoil : Bool} (hs : Keeps o s) :
    Keeps o (State.finRelease s spoil) := by
  unfold State.finRelease
  try dsimp only
  repeat' first
    | with_reducible assumption
    | intro _
    | with_reducible apply keeps_ite
    | split
    | (with_reducible apply keeps_mk) <;> first
      | with_reducible assumption
      | intro _
      | with_reducible apply keeps_ite
      | split

theorem State.release_keeps {o : State} {s : State} {c : Cmd} (hs : Keeps o s) :
    Keeps o (State.release s c) := by
  unfold State.release
  try dsimp only
  repeat' first
    | with_reducible assumption
    | intro _
    | with_reducible apply keeps_ite
    | with_reducible apply State.psqRefuse_keeps
    | with_reducible apply State.sheetDone_keeps
    | with_reducible apply State.finRelease_keeps
    | split

theorem State.eventOut_keeps {o : State} {s : State} {t d dev code spec : Nat} (hs : Keeps o s) :
    Keeps o (State.eventOut s t d dev code spec) := by
  unfold State.eventOut
  try dsimp only
  repeat' first
    | with_reducible assumption
    | intro _
    | with_reducible apply keeps_ite
    | with_reducible apply State.hostEvent_keeps
    | with_reducible apply State.finEvent_keeps
    | with_reducible apply State.fabSheetEvent_keeps
    | split

theorem State.seeDest_keeps {o : State} {s : State} {t d dev : Nat} (hs : Keeps o s) :
    ∀ z, State.seeDest s t d dev = some z → Keeps o z := by
  intro z h
  simp only [State.seeDest] at h
  split at h
  · exact Option.some.inj h ▸ State.wr_keeps hs
  · split at h
    · exact Option.some.inj h ▸ State.wr_keeps hs
    · exact State.seeFab_keeps hs z h

theorem State.eventCmd_keeps {o : State} {s : State} {c : Cmd} (hs : Keeps o s) :
    Keeps o (State.eventCmd s c) := by
  unfold State.eventCmd
  dsimp only
  split
  · exact State.psqRefuse_keeps hs
  · refine keeps_ite (fun _ => State.psqRefuse_keeps hs) fun _ => keeps_ite (fun _ => ?_) fun _ => keeps_ite (fun _ => ?_) fun _ => ?_
    · split
      · exact State.eventOut_keeps (State.seeDest_keeps hs _ ‹_›)
      · exact State.raise_keeps hs
    · exact State.eventOut_keeps hs
    · exact State.psqRefuse_keeps hs

theorem State.cmdError_keeps {o : State} {s : State} {st i : Nat} {inst : Fld} {units unit : Nat} (hs : Keeps o s) :
    Keeps o (State.cmdError s st i inst units unit) := by
  unfold State.cmdError
  try dsimp only
  repeat' first
    | with_reducible assumption
    | intro _
    | with_reducible apply keeps_ite
    | with_reducible apply State.raiseInst_keeps
    | with_reducible apply State.raise_keeps
    | split

theorem State.psqCommand_keeps {o : State} {s : State} {c : Cmd} (hs : Keeps o s) :
    Keeps o (State.psqCommand s c) := by
  unfold State.psqCommand
  try dsimp only
  repeat' first
    | with_reducible assumption
    | intro _
    | with_reducible apply State.release_keeps
    | with_reducible apply State.eventCmd_keeps
    | with_reducible apply State.psqRefuse_keeps
    | split

theorem State.btmCommand_keeps {o : State} {s : State} {k : Nat} {c : Cmd} (hs : Keeps o s) :
    Keeps o (State.btmCommand s k c) := by
  unfold State.btmCommand
  try dsimp only
  repeat' first
    | with_reducible assumption
    | intro _
    | with_reducible apply keeps_ite
    | with_reducible apply State.btmRefuse_keeps
    | with_reducible apply State.expose_keeps
    | with_reducible apply State.calStart_keeps
    | with_reducible apply State.calStop_keeps
    | split

theorem State.bldCommand_keeps {o : State} {s : State} {c : Cmd} (hs : Keeps o s) :
    Keeps o (State.bldCommand s c) := by
  unfold State.bldCommand
  try dsimp only
  repeat' first
    | with_reducible assumption
    | intro _
    | with_reducible apply keeps_ite
    | with_reducible apply State.cmdError_keeps
    | with_reducible apply State.bldStart_keeps
    | with_reducible apply State.bldCoast_keeps
    | with_reducible apply State.bldDuty_keeps
    | split

theorem State.stpCommand_keeps {o : State} {s : State} {c : Cmd} (hs : Keeps o s) :
    Keeps o (State.stpCommand s c) := by
  unfold State.stpCommand
  try dsimp only
  repeat' first
    | with_reducible assumption
    | intro _
    | with_reducible apply keeps_ite
    | with_reducible apply State.cmdError_keeps
    | with_reducible apply State.stpGoto_keeps
    | with_reducible apply State.stpMove_keeps
    | with_reducible apply State.stpStop_keeps
    | with_reducible apply State.stpPreset_keeps
    | split

theorem State.praCommand_keeps {o : State} {s : State} {c : Cmd} (hs : Keeps o s) :
    Keeps o (State.praCommand s c) := by
  unfold State.praCommand
  try dsimp only
  repeat' first
    | with_reducible assumption
    | intro _
    | with_reducible apply keeps_ite
    | with_reducible apply State.gapOpening_keeps
    | with_reducible apply State.cmdError_keeps
    | with_reducible apply State.praOn_keeps
    | with_reducible apply State.praOffNow_keeps
    | with_reducible apply State.praSet_keeps
    | with_reducible apply State.praSyncCmd_keeps
    | with_reducible apply State.praCap_keeps
    | split

theorem State.adcCommand_keeps {o : State} {s : State} {c : Cmd} (hs : Keeps o s) :
    Keeps o (State.adcCommand s c) := by
  unfold State.adcCommand
  try dsimp only
  repeat' first
    | with_reducible assumption
    | intro _
    | with_reducible apply State.seqSel_keeps
    | with_reducible apply State.raise_keeps
    | split

theorem State.pwrCommand_keeps {o : State} {s : State} {c : Cmd} (hs : Keeps o s) :
    Keeps o (State.pwrCommand s c) := by
  unfold State.pwrCommand
  try dsimp only
  repeat' first
    | with_reducible assumption
    | intro _
    | with_reducible apply keeps_ite
    | with_reducible apply State.pwrOn_keeps
    | with_reducible apply State.pwrOff_keeps
    | with_reducible apply State.pwrCmdError_keeps
    | split

theorem State.runCommand_keeps {o : State} {s : State} {b : Nat} {c : Cmd} (hs : Keeps o s) :
    Keeps o (State.runCommand s b c) := by
  unfold State.runCommand
  try dsimp only
  repeat' first
    | with_reducible assumption
    | intro _
    | with_reducible apply State.pwrCommand_keeps
    | with_reducible apply State.psqCommand_keeps
    | with_reducible apply State.bldCommand_keeps
    | with_reducible apply State.stpCommand_keeps
    | with_reducible apply State.praCommand_keeps
    | with_reducible apply State.adcCommand_keeps
    | with_reducible apply State.btmCommand_keeps
    | split

theorem State.emitted_keeps {o : State} {s : State} {b op : Nat} (hs : Keeps o s) :
    Keeps o (State.emitted s b op) := by
  unfold State.emitted
  try dsimp only
  repeat' first
    | with_reducible assumption
    | intro _
    | with_reducible apply keeps_ite
    | with_reducible apply State.runCommand_keeps
    | with_reducible apply State.popCmd_keeps
    | split

theorem State.runFirst_keeps {o : State} {s : State} {b : Nat} (hs : Keeps o s) :
    Keeps o (State.runFirst s b) := by
  unfold State.runFirst
  try dsimp only
  repeat' first
    | with_reducible assumption
    | intro _
    | with_reducible apply State.runCommand_keeps
    | with_reducible apply State.popCmd_keeps
    | split

theorem State.runQueue_keeps {o : State} {s : State} {b : Nat} (hs : Keeps o s) :
    Keeps o (State.runQueue s b) := by
  unfold State.runQueue
  try dsimp only
  repeat' first
    | with_reducible assumption
    | intro _
    | with_reducible apply keeps_forUpTo
    | with_reducible apply State.runFirst_keeps
    | split

theorem State.runCommands_keeps {o : State} {s : State} (hs : Keeps o s) :
    Keeps o (State.runCommands s) := by
  unfold State.runCommands
  try dsimp only
  repeat' first
    | with_reducible assumption
    | intro _
    | with_reducible apply keeps_forEach
    | with_reducible apply keeps_ite
    | with_reducible apply State.runQueue_keeps
    | split

end Sys2Proof.Machine
end

