-- ==== Sys2Proof/Laws/KeepsXsp.lean ====
section
/-! SUPPORT. What `Keeps` says holds of every operation of Xsp.lean. -/

namespace Sys2Proof.Machine

theorem State.xspStart_keeps {o : State} {s : State} (hs : Keeps o s) :
    Keeps o (State.xspStart s) := by
  unfold State.xspStart
  try dsimp only
  repeat' first
    | with_reducible assumption
    | intro _
    | with_reducible apply keeps_ite
    | split
    | (with_reducible apply keeps_mk) <;> first
      | with_reducible assumption
      | intro _
      | with_reducible apply keeps_ite
      | split

theorem State.xspCarry_keeps {o : State} {s : State} {j : XspJob} {r : NvmResult} (hs : Keeps o s) :
    Keeps o (State.xspCarry s j r) := by
  unfold State.xspCarry
  try dsimp only
  repeat' first
    | with_reducible assumption
    | intro _
    | with_reducible apply keeps_forEach
    | with_reducible apply State.xspProgram_keeps
    | with_reducible apply State.xspSettled_keeps
    | split
    | (with_reducible apply keeps_mk) <;> first
      | with_reducible assumption
      | intro _
      | with_reducible apply keeps_forEach
      | with_reducible apply State.xspProgram_keeps
      | with_reducible apply State.xspSettled_keeps
      | split

theorem State.ownWritten_keeps {o : State} {s : State} {e : JrnEntry} (hs : Keeps o s) :
    Keeps o (State.ownWritten s e) := by
  unfold State.ownWritten
  try dsimp only
  repeat' first
    | with_reducible assumption
    | intro _
    | with_reducible apply keeps_ite
    | with_reducible apply State.jrnWritten_keeps
    | with_reducible apply State.ringLoss_keeps
    | with_reducible apply State.jrnKeep_keeps
    | split
    | (with_reducible apply keeps_mk) <;> first
      | with_reducible assumption
      | intro _
      | with_reducible apply keeps_ite
      | with_reducible apply State.jrnWritten_keeps
      | with_reducible apply State.ringLoss_keeps
      | with_reducible apply State.jrnKeep_keeps
      | split

theorem State.mateWritten_keeps {o : State} {s : State} {src tag : Nat} {b : List Byte} {r : NvmResult} (hs : Keeps o s) :
    Keeps o (State.mateWritten s src tag b r) := by
  unfold State.mateWritten
  try dsimp only
  repeat' first
    | with_reducible assumption
    | intro _
    | with_reducible apply keeps_ite
    | with_reducible apply State.sendAck_keeps
    | with_reducible apply State.lateError_keeps
    | split
    | (with_reducible apply keeps_mk) <;> first
      | with_reducible assumption
      | intro _
      | with_reducible apply keeps_ite
      | with_reducible apply State.sendAck_keeps
      | with_reducible apply State.lateError_keeps
      | split

theorem State.recordWritten_keeps {o : State} {s : State} {e : VspRec} (hs : Keeps o s) :
    Keeps o (State.recordWritten s e) := by
  unfold State.recordWritten
  try dsimp only
  repeat' first
    | with_reducible assumption
    | intro _
    | with_reducible apply keeps_ite
    | with_reducible apply State.wr_keeps
    | with_reducible apply State.raise_keeps
    | with_reducible apply State.vspSpace_keeps
    | split
    | (with_reducible apply keeps_mk) <;> first
      | with_reducible assumption
      | intro _
      | with_reducible apply keeps_ite
      | with_reducible apply State.wr_keeps
      | with_reducible apply State.raise_keeps
      | with_reducible apply State.vspSpace_keeps
      | split

theorem State.countWritten_keeps {o : State} {s : State} {u : Nat} (hs : Keeps o s) :
    Keeps o (State.countWritten s u) := by
  unfold State.countWritten
  try dsimp only
  repeat' first
    | with_reducible assumption
    | intro _
    | with_reducible apply keeps_ite
    | with_reducible apply State.wr_keeps
    | with_reducible apply State.csmRaise_keeps
    | with_reducible apply State.wrw_keeps
    | split

theorem State.xspTold_keeps {o : State} {s : State} {c : XspClient} {r : NvmResult} (hs : Keeps o s) :
    Keeps o (State.xspTold s c r) := by
  unfold State.xspTold
  try dsimp only
  repeat' first
    | with_reducible assumption
    | intro _
    | with_reducible apply keeps_ite
    | with_reducible apply State.ownWritten_keeps
    | with_reducible apply State.xspFail_keeps
    | with_reducible apply State.raise_keeps
    | with_reducible apply State.mateWritten_keeps
    | with_reducible apply State.recordWritten_keeps
    | with_reducible apply State.countWritten_keeps
    | with_reducible apply State.csmRaise_keeps
    | split

theorem State.xspEnd_keeps {o : State} {s : State} {mine : XspClient → Bool} {r : NvmResult} (hs : Keeps o s) :
    Keeps o (State.xspEnd s mine r) := by
  unfold State.xspEnd
  try dsimp only
  repeat' first
    | with_reducible assumption
    | intro _
    | with_reducible apply keeps_ite
    | with_reducible apply State.xspStart_keeps
    | with_reducible apply State.pumpCpl_keeps
    | with_reducible apply State.xspTold_keeps
    | with_reducible apply State.xspCarry_keeps
    | split

theorem State.jrnNvm_keeps {o : State} {s : State} {r : NvmResult} (hs : Keeps o s) :
    Keeps o (State.jrnNvm s r) := by
  unfold State.jrnNvm
  try dsimp only
  repeat' first
    | with_reducible assumption
    | intro _
    | with_reducible apply State.xspEnd_keeps
    | split

theorem State.vspNvm_keeps {o : State} {s : State} {r : NvmResult} (hs : Keeps o s) :
    Keeps o (State.vspNvm s r) := by
  unfold State.vspNvm
  try dsimp only
  repeat' first
    | with_reducible assumption
    | intro _
    | with_reducible apply State.xspEnd_keeps
    | split

theorem State.cellWritten_keeps {o : State} {s : State} {u : Nat} {r : NvmResult} (hs : Keeps o s) :
    Keeps o (State.cellWritten s u r) := by
  unfold State.cellWritten
  try dsimp only
  repeat' first
    | with_reducible assumption
    | intro _
    | with_reducible apply State.xspEnd_keeps
    | split

theorem State.vspReadDone_keeps {o : State} {s : State} (hs : Keeps o s) :
    Keeps o (State.vspReadDone s) := by
  unfold State.vspReadDone
  try dsimp only
  repeat' first
    | with_reducible assumption
    | intro _
    | with_reducible apply keeps_forUpTo
    | with_reducible apply keeps_ite
    | with_reducible apply State.wrw_keeps
    | with_reducible apply State.xspSettled_keeps
    | split

end Sys2Proof.Machine
end

