-- ==== Sys2Proof/Laws/KeepsTick.lean ====
section
/-! SUPPORT. What `Keeps` says holds of every operation of Tick.lean. -/

namespace Sys2Proof.Machine

theorem State.sheetDue_keeps {o : State} {s : State} {t : Nat} (hs : Keeps o s) :
    Keeps o (State.sheetDue s t) := by
  unfold State.sheetDue
  try dsimp only
  repeat' first
    | with_reducible assumption
    | intro _
    | with_reducible apply keeps_ite
    | with_reducible apply State.commitAct_keeps
    | with_reducible apply State.webEnd_keeps
    | with_reducible apply State.purgeEnd_keeps
    | with_reducible apply State.purgeAtCol_keeps
    | with_reducible apply State.spoilEnd_keeps
    | with_reducible apply State.spoilPoint_keeps
    | split

theorem State.timerDue_keeps {o : State} {s : State} {t : Nat} (hs : Keeps o s) :
    Keeps o (State.timerDue s t) := by
  unfold State.timerDue
  try dsimp only
  repeat' first
    | with_reducible assumption
    | intro _
    | with_reducible apply keeps_ite
    | with_reducible apply State.encoderLatch_keeps
    | with_reducible apply State.windowEnd_keeps
    | with_reducible apply State.windowCapture_keeps
    | split

theorem State.psqDue_keeps {o : State} {s : State} (hs : Keeps o s) :
    Keeps o (State.psqDue s) := by
  unfold State.psqDue
  try dsimp only
  repeat' first
    | with_reducible assumption
    | intro _
    | with_reducible apply keeps_forUpTo
    | with_reducible apply State.driveGone_keeps
    | with_reducible apply State.sheetDue_keeps
    | with_reducible apply State.duskEnds_keeps
    | with_reducible apply State.noonEnds_keeps
    | with_reducible apply State.gapOpening_keeps
    | with_reducible apply State.gapClosing_keeps
    | with_reducible apply State.timerDue_keeps
    | split

theorem State.beamDue_keeps {o : State} {s : State} {k : Nat} (hs : Keeps o s) :
    Keeps o (State.beamDue s k) := by
  unfold State.beamDue
  try dsimp only
  repeat' first
    | with_reducible assumption
    | intro _
    | with_reducible apply State.powerDone_keeps
    | with_reducible apply State.lineEnd_keeps
    | with_reducible apply State.powerDue_keeps
    | with_reducible apply State.facetDots_keeps
    | with_reducible apply State.sosMiss_keeps
    | with_reducible apply State.sosWindow_keeps
    | with_reducible apply State.eosMiss_keeps
    | with_reducible apply State.testMiss_keeps
    | with_reducible apply State.beamTest_keeps
    | split

theorem State.streamDue_keeps {o : State} {s : State} {k : Nat} (hs : Keeps o s) :
    Keeps o (State.streamDue s k) := by
  unfold State.streamDue
  try dsimp only
  repeat' first
    | with_reducible assumption
    | intro _
    | with_reducible apply State.bandFill_keeps
    | with_reducible apply State.prefetch_keeps
    | split

theorem State.periphDue_keeps {o : State} {s : State} (hs : Keeps o s) :
    Keeps o (State.periphDue s) := by
  unfold State.periphDue
  try dsimp only
  repeat' first
    | with_reducible assumption
    | intro _
    | with_reducible apply keeps_forUpTo
    | with_reducible apply keeps_ite
    | with_reducible apply State.praDueNow_keeps
    | with_reducible apply State.bldDue_keeps
    | with_reducible apply State.stpDue_keeps
    | split

theorem State.periphEnds_keeps {o : State} {s : State} (hs : Keeps o s) :
    Keeps o (State.periphEnds s) := by
  unfold State.periphEnds
  try dsimp only
  repeat' first
    | with_reducible assumption
    | intro _
    | with_reducible apply keeps_forUpTo
    | with_reducible apply keeps_ite
    | with_reducible apply State.bldEnd_keeps
    | with_reducible apply State.stpClock_keeps
    | split

theorem State.modelDue_keeps {o : State} {s : State} (hs : Keeps o s) :
    Keeps o (State.modelDue s) := by
  unfold State.modelDue
  try dsimp only
  repeat' first
    | with_reducible assumption
    | intro _
    | with_reducible apply keeps_ite
    | with_reducible apply State.staleDue_keeps
    | with_reducible apply State.releaseN11_keeps
    | with_reducible apply State.calibrated_keeps
    | with_reducible apply State.evalHeat_keeps
    | with_reducible apply State.modelStep_keeps
    | split

theorem State.dumpDue_keeps {o : State} {s : State} (hs : Keeps o s) :
    Keeps o (State.dumpDue s) := by
  unfold State.dumpDue
  try dsimp only
  repeat' first
    | with_reducible assumption
    | intro _
    | with_reducible apply State.pmcDump_keeps
    | split

theorem State.fabDue_keeps {o : State} {s : State} (hs : Keeps o s) :
    Keeps o (State.fabDue s) := by
  unfold State.fabDue
  try dsimp only
  repeat' first
    | with_reducible assumption
    | intro _
    | with_reducible apply keeps_forUpTo
    | with_reducible apply keeps_ite
    | with_reducible apply State.laneTimeout_keeps
    | with_reducible apply State.syncSend_keeps
    | with_reducible apply State.evictAgain_keeps
    | with_reducible apply State.readTimeout_keeps
    | with_reducible apply State.delayMeasure_keeps
    | with_reducible apply State.syncTimeout_keeps
    | split

theorem State.otherDue_keeps {o : State} {s : State} (hs : Keeps o s) :
    Keeps o (State.otherDue s) := by
  unfold State.otherDue
  try dsimp only
  repeat' first
    | with_reducible assumption
    | intro _
    | with_reducible apply State.dumpDue_keeps
    | with_reducible apply State.mirrorUpdate_keeps
    | with_reducible apply State.calTick_keeps
    | with_reducible apply State.modelDue_keeps
    | with_reducible apply State.bwClose_keeps
    | with_reducible apply State.finPulseEnd_keeps
    | with_reducible apply State.finSent_keeps
    | with_reducible apply State.xspStart_keeps
    | with_reducible apply State.pumpCpl_keeps
    | with_reducible apply State.mateSilent_keeps
    | with_reducible apply State.fabDue_keeps
    | split

theorem State.alwaysOnDue_keeps {o : State} {s : State} (hs : Keeps o s) :
    Keeps o (State.alwaysOnDue s) := by
  unfold State.alwaysOnDue
  try dsimp only
  repeat' first
    | with_reducible assumption
    | intro _
    | with_reducible apply State.aliveToggle_keeps
    | with_reducible apply State.holdUpDue_keeps
    | with_reducible apply State.afterSequence_keeps
    | with_reducible apply State.pwrDue_keeps
    | with_reducible apply State.operatingSecond_keeps
    | split

theorem State.runDue_keeps {o : State} {s : State} (hs : Keeps o s) :
    Keeps o (State.runDue s) := by
  unfold State.runDue
  try dsimp only
  repeat' first
    | with_reducible assumption
    | intro _
    | with_reducible apply keeps_forEach
    | with_reducible apply keeps_forUpTo
    | with_reducible apply keeps_ite
    | with_reducible apply State.psqDue_keeps
    | with_reducible apply State.streamDue_keeps
    | with_reducible apply State.beamDue_keeps
    | with_reducible apply State.alarmFire_keeps
    | with_reducible apply State.periphDue_keeps
    | with_reducible apply State.runCommands_keeps
    | with_reducible apply State.otherDue_keeps
    | with_reducible apply State.railEvent_keeps
    | with_reducible apply State.scanFault_keeps
    | with_reducible apply State.periphEnds_keeps
    | with_reducible apply State.finishWait_keeps
    | split

theorem State.fabSend_keeps {o : State} {s : State} {p : Nat} (hs : Keeps o s) :
    Keeps o (State.fabSend s p) := by
  unfold State.fabSend
  try dsimp only
  repeat' first
    | with_reducible assumption
    | intro _
    | split
    | (with_reducible apply keeps_mk) <;> first
      | with_reducible assumption
      | intro _
      | split

theorem State.valeTick_keeps {o : State} {s : State} (hs : Keeps o s) :
    Keeps o (State.valeTick s) := by
  unfold State.valeTick
  try dsimp only
  repeat' first
    | with_reducible assumption
    | intro _
    | with_reducible apply keeps_foldl
    | with_reducible apply keeps_ite
    | split
    | (with_reducible apply keeps_mk) <;> first
      | with_reducible assumption
      | intro _
      | with_reducible apply keeps_foldl
      | with_reducible apply keeps_ite
      | split

theorem State.fecTick_keeps {o : State} {s : State} (hs : Keeps o s) :
    Keeps o (State.fecTick s) := by
  unfold State.fecTick
  try dsimp only
  repeat' first
    | with_reducible assumption
    | intro _
    | with_reducible apply keeps_foldl
    | split
    | (with_reducible apply keeps_mk) <;> first
      | with_reducible assumption
      | intro _
      | with_reducible apply keeps_foldl
      | split

theorem State.dmaTick_keeps {o : State} {s : State} (hs : Keeps o s) :
    Keeps o (State.dmaTick s) := by
  unfold State.dmaTick
  try dsimp only
  repeat' first
    | with_reducible assumption
    | intro _
    | with_reducible apply keeps_ite
    | with_reducible apply State.dmaStep_keeps
    | split

theorem State.stationTick_keeps {o : State} {s : State} {k : Nat} (hs : Keeps o s) :
    Keeps o (State.stationTick s k) := by
  unfold State.stationTick
  try dsimp only
  repeat' first
    | with_reducible assumption
    | intro _
    | with_reducible apply State.dropsCounted_keeps
    | with_reducible apply State.fillSettle_keeps
    | split

theorem State.illegalTick_keeps {o : State} {s : State} {n : Fin 12} (hs : Keeps o s) :
    Keeps o (State.illegalTick s n) := by
  unfold State.illegalTick
  try dsimp only
  repeat' first
    | with_reducible assumption
    | intro _
    | with_reducible apply keeps_ite
    | with_reducible apply State.illegal_keeps
    | split

theorem State.coreTick_keeps {o : State} {s : State} (hs : Keeps o s) :
    Keeps o (State.coreTick s) := by
  unfold State.coreTick
  try dsimp only
  repeat' first
    | with_reducible assumption
    | intro _
    | with_reducible apply keeps_forEach
    | with_reducible apply keeps_forUpTo
    | with_reducible apply State.driveGone_keeps
    | with_reducible apply State.colsAct_keeps
    | with_reducible apply State.stationTick_keeps
    | with_reducible apply State.valeTick_keeps
    | with_reducible apply State.dmaTick_keeps
    | with_reducible apply State.drainOne_keeps
    | with_reducible apply State.illegalTick_keeps
    | split

theorem State.upsets_keeps {o : State} {s : State} (hs : Keeps o s) :
    Keeps o (State.upsets s) := by
  unfold State.upsets
  try dsimp only
  repeat' first
    | with_reducible assumption
    | intro _
    | split
    | (with_reducible apply keeps_mk) <;> first
      | with_reducible assumption
      | intro _
      | split

theorem State.tickRest_keeps {o : State} {s : State} (hs : Keeps o s) :
    Keeps o (State.tickRest s) := by
  unfold State.tickRest
  try dsimp only
  repeat' first
    | with_reducible assumption
    | intro _
    | with_reducible apply keeps_forUpTo
    | with_reducible apply keeps_ite
    | with_reducible apply State.coreTick_keeps
    | with_reducible apply State.pmcTick_keeps
    | with_reducible apply State.upsets_keeps
    | with_reducible apply State.fecTick_keeps
    | with_reducible apply State.uartTick_keeps
    | with_reducible apply State.fabSend_keeps
    | split

theorem State.secondHeld_keeps {o : State} {s : State} (hs : Keeps o s) :
    Keeps o (State.secondHeld s) := by
  unfold State.secondHeld
  try dsimp only
  repeat' first
    | with_reducible assumption
    | intro _
    | with_reducible apply keeps_ite
    | split
    | (with_reducible apply keeps_mk) <;> first
      | with_reducible assumption
      | intro _
      | with_reducible apply keeps_ite
      | split

theorem State.tick_keeps {o : State} {s : State} (hs : Keeps o s) :
    Keeps o (State.tick s) := by
  unfold State.tick
  try dsimp only
  repeat' first
    | with_reducible assumption
    | intro _
    | with_reducible apply keeps_ite
    | with_reducible apply State.alwaysOnDue_keeps
    | with_reducible apply State.runDue_keeps
    | with_reducible apply State.secondHeld_keeps
    | with_reducible apply State.tickRest_keeps
    | with_reducible apply State.clockTick_keeps
    | split
    | (with_reducible apply keeps_mk) <;> first
      | with_reducible assumption
      | intro _
      | with_reducible apply keeps_ite
      | with_reducible apply State.alwaysOnDue_keeps
      | with_reducible apply State.runDue_keeps
      | with_reducible apply State.secondHeld_keeps
      | with_reducible apply State.tickRest_keeps
      | with_reducible apply State.clockTick_keeps
      | split

theorem State.slewedTick_keeps {o : State} {s : State} (hs : Keeps o s) :
    Keeps o (State.slewedTick s) := by
  unfold State.slewedTick
  try dsimp only
  repeat' first
    | with_reducible assumption
    | intro _
    | with_reducible apply keeps_ite
    | with_reducible apply State.tick_keeps
    | split

end Sys2Proof.Machine
end

