-- ==== Sys2Proof/Laws/KeepsRowOps.lean ====
section
/-! SUPPORT. What `Keeps` says holds of every operation of RowOps.lean. -/

namespace Sys2Proof.Machine

theorem ok_keeps {o : State} {s : State} (hs : Keeps o s) :
    ∃ z, ok s = .next z ∧ Keeps o z := by
  exact ⟨_, rfl, State.settle_keeps hs⟩

theorem State.requestState_keeps {o : State} {s : State} {m : Master} {target : Nat} (hs : Keeps o s) :
    Keeps o (State.requestState s m target) := by
  unfold State.requestState
  try dsimp only
  repeat' first
    | with_reducible assumption
    | intro _
    | with_reducible apply State.masterWrite_keeps
    | split

theorem State.doorbellWake_keeps {o : State} {s : State} {n : Nat} {v : RegWord} (hs : Keeps o s) :
    Keeps o (State.doorbellWake s n v) := by
  unfold State.doorbellWake
  try dsimp only
  repeat' first
    | with_reducible assumption
    | intro _
    | with_reducible apply keeps_ite
    | with_reducible apply State.resume_keeps
    | with_reducible apply State.plainWrite_keeps
    | split

theorem State.runBit_keeps {o : State} {s : State} {m : Master} {n : Fin 12} {b : Bool} (hs : Keeps o s) :
    Keeps o (State.runBit s m n b) := by
  unfold State.runBit
  try dsimp only
  repeat' first
    | with_reducible assumption
    | intro _
    | with_reducible apply State.asMaster_keeps
    | with_reducible apply State.ctrlWrite_keeps
    | split

theorem State.statusWrite_keeps {o : State} {s : State} {m : Master} {st : Nat} {v : RegWord} (hs : Keeps o s) :
    Keeps o (State.statusWrite s m st v) := by
  unfold State.statusWrite
  try dsimp only
  repeat' first
    | with_reducible assumption
    | intro _
    | with_reducible apply keeps_ite
    | with_reducible apply State.masterWrite_keeps
    | split

theorem State.alarmWrite_keeps {o : State} {s : State} {m : Master} {r : AlarmReg} {v : RegWord} (hs : Keeps o s) :
    Keeps o (State.alarmWrite s m r v) := by
  unfold State.alarmWrite
  try dsimp only
  repeat' first
    | with_reducible assumption
    | intro _
    | with_reducible apply State.masterWrite_keeps
    | split

theorem State.flushWrite_keeps {o : State} {s : State} {m : Master} {l : Nat} {v : RegWord} {lines : Nat} {diffs : List Nat} (hs : Keeps o
    s) :
    Keeps o (State.flushWrite s m l v lines diffs) := by
  unfold State.flushWrite
  try dsimp only
  repeat' first
    | with_reducible assumption
    | intro _
    | with_reducible apply keeps_ite
    | with_reducible apply State.asMaster_keeps
    | with_reducible apply State.laneFlush_keeps
    | with_reducible apply State.plainWrite_keeps
    | with_reducible apply State.laneGo_keeps
    | split

theorem State.dmaStart_keeps {o : State} {s : State} {m : Master} {n : Nat} {v : RegWord} {mode : Nat} (hs : Keeps o s) :
    Keeps o (State.dmaStart s m n v mode) := by
  unfold State.dmaStart
  try dsimp only
  repeat' first
    | with_reducible assumption
    | intro _
    | with_reducible apply State.masterWrite_keeps
    | split

theorem State.stopWrite_keeps {o : State} {s : State} {m : Master} {n : Nat} {v : RegWord} {block : Nat} (hs : Keeps o s) :
    Keeps o (State.stopWrite s m n v block) := by
  unfold State.stopWrite
  try dsimp only
  repeat' first
    | with_reducible assumption
    | intro _
    | with_reducible apply keeps_ite
    | with_reducible apply State.asMaster_keeps
    | with_reducible apply State.dmaStop_keeps
    | with_reducible apply State.plainWrite_keeps
    | with_reducible apply State.dmaGo_keeps
    | split

theorem State.command_keeps {o : State} {s : State} {src : Src} {b op units : Nat} {reg : Nat → Nat} {bit : Option Nat} (hs : Keeps o s) :
    Keeps o (State.command s src b op units reg bit) := by
  unfold State.command
  try dsimp only
  repeat' first
    | with_reducible assumption
    | intro _
    | with_reducible apply keeps_ite
    | with_reducible apply State.emitted_keeps
    | with_reducible apply State.masterWrite_keeps
    | split

theorem State.bankSelect_keeps {o : State} {s : State} {src : Src} (hs : Keeps o s) :
    Keeps o (State.bankSelect s src) := by
  unfold State.bankSelect
  try dsimp only
  repeat' first
    | with_reducible assumption
    | intro _
    | with_reducible apply keeps_ite
    | with_reducible apply State.emitted_keeps
    | with_reducible apply State.masterWrite_keeps
    | split

theorem State.fwRestart_keeps {o : State} {s : State} {n : Nat} (hs : Keeps o s) :
    Keeps o (State.fwRestart s n) := by
  unfold State.fwRestart
  try dsimp only
  repeat' first
    | with_reducible assumption
    | intro _
    | with_reducible apply keeps_ite
    | with_reducible apply State.fwStage_keeps
    | with_reducible apply State.systemReset_keeps
    | with_reducible apply State.accept_keeps
    | split

theorem State.message_keeps {o : State} {s : State} {p : Nat} {f : FabMsg} {cls kind : Nat} {home : State → FabMsg → State} (hs : Keeps o
    s) (hhome : ∀ (b0 : State) (b1 : FabMsg), Keeps o b0 → Keeps o (home b0 b1)) :
    Keeps o (State.message s p f cls kind home) := by
  unfold State.message
  try dsimp only
  repeat' first
    | with_reducible assumption
    | intro _
    | with_reducible apply hhome
    | with_reducible apply State.fabArrive_keeps
    | split

end Sys2Proof.Machine
end

