-- ==== Sys2Proof/Laws/KeepsRowSys.lean ====
section
/-! SUPPORT. What `Keeps` says holds of every operation of RowSys.lean. -/

namespace Sys2Proof.Machine

theorem execAoPowerGood_keeps {o : State} {s : State} (hs : Keeps o s) :
    ∃ z, execAoPowerGood s = .next z ∧ Keeps o z := by
  refine ⟨_, rfl, State.settle_keeps ?_⟩
  repeat' first
    | with_reducible assumption
    | intro _
    | with_reducible apply ok_keeps
    | with_reducible apply State.aoGood_keeps
    | split

theorem execPowerOnReset_keeps {o : State} {s : State} (hs : Keeps o s) :
    ∃ z, execPowerOnReset s = .next z ∧ Keeps o z := by
  refine ⟨_, rfl, State.settle_keeps ?_⟩
  repeat' first
    | with_reducible assumption
    | intro _
    | with_reducible apply ok_keeps
    | with_reducible apply State.porst_keeps
    | split

theorem execJtagReset_keeps {o : State} {s : State} (hs : Keeps o s) :
    ∃ z, execJtagReset s = .next z ∧ Keeps o z := by
  refine ⟨_, rfl, State.settle_keeps ?_⟩
  repeat' first
    | with_reducible assumption
    | intro _
    | with_reducible apply ok_keeps
    | with_reducible apply State.systemReset_keeps
    | split

theorem execWakeNPhrase_keeps {o : State} {phrase : BitVec 32} {s : State} (hs : Keeps o s) :
    ∃ z, execWakeNPhrase phrase s = .next z ∧ Keeps o z := by
  refine ⟨_, rfl, State.settle_keeps ?_⟩
  repeat' first
    | with_reducible assumption
    | intro _
    | with_reducible apply ok_keeps
    | with_reducible apply State.wakePhrase_keeps
    | split

theorem execUartWakeLine_keeps {o : State} {phrase : BitVec 32} {s : State} (hs : Keeps o s) :
    ∃ z, execUartWakeLine phrase s = .next z ∧ Keeps o z := by
  refine ⟨_, rfl, State.settle_keeps ?_⟩
  repeat' first
    | with_reducible assumption
    | intro _
    | with_reducible apply ok_keeps
    | with_reducible apply State.wakePhrase_keeps
    | split

theorem execRequestMorning_keeps {o : State} {m : Master} {s : State} (hs : Keeps o s) :
    ∃ z, execRequestMorning m s = .next z ∧ Keeps o z := by
  refine ⟨_, rfl, State.settle_keeps ?_⟩
  repeat' first
    | with_reducible assumption
    | intro _
    | with_reducible apply ok_keeps
    | with_reducible apply State.requestState_keeps
    | split

theorem execRequestEvening_keeps {o : State} {m : Master} {s : State} (hs : Keeps o s) :
    ∃ z, execRequestEvening m s = .next z ∧ Keeps o z := by
  refine ⟨_, rfl, State.settle_keeps ?_⟩
  repeat' first
    | with_reducible assumption
    | intro _
    | with_reducible apply ok_keeps
    | with_reducible apply State.requestState_keeps
    | split

theorem execRequestNight_keeps {o : State} {m : Master} {s : State} (hs : Keeps o s) :
    ∃ z, execRequestNight m s = .next z ∧ Keeps o z := by
  refine ⟨_, rfl, State.settle_keeps ?_⟩
  repeat' first
    | with_reducible assumption
    | intro _
    | with_reducible apply ok_keeps
    | with_reducible apply State.requestState_keeps
    | split

theorem execRequestDusk_keeps {o : State} {m : Master} {s : State} (hs : Keeps o s) :
    ∃ z, execRequestDusk m s = .next z ∧ Keeps o z := by
  refine ⟨_, rfl, State.settle_keeps ?_⟩
  repeat' first
    | with_reducible assumption
    | intro _
    | with_reducible apply ok_keeps
    | with_reducible apply State.requestState_keeps
    | split

theorem execRequestNoon_keeps {o : State} {m : Master} {s : State} (hs : Keeps o s) :
    ∃ z, execRequestNoon m s = .next z ∧ Keeps o z := by
  refine ⟨_, rfl, State.settle_keeps ?_⟩
  repeat' first
    | with_reducible assumption
    | intro _
    | with_reducible apply ok_keeps
    | with_reducible apply State.requestState_keeps
    | split

theorem execNoonToMorning_keeps {o : State} {s : State} (hs : Keeps o s) :
    ∃ z, execNoonToMorning s = .next z ∧ Keeps o z := by
  refine ⟨_, rfl, State.settle_keeps ?_⟩
  repeat' first
    | with_reducible assumption
    | intro _
    | with_reducible apply ok_keeps
    | with_reducible apply State.noonEnds_keeps
    | split

theorem execDuskToMorning_keeps {o : State} {s : State} (hs : Keeps o s) :
    ∃ z, execDuskToMorning s = .next z ∧ Keeps o z := by
  refine ⟨_, rfl, State.settle_keeps ?_⟩
  repeat' first
    | with_reducible assumption
    | intro _
    | with_reducible apply ok_keeps
    | with_reducible apply State.duskEnds_keeps
    | split

theorem execHostDoorbellWake_keeps {o : State} {n : Fin 64} {v : RegWord} {s : State} (hs : Keeps o s) :
    ∃ z, execHostDoorbellWake n v s = .next z ∧ Keeps o z := by
  refine ⟨_, rfl, State.settle_keeps ?_⟩
  repeat' first
    | with_reducible assumption
    | intro _
    | with_reducible apply ok_keeps
    | with_reducible apply State.doorbellWake_keeps
    | split

theorem execSysrst_keeps {o : State} {m : Master} {s : State} (hs : Keeps o s) :
    ∃ z, execSysrst m s = .next z ∧ Keeps o z := by
  refine ⟨_, rfl, State.settle_keeps ?_⟩
  repeat' first
    | with_reducible assumption
    | intro _
    | with_reducible apply ok_keeps
    | with_reducible apply State.masterWrite_keeps
    | split

theorem execCoreRelease_keeps {o : State} {m : Master} {n : Fin 12} {s : State} (hs : Keeps o s) :
    ∃ z, execCoreRelease m n s = .next z ∧ Keeps o z := by
  refine ⟨_, rfl, State.settle_keeps ?_⟩
  repeat' first
    | with_reducible assumption
    | intro _
    | with_reducible apply ok_keeps
    | with_reducible apply State.runBit_keeps
    | split

theorem execCoreStop_keeps {o : State} {m : Master} {n : Fin 12} {s : State} (hs : Keeps o s) :
    ∃ z, execCoreStop m n s = .next z ∧ Keeps o z := by
  refine ⟨_, rfl, State.settle_keeps ?_⟩
  repeat' first
    | with_reducible assumption
    | intro _
    | with_reducible apply ok_keeps
    | with_reducible apply State.runBit_keeps
    | split

theorem execBootMapClear_keeps {o : State} {m : Master} {s : State} (hs : Keeps o s) :
    ∃ z, execBootMapClear m s = .next z ∧ Keeps o z := by
  refine ⟨_, rfl, State.settle_keeps ?_⟩
  repeat' first
    | with_reducible assumption
    | intro _
    | with_reducible apply ok_keeps
    | with_reducible apply State.masterWrite_keeps
    | split

theorem execSysDoorbell_keeps {o : State} {m : Master} {v : RegWord} {s : State} (hs : Keeps o s) :
    ∃ z, execSysDoorbell m v s = .next z ∧ Keeps o z := by
  refine ⟨_, rfl, State.settle_keeps ?_⟩
  repeat' first
    | with_reducible assumption
    | intro _
    | with_reducible apply ok_keeps
    | with_reducible apply State.masterWrite_keeps
    | split

theorem execStatusW1c_keeps {o : State} {m : Master} {st : Nat} {v : RegWord} {s : State} (hs : Keeps o s) :
    ∃ z, execStatusW1c m st v s = .next z ∧ Keeps o z := by
  refine ⟨_, rfl, State.settle_keeps ?_⟩
  repeat' first
    | with_reducible assumption
    | intro _
    | with_reducible apply ok_keeps
    | with_reducible apply State.statusWrite_keeps
    | split

theorem execRegisterWrite_keeps {o : State} {m : Master} {off : BitVec 22} {size : Nat} {v : Word} {s : State} (hs : Keeps o s) :
    ∃ z, execRegisterWrite m off size v s = .next z ∧ Keeps o z := by
  refine ⟨_, rfl, State.settle_keeps ?_⟩
  repeat' first
    | with_reducible assumption
    | intro _
    | with_reducible apply ok_keeps
    | with_reducible apply State.busStore_keeps
    | split

theorem execTimNowLoRead_keeps {o : State} {m : Master} {s : State} (hs : Keeps o s) :
    ∃ z, execTimNowLoRead m s = .next z ∧ Keeps o z := by
  refine ⟨_, rfl, State.settle_keeps ?_⟩
  repeat' first
    | with_reducible assumption
    | intro _
    | with_reducible apply ok_keeps
    | with_reducible apply State.masterRead_keeps
    | split

theorem execTimSlewWrite_keeps {o : State} {m : Master} {v : RegWord} {s : State} (hs : Keeps o s) :
    ∃ z, execTimSlewWrite m v s = .next z ∧ Keeps o z := by
  refine ⟨_, rfl, State.settle_keeps ?_⟩
  repeat' first
    | with_reducible assumption
    | intro _
    | with_reducible apply ok_keeps
    | with_reducible apply State.masterWrite_keeps
    | split

theorem execSlewTick_keeps {o : State} {s : State} (hs : Keeps o s) :
    ∃ z, execSlewTick s = .next z ∧ Keeps o z := by
  refine ⟨_, rfl, State.settle_keeps ?_⟩
  repeat' first
    | with_reducible assumption
    | intro _
    | with_reducible apply ok_keeps
    | with_reducible apply State.slewedTick_keeps
    | split

theorem execTimStep_keeps {o : State} {m : Master} {v : RegWord} {s : State} (hs : Keeps o s) :
    ∃ z, execTimStep m v s = .next z ∧ Keeps o z := by
  refine ⟨_, rfl, State.settle_keeps ?_⟩
  repeat' first
    | with_reducible assumption
    | intro _
    | with_reducible apply ok_keeps
    | with_reducible apply State.masterWrite_keeps
    | split

theorem execAlarmArm_keeps {o : State} {m : Master} {r : AlarmReg} {v : RegWord} {s : State} (hs : Keeps o s) :
    ∃ z, execAlarmArm m r v s = .next z ∧ Keeps o z := by
  refine ⟨_, rfl, State.settle_keeps ?_⟩
  repeat' first
    | with_reducible assumption
    | intro _
    | with_reducible apply ok_keeps
    | with_reducible apply State.alarmWrite_keeps
    | split

theorem execAlarmFire_keeps {o : State} {s : State} (hs : Keeps o s) :
    ∃ z, execAlarmFire s = .next z ∧ Keeps o z := by
  refine ⟨_, rfl, State.settle_keeps ?_⟩
  repeat' first
    | with_reducible assumption
    | intro _
    | with_reducible apply ok_keeps
    | with_reducible apply State.alarmFire_keeps
    | split

end Sys2Proof.Machine
end

