-- ==== Sys2Proof/Laws/KeepsRowPmx.lean ====
section
/-! SUPPORT. What `Keeps` says holds of every operation of RowPmx.lean. -/

namespace Sys2Proof.Machine

theorem execClaimCommit_keeps {o : State} {m : Master} {s : State} (hs : Keeps o s) :
    ∃ z, execClaimCommit m s = .next z ∧ Keeps o z := by
  refine ⟨_, rfl, State.settle_keeps ?_⟩
  repeat' first
    | with_reducible assumption
    | intro _
    | with_reducible apply ok_keeps
    | with_reducible apply State.masterWrite_keeps
    | split

theorem execTimerArm_keeps {o : State} {m : Master} {t : Fin 32} {v : RegWord} {s : State} (hs : Keeps o s) :
    ∃ z, execTimerArm m t v s = .next z ∧ Keeps o z := by
  refine ⟨_, rfl, State.settle_keeps ?_⟩
  repeat' first
    | with_reducible assumption
    | intro _
    | with_reducible apply ok_keeps
    | with_reducible apply State.masterWrite_keeps
    | split

theorem execWindowEdgeCapture_keeps {o : State} {t : Fin 32} {s : State} (hs : Keeps o s) :
    ∃ z, execWindowEdgeCapture t s = .next z ∧ Keeps o z := by
  refine ⟨_, rfl, State.settle_keeps ?_⟩
  repeat' first
    | with_reducible assumption
    | intro _
    | with_reducible apply ok_keeps
    | with_reducible apply State.windowCapture_keeps
    | split

theorem execWindowMiss_keeps {o : State} {t : Fin 32} {s : State} (hs : Keeps o s) :
    ∃ z, execWindowMiss t s = .next z ∧ Keeps o z := by
  refine ⟨_, rfl, State.settle_keeps ?_⟩
  repeat' first
    | with_reducible assumption
    | intro _
    | with_reducible apply ok_keeps
    | with_reducible apply State.windowEnd_keeps
    | split

theorem execEncoderLatch_keeps {o : State} {t : Fin 32} {s : State} (hs : Keeps o s) :
    ∃ z, execEncoderLatch t s = .next z ∧ Keeps o z := by
  refine ⟨_, rfl, State.settle_keeps ?_⟩
  repeat' first
    | with_reducible assumption
    | intro _
    | with_reducible apply ok_keeps
    | with_reducible apply State.encoderLatch_keeps
    | split

end Sys2Proof.Machine
end

