-- ==== Sys2Proof/Laws/KeepsRowPage.lean ====
section
/-! SUPPORT. What `Keeps` says holds of every operation of RowPage.lean. -/

namespace Sys2Proof.Machine

theorem execPageEntrySubmit_keeps {o : State} {m : Master} {n : Fin 256} {v : RegWord} {s : State} (hs : Keeps o s) :
    ∃ z, execPageEntrySubmit m n v s = .next z ∧ Keeps o z := by
  refine ⟨_, rfl, State.settle_keeps ?_⟩
  repeat' first
    | with_reducible assumption
    | intro _
    | with_reducible apply ok_keeps
    | with_reducible apply State.masterWrite_keeps
    | split

theorem execPageEntryFree_keeps {o : State} {m : Master} {n : Fin 256} {v : RegWord} {s : State} (hs : Keeps o s) :
    ∃ z, execPageEntryFree m n v s = .next z ∧ Keeps o z := by
  refine ⟨_, rfl, State.settle_keeps ?_⟩
  repeat' first
    | with_reducible assumption
    | intro _
    | with_reducible apply ok_keeps
    | with_reducible apply State.masterWrite_keeps
    | split

theorem execAdmissionTestGo_keeps {o : State} {m : Master} {n : Fin 256} {s : State} (hs : Keeps o s) :
    ∃ z, execAdmissionTestGo m n s = .next z ∧ Keeps o z := by
  refine ⟨_, rfl, State.settle_keeps ?_⟩
  repeat' first
    | with_reducible assumption
    | intro _
    | with_reducible apply ok_keeps
    | with_reducible apply State.masterWrite_keeps
    | split

theorem execAdmissionTestComplete_keeps {o : State} {s : State} (hs : Keeps o s) :
    ∃ z, execAdmissionTestComplete s = .next z ∧ Keeps o z := by
  refine ⟨_, rfl, State.settle_keeps ?_⟩
  repeat' first
    | with_reducible assumption
    | intro _
    | with_reducible apply ok_keeps
    | with_reducible apply State.admitComplete_keeps
    | split

theorem execMorningCheckComplete_keeps {o : State} {n : Fin 256} {s : State} (hs : Keeps o s) :
    ∃ z, execMorningCheckComplete n s = .next z ∧ Keeps o z := by
  refine ⟨_, rfl, State.settle_keeps ?_⟩
  repeat' first
    | with_reducible assumption
    | intro _
    | with_reducible apply ok_keeps
    | with_reducible apply State.checkComplete_keeps
    | split

theorem execMorningCheckMismatch_keeps {o : State} {n : Fin 256} {s : State} (hs : Keeps o s) :
    ∃ z, execMorningCheckMismatch n s = .next z ∧ Keeps o z := by
  refine ⟨_, rfl, State.settle_keeps ?_⟩
  repeat' first
    | with_reducible assumption
    | intro _
    | with_reducible apply ok_keeps
    | with_reducible apply State.turn_keeps
    | with_reducible apply State.checkMismatch_keeps
    | split

theorem execSheetBind_keeps {o : State} {m : Master} {t : Fin 64} {v : RegWord} {s : State} (hs : Keeps o s) :
    ∃ z, execSheetBind m t v s = .next z ∧ Keeps o z := by
  refine ⟨_, rfl, State.settle_keeps ?_⟩
  repeat' first
    | with_reducible assumption
    | intro _
    | with_reducible apply ok_keeps
    | with_reducible apply State.masterWrite_keeps
    | split

theorem execSheetFree_keeps {o : State} {m : Master} {t : Fin 64} {v : RegWord} {s : State} (hs : Keeps o s) :
    ∃ z, execSheetFree m t v s = .next z ∧ Keeps o z := by
  refine ⟨_, rfl, State.settle_keeps ?_⟩
  repeat' first
    | with_reducible assumption
    | intro _
    | with_reducible apply ok_keeps
    | with_reducible apply State.masterWrite_keeps
    | split

theorem execCommitGrant_keeps {o : State} {t : Fin 64} {s : State} (hs : Keeps o s) :
    ∃ z, execCommitGrant t s = .next z ∧ Keeps o z := by
  refine ⟨_, rfl, State.settle_keeps ?_⟩
  repeat' first
    | with_reducible assumption
    | intro _
    | with_reducible apply ok_keeps
    | with_reducible apply State.turn_keeps
    | with_reducible apply State.commitAct_keeps
    | split

theorem execColAbort_keeps {o : State} {t : Fin 64} {s : State} (hs : Keeps o s) :
    ∃ z, execColAbort t s = .next z ∧ Keeps o z := by
  refine ⟨_, rfl, State.settle_keeps ?_⟩
  repeat' first
    | with_reducible assumption
    | intro _
    | with_reducible apply ok_keeps
    | with_reducible apply State.colAct_keeps
    | split

theorem execPurgePulseEnd_keeps {o : State} {t : Fin 64} {s : State} (hs : Keeps o s) :
    ∃ z, execPurgePulseEnd t s = .next z ∧ Keeps o z := by
  refine ⟨_, rfl, State.settle_keeps ?_⟩
  repeat' first
    | with_reducible assumption
    | intro _
    | with_reducible apply ok_keeps
    | with_reducible apply State.purgeEnd_keeps
    | split

theorem execWebFrameEnd_keeps {o : State} {t : Fin 64} {s : State} (hs : Keeps o s) :
    ∃ z, execWebFrameEnd t s = .next z ∧ Keeps o z := by
  refine ⟨_, rfl, State.settle_keeps ?_⟩
  repeat' first
    | with_reducible assumption
    | intro _
    | with_reducible apply ok_keeps
    | with_reducible apply State.webEnd_keeps
    | split

theorem execSpoilDecisionPoint_keeps {o : State} {t : Fin 64} {s : State} (hs : Keeps o s) :
    ∃ z, execSpoilDecisionPoint t s = .next z ∧ Keeps o z := by
  refine ⟨_, rfl, State.settle_keeps ?_⟩
  repeat' first
    | with_reducible assumption
    | intro _
    | with_reducible apply ok_keeps
    | with_reducible apply State.spoilPoint_keeps
    | split

theorem execSpoilPulseEnd_keeps {o : State} {t : Fin 64} {s : State} (hs : Keeps o s) :
    ∃ z, execSpoilPulseEnd t s = .next z ∧ Keeps o z := by
  refine ⟨_, rfl, State.settle_keeps ?_⟩
  repeat' first
    | with_reducible assumption
    | intro _
    | with_reducible apply ok_keeps
    | with_reducible apply State.spoilEnd_keeps
    | split

theorem execDriveLost_keeps {o : State} {s : State} (hs : Keeps o s) :
    ∃ z, execDriveLost s = .next z ∧ Keeps o z := by
  refine ⟨_, rfl, State.settle_keeps ?_⟩
  repeat' first
    | with_reducible assumption
    | intro _
    | with_reducible apply ok_keeps
    | with_reducible apply State.driveGone_keeps
    | split

theorem execGapOpening_keeps {o : State} {s : State} (hs : Keeps o s) :
    ∃ z, execGapOpening s = .next z ∧ Keeps o z := by
  refine ⟨_, rfl, State.settle_keeps ?_⟩
  repeat' first
    | with_reducible assumption
    | intro _
    | with_reducible apply ok_keeps
    | with_reducible apply State.gapOpening_keeps
    | split

theorem execGapClose_keeps {o : State} {s : State} (hs : Keeps o s) :
    ∃ z, execGapClose s = .next z ∧ Keeps o z := by
  refine ⟨_, rfl, State.settle_keeps ?_⟩
  repeat' first
    | with_reducible assumption
    | intro _
    | with_reducible apply ok_keeps
    | with_reducible apply State.gapClosing_keeps
    | split

theorem execStationDecoderMismatch_keeps {o : State} {k j : Fin 8} {s : State} (hs : Keeps o s) :
    ∃ z, execStationDecoderMismatch k j s = .next z ∧ Keeps o z := by
  refine ⟨_, rfl, State.settle_keeps ?_⟩
  repeat' first
    | with_reducible assumption
    | intro _
    | with_reducible apply ok_keeps
    | with_reducible apply State.turn_keeps
    | with_reducible apply State.decoderCheck_keeps
    | split

theorem execCdcMmPop_keeps {o : State} {m : Master} {s : State} (hs : Keeps o s) :
    ∃ z, execCdcMmPop m s = .next z ∧ Keeps o z := by
  refine ⟨_, rfl, State.settle_keeps ?_⟩
  repeat' first
    | with_reducible assumption
    | intro _
    | with_reducible apply ok_keeps
    | with_reducible apply State.masterWrite_keeps
    | split

end Sys2Proof.Machine
end

