-- ==== Sys2Proof/Laws/KeepsRowPlain.lean ====
section
/-! SUPPORT. What `Keeps` says holds of every operation of RowPlain.lean. -/

namespace Sys2Proof.Machine

theorem execPlainFlush_keeps {o : State} {m : Master} {v : RegWord} {s : State} (hs : Keeps o s) :
    ∃ z, execPlainFlush m v s = .next z ∧ Keeps o z := by
  refine ⟨_, rfl, State.settle_keeps ?_⟩
  repeat' first
    | with_reducible assumption
    | intro _
    | with_reducible apply ok_keeps
    | with_reducible apply State.masterWrite_keeps
    | split

theorem execExtentLoadComplete_keeps {o : State} {e : BitVec 21} {good : Bool} {s : State} (hs : Keeps o s) :
    ∃ z, execExtentLoadComplete e good s = .next z ∧ Keeps o z := by
  refine ⟨_, rfl, State.settle_keeps ?_⟩
  repeat' first
    | with_reducible assumption
    | intro _
    | with_reducible apply ok_keeps
    | with_reducible apply State.retryIn_keeps
    | with_reducible apply State.extentLoaded_keeps
    | split

theorem execWritebackComplete_keeps {o : State} {e : BitVec 21} {good : Bool} {s : State} (hs : Keeps o s) :
    ∃ z, execWritebackComplete e good s = .next z ∧ Keeps o z := by
  refine ⟨_, rfl, State.settle_keeps ?_⟩
  repeat' first
    | with_reducible assumption
    | intro _
    | with_reducible apply ok_keeps
    | with_reducible apply State.writtenBack_keeps
    | split

theorem execEvictRetry_keeps {o : State} {s : State} (hs : Keeps o s) :
    ∃ z, execEvictRetry s = .next z ∧ Keeps o z := by
  refine ⟨_, rfl, State.settle_keeps ?_⟩
  repeat' first
    | with_reducible assumption
    | intro _
    | with_reducible apply ok_keeps
    | with_reducible apply State.evictAgain_keeps
    | split

theorem execLaneGo_keeps {o : State} {m : Master} {l : Fin 4} {v : RegWord} {s : State} (hs : Keeps o s) :
    ∃ z, execLaneGo m l v s = .next z ∧ Keeps o z := by
  refine ⟨_, rfl, State.settle_keeps ?_⟩
  repeat' first
    | with_reducible assumption
    | intro _
    | with_reducible apply ok_keeps
    | with_reducible apply State.masterWrite_keeps
    | split

theorem execLaneFlush_keeps {o : State} {m : Master} {l : Fin 4} {v : RegWord} {lines : Nat} {diffs : List Nat} {s : State} (hs : Keeps o
    s) :
    ∃ z, execLaneFlush m l v lines diffs s = .next z ∧ Keeps o z := by
  refine ⟨_, rfl, State.settle_keeps ?_⟩
  repeat' first
    | with_reducible assumption
    | intro _
    | with_reducible apply ok_keeps
    | with_reducible apply State.flushWrite_keeps
    | split

theorem execLaneDone_keeps {o : State} {l : Fin 4} {diffs : List Nat} {s : State} (hs : Keeps o s) :
    ∃ z, execLaneDone l diffs s = .next z ∧ Keeps o z := by
  refine ⟨_, rfl, State.settle_keeps ?_⟩
  repeat' first
    | with_reducible assumption
    | intro _
    | with_reducible apply ok_keeps
    | with_reducible apply State.laneDone_keeps
    | split

theorem execLaneSourceReadError_keeps {o : State} {l : Fin 4} {lines : Nat} {diffs : List Nat} {s : State} (hs : Keeps o s) :
    ∃ z, execLaneSourceReadError l lines diffs s = .next z ∧ Keeps o z := by
  refine ⟨_, rfl, State.settle_keeps ?_⟩
  repeat' first
    | with_reducible assumption
    | intro _
    | with_reducible apply ok_keeps
    | with_reducible apply State.laneSourceError_keeps
    | split

theorem execLaneWriteRefused_keeps {o : State} {l : Fin 4} {diffs : List Nat} {s : State} (hs : Keeps o s) :
    ∃ z, execLaneWriteRefused l diffs s = .next z ∧ Keeps o z := by
  refine ⟨_, rfl, State.settle_keeps ?_⟩
  repeat' first
    | with_reducible assumption
    | intro _
    | with_reducible apply ok_keeps
    | with_reducible apply State.laneRefused_keeps
    | split

end Sys2Proof.Machine
end

