-- ==== Sys2Proof/Laws/KeepsRowStream.lean ====
section
/-! SUPPORT. What `Keeps` says holds of every operation of RowStream.lean. -/

namespace Sys2Proof.Machine

theorem execStrDisable_keeps {o : State} {m : Master} {s : State} (hs : Keeps o s) :
    ∃ z, execStrDisable m s = .next z ∧ Keeps o z := by
  refine ⟨_, rfl, State.settle_keeps ?_⟩
  repeat' first
    | with_reducible assumption
    | intro _
    | with_reducible apply ok_keeps
    | with_reducible apply State.masterWrite_keeps
    | split

theorem execStreamerArm_keeps {o : State} {m : Master} {k : Fin 8} {v : RegWord} {s : State} (hs : Keeps o s) :
    ∃ z, execStreamerArm m k v s = .next z ∧ Keeps o z := by
  refine ⟨_, rfl, State.settle_keeps ?_⟩
  repeat' first
    | with_reducible assumption
    | intro _
    | with_reducible apply ok_keeps
    | with_reducible apply State.masterWrite_keeps
    | split

theorem execStreamerDisarm_keeps {o : State} {m : Master} {k : Fin 8} {v : RegWord} {s : State} (hs : Keeps o s) :
    ∃ z, execStreamerDisarm m k v s = .next z ∧ Keeps o z := by
  refine ⟨_, rfl, State.settle_keeps ?_⟩
  repeat' first
    | with_reducible assumption
    | intro _
    | with_reducible apply ok_keeps
    | with_reducible apply State.masterWrite_keeps
    | split

theorem execWithdraw_keeps {o : State} {m : Master} {k : Fin 8} {v : RegWord} {s : State} (hs : Keeps o s) :
    ∃ z, execWithdraw m k v s = .next z ∧ Keeps o z := by
  refine ⟨_, rfl, State.settle_keeps ?_⟩
  repeat' first
    | with_reducible assumption
    | intro _
    | with_reducible apply ok_keeps
    | with_reducible apply State.masterWrite_keeps
    | split

theorem execStrQPush_keeps {o : State} {m : Master} {k : Fin 8} {v : RegWord} {s : State} (hs : Keeps o s) :
    ∃ z, execStrQPush m k v s = .next z ∧ Keeps o z := by
  refine ⟨_, rfl, State.settle_keeps ?_⟩
  repeat' first
    | with_reducible assumption
    | intro _
    | with_reducible apply ok_keeps
    | with_reducible apply State.masterWrite_keeps
    | split

theorem execPrefetchStart_keeps {o : State} {k : Fin 8} {s : State} (hs : Keeps o s) :
    ∃ z, execPrefetchStart k s = .next z ∧ Keeps o z := by
  refine ⟨_, rfl, State.settle_keeps ?_⟩
  repeat' first
    | with_reducible assumption
    | intro _
    | with_reducible apply ok_keeps
    | with_reducible apply State.prefetch_keeps
    | split

theorem execBandFillStart_keeps {o : State} {k : Fin 8} {s : State} (hs : Keeps o s) :
    ∃ z, execBandFillStart k s = .next z ∧ Keeps o z := by
  refine ⟨_, rfl, State.settle_keeps ?_⟩
  repeat' first
    | with_reducible assumption
    | intro _
    | with_reducible apply ok_keeps
    | with_reducible apply State.bandFill_keeps
    | split

theorem execBurstIssue_keeps {o : State} {k : Fin 8} {drained : Nat} {s : State} (hs : Keeps o s) :
    ∃ z, execBurstIssue k drained s = .next z ∧ Keeps o z := by
  refine ⟨_, rfl, State.settle_keeps ?_⟩
  repeat' first
    | with_reducible assumption
    | intro _
    | with_reducible apply ok_keeps
    | with_reducible apply State.burstIssue_keeps
    | split

theorem execBurstLand_keeps {o : State} {k : Fin 8} {drained : Nat} {s : State} (hs : Keeps o s) :
    ∃ z, execBurstLand k drained s = .next z ∧ Keeps o z := by
  refine ⟨_, rfl, State.settle_keeps ?_⟩
  repeat' first
    | with_reducible assumption
    | intro _
    | with_reducible apply ok_keeps
    | with_reducible apply State.burstLand_keeps
    | split

theorem execBandFillComplete_keeps {o : State} {k : Fin 8} {s : State} (hs : Keeps o s) :
    ∃ z, execBandFillComplete k s = .next z ∧ Keeps o z := by
  refine ⟨_, rfl, State.settle_keeps ?_⟩
  repeat' first
    | with_reducible assumption
    | intro _
    | with_reducible apply ok_keeps
    | with_reducible apply State.fillComplete_keeps
    | split

theorem execValeConfClr_keeps {o : State} {m : Master} {s : State} (hs : Keeps o s) :
    ∃ z, execValeConfClr m s = .next z ∧ Keeps o z := by
  refine ⟨_, rfl, State.settle_keeps ?_⟩
  repeat' first
    | with_reducible assumption
    | intro _
    | with_reducible apply ok_keeps
    | with_reducible apply State.masterWrite_keeps
    | split

theorem execDmaCopy_keeps {o : State} {m : Master} {n : Fin 16} {v : RegWord} {s : State} (hs : Keeps o s) :
    ∃ z, execDmaCopy m n v s = .next z ∧ Keeps o z := by
  refine ⟨_, rfl, State.settle_keeps ?_⟩
  repeat' first
    | with_reducible assumption
    | intro _
    | with_reducible apply ok_keeps
    | with_reducible apply State.dmaStart_keeps
    | split

theorem execDmaFill_keeps {o : State} {m : Master} {n : Fin 16} {v : RegWord} {s : State} (hs : Keeps o s) :
    ∃ z, execDmaFill m n v s = .next z ∧ Keeps o z := by
  refine ⟨_, rfl, State.settle_keeps ?_⟩
  repeat' first
    | with_reducible assumption
    | intro _
    | with_reducible apply ok_keeps
    | with_reducible apply State.dmaStart_keeps
    | split

theorem execDmaCompare_keeps {o : State} {m : Master} {n : Fin 16} {v : RegWord} {s : State} (hs : Keeps o s) :
    ∃ z, execDmaCompare m n v s = .next z ∧ Keeps o z := by
  refine ⟨_, rfl, State.settle_keeps ?_⟩
  repeat' first
    | with_reducible assumption
    | intro _
    | with_reducible apply ok_keeps
    | with_reducible apply State.dmaStart_keeps
    | split

theorem execDmaFence_keeps {o : State} {m : Master} {n : Fin 16} {v : RegWord} {s : State} (hs : Keeps o s) :
    ∃ z, execDmaFence m n v s = .next z ∧ Keeps o z := by
  refine ⟨_, rfl, State.settle_keeps ?_⟩
  repeat' first
    | with_reducible assumption
    | intro _
    | with_reducible apply ok_keeps
    | with_reducible apply State.dmaStart_keeps
    | split

theorem execDmaStop_keeps {o : State} {m : Master} {n : Fin 16} {v : RegWord} {block : Nat} {s : State} (hs : Keeps o s) :
    ∃ z, execDmaStop m n v block s = .next z ∧ Keeps o z := by
  refine ⟨_, rfl, State.settle_keeps ?_⟩
  repeat' first
    | with_reducible assumption
    | intro _
    | with_reducible apply ok_keeps
    | with_reducible apply State.stopWrite_keeps
    | split

theorem execDmaDone_keeps {o : State} {n : Fin 16} {s : State} (hs : Keeps o s) :
    ∃ z, execDmaDone n s = .next z ∧ Keeps o z := by
  refine ⟨_, rfl, State.settle_keeps ?_⟩
  repeat' first
    | with_reducible assumption
    | intro _
    | with_reducible apply ok_keeps
    | with_reducible apply State.dmaDone_keeps
    | split

theorem execDmaBusError_keeps {o : State} {n : Fin 16} {ofs : Nat} {write absent : Bool} {s : State} (hs : Keeps o s) :
    ∃ z, execDmaBusError n ofs write absent s = .next z ∧ Keeps o z := by
  refine ⟨_, rfl, State.settle_keeps ?_⟩
  repeat' first
    | with_reducible assumption
    | intro _
    | with_reducible apply ok_keeps
    | with_reducible apply State.dmaError_keeps
    | split

end Sys2Proof.Machine
end

