-- ==== Sys2Proof/Laws/KeepsRowBeam.lean ====
section
/-! SUPPORT. What `Keeps` says holds of every operation of RowBeam.lean. -/

namespace Sys2Proof.Machine

theorem execSosWindowOpen_keeps {o : State} {k : Fin 8} {s : State} (hs : Keeps o s) :
    ∃ z, execSosWindowOpen k s = .next z ∧ Keeps o z := by
  refine ⟨_, rfl, State.settle_keeps ?_⟩
  repeat' first
    | with_reducible assumption
    | intro _
    | with_reducible apply ok_keeps
    | with_reducible apply State.sosWindow_keeps
    | split

theorem execSosCapture_keeps {o : State} {k : Fin 8} {tap : Fin 32} {s : State} (hs : Keeps o s) :
    ∃ z, execSosCapture k tap s = .next z ∧ Keeps o z := by
  refine ⟨_, rfl, State.settle_keeps ?_⟩
  repeat' first
    | with_reducible assumption
    | intro _
    | with_reducible apply ok_keeps
    | with_reducible apply State.sosCapture_keeps
    | split

theorem execSosMiss_keeps {o : State} {k : Fin 8} {s : State} (hs : Keeps o s) :
    ∃ z, execSosMiss k s = .next z ∧ Keeps o z := by
  refine ⟨_, rfl, State.settle_keeps ?_⟩
  repeat' first
    | with_reducible assumption
    | intro _
    | with_reducible apply ok_keeps
    | with_reducible apply State.sosMiss_keeps
    | split

theorem execLineEnd_keeps {o : State} {k : Fin 8} {s : State} (hs : Keeps o s) :
    ∃ z, execLineEnd k s = .next z ∧ Keeps o z := by
  refine ⟨_, rfl, State.settle_keeps ?_⟩
  repeat' first
    | with_reducible assumption
    | intro _
    | with_reducible apply ok_keeps
    | with_reducible apply State.lineEnd_keeps
    | split

theorem execEosCapture_keeps {o : State} {k : Fin 8} {tap : Fin 32} {s : State} (hs : Keeps o s) :
    ∃ z, execEosCapture k tap s = .next z ∧ Keeps o z := by
  refine ⟨_, rfl, State.settle_keeps ?_⟩
  repeat' first
    | with_reducible assumption
    | intro _
    | with_reducible apply ok_keeps
    | with_reducible apply State.eosCapture_keeps
    | split

theorem execEosMiss_keeps {o : State} {k : Fin 8} {s : State} (hs : Keeps o s) :
    ∃ z, execEosMiss k s = .next z ∧ Keeps o z := by
  refine ⟨_, rfl, State.settle_keeps ?_⟩
  repeat' first
    | with_reducible assumption
    | intro _
    | with_reducible apply ok_keeps
    | with_reducible apply State.eosMiss_keeps
    | split

theorem execDllUnlock_keeps {o : State} {k : Fin 8} {s : State} (hs : Keeps o s) :
    ∃ z, execDllUnlock k s = .next z ∧ Keeps o z := by
  refine ⟨_, rfl, State.settle_keeps ?_⟩
  repeat' first
    | with_reducible assumption
    | intro _
    | with_reducible apply ok_keeps
    | with_reducible apply State.dllUnlock_keeps
    | split

theorem execDllLock_keeps {o : State} {k : Fin 8} {s : State} (hs : Keeps o s) :
    ∃ z, execDllLock k s = .next z ∧ Keeps o z := by
  refine ⟨_, rfl, State.settle_keeps ?_⟩
  repeat' first
    | with_reducible assumption
    | intro _
    | with_reducible apply ok_keeps
    | with_reducible apply State.dllLock_keeps
    | split

theorem execFacetIdxSet_keeps {o : State} {m : Master} {k : Fin 8} {v : RegWord} {s : State} (hs : Keeps o s) :
    ∃ z, execFacetIdxSet m k v s = .next z ∧ Keeps o z := by
  refine ⟨_, rfl, State.settle_keeps ?_⟩
  repeat' first
    | with_reducible assumption
    | intro _
    | with_reducible apply ok_keeps
    | with_reducible apply State.masterWrite_keeps
    | split

theorem execExpose_keeps {o : State} {k : Fin 8} {s : State} (hs : Keeps o s) :
    ∃ z, execExpose k s = .next z ∧ Keeps o z := by
  refine ⟨_, rfl, State.settle_keeps ?_⟩
  repeat' first
    | with_reducible assumption
    | intro _
    | with_reducible apply ok_keeps
    | with_reducible apply State.emitted_keeps
    | split

theorem execCalStart_keeps {o : State} {k : Fin 8} {s : State} (hs : Keeps o s) :
    ∃ z, execCalStart k s = .next z ∧ Keeps o z := by
  refine ⟨_, rfl, State.settle_keeps ?_⟩
  repeat' first
    | with_reducible assumption
    | intro _
    | with_reducible apply ok_keeps
    | with_reducible apply State.emitted_keeps
    | split

theorem execCalStop_keeps {o : State} {k : Fin 8} {s : State} (hs : Keeps o s) :
    ∃ z, execCalStop k s = .next z ∧ Keeps o z := by
  refine ⟨_, rfl, State.settle_keeps ?_⟩
  repeat' first
    | with_reducible assumption
    | intro _
    | with_reducible apply ok_keeps
    | with_reducible apply State.emitted_keeps
    | split

theorem execLsiActivate_keeps {o : State} {in1 : Bool} {s : State} (hs : Keeps o s) :
    ∃ z, execLsiActivate in1 s = .next z ∧ Keeps o z := by
  refine ⟨_, rfl, State.settle_keeps ?_⟩
  repeat' first
    | with_reducible assumption
    | intro _
    | with_reducible apply ok_keeps
    | with_reducible apply State.lsiLow_keeps
    | split

theorem execLsiDisagree_keeps {o : State} {s : State} (hs : Keeps o s) :
    ∃ z, execLsiDisagree s = .next z ∧ Keeps o z := by
  refine ⟨_, rfl, State.settle_keeps ?_⟩
  repeat' first
    | with_reducible assumption
    | intro _
    | with_reducible apply ok_keeps
    | with_reducible apply State.lsiDisagree_keeps
    | split

theorem execLsiRearm_keeps {o : State} {m : Master} {v : RegWord} {s : State} (hs : Keeps o s) :
    ∃ z, execLsiRearm m v s = .next z ∧ Keeps o z := by
  refine ⟨_, rfl, State.settle_keeps ?_⟩
  repeat' first
    | with_reducible assumption
    | intro _
    | with_reducible apply ok_keeps
    | with_reducible apply State.masterWrite_keeps
    | split

theorem execTestCfgWrite_keeps {o : State} {m : Master} {k : Fin 8} {v : RegWord} {s : State} (hs : Keeps o s) :
    ∃ z, execTestCfgWrite m k v s = .next z ∧ Keeps o z := by
  refine ⟨_, rfl, State.settle_keeps ?_⟩
  repeat' first
    | with_reducible assumption
    | intro _
    | with_reducible apply ok_keeps
    | with_reducible apply State.masterWrite_keeps
    | split

theorem execBeamTest_keeps {o : State} {k : Fin 8} {s : State} (hs : Keeps o s) :
    ∃ z, execBeamTest k s = .next z ∧ Keeps o z := by
  refine ⟨_, rfl, State.settle_keeps ?_⟩
  repeat' first
    | with_reducible assumption
    | intro _
    | with_reducible apply ok_keeps
    | with_reducible apply State.beamTest_keeps
    | split

theorem execBeamTestPass_keeps {o : State} {k : Fin 8} {tap : Fin 32} {s : State} (hs : Keeps o s) :
    ∃ z, execBeamTestPass k tap s = .next z ∧ Keeps o z := by
  refine ⟨_, rfl, State.settle_keeps ?_⟩
  repeat' first
    | with_reducible assumption
    | intro _
    | with_reducible apply ok_keeps
    | with_reducible apply State.testPass_keeps
    | split

theorem execBeamTestMiss_keeps {o : State} {k : Fin 8} {s : State} (hs : Keeps o s) :
    ∃ z, execBeamTestMiss k s = .next z ∧ Keeps o z := by
  refine ⟨_, rfl, State.settle_keeps ?_⟩
  repeat' first
    | with_reducible assumption
    | intro _
    | with_reducible apply ok_keeps
    | with_reducible apply State.testMiss_keeps
    | split

theorem execPowerMeasureGo_keeps {o : State} {m : Master} {k : Fin 8} {v : RegWord} {s : State} (hs : Keeps o s) :
    ∃ z, execPowerMeasureGo m k v s = .next z ∧ Keeps o z := by
  refine ⟨_, rfl, State.settle_keeps ?_⟩
  repeat' first
    | with_reducible assumption
    | intro _
    | with_reducible apply ok_keeps
    | with_reducible apply State.masterWrite_keeps
    | split

theorem execPowerFacetIntegrate_keeps {o : State} {k : Fin 8} {v : BitVec 16} {s : State} (hs : Keeps o s) :
    ∃ z, execPowerFacetIntegrate k v s = .next z ∧ Keeps o z := by
  refine ⟨_, rfl, State.settle_keeps ?_⟩
  repeat' first
    | with_reducible assumption
    | intro _
    | with_reducible apply ok_keeps
    | with_reducible apply State.powerFacet_keeps
    | split

theorem execPowerMeasureDone_keeps {o : State} {k : Fin 8} {s : State} (hs : Keeps o s) :
    ∃ z, execPowerMeasureDone k s = .next z ∧ Keeps o z := by
  refine ⟨_, rfl, State.settle_keeps ?_⟩
  repeat' first
    | with_reducible assumption
    | intro _
    | with_reducible apply ok_keeps
    | with_reducible apply State.powerDone_keeps
    | split

end Sys2Proof.Machine
end

