-- ==== Sys2Proof/Laws/KeepsNovAlu.lean ====
section
/-! SUPPORT. What `Keeps` says holds of every operation of NovAlu.lean. -/

namespace Sys2Proof.Machine

theorem execAdd_keeps {o : State} {n : Fin 12} {rd ra rb : Fin 32} {s : State} (hs : Keeps o s) :
    ∃ z, execAdd n rd ra rb s = .next z ∧ Keeps o z := by
  refine ⟨_, rfl, State.settle_keeps ?_⟩
  repeat' first
    | with_reducible assumption
    | intro _
    | with_reducible apply ok_keeps
    | with_reducible apply State.opR_keeps
    | split

theorem execSub_keeps {o : State} {n : Fin 12} {rd ra rb : Fin 32} {s : State} (hs : Keeps o s) :
    ∃ z, execSub n rd ra rb s = .next z ∧ Keeps o z := by
  refine ⟨_, rfl, State.settle_keeps ?_⟩
  repeat' first
    | with_reducible assumption
    | intro _
    | with_reducible apply ok_keeps
    | with_reducible apply State.opR_keeps
    | split

theorem execAnd_keeps {o : State} {n : Fin 12} {rd ra rb : Fin 32} {s : State} (hs : Keeps o s) :
    ∃ z, execAnd n rd ra rb s = .next z ∧ Keeps o z := by
  refine ⟨_, rfl, State.settle_keeps ?_⟩
  repeat' first
    | with_reducible assumption
    | intro _
    | with_reducible apply ok_keeps
    | with_reducible apply State.opR_keeps
    | split

theorem execOr_keeps {o : State} {n : Fin 12} {rd ra rb : Fin 32} {s : State} (hs : Keeps o s) :
    ∃ z, execOr n rd ra rb s = .next z ∧ Keeps o z := by
  refine ⟨_, rfl, State.settle_keeps ?_⟩
  repeat' first
    | with_reducible assumption
    | intro _
    | with_reducible apply ok_keeps
    | with_reducible apply State.opR_keeps
    | split

theorem execXor_keeps {o : State} {n : Fin 12} {rd ra rb : Fin 32} {s : State} (hs : Keeps o s) :
    ∃ z, execXor n rd ra rb s = .next z ∧ Keeps o z := by
  refine ⟨_, rfl, State.settle_keeps ?_⟩
  repeat' first
    | with_reducible assumption
    | intro _
    | with_reducible apply ok_keeps
    | with_reducible apply State.opR_keeps
    | split

theorem execSll_keeps {o : State} {n : Fin 12} {rd ra rb : Fin 32} {s : State} (hs : Keeps o s) :
    ∃ z, execSll n rd ra rb s = .next z ∧ Keeps o z := by
  refine ⟨_, rfl, State.settle_keeps ?_⟩
  repeat' first
    | with_reducible assumption
    | intro _
    | with_reducible apply ok_keeps
    | with_reducible apply State.opR_keeps
    | split

theorem execSrl_keeps {o : State} {n : Fin 12} {rd ra rb : Fin 32} {s : State} (hs : Keeps o s) :
    ∃ z, execSrl n rd ra rb s = .next z ∧ Keeps o z := by
  refine ⟨_, rfl, State.settle_keeps ?_⟩
  repeat' first
    | with_reducible assumption
    | intro _
    | with_reducible apply ok_keeps
    | with_reducible apply State.opR_keeps
    | split

theorem execSra_keeps {o : State} {n : Fin 12} {rd ra rb : Fin 32} {s : State} (hs : Keeps o s) :
    ∃ z, execSra n rd ra rb s = .next z ∧ Keeps o z := by
  refine ⟨_, rfl, State.settle_keeps ?_⟩
  repeat' first
    | with_reducible assumption
    | intro _
    | with_reducible apply ok_keeps
    | with_reducible apply State.opR_keeps
    | split

theorem execSlt_keeps {o : State} {n : Fin 12} {rd ra rb : Fin 32} {s : State} (hs : Keeps o s) :
    ∃ z, execSlt n rd ra rb s = .next z ∧ Keeps o z := by
  refine ⟨_, rfl, State.settle_keeps ?_⟩
  repeat' first
    | with_reducible assumption
    | intro _
    | with_reducible apply ok_keeps
    | with_reducible apply State.opR_keeps
    | split

theorem execSltu_keeps {o : State} {n : Fin 12} {rd ra rb : Fin 32} {s : State} (hs : Keeps o s) :
    ∃ z, execSltu n rd ra rb s = .next z ∧ Keeps o z := by
  refine ⟨_, rfl, State.settle_keeps ?_⟩
  repeat' first
    | with_reducible assumption
    | intro _
    | with_reducible apply ok_keeps
    | with_reducible apply State.opR_keeps
    | split

theorem execMul_keeps {o : State} {n : Fin 12} {rd ra rb : Fin 32} {s : State} (hs : Keeps o s) :
    ∃ z, execMul n rd ra rb s = .next z ∧ Keeps o z := by
  refine ⟨_, rfl, State.settle_keeps ?_⟩
  repeat' first
    | with_reducible assumption
    | intro _
    | with_reducible apply ok_keeps
    | with_reducible apply State.opR_keeps
    | split

theorem execMulh_keeps {o : State} {n : Fin 12} {rd ra rb : Fin 32} {s : State} (hs : Keeps o s) :
    ∃ z, execMulh n rd ra rb s = .next z ∧ Keeps o z := by
  refine ⟨_, rfl, State.settle_keeps ?_⟩
  repeat' first
    | with_reducible assumption
    | intro _
    | with_reducible apply ok_keeps
    | with_reducible apply State.opR_keeps
    | split

theorem execMulhu_keeps {o : State} {n : Fin 12} {rd ra rb : Fin 32} {s : State} (hs : Keeps o s) :
    ∃ z, execMulhu n rd ra rb s = .next z ∧ Keeps o z := by
  refine ⟨_, rfl, State.settle_keeps ?_⟩
  repeat' first
    | with_reducible assumption
    | intro _
    | with_reducible apply ok_keeps
    | with_reducible apply State.opR_keeps
    | split

theorem execDiv_keeps {o : State} {n : Fin 12} {rd ra rb : Fin 32} {s : State} (hs : Keeps o s) :
    ∃ z, execDiv n rd ra rb s = .next z ∧ Keeps o z := by
  refine ⟨_, rfl, State.settle_keeps ?_⟩
  repeat' first
    | with_reducible assumption
    | intro _
    | with_reducible apply ok_keeps
    | with_reducible apply State.opR_keeps
    | split

theorem execDivu_keeps {o : State} {n : Fin 12} {rd ra rb : Fin 32} {s : State} (hs : Keeps o s) :
    ∃ z, execDivu n rd ra rb s = .next z ∧ Keeps o z := by
  refine ⟨_, rfl, State.settle_keeps ?_⟩
  repeat' first
    | with_reducible assumption
    | intro _
    | with_reducible apply ok_keeps
    | with_reducible apply State.opR_keeps
    | split

theorem execRem_keeps {o : State} {n : Fin 12} {rd ra rb : Fin 32} {s : State} (hs : Keeps o s) :
    ∃ z, execRem n rd ra rb s = .next z ∧ Keeps o z := by
  refine ⟨_, rfl, State.settle_keeps ?_⟩
  repeat' first
    | with_reducible assumption
    | intro _
    | with_reducible apply ok_keeps
    | with_reducible apply State.opR_keeps
    | split

theorem execRemu_keeps {o : State} {n : Fin 12} {rd ra rb : Fin 32} {s : State} (hs : Keeps o s) :
    ∃ z, execRemu n rd ra rb s = .next z ∧ Keeps o z := by
  refine ⟨_, rfl, State.settle_keeps ?_⟩
  repeat' first
    | with_reducible assumption
    | intro _
    | with_reducible apply ok_keeps
    | with_reducible apply State.opR_keeps
    | split

theorem execMin_keeps {o : State} {n : Fin 12} {rd ra rb : Fin 32} {s : State} (hs : Keeps o s) :
    ∃ z, execMin n rd ra rb s = .next z ∧ Keeps o z := by
  refine ⟨_, rfl, State.settle_keeps ?_⟩
  repeat' first
    | with_reducible assumption
    | intro _
    | with_reducible apply keeps_ite
    | with_reducible apply ok_keeps
    | with_reducible apply State.opR_keeps
    | split

theorem execMax_keeps {o : State} {n : Fin 12} {rd ra rb : Fin 32} {s : State} (hs : Keeps o s) :
    ∃ z, execMax n rd ra rb s = .next z ∧ Keeps o z := by
  refine ⟨_, rfl, State.settle_keeps ?_⟩
  repeat' first
    | with_reducible assumption
    | intro _
    | with_reducible apply keeps_ite
    | with_reducible apply ok_keeps
    | with_reducible apply State.opR_keeps
    | split

theorem execMinu_keeps {o : State} {n : Fin 12} {rd ra rb : Fin 32} {s : State} (hs : Keeps o s) :
    ∃ z, execMinu n rd ra rb s = .next z ∧ Keeps o z := by
  refine ⟨_, rfl, State.settle_keeps ?_⟩
  repeat' first
    | with_reducible assumption
    | intro _
    | with_reducible apply keeps_ite
    | with_reducible apply ok_keeps
    | with_reducible apply State.opR_keeps
    | split

theorem execMaxu_keeps {o : State} {n : Fin 12} {rd ra rb : Fin 32} {s : State} (hs : Keeps o s) :
    ∃ z, execMaxu n rd ra rb s = .next z ∧ Keeps o z := by
  refine ⟨_, rfl, State.settle_keeps ?_⟩
  repeat' first
    | with_reducible assumption
    | intro _
    | with_reducible apply keeps_ite
    | with_reducible apply ok_keeps
    | with_reducible apply State.opR_keeps
    | split

theorem execAddi_keeps {o : State} {n : Fin 12} {rd ra : Fin 32} {imm : BitVec 16} {s : State} (hs : Keeps o s) :
    ∃ z, execAddi n rd ra imm s = .next z ∧ Keeps o z := by
  refine ⟨_, rfl, State.settle_keeps ?_⟩
  repeat' first
    | with_reducible assumption
    | intro _
    | with_reducible apply ok_keeps
    | with_reducible apply State.opI_keeps
    | split

theorem execAndi_keeps {o : State} {n : Fin 12} {rd ra : Fin 32} {imm : BitVec 16} {s : State} (hs : Keeps o s) :
    ∃ z, execAndi n rd ra imm s = .next z ∧ Keeps o z := by
  refine ⟨_, rfl, State.settle_keeps ?_⟩
  repeat' first
    | with_reducible assumption
    | intro _
    | with_reducible apply ok_keeps
    | with_reducible apply State.opI_keeps
    | split

theorem execOri_keeps {o : State} {n : Fin 12} {rd ra : Fin 32} {imm : BitVec 16} {s : State} (hs : Keeps o s) :
    ∃ z, execOri n rd ra imm s = .next z ∧ Keeps o z := by
  refine ⟨_, rfl, State.settle_keeps ?_⟩
  repeat' first
    | with_reducible assumption
    | intro _
    | with_reducible apply ok_keeps
    | with_reducible apply State.opI_keeps
    | split

theorem execXori_keeps {o : State} {n : Fin 12} {rd ra : Fin 32} {imm : BitVec 16} {s : State} (hs : Keeps o s) :
    ∃ z, execXori n rd ra imm s = .next z ∧ Keeps o z := by
  refine ⟨_, rfl, State.settle_keeps ?_⟩
  repeat' first
    | with_reducible assumption
    | intro _
    | with_reducible apply ok_keeps
    | with_reducible apply State.opI_keeps
    | split

theorem execSlti_keeps {o : State} {n : Fin 12} {rd ra : Fin 32} {imm : BitVec 16} {s : State} (hs : Keeps o s) :
    ∃ z, execSlti n rd ra imm s = .next z ∧ Keeps o z := by
  refine ⟨_, rfl, State.settle_keeps ?_⟩
  repeat' first
    | with_reducible assumption
    | intro _
    | with_reducible apply ok_keeps
    | with_reducible apply State.opI_keeps
    | split

theorem execSltiu_keeps {o : State} {n : Fin 12} {rd ra : Fin 32} {imm : BitVec 16} {s : State} (hs : Keeps o s) :
    ∃ z, execSltiu n rd ra imm s = .next z ∧ Keeps o z := by
  refine ⟨_, rfl, State.settle_keeps ?_⟩
  repeat' first
    | with_reducible assumption
    | intro _
    | with_reducible apply ok_keeps
    | with_reducible apply State.opI_keeps
    | split

theorem execSlli_keeps {o : State} {n : Fin 12} {rd ra : Fin 32} {sh : BitVec 6} {s : State} (hs : Keeps o s) :
    ∃ z, execSlli n rd ra sh s = .next z ∧ Keeps o z := by
  refine ⟨_, rfl, State.settle_keeps ?_⟩
  repeat' first
    | with_reducible assumption
    | intro _
    | with_reducible apply ok_keeps
    | with_reducible apply State.opI_keeps
    | split

theorem execSrli_keeps {o : State} {n : Fin 12} {rd ra : Fin 32} {sh : BitVec 6} {s : State} (hs : Keeps o s) :
    ∃ z, execSrli n rd ra sh s = .next z ∧ Keeps o z := by
  refine ⟨_, rfl, State.settle_keeps ?_⟩
  repeat' first
    | with_reducible assumption
    | intro _
    | with_reducible apply ok_keeps
    | with_reducible apply State.opI_keeps
    | split

theorem execSrai_keeps {o : State} {n : Fin 12} {rd ra : Fin 32} {sh : BitVec 6} {s : State} (hs : Keeps o s) :
    ∃ z, execSrai n rd ra sh s = .next z ∧ Keeps o z := by
  refine ⟨_, rfl, State.settle_keeps ?_⟩
  repeat' first
    | with_reducible assumption
    | intro _
    | with_reducible apply ok_keeps
    | with_reducible apply State.opI_keeps
    | split

theorem execLui_keeps {o : State} {n : Fin 12} {rd : Fin 32} {imm : BitVec 16} {s : State} (hs : Keeps o s) :
    ∃ z, execLui n rd imm s = .next z ∧ Keeps o z := by
  refine ⟨_, rfl, State.settle_keeps ?_⟩
  repeat' first
    | with_reducible assumption
    | intro _
    | with_reducible apply ok_keeps
    | with_reducible apply State.opI_keeps
    | split

theorem execShori_keeps {o : State} {n : Fin 12} {rd ra : Fin 32} {imm : BitVec 16} {s : State} (hs : Keeps o s) :
    ∃ z, execShori n rd ra imm s = .next z ∧ Keeps o z := by
  refine ⟨_, rfl, State.settle_keeps ?_⟩
  repeat' first
    | with_reducible assumption
    | intro _
    | with_reducible apply ok_keeps
    | with_reducible apply State.opI_keeps
    | split

end Sys2Proof.Machine
end

