-- ==== Sys2Proof/Laws/KeepsNovMem.lean ====
section
/-! SUPPORT. What `Keeps` says holds of every operation of NovMem.lean. -/

namespace Sys2Proof.Machine

theorem execLb_keeps {o : State} {n : Fin 12} {rd ra : Fin 32} {imm : BitVec 16} {s : State} (hs : Keeps o s) :
    ∃ z, execLb n rd ra imm s = .next z ∧ Keeps o z := by
  refine ⟨_, rfl, State.settle_keeps ?_⟩
  repeat' first
    | with_reducible assumption
    | intro _
    | with_reducible apply ok_keeps
    | with_reducible apply State.coreLoad_keeps
    | split

theorem execLbu_keeps {o : State} {n : Fin 12} {rd ra : Fin 32} {imm : BitVec 16} {s : State} (hs : Keeps o s) :
    ∃ z, execLbu n rd ra imm s = .next z ∧ Keeps o z := by
  refine ⟨_, rfl, State.settle_keeps ?_⟩
  repeat' first
    | with_reducible assumption
    | intro _
    | with_reducible apply ok_keeps
    | with_reducible apply State.coreLoad_keeps
    | split

theorem execLh_keeps {o : State} {n : Fin 12} {rd ra : Fin 32} {imm : BitVec 16} {s : State} (hs : Keeps o s) :
    ∃ z, execLh n rd ra imm s = .next z ∧ Keeps o z := by
  refine ⟨_, rfl, State.settle_keeps ?_⟩
  repeat' first
    | with_reducible assumption
    | intro _
    | with_reducible apply ok_keeps
    | with_reducible apply State.coreLoad_keeps
    | split

theorem execLhu_keeps {o : State} {n : Fin 12} {rd ra : Fin 32} {imm : BitVec 16} {s : State} (hs : Keeps o s) :
    ∃ z, execLhu n rd ra imm s = .next z ∧ Keeps o z := by
  refine ⟨_, rfl, State.settle_keeps ?_⟩
  repeat' first
    | with_reducible assumption
    | intro _
    | with_reducible apply ok_keeps
    | with_reducible apply State.coreLoad_keeps
    | split

theorem execLw_keeps {o : State} {n : Fin 12} {rd ra : Fin 32} {imm : BitVec 16} {s : State} (hs : Keeps o s) :
    ∃ z, execLw n rd ra imm s = .next z ∧ Keeps o z := by
  refine ⟨_, rfl, State.settle_keeps ?_⟩
  repeat' first
    | with_reducible assumption
    | intro _
    | with_reducible apply ok_keeps
    | with_reducible apply State.coreLoad_keeps
    | split

theorem execLwu_keeps {o : State} {n : Fin 12} {rd ra : Fin 32} {imm : BitVec 16} {s : State} (hs : Keeps o s) :
    ∃ z, execLwu n rd ra imm s = .next z ∧ Keeps o z := by
  refine ⟨_, rfl, State.settle_keeps ?_⟩
  repeat' first
    | with_reducible assumption
    | intro _
    | with_reducible apply ok_keeps
    | with_reducible apply State.coreLoad_keeps
    | split

theorem execLd_keeps {o : State} {n : Fin 12} {rd ra : Fin 32} {imm : BitVec 16} {s : State} (hs : Keeps o s) :
    ∃ z, execLd n rd ra imm s = .next z ∧ Keeps o z := by
  refine ⟨_, rfl, State.settle_keeps ?_⟩
  repeat' first
    | with_reducible assumption
    | intro _
    | with_reducible apply ok_keeps
    | with_reducible apply State.coreLoad_keeps
    | split

theorem execSb_keeps {o : State} {n : Fin 12} {rs ra : Fin 32} {imm : BitVec 16} {s : State} (hs : Keeps o s) :
    ∃ z, execSb n rs ra imm s = .next z ∧ Keeps o z := by
  refine ⟨_, rfl, State.settle_keeps ?_⟩
  repeat' first
    | with_reducible assumption
    | intro _
    | with_reducible apply ok_keeps
    | with_reducible apply State.coreStore_keeps
    | split

theorem execSh_keeps {o : State} {n : Fin 12} {rs ra : Fin 32} {imm : BitVec 16} {s : State} (hs : Keeps o s) :
    ∃ z, execSh n rs ra imm s = .next z ∧ Keeps o z := by
  refine ⟨_, rfl, State.settle_keeps ?_⟩
  repeat' first
    | with_reducible assumption
    | intro _
    | with_reducible apply ok_keeps
    | with_reducible apply State.coreStore_keeps
    | split

theorem execSw_keeps {o : State} {n : Fin 12} {rs ra : Fin 32} {imm : BitVec 16} {s : State} (hs : Keeps o s) :
    ∃ z, execSw n rs ra imm s = .next z ∧ Keeps o z := by
  refine ⟨_, rfl, State.settle_keeps ?_⟩
  repeat' first
    | with_reducible assumption
    | intro _
    | with_reducible apply ok_keeps
    | with_reducible apply State.coreStore_keeps
    | split

theorem execSd_keeps {o : State} {n : Fin 12} {rs ra : Fin 32} {imm : BitVec 16} {s : State} (hs : Keeps o s) :
    ∃ z, execSd n rs ra imm s = .next z ∧ Keeps o z := by
  refine ⟨_, rfl, State.settle_keeps ?_⟩
  repeat' first
    | with_reducible assumption
    | intro _
    | with_reducible apply ok_keeps
    | with_reducible apply State.coreStore_keeps
    | split

theorem execAmoadd_keeps {o : State} {n : Fin 12} {rd ra rb : Fin 32} {s : State} (hs : Keeps o s) :
    ∃ z, execAmoadd n rd ra rb s = .next z ∧ Keeps o z := by
  refine ⟨_, rfl, State.settle_keeps ?_⟩
  repeat' first
    | with_reducible assumption
    | intro _
    | with_reducible apply ok_keeps
    | with_reducible apply State.amo_keeps
    | split

theorem execAmoswap_keeps {o : State} {n : Fin 12} {rd ra rb : Fin 32} {s : State} (hs : Keeps o s) :
    ∃ z, execAmoswap n rd ra rb s = .next z ∧ Keeps o z := by
  refine ⟨_, rfl, State.settle_keeps ?_⟩
  repeat' first
    | with_reducible assumption
    | intro _
    | with_reducible apply ok_keeps
    | with_reducible apply State.amo_keeps
    | split

theorem execAmocas_keeps {o : State} {n : Fin 12} {rd ra rb : Fin 32} {s : State} (hs : Keeps o s) :
    ∃ z, execAmocas n rd ra rb s = .next z ∧ Keeps o z := by
  refine ⟨_, rfl, State.settle_keeps ?_⟩
  repeat' first
    | with_reducible assumption
    | intro _
    | with_reducible apply keeps_ite
    | with_reducible apply ok_keeps
    | with_reducible apply State.amo_keeps
    | split

theorem execFence_keeps {o : State} {n : Fin 12} {s : State} (hs : Keeps o s) :
    ∃ z, execFence n s = .next z ∧ Keeps o z := by
  refine ⟨_, rfl, State.settle_keeps ?_⟩
  repeat' first
    | with_reducible assumption
    | intro _
    | with_reducible apply ok_keeps
    | with_reducible apply State.fence_keeps
    | split

end Sys2Proof.Machine
end

