-- ==== Sys2Proof/Laws/KeepsNovFlow.lean ====
section
/-! SUPPORT. What `Keeps` says holds of every operation of NovFlow.lean. -/

namespace Sys2Proof.Machine

theorem execBeq_keeps {o : State} {n : Fin 12} {ra rb : Fin 32} {off : BitVec 16} {s : State} (hs : Keeps o s) :
    ∃ z, execBeq n ra rb off s = .next z ∧ Keeps o z := by
  refine ⟨_, rfl, State.settle_keeps ?_⟩
  repeat' first
    | with_reducible assumption
    | intro _
    | with_reducible apply ok_keeps
    | with_reducible apply State.branch_keeps
    | split

theorem execBne_keeps {o : State} {n : Fin 12} {ra rb : Fin 32} {off : BitVec 16} {s : State} (hs : Keeps o s) :
    ∃ z, execBne n ra rb off s = .next z ∧ Keeps o z := by
  refine ⟨_, rfl, State.settle_keeps ?_⟩
  repeat' first
    | with_reducible assumption
    | intro _
    | with_reducible apply ok_keeps
    | with_reducible apply State.branch_keeps
    | split

theorem execBlt_keeps {o : State} {n : Fin 12} {ra rb : Fin 32} {off : BitVec 16} {s : State} (hs : Keeps o s) :
    ∃ z, execBlt n ra rb off s = .next z ∧ Keeps o z := by
  refine ⟨_, rfl, State.settle_keeps ?_⟩
  repeat' first
    | with_reducible assumption
    | intro _
    | with_reducible apply ok_keeps
    | with_reducible apply State.branch_keeps
    | split

theorem execBge_keeps {o : State} {n : Fin 12} {ra rb : Fin 32} {off : BitVec 16} {s : State} (hs : Keeps o s) :
    ∃ z, execBge n ra rb off s = .next z ∧ Keeps o z := by
  refine ⟨_, rfl, State.settle_keeps ?_⟩
  repeat' first
    | with_reducible assumption
    | intro _
    | with_reducible apply ok_keeps
    | with_reducible apply State.branch_keeps
    | split

theorem execBltu_keeps {o : State} {n : Fin 12} {ra rb : Fin 32} {off : BitVec 16} {s : State} (hs : Keeps o s) :
    ∃ z, execBltu n ra rb off s = .next z ∧ Keeps o z := by
  refine ⟨_, rfl, State.settle_keeps ?_⟩
  repeat' first
    | with_reducible assumption
    | intro _
    | with_reducible apply ok_keeps
    | with_reducible apply State.branch_keeps
    | split

theorem execBgeu_keeps {o : State} {n : Fin 12} {ra rb : Fin 32} {off : BitVec 16} {s : State} (hs : Keeps o s) :
    ∃ z, execBgeu n ra rb off s = .next z ∧ Keeps o z := by
  refine ⟨_, rfl, State.settle_keeps ?_⟩
  repeat' first
    | with_reducible assumption
    | intro _
    | with_reducible apply ok_keeps
    | with_reducible apply State.branch_keeps
    | split

theorem execJ_keeps {o : State} {n : Fin 12} {off : BitVec 26} {s : State} (hs : Keeps o s) :
    ∃ z, execJ n off s = .next z ∧ Keeps o z := by
  refine ⟨_, rfl, State.settle_keeps ?_⟩
  repeat' first
    | with_reducible assumption
    | intro _
    | with_reducible apply keeps_id
    | with_reducible apply ok_keeps
    | with_reducible apply State.issue_keeps
    | with_reducible apply State.jumpTo_keeps
    | split

theorem execCall_keeps {o : State} {n : Fin 12} {off : BitVec 26} {s : State} (hs : Keeps o s) :
    ∃ z, execCall n off s = .next z ∧ Keeps o z := by
  refine ⟨_, rfl, State.settle_keeps ?_⟩
  repeat' first
    | with_reducible assumption
    | intro _
    | with_reducible apply ok_keeps
    | with_reducible apply State.issue_keeps
    | with_reducible apply State.jumpTo_keeps
    | with_reducible apply State.setX_keeps
    | split

theorem execJalr_keeps {o : State} {n : Fin 12} {rd ra : Fin 32} {imm : BitVec 16} {s : State} (hs : Keeps o s) :
    ∃ z, execJalr n rd ra imm s = .next z ∧ Keeps o z := by
  refine ⟨_, rfl, State.settle_keeps ?_⟩
  repeat' first
    | with_reducible assumption
    | intro _
    | with_reducible apply ok_keeps
    | with_reducible apply State.issue_keeps
    | with_reducible apply State.jumpTo_keeps
    | with_reducible apply State.setX_keeps
    | split

theorem execRdtime_keeps {o : State} {n : Fin 12} {rd : Fin 32} {s : State} (hs : Keeps o s) :
    ∃ z, execRdtime n rd s = .next z ∧ Keeps o z := by
  refine ⟨_, rfl, State.settle_keeps ?_⟩
  repeat' first
    | with_reducible assumption
    | intro _
    | with_reducible apply ok_keeps
    | with_reducible apply State.issueNext_keeps
    | with_reducible apply State.setX_keeps
    | split

theorem execRdpmc_keeps {o : State} {n : Fin 12} {rd : Fin 32} {c : Fin 64} {s : State} (hs : Keeps o s) :
    ∃ z, execRdpmc n rd c s = .next z ∧ Keeps o z := by
  refine ⟨_, rfl, State.settle_keeps ?_⟩
  repeat' first
    | with_reducible assumption
    | intro _
    | with_reducible apply ok_keeps
    | with_reducible apply State.rdpmcAt_keeps
    | split

theorem execSyscall_keeps {o : State} {n : Fin 12} {code : BitVec 6} {s : State} (hs : Keeps o s) :
    ∃ z, execSyscall n code s = .next z ∧ Keeps o z := by
  refine ⟨_, rfl, State.settle_keeps ?_⟩
  repeat' first
    | with_reducible assumption
    | intro _
    | with_reducible apply ok_keeps
    | with_reducible apply State.issue_keeps
    | with_reducible apply State.trap_keeps
    | split

theorem execBrk_keeps {o : State} {n : Fin 12} {s : State} (hs : Keeps o s) :
    ∃ z, execBrk n s = .next z ∧ Keeps o z := by
  refine ⟨_, rfl, State.settle_keeps ?_⟩
  repeat' first
    | with_reducible assumption
    | intro _
    | with_reducible apply ok_keeps
    | with_reducible apply State.issue_keeps
    | with_reducible apply State.trap_keeps
    | split

theorem execEret_keeps {o : State} {n : Fin 12} {s : State} (hs : Keeps o s) :
    ∃ z, execEret n s = .next z ∧ Keeps o z := by
  refine ⟨_, rfl, State.settle_keeps ?_⟩
  repeat' first
    | with_reducible assumption
    | intro _
    | with_reducible apply ok_keeps
    | with_reducible apply State.privileged_keeps
    | with_reducible apply State.coreReturn_keeps
    | split

theorem execWfi_keeps {o : State} {n : Fin 12} {s : State} (hs : Keeps o s) :
    ∃ z, execWfi n s = .next z ∧ Keeps o z := by
  refine ⟨_, rfl, State.settle_keeps ?_⟩
  repeat' first
    | with_reducible assumption
    | intro _
    | with_reducible apply ok_keeps
    | with_reducible apply State.privileged_keeps
    | with_reducible apply State.wfi_keeps
    | split

theorem execMfcr_keeps {o : State} {n : Fin 12} {rd : Fin 32} {num : BitVec 12} {s : State} (hs : Keeps o s) :
    ∃ z, execMfcr n rd num s = .next z ∧ Keeps o z := by
  refine ⟨_, rfl, State.settle_keeps ?_⟩
  repeat' first
    | with_reducible assumption
    | intro _
    | with_reducible apply ok_keeps
    | with_reducible apply State.mfcr_keeps
    | split

theorem execMtcr_keeps {o : State} {n : Fin 12} {ra : Fin 32} {num : BitVec 12} {s : State} (hs : Keeps o s) :
    ∃ z, execMtcr n ra num s = .next z ∧ Keeps o z := by
  refine ⟨_, rfl, State.settle_keeps ?_⟩
  repeat' first
    | with_reducible assumption
    | intro _
    | with_reducible apply ok_keeps
    | with_reducible apply State.mtcr_keeps
    | split

theorem execShevPop_keeps {o : State} {n : Fin 12} {s : State} (hs : Keeps o s) :
    ∃ z, execShevPop n s = .next z ∧ Keeps o z := by
  exact ⟨_, rfl, State.settle_keeps (State.issueNext_keeps hs fun s h => State.updCore_keeps h fun _ => CoreX.popShev_sound)⟩

theorem execShevClrLost_keeps {o : State} {n : Fin 12} {s : State} (hs : Keeps o s) :
    ∃ z, execShevClrLost n s = .next z ∧ Keeps o z := by
  refine ⟨_, rfl, State.settle_keeps ?_⟩
  repeat' first
    | exact fun c h => ⟨h.1, h.2, h.3, h.4, h.5⟩
    | with_reducible assumption
    | intro _
    | with_reducible apply ok_keeps
    | with_reducible apply State.issueNext_keeps
    | with_reducible apply State.updCore_keeps
    | split

end Sys2Proof.Machine
end

