-- ==== Sys2Proof/Laws/KeepsNovTimed.lean ====
section
/-! SUPPORT. What `Keeps` says holds of every operation of NovTimed.lean. -/

namespace Sys2Proof.Machine

theorem execWaitt_keeps {o : State} {n : Fin 12} {rd ra : Fin 32} {s : State} (hs : Keeps o s) :
    ∃ z, execWaitt n rd ra s = .next z ∧ Keeps o z := by
  refine ⟨_, rfl, State.settle_keeps ?_⟩
  repeat' first
    | with_reducible assumption
    | intro _
    | with_reducible apply ok_keeps
    | with_reducible apply State.waitt_keeps
    | split

theorem execWaittResume_keeps {o : State} {n : Fin 12} {s : State} (hs : Keeps o s) :
    ∃ z, execWaittResume n s = .next z ∧ Keeps o z := by
  refine ⟨_, rfl, State.settle_keeps ?_⟩
  repeat' first
    | with_reducible assumption
    | intro _
    | with_reducible apply ok_keeps
    | with_reducible apply State.waittEnd_keeps
    | split

theorem execEmit_keeps {o : State} {n : Fin 12} {irrev : Bool} {rd ra rb : Fin 32} {s : State} (hs : Keeps o s) :
    ∃ z, execEmit n irrev rd ra rb s = .next z ∧ Keeps o z := by
  refine ⟨_, rfl, State.settle_keeps ?_⟩
  repeat' first
    | with_reducible assumption
    | intro _
    | with_reducible apply ok_keeps
    | with_reducible apply State.emit_keeps
    | split

theorem execEmitStallRelease_keeps {o : State} {n : Fin 12} {s : State} (hs : Keeps o s) :
    ∃ z, execEmitStallRelease n s = .next z ∧ Keeps o z := by
  refine ⟨_, rfl, State.settle_keeps ?_⟩
  repeat' first
    | with_reducible assumption
    | intro _
    | with_reducible apply ok_keeps
    | with_reducible apply State.emitAgain_keeps
    | split

theorem execSample_keeps {o : State} {n : Fin 12} {rd ra rb : Fin 32} {s : State} (hs : Keeps o s) :
    ∃ z, execSample n rd ra rb s = .next z ∧ Keeps o z := by
  refine ⟨_, rfl, State.settle_keeps ?_⟩
  repeat' first
    | with_reducible assumption
    | intro _
    | with_reducible apply ok_keeps
    | with_reducible apply State.sample_keeps
    | split

theorem execSampleCapture_keeps {o : State} {n : Fin 12} {s : State} (hs : Keeps o s) :
    ∃ z, execSampleCapture n s = .next z ∧ Keeps o z := by
  refine ⟨_, rfl, State.settle_keeps ?_⟩
  repeat' first
    | with_reducible assumption
    | intro _
    | with_reducible apply ok_keeps
    | with_reducible apply State.sampleEnd_keeps
    | split

theorem execSpec_keeps {o : State} {n : Fin 12} {rd ra : Fin 32} {s : State} (hs : Keeps o s) :
    ∃ z, execSpec n rd ra s = .next z ∧ Keeps o z := by
  refine ⟨_, rfl, State.settle_keeps ?_⟩
  repeat' first
    | with_reducible assumption
    | intro _
    | with_reducible apply ok_keeps
    | with_reducible apply State.privileged_keeps
    | with_reducible apply State.whereNoRegion_keeps
    | with_reducible apply State.regionTurn_keeps
    | with_reducible apply State.launch_keeps
    | split

theorem execSpecJ_keeps {o : State} {n : Fin 12} {rd ra : Fin 32} {s : State} (hs : Keeps o s) :
    ∃ z, execSpecJ n rd ra s = .next z ∧ Keeps o z := by
  refine ⟨_, rfl, State.settle_keeps ?_⟩
  repeat' first
    | with_reducible assumption
    | intro _
    | with_reducible apply ok_keeps
    | with_reducible apply State.issue_keeps
    | with_reducible apply State.whereNoRegion_keeps
    | with_reducible apply State.regionTurn_keeps
    | with_reducible apply State.join_keeps
    | split

theorem execSpecL_keeps {o : State} {n : Fin 12} {rd : Fin 32} {s : State} (hs : Keeps o s) :
    ∃ z, execSpecL n rd s = .next z ∧ Keeps o z := by
  refine ⟨_, rfl, State.settle_keeps ?_⟩
  repeat' first
    | with_reducible assumption
    | intro _
    | with_reducible apply ok_keeps
    | with_reducible apply State.issue_keeps
    | with_reducible apply State.regionTurn_keeps
    | with_reducible apply State.leave_keeps
    | split

theorem execCommit_keeps {o : State} {n : Fin 12} {rd ra : Fin 32} {s : State} (hs : Keeps o s) :
    ∃ z, execCommit n rd ra s = .next z ∧ Keeps o z := by
  refine ⟨_, rfl, State.settle_keeps ?_⟩
  repeat' first
    | with_reducible assumption
    | intro _
    | with_reducible apply ok_keeps
    | with_reducible apply State.privileged_keeps
    | with_reducible apply State.regionTurn_keeps
    | with_reducible apply State.arm_keeps
    | split

theorem execAbort_keeps {o : State} {n : Fin 12} {rd ra : Fin 32} {s : State} (hs : Keeps o s) :
    ∃ z, execAbort n rd ra s = .next z ∧ Keeps o z := by
  refine ⟨_, rfl, State.settle_keeps ?_⟩
  repeat' first
    | with_reducible assumption
    | intro _
    | with_reducible apply ok_keeps
    | with_reducible apply State.privileged_keeps
    | with_reducible apply State.regionTurn_keeps
    | with_reducible apply State.abort_keeps
    | split

theorem execInterruptEntry_keeps {o : State} {n : Fin 12} {s : State} (hs : Keeps o s) :
    ∃ z, execInterruptEntry n s = .next z ∧ Keeps o z := by
  refine ⟨_, rfl, State.settle_keeps ?_⟩
  repeat' first
    | with_reducible assumption
    | intro _
    | with_reducible apply ok_keeps
    | with_reducible apply State.takeInterrupt_keeps
    | split

theorem execCoreTimerExpiry_keeps {o : State} {n : Fin 12} {s : State} (hs : Keeps o s) :
    ∃ z, execCoreTimerExpiry n s = .next z ∧ Keeps o z := by
  refine ⟨_, rfl, State.settle_keeps ?_⟩
  repeat' first
    | with_reducible assumption
    | intro _
    | with_reducible apply ok_keeps
    | with_reducible apply State.wfiEnd_keeps
    | split

theorem execRelease_keeps {o : State} {s : State} (hs : Keeps o s) :
    ∃ z, execRelease s = .next z ∧ Keeps o z := by
  refine ⟨_, rfl, State.settle_keeps ?_⟩
  repeat' first
    | with_reducible assumption
    | intro _
    | with_reducible apply ok_keeps
    | with_reducible apply State.emitted_keeps
    | split

theorem execEvent_keeps {o : State} {s : State} (hs : Keeps o s) :
    ∃ z, execEvent s = .next z ∧ Keeps o z := by
  refine ⟨_, rfl, State.settle_keeps ?_⟩
  repeat' first
    | with_reducible assumption
    | intro _
    | with_reducible apply ok_keeps
    | with_reducible apply State.emitted_keeps
    | split

end Sys2Proof.Machine
end

