-- ==== Sys2Proof/Laws/KeepsRowMotor.lean ====
section
/-! SUPPORT. What `Keeps` says holds of every operation of RowMotor.lean. -/

namespace Sys2Proof.Machine

theorem execBldStart_keeps {o : State} {src : Src} {s : State} (hs : Keeps o s) :
    ∃ z, execBldStart src s = .next z ∧ Keeps o z := by
  refine ⟨_, rfl, State.settle_keeps ?_⟩
  repeat' first
    | with_reducible assumption
    | intro _
    | with_reducible apply ok_keeps
    | with_reducible apply State.command_keeps
    | split

theorem execBldCoast_keeps {o : State} {src : Src} {s : State} (hs : Keeps o s) :
    ∃ z, execBldCoast src s = .next z ∧ Keeps o z := by
  refine ⟨_, rfl, State.settle_keeps ?_⟩
  repeat' first
    | with_reducible assumption
    | intro _
    | with_reducible apply ok_keeps
    | with_reducible apply State.command_keeps
    | split

theorem execBldDuty_keeps {o : State} {src : Src} {s : State} (hs : Keeps o s) :
    ∃ z, execBldDuty src s = .next z ∧ Keeps o z := by
  refine ⟨_, rfl, State.settle_keeps ?_⟩
  repeat' first
    | with_reducible assumption
    | intro _
    | with_reducible apply ok_keeps
    | with_reducible apply State.command_keeps
    | split

theorem execBemfCrossing_keeps {o : State} {n : Fin 24} {phase : Fin 3} {up : Bool} {s : State} (hs : Keeps o s) :
    ∃ z, execBemfCrossing n phase up s = .next z ∧ Keeps o z := by
  refine ⟨_, rfl, State.settle_keeps ?_⟩
  repeat' first
    | with_reducible assumption
    | intro _
    | with_reducible apply ok_keeps
    | with_reducible apply State.bldCrossing_keeps
    | split

theorem execCommutation_keeps {o : State} {n : Fin 24} {s : State} (hs : Keeps o s) :
    ∃ z, execCommutation n s = .next z ∧ Keeps o z := by
  refine ⟨_, rfl, State.settle_keeps ?_⟩
  repeat' first
    | with_reducible assumption
    | intro _
    | with_reducible apply ok_keeps
    | with_reducible apply State.bldCommutate_keeps
    | split

theorem execSyncLost_keeps {o : State} {n : Fin 24} {s : State} (hs : Keeps o s) :
    ∃ z, execSyncLost n s = .next z ∧ Keeps o z := by
  refine ⟨_, rfl, State.settle_keeps ?_⟩
  repeat' first
    | with_reducible assumption
    | intro _
    | with_reducible apply ok_keeps
    | with_reducible apply State.bldSyncLost_keeps
    | split

theorem execDetectQuiet_keeps {o : State} {n : Fin 24} {s : State} (hs : Keeps o s) :
    ∃ z, execDetectQuiet n s = .next z ∧ Keeps o z := by
  refine ⟨_, rfl, State.settle_keeps ?_⟩
  repeat' first
    | with_reducible assumption
    | intro _
    | with_reducible apply ok_keeps
    | with_reducible apply State.bldQuiet_keeps
    | split

theorem execDetectTimeout_keeps {o : State} {n : Fin 24} {s : State} (hs : Keeps o s) :
    ∃ z, execDetectTimeout n s = .next z ∧ Keeps o z := by
  refine ⟨_, rfl, State.settle_keeps ?_⟩
  repeat' first
    | with_reducible assumption
    | intro _
    | with_reducible apply ok_keeps
    | with_reducible apply State.bldTimeout_keeps
    | split

theorem execAlignElapsed_keeps {o : State} {n : Fin 24} {s : State} (hs : Keeps o s) :
    ∃ z, execAlignElapsed n s = .next z ∧ Keeps o z := by
  refine ⟨_, rfl, State.settle_keeps ?_⟩
  repeat' first
    | with_reducible assumption
    | intro _
    | with_reducible apply ok_keeps
    | with_reducible apply State.bldAligned_keeps
    | split

theorem execRampFail_keeps {o : State} {n : Fin 24} {s : State} (hs : Keeps o s) :
    ∃ z, execRampFail n s = .next z ∧ Keeps o z := by
  refine ⟨_, rfl, State.settle_keeps ?_⟩
  repeat' first
    | with_reducible assumption
    | intro _
    | with_reducible apply ok_keeps
    | with_reducible apply State.bldRampFail_keeps
    | split

theorem execBldDriverFault_keeps {o : State} {n : Fin 24} {low : Bool} {s : State} (hs : Keeps o s) :
    ∃ z, execBldDriverFault n low s = .next z ∧ Keeps o z := by
  refine ⟨_, rfl, State.settle_keeps ?_⟩
  repeat' first
    | with_reducible assumption
    | intro _
    | with_reducible apply ok_keeps
    | with_reducible apply State.bldFltInput_keeps
    | split

theorem execStpGoto_keeps {o : State} {src : Src} {s : State} (hs : Keeps o s) :
    ∃ z, execStpGoto src s = .next z ∧ Keeps o z := by
  refine ⟨_, rfl, State.settle_keeps ?_⟩
  repeat' first
    | with_reducible assumption
    | intro _
    | with_reducible apply ok_keeps
    | with_reducible apply State.command_keeps
    | split

theorem execStpMove_keeps {o : State} {s : State} (hs : Keeps o s) :
    ∃ z, execStpMove s = .next z ∧ Keeps o z := by
  refine ⟨_, rfl, State.settle_keeps ?_⟩
  repeat' first
    | with_reducible assumption
    | intro _
    | with_reducible apply ok_keeps
    | with_reducible apply State.emitted_keeps
    | split

theorem execStpStop_keeps {o : State} {src : Src} {s : State} (hs : Keeps o s) :
    ∃ z, execStpStop src s = .next z ∧ Keeps o z := by
  refine ⟨_, rfl, State.settle_keeps ?_⟩
  repeat' first
    | with_reducible assumption
    | intro _
    | with_reducible apply ok_keeps
    | with_reducible apply State.command_keeps
    | split

theorem execStpGotoPreset_keeps {o : State} {s : State} (hs : Keeps o s) :
    ∃ z, execStpGotoPreset s = .next z ∧ Keeps o z := by
  refine ⟨_, rfl, State.settle_keeps ?_⟩
  repeat' first
    | with_reducible assumption
    | intro _
    | with_reducible apply ok_keeps
    | with_reducible apply State.emitted_keeps
    | split

theorem execProfileUpdate_keeps {o : State} {n : Fin 48} {s : State} (hs : Keeps o s) :
    ∃ z, execProfileUpdate n s = .next z ∧ Keeps o z := by
  refine ⟨_, rfl, State.settle_keeps ?_⟩
  repeat' first
    | with_reducible assumption
    | intro _
    | with_reducible apply ok_keeps
    | with_reducible apply State.stpProfile_keeps
    | split

theorem execMoveComplete_keeps {o : State} {n : Fin 48} {s : State} (hs : Keeps o s) :
    ∃ z, execMoveComplete n s = .next z ∧ Keeps o z := by
  refine ⟨_, rfl, State.settle_keeps ?_⟩
  repeat' first
    | with_reducible assumption
    | intro _
    | with_reducible apply ok_keeps
    | with_reducible apply State.stpComplete_keeps
    | split

theorem execStpDriverFault_keeps {o : State} {n : Fin 48} {low : Bool} {s : State} (hs : Keeps o s) :
    ∃ z, execStpDriverFault n low s = .next z ∧ Keeps o z := by
  refine ⟨_, rfl, State.settle_keeps ?_⟩
  repeat' first
    | with_reducible assumption
    | intro _
    | with_reducible apply ok_keeps
    | with_reducible apply State.stpFltInput_keeps
    | split

theorem execXactWrite_keeps {o : State} {m : Master} {n : Fin 48} {v : RegWord} {s : State} (hs : Keeps o s) :
    ∃ z, execXactWrite m n v s = .next z ∧ Keeps o z := by
  refine ⟨_, rfl, State.settle_keeps ?_⟩
  repeat' first
    | with_reducible assumption
    | intro _
    | with_reducible apply ok_keeps
    | with_reducible apply State.masterWrite_keeps
    | split

theorem execClrLost_keeps {o : State} {m : Master} {n : Fin 48} {v : RegWord} {s : State} (hs : Keeps o s) :
    ∃ z, execClrLost m n v s = .next z ∧ Keeps o z := by
  refine ⟨_, rfl, State.settle_keeps ?_⟩
  repeat' first
    | with_reducible assumption
    | intro _
    | with_reducible apply ok_keeps
    | with_reducible apply State.masterWrite_keeps
    | split

theorem execChopThreshold_keeps {o : State} {n : Fin 48} {w : Fin 2} {sense : Nat} {above : Bool} {s : State} (hs : Keeps o s) :
    ∃ z, execChopThreshold n w sense above s = .next z ∧ Keeps o z := by
  refine ⟨_, rfl, State.settle_keeps ?_⟩
  repeat' first
    | with_reducible assumption
    | intro _
    | with_reducible apply ok_keeps
    | with_reducible apply State.stpChop_keeps
    | split

theorem execOfsAdapt_keeps {o : State} {n : Fin 48} {w : Fin 2} {s : State} (hs : Keeps o s) :
    ∃ z, execOfsAdapt n w s = .next z ∧ Keeps o z := by
  refine ⟨_, rfl, State.settle_keeps ?_⟩
  repeat' first
    | with_reducible assumption
    | intro _
    | with_reducible apply ok_keeps
    | with_reducible apply State.stpAdapt_keeps
    | split

end Sys2Proof.Machine
end

