-- ==== Sys2Proof/Laws/KeepsRowLoop.lean ====
section
/-! SUPPORT. What `Keeps` says holds of every operation of RowLoop.lean. -/

namespace Sys2Proof.Machine

theorem execFrameStart_keeps {o : State} {s : State} (hs : Keeps o s) :
    ∃ z, execFrameStart s = .next z ∧ Keeps o z := by
  refine ⟨_, rfl, State.settle_keeps ?_⟩
  repeat' first
    | with_reducible assumption
    | intro _
    | with_reducible apply ok_keeps
    | with_reducible apply State.frameStart_keeps
    | split

theorem execSlotSample_keeps {o : State} {n : Fin 128} {s : State} (hs : Keeps o s) :
    ∃ z, execSlotSample n s = .next z ∧ Keeps o z := by
  refine ⟨_, rfl, State.settle_keeps ?_⟩
  repeat' first
    | with_reducible assumption
    | intro _
    | with_reducible apply ok_keeps
    | with_reducible apply State.slotSample_keeps
    | split

theorem execLoopComputation_keeps {o : State} {s : State} (hs : Keeps o s) :
    ∃ z, execLoopComputation s = .next z ∧ Keeps o z := by
  refine ⟨_, rfl, State.settle_keeps ?_⟩
  repeat' first
    | with_reducible assumption
    | intro _
    | with_reducible apply ok_keeps
    | with_reducible apply State.loopComputation_keeps
    | split

theorem execPraOn_keeps {o : State} {src : Src} {s : State} (hs : Keeps o s) :
    ∃ z, execPraOn src s = .next z ∧ Keeps o z := by
  refine ⟨_, rfl, State.settle_keeps ?_⟩
  repeat' first
    | with_reducible assumption
    | intro _
    | with_reducible apply ok_keeps
    | with_reducible apply State.command_keeps
    | split

theorem execPraOff_keeps {o : State} {src : Src} {s : State} (hs : Keeps o s) :
    ∃ z, execPraOff src s = .next z ∧ Keeps o z := by
  refine ⟨_, rfl, State.settle_keeps ?_⟩
  repeat' first
    | with_reducible assumption
    | intro _
    | with_reducible apply ok_keeps
    | with_reducible apply State.command_keeps
    | split

theorem execPraSet_keeps {o : State} {src : Src} {s : State} (hs : Keeps o s) :
    ∃ z, execPraSet src s = .next z ∧ Keeps o z := by
  refine ⟨_, rfl, State.settle_keeps ?_⟩
  repeat' first
    | with_reducible assumption
    | intro _
    | with_reducible apply ok_keeps
    | with_reducible apply State.command_keeps
    | split

theorem execPraSync_keeps {o : State} {src : Src} {s : State} (hs : Keeps o s) :
    ∃ z, execPraSync src s = .next z ∧ Keeps o z := by
  refine ⟨_, rfl, State.settle_keeps ?_⟩
  repeat' first
    | with_reducible assumption
    | intro _
    | with_reducible apply ok_keeps
    | with_reducible apply State.command_keeps
    | split

theorem execPraCap_keeps {o : State} {src : Src} {s : State} (hs : Keeps o s) :
    ∃ z, execPraCap src s = .next z ∧ Keeps o z := by
  refine ⟨_, rfl, State.settle_keeps ?_⟩
  repeat' first
    | with_reducible assumption
    | intro _
    | with_reducible apply ok_keeps
    | with_reducible apply State.command_keeps
    | split

theorem execSwapRequest_keeps {o : State} {m : Master} {n : Fin 128} {v : RegWord} {s : State} (hs : Keeps o s) :
    ∃ z, execSwapRequest m n v s = .next z ∧ Keeps o z := by
  refine ⟨_, rfl, State.settle_keeps ?_⟩
  repeat' first
    | with_reducible assumption
    | intro _
    | with_reducible apply ok_keeps
    | with_reducible apply State.masterWrite_keeps
    | split

theorem execLoadClr_keeps {o : State} {m : Master} {s : State} (hs : Keeps o s) :
    ∃ z, execLoadClr m s = .next z ∧ Keeps o z := by
  refine ⟨_, rfl, State.settle_keeps ?_⟩
  repeat' first
    | with_reducible assumption
    | intro _
    | with_reducible apply ok_keeps
    | with_reducible apply State.masterWrite_keeps
    | split

theorem execAdcConversion_keeps {o : State} {a : Fin 4} {e : Fin 40} {raw : BitVec 12} {s : State} (hs : Keeps o s) :
    ∃ z, execAdcConversion a e raw s = .next z ∧ Keeps o z := by
  refine ⟨_, rfl, State.settle_keeps ?_⟩
  repeat' first
    | with_reducible assumption
    | intro _
    | with_reducible apply ok_keeps
    | with_reducible apply State.adcConversion_keeps
    | split

theorem execSeqSel_keeps {o : State} {src : Src} {s : State} (hs : Keeps o s) :
    ∃ z, execSeqSel src s = .next z ∧ Keeps o z := by
  refine ⟨_, rfl, State.settle_keeps ?_⟩
  repeat' first
    | with_reducible assumption
    | intro _
    | with_reducible apply ok_keeps
    | with_reducible apply State.bankSelect_keeps
    | split

end Sys2Proof.Machine
end

