-- ==== Sys2Proof/Laws/KeepsRowPower.lean ====
section
/-! SUPPORT. What `Keeps` says holds of every operation of RowPower.lean. -/

namespace Sys2Proof.Machine

theorem execUpSequenceStep_keeps {o : State} {s : State} (hs : Keeps o s) :
    ∃ z, execUpSequenceStep s = .next z ∧ Keeps o z := by
  refine ⟨_, rfl, State.settle_keeps ?_⟩
  repeat' first
    | with_reducible assumption
    | intro _
    | with_reducible apply ok_keeps
    | with_reducible apply State.afterSequence_keeps
    | with_reducible apply State.upStep_keeps
    | split

theorem execRailPowerGood_keeps {o : State} {r : Fin 32} {s : State} (hs : Keeps o s) :
    ∃ z, execRailPowerGood r s = .next z ∧ Keeps o z := by
  refine ⟨_, rfl, State.settle_keeps ?_⟩
  repeat' first
    | with_reducible assumption
    | intro _
    | with_reducible apply ok_keeps
    | with_reducible apply State.afterSequence_keeps
    | with_reducible apply State.railUp_keeps
    | split

theorem execUpStepTimeout_keeps {o : State} {s : State} (hs : Keeps o s) :
    ∃ z, execUpStepTimeout s = .next z ∧ Keeps o z := by
  refine ⟨_, rfl, State.settle_keeps ?_⟩
  repeat' first
    | with_reducible assumption
    | intro _
    | with_reducible apply ok_keeps
    | with_reducible apply State.upTimeout_keeps
    | split

theorem execDownSequenceBegin_keeps {o : State} {s : State} (hs : Keeps o s) :
    ∃ z, execDownSequenceBegin s = .next z ∧ Keeps o z := by
  refine ⟨_, rfl, State.settle_keeps ?_⟩
  repeat' first
    | with_reducible assumption
    | intro _
    | with_reducible apply ok_keeps
    | with_reducible apply State.downBegin_keeps
    | split

theorem execDownSequenceStep_keeps {o : State} {s : State} (hs : Keeps o s) :
    ∃ z, execDownSequenceStep s = .next z ∧ Keeps o z := by
  refine ⟨_, rfl, State.settle_keeps ?_⟩
  repeat' first
    | with_reducible assumption
    | intro _
    | with_reducible apply ok_keeps
    | with_reducible apply State.afterSequence_keeps
    | with_reducible apply State.downStep_keeps
    | split

theorem execRailComparatorFault_keeps {o : State} {r : Fin 32} {high : Bool} {s : State} (hs : Keeps o s) :
    ∃ z, execRailComparatorFault r high s = .next z ∧ Keeps o z := by
  refine ⟨_, rfl, State.settle_keeps ?_⟩
  repeat' first
    | with_reducible assumption
    | intro _
    | with_reducible apply ok_keeps
    | with_reducible apply State.railEvent_keeps
    | with_reducible apply State.comparatorFault_keeps
    | split

theorem execRailScanFault_keeps {o : State} {r : Fin 32} {s : State} (hs : Keeps o s) :
    ∃ z, execRailScanFault r s = .next z ∧ Keeps o z := by
  refine ⟨_, rfl, State.settle_keeps ?_⟩
  repeat' first
    | with_reducible assumption
    | intro _
    | with_reducible apply ok_keeps
    | with_reducible apply State.railEvent_keeps
    | with_reducible apply State.scanFault_keeps
    | split

theorem execRetryTimer_keeps {o : State} {r : Fin 32} {s : State} (hs : Keeps o s) :
    ∃ z, execRetryTimer r s = .next z ∧ Keeps o z := by
  refine ⟨_, rfl, State.settle_keeps ?_⟩
  repeat' first
    | with_reducible assumption
    | intro _
    | with_reducible apply ok_keeps
    | with_reducible apply State.afterSequence_keeps
    | with_reducible apply State.retryTimer_keeps
    | split

theorem execPwrOn_keeps {o : State} {src : Src} {s : State} (hs : Keeps o s) :
    ∃ z, execPwrOn src s = .next z ∧ Keeps o z := by
  refine ⟨_, rfl, State.settle_keeps ?_⟩
  repeat' first
    | with_reducible assumption
    | intro _
    | with_reducible apply ok_keeps
    | with_reducible apply State.command_keeps
    | split

theorem execPwrOff_keeps {o : State} {src : Src} {s : State} (hs : Keeps o s) :
    ∃ z, execPwrOff src s = .next z ∧ Keeps o z := by
  refine ⟨_, rfl, State.settle_keeps ?_⟩
  repeat' first
    | with_reducible assumption
    | intro _
    | with_reducible apply ok_keeps
    | with_reducible apply State.command_keeps
    | split

theorem execSnapRearm_keeps {o : State} {m : Master} {v : RegWord} {s : State} (hs : Keeps o s) :
    ∃ z, execSnapRearm m v s = .next z ∧ Keeps o z := by
  refine ⟨_, rfl, State.settle_keeps ?_⟩
  repeat' first
    | with_reducible assumption
    | intro _
    | with_reducible apply ok_keeps
    | with_reducible apply State.masterWrite_keeps
    | split

theorem execModelUpdate_keeps {o : State} {temp power : Vector (BitVec 16) 16} {pkg k : BitVec 16} {s : State} (hs : Keeps o s) :
    ∃ z, execModelUpdate temp power pkg k s = .next z ∧ Keeps o z := by
  refine ⟨_, rfl, State.settle_keeps ?_⟩
  repeat' first
    | with_reducible assumption
    | intro _
    | with_reducible apply ok_keeps
    | with_reducible apply State.modelStep_keeps
    | split

theorem execHoldUpEnd_keeps {o : State} {s : State} (hs : Keeps o s) :
    ∃ z, execHoldUpEnd s = .next z ∧ Keeps o z := by
  refine ⟨_, rfl, State.settle_keeps ?_⟩
  repeat' first
    | with_reducible assumption
    | intro _
    | with_reducible apply ok_keeps
    | with_reducible apply State.holdUpDue_keeps
    | split

theorem execDiodeCalibration_keeps {o : State} {m : Master} {v : RegWord} {s : State} (hs : Keeps o s) :
    ∃ z, execDiodeCalibration m v s = .next z ∧ Keeps o z := by
  refine ⟨_, rfl, State.settle_keeps ?_⟩
  repeat' first
    | with_reducible assumption
    | intro _
    | with_reducible apply ok_keeps
    | with_reducible apply State.masterWrite_keeps
    | split

theorem execDiodeCalibrationComplete_keeps {o : State} {d0 d1 : BitVec 16} {s : State} (hs : Keeps o s) :
    ∃ z, execDiodeCalibrationComplete d0 d1 s = .next z ∧ Keeps o z := by
  refine ⟨_, rfl, State.settle_keeps ?_⟩
  repeat' first
    | with_reducible assumption
    | intro _
    | with_reducible apply ok_keeps
    | with_reducible apply State.releaseN11_keeps
    | with_reducible apply State.calibrated_keeps
    | split

theorem execPllLock_keeps {o : State} {band time : Nat} {retry : Bool} {s : State} (hs : Keeps o s) :
    ∃ z, execPllLock band time retry s = .next z ∧ Keeps o z := by
  refine ⟨_, rfl, State.settle_keeps ?_⟩
  repeat' first
    | with_reducible assumption
    | intro _
    | with_reducible apply ok_keeps
    | with_reducible apply State.pllLock_keeps
    | split

theorem execPllLoss_keeps {o : State} {ref : Bool} {s : State} (hs : Keeps o s) :
    ∃ z, execPllLoss ref s = .next z ∧ Keeps o z := by
  refine ⟨_, rfl, State.settle_keeps ?_⟩
  repeat' first
    | with_reducible assumption
    | intro _
    | with_reducible apply ok_keeps
    | with_reducible apply State.pllLoss_keeps
    | split

theorem execDivCommit_keeps {o : State} {m : Master} {s : State} (hs : Keeps o s) :
    ∃ z, execDivCommit m s = .next z ∧ Keeps o z := by
  refine ⟨_, rfl, State.settle_keeps ?_⟩
  repeat' first
    | with_reducible assumption
    | intro _
    | with_reducible apply ok_keeps
    | with_reducible apply State.masterWrite_keeps
    | split

theorem execCalApplication_keeps {o : State} {s : State} (hs : Keeps o s) :
    ∃ z, execCalApplication s = .next z ∧ Keeps o z := by
  refine ⟨_, rfl, State.settle_keeps ?_⟩
  repeat' first
    | with_reducible assumption
    | intro _
    | with_reducible apply ok_keeps
    | with_reducible apply State.calTick_keeps
    | split

theorem execCalCheckGo_keeps {o : State} {m : Master} {v : RegWord} {s : State} (hs : Keeps o s) :
    ∃ z, execCalCheckGo m v s = .next z ∧ Keeps o z := by
  refine ⟨_, rfl, State.settle_keeps ?_⟩
  repeat' first
    | with_reducible assumption
    | intro _
    | with_reducible apply ok_keeps
    | with_reducible apply State.masterWrite_keeps
    | split

theorem execCsmAuth_keeps {o : State} {m : Master} {u : Fin 16} {v : RegWord} {s : State} (hs : Keeps o s) :
    ∃ z, execCsmAuth m u v s = .next z ∧ Keeps o z := by
  refine ⟨_, rfl, State.settle_keeps ?_⟩
  repeat' first
    | with_reducible assumption
    | intro _
    | with_reducible apply ok_keeps
    | with_reducible apply State.masterWrite_keeps
    | split

theorem execAuthResponse_keeps {o : State} {u : Fin 16} {r : ChipReply} {s : State} (hs : Keeps o s) :
    ∃ z, execAuthResponse u r s = .next z ∧ Keeps o z := by
  refine ⟨_, rfl, State.settle_keeps ?_⟩
  repeat' first
    | with_reducible assumption
    | intro _
    | with_reducible apply ok_keeps
    | with_reducible apply State.authReply_keeps
    | split

theorem execCsmInc_keeps {o : State} {m : Master} {u : Fin 16} {v : RegWord} {s : State} (hs : Keeps o s) :
    ∃ z, execCsmInc m u v s = .next z ∧ Keeps o z := by
  refine ⟨_, rfl, State.settle_keeps ?_⟩
  repeat' first
    | with_reducible assumption
    | intro _
    | with_reducible apply ok_keeps
    | with_reducible apply State.masterWrite_keeps
    | split

theorem execCellWriteComplete_keeps {o : State} {u : Fin 16} {r : NvmResult} {s : State} (hs : Keeps o s) :
    ∃ z, execCellWriteComplete u r s = .next z ∧ Keeps o z := by
  refine ⟨_, rfl, State.settle_keeps ?_⟩
  repeat' first
    | with_reducible assumption
    | intro _
    | with_reducible apply ok_keeps
    | with_reducible apply State.cellWritten_keeps
    | split

end Sys2Proof.Machine
end

