-- ==== Sys2Proof/Laws/KeepsRowHost.lean ====
section
/-! SUPPORT. What `Keeps` says holds of every operation of RowHost.lean. -/

namespace Sys2Proof.Machine

theorem execHostLinkUp_keeps {o : State} {s : State} (hs : Keeps o s) :
    ∃ z, execHostLinkUp s = .next z ∧ Keeps o z := by
  refine ⟨_, rfl, State.settle_keeps ?_⟩
  repeat' first
    | with_reducible assumption
    | intro _
    | with_reducible apply ok_keeps
    | with_reducible apply State.linkUp_keeps
    | split

theorem execLinkDown_keeps {o : State} {s : State} (hs : Keeps o s) :
    ∃ z, execLinkDown s = .next z ∧ Keeps o z := by
  refine ⟨_, rfl, State.settle_keeps ?_⟩
  repeat' first
    | with_reducible assumption
    | intro _
    | with_reducible apply ok_keeps
    | with_reducible apply State.linkDown_keeps
    | split

theorem execQpEnable_keeps {o : State} {m : Master} {n : Fin 64} {v : RegWord} {s : State} (hs : Keeps o s) :
    ∃ z, execQpEnable m n v s = .next z ∧ Keeps o z := by
  refine ⟨_, rfl, State.settle_keeps ?_⟩
  repeat' first
    | with_reducible assumption
    | intro _
    | with_reducible apply ok_keeps
    | with_reducible apply State.masterWrite_keeps
    | split

theorem execSqDoorbell_keeps {o : State} {m : Master} {n : Fin 64} {v : RegWord} {s : State} (hs : Keeps o s) :
    ∃ z, execSqDoorbell m n v s = .next z ∧ Keeps o z := by
  refine ⟨_, rfl, State.settle_keeps ?_⟩
  repeat' first
    | with_reducible assumption
    | intro _
    | with_reducible apply ok_keeps
    | with_reducible apply State.masterWrite_keeps
    | split

theorem execCqDoorbell_keeps {o : State} {m : Master} {n : Fin 64} {v : RegWord} {s : State} (hs : Keeps o s) :
    ∃ z, execCqDoorbell m n v s = .next z ∧ Keeps o z := by
  refine ⟨_, rfl, State.settle_keeps ?_⟩
  repeat' first
    | with_reducible assumption
    | intro _
    | with_reducible apply ok_keeps
    | with_reducible apply State.masterWrite_keeps
    | split

theorem execJobOpen_keeps {o : State} {n : Fin 64} {s : State} (hs : Keeps o s) :
    ∃ z, execJobOpen n s = .next z ∧ Keeps o z := by
  refine ⟨_, rfl, State.settle_keeps ?_⟩
  repeat' first
    | with_reducible assumption
    | intro _
    | with_reducible apply ok_keeps
    | with_reducible apply State.jobOpen_keeps
    | split

theorem execJobClose_keeps {o : State} {n : Fin 64} {s : State} (hs : Keeps o s) :
    ∃ z, execJobClose n s = .next z ∧ Keeps o z := by
  refine ⟨_, rfl, State.settle_keeps ?_⟩
  repeat' first
    | with_reducible assumption
    | intro _
    | with_reducible apply ok_keeps
    | with_reducible apply State.jobClose_keeps
    | split

theorem execPageSubmit_keeps {o : State} {n : Fin 64} {s : State} (hs : Keeps o s) :
    ∃ z, execPageSubmit n s = .next z ∧ Keeps o z := by
  refine ⟨_, rfl, State.settle_keeps ?_⟩
  repeat' first
    | with_reducible assumption
    | intro _
    | with_reducible apply ok_keeps
    | with_reducible apply State.pageSubmit_keeps
    | split

theorem execPageBind_keeps {o : State} {n : Fin 64} {s : State} (hs : Keeps o s) :
    ∃ z, execPageBind n s = .next z ∧ Keeps o z := by
  refine ⟨_, rfl, State.settle_keeps ?_⟩
  repeat' first
    | with_reducible assumption
    | intro _
    | with_reducible apply ok_keeps
    | with_reducible apply State.pageBind_keeps
    | split

theorem execCommitPolicy_keeps {o : State} {n : Fin 64} {s : State} (hs : Keeps o s) :
    ∃ z, execCommitPolicy n s = .next z ∧ Keeps o z := by
  refine ⟨_, rfl, State.settle_keeps ?_⟩
  repeat' first
    | with_reducible assumption
    | intro _
    | with_reducible apply ok_keeps
    | with_reducible apply State.commitPolicy_keeps
    | split

theorem execCancel_keeps {o : State} {n : Fin 64} {s : State} (hs : Keeps o s) :
    ∃ z, execCancel n s = .next z ∧ Keeps o z := by
  refine ⟨_, rfl, State.settle_keeps ?_⟩
  repeat' first
    | with_reducible assumption
    | intro _
    | with_reducible apply ok_keeps
    | with_reducible apply State.cancel_keeps
    | split

theorem execStatus_keeps {o : State} {n : Fin 64} {s : State} (hs : Keeps o s) :
    ∃ z, execStatus n s = .next z ∧ Keeps o z := by
  refine ⟨_, rfl, State.settle_keeps ?_⟩
  repeat' first
    | with_reducible assumption
    | intro _
    | with_reducible apply ok_keeps
    | with_reducible apply State.status_keeps
    | split

theorem execFwStageWrite_keeps {o : State} {n : Fin 64} {s : State} (hs : Keeps o s) :
    ∃ z, execFwStageWrite n s = .next z ∧ Keeps o z := by
  refine ⟨_, rfl, State.settle_keeps ?_⟩
  repeat' first
    | with_reducible assumption
    | intro _
    | with_reducible apply ok_keeps
    | with_reducible apply State.fwWrite_keeps
    | split

theorem execFwStageVerify_keeps {o : State} {n : Fin 64} {s : State} (hs : Keeps o s) :
    ∃ z, execFwStageVerify n s = .next z ∧ Keeps o z := by
  refine ⟨_, rfl, State.settle_keeps ?_⟩
  repeat' first
    | with_reducible assumption
    | intro _
    | with_reducible apply ok_keeps
    | with_reducible apply State.fwVerify_keeps
    | split

theorem execFwStageSwitch_keeps {o : State} {n : Fin 64} {s : State} (hs : Keeps o s) :
    ∃ z, execFwStageSwitch n s = .next z ∧ Keeps o z := by
  refine ⟨_, rfl, State.settle_keeps ?_⟩
  repeat' first
    | with_reducible assumption
    | intro _
    | with_reducible apply ok_keeps
    | with_reducible apply State.fwSwitch_keeps
    | split

theorem execFwStageRestart_keeps {o : State} {n : Fin 64} {s : State} (hs : Keeps o s) :
    ∃ z, execFwStageRestart n s = .next z ∧ Keeps o z := by
  refine ⟨_, rfl, State.settle_keeps ?_⟩
  repeat' first
    | with_reducible assumption
    | intro _
    | with_reducible apply ok_keeps
    | with_reducible apply State.fwRestart_keeps
    | split

theorem execJournalRead_keeps {o : State} {n : Fin 64} {s : State} (hs : Keeps o s) :
    ∃ z, execJournalRead n s = .next z ∧ Keeps o z := by
  refine ⟨_, rfl, State.settle_keeps ?_⟩
  repeat' first
    | with_reducible assumption
    | intro _
    | with_reducible apply ok_keeps
    | with_reducible apply State.journalRead_keeps
    | split

theorem execJournalNvmWriteComplete_keeps {o : State} {r : NvmResult} {s : State} (hs : Keeps o s) :
    ∃ z, execJournalNvmWriteComplete r s = .next z ∧ Keeps o z := by
  refine ⟨_, rfl, State.settle_keeps ?_⟩
  repeat' first
    | with_reducible assumption
    | intro _
    | with_reducible apply ok_keeps
    | with_reducible apply State.jrnNvm_keeps
    | split

theorem execJournalScanComplete_keeps {o : State} {s : State} (hs : Keeps o s) :
    ∃ z, execJournalScanComplete s = .next z ∧ Keeps o z := by
  refine ⟨_, rfl, State.settle_keeps ?_⟩
  repeat' first
    | with_reducible assumption
    | intro _
    | with_reducible apply ok_keeps
    | with_reducible apply State.jrnScan_keeps
    | split

theorem execMateAckTimeout_keeps {o : State} {s : State} (hs : Keeps o s) :
    ∃ z, execMateAckTimeout s = .next z ∧ Keeps o z := by
  refine ⟨_, rfl, State.settle_keeps ?_⟩
  repeat' first
    | with_reducible assumption
    | intro _
    | with_reducible apply ok_keeps
    | with_reducible apply State.pumpCpl_keeps
    | with_reducible apply State.mateSilent_keeps
    | split

theorem execBootImageLoad_keeps {o : State} {boot other : Bool} {image : List (Nat × List Byte)} {s : State} (hs : Keeps o s) :
    ∃ z, execBootImageLoad boot other image s = .next z ∧ Keeps o z := by
  refine ⟨_, rfl, State.settle_keeps ?_⟩
  repeat' first
    | with_reducible assumption
    | intro _
    | with_reducible apply ok_keeps
    | with_reducible apply State.bootLoad_keeps
    | split

theorem execXspCmdGo_keeps {o : State} {m : Master} {v : RegWord} {s : State} (hs : Keeps o s) :
    ∃ z, execXspCmdGo m v s = .next z ∧ Keeps o z := by
  refine ⟨_, rfl, State.settle_keeps ?_⟩
  repeat' first
    | with_reducible assumption
    | intro _
    | with_reducible apply ok_keeps
    | with_reducible apply State.masterWrite_keeps
    | split

theorem execXspReadComplete_keeps {o : State} {s : State} (hs : Keeps o s) :
    ∃ z, execXspReadComplete s = .next z ∧ Keeps o z := by
  refine ⟨_, rfl, State.settle_keeps ?_⟩
  repeat' first
    | with_reducible assumption
    | intro _
    | with_reducible apply ok_keeps
    | with_reducible apply State.xspDone_keeps
    | split

theorem execFwStageComplete_keeps {o : State} {valid : Bool} {s : State} (hs : Keeps o s) :
    ∃ z, execFwStageComplete valid s = .next z ∧ Keeps o z := by
  refine ⟨_, rfl, State.settle_keeps ?_⟩
  repeat' first
    | with_reducible assumption
    | intro _
    | with_reducible apply ok_keeps
    | with_reducible apply State.fwDone_keeps
    | split

end Sys2Proof.Machine
end

