-- ==== Sys2Proof/Laws/KeepsRowMonitor.lean ====
section
/-! SUPPORT. What `Keeps` says holds of every operation of RowMonitor.lean. -/

namespace Sys2Proof.Machine

theorem execVesperScanComplete_keeps {o : State} {s : State} (hs : Keeps o s) :
    ∃ z, execVesperScanComplete s = .next z ∧ Keeps o z := by
  refine ⟨_, rfl, State.settle_keeps ?_⟩
  repeat' first
    | with_reducible assumption
    | intro _
    | with_reducible apply ok_keeps
    | with_reducible apply State.vspScan_keeps
    | split

theorem execVspRaiseGo_keeps {o : State} {m : Master} {v : RegWord} {s : State} (hs : Keeps o s) :
    ∃ z, execVspRaiseGo m v s = .next z ∧ Keeps o z := by
  refine ⟨_, rfl, State.settle_keeps ?_⟩
  repeat' first
    | with_reducible assumption
    | intro _
    | with_reducible apply ok_keeps
    | with_reducible apply State.masterWrite_keeps
    | split

theorem execVesperNvmWriteComplete_keeps {o : State} {r : NvmResult} {s : State} (hs : Keeps o s) :
    ∃ z, execVesperNvmWriteComplete r s = .next z ∧ Keeps o z := by
  refine ⟨_, rfl, State.settle_keeps ?_⟩
  repeat' first
    | with_reducible assumption
    | intro _
    | with_reducible apply ok_keeps
    | with_reducible apply State.vspNvm_keeps
    | split

theorem execVspReadGo_keeps {o : State} {m : Master} {v : RegWord} {s : State} (hs : Keeps o s) :
    ∃ z, execVspReadGo m v s = .next z ∧ Keeps o z := by
  refine ⟨_, rfl, State.settle_keeps ?_⟩
  repeat' first
    | with_reducible assumption
    | intro _
    | with_reducible apply ok_keeps
    | with_reducible apply State.masterWrite_keeps
    | split

theorem execVspReadComplete_keeps {o : State} {s : State} (hs : Keeps o s) :
    ∃ z, execVspReadComplete s = .next z ∧ Keeps o z := by
  refine ⟨_, rfl, State.settle_keeps ?_⟩
  repeat' first
    | with_reducible assumption
    | intro _
    | with_reducible apply ok_keeps
    | with_reducible apply State.vspReadDone_keeps
    | split

theorem execOperatingSecond_keeps {o : State} {s : State} (hs : Keeps o s) :
    ∃ z, execOperatingSecond s = .next z ∧ Keeps o z := by
  refine ⟨_, rfl, State.settle_keeps ?_⟩
  repeat' first
    | with_reducible assumption
    | intro _
    | with_reducible apply ok_keeps
    | with_reducible apply State.operatingSecond_keeps
    | split

theorem execCounterWrap_keeps {o : State} {c : Fin 64} {s : State} (hs : Keeps o s) :
    ∃ z, execCounterWrap c s = .next z ∧ Keeps o z := by
  refine ⟨_, rfl, State.settle_keeps ?_⟩
  repeat' first
    | with_reducible assumption
    | intro _
    | with_reducible apply ok_keeps
    | with_reducible apply State.counterWrap_keeps
    | split

theorem execClrAll_keeps {o : State} {m : Master} {v : RegWord} {s : State} (hs : Keeps o s) :
    ∃ z, execClrAll m v s = .next z ∧ Keeps o z := by
  refine ⟨_, rfl, State.settle_keeps ?_⟩
  repeat' first
    | with_reducible assumption
    | intro _
    | with_reducible apply ok_keeps
    | with_reducible apply State.masterWrite_keeps
    | split

theorem execPmcDump_keeps {o : State} {r : DumpResult} {s : State} (hs : Keeps o s) :
    ∃ z, execPmcDump r s = .next z ∧ Keeps o z := by
  refine ⟨_, rfl, State.settle_keeps ?_⟩
  repeat' first
    | with_reducible assumption
    | intro _
    | with_reducible apply ok_keeps
    | with_reducible apply State.pmcDump_keeps
    | split

theorem execBwWindowClose_keeps {o : State} {moved : Vector Nat 25} {s : State} (hs : Keeps o s) :
    ∃ z, execBwWindowClose moved s = .next z ∧ Keeps o z := by
  refine ⟨_, rfl, State.settle_keeps ?_⟩
  repeat' first
    | with_reducible assumption
    | intro _
    | with_reducible apply ok_keeps
    | with_reducible apply State.bwClose_keeps
    | split

theorem execAliveToggle_keeps {o : State} {s : State} (hs : Keeps o s) :
    ∃ z, execAliveToggle s = .next z ∧ Keeps o z := by
  refine ⟨_, rfl, State.settle_keeps ?_⟩
  repeat' first
    | with_reducible assumption
    | intro _
    | with_reducible apply ok_keeps
    | with_reducible apply State.aliveToggle_keeps
    | split

theorem execSmbusProcessCall_keeps {o : State} {addr : BitVec 7} {off : BitVec 22} {pec : Option Bool} {s : State} (hs : Keeps o s) :
    ∃ z, execSmbusProcessCall addr off pec s = .next z ∧ Keeps o z := by
  refine ⟨_, rfl, State.settle_keeps ?_⟩
  repeat' first
    | with_reducible assumption
    | intro _
    | with_reducible apply ok_keeps
    | with_reducible apply State.smbusCall_keeps
    | split

theorem execUartRxByte_keeps {o : State} {b : Byte} {s : State} (hs : Keeps o s) :
    ∃ z, execUartRxByte b s = .next z ∧ Keeps o z := by
  refine ⟨_, rfl, State.settle_keeps ?_⟩
  repeat' first
    | with_reducible assumption
    | intro _
    | with_reducible apply ok_keeps
    | with_reducible apply State.uartByte_keeps
    | split

theorem execUartReadLine_keeps {o : State} {line : List Byte} {s : State} (hs : Keeps o s) :
    ∃ z, execUartReadLine line s = .next z ∧ Keeps o z := by
  refine ⟨_, rfl, State.settle_keeps ?_⟩
  repeat' first
    | with_reducible assumption
    | intro _
    | with_reducible apply ok_keeps
    | with_reducible apply State.uartLine_keeps
    | split

theorem execPmbusPoll_keeps {o : State} {r : Fin 32} {answer : Option Regulator} {s : State} (hs : Keeps o s) :
    ∃ z, execPmbusPoll r answer s = .next z ∧ Keeps o z := by
  refine ⟨_, rfl, State.settle_keeps ?_⟩
  repeat' first
    | with_reducible assumption
    | intro _
    | with_reducible apply ok_keeps
    | with_reducible apply State.pmbusPoll_keeps
    | split

theorem execMirrorUpdate_keeps {o : State} {s : State} (hs : Keeps o s) :
    ∃ z, execMirrorUpdate s = .next z ∧ Keeps o z := by
  refine ⟨_, rfl, State.settle_keeps ?_⟩
  repeat' first
    | with_reducible assumption
    | intro _
    | with_reducible apply ok_keeps
    | with_reducible apply State.mirrorUpdate_keeps
    | split

theorem execFinFrameSent_keeps {o : State} {s : State} (hs : Keeps o s) :
    ∃ z, execFinFrameSent s = .next z ∧ Keeps o z := by
  refine ⟨_, rfl, State.settle_keeps ?_⟩
  repeat' first
    | with_reducible assumption
    | intro _
    | with_reducible apply ok_keeps
    | with_reducible apply State.finSent_keeps
    | split

theorem execFinRelPulseEnd_keeps {o : State} {s : State} (hs : Keeps o s) :
    ∃ z, execFinRelPulseEnd s = .next z ∧ Keeps o z := by
  refine ⟨_, rfl, State.settle_keeps ?_⟩
  repeat' first
    | with_reducible assumption
    | intro _
    | with_reducible apply ok_keeps
    | with_reducible apply State.finPulseEnd_keeps
    | split

theorem execPurgeAtCol_keeps {o : State} {t : Fin 64} {s : State} (hs : Keeps o s) :
    ∃ z, execPurgeAtCol t s = .next z ∧ Keeps o z := by
  refine ⟨_, rfl, State.settle_keeps ?_⟩
  repeat' first
    | with_reducible assumption
    | intro _
    | with_reducible apply ok_keeps
    | with_reducible apply State.purgeAtCol_keeps
    | split

theorem execSheetSensorEdge_keeps {o : State} {n : Fin 64} {up : Bool} {s : State} (hs : Keeps o s) :
    ∃ z, execSheetSensorEdge n up s = .next z ∧ Keeps o z := by
  refine ⟨_, rfl, State.settle_keeps ?_⟩
  repeat' first
    | with_reducible assumption
    | intro _
    | with_reducible apply ok_keeps
    | with_reducible apply State.sensorEdge_keeps
    | split

theorem execQuadratureEncoderEdge_keeps {o : State} {n : Fin 16} {up : Bool} {s : State} (hs : Keeps o s) :
    ∃ z, execQuadratureEncoderEdge n up s = .next z ∧ Keeps o z := by
  refine ⟨_, rfl, State.settle_keeps ?_⟩
  repeat' first
    | with_reducible assumption
    | intro _
    | with_reducible apply ok_keeps
    | with_reducible apply State.encoderEdge_keeps
    | split

theorem execLsiInputsHigh_keeps {o : State} {in1 : Bool} {s : State} (hs : Keeps o s) :
    ∃ z, execLsiInputsHigh in1 s = .next z ∧ Keeps o z := by
  refine ⟨_, rfl, State.settle_keeps ?_⟩
  repeat' first
    | with_reducible assumption
    | intro _
    | with_reducible apply ok_keeps
    | with_reducible apply State.lsiHigh_keeps
    | split

theorem execAlwaysOnSupplyLoss_keeps {o : State} {s : State} (hs : Keeps o s) :
    ∃ z, execAlwaysOnSupplyLoss s = .next z ∧ Keeps o z := by
  refine ⟨_, rfl, State.settle_keeps ?_⟩
  repeat' first
    | with_reducible assumption
    | intro _
    | with_reducible apply ok_keeps
    | with_reducible apply State.powerLoss_keeps
    | split

end Sys2Proof.Machine
end

