-- ==== Sys2Proof/Laws/KeepsRowFabric.lean ====
section
/-! SUPPORT. What `Keeps` says holds of every operation of RowFabric.lean. -/

namespace Sys2Proof.Machine

theorem execPortBlockLock_keeps {o : State} {p : Fin 8} {lane0 lane1 inv0 inv1 : Bool} {s : State} (hs : Keeps o s) :
    ∃ z, execPortBlockLock p lane0 lane1 inv0 inv1 s = .next z ∧ Keeps o z := by
  refine ⟨_, rfl, State.settle_keeps ?_⟩
  repeat' first
    | with_reducible assumption
    | intro _
    | with_reducible apply ok_keeps
    | with_reducible apply State.blockLock_keeps
    | split

theorem execLaneLockTimeout_keeps {o : State} {p : Fin 8} {s : State} (hs : Keeps o s) :
    ∃ z, execLaneLockTimeout p s = .next z ∧ Keeps o z := by
  refine ⟨_, rfl, State.settle_keeps ?_⟩
  repeat' first
    | with_reducible assumption
    | intro _
    | with_reducible apply ok_keeps
    | with_reducible apply State.laneTimeout_keeps
    | split

theorem execPortDown_keeps {o : State} {p : Fin 8} {s : State} (hs : Keeps o s) :
    ∃ z, execPortDown p s = .next z ∧ Keeps o z := by
  refine ⟨_, rfl, State.settle_keeps ?_⟩
  repeat' first
    | with_reducible assumption
    | intro _
    | with_reducible apply ok_keeps
    | with_reducible apply State.portDown_keeps
    | split

theorem execFrameReceive_keeps {o : State} {p : Fin 8} {frame : Nat} {crcOk : Bool} {headers : List (BitVec 128)} {s : State} (hs : Keeps
    o s) :
    ∃ z, execFrameReceive p frame crcOk headers s = .next z ∧ Keeps o z := by
  refine ⟨_, rfl, State.settle_keeps ?_⟩
  repeat' first
    | with_reducible assumption
    | intro _
    | with_reducible apply ok_keeps
    | with_reducible apply State.frameArrives_keeps
    | split

theorem execReplayRequest_keeps {o : State} {p : Fin 8} {frame count : Nat} {s : State} (hs : Keeps o s) :
    ∃ z, execReplayRequest p frame count s = .next z ∧ Keeps o z := by
  refine ⟨_, rfl, State.settle_keeps ?_⟩
  repeat' first
    | with_reducible assumption
    | intro _
    | with_reducible apply ok_keeps
    | with_reducible apply State.replay_keeps
    | split

theorem execWrite_keeps {o : State} {p : Fin 8} {f : FabMsg} {s : State} (hs : Keeps o s) :
    ∃ z, execWrite p f s = .next z ∧ Keeps o z := by
  refine ⟨_, rfl, State.settle_keeps ?_⟩
  repeat' first
    | with_reducible assumption
    | intro _
    | with_reducible apply ok_keeps
    | with_reducible apply State.message_keeps
    | with_reducible apply State.homeWrite_keeps
    | split

theorem execReadReq_keeps {o : State} {p : Fin 8} {f : FabMsg} {s : State} (hs : Keeps o s) :
    ∃ z, execReadReq p f s = .next z ∧ Keeps o z := by
  refine ⟨_, rfl, State.settle_keeps ?_⟩
  repeat' first
    | with_reducible assumption
    | intro _
    | with_reducible apply ok_keeps
    | with_reducible apply State.message_keeps
    | with_reducible apply State.homeRead_keeps
    | split

theorem execReadData_keeps {o : State} {p : Fin 8} {f : FabMsg} {s : State} (hs : Keeps o s) :
    ∃ z, execReadData p f s = .next z ∧ Keeps o z := by
  refine ⟨_, rfl, State.settle_keeps ?_⟩
  repeat' first
    | with_reducible assumption
    | intro _
    | with_reducible apply ok_keeps
    | with_reducible apply State.message_keeps
    | with_reducible apply State.readData_keeps
    | split

theorem execReadErr_keeps {o : State} {p : Fin 8} {f : FabMsg} {s : State} (hs : Keeps o s) :
    ∃ z, execReadErr p f s = .next z ∧ Keeps o z := by
  refine ⟨_, rfl, State.settle_keeps ?_⟩
  repeat' first
    | with_reducible assumption
    | intro _
    | with_reducible apply ok_keeps
    | with_reducible apply State.message_keeps
    | with_reducible apply State.readFailed_keeps
    | split

theorem execRdTimeout_keeps {o : State} {s : State} (hs : Keeps o s) :
    ∃ z, execRdTimeout s = .next z ∧ Keeps o z := by
  refine ⟨_, rfl, State.settle_keeps ?_⟩
  repeat' first
    | with_reducible assumption
    | intro _
    | with_reducible apply ok_keeps
    | with_reducible apply State.readTimeout_keeps
    | split

theorem execSheetEvent_keeps {o : State} {p : Fin 8} {f : FabMsg} {s : State} (hs : Keeps o s) :
    ∃ z, execSheetEvent p f s = .next z ∧ Keeps o z := by
  refine ⟨_, rfl, State.settle_keeps ?_⟩
  repeat' first
    | with_reducible assumption
    | intro _
    | with_reducible apply ok_keeps
    | with_reducible apply State.message_keeps
    | with_reducible apply State.sheetEventArrives_keeps
    | split

theorem execLateError_keeps {o : State} {p : Fin 8} {f : FabMsg} {s : State} (hs : Keeps o s) :
    ∃ z, execLateError p f s = .next z ∧ Keeps o z := by
  refine ⟨_, rfl, State.settle_keeps ?_⟩
  repeat' first
    | with_reducible assumption
    | intro _
    | with_reducible apply ok_keeps
    | with_reducible apply State.message_keeps
    | with_reducible apply State.lateErrorArrives_keeps
    | split

theorem execJournalAck_keeps {o : State} {p : Fin 8} {f : FabMsg} {s : State} (hs : Keeps o s) :
    ∃ z, execJournalAck p f s = .next z ∧ Keeps o z := by
  refine ⟨_, rfl, State.settle_keeps ?_⟩
  repeat' first
    | with_reducible assumption
    | intro _
    | with_reducible apply ok_keeps
    | with_reducible apply State.message_keeps
    | with_reducible apply State.journalAck_keeps
    | split

theorem execSync_keeps {o : State} {p : Fin 8} {src prio sent acc : Nat} {s : State} (hs : Keeps o s) :
    ∃ z, execSync p src prio sent acc s = .next z ∧ Keeps o z := by
  refine ⟨_, rfl, State.settle_keeps ?_⟩
  repeat' first
    | with_reducible assumption
    | intro _
    | with_reducible apply ok_keeps
    | with_reducible apply State.syncArrives_keeps
    | split

theorem execSyncSend_keeps {o : State} {s : State} (hs : Keeps o s) :
    ∃ z, execSyncSend s = .next z ∧ Keeps o z := by
  refine ⟨_, rfl, State.settle_keeps ?_⟩
  repeat' first
    | with_reducible assumption
    | intro _
    | with_reducible apply ok_keeps
    | with_reducible apply State.syncSend_keeps
    | split

theorem execSyncTimeout_keeps {o : State} {s : State} (hs : Keeps o s) :
    ∃ z, execSyncTimeout s = .next z ∧ Keeps o z := by
  refine ⟨_, rfl, State.settle_keeps ?_⟩
  repeat' first
    | with_reducible assumption
    | intro _
    | with_reducible apply ok_keeps
    | with_reducible apply State.syncTimeout_keeps
    | split

theorem execDelayMeasure_keeps {o : State} {s : State} (hs : Keeps o s) :
    ∃ z, execDelayMeasure s = .next z ∧ Keeps o z := by
  refine ⟨_, rfl, State.settle_keeps ?_⟩
  repeat' first
    | with_reducible assumption
    | intro _
    | with_reducible apply ok_keeps
    | with_reducible apply State.delayMeasure_keeps
    | split

theorem execDelayReq_keeps {o : State} {p : Fin 8} {residence : Nat} {s : State} (hs : Keeps o s) :
    ∃ z, execDelayReq p residence s = .next z ∧ Keeps o z := by
  refine ⟨_, rfl, State.settle_keeps ?_⟩
  repeat' first
    | with_reducible assumption
    | intro _
    | with_reducible apply ok_keeps
    | with_reducible apply State.delayAnswer_keeps
    | split

theorem execDelayResp_keeps {o : State} {p : Fin 8} {part residence : Nat} {s : State} (hs : Keeps o s) :
    ∃ z, execDelayResp p part residence s = .next z ∧ Keeps o z := by
  refine ⟨_, rfl, State.settle_keeps ?_⟩
  repeat' first
    | with_reducible assumption
    | intro _
    | with_reducible apply ok_keeps
    | with_reducible apply State.delayArrives_keeps
    | split

theorem execSnoop_keeps {o : State} {p : Fin 8} {f : FabMsg} {s : State} (hs : Keeps o s) :
    ∃ z, execSnoop p f s = .next z ∧ Keeps o z := by
  refine ⟨_, rfl, State.settle_keeps ?_⟩
  repeat' first
    | with_reducible assumption
    | intro _
    | with_reducible apply ok_keeps
    | with_reducible apply State.message_keeps
    | with_reducible apply State.homeSnoop_keeps
    | split

theorem execData_keeps {o : State} {p : Fin 8} {f : FabMsg} {s : State} (hs : Keeps o s) :
    ∃ z, execData p f s = .next z ∧ Keeps o z := by
  refine ⟨_, rfl, State.settle_keeps ?_⟩
  repeat' first
    | with_reducible assumption
    | intro _
    | with_reducible apply ok_keeps
    | with_reducible apply State.message_keeps
    | with_reducible apply State.dataArrives_keeps
    | split

theorem execRecall_keeps {o : State} {p : Fin 8} {f : FabMsg} {s : State} (hs : Keeps o s) :
    ∃ z, execRecall p f s = .next z ∧ Keeps o z := by
  refine ⟨_, rfl, State.settle_keeps ?_⟩
  repeat' first
    | with_reducible assumption
    | intro _
    | with_reducible apply ok_keeps
    | with_reducible apply State.message_keeps
    | with_reducible apply State.recallArrives_keeps
    | split

theorem execEvict_keeps {o : State} {p : Fin 8} {f : FabMsg} {s : State} (hs : Keeps o s) :
    ∃ z, execEvict p f s = .next z ∧ Keeps o z := by
  refine ⟨_, rfl, State.settle_keeps ?_⟩
  repeat' first
    | with_reducible assumption
    | intro _
    | with_reducible apply ok_keeps
    | with_reducible apply State.message_keeps
    | with_reducible apply State.retryIn_keeps
    | with_reducible apply State.homeEvict_keeps
    | split

theorem execPin_keeps {o : State} {p : Fin 8} {f : FabMsg} {s : State} (hs : Keeps o s) :
    ∃ z, execPin p f s = .next z ∧ Keeps o z := by
  refine ⟨_, rfl, State.settle_keeps ?_⟩
  repeat' first
    | with_reducible assumption
    | intro _
    | with_reducible apply ok_keeps
    | with_reducible apply State.message_keeps
    | with_reducible apply State.homePin_keeps
    | split

theorem execUnpin_keeps {o : State} {p : Fin 8} {f : FabMsg} {s : State} (hs : Keeps o s) :
    ∃ z, execUnpin p f s = .next z ∧ Keeps o z := by
  refine ⟨_, rfl, State.settle_keeps ?_⟩
  repeat' first
    | with_reducible assumption
    | intro _
    | with_reducible apply ok_keeps
    | with_reducible apply State.message_keeps
    | with_reducible apply State.homePin_keeps
    | split

theorem execRetry_keeps {o : State} {p : Fin 8} {f : FabMsg} {s : State} (hs : Keeps o s) :
    ∃ z, execRetry p f s = .next z ∧ Keeps o z := by
  refine ⟨_, rfl, State.settle_keeps ?_⟩
  repeat' first
    | with_reducible assumption
    | intro _
    | with_reducible apply ok_keeps
    | with_reducible apply State.message_keeps
    | with_reducible apply State.snoopRefused_keeps
    | split

theorem execPinned_keeps {o : State} {p : Fin 8} {f : FabMsg} {s : State} (hs : Keeps o s) :
    ∃ z, execPinned p f s = .next z ∧ Keeps o z := by
  refine ⟨_, rfl, State.settle_keeps ?_⟩
  repeat' first
    | with_reducible assumption
    | intro _
    | with_reducible apply ok_keeps
    | with_reducible apply State.message_keeps
    | with_reducible apply State.snoopRefused_keeps
    | split

theorem execUncached_keeps {o : State} {p : Fin 8} {f : FabMsg} {s : State} (hs : Keeps o s) :
    ∃ z, execUncached p f s = .next z ∧ Keeps o z := by
  refine ⟨_, rfl, State.settle_keeps ?_⟩
  repeat' first
    | with_reducible assumption
    | intro _
    | with_reducible apply ok_keeps
    | with_reducible apply State.message_keeps
    | with_reducible apply State.uncachedArrives_keeps
    | split

theorem execInEvict_keeps {o : State} {p : Fin 8} {f : FabMsg} {s : State} (hs : Keeps o s) :
    ∃ z, execInEvict p f s = .next z ∧ Keeps o z := by
  refine ⟨_, rfl, State.settle_keeps ?_⟩
  repeat' first
    | with_reducible assumption
    | intro _
    | with_reducible apply ok_keeps
    | with_reducible apply State.message_keeps
    | with_reducible apply State.dataArrives_keeps
    | split

theorem execNotHeld_keeps {o : State} {p : Fin 8} {f : FabMsg} {s : State} (hs : Keeps o s) :
    ∃ z, execNotHeld p f s = .next z ∧ Keeps o z := by
  refine ⟨_, rfl, State.settle_keeps ?_⟩
  repeat' first
    | with_reducible assumption
    | intro _
    | with_reducible apply ok_keeps
    | with_reducible apply State.message_keeps
    | split

theorem execAbsent_keeps {o : State} {p : Fin 8} {f : FabMsg} {s : State} (hs : Keeps o s) :
    ∃ z, execAbsent p f s = .next z ∧ Keeps o z := by
  refine ⟨_, rfl, State.settle_keeps ?_⟩
  repeat' first
    | with_reducible assumption
    | intro _
    | with_reducible apply ok_keeps
    | with_reducible apply State.message_keeps
    | with_reducible apply State.absentArrives_keeps
    | split

theorem execHello_keeps {o : State} {p : Fin 8} {eui verMin verMax : Nat} {held : Option Nat} {s : State} (hs : Keeps o s) :
    ∃ z, execHello p eui verMin verMax held s = .next z ∧ Keeps o z := by
  refine ⟨_, rfl, State.settle_keeps ?_⟩
  repeat' first
    | with_reducible assumption
    | intro _
    | with_reducible apply ok_keeps
    | with_reducible apply State.helloArrives_keeps
    | split

theorem execDiscover_keeps {o : State} {p : Fin 8} {number root : Nat} {s : State} (hs : Keeps o s) :
    ∃ z, execDiscover p number root s = .next z ∧ Keeps o z := by
  refine ⟨_, rfl, State.settle_keeps ?_⟩
  repeat' first
    | with_reducible assumption
    | intro _
    | with_reducible apply ok_keeps
    | with_reducible apply State.discoverArrives_keeps
    | split

theorem execAssign_keeps {o : State} {p : Fin 8} {number : Nat} {a : Assign} {s : State} (hs : Keeps o s) :
    ∃ z, execAssign p number a s = .next z ∧ Keeps o z := by
  refine ⟨_, rfl, State.settle_keeps ?_⟩
  repeat' first
    | with_reducible assumption
    | intro _
    | with_reducible apply ok_keeps
    | with_reducible apply State.assignArrives_keeps
    | split

theorem execRoute_keeps {o : State} {p : Fin 8} {routes : List (Nat × Nat)} {s : State} (hs : Keeps o s) :
    ∃ z, execRoute p routes s = .next z ∧ Keeps o z := by
  refine ⟨_, rfl, State.settle_keeps ?_⟩
  repeat' first
    | with_reducible assumption
    | intro _
    | with_reducible apply ok_keeps
    | with_reducible apply State.routeArrives_keeps
    | split

theorem execFabDiscover_keeps {o : State} {m : Master} {v : RegWord} {s : State} (hs : Keeps o s) :
    ∃ z, execFabDiscover m v s = .next z ∧ Keeps o z := by
  refine ⟨_, rfl, State.settle_keeps ?_⟩
  repeat' first
    | with_reducible assumption
    | intro _
    | with_reducible apply ok_keeps
    | with_reducible apply State.masterWrite_keeps
    | split

theorem execLeqPop_keeps {o : State} {m : Master} {s : State} (hs : Keeps o s) :
    ∃ z, execLeqPop m s = .next z ∧ Keeps o z := by
  refine ⟨_, rfl, State.settle_keeps ?_⟩
  repeat' first
    | with_reducible assumption
    | intro _
    | with_reducible apply ok_keeps
    | with_reducible apply State.masterWrite_keeps
    | split

theorem execEvqPop_keeps {o : State} {m : Master} {s : State} (hs : Keeps o s) :
    ∃ z, execEvqPop m s = .next z ∧ Keeps o z := by
  refine ⟨_, rfl, State.settle_keeps ?_⟩
  repeat' first
    | with_reducible assumption
    | intro _
    | with_reducible apply ok_keeps
    | with_reducible apply State.masterWrite_keeps
    | split

end Sys2Proof.Machine
end

