-- ==== Sys2Proof/Laws/ExecKeeps.lean ====
section
/-! SUPPORT. Every command completes, keeps the queue, and keeps what is sound. -/

namespace Sys2Proof.Machine

theorem exec_keeps (i : Instr) (s : State) : ∃ z, exec i s = .next z ∧ Keeps s z :=
  match i with
  | .aoPowerGood => execAoPowerGood_keeps (Keeps.refl s)
  | .powerOnReset => execPowerOnReset_keeps (Keeps.refl s)
  | .jtagReset => execJtagReset_keeps (Keeps.refl s)
  | .wakeNPhrase _ => execWakeNPhrase_keeps (Keeps.refl s)
  | .uartWakeLine _ => execUartWakeLine_keeps (Keeps.refl s)
  | .requestMorning _ => execRequestMorning_keeps (Keeps.refl s)
  | .requestEvening _ => execRequestEvening_keeps (Keeps.refl s)
  | .requestNight _ => execRequestNight_keeps (Keeps.refl s)
  | .requestDusk _ => execRequestDusk_keeps (Keeps.refl s)
  | .requestNoon _ => execRequestNoon_keeps (Keeps.refl s)
  | .noonToMorning => execNoonToMorning_keeps (Keeps.refl s)
  | .duskToMorning => execDuskToMorning_keeps (Keeps.refl s)
  | .hostDoorbellWake _ _ => execHostDoorbellWake_keeps (Keeps.refl s)
  | .sysrst _ => execSysrst_keeps (Keeps.refl s)
  | .coreRelease _ _ => execCoreRelease_keeps (Keeps.refl s)
  | .coreStop _ _ => execCoreStop_keeps (Keeps.refl s)
  | .bootMapClear _ => execBootMapClear_keeps (Keeps.refl s)
  | .sysDoorbell _ _ => execSysDoorbell_keeps (Keeps.refl s)
  | .statusW1c _ _ _ => execStatusW1c_keeps (Keeps.refl s)
  | .registerWrite _ _ _ _ => execRegisterWrite_keeps (Keeps.refl s)
  | .timNowLoRead _ => execTimNowLoRead_keeps (Keeps.refl s)
  | .timSlewWrite _ _ => execTimSlewWrite_keeps (Keeps.refl s)
  | .slewTick => execSlewTick_keeps (Keeps.refl s)
  | .timStep _ _ => execTimStep_keeps (Keeps.refl s)
  | .alarmArm _ _ _ => execAlarmArm_keeps (Keeps.refl s)
  | .alarmFire => execAlarmFire_keeps (Keeps.refl s)
  | .claimCommit _ => execClaimCommit_keeps (Keeps.refl s)
  | .timerArm _ _ _ => execTimerArm_keeps (Keeps.refl s)
  | .windowEdgeCapture _ => execWindowEdgeCapture_keeps (Keeps.refl s)
  | .windowMiss _ => execWindowMiss_keeps (Keeps.refl s)
  | .encoderLatch _ => execEncoderLatch_keeps (Keeps.refl s)
  | .pageEntrySubmit _ _ _ => execPageEntrySubmit_keeps (Keeps.refl s)
  | .pageEntryFree _ _ _ => execPageEntryFree_keeps (Keeps.refl s)
  | .admissionTestGo _ _ => execAdmissionTestGo_keeps (Keeps.refl s)
  | .admissionTestComplete => execAdmissionTestComplete_keeps (Keeps.refl s)
  | .morningCheckComplete _ => execMorningCheckComplete_keeps (Keeps.refl s)
  | .morningCheckMismatch _ => execMorningCheckMismatch_keeps (Keeps.refl s)
  | .sheetBind _ _ _ => execSheetBind_keeps (Keeps.refl s)
  | .sheetFree _ _ _ => execSheetFree_keeps (Keeps.refl s)
  | .commitGrant _ => execCommitGrant_keeps (Keeps.refl s)
  | .colAbort _ => execColAbort_keeps (Keeps.refl s)
  | .purgePulseEnd _ => execPurgePulseEnd_keeps (Keeps.refl s)
  | .webFrameEnd _ => execWebFrameEnd_keeps (Keeps.refl s)
  | .spoilDecisionPoint _ => execSpoilDecisionPoint_keeps (Keeps.refl s)
  | .spoilPulseEnd _ => execSpoilPulseEnd_keeps (Keeps.refl s)
  | .driveLost => execDriveLost_keeps (Keeps.refl s)
  | .gapOpening => execGapOpening_keeps (Keeps.refl s)
  | .gapClose => execGapClose_keeps (Keeps.refl s)
  | .stationDecoderMismatch _ _ => execStationDecoderMismatch_keeps (Keeps.refl s)
  | .cdcMmPop _ => execCdcMmPop_keeps (Keeps.refl s)
  | .plainFlush _ _ => execPlainFlush_keeps (Keeps.refl s)
  | .extentLoadComplete _ _ => execExtentLoadComplete_keeps (Keeps.refl s)
  | .writebackComplete _ _ => execWritebackComplete_keeps (Keeps.refl s)
  | .evictRetry => execEvictRetry_keeps (Keeps.refl s)
  | .laneGo _ _ _ => execLaneGo_keeps (Keeps.refl s)
  | .laneFlush _ _ _ _ _ => execLaneFlush_keeps (Keeps.refl s)
  | .laneDone _ _ => execLaneDone_keeps (Keeps.refl s)
  | .laneSourceReadError _ _ _ => execLaneSourceReadError_keeps (Keeps.refl s)
  | .laneWriteRefused _ _ => execLaneWriteRefused_keeps (Keeps.refl s)
  | .strDisable _ => execStrDisable_keeps (Keeps.refl s)
  | .streamerArm _ _ _ => execStreamerArm_keeps (Keeps.refl s)
  | .streamerDisarm _ _ _ => execStreamerDisarm_keeps (Keeps.refl s)
  | .withdraw _ _ _ => execWithdraw_keeps (Keeps.refl s)
  | .strQPush _ _ _ => execStrQPush_keeps (Keeps.refl s)
  | .prefetchStart _ => execPrefetchStart_keeps (Keeps.refl s)
  | .bandFillStart _ => execBandFillStart_keeps (Keeps.refl s)
  | .burstIssue _ _ => execBurstIssue_keeps (Keeps.refl s)
  | .burstLand _ _ => execBurstLand_keeps (Keeps.refl s)
  | .bandFillComplete _ => execBandFillComplete_keeps (Keeps.refl s)
  | .valeConfClr _ => execValeConfClr_keeps (Keeps.refl s)
  | .dmaCopy _ _ _ => execDmaCopy_keeps (Keeps.refl s)
  | .dmaFill _ _ _ => execDmaFill_keeps (Keeps.refl s)
  | .dmaCompare _ _ _ => execDmaCompare_keeps (Keeps.refl s)
  | .dmaFence _ _ _ => execDmaFence_keeps (Keeps.refl s)
  | .dmaStop _ _ _ _ => execDmaStop_keeps (Keeps.refl s)
  | .dmaDone _ => execDmaDone_keeps (Keeps.refl s)
  | .dmaBusError _ _ _ _ => execDmaBusError_keeps (Keeps.refl s)
  | .sosWindowOpen _ => execSosWindowOpen_keeps (Keeps.refl s)
  | .sosCapture _ _ => execSosCapture_keeps (Keeps.refl s)
  | .sosMiss _ => execSosMiss_keeps (Keeps.refl s)
  | .lineEnd _ => execLineEnd_keeps (Keeps.refl s)
  | .eosCapture _ _ => execEosCapture_keeps (Keeps.refl s)
  | .eosMiss _ => execEosMiss_keeps (Keeps.refl s)
  | .dllUnlock _ => execDllUnlock_keeps (Keeps.refl s)
  | .dllLock _ => execDllLock_keeps (Keeps.refl s)
  | .facetIdxSet _ _ _ => execFacetIdxSet_keeps (Keeps.refl s)
  | .expose _ => execExpose_keeps (Keeps.refl s)
  | .calStart _ => execCalStart_keeps (Keeps.refl s)
  | .calStop _ => execCalStop_keeps (Keeps.refl s)
  | .lsiActivate _ => execLsiActivate_keeps (Keeps.refl s)
  | .lsiDisagree => execLsiDisagree_keeps (Keeps.refl s)
  | .lsiRearm _ _ => execLsiRearm_keeps (Keeps.refl s)
  | .testCfgWrite _ _ _ => execTestCfgWrite_keeps (Keeps.refl s)
  | .beamTest _ => execBeamTest_keeps (Keeps.refl s)
  | .beamTestPass _ _ => execBeamTestPass_keeps (Keeps.refl s)
  | .beamTestMiss _ => execBeamTestMiss_keeps (Keeps.refl s)
  | .powerMeasureGo _ _ _ => execPowerMeasureGo_keeps (Keeps.refl s)
  | .powerFacetIntegrate _ _ => execPowerFacetIntegrate_keeps (Keeps.refl s)
  | .powerMeasureDone _ => execPowerMeasureDone_keeps (Keeps.refl s)
  | .add _ _ _ _ => execAdd_keeps (Keeps.refl s)
  | .sub _ _ _ _ => execSub_keeps (Keeps.refl s)
  | .and _ _ _ _ => execAnd_keeps (Keeps.refl s)
  | .or _ _ _ _ => execOr_keeps (Keeps.refl s)
  | .xor _ _ _ _ => execXor_keeps (Keeps.refl s)
  | .sll _ _ _ _ => execSll_keeps (Keeps.refl s)
  | .srl _ _ _ _ => execSrl_keeps (Keeps.refl s)
  | .sra _ _ _ _ => execSra_keeps (Keeps.refl s)
  | .slt _ _ _ _ => execSlt_keeps (Keeps.refl s)
  | .sltu _ _ _ _ => execSltu_keeps (Keeps.refl s)
  | .mul _ _ _ _ => execMul_keeps (Keeps.refl s)
  | .mulh _ _ _ _ => execMulh_keeps (Keeps.refl s)
  | .mulhu _ _ _ _ => execMulhu_keeps (Keeps.refl s)
  | .div _ _ _ _ => execDiv_keeps (Keeps.refl s)
  | .divu _ _ _ _ => execDivu_keeps (Keeps.refl s)
  | .rem _ _ _ _ => execRem_keeps (Keeps.refl s)
  | .remu _ _ _ _ => execRemu_keeps (Keeps.refl s)
  | .min _ _ _ _ => execMin_keeps (Keeps.refl s)
  | .max _ _ _ _ => execMax_keeps (Keeps.refl s)
  | .minu _ _ _ _ => execMinu_keeps (Keeps.refl s)
  | .maxu _ _ _ _ => execMaxu_keeps (Keeps.refl s)
  | .addi _ _ _ _ => execAddi_keeps (Keeps.refl s)
  | .andi _ _ _ _ => execAndi_keeps (Keeps.refl s)
  | .ori _ _ _ _ => execOri_keeps (Keeps.refl s)
  | .xori _ _ _ _ => execXori_keeps (Keeps.refl s)
  | .slti _ _ _ _ => execSlti_keeps (Keeps.refl s)
  | .sltiu _ _ _ _ => execSltiu_keeps (Keeps.refl s)
  | .slli _ _ _ _ => execSlli_keeps (Keeps.refl s)
  | .srli _ _ _ _ => execSrli_keeps (Keeps.refl s)
  | .srai _ _ _ _ => execSrai_keeps (Keeps.refl s)
  | .lui _ _ _ => execLui_keeps (Keeps.refl s)
  | .shori _ _ _ _ => execShori_keeps (Keeps.refl s)
  | .lb _ _ _ _ => execLb_keeps (Keeps.refl s)
  | .lbu _ _ _ _ => execLbu_keeps (Keeps.refl s)
  | .lh _ _ _ _ => execLh_keeps (Keeps.refl s)
  | .lhu _ _ _ _ => execLhu_keeps (Keeps.refl s)
  | .lw _ _ _ _ => execLw_keeps (Keeps.refl s)
  | .lwu _ _ _ _ => execLwu_keeps (Keeps.refl s)
  | .ld _ _ _ _ => execLd_keeps (Keeps.refl s)
  | .sb _ _ _ _ => execSb_keeps (Keeps.refl s)
  | .sh _ _ _ _ => execSh_keeps (Keeps.refl s)
  | .sw _ _ _ _ => execSw_keeps (Keeps.refl s)
  | .sd _ _ _ _ => execSd_keeps (Keeps.refl s)
  | .amoadd _ _ _ _ => execAmoadd_keeps (Keeps.refl s)
  | .amoswap _ _ _ _ => execAmoswap_keeps (Keeps.refl s)
  | .amocas _ _ _ _ => execAmocas_keeps (Keeps.refl s)
  | .fence _ => execFence_keeps (Keeps.refl s)
  | .beq _ _ _ _ => execBeq_keeps (Keeps.refl s)
  | .bne _ _ _ _ => execBne_keeps (Keeps.refl s)
  | .blt _ _ _ _ => execBlt_keeps (Keeps.refl s)
  | .bge _ _ _ _ => execBge_keeps (Keeps.refl s)
  | .bltu _ _ _ _ => execBltu_keeps (Keeps.refl s)
  | .bgeu _ _ _ _ => execBgeu_keeps (Keeps.refl s)
  | .j _ _ => execJ_keeps (Keeps.refl s)
  | .call _ _ => execCall_keeps (Keeps.refl s)
  | .jalr _ _ _ _ => execJalr_keeps (Keeps.refl s)
  | .rdtime _ _ => execRdtime_keeps (Keeps.refl s)
  | .rdpmc _ _ _ => execRdpmc_keeps (Keeps.refl s)
  | .syscall _ _ => execSyscall_keeps (Keeps.refl s)
  | .brk _ => execBrk_keeps (Keeps.refl s)
  | .eret _ => execEret_keeps (Keeps.refl s)
  | .wfi _ => execWfi_keeps (Keeps.refl s)
  | .mfcr _ _ _ => execMfcr_keeps (Keeps.refl s)
  | .mtcr _ _ _ => execMtcr_keeps (Keeps.refl s)
  | .shevPop _ => execShevPop_keeps (Keeps.refl s)
  | .shevClrLost _ => execShevClrLost_keeps (Keeps.refl s)
  | .waitt _ _ _ => execWaitt_keeps (Keeps.refl s)
  | .waittResume _ => execWaittResume_keeps (Keeps.refl s)
  | .emit _ _ _ _ _ => execEmit_keeps (Keeps.refl s)
  | .emitStallRelease _ => execEmitStallRelease_keeps (Keeps.refl s)
  | .sample _ _ _ _ => execSample_keeps (Keeps.refl s)
  | .sampleCapture _ => execSampleCapture_keeps (Keeps.refl s)
  | .spec _ _ _ => execSpec_keeps (Keeps.refl s)
  | .specJ _ _ _ => execSpecJ_keeps (Keeps.refl s)
  | .specL _ _ => execSpecL_keeps (Keeps.refl s)
  | .commit _ _ _ => execCommit_keeps (Keeps.refl s)
  | .abort _ _ _ => execAbort_keeps (Keeps.refl s)
  | .interruptEntry _ => execInterruptEntry_keeps (Keeps.refl s)
  | .coreTimerExpiry _ => execCoreTimerExpiry_keeps (Keeps.refl s)
  | .release => execRelease_keeps (Keeps.refl s)
  | .event => execEvent_keeps (Keeps.refl s)
  | .bldStart _ => execBldStart_keeps (Keeps.refl s)
  | .bldCoast _ => execBldCoast_keeps (Keeps.refl s)
  | .bldDuty _ => execBldDuty_keeps (Keeps.refl s)
  | .bemfCrossing _ _ _ => execBemfCrossing_keeps (Keeps.refl s)
  | .commutation _ => execCommutation_keeps (Keeps.refl s)
  | .syncLost _ => execSyncLost_keeps (Keeps.refl s)
  | .detectQuiet _ => execDetectQuiet_keeps (Keeps.refl s)
  | .detectTimeout _ => execDetectTimeout_keeps (Keeps.refl s)
  | .alignElapsed _ => execAlignElapsed_keeps (Keeps.refl s)
  | .rampFail _ => execRampFail_keeps (Keeps.refl s)
  | .bldDriverFault _ _ => execBldDriverFault_keeps (Keeps.refl s)
  | .stpGoto _ => execStpGoto_keeps (Keeps.refl s)
  | .stpMove => execStpMove_keeps (Keeps.refl s)
  | .stpStop _ => execStpStop_keeps (Keeps.refl s)
  | .stpGotoPreset => execStpGotoPreset_keeps (Keeps.refl s)
  | .profileUpdate _ => execProfileUpdate_keeps (Keeps.refl s)
  | .moveComplete _ => execMoveComplete_keeps (Keeps.refl s)
  | .stpDriverFault _ _ => execStpDriverFault_keeps (Keeps.refl s)
  | .xactWrite _ _ _ => execXactWrite_keeps (Keeps.refl s)
  | .clrLost _ _ _ => execClrLost_keeps (Keeps.refl s)
  | .chopThreshold _ _ _ _ => execChopThreshold_keeps (Keeps.refl s)
  | .ofsAdapt _ _ => execOfsAdapt_keeps (Keeps.refl s)
  | .frameStart => execFrameStart_keeps (Keeps.refl s)
  | .slotSample _ => execSlotSample_keeps (Keeps.refl s)
  | .loopComputation => execLoopComputation_keeps (Keeps.refl s)
  | .praOn _ => execPraOn_keeps (Keeps.refl s)
  | .praOff _ => execPraOff_keeps (Keeps.refl s)
  | .praSet _ => execPraSet_keeps (Keeps.refl s)
  | .praSync _ => execPraSync_keeps (Keeps.refl s)
  | .praCap _ => execPraCap_keeps (Keeps.refl s)
  | .swapRequest _ _ _ => execSwapRequest_keeps (Keeps.refl s)
  | .loadClr _ => execLoadClr_keeps (Keeps.refl s)
  | .adcConversion _ _ _ => execAdcConversion_keeps (Keeps.refl s)
  | .seqSel _ => execSeqSel_keeps (Keeps.refl s)
  | .upSequenceStep => execUpSequenceStep_keeps (Keeps.refl s)
  | .railPowerGood _ => execRailPowerGood_keeps (Keeps.refl s)
  | .upStepTimeout => execUpStepTimeout_keeps (Keeps.refl s)
  | .downSequenceBegin => execDownSequenceBegin_keeps (Keeps.refl s)
  | .downSequenceStep => execDownSequenceStep_keeps (Keeps.refl s)
  | .railComparatorFault _ _ => execRailComparatorFault_keeps (Keeps.refl s)
  | .railScanFault _ => execRailScanFault_keeps (Keeps.refl s)
  | .retryTimer _ => execRetryTimer_keeps (Keeps.refl s)
  | .pwrOn _ => execPwrOn_keeps (Keeps.refl s)
  | .pwrOff _ => execPwrOff_keeps (Keeps.refl s)
  | .snapRearm _ _ => execSnapRearm_keeps (Keeps.refl s)
  | .modelUpdate _ _ _ _ => execModelUpdate_keeps (Keeps.refl s)
  | .holdUpEnd => execHoldUpEnd_keeps (Keeps.refl s)
  | .diodeCalibration _ _ => execDiodeCalibration_keeps (Keeps.refl s)
  | .diodeCalibrationComplete _ _ => execDiodeCalibrationComplete_keeps (Keeps.refl s)
  | .pllLock _ _ _ => execPllLock_keeps (Keeps.refl s)
  | .pllLoss _ => execPllLoss_keeps (Keeps.refl s)
  | .divCommit _ => execDivCommit_keeps (Keeps.refl s)
  | .calApplication => execCalApplication_keeps (Keeps.refl s)
  | .calCheckGo _ _ => execCalCheckGo_keeps (Keeps.refl s)
  | .csmAuth _ _ _ => execCsmAuth_keeps (Keeps.refl s)
  | .authResponse _ _ => execAuthResponse_keeps (Keeps.refl s)
  | .csmInc _ _ _ => execCsmInc_keeps (Keeps.refl s)
  | .cellWriteComplete _ _ => execCellWriteComplete_keeps (Keeps.refl s)
  | .hostLinkUp => execHostLinkUp_keeps (Keeps.refl s)
  | .linkDown => execLinkDown_keeps (Keeps.refl s)
  | .qpEnable _ _ _ => execQpEnable_keeps (Keeps.refl s)
  | .sqDoorbell _ _ _ => execSqDoorbell_keeps (Keeps.refl s)
  | .cqDoorbell _ _ _ => execCqDoorbell_keeps (Keeps.refl s)
  | .jobOpen _ => execJobOpen_keeps (Keeps.refl s)
  | .jobClose _ => execJobClose_keeps (Keeps.refl s)
  | .pageSubmit _ => execPageSubmit_keeps (Keeps.refl s)
  | .pageBind _ => execPageBind_keeps (Keeps.refl s)
  | .commitPolicy _ => execCommitPolicy_keeps (Keeps.refl s)
  | .cancel _ => execCancel_keeps (Keeps.refl s)
  | .status _ => execStatus_keeps (Keeps.refl s)
  | .fwStageWrite _ => execFwStageWrite_keeps (Keeps.refl s)
  | .fwStageVerify _ => execFwStageVerify_keeps (Keeps.refl s)
  | .fwStageSwitch _ => execFwStageSwitch_keeps (Keeps.refl s)
  | .fwStageRestart _ => execFwStageRestart_keeps (Keeps.refl s)
  | .journalRead _ => execJournalRead_keeps (Keeps.refl s)
  | .journalNvmWriteComplete _ => execJournalNvmWriteComplete_keeps (Keeps.refl s)
  | .journalScanComplete => execJournalScanComplete_keeps (Keeps.refl s)
  | .mateAckTimeout => execMateAckTimeout_keeps (Keeps.refl s)
  | .bootImageLoad _ _ _ => execBootImageLoad_keeps (Keeps.refl s)
  | .xspCmdGo _ _ => execXspCmdGo_keeps (Keeps.refl s)
  | .xspReadComplete => execXspReadComplete_keeps (Keeps.refl s)
  | .vesperScanComplete => execVesperScanComplete_keeps (Keeps.refl s)
  | .vspRaiseGo _ _ => execVspRaiseGo_keeps (Keeps.refl s)
  | .vesperNvmWriteComplete _ => execVesperNvmWriteComplete_keeps (Keeps.refl s)
  | .vspReadGo _ _ => execVspReadGo_keeps (Keeps.refl s)
  | .vspReadComplete => execVspReadComplete_keeps (Keeps.refl s)
  | .operatingSecond => execOperatingSecond_keeps (Keeps.refl s)
  | .counterWrap _ => execCounterWrap_keeps (Keeps.refl s)
  | .clrAll _ _ => execClrAll_keeps (Keeps.refl s)
  | .pmcDump _ => execPmcDump_keeps (Keeps.refl s)
  | .bwWindowClose _ => execBwWindowClose_keeps (Keeps.refl s)
  | .aliveToggle => execAliveToggle_keeps (Keeps.refl s)
  | .smbusProcessCall _ _ _ => execSmbusProcessCall_keeps (Keeps.refl s)
  | .uartRxByte _ => execUartRxByte_keeps (Keeps.refl s)
  | .uartReadLine _ => execUartReadLine_keeps (Keeps.refl s)
  | .pmbusPoll _ _ => execPmbusPoll_keeps (Keeps.refl s)
  | .mirrorUpdate => execMirrorUpdate_keeps (Keeps.refl s)
  | .portBlockLock _ _ _ _ _ => execPortBlockLock_keeps (Keeps.refl s)
  | .laneLockTimeout _ => execLaneLockTimeout_keeps (Keeps.refl s)
  | .portDown _ => execPortDown_keeps (Keeps.refl s)
  | .frameReceive _ _ _ _ => execFrameReceive_keeps (Keeps.refl s)
  | .replayRequest _ _ _ => execReplayRequest_keeps (Keeps.refl s)
  | .write _ _ => execWrite_keeps (Keeps.refl s)
  | .readReq _ _ => execReadReq_keeps (Keeps.refl s)
  | .readData _ _ => execReadData_keeps (Keeps.refl s)
  | .readErr _ _ => execReadErr_keeps (Keeps.refl s)
  | .rdTimeout => execRdTimeout_keeps (Keeps.refl s)
  | .sheetEvent _ _ => execSheetEvent_keeps (Keeps.refl s)
  | .lateError _ _ => execLateError_keeps (Keeps.refl s)
  | .journalAck _ _ => execJournalAck_keeps (Keeps.refl s)
  | .sync _ _ _ _ _ => execSync_keeps (Keeps.refl s)
  | .syncSend => execSyncSend_keeps (Keeps.refl s)
  | .syncTimeout => execSyncTimeout_keeps (Keeps.refl s)
  | .delayMeasure => execDelayMeasure_keeps (Keeps.refl s)
  | .delayReq _ _ => execDelayReq_keeps (Keeps.refl s)
  | .delayResp _ _ _ => execDelayResp_keeps (Keeps.refl s)
  | .snoop _ _ => execSnoop_keeps (Keeps.refl s)
  | .data _ _ => execData_keeps (Keeps.refl s)
  | .recallMsg _ _ => execRecall_keeps (Keeps.refl s)
  | .evict _ _ => execEvict_keeps (Keeps.refl s)
  | .pin _ _ => execPin_keeps (Keeps.refl s)
  | .unpin _ _ => execUnpin_keeps (Keeps.refl s)
  | .retry _ _ => execRetry_keeps (Keeps.refl s)
  | .pinned _ _ => execPinned_keeps (Keeps.refl s)
  | .uncached _ _ => execUncached_keeps (Keeps.refl s)
  | .inEvict _ _ => execInEvict_keeps (Keeps.refl s)
  | .notHeld _ _ => execNotHeld_keeps (Keeps.refl s)
  | .absent _ _ => execAbsent_keeps (Keeps.refl s)
  | .hello _ _ _ _ _ => execHello_keeps (Keeps.refl s)
  | .discover _ _ _ => execDiscover_keeps (Keeps.refl s)
  | .assign _ _ _ => execAssign_keeps (Keeps.refl s)
  | .route _ _ => execRoute_keeps (Keeps.refl s)
  | .fabDiscover _ _ => execFabDiscover_keeps (Keeps.refl s)
  | .leqPop _ => execLeqPop_keeps (Keeps.refl s)
  | .evqPop _ => execEvqPop_keeps (Keeps.refl s)
  | .finFrameSent => execFinFrameSent_keeps (Keeps.refl s)
  | .finRelPulseEnd => execFinRelPulseEnd_keeps (Keeps.refl s)
  | .purgeAtCol _ => execPurgeAtCol_keeps (Keeps.refl s)
  | .sheetSensorEdge _ _ => execSheetSensorEdge_keeps (Keeps.refl s)
  | .quadratureEncoderEdge _ _ => execQuadratureEncoderEdge_keeps (Keeps.refl s)
  | .lsiInputsHigh _ => execLsiInputsHigh_keeps (Keeps.refl s)
  | .alwaysOnSupplyLoss => execAlwaysOnSupplyLoss_keeps (Keeps.refl s)
  | .fwStageComplete _ => execFwStageComplete_keeps (Keeps.refl s)

end Sys2Proof.Machine
end

