-- ==== Sys2Proof/Laws/Writes.lean ====
section
/-! SUPPORT. What a write by a master does, where the master may make it. -/

namespace Sys2Proof.Machine

theorem State.updCore_self (s : State) (n : Fin 12) (f : CoreX → CoreX) (h : f (s.core n) = s.core n) : s.updCore n f = s := by
  have e : s.cores.set n.val (f s.cores[n]) = s.cores := by
    apply Vector.ext
    intro i hi
    rw [Vector.getElem_set]
    split
    · subst i
      exact h
    · rfl
  unfold State.updCore
  rw [e]

/-- No write of the core to the block is on its way: nothing takes effect. -/
theorem State.drainBlock_eq {s : State} {n : Fin 12} {b : Nat} (h : ∀ e ∈ (s.core n).posted, e.1 / 0x10000 ≠ b) :
    s.drainBlock n b = s := by
  have h1 : (s.core n).posted.filter (fun e => e.1 / 0x10000 = b) = [] := by
    rw [List.filter_eq_nil_iff]
    intro e he
    simpa using h e he
  have h2 : (s.core n).posted.filter (fun e => e.1 / 0x10000 ≠ b) = (s.core n).posted := by
    rw [List.filter_eq_self]
    intro e he
    simpa using h e he
  unfold State.drainBlock
  simp only [h1, forEach, List.foldl_nil]
  apply State.updCore_self
  rw [h2]

/-- A write that the master may make is made. -/
theorem State.asMaster_eq {s : State} {m : Master} {off : Nat} (h : s.mayWrite m off) (f : State → State) : s.asMaster m off f = f s := by
  obtain ⟨h1, h2⟩ := h
  unfold State.asMaster
  rw [h1]
  cases m with
  | core n => simp [h2.1, State.drainFor, State.drainBlock_eq h2.2, h1]
  | host => simp at h2; simp [h2]
  | jtag => rfl

/-- A write that the master may make takes effect by the register's rules. -/
theorem State.masterWrite_eq {s : State} {m : Master} {off : Nat} (h : s.mayWrite m off) (v : RegWord) :
    s.masterWrite m off v = s.ctrlWrite (masterNo m) off v.toNat := State.asMaster_eq h _

/-- A register that is not a status register or its enables takes a write by the rules of its block. -/
theorem State.ctrlWrite_block {s : State} {m off v : Nat} (hf : s.fusedReg off = false) (he : regExists off = true)
    (hs : (statusRegsOf (off / 0x10000)).contains off = false) (hi : (statusRegsOf (off / 0x10000)).contains (off - 4) = false) :
    s.ctrlWrite m off v = s.blockWrite m off v := by
  unfold State.ctrlWrite
  rw [hf, he]
  simp only [hs, hi, Bool.not_true, Bool.false_eq_true, if_false]

/-- Outside the stations' blocks no register is removed by a fuse. -/
theorem State.fusedReg_eq {s : State} {off : Nat} (h : off / 0x10000 < 12 ∨ 21 < off / 0x10000) : s.fusedReg off = false := by
  unfold State.fusedReg
  simp only [Bool.or_eq_false_iff, Bool.and_eq_false_iff, decide_eq_false_iff_not]
  omega

theorem bitAt_eq (w i : Nat) : bitAt w i = w.testBit i := by
  simp [bitAt, Nat.testBit_eq_decide_div_mod_eq]

theorem testBit_bitPut (w i : Nat) (b : Bool) (j : Nat) : (bitPut w i b).testBit j = if j = i then b else w.testBit j := by
  unfold bitPut
  rw [testBit_bitsSet]
  by_cases h : j = i
  · subst h
    rw [if_pos (by omega), if_pos rfl, Nat.sub_self]
    cases b <;> rfl
  · rw [if_neg (by omega), if_neg h]

/-- The bit that a command writes, and the others of the word it carries. -/
theorem bitAt_withBit (v : RegWord) (i : Nat) (b : Bool) (j : Nat) (hi : i < 32) :
    bitAt (withBit v i b).toNat j = if j = i then b else bitAt v.toNat j := by
  have : bitPut v.toNat i b < 2 ^ 32 := bitsSet_lt v.isLt (by omega)
  simp only [withBit, BitVec.toNat_ofNat, Nat.mod_eq_of_lt this, bitAt_eq, testBit_bitPut]

end Sys2Proof.Machine
end

