-- ==== Sys2Proof/Laws/Flags.lean ====
section
/-! SUPPORT. What a source that sets changes: its status register, `ALIVE`, and whether the device is to wake. -/

namespace Sys2Proof.Machine

theorem State.wr_eq (s : State) (f : Fld) (v : Nat) : s.wr f v = { s with regs := (s.wr f v).regs } := rfl

theorem State.msixSend_eq (s : State) (v : Nat) : s.msixSend v = { s with hst := (s.msixSend v).hst } := by
  unfold State.msixSend
  split <;> rfl

theorem State.msixSend_getReg (s : State) (v off : Nat) : (s.msixSend v).getReg off = s.getReg off := by
  unfold State.msixSend
  split <;> rfl

theorem State.faultHeld_eq (s : State) (b : Nat) (was : Bool) :
    s.faultHeld b was =
      { s with regs := (s.faultHeld b was).regs, faultWake := (s.faultHeld b was).faultWake, hst := (s.faultHeld b was).hst } := by
  unfold State.faultHeld
  split
  · dsimp only
    by_cases hb : b = 27
    · simp only [if_pos hb]
      rw [State.msixSend_eq]
      generalize ((s.wr Reg.MGT_ALIVE_RUN 0).msixSend 65).hst = x
      split <;> rfl
    · simp only [if_neg hb]
      split <;> rfl
  · rfl

theorem State.faultHeld_getReg {s : State} {b : Nat} {was : Bool} {off : Nat} (h : off ≠ Reg.MGT_ALIVE) :
    (s.faultHeld b was).getReg off = s.getReg off := by
  unfold State.faultHeld
  split
  · dsimp only
    have this : (s.wr Reg.MGT_ALIVE_RUN 0).getReg off = s.getReg off := by simp [State.wr, h]
    have h27 : (if b = 27 then (s.wr Reg.MGT_ALIVE_RUN 0).msixSend 65 else s.wr Reg.MGT_ALIVE_RUN 0).getReg off = s.getReg off := by
      split
      · rw [State.msixSend_getReg, this]
      · exact this
    have wake : ∀ t : State, t.getReg off = s.getReg off →
        (if t.dev = stEvening then { t with faultWake := true } else t).getReg off = s.getReg off := by
      intro t ht
      split <;> exact ht
    exact wake _ h27
  · rfl

/-- A source that sets changes registers, the clock of its `FIRST`, the messages to the host, and whether the device is to wake from
EVENING, alone. -/
theorem State.raiseAll_eq (s : State) (st : Nat) (l : List Nat) :
    s.raiseAll st l = { s with
      regs := (s.raiseAll st l).regs, firstAt := (s.raiseAll st l).firstAt, hst := (s.raiseAll st l).hst,
      faultWake := (s.raiseAll st l).faultWake } := by
  unfold State.raiseAll
  dsimp only
  split
  · rfl
  · rw [State.faultHeld_eq]
    rfl

/-- It changes its status register and `MGT_ALIVE` alone. -/
theorem State.raiseAll_getReg {s : State} {st : Nat} {l : List Nat} {off : Nat} (h : off ≠ st) (h' : off ≠ Reg.MGT_ALIVE) :
    (s.raiseAll st l).getReg off = s.getReg off := by
  unfold State.raiseAll
  dsimp only
  split
  · rfl
  · rw [State.faultHeld_getReg h']
    simp only [State.wrw, State.getReg_setReg, if_neg h]
    rfl

theorem testBit_putAll (l : List Nat) (w j : Nat) :
    (l.foldl (fun w i => bitPut w i true) w).testBit j = (w.testBit j || decide (j ∈ l)) := by
  induction l generalizing w with
  | nil => simp
  | cons i rest ih =>
    rw [List.foldl_cons, ih, testBit_bitPut]
    by_cases h : j = i <;> simp [h]

/-- The source bits of the status register after sources have set. -/
theorem State.raiseAll_bit (s : State) (st : Nat) (l : List Nat) (hst : st ≠ Reg.MGT_ALIVE) {j : Nat} (hj : j < 16) :
    bitAt ((s.raiseAll st l).rdw st) j = (bitAt (s.rdw st) j || decide (j ∈ l)) := by
  unfold State.raiseAll
  dsimp only
  split
  · rename_i h
    rw [List.isEmpty_iff, List.filter_eq_nil_iff] at h
    by_cases hl : j ∈ l
    · have := h j hl
      simp at this
      simp [this]
    · simp [hl]
  · simp only [State.rdw]
    rw [State.faultHeld_getReg hst]
    simp only [State.wrw, State.getReg_setReg, if_pos, BitVec.toNat_ofNat, bitAt_eq, Nat.testBit_mod_two_pow]
    rw [show decide (j < 32) = true by simp; omega, Bool.true_and]
    split
    · rw [testBit_bitPut, if_neg (by omega), testBit_putAll]
      simp only [List.mem_filter]
      cases h : (s.getReg st).toNat.testBit j <;> simp
    · rw [testBit_bitsSet, if_neg (by omega), testBit_putAll]
      simp only [List.mem_filter]
      cases h : (s.getReg st).toNat.testBit j <;> simp

end Sys2Proof.Machine
end

