-- ==== Sys2Proof/Laws/Sha.lean ====
section
/-! SUPPORT. How long what SHA-256 answers is. -/

namespace Sys2Proof.Machine

theorem shaRound_length (kw : RegWord) (x : List RegWord) : (shaRound kw x).length = x.length := by
  unfold shaRound; split <;> rfl

theorem shaRounds_length (sums x : List RegWord) : (sums.foldl (fun x kw => shaRound kw x) x).length = x.length := by
  induction sums generalizing x with
  | nil => rfl
  | cons kw rest ih => rw [List.foldl_cons, ih, shaRound_length]

theorem shaBlock_length (hash block : List RegWord) : (shaBlock hash block).length = hash.length := by
  simp [shaBlock, shaRounds_length]

theorem shaBlocks_length (n : Nat) (hash : List RegWord) (b : List Byte) : (shaBlocks n hash b).length = hash.length := by
  induction n generalizing hash b with
  | zero => rfl
  | succ n ih => rw [shaBlocks, ih, shaBlock_length]

set_option maxRecDepth 100000 in
theorem shaStart_length : shaStart.length = 8 := by decide +kernel

@[simp] theorem leBytes_length (n v : Nat) : (leBytes n v).length = n := by
  induction n generalizing v with
  | zero => rfl
  | succ n ih => simp [leBytes, ih]

@[simp] theorem bigBytes_length (n v : Nat) : (bigBytes n v).length = n := by simp [bigBytes]

/-- A hash is 32 bytes. -/
@[simp] theorem sha256_length (m : List Byte) : (sha256 m).length = 32 := by
  simp [sha256, List.length_flatMap, List.map_const', shaBlocks_length, shaStart_length]

/-- An authentication code is 32 bytes. -/
@[simp] theorem hmacSha256_length (key m : List Byte) : (hmacSha256 key m).length = 32 := sha256_length _

end Sys2Proof.Machine
end

