-- ==== Sys2Proof/WellFormed.lean ====
section
/-! DEFINITION. The commands whose operands fit the widths the spec gives them. The meanings are total and do not ask for it. -/

namespace Sys2Proof

/-- The header fields of a message fit their widths (R356): ids of 10 bits, a channel, a tag of 32 bits, an address of 52 bits in units of
64 bytes, and at most 256 bytes of payload. -/
def FabMsg.fits (f : FabMsg) : Bool :=
  decide (f.dst < 1024) && decide (f.src < 1024) && decide (f.vc < 2) && decide (f.tag < 2 ^ 32) && decide (f.addr < 2 ^ 52)
    && f.addr % 64 == 0 && decide (f.payload.length ≤ 256)

/-- A message of the Event class carries 32 bytes (R359). -/
def FabMsg.event (f : FabMsg) : Bool := f.fits && f.payload.length == 32

/-- An id that a device holds, wants or gets has 10 bits (R356). -/
def idFits (id : Option Nat) : Bool := id.all fun i => decide (i < 1024)

/-- An ASSIGN message carries an EUI of 64 bits and ids of 10 bits (R360). -/
def Assign.fits : Assign → Bool
  | .request eui held wanted => decide (eui < 2 ^ 64) && idFits held && idFits wanted
  | .grant eui id => decide (eui < 2 ^ 64) && idFits id

/-- A write names one of the `units` units of its block (R207). -/
def Src.names (units : Nat) : Src → Bool
  | .emitted => true
  | .written _ n _ => decide (n < units)

/-- The answer of the authentication chip has 40 bytes (R318). -/
def ChipReply.fits : ChipReply → Bool
  | .data bytes => bytes.length == 40
  | .error _ => true

/-- The operands of a command fit the widths that the spec gives them. -/
def Instr.wellFormed (i : Instr) : Bool :=
  match i with
  | .registerWrite _ _ size _ => size == 1 || size == 2 || size == 4 || size == 8
  | .statusW1c _ st _ => decide (st < 2 ^ 22) && st % 4 == 0
  | .bldStart src | .bldCoast src | .bldDuty src => src.names 24
  | .stpGoto src | .stpStop src => src.names 48
  | .praOn src | .praOff src | .praSet src | .praSync src | .praCap src => src.names 128
  | .pwrOn src | .pwrOff src => src.names 32
  | .seqSel src => src.names 4
  | .authResponse _ r => r.fits
  | .frameReceive _ frame _ headers => decide (frame < 4096) && decide (headers.length ≤ 8)
  | .replayRequest _ frame count => decide (frame < 4096) && decide (count ≤ 64)
  | .write _ f | .readReq _ f | .readData _ f | .readErr _ f => f.fits
  | .sheetEvent _ f | .lateError _ f | .journalAck _ f => f.event
  | .snoop _ f | .data _ f | .recallMsg _ f | .evict _ f | .pin _ f | .unpin _ f => f.fits
  | .retry _ f | .pinned _ f | .uncached _ f | .inEvict _ f | .notHeld _ f | .absent _ f => f.fits
  | .sync _ src _ sent acc => decide (src < 1024) && decide (sent < 2 ^ 67) && decide (acc < 2 ^ 67)
  | .hello _ eui verMin verMax held =>
    decide (eui < 2 ^ 64) && decide (verMin < 256) && decide (verMax < 256) && idFits held
  | .discover _ _ root => decide (root < 2 ^ 64)
  | .assign _ _ a => a.fits
  | .route _ routes => routes.all fun r => decide (r.1 < 1024)
  | _ => true

end Sys2Proof
end

