-- ==== Sys2Proof/Tests/Slice0.lean ====
section
/-! SUPPORT. Ill-formed commands that `Instr.wellFormed` refuses, states that meet the hypotheses of the statements, clause by clause, and a
few tests whose expected values are worked out from the spec by hand. -/

namespace Sys2Proof.Tests
open Sys2Proof Sys2Proof.Machine
set_option Elab.async false -- one theorem at a time: together they ask for more threads than the check allows

/-! ## States for the tests -/

/-- The reset state with the main PLL locked, N11 released once, every core running, in MORNING, at a Meridian of 100,000,000
and a clock of 120,000,000, an edge of the peripheral and of the always-on clock. -/
def up : State :=
  { ((State.reset.wr Reg.CLK_PLL_LOCKED 1).wr Reg.SYS_STATE_STATE stMorning).wr Reg.SYS_CORE_RUN_RUN 0xFFF with
    meridian := 100000000, clock := 120000000, released := true }

/-- `s` with values in fields of registers. -/
def regs (s : State) (l : List (Fld × Nat)) : State := l.foldl (fun s p => s.wr p.1 p.2) s

/-- A whole register as a field. -/
def word (off : Nat) : Fld := ⟨off, 0, 32⟩

/-- `up` with registers, in the device state `d`. -/
def inState (d : Nat) (l : List (Fld × Nat)) : State := regs (up.wr Reg.SYS_STATE_STATE d) l

/-- `up` with register `r` of core `n` holding `v`. -/
def withX (s : State) (n : Fin 12) (l : List (Fin 32 × Nat)) : State := l.foldl (fun s p => s.setX n p.1 (BitVec.ofNat 64 p.2)) s

/-- A command whose time has come. -/
def now (block op unit operand : Nat) (tag : Option (Nat × Nat) := none) : Cmd :=
  { block := block, unit := unit, op := op, operand := operand, time := 100000000, due := 100000000, irrev := false, tag := tag, issued := 0, core := 0 }

/-- `s` with one command pending. -/
def pends (s : State) (c : Cmd) : State := { s with pend := [c] }

/-- `s` with one resource granted. -/
def holds (s : State) (kind index func user : Nat) : State :=
  { s with pmx := { s.pmx with grants := s.pmx.grants ++ [{ kind := kind, index := index, func := func, user := user, entry := 0 }] } }

/-! ## Well-formed commands -/

def msg : FabMsg := { cls := 0, kind := 0, dst := 1023, src := 0, vc := 1, tag := 5, addr := 64, payload := List.replicate 64 7 }

theorem wellFormed_registerWrite : (Instr.registerWrite .jtag 0 3 0).wellFormed = false ∧ (Instr.registerWrite .jtag 0 8 0).wellFormed = true := by
  decide
theorem wellFormed_statusW1c : (Instr.statusW1c .jtag 0x400000 0).wellFormed = false ∧ (Instr.statusW1c .jtag 6 0).wellFormed = false ∧
    (Instr.statusW1c .jtag 0x3FFFFC 0).wellFormed = true := by decide
theorem wellFormed_channels : (Instr.bldStart (.written .jtag 24 0)).wellFormed = false ∧ (Instr.bldCoast (.written .jtag 24 0)).wellFormed = false ∧
    (Instr.bldDuty (.written .jtag 24 0)).wellFormed = false ∧ (Instr.stpGoto (.written .jtag 48 0)).wellFormed = false ∧
    (Instr.stpStop (.written .jtag 48 0)).wellFormed = false ∧ (Instr.praOn (.written .jtag 128 0)).wellFormed = false ∧
    (Instr.praOff (.written .jtag 128 0)).wellFormed = false ∧ (Instr.praSet (.written .jtag 128 0)).wellFormed = false ∧
    (Instr.praSync (.written .jtag 128 0)).wellFormed = false ∧ (Instr.praCap (.written .jtag 128 0)).wellFormed = false ∧
    (Instr.pwrOn (.written .jtag 32 0)).wellFormed = false ∧ (Instr.pwrOff (.written .jtag 32 0)).wellFormed = false ∧
    (Instr.seqSel (.written .jtag 4 0)).wellFormed = false ∧ (Instr.seqSel (.written .jtag 3 0)).wellFormed = true ∧
    (Instr.bldStart .emitted).wellFormed = true := by decide
theorem wellFormed_authResponse : (Instr.authResponse 0 (.data [1])).wellFormed = false ∧
    (Instr.authResponse 0 (.data (List.replicate 40 1))).wellFormed = true := by decide
theorem wellFormed_frames : (Instr.frameReceive 0 4096 true []).wellFormed = false ∧
    (Instr.frameReceive 0 1 true (List.replicate 9 0)).wellFormed = false ∧ (Instr.replayRequest 0 4096 1).wellFormed = false ∧
    (Instr.replayRequest 0 1 65).wellFormed = false ∧ (Instr.replayRequest 0 1 64).wellFormed = true := by decide
set_option maxRecDepth 4000 in
theorem wellFormed_header : ({ msg with dst := 1024 } : FabMsg).fits = false ∧ ({ msg with src := 1024 } : FabMsg).fits = false ∧
    ({ msg with vc := 2 } : FabMsg).fits = false ∧ ({ msg with tag := 2 ^ 32 } : FabMsg).fits = false ∧
    ({ msg with addr := 2 ^ 52 } : FabMsg).fits = false ∧ ({ msg with addr := 65 } : FabMsg).fits = false ∧
    ({ msg with payload := List.replicate 257 0 } : FabMsg).fits = false ∧ msg.fits = true := by decide
theorem wellFormed_messages : ∀ c ∈ [Instr.write 0, .readReq 0, .readData 0, .readErr 0, .snoop 0, .data 0, .recallMsg 0, .evict 0, .pin 0,
      .unpin 0, .retry 0, .pinned 0, .uncached 0, .inEvict 0, .notHeld 0, .absent 0],
    (c { msg with dst := 1024 }).wellFormed = false ∧ (c { msg with payload := [] }).wellFormed = true := by decide
theorem wellFormed_events : ∀ c ∈ [Instr.sheetEvent 0, .lateError 0, .journalAck 0],
    (c { msg with payload := [] }).wellFormed = false ∧ (c { msg with payload := List.replicate 32 0 }).wellFormed = true := by decide
theorem wellFormed_sync : (Instr.sync 0 1024 0 0 0).wellFormed = false ∧ (Instr.sync 0 0 0 (2 ^ 67) 0).wellFormed = false ∧
    (Instr.sync 0 0 0 0 (2 ^ 67)).wellFormed = false ∧ (Instr.sync 0 1023 0 0 0).wellFormed = true := by decide
theorem wellFormed_discovery : (Instr.hello 0 (2 ^ 64) 0 0 none).wellFormed = false ∧ (Instr.hello 0 0 256 0 none).wellFormed = false ∧
    (Instr.hello 0 0 0 256 none).wellFormed = false ∧ (Instr.hello 0 0 0 0 (some 1024)).wellFormed = false ∧
    (Instr.discover 0 0 (2 ^ 64)).wellFormed = false ∧ (Instr.assign 0 0 (.grant (2 ^ 64) none)).wellFormed = false ∧
    (Instr.assign 0 0 (.grant 0 (some 1024))).wellFormed = false ∧ (Instr.assign 0 0 (.request 0 (some 1024) none)).wellFormed = false ∧
    (Instr.assign 0 0 (.request 0 none (some 1024))).wellFormed = false ∧ (Instr.assign 0 0 (.request (2 ^ 64) none none)).wellFormed = false ∧
    (Instr.route 0 [(1024, 0)]).wellFormed = false ∧ (Instr.route 0 [(1023, 0)]).wellFormed = true := by decide

/-! ## Masters -/

/-- The test access port, core 11 in kernel mode, core 3 in user mode in its own block, and the host may write. -/
theorem witness_mayWrite : (∀ off ∈ [Reg.SYS_STATE_REQ, Reg.TIM_SLEW, Reg.BTM_LSI 0, Reg.PRA_L_SP 127], up.mayWrite .jtag off) ∧
    up.mayWrite (.core 11) Reg.PWR_CTRL ∧
    (up.updCore 3 fun c => { c with krn := false }).mayWrite (.core 3) (Reg.BTM_CTRL 1) ∧
    ({ up with hst := { up.hst with linkUp := true } } : State).mayWrite .host (Reg.HST_QP_CFG 63) := by
  simp only [State.mayWrite]; decide

/-- In every state in which the core clock runs, the test access port may write. -/
theorem jtag_mayWrite (s : State) (off : Nat) (h : s.coreClock = true) : s.mayWrite .jtag off := ⟨h, trivial⟩

/-! ## States that meet the hypotheses: the machine and Novdon -/

/-- `up` with every period's next time still to come. -/
def later : DueX :=
  { model := 240000000, diode := 240000000, cal := 240000000, alive := 240000000, mirror := 240000000, pmbus := 240000000, dump := 240000000,
    window := 240000000, sync := 240000000, delay := 240000000, evict := 240000000, hold := 240000000, lane := Vector.replicate 8 240000000 }
@[inherit_doc later] def quiet : State := { up with due := later }

/-- A dump that is not due does nothing, however it would end. -/
theorem dumpDue_early (s : State) (h : s.clock < s.due.dump) : s.dumpDue = s := by
  unfold State.dumpDue State.pmcDump; split <;> simp [h]

set_option maxRecDepth 100000 in
theorem witness_EmptyQueueTicks_due : quiet.runDue.alwaysOnDue.counting = true := by
  unfold State.runDue State.otherDue
  dsimp only
  rw [dumpDue_early _ (by decide +kernel)]
  decide +kernel

theorem witness_EmptyQueueTicks : let s : State := { up.wr Reg.TIM_SLEW_MODE 2 with slewRun := 1023 }
    up.pending = [] ∧ up.counting = true ∧ up.meridian + 2 < 2 ^ 64 ∧ State.reset.pending = [] ∧
    State.reset.alwaysOnDue.counting = false ∧ s.rd Reg.TIM_SLEW_MODE ≠ 0 ∧ 1023 ≤ s.slewRun ∧ up.slewRun < 1023 := by decide +kernel

/-- A core whose registers are not those of reset: its pc at the last instruction, x31 in use, a full sheet-event queue. -/
def busy : State := (withX up 11 [(31, 2 ^ 64 - 1)]).updCore 11 fun c =>
  { c with pc := 0xFFF8, epc := 0xFFFC, vbase := 255, shev := List.replicate 16 { tag := 63, seq := 1, outcome := 1, reason := 9 } }

theorem witness_StepKeepsSound : busy.Sound ∧ ∃ t, step busy = .next t := by
  refine ⟨⟨⟨by decide, by decide, by decide, by decide, by decide⟩, fun n => ⟨?_, ?_, ?_, ?_, ?_⟩⟩, ⟨_, rfl⟩⟩ <;> revert n <;> decide

theorem witness_issues : (∀ n : Fin 12, up.issues n ∧ (up.core n).pc + 4 < 0x10000 ∧ (up.core n).hdl = false) ∧
    busy.issues 11 ∧ (busy.core 11).pc + 4 < 0x10000 ∧ (busy.core 11).pc % 4 = 0 ∧ ¬((11 : Fin 12) = 11 ∧ busy.bootClear = true) := by
  simp only [State.issues]; decide

theorem witness_DivisionInstructions : (withX up 0 [(1, 2 ^ 63), (2, 2 ^ 64 - 1)]).issues 0 ∧
    (withX up 0 [(1, 2 ^ 63), (2, 2 ^ 64 - 1)]).getX 0 1 = BitVec.intMin 64 ∧
    (withX up 0 [(1, 2 ^ 63), (2, 2 ^ 64 - 1)]).getX 0 2 = BitVec.allOnes 64 ∧
    (withX up 0 [(1, 2 ^ 63), (2, 2 ^ 64 - 1)]).getX 0 2 ≠ 0 ∧ up.getX 0 2 = 0 := by
  simp only [State.issues]; decide

/-- Loads, stores and atomics that raise no exception, at the last word of the scratchpad alias, in Vale, a table bank and DRAM. -/
theorem witness_accesses : (∀ a ∈ [0x1FFF8, 0xE1FFFFF8, 0xE4000000, 0x4000000000], up.accessFault 0 .load a 8 = none ∧
      placeOf (localAddr 0 a) ≠ .control ∧ up.absentAt (localAddr 0 a) = false) ∧
    up.accessFault 0 .load 0xE20FFFF8 8 = none ∧ up.accessFault 0 .store 0x1FFFF 1 = none ∧ up.accessFault 0 .store 0x1FFFE 2 = none ∧
    up.accessFault 0 .store 0x1FFFC 4 = none ∧ up.accessFault 0 .store 0xE0000001 4 = none ∧
    (∀ a ∈ [0x1FFF8, 0xE0000000, 0x4000000000], up.accessFault 0 .amo a 8 = none ∧ up.absentAt (localAddr 0 a) = false) := by decide

theorem witness_ControlLoads : let s := withX up 5 [(1, 0xF03FFFFC), (2, 0xF0000001)]
    s.issues 5 ∧ (s.getX 5 1 + BitVec.ofInt 64 (0 : BitVec 16).toInt).toNat = 0xF0000000 + 0x3FFFFC ∧ 0x3FFFFC % 4 = 0 ∧
    (s.getX 5 2 + BitVec.ofInt 64 (0 : BitVec 16).toInt).toNat = 0xF0000000 + 1 ∧
    (∀ e ∈ (s.core 5).posted, e.1 / 0x10000 ≠ 0x3FFFFC / 0x10000) := by
  simp only [State.issues]; decide

theorem witness_Atomics : up.issues 0 ∧ (up.core 0).posted = [] ∧ (up.drainAll 0).coreLive 0 = true ∧
    let s := up.updCore 0 fun c => { c with posted := [(Reg.TIM_SLEW, 5)] }
    s.issues 0 ∧ (s.core 0).posted ≠ [] ∧ (s.drainAll 0).coreLive 0 = true := by
  simp only [State.issues]; decide

/-- Each `DETAIL` of R198 that an access can have, in kernel and in user mode. -/
theorem witness_AccessExceptions : let u := up.updCore 4 fun c => { c with krn := false }
    up.accessFault 4 .load 0x20000 8 = some 1 ∧ placeOf (localAddr 4 0x20000) = .unmapped ∧
    u.accessFault 4 .load 0x4000000000 8 = some 1 ∧ placeOf (localAddr 4 0x4000000000) = .dram ∧ (u.core 4).krn = false ∧
    up.accessFault 4 .load 0x4000000004 8 = some 4 ∧ (up.core 4).krn = true ∧ 0x4000000004 % 8 ≠ 0 ∧
    up.accessFault 4 .store 0x1FFFF 2 = some 4 ∧ up.accessFault 4 .load 0xE007FFFD 4 = some 5 ∧
    up.accessFault 4 .amo 0xF0000000 8 = some 8 ∧ placeOf (localAddr 4 0xF0000000) = .control ∧
    up.accessFault 4 .amo 0xE2000000 8 = some 8 ∧ placeOf (localAddr 4 0xE2000000) = .table ∧ up.accessFault 4 .amo 4 8 = some 4 ∧
    ({ up with badAt := [0xE0000000] } : State).accessFault 4 .load 0xE0000000 8 = some 6 := by decide

/-- Branch targets at the last instruction, below 0 and past the instruction RAM. -/
theorem witness_Branches : let s := (withX up 11 [(1, 5)]).updCore 11 fun c => { c with pc := 0xFFF8 }
    s.issues 11 ∧ (s.core 11).pc + 4 < 0x10000 ∧ (s.core 11).pc % 4 = 0 ∧ (s.core 11).hdl = false ∧ s.getX 11 1 ≠ s.getX 11 2 ∧
    ((s.core 11).pc : Int) + 4 * (1 : BitVec 16).toInt = 0xFFFC ∧ ((s.core 11).pc : Int) + 4 * (2 : BitVec 16).toInt = 0x10000 ∧
    ((up.core 11).pc : Int) + 4 * (BitVec.allOnes 16).toInt < 0 := by
  simp only [State.issues]; decide

theorem witness_Jumps : let s := withX up 11 [(1, 0xFFFC), (2, 0xFFFE), (3, 0x10000)]
    s.issues 11 ∧ (s.core 11).pc < 0x10000 ∧ (s.core 11).hdl = false ∧ (0 : Int) ≤ (s.core 11).pc + 4 * (0x3FFF : BitVec 26).toInt ∧
    ((s.core 11).pc : Int) + 4 * (0x3FFF : BitVec 26).toInt < 0x10000 ∧ (s.getX 11 1).toNat < 0x10000 ∧ (s.getX 11 1).toNat % 4 = 0 ∧
    (s.getX 11 2).toNat < 0x10000 ∧ (s.getX 11 2).toNat % 4 ≠ 0 ∧ 0x10000 ≤ (s.getX 11 3).toNat := by
  simp only [State.issues]; decide

theorem witness_TimeAndCounters : let u := (up.wr (word Reg.PMC_PERM) 0x800).updCore 11 fun c => { c with krn := false }
    let w := up.updCore 11 fun c => { c with krn := false }
    (up.core 11).krn = true ∧ u.issues 11 ∧ (u.core 11).krn = false ∧ bitAt (u.rdw Reg.PMC_PERM) 11 = true ∧
    w.issues 11 ∧ (w.core 11).krn = false ∧ bitAt (w.rdw Reg.PMC_PERM) 11 = false ∧ (w.core 11).hdl = false := by
  simp only [State.issues]; decide

theorem witness_CoreRegisters : let w := up.updCore 0 fun c => { c with krn := false }
    up.coreReg 0 0x017 ≠ none ∧ (up.core 0).krn = true ∧ w.issues 0 ∧ (w.core 0).krn = false ∧ (w.core 0).hdl = false ∧
    w.coreReg 0 0x00D ≠ none ∧ w.coreReg 0 0x001 ≠ none ∧ up.coreReg 0 0x018 = none ∧ up.coreReg 0 0xFFF = none := by
  simp only [State.issues]; decide

theorem witness_ExceptionsAndReturn : let w := up.updCore 3 fun c => { c with krn := false }
    let h := up.updCore 11 fun c => { c with hdl := true }
    (up.core 3).hdl = false ∧ (up.core 3).krn = true ∧ w.issues 3 ∧ (w.core 3).krn = false ∧ (w.core 3).hdl = false ∧
    h.issues 11 ∧ (h.core 11).hdl = true ∧ (h.core 11).pc < 0x10000 := by
  simp only [State.issues]; decide

theorem witness_SheetEventQueue : busy.issues 11 ∧ (busy.core 11).shev.length = 16 ∧ (up.core 11).shev.length < 16 ∧
    (busy.core 11).shev = { tag := 63, seq := 1, outcome := 1, reason := 9 } :: (busy.core 11).shev.tail ∧ 1 < 2 ^ 32 := by
  simp only [State.issues]; decide

/-- An input of each kind at the end of its range, a selector outside it, a time that has come and one that has not; cores that wait. -/
theorem witness_Waits : let s := withX up 2 [(1, 100000000), (2, 100000001)]
    let t := (up.updCore 2 fun c => { c with ien := 2 ^ 35, tcmp := 100000000 })
    s.issues 2 ∧ (s.getX 2 1).toNat ≤ s.meridian ∧ s.meridian < (s.getX 2 2).toNat ∧ sampleInput 0x3F00 = some (0, 63) ∧
    sampleInput 0x3F01 = some (1, 63) ∧ sampleInput 0x0F02 = some (2, 15) ∧ sampleInput 0x5F03 = some (3, 95) ∧
    sampleInput 0x0704 = some (4, 7) ∧ sampleInput 0x1002 = none ∧ sampleInput 5 = none ∧ up.enabledSource 2 = none ∧
    t.enabledSource 2 = some 35 ∧ (t.core 2).krn = true ∧
    (up.updCore 2 fun c => { c with wait := .waitt 3 100000000 99999998 }).coreLive 2 = true ∧
    (up.updCore 2 fun c => { c with wait := .sample 3 100000000 0x0704 }).coreLive 2 = true ∧
    (t.setWait 2 .wfi).coreLive 2 = true ∧ ((t.setWait 2 .wfi).core 2).tcmp ≠ 0 ∧
    ((t.setWait 2 .wfi).core 2).ien.testBit 35 = true := by
  simp only [State.issues]; decide

theorem witness_InterruptEntry : let s := up.updCore 0 fun c => { c with ie := true, doorbell := true, ien := 2 ^ 33 }
    (∀ w ∈ [Wait.emit true 3 1 2 false, .waitt 3 100000001 0, .waitt 3 0 99999999, .sample 3 100000001 0],
      (s.setWait 0 w).coreLive 0 = true ∧ ((s.setWait 0 w).core 0).wait = w ∧ (s.setWait 0 w).interruptDue 0 = some 33) ∧
    s.coreLive 0 = true ∧ (s.core 0).pc < 0x10000 ∧ (s.core 0).wait = .none ∧ s.interruptDue 0 = some 33 ∧
    s.enabledSource 0 = some 33 ∧ (up.core 0).ie = false ∧ (busy.updCore 11 fun c => { c with ien := 2 ^ 34 }).enabledSource 11 = some 34 := by
  decide

/-- Sheet entry 63 in each state that the verdict asks for. -/
theorem witness_EmitVerdicts : let s (st : Nat) := regs up [(Reg.PSQ_SH_STATE_STATE 63, st), (Reg.PSQ_SH_SEQ_SEQ 63, 7),
      (word (Reg.PSQ_SH_COL_LO 63), 50)]
    (s 2).shSeq 63 ≠ 8 ∧ (s 2).shSeq 63 = 7 ∧ 49 < (s 2).col 63 ∧ (s 2).col 63 ≤ 50 ∧ (s 2).sh 63 = shLaunched ∧
    (s 3).sh 63 = shCommitted ∧ 49 < (s 3).col 63 ∧ (s 3).col 63 ≤ 50 ∧ (s 5).sh 63 ≠ shLaunched ∧ (s 5).sh 63 ≠ shCommitted := by decide

set_option maxRecDepth 4000 in
/-- An EMIT in a region on sheet 63: sent, held, refused, discarded, and one that finds its block's queue full. -/
theorem witness_Emits : let s (st q col : Nat) := withX (regs up [(Reg.PSQ_SH_STATE_STATE 63, st), (Reg.PSQ_SH_SEQ_SEQ 63, q),
        (word (Reg.PSQ_SH_COL_LO 63), col)]) 9 [(1, 100000000), (2, 0x10014)]
    let r (s : State) := s.updCore 9 fun c => { c with region := some { tag := 63, seq := 7, joined := false } }
    let c (s : State) := s.emitCmd 9 true (s.getX 9 1).toNat (s.getX 9 2).toNat
    let u (s : State) := (s.acted rankEmit).beforeVerdict (c s)
    let v (s : State) := (u s).verdict true (c s).time (c s).tag
    let full (s : State) : State := { s with psq := { s.psq with hold := List.replicate 512 (now 20 1 0 0) } }
    (s 2 7 100000000).issues 9 ∧ (s 2 7 100000000).emitFault 9 0x10014 = none ∧ v (s 2 7 100000000) = 0 ∧
    ((s 2 7 100000000).core 9).region = none ∧ v (r (s 3 7 100000000)) = 0 ∧ v (r (s 2 7 100000001)) = 3 ∧ v (r (s 5 7 100000000)) = 2 ∧
    v (r (s 2 8 100000001)) = 4 ∧ v (withX (r (s 2 7 200000000)) 9 [(1, 200000000)]) = 1 ∧
    (u (s 2 7 0)).noRoom (c (s 2 7 0)) 0 = false ∧ (u (s 2 7 0)).holdFull = false ∧
    (u { s 2 7 0 with pend := List.replicate 64 (now 20 1 0 0) }).noRoom (c (s 2 7 0)) 0 = true ∧
    v (full (withX (r (s 2 7 200000000)) 9 [(1, 200000000)])) = 1 ∧ (u (full (s 2 7 0))).holdFull = true ∧
    (up.setWait 9 (.emit true 3 1 2 false)).coreLive 9 = true ∧ up.inTurn rankEmit = true := by
  simp only [State.issues]; decide

theorem witness_EmitExceptions : let s := withX up 9 [(1, 0x100000A), (2, 12), (3, 3), (4, 14)]
    let u := s.updCore 9 fun c => { c with krn := false }
    s.issues 9 ∧ (s.core 9).hdl = false ∧ (s.getX 9 1).toNat / 2 ^ 24 % 256 ≠ 0 ∧
    (s.getX 9 2).toNat % 256 ∉ [3, 10, 13, 14, 15, 16, 17, 18, 19, 20, 22, 23, 24, 25] ∧ u.issues 9 ∧ (u.core 9).krn = false ∧
    ownsBlock 9 3 = false ∧ (u.getX 9 3).toNat % 256 = 3 ∧ ownsBlock 9 14 = false ∧ (u.getX 9 4).toNat % 256 = 14 ∧ ownsBlock 1 24 = false ∧
    (2 ≤ (9 : Fin 12).val) := by
  simp only [State.issues]; decide

set_option maxRecDepth 10000 in
/-- A sheet entry whose launch checks pass, one for which they fail, one to join, and one that cannot be joined. -/
theorem witness_RegionInstructions : let s := withX (regs up [(Reg.PSQ_CTRL_EN, 1), (Reg.PSQ_SH_STATE_STATE 63, 1),
        (word (Reg.PSQ_SH_COL_LO 63), 103000000), (word (Reg.PSQ_SH_EXP_OFS 63), 1)]) 1 [(4, 63)]
    let a := s.acted (rankRegion + 1)
    let j := withX (regs up [(Reg.PSQ_SH_STATE_STATE 63, 3)]) 9 [(4, 63)]
    s.issues 1 ∧ (s.core 1).region = none ∧ (s.core 1).krn = true ∧ a.colsAct.launchCheck 63 = 0 ∧ a.colsAct.launchCheck 62 ≠ 0 ∧
    (s.getX 1 4).toNat % 64 = 63 ∧ j.issues 9 ∧ s.inTurn (rankRegion + 1) = true ∧ j.inTurn (rankRegion + 9) = true ∧
    ((j.acted (rankRegion + 9)).colAct 63).sh 63 = 3 ∧ ((j.acted (rankRegion + 9)).colAct 0).sh 0 = 0 := by
  simp only [State.issues]; decide

theorem witness_RegionExceptions : let s := up.updCore 2 fun c => { c with region := some { tag := 63, seq := 7, joined := false } }
    let u := up.updCore 2 fun c => { c with krn := false }
    s.issues 2 ∧ (s.core 2).region.isSome ∧ s.inTurn (rankRegion + 2) = true ∧ (s.core 2).hdl = false ∧ (s.core 2).krn = true ∧
    u.issues 2 ∧ (u.core 2).krn = false ∧ 2 ≤ (2 : Fin 12).val ∧ (u.core 2).hdl = false := by
  simp only [State.issues]; decide

theorem witness_CommitAndAbort : let s (st armed : Nat) := withX (regs up [(Reg.PSQ_SH_STATE_STATE 63, st), (Reg.PSQ_SH_STATE_ARMED 63, armed),
        (word (Reg.PSQ_SH_COL_LO 63), 200000000)]) 0 [(4, 63)]
    let u (s : State) := ((s.acted (rankRegion + 0)).colAct 63).closeRegion 0 63
    (s 2 0).issues 0 ∧ (s 2 0).inTurn (rankRegion + 0) = true ∧ ((s 2 0).core 0).krn = true ∧ ((s 2 0).getX 0 4).toNat % 64 = 63 ∧ (u (s 2 0)).sh 63 = 2 ∧
    (u (s 2 0)).rd (Reg.PSQ_SH_STATE_ARMED 63) = 0 ∧ (u (s 2 1)).rd (Reg.PSQ_SH_STATE_ARMED 63) ≠ 0 ∧
    (u (s 1 0)).sh 63 = 1 ∧ (u (s 3 0)).sh 63 = 3 ∧ (u (s 5 0)).sh 63 = 5 ∧ (u (s 0 0)).sh 63 = 0 ∧ (u (s 4 0)).sh 63 = 4 ∧
    (u (s 6 0)).sh 63 = 6 := by
  simp only [State.issues]; decide

/-! ## Pages for the tests -/

/-- The descriptor of a page of one band and one tile for station 7, at the start of frame 9, with the low byte of its CRC given. -/
def descCells (crc : Byte) : List Host.Cell := let f := frameAddr 9
  [(f, 0x47), (f + 1, 0x50), (f + 2, 0x59), (f + 4, 1), (f + 16, 64), (f + 20, 1), (f + 24, 0x80), (f + 28, crc), (f + 29, 175), (f + 30, 193), (f + 31, 164),
    (f + 0x121, 0x10), (f + 0x122, 0x40), (f + 0x129, 0x20), (f + 0x12A, 0x40), (f + 0x131, 0x30), (f + 0x132, 0x40)]

/-- Page 255 in state `st`, its check to do; extent 2 is in frame 9 with extent state `ext`, and memory holds `cells`. -/
def paged (st ext : Nat) (cells : List Host.Cell) : State :=
  let s := regs up [(Reg.PSQ_PG_STATE_STATE 255, st), (Reg.STR_PLN_CTRL_EN, 1), (Reg.STR_PLN_CTRL_NVME_EN, 1), (Reg.CDC_CTRL_EN, 1),
    (Reg.STR_PLN_MAP_HI_ADDR, 0x40), (Reg.STR_PLN_FRAME_FIRST_FRAME, 8), (Reg.STR_PLN_FRAME_COUNT_COUNT, 4), (Reg.PSQ_SPEED_MM_S, 1000),
    (Reg.PSQ_PG_ADDR_LO_ADDR 255, 2 * 2 ^ 21)]
  let s : State := { s with mem := [(274877906960, 9), (274877906962, 6), (274877906967, BitVec.ofNat 8 (128 + 16 * ext))] ++ cells }
  ({ s with plain := { s.plain with frames := [(9, 2)] } }).updPage 255 fun p => { p with checking := true }

/-! ## States that meet the hypotheses: registers, states, time, pages and sheets

A premise that a master may write is met by `jtag_mayWrite` in every state below. -/

theorem witness_RegisterWrites : let u := up.updCore 3 fun c => { c with krn := false }
    up.coreClock = true ∧ up.fusedReg 0x3FFFFC = false ∧ regExists 0x3FFFFC = false ∧ up.masterLive .jtag = true ∧ (0x400 : Nat) % 4 = 0 ∧
    0x400 + 1 < 2 ^ 22 ∧ 27 = 0x1BFFFF / 0x10000 ∧ ({ up with hst := { up.hst with linkUp := true } } : State).masterLive .host = true ∧
    Reg.PSQ_SPEED / 0x10000 ≠ 27 ∧ u.coreLive 3 = true ∧ u.ownRefused 3 Reg.PSQ_SPEED = true ∧ Reg.PSQ_SPEED % 4 = 0 ∧
    (u.core 3).pc < 0x10000 ∧ (u.core 3).hdl = false := by decide

theorem witness_WriteOwnership : let u := up.updCore 9 fun c => { c with krn := false }
    (up.core 9).krn = true ∧ (u.core 9).krn = false ∧ u.ownRefused 9 (Reg.BTM_CTRL 7) = false ∧ u.ownRefused 9 (Reg.BMK_S_TEST_CFG 6) = true := by
  decide

theorem witness_StatusSources : let e := up.wr (word (Reg.BTM_STATUS 7 + 4)) 0xFFFF
    Reg.SYS_STATUS ∈ statusRegsOf 0 ∧ Reg.BTM_STATUS 7 ∈ statusRegsOf 20 ∧ 5 ∈ [0, 1, 2, 3, 4, 5] ∧
    bitAt ((up.wr (word (Reg.BTM_STATUS 7)) 0x8000).rdw (Reg.BTM_STATUS 7)) 15 = true ∧ bitAt (up.rdw (Reg.BTM_STATUS 7)) 15 = false ∧
    up.srcs (Reg.BTM_STATUS 7) = 0 ∧ (up.wr (word (Reg.BTM_STATUS 7)) 1).srcs (Reg.BTM_STATUS 7) ≠ 0 ∧ e.blockFault 20 = false ∧
    (e.raise (Reg.BTM_STATUS 7) 7).blockFault 20 = true ∧ up.fusedReg (Reg.BTM_STATUS 7) = false ∧
    ((up.raise (Reg.BTM_STATUS 7) 1).srcs (Reg.BTM_STATUS 7) ≠ 0 ∧ (up.raise (Reg.BTM_STATUS 7) 1).firstNow (Reg.BTM_STATUS 7) = true ∧
      ({ up.raise (Reg.BTM_STATUS 7) 1 with clock := 120000024 } : State).firstNow (Reg.BTM_STATUS 7) = false) ∧
    (inState stEvening []).dev = stEvening := by decide

theorem witness_CoreRunAndDoorbell : let s := regs up [(Reg.SYS_CORE_RUN_RUN, 0x800), (Reg.SYS_BOOT_MAP_ROM, 1)]
    s.coreClock = true ∧ s.aon.fuse4 = false ∧ bitAt (s.rd Reg.SYS_CORE_RUN_RUN) 10 = false ∧ bitAt (s.rd Reg.SYS_CORE_RUN_RUN) 11 = true ∧
    s.rd Reg.SYS_BOOT_MAP_ROM = 1 := by decide

theorem witness_TimeRegisters : let s := regs up [(Reg.TIM_SLEW_MODE, 1), (Reg.TIM_SLEW_COUNT, 1), (Reg.TIM_CTRL_ALARM_EN, 1)]
    let p := up.updCore 11 fun c => { c with posted := [(Reg.SYS_STATE_REQ, 1)] }
    let r : State := { s with slewRun := 1023 }
    s.meridian + 2 < 2 ^ 64 ∧ (r.counting = true ∧ r.rd Reg.TIM_SLEW_MODE ≠ 0 ∧ 1023 ≤ r.slewRun) ∧ p.masterLive (.core 11) = true ∧ (∀ e ∈ (p.core 11).posted, e.1 / 0x10000 ≠ 1) ∧ s.counting = true ∧
    s.rd Reg.TIM_SLEW_MODE ≠ 0 ∧ s.rd Reg.TIM_SLEW_COUNT ≠ 0 ∧ (inState stDawn []).dev = stDawn ∧
    (inState stDawn []).meridian + (inState stDawn []).rdw Reg.TIM_STEP_LO + 0 < 2 ^ 64 ∧ up.dev ≠ stDawn ∧
    up.rd Reg.TIM_CTRL_ALARM_EN = 0 ∧ s.rd Reg.TIM_CTRL_ALARM_EN = 1 ∧ ({ s with alarmArmed := true } : State).alarmDue = true ∧
    s.dev ≠ stEvening := by decide

set_option maxRecDepth 10000 in
/-- Each transition of R33 granted and refused, and the ends of NOON and DUSK. -/
theorem witness_DeviceStateRequests : let dawn := inState stDawn [(Reg.SYS_STATE_DAWN_KIND, 3), (Reg.THM_STATE_TMAX, 25)]
    let sheet (d : Nat) := inState d [(Reg.PSQ_SH_STATE_STATE 63, shCommitted)]
    (up.refusal stNoon ≠ 0 ∧ up.refusal stDusk ≠ 0 ∧ up.refusal stMorning ≠ 0) ∧ (sheet stNoon).refusal stEvening ≠ 0 ∧
    (sheet stNoon).refusal stNight ≠ 0 ∧ dawn.refusal stMorning = 0 ∧ dawn.refusal stNight = 0 ∧ up.refusal stEvening = 0 ∧
    (inState stNoon []).refusal stDusk = 0 ∧ (sheet stDusk).refusal stNoon = 0 ∧ up.dev ≤ 5 ∧
    (State.reset.dev = stDawn ∧ State.reset.counting = false) ∧ (sheet stMorning).inFlight = true ∧ (sheet stDusk).duskCause = false ∧
    (inState stDusk [(Reg.THM_STATE_DUSK_CAUSE, 1)]).duskCause = true ∧
    ((inState stDusk []).inFlight = false ∧ (inState stNoon []).inFlight = false ∧ (inState stNoon []).pageBound = false) ∧
    (sheet stNoon).inFlight = true ∧ (inState stNoon [(Reg.PSQ_PG_STATE_STATE 255, pgBound)]).pageBound = true := by decide

theorem witness_ResetsAndWakes : let off : State := { up with aon := { up.aon with power := false, otpAutoDawn := false } }
    let on : State := { up with aon := { up.aon with otpAutoDawn := false, otpWakePhrase := 7 } }
    let night := on.wr Reg.SYS_STATE_STATE stNight
    (∀ e ∈ up.aon.otpRegs, e.1 ≠ Reg.SYS_STATE) ∧ off.aon.power = false ∧ off.aon.otpAutoDawn = false ∧ on.aon.power = true ∧ up.dev ≠ stNight ∧ up.coreClock = true ∧
    (8 : BitVec 32).toNat ≠ on.aon.otpWakePhrase ∧ (7 : BitVec 32).toNat = night.aon.otpWakePhrase ∧ night.dev = stNight ∧
    night.aon.holdUp = false ∧ ({ night with aon := { night.aon with holdUp := true } } : State).aon.holdUp = true ∧ on.dev ≠ stNight ∧
    ({ inState stEvening [] with hst := { up.hst with linkUp := true } } : State).dev = stEvening ∧ up.dev ≠ stEvening := by decide

/-- Timer 31, armed, granted to `user` for `func`, its window from 0 to `stop`, its period `period`. -/
def timed (func user stop period : Nat) : State :=
  let s := holds (regs up [(Reg.PMX_TMR_CTRL_ARMED 31, 1)]) 1 31 func user
  { s with pmx := { s.pmx with stop := s.pmx.stop.setIfInBounds 31 stop, period := s.pmx.period.setIfInBounds 31 period } }

/-- A window of user 63 with a rising edge at `e`. -/
def edged (e : Nat) : State := { timed 0 63 200000000 0 with
  sense := { up.sense with edge := up.sense.edge.setIfInBounds 63 e, rising := up.sense.rising.setIfInBounds 63 true } }

theorem witness_ClaimsAndTimers : let x : Claim := { cls := 0, kind := 1, index := 31, func := 0, user := 5, entry := 3 }
    (inState stNoon []).dev = stNoon ∧ up.dev ≠ stNoon ∧ up.dev ≠ stDusk ∧ ({ x with entry := 4 } : Claim).entry ≠ x.entry ∧
    x.cls < ({ x with cls := 1, entry := 2 } : Claim).cls ∧ ((timed 0 63 5 0).timerHolder 31).isSome = true ∧ up.timerHolder 31 = none ∧
    (∀ e ∈ [0, 199999999], ((edged e).timerHolder 31).map (fun g => (g.func, g.user)) = some (0, 63) ∧ (edged e).timerArmed 31 = true ∧
      (edged e).pmx.caught.toList.getD 31 false = false ∧ (edged e).timerTimes 31 = (0, 200000000, 0) ∧
      (edged e).sense.edge.toList.getD 63 0 = e ∧ (edged e).pmx.armedAt.toList.getD 31 0 ≤ e ∧
      (edged e).sense.rising.toList.getD 63 false ≠ (edged e).on (Reg.PMX_TMR_CTRL_POL 31)) ∧
    (timed 0 63 5 7).timerTimes 31 = (0, 5, 7) ∧ 5 ≤ (timed 0 63 5 7).meridian ∧
    ((timed 1 15 5 7).timerHolder 31).map (fun g => (g.func, g.user)) = some (1, 15) := by decide

set_option maxRecDepth 100000 in
/-- Page 255 in the states of its life, with a descriptor that is good, bad, missing and ABSENT. -/
theorem witness_PageTable : let pg (st : Nat) := paged st 2 []
    let w (s : State) : State := { s with plain := { s.plain with admission := some 255 } }
    (pg 0).pg 255 = pgFree ∧ (pg 1).pg 255 = pgSubmitted ∧ (pg 2).pg 255 = pgAdmitted ∧ (pg 4).pg 255 = pgBound ∧
    [pgPrinted, pgSuspect, pgWithdrawn].all (fun p => (pg p).pg 255 = p) ∧ (pg 1).rd Reg.STR_PLN_ADMIT_BUSY = 0 ∧
    (pg 1).rd Reg.STR_PLN_CTRL_EN = 1 ∧ (w (pg 1)).plain.admission = some 255 ∧ (pg 1).descOk 255 = false ∧ (pg 2).checkRuns 255 = true ∧
    (pg 4).checkRuns 255 = true ∧ (pg 4).inTurn rankCheck = true ∧ ((pg 4).acted rankCheck).checkRuns 255 = true := by decide +kernel

set_option maxRecDepth 100000 in
/-- The good descriptor names station 7, which is fused off. -/
theorem witness_PageTable_stations : let s : State := { paged 1 2 (descCells 220) with aon := { up.aon with fuse4 := true } }
    s.descOk 255 = true ∧ 7 ∈ s.pgStationList 255 ∧ s.stations ≤ 7 := by decide +kernel

set_option maxRecDepth 100000 in
/-- A check that ends at an empty slot of the page, one that has no station to check, and one that cannot read. -/
theorem witness_PageTable_checks : (((paged 2 2 (descCells 220)).acted rankCheck).checkPage 255).stop = some (.mismatch 7 0 0 0) ∧
    ((paged 4 2 []).checkPage 255).stop = none ∧ ((paged 2 2 []).checkPage 255).stop = none ∧
    (((paged 2 1 []).acted rankCheck).checkPage 255).stop = some (.readFailed 0x400000) := by decide +kernel

/-- Sheet entry 63 in state `st`, armed if `armed`, its page 255 in state `pg`, its Col at `col`, in NOON, with its preconditions met when
`pg` is VERIFIED. -/
def sheet (st armed pg col : Nat) : State :=
  (inState stNoon [(Reg.PSQ_SH_STATE_STATE 63, st), (Reg.PSQ_SH_STATE_ARMED 63, armed), (Reg.PSQ_PG_STATE_STATE 255, pg),
    (Reg.PSQ_SH_CTRL_PAGE 63, 255), (word (Reg.PSQ_SH_COL_LO 63), col), (word (Reg.PSQ_SH_SEQ 63), 17)]).updPage 255 fun p =>
      { p with pinned := true, speed := 5000 }

/-- `s` with pulses of the diverter and the spoil output. -/
def pulsing (s : State) (purges spoils : List Pulse) : State := { s with psq := { s.psq with purges := purges, spoils := spoils } }

set_option maxRecDepth 100000 in
theorem witness_SheetLife : let m := 100000000
    let web (s : State) := s.wr Reg.PSQ_CTRL_WEB 1
    let high : Pulse := { tag := 63, drive := some (1, m) }
    let lost (s : State) (c : Nat) : State := { s with psq := { s.psq with driveLost := some c } }
    ((sheet 0 0 2 0).sh 63 = shFree ∧ (sheet 0 0 2 0).pg 255 = pgAdmitted ∧ (sheet 0 0 3 0).pg 255 = pgVerified) ∧
    ((sheet 0 0 0 0).pg 255 ≠ pgAdmitted ∧ (sheet 0 0 0 0).pg 255 ≠ pgVerified) ∧
    ((sheet 1 0 4 0).sh 63 = shBound ∧ (sheet 6 0 4 0).sh 63 = shDone) ∧
    ((sheet 2 1 3 (m + 1)).sh 63 = shLaunched ∧ (sheet 2 1 3 (m + 1)).rd (Reg.PSQ_SH_STATE_ARMED 63) = 1 ∧
      (sheet 2 1 3 (m + 1)).meridian < (sheet 2 1 3 (m + 1)).col 63 ∧ (sheet 2 1 3 (m + 1)).precondition 63 = 0) ∧
    ((sheet 2 0 3 m).rd (Reg.PSQ_SH_STATE_ARMED 63) = 0 ∧ (sheet 2 1 3 m).col 63 ≤ (sheet 2 1 3 m).meridian ∧
      (sheet 2 1 0 (m + 1)).precondition 63 ≠ 0 ∧ (sheet 1 0 4 0).sh 63 ≠ shLaunched) ∧
    ((sheet 4 0 4 m).web = false ∧ (sheet 4 0 4 m).sh 63 = shAborted ∧
      pulseOf (pulsing (sheet 4 0 4 m) [{ tag := 63, drive := none }] []).psq.purges 63 = some { tag := 63, drive := none }) ∧
    (pulseOver (pulsing (sheet 4 0 4 m) [high] [high]).psq.purges 63 m = true ∧
      pulseOver (pulsing (sheet 4 0 4 m) [high] [high]).psq.spoils 63 m = true) ∧
    ((web (sheet 4 0 4 m)).web = true ∧ (web (sheet 4 0 4 m)).expEnd 63 ≤ m) ∧
    ((sheet 5 0 4 0).sh 63 = shSpoil ∧ (sheet 5 0 4 0).web = false ∧ ((sheet 5 0 4 0).sheetOf 63).lateSpoil = false ∧
      (sheet 5 0 4 0).exitTime 63 ≤ m ∧ pulseOf (sheet 5 0 4 0).psq.spoils 63 = none) ∧
    ((lost up 119999999).psq.driveLost = some 119999999 ∧ 119999999 < up.clock ∧ (lost up 120000000).psq.driveLost = some 120000000 ∧
      up.clock ≤ 120000000 ∧ up.psq.driveLost = none) ∧
    (sheet 2 1 3 (m + 1)).inTurn rankGrant = true ∧ ((sheet 2 1 3 (m + 1)).acted rankGrant).precondition 63 = 0 ∧
    ((sheet 2 1 0 (m + 1)).acted rankGrant).precondition 63 ≠ 0 := by
  decide +kernel

/-- A fill of band `band` with the bursts `todo`, of which `left` have not been consumed, over since `doneAt`. -/
def fill (todo : List Burst) (left : Nat) (doneAt : Option Nat) (band : Nat := 0) : Fill :=
  { band := band, pad := false, todo := todo, left := left, pass2 := true, tableBad := false, first := 0, count := 0, rawIndex := [],
    doneAt := doneAt }

/-- A queue entry for page 255 and sheet 63. -/
def entry (started : Bool) : StrEntry := { page := 255, tag := 63, seq := 17, time := 100000000, started := started }

/-- `s` with station 7's streamer holding a queue and a fill. -/
def streaming (s : State) (q : List StrEntry) (f : Option Fill) : State := s.updStr 7 fun x => { x with queue := q, fill := f }

set_option maxRecDepth 100000 in
theorem witness_GapsAndMismatches : let closed := sheet 2 0 4 200000000
    let open_ (s : State) (b : Bool) : State := { s with psq := { s.psq with gapOpen := b } }
    let run := (sheet 3 0 4 100000000).wr (word (Reg.PSQ_SH_END_OFS 63)) 1
    let tile (gone : Option Nat) : BadTile := { kind := 2, row := 1, col := 15, page := 255, tag := 63, goneAt := gone }
    let st (gone : Option Nat) : State := up.updStr 7 fun x => { x with bad := [tile gone] }
    let first (s : State) := (s.strOf 7).bad.find? fun t => t.col % 8 = 7 && t.goneAt.all fun c => c = s.clock
    ((open_ closed false).dev = stNoon ∧ (open_ closed false).gapOpen = true ∧ (open_ closed false).psq.gapOpen = false) ∧
    (run.gapOpen = false ∧ (open_ run true).psq.gapOpen = true ∧ (open_ run false).gapOpen = (open_ run false).psq.gapOpen) ∧
    (up.inTurn rankDecoder = true ∧ first (st none) = some (tile none) ∧ first (st (some 120000000)) = some (tile (some 120000000)) ∧
      first (st (some 119999999)) = none) ∧
    ((sheet 1 0 4 0).sh 63 = shBound ∧ (sheet 1 0 4 0).pg 255 = pgBound ∧ (sheet 3 0 4 0).sh 63 = shCommitted ∧
      (sheet 5 0 4 0).sh 63 = shSpoil) := by decide +kernel

/-- A compression job of `lines` lines from Vale into extent 2. -/
def job (lines : Nat) : LaneJob :=
  { srcKind := 0, src := 0xE0000000, stride := 32, width := 1, firstBand := 0, lines := lines, slotBase := 0x401000, ovfBase := 0x402000,
    bandBase := 0x410000, index := 0, flushAt := none }

set_option maxRecDepth 100000 in
theorem witness_PageStoreAndLanes : let lane (j : LaneJob) (s : State) : State := { s with lanes := s.lanes.setIfInBounds 3 (some j) }
    let idle (s : State) : State := { s with plain := { s.plain with frames := [], waitingOn := [] } }
    let go (w : Nat) (s : State) := regs s [(Reg.CDC_L_SRC_STRIDE_BYTES 3, 32), (Reg.CDC_L_GEOM_WIDTH_TILES 3, w), (Reg.CDC_L_LINES_LINES 3, 64)]
    let cut : LaneJob := { job 64 with flushAt := some 1 }
    (idle up).plain.frames = [] ∧ (paged 0 1 []).rd Reg.STR_PLN_CTRL_EN = 1 ∧ extState ((paged 0 1 []).extEntry 2) = 1 ∧
    (paged 0 1 []).plain.waitingOn = [] ∧ extState ((paged 0 2 []).extEntry 2) ≠ 1 ∧ extState ((paged 0 4 []).extEntry 2) = 4 ∧
    ((paged 0 4 []).plain.evicting = [] ∧ (paged 0 4 []).plain.flushing = [] ∧ extPins ((paged 0 4 []).extEntry 2) = 0) ∧
    ((paged 0 1 []).nsRefused 2 = false ∧ (paged 0 4 []).nsRefused 2 = false ∧
      ({ paged 0 1 [] with aon := { up.aon with otherLba := [0] } } : State).nsRefused 2 = true) ∧
    (up.due.evict ≤ up.clock ∧ up.clock < quiet.due.evict ∧ up.dev ≠ stNight ∧ up.plain.evictRetry = []) ∧
    ((up.wr (Reg.CDC_L_STATUS_BUSY 3) 1).rd (Reg.CDC_L_STATUS_BUSY 3) ≠ 0 ∧ up.rd (Reg.CDC_L_STATUS_BUSY 3) = 0 ∧
      ((go 1 up).laneJob 3).valid = true ∧ ((go 0 up).laneJob 3).valid = false) ∧
    (up.laneRunning 3 = none ∧ (lane (job 64) (paged 0 2 [])).laneRunning 3 = some (job 64) ∧
      ((paged 0 2 []).laneWork 3 { job 64 with flushAt := some 0 } []).stop ≠ some .refused) ∧
    ((lane (job 0) (paged 0 2 [])).laneRunning 3 = some (job 0) ∧ ((paged 0 2 []).laneWork 3 (job 0) []).stop = none ∧
      (job 0).flushAt = none ∧ (job 0).lines < 8) ∧
    (let s : State := { lane cut (paged 0 2 []) with mem := [(274877906960, 9)] }
     s.laneRunning 3 = some cut ∧ (s.laneWork 3 cut []).stop = some .refused) := by decide +kernel

/-- A command of sheet 63 for PSQ. -/
def sheetCmd (op operand : Nat) : Cmd := now 10 op 0 operand (some (63, 17))

set_option maxRecDepth 100000 in
theorem witness_SheetCommands : let ev (st operand : Nat) := pends (sheet st 0 7 0) (sheetCmd 2 operand)
    let seen (n : Nat) (s : State) := regs s [(Reg.PSQ_SH_SEEN_FAB_COUNT 63, n), (Reg.PSQ_SH_SEEN_FAB01_ID0 63, 3), (Reg.PSQ_SH_SEEN_FAB01_ID1 63, 4),
      (Reg.PSQ_SH_SEEN_FAB23_ID2 63, 5), (Reg.PSQ_SH_SEEN_FAB23_ID3 63, 6)]
    let route (s : State) := regs s [(Reg.FAB_CTRL_EN, 1), (Reg.FAB_ID_VALID, 1), (Reg.FAB_ROUTE_PORT 7, 2), (Reg.FAB_P_STATE_STATE 2, 3)]
    let host (s : State) : State := { regs s [(Reg.HST_EVQ_CFG_SIZE, 2), (Reg.HST_EVQ_TAIL_TAIL, 1), (Reg.HST_EVQ_HEAD_HEAD, 1)] with
      hst := { up.hst with linkUp := true } }
    let due (s : State) (op operand : Nat) := s.dueCmd 10 = some (sheetCmd op operand)
    up.dueCmd 10 = none ∧ up.coreClock = true ∧
    (due (pends (sheet 3 0 7 0) (sheetCmd 1 4)) 1 4 ∧ due (pends (sheet 3 0 7 0) (sheetCmd 1 0)) 1 0 ∧ (sheet 3 0 7 0).shSeq 63 = 17 ∧
      (sheet 3 0 7 0).sh 63 = shCommitted ∧ (sheet 2 0 7 0).sh 63 ≠ shCommitted ∧ (sheet 2 0 7 0).sh 63 ≠ shSpoil) ∧
    ((holds up 0 208 0 0).ballGranted 208 0 = true ∧ up.ballGranted 208 0 = false ∧ (sheet 3 0 pgPrinting 0).pg 255 = pgPrinting ∧
      (sheet 3 0 pgWithdrawn 0).pg 255 ≠ pgPrinting) ∧
    (due (ev 2 3) 2 3 ∧ due (ev 1 0) 2 0 ∧ (sheet 1 0 7 0).sh 63 ≠ shLaunched) ∧
    ((0x55000000 % 4 = 0 ∧ 0x55000000 / 4 % 2 ^ 10 = 0 ∧ 0x55000000 / 2 ^ 22 % 4 = 0) ∧ due (ev 2 0x55000000) 2 0x55000000 ∧
      (ev 2 0x55000000).sh 63 = shLaunched) ∧
    ((host up).hst.linkUp = true ∧ (host up).rd Reg.HST_EVQ_CFG_SIZE = 2 ∧
      ((host up).rd Reg.HST_EVQ_TAIL_TAIL + 1) % 2 ≠ (host up).rd Reg.HST_EVQ_HEAD_HEAD) ∧
    (0x55000001 % 4 = 1 ∧ 0x55007002 % 4 = 2 ∧ 0x55007002 / 2 ^ 12 % 2 ^ 10 = 7 ∧ 0x55007002 / 4 % 2 ^ 10 = 0 ∧ 0x55007002 / 2 ^ 22 % 4 = 0) ∧
    (7 ∉ (seen 4 up).seenFab 63 ∧ ((seen 4 up).seenFab 63).length = 4 ∧ 7 ∉ (seen 3 up).seenFab 63 ∧ ((seen 3 up).seenFab 63).length < 4 ∧
      6 ∈ (seen 4 up).seenFab 63) ∧
    ((route up).fabRoute 7 = some 2 ∧ up.fabRoute 7 = none) := by decide +kernel

/-- Station 7's streamer, armed, with its data path on, page 255 bound to sheet 63, and the area 57 to 63 granted. -/
def streamer (q : List StrEntry) (f : Option Fill) : State :=
  let s := regs up [(Reg.STR_CTRL_EN, 1), (Reg.CDC_CTRL_EN, 1), (Reg.STR_S_STATE_ARMED 7, 1), (Reg.STR_S_CTRL_FIRST_BANK 7, 57),
    (Reg.PSQ_PG_STATE_STATE 255, pgBound), (Reg.PSQ_PG_STATE_SHEET 255, 63), (Reg.PSQ_SH_CTRL_STATIONS 63, 0x80), (Reg.STR_PLN_CTRL_EN, 1),
    (Reg.STR_PLN_MAP_HI_ADDR, 0x40), (Reg.PSQ_PG_ADDR_LO_ADDR 255, 2 * 2 ^ 21), (word Reg.PWR_LDRAIL0, 0), (word Reg.PWR_LDRAIL1, 0)]
  let s : State := { s with mem := (paged 0 2 (descCells 220)).mem }
  let s := s.updBtm 7 fun b => { b with inReset := false }
  streaming ((List.range 7).foldl (fun s i => holds s 2 (57 + i) 0 7) s) q f

set_option maxRecDepth 100000 in
theorem witness_Streamers : let s := streamer [] none
    let b : Burst := { kind := .table, addr := 0x401000, live := true }
    let f := fill [b] 1 none
    let at_ (t : Option Nat) (s : State) : State := s.updStr 7 fun x => { x with lastIssue := t }
    let fly (l : List Burst) (s : State) : State := s.updStr 7 fun x => { x with flight := l }
    let ringed (n : Nat) (s : State) : State := s.updStr 7 fun x => { x with ring := List.replicate n { burst := b, place := 0, failed := false } }
    s.rd (Reg.STR_S_STATE_ARMED 7) = 1 ∧ up.rd (Reg.STR_S_STATE_ARMED 7) = 0 ∧ (57 ≤ 57 ∧ s.areaGranted 7 = true ∧ 7 < s.stations ∧
      up.areaGranted 7 = false) ∧
    (s.rd Reg.STR_CTRL_EN = 1 ∧ s.fenced 7 = false ∧ (streamer [entry true] none).strOf 7 = { s.strOf 7 with queue := [entry true] } ∧
      s.pg 255 = pgBound ∧ s.rd (Reg.PSQ_PG_STATE_SHEET 255) = 63 ∧ bitAt (s.pgStations 255) 7 = true ∧
      bitAt (s.rd (Reg.PSQ_SH_CTRL_STATIONS 63)) 7 = true) ∧
    (let p := streamer [entry false] none
     (entry false).time ≤ p.meridian ∧ p.half 7 0 = 0 ∧ p.half 7 1 = 0 ∧ (p.strOf 7).fill = none ∧ p.rd Reg.CDC_CTRL_EN = 1) ∧
    ((streamer [entry true] none).fillDue 7 (entry true) = true ∧ (streamer [entry true] (some f)).fillDue 7 (entry true) = false) ∧
    (let p := (at_ (some (120000000 - 2268)) (fly (List.replicate 7 b) (ringed 74 (streamer [entry true] (some f))))).drain 7 0
     (p.strOf 7).fill = some f ∧ (p.strOf 7).lastIssue = some (120000000 - 2268) ∧ 120000000 - 2268 + 2268 ≤ p.clock ∧
        (p.strOf 7).flight.length < 8 ∧ (p.strOf 7).flight.length + (p.strOf 7).ring.length < 82) ∧
    (((at_ (some (120000000 - 2267)) s).drain 7 0).strOf 7).lastIssue = some (120000000 - 2267) ∧
    (((fly [b] s).strOf 7).flight = [b] ∧ b.live = true ∧ s.plainFails 0x401000 4096 ≠ some .missing ∧
      (paged 0 0 []).plainFails 0x401000 4096 = some .missing) ∧
    (let z (f : Fill) : Fill := (((streamer [entry true] (some f)).drain 7 82).strOf 7).fill.getD f
     fillEnded (z (fill [] 0 none)) = true ∧ fillEnded (z f) = false ∧ (z (fill [] 0 none)).doneAt = none) ∧
    (up.clock ≤ 120000000 ∧ 119999999 < up.clock) := by decide +kernel

set_option maxRecDepth 100000 in
theorem witness_DmaChannels : let s := paged 0 2 []
    let g (len : Nat) := regs s [(Reg.DMA_D_CTRL_SRC_KIND 15, 1), (Reg.DMA_D_CTRL_DST_KIND 15, 1), (word (Reg.DMA_D_SRC_LO 15), 0x400000),
      (word (Reg.DMA_D_DST_LO 15), 0x402000), (Reg.DMA_D_LEN_BYTES 15, len), (word (Reg.DMA_D_CTRL 15), 0x00000050)]
    let j : DmaJob := { mode := 0, srcKind := 2, dstKind := 2, src := 0xE0000000, dst := 0xE0000040, len := 64, fill := 0 }
    let run (up_ : Bool) (j : DmaJob) : State := { s with dma := s.dma.setIfInBounds 15 (some j), hst := { up.hst with linkUp := up_ } }
    let jobAt (c : Nat) : DmaJob := { j with done := 1, doneAt := some c }
    s.rd (Reg.DMA_D_STATUS_BUSY 15) = 0 ∧ (s.wr (Reg.DMA_D_STATUS_BUSY 15) 1).rd (Reg.DMA_D_STATUS_BUSY 15) ≠ 0 ∧
    (g 0).dmaCheck 15 ((g 0).dmaJob 15) ≠ 0 ∧ (g 64).dmaCheck 15 ((g 64).dmaJob 15) = 0 ∧
    (s.dmaRunning 15 = none ∧ (run true j).dmaRunning 15 = some j ∧ j.blocks = 1 ∧ (jobAt 5).blocks ≤ (jobAt 5).done ∧
      (jobAt 120000000).doneAt = some (run true (jobAt 120000000)).clock) ∧
    (((run true j).dmaReach 15 0).dmaRunning 15 = some j ∧ (((run true j).dmaReach 15 1).dmaRunning 15).any (fun i => i.blocks ≤ i.done) = true ∧
      ((run false j).dmaReach 15 1).dmaRunning 15 = none) ∧
    (((run true j).dmaBlock 15 j).stop = none ∧ ((run false j).dmaBlock 15 j).stop = some (.failed 4 false 2 0xE0000000) ∧
      ({ j with lost := true } : DmaJob).lost = true) ∧
    ((run true j).dmaFar j false = true ∧ 63 < j.len ∧ j.mode ≠ 3 ∧ j.done = 63 / 4096 ∧ (run true j).dmaFar j true = true ∧
      ((run true j).dmaPartial 15 j (63 / 64 * 64)).stop = none ∧ s.dmaFar { j with srcKind := 0 } false = false ∧
      (run true { j with mode := 3 }).fenceStop 15 { j with mode := 3 } = none ∧ (run true j).dmaFar { j with mode := 3 } false = true) := by
  decide +kernel

/-! ## States that meet the hypotheses: stations, motors, loops -/

/-- Station 7, enabled, with its balls granted, and more fields of registers. -/
def station (l : List (Fld × Nat)) : State :=
  holds (regs up ([(Reg.BTM_CTRL_EN 7, 1), (Reg.BTM_STATE_DLL_LOCK 7, 1), (Reg.BTM_STATE_SOS_OK 7, 1), (Reg.BTM_STATE_TBL_OK 7, 1)] ++ l)) 0 216 0 7

/-- Station 7 with its timing block and its head-room `f`. -/
def stationOf (l : List (Fld × Nat)) (f : BtmX → BtmX) : State := (station l).updBtm 7 f

/-- The tick at which the tests run, in taps. -/
def taps : Nat := 100000000 * 32

set_option maxRecDepth 100000 in
theorem witness_ScanTiming : let t := 100000000
    let s (f : BtmX → BtmX) := stationOf [] f
    let acq := stationOf [(Reg.BTM_STATE_ACQUIRE 7, 1)] fun b => { b with caps := 3 }
    let e : Exposure := { page := 5, tag := 9, seq := 0, effect := t, band := 0, begun := true }
    (station []).btmRuns 7 = true ∧ (station []).btmBalls 7 = true ∧
    ((station []).rd (Reg.BTM_STATE_ACQUIRE 7) = 0 ∧ ((station []).btmOf 7).open_ = none ∧
      let b := (s fun b => { b with sos := some (taps - 0xA55D5 * 32 + 0xBB8 * 32) }).btmOf 7
      b.sos = some (taps - 0xA55D5 * 32 + 0xBB8 * 32) ∧ (taps - 0xA55D5 * 32 + 0xBB8 * 32 + b.win.period * 32) / 32 - b.win.half ≤ t) ∧
    (let b := (s fun b => { b with sos := some taps }).btmOf 7
     b.open_ = none ∧ b.sos = some taps ∧ t < (taps + b.win.period * 32) / 32 - b.win.half) ∧
    (acq.rd (Reg.BTM_STATE_ACQUIRE 7) = 1 ∧ 3 ≤ (acq.btmOf 7).caps ∧ ((s fun b => { b with open_ := some (taps, t) }).btmOf 7).open_ = some (taps, t) ∧
      ((station []).btmOf 7).caps < 3) ∧
    (((s fun b => { b with open_ := some (taps, t - 1) }).btmOf 7).open_ = some (taps, t - 1) ∧
      ((station []).btmOf 7).misses + 1 < ((station []).btmOf 7).cur.missMax ∧
      ((s fun b => { b with misses := 15 }).btmOf 7).cur.missMax ≤ 15 + 1) ∧
    (((s fun b => { b with idxArm := some 3 }).btmOf 7).idxArm = some 3 ∧ 3 < ((station []).btmOf 7).app.facets ∧
      ((s fun b => { b with numbered := true }).btmOf 7).numbered = true) ∧
    (((s fun b => { b with imageEnd := some t }).btmOf 7).imageEnd = some t ∧ ((s fun b => { b with imageEnd := some (t + 1) }).btmOf 7).imageEnd = some (t + 1) ∧
      ((station []).btmOf 7).exp = none ∧ ((station []).btmOf 7).cal = none ∧
      ((s fun b => { b with exp := some e }).btmOf 7).exp = some e ∧ e.begun = true ∧ ((s fun b => { b with cal := some 3 }).btmOf 7).cal = some 3) ∧
    (let b := (s fun b => { b with eosUntil := some t, sos := some (taps - 2 ^ 32 + 32) }).btmOf 7
     b.eosUntil = some t ∧ b.sos = some (taps - 2 ^ 32 + 32) ∧ b.imageEnd = none ∧ taps - 2 ^ 32 + 32 ≤ taps + 31 ∧
       taps + 31 - (taps - 2 ^ 32 + 32) < 2 ^ 32 ∧ (station []).powerJob 7 = none) ∧
    (((s fun b => { b with eosUntil := some (t - 1) }).btmOf 7).eosUntil = some (t - 1) ∧ ((station []).btmOf 7).eosUntil = none) ∧
    ((station []).rd (Reg.BTM_STATE_DLL_LOCK 7) = 1 ∧ up.rd (Reg.BTM_STATE_DLL_LOCK 7) = 0) := by decide +kernel

set_option maxRecDepth 100000 in
theorem witness_ExposuresAndInterlock : let c (op : Nat) (tag : Option (Nat × Nat)) := now 20 op 0 255 tag
    let ready (s : State) := s.wr (Reg.BTM_STATE_READY 7) 1
    let s := streaming (pends (ready (station [])) (c 1 (some (63, 17)))) [entry true] none
    let clear : State := { stationOf [(word Reg.PWR_LDRAIL0, 0), (word Reg.PWR_LDRAIL1, 0)] fun b => { b with inReset := false } with
      lsi := { up.lsi with active := false } }
    let l (i0 i1 act : Bool) (h : Option Nat) : State := { up with lsi := { in0 := i0, in1 := i1, active := act, highSince := h } }
    (s.dueCmd 20 = some (c 1 (some (63, 17))) ∧ s.coreClock = true ∧ (s.strOf 7).queue = [entry true] ∧ (entry true).page = 255 % 256 ∧
      (entry true).tag = 63 ∧ s.rd (Reg.BTM_STATE_READY 7) = 1 ∧ (s.btmOf 7).exp = none) ∧
    ((pends up (c 1 none)).dueCmd 20 = some (c 1 none) ∧ (c 1 none).tag = none ∧ (c 1 none).unit = 0) ∧
    (∀ op ∈ [1, 2, 3], (pends up (now 20 op 1 255)).dueCmd 20 = some (now 20 op 1 255) ∧ (now 20 op 1 255).unit ≠ 0) ∧ (c 1 (some (63, 0))).tag = some (63, up.shSeq 63) ∧
    ((pends up (c 2 none)).dueCmd 20 = some (c 2 none) ∧ (inState stNoon []).gapOpen = true ∧
      ((sheet 3 0 4 100000000).wr (word (Reg.PSQ_SH_END_OFS 63)) 1).gapOpen = false) ∧
    ((pends up (c 3 none)).dueCmd 20 = some (c 3 none) ∧ ((stationOf [] fun b => { b with cal := some 0 }).btmOf 7).cal.isSome = true ∧
      (up.btmOf 7).cal = none ∧ (up.btmOf 7).calNext = false) ∧ up.dueCmd 20 = none ∧
    ((l true true true none).lsi.active = true ∧ (l true true false none).lsi.active = false ∧ (l true false true none).lsi.in0 ≠ (l true false true none).lsi.in1 ∧
      (l true true true none).lsi.in0 = (l true true true none).lsi.in1 ∧ (l false true true none).lsi.highSince = none ∧ (l false false true none).lsi.in1 = false) ∧
    (bitsOf 0x5A00 8 8 = 0x5A ∧ bitsOf 0x5B00 8 8 ≠ 0x5A ∧ (l true true true (some 117000000)).lsi.highSince = some 117000000 ∧ 117000000 + 3000000 ≤ up.clock ∧
      up.clock < 117000001 + 3000000) ∧
    (up.rd (Reg.BTM_STATE_READY 7) = 0 ∧ clear.fenced 7 = false ∧ clear.readyNow 7 = true) := by
  decide +kernel

set_option maxRecDepth 100000 in
theorem witness_BeamTestsAndPower : let s := { (stationOf [(Reg.BMK_S_TEST_CFG_MISS_LIMIT 7, 3), (Reg.BMK_S_PWR_CFG_TICKS 7, 100), (Reg.BMK_S_TEST_CFG_INTERVAL 7, 5),
        (word (Reg.BMK_S_TEST_MASK_HI 7), 0x80000000), (Reg.BMK_S_XOFS_TICKS 7 63, 5000)]
          fun b => { b with captured := true, sos := some 0, base := { b.base with start := 1000000 } }) with lsi := { up.lsi with active := false } }
    let y (f : BmkX → BmkX) (s : State) : State := s.updBmk 7 f
    let w : BeamTest := { beam := 63, opens := taps, closes := taps + 31 }
    let job : PowerJob := { cal := false, dark := false, beam := 5, avg := 0, delay := 0, ticks := 100 }
    let busy (cal : Bool) := y (fun b => { b with job := some { job with cal := cal } }) (s.wr (Reg.BMK_S_PWR_STATUS_BUSY 7) 1)
    let off := y (fun b => { b with due := false, test := none }) s
    7 < s.stations ∧ bitsOf 0x1FF 0 8 ≠ s.rd (Reg.BMK_S_TEST_CFG_INTERVAL 7) ∧
    (bitsOf 0x305 0 8 = s.rd (Reg.BMK_S_TEST_CFG_INTERVAL 7) ∧ (s.plainWrite (Reg.BMK_S_TEST_CFG 7) 0x305).rd (Reg.BMK_S_TEST_CFG_MISS_LIMIT 7) ≠ 0 ∧
      ∀ b ∈ List.range 64, (s.plainWrite (Reg.BMK_S_TEST_CFG 7) 0x305).dead 7 b = s.dead 7 b) ∧
    ((s.bmkOf 7).due = false ∧ ((y (fun b => { b with due := true }) s).bmkOf 7).due = true ∧ (off.nextBeam 7 (s.btmOf 7).cur.sosBeam).isSome = true ∧
      (regs off [(word (Reg.BMK_S_TEST_MASK_LO 7), 0), (word (Reg.BMK_S_TEST_MASK_HI 7), 0)]).nextBeam 7 (s.btmOf 7).cur.sosBeam = none) ∧
    (((y (fun b => { b with test := some w }) s).bmkOf 7).test = some w ∧ w.opens ≤ s.meridian * 32 + 31 ∧ s.meridian * 32 + 31 ≤ w.closes ∧
      s.btmBalls 7 = true ∧ w.beam < 64 ∧ s.rd (Reg.BMK_S_MISS_CONSEC 7 63) + 1 < s.rd (Reg.BMK_S_TEST_CFG_MISS_LIMIT 7)) ∧
    ((off.updBmk 7 fun b => { b with last := some 63 }).testSkipped 7 63 = false ∧ (stationOf [(Reg.BMK_S_TEST_CFG_MISS_LIMIT 7, 3)] id).testSkipped 7 63 = true) ∧
    ((busy true).rd (Reg.BMK_S_PWR_STATUS_BUSY 7) ≠ 0 ∧ s.rd (Reg.BMK_S_PWR_STATUS_BUSY 7) = 0 ∧ s.rd (Reg.BMK_S_PWR_CFG_TICKS 7) ≠ 0 ∧ s.lsi.active = false ∧
      s.rd (Reg.BTM_CTRL_EN 7) = 1 ∧ (s.plainWrite (Reg.BMK_S_PWR_CTRL 7) 1).rd (Reg.BMK_S_PWR_CTRL_SRC 7) = 0 ∧ (up.wr (Reg.BMK_S_PWR_CFG_TICKS 7) 0).rd (Reg.BMK_S_PWR_CFG_TICKS 7) = 0) ∧
    (((busy true).bmkOf 7).job = some { job with cal := true } ∧ ((busy true).bmkOf 7).values.length < 2 ^ job.avg ∧ ((busy true).bmkOf 7).facetDone = false ∧
      ((busy true).bmkOf 7).skipRun < 15 ∧ ((y (fun b => { b with skipRun := 15 }) (busy true)).bmkOf 7).skipRun = 15) ∧
    (let at_ (s : State) := s.updBtm 7 fun b => { b with eosAt := some 99999890, cal := some 0, sos := some 0, base := { b.base with start := 0 } }
     ((at_ (busy true)).powerEnd 7 { job with cal := true }).any (fun e => decide (e ≤ s.meridian)) = true ∧
       ((at_ (busy false)).powerEnd 7 job).any (fun e => decide (e ≤ s.meridian)) = true ∧
       ((at_ (busy false)).powerEnd 7 { job with ticks := 111 }).any (fun e => decide (s.meridian < e)) = true ∧
       (busy false).powerEnd 7 job = none ∧
       (at_ (busy false)).rd (Reg.BTM_STATE_ACQUIRE 7) = 0) ∧ (s.bmkOf 7).job = none ∧
    (((y (fun b => { b with values := [65535] }) (busy true)).bmkOf 7).values.length = 2 ^ job.avg) := by decide +kernel

/-- A due command for unit `unit` of block `block`. -/
abbrev dueFor (s : State) (block op unit operand : Nat) : Prop :=
  (pends s (now block op unit operand)).dueCmd block = some (now block op unit operand)

/-- BLDC channel 23 in state `st`, granted, with more fields and with `f` beside its registers. -/
def bldc (st : Nat) (l : List (Fld × Nat)) (f : BldX → BldX) : State :=
  (holds (regs up ((Reg.BLD_C_STATE_STATE 23, st) :: l)) 0 23 0 23).updBld 23 f

/-- A channel whose last crossing was at `at_`, in the first period of its sector. -/
def bldCrossed (at_ : Nat) (b : BldX) : BldX := { b with
  cross := some at_, sector := 50000, commLast := 99999000, pwmAt := up.clock - 5000, period := 5000, times := List.replicate 6 99700000 }

/-- Sector 2, with samples that are taken, and with samples that are skipped. -/
def bldFree : List (Fld × Nat) := [(Reg.BLD_C_BEMF_BLANK 23, 0), (Reg.BLD_C_BEMF_SAMPLE_MIN 23, 0), (Reg.BLD_C_STATE_SECTOR 23, 2)]
@[inherit_doc bldFree] def bldSkips : List (Fld × Nat) := [(Reg.BLD_C_BEMF_BLANK 23, 255), (Reg.BLD_C_STATE_SECTOR 23, 2)]

/-- The channel in RUN, in RAMP and in DETECT. -/
def running (l : List (Fld × Nat)) : State := bldc 5 l (bldCrossed 99950000)
@[inherit_doc running] def ramping (hz good : Nat) : State := bldc 4 [(Reg.BLD_C_STATE_SECTOR 23, 2)] fun b => { bldCrossed 50000000 b with
  good := good, since := 100000000, commLast := 50000000, prm := { b.prm with hoHz := hz, hoN := 2, f0 := 10, rate := 0 } }
@[inherit_doc running] def detecting (at_ : Option Nat) (quiet late : Nat) : State := bldc 2 [(Reg.BLD_C_CTRL_CATCH_EN 23, 1)] fun b => { b with
  cross := at_, crossSec := 1, since := 97000000, prm := { b.prm with quietMs := quiet, timeoutMs := late, hoHz := 0 } }

/-- Channel 23 is out of step (R232). -/
def outOfStep (s : State) : Bool := s.rd (Reg.BLD_C_BEMF_PRED_MAX 23) ≤ s.rd (Reg.BLD_C_STATE_PRED_RUN 23) ||
  ((s.bldOf 23).commAt.isNone && (s.bldOf 23).unseen && decide ((s.bldOf 23).commLast + 2 * (s.bldOf 23).sector ≤ s.meridian))

set_option maxRecDepth 100000 in
theorem witness_BldcChannels :
    (dueFor up 22 1 23 0 ∧ dueFor up 22 1 24 0 ∧ dueFor up 22 2 23 0 ∧ dueFor up 22 3 23 0 ∧ up.coreClock = true) ∧
    ((bldc 1 [] id).bl 23 = blCoast ∧ ((bldc 1 [] id).bldOf 23).faulted = false ∧ (bldc 1 [] id).ballGranted 23 0 = true ∧
      up.ballGranted 23 0 = false ∧ (bldc 5 [] id).bl 23 = blRun ∧ ((bldc 1 [] fun b => { b with faulted := true }).bldOf 23).faulted = true ∧
      blDetect ≤ (bldc 2 [] id).bl 23 ∧ (bldc 1 [] id).bl 23 < blDetect) ∧
    (up.rd (Reg.BLD_C_CTRL_DUTY_SRC 23) = 0 ∧ (up.wr (Reg.BLD_C_CTRL_DUTY_SRC 23) 1).rd (Reg.BLD_C_CTRL_DUTY_SRC 23) = 1) ∧
    (crossSector 0 true false = 2 ∧ crossSector 2 true false = 0 ∧ crossSector 0 false false = 5) := by
  decide +kernel

set_option maxRecDepth 100000 in
theorem witness_BldcChannels_run :
    ((running bldFree).bldSector 23 < 6 ∧ (running bldFree).bl 23 = blRun ∧ (running bldFree).rd (Reg.BLD_C_STATE_SECTOR 23) = crossSector 0 true false ∧
      outOfStep (running bldFree) = false ∧ (running bldFree).bldSampleDue 23 = true ∧ (running bldFree).bldBlind 23 = false ∧ ((running bldFree).bldOf 23).commAt = none ∧
      ((running bldFree).bldOf 23).cross = some 99950000 ∧ ((running bldFree).bldOf 23).times[5]? = some (100000000 - 300000)) ∧
    ((running bldSkips).bl 23 = blRun ∧ (running bldSkips).bldBlind 23 = true ∧ (running bldSkips).bldSampleDue 23 = true ∧ ((running bldSkips).bldOf 23).skips ≤ 0 ∧
      (running bldSkips).bldPrediction 23 99950000 ≤ 100000000) ∧
    (((detecting none 0 0).bldOf 23).cross = none ∧ (detecting (some (100000000 - 1)) 0 0).bl 23 = blDetect ∧ ((detecting (some (100000000 - 1)) 0 0).bldOf 23).cross = some (100000000 - 1) ∧
      ((detecting (some (100000000 - 1)) 0 0).bldOf 23).crossSec = (detecting none 0 0).nextSector 23 0 ∧ 2 = (detecting none 0 0).nextSector 23 1 ∧
      (detecting none 0 0).rd (Reg.BLD_C_CTRL_CATCH_EN 23) = 1 ∧ ((detecting none 0 0).bldOf 23).prm.hoHz * (6 * (100000000 - (100000000 - 1))) ≤ 3000000000) := by
  decide +kernel

set_option maxRecDepth 100000 in
theorem witness_BldcChannels_ramp :
    (let r := ramping 10 1
     r.bl 23 = blRamp ∧ (r.bldOf 23).cross = some 50000000 ∧ (r.bldOf 23).prm.hoHz * 3000000000 ≤ r.rampFreq 23 100000000 ∧
      3 * 9000000000000000000 ≤ 4 * (6 * (100000000 - 50000000) * r.rampFreq 23 100000000) ∧
      4 * (6 * (100000000 - 50000000) * r.rampFreq 23 100000000) ≤ 5 * 9000000000000000000 ∧ (r.bldOf 23).prm.hoN ≤ (r.bldOf 23).good + 1 ∧
      ((ramping 10 0).bldOf 23).good + 1 < (r.bldOf 23).prm.hoN ∧ (ramping 11 0).rampFreq 23 100000000 < ((ramping 11 0).bldOf 23).prm.hoHz * 3000000000 ∧
      9000000000000000000 ≤ 6 * (100000000 - (r.bldOf 23).commLast) * r.rampFreq 23 (r.bldOf 23).commLast ∧
      2 * ((ramping 5 0).bldOf 23).prm.hoHz * 3000000000 ≤ (ramping 5 0).rampFreq 23 100000000) := by
  decide +kernel

set_option maxRecDepth 100000 in
theorem witness_BldcChannels_ends :
    (let c := bldc 5 bldFree fun b => { bldCrossed 99950000 b with commAt := some 100000000 }
     (c.bldOf 23).commAt = some 100000000 ∧ outOfStep c = false) ∧
    (outOfStep (bldc 5 [(Reg.BLD_C_STATE_PRED_RUN 23, 255)] id) = true ∧
      outOfStep (bldc 5 bldFree fun b => { bldCrossed 99950000 b with unseen := true, commLast := 100000000 - 100000 }) = true) ∧
    (((bldc 5 [] fun b => { b with lost := true }).bldOf 23).lost = true ∧ ((bldc 5 [] fun b => { b with joined := true }).bldOf 23).joined = true) ∧
    (let q (s : State) := s.bldQuietSince 23 + (s.bldOf 23).prm.quietMs * 3000000
     let l (s : State) := ((s.bldOf 23).since) + (s.bldOf 23).prm.timeoutMs * 3000000
     q (detecting none 1 2) ≤ 100000000 ∧ 100000000 < q (detecting none 2 1) ∧ l (detecting none 2 1) ≤ 100000000 ∧ 100000000 < l (detecting none 2 2)) ∧
    (let a := bldc 3 [] fun b => { b with since := 100000000 - 3000000, prm := { b.prm with alignMs := 1 } }
     a.bl 23 = blAlign ∧ (a.bldOf 23).since + (a.bldOf 23).prm.alignMs * 3000000 ≤ 100000000) ∧
    ((bldc 1 [] id).bl 23 ≠ blOff ∧ (bldc 0 [] id).bl 23 = blOff) := by
  decide +kernel

/-- Stepper channel 47 in state `st`, granted, with legal parameters, with more fields and with `f` beside its registers. -/
def stepper (st : Nat) (l : List (Fld × Nat)) (f : StpX → StpX) : State :=
  (holds (regs up ([(Reg.STP_C_STATE_STATE 47, st), (Reg.STP_C_VSTART_SPEED 47, 1), (Reg.STP_C_V1_SPEED 47, 100), (Reg.STP_C_VMAX_SPEED 47, 4194303),
    (Reg.STP_C_VSTOP_SPEED 47, 1), (Reg.STP_C_ACC1_ACC 47, 1), (Reg.STP_C_ACC2_ACC 47, 1)] ++ l)) 0 71 0 47).updStp 47 f

set_option maxRecDepth 100000 in
theorem witness_StepperChannels : let p : StpParams := { vstart := 1, v1 := 100, vmax := 1000, vstop := 1, acc1 := 1000, acc2 := 500 }
    let q : StpMove := { prm := p, target := 100, back := false, speed := 1000000, way := 0, want := 8 }
    let mv (target : Nat) := stepper stpMoving [] fun x => { x with move := some { q with target := target } }
    let chop := stepper stpIdle [(Reg.STP_C_CTRL_CHOP_EN 47, 1), (Reg.STP_C_CTRL_ADAPT_EN 47, 1)] fun x =>
      { x with written := 5, cycles := #v[16, 15], above := #v[8, 9] }
    let z := stepper stpIdle [] id
    dueFor up 23 1 47 0xFFFFFFFF ∧ dueFor up 23 2 47 0x80000000 ∧ dueFor up 23 4 47 3 ∧ dueFor up 23 3 47 0 ∧ dueFor up 23 3 48 0 ∧ up.coreClock = true ∧
    ((stepper stpOff [] id).sp 47 = stpOff ∧ z.sp 47 = stpIdle ∧ (stepper stpFree [] id).sp 47 = stpFree ∧ (mv 100).sp 47 = stpMoving ∧
      z.ballGranted 71 0 = true ∧ up.ballGranted 71 0 = false) ∧
    (let r := z.stpParams 47
     r.vstart ≤ r.v1 ∧ r.v1 ≤ r.vmax ∧ r.vstop ≤ r.v1 ∧ 1 ≤ r.vstart ∧ 1 ≤ r.vstop ∧ 1 ≤ r.acc1 ∧ 1 ≤ r.acc2) ∧
    ((stepper stpIdle [(Reg.STP_C_VSTOP_SPEED 47, 101)] id).stpParams 47).v1 < 101 ∧
    (z.xact 47 = 0 ∧ (chop.stpOf 47).written < 2 ^ 32 ∧ (chop.stpOf 47).written ≠ chop.xact 47) ∧ (z.stpOf 47).move = none ∧
    (((mv 100).stpOf 47).move = some q ∧ (mv 100).xact 47 ≠ q.target ∧ (nextSpeed q 1).1 / 1000000 < 2 ^ 22 ∧ (nextSpeed q 3).1 / 1000000 < 2 ^ 22 ∧
      (mv 0).xact 47 = 0) ∧
    (chop.rd (Reg.STP_C_CTRL_CHOP_EN 47) = 1 ∧ z.rd (Reg.STP_C_CTRL_CHOP_EN 47) = 0 ∧ chop.rd (Reg.STP_C_CTRL_ADAPT_EN 47) = 1 ∧ 16 ≤ (chop.stpOf 47).cycles[0] ∧
      (-1920 : Int) ≤ (chop.wr Reg.THM_STATE_TMAX 0).tmax ∧ (chop.stpOf 47).cycles[1] < 16 ∧ 2 * (chop.stpOf 47).above[0] = (chop.stpOf 47).cycles[0] ∧ (chop.wr Reg.THM_STATE_TMAX 0xF87F).tmax < -1920) := by
  decide +kernel

/-- Channel 47 at rest under the chopper: its first winding drives and has driven long enough, its second decays. -/
def chopped (l : List (Fld × Nat)) : State := stepper stpIdle ([(Reg.STP_C_CTRL_CHOP_EN 47, 1), (Reg.STP_C_CTRL_ADAPT_EN 47, 1)] ++ l)
  fun x => { x with drive := #v[true, false] }

set_option maxRecDepth 100000 in
theorem witness_StepperChannels_times : let q : StpMove :=
      { prm := { vstart := 1, v1 := 100, vmax := 1000, vstop := 1, acc1 := 1000, acc2 := 500 }, target := 0, back := false, speed := 1000000, way := 0, want := 8 }
    let mv (target at_ : Nat) := stepper stpMoving [] fun x => { x with move := some { q with target := target }, nextAt := at_ }
    ((stepper stpIdle [] fun x => { x with faulted := true }).stpOf 47).faulted = true ∧ ((stepper stpIdle [] id).stpOf 47).faulted = false ∧
    (((mv 100 0).popCmd 23).stpComplete 47).sp 47 = stpMoving ∧ (((mv 0 0).popCmd 23).stpComplete 47).sp 47 = stpIdle ∧
    (((stepper stpFree [] id).popCmd 23).stpComplete 47).sp 47 = stpFree ∧
    ((mv 0 0).stpComplete 47).sp 47 = stpIdle ∧ ((mv 100 0).stpComplete 47).sp 47 = stpMoving ∧
    (((mv 100 120000000).stpOf 47).nextAt ≤ up.clock ∧ up.clock < ((mv 100 120000001).stpOf 47).nextAt) ∧
    (mv 100 0 |> fun s => (s.stpOf 47).before = none) ∧
    ((chopped []).stpChops 47 = true ∧ (stepper stpIdle [] id).stpChops 47 = false ∧ (stepper stpFree [] id).stpChops 47 = false) ∧
    ((chopped []).stpCrosses 47 0 65535 = true ∧ (chopped []).stpCrosses 47 0 0 = false ∧ (chopped []).stpCrosses 47 1 0 = true ∧
      (chopped []).stpCrosses 47 1 65535 = false ∧
      ((chopped []).updStp 47 fun x => { x with turnedAt := #v[120000000, 0] }).stpCrosses 47 0 65535 = false) ∧
    ((chopped []).stpOutput 47 0 0 = true ∧ (stepper stpFree [] id).stpOutput 47 0 0 = false ∧ (stepper stpFree [] id).sp 47 ≠ stpIdle ∧ (stepper stpFree [] id).sp 47 ≠ stpMoving) := by
  decide +kernel

/-- Loop slot 127 in state `st` in frame 10, its source encoder 15, with more fields and with `f` beside its registers. -/
def slot (st : Nat) (l : List (Fld × Nat)) (f : SlotX → SlotX) : State :=
  let s := (regs up ([(Reg.PRA_L_STATE_STATE 127, st), (Reg.PRA_CTRL_EN, 1), (Reg.PRA_L_SRC_KIND 127, 3), (Reg.PRA_L_SRC_INDEX 127, 15),
    (Reg.PRA_L_RATE_DIV 127, 1)] ++ l)).updSlot 127 f
  { s with pra := { s.pra with frame := some 10 } }

set_option maxRecDepth 100000 in
theorem witness_PrairieLoops : let run := slot prRun [] id
    let queued : State := { run with pra := { run.pra with queue := [(127, 5)] } }
    dueFor up 24 1 127 0 ∧ dueFor up 24 2 127 0 ∧ dueFor up 24 3 127 5 ∧ dueFor up 24 4 127 0 ∧ dueFor up 24 5 127 65535 ∧ dueFor up 24 1 128 0 ∧
    run.rd (Reg.PRA_L_STATE_LOCKED 127) = 0 ∧ up.pra.frame = none ∧ run.pra.frame = some 10 ∧ run.periphClock = true ∧
    (run.pr 127 ≠ prOff ∧ (run.slotOf 127).sampled ≠ some 10 ∧ run.praDue 127 10 = true ∧ run.praValid 127 = true ∧ run.pr 127 ≠ prHold) ∧
    ((slot prRun [(Reg.PRA_L_SRC_INDEX 127, 16)] id).praValid 127 = false ∧ (slot prHold [] id).pr 127 = prHold ∧ (slot prOff [] id).pr 127 = prOff) ∧
    ((run.slotOf 127).hist = [] ∧ run.praDepth 127 ≤ 1 ∧ 1 < (slot prRun [(Reg.PRA_L_CTRL_FILT 127, 4)] id).praDepth 127) ∧
    queued.pra.queue = [((127 : Fin 128).val, 5)] ∧
    ((slot prOff [] id).rd Reg.PRA_CTRL_EN = 1 ∧ (slot prOff [] id).rd (Reg.PRA_L_SRC_KIND 127) ≤ 4 ∧
      4 < (slot prOff [(Reg.PRA_L_SRC_KIND 127, 5)] id).rd (Reg.PRA_L_SRC_KIND 127)) ∧
    ((inState stNoon []).dev ≠ stDawn ∧ (inState stNoon []).dev ≠ stMorning ∧ up.dev = stMorning ∧
      (∀ j : Fin 128, j ≠ 127 → (slot prRun [] id).rd (Reg.PRA_L_SWAP_PENDING j) = 0) ∧ run.pr 0 = prOff) := by
  decide +kernel

set_option maxRecDepth 100000 in
theorem witness_PrairieLoops_times : let run := slot prRun [(Reg.PRA_L_SRC_AT 127, 39)] id
    let frame (at_ : Nat) : State := { run with pra := { run.pra with frameAt := at_ } }
    let unit (q : List (Nat × Nat)) (free : Nat) (r : Option LoopRun) : State := { run with pra := { run.pra with queue := q, freeAt := free, run := r } }
    let busy (stop : Nat) : LoopRun := { slot := 127, from_ := 119999760, stop := stop, res := run.loop 127 }
    ((frame 119988000).framePhase = 12000 ∧ (frame 119988001).framePhase < 12000 ∧ (frame 119988300).praInstant 127 ≤ (frame 119988300).framePhase ∧
      (frame 119988301).framePhase < (frame 119988301).praInstant 127) ∧
    (let z (s : State) := forUpTo 4 { s with pra := { s.pra with conv := Vector.replicate 4 40 } } State.adcDue
     (z run).praValid 127 = true ∧ (z (slot prRun [(Reg.PRA_L_SRC_INDEX 127, 16)] id)).praValid 127 = false) ∧
    (max 119999988 (unit [(127, 119999988)] 0 none).pra.freeAt + 12 ≤ up.clock ∧ max 5 (unit [(127, 5)] 119999988 none).pra.freeAt + 12 ≤ up.clock ∧
      (unit [(127, 5)] 0 none).pra.run = none) ∧
    ((busy 120000000).stop ≤ up.clock ∧ up.clock < (busy 120000001).stop ∧ (busy 120000000).slot = 127) ∧
    ((unit [] 0 (some (busy 0))).praComputes 127 = true ∧ run.praComputes 127 = false) ∧
    ((slot prRun [(Reg.PRA_L_STATE_LOCKED 127, 1)] id).rd (Reg.PRA_L_STATE_LOCKED 127) = 1 ∧ run.gapOpening.pr 127 ≠ prOff) ∧
    (∀ n : Fin 128, ((pends run (now 24 1 n 0)).popCmd 24).gapOpening.pr 127 = prRun) := by
  decide +kernel

set_option maxRecDepth 100000 in
theorem witness_ConversionsAndSensors : let s (word0 : Nat) : State := holds (slot 0 [(Reg.ADC_CTRL_EN, 1), (Reg.ADC_A_SEQ_W 3 1 0 |> fun r => word r, word0)] id) 0 (265 + 63) 0 0
    let ask (b : Nat) (s : State) : State := { s with pra := { s.pra with ask := s.pra.ask.set 3 (some b) } }
    let live (s : State) := s.wr (Reg.ADC_A_CTRL_LIVE 3) 1
    (s 0xBF).pra.frame = some 10 ∧ (s 0xBF).periphClock = true ∧
    ((live (s 0xBF)).rd Reg.ADC_CTRL_EN = 1 ∧ (live (s 0xBF)).adcInput 3 ((live (s 0xBF)).rd (Reg.ADC_A_CTRL_LIVE 3)) 0 = some 63 ∧ (s 0).adcBall 63 = true ∧
      up.adcBall 63 = false ∧ up.rd Reg.ADC_CTRL_EN = 0) ∧
    (dueFor up 25 1 95 1 ∧ dueFor up 25 1 96 0 ∧ (ask 1 (s 0xBF)).pra.ask[3] = some 1) ∧
    ((∀ j ∈ List.range 40, ∀ y ∈ ((s 0xBF).adcInput 3 1 j).toList, y % 4 = 3) ∧ (s 0xBE).adcInput 3 1 0 = some 62 ∧ 62 % 4 ≠ 3) ∧
    ((holds up 0 183 0 0).ballGranted (120 + 63) 0 = true ∧ up.sense.level[63] ≠ true ∧ (holds up 0 199 0 0).ballGranted (184 + 15) 0 = true ∧
      up.ballGranted (184 + 15) 0 = false) ∧
    (let turn (conv at_ : Nat) : State := { (s 0xBF) with pra := { (s 0xBF).pra with conv := (s 0xBF).pra.conv.set 3 conv, frameAt := at_ } }
     (turn 0 119999700).pra.conv[3] = 0 ∧ 300 * (0 + 1) ≤ (turn 0 119999700).framePhase ∧ (turn 39 119988000).pra.conv[3] = 39 ∧
     300 * (39 + 1) ≤ (turn 39 119988000).framePhase ∧ (turn 0 119999701).framePhase < 300 * (0 + 1) ∧ (turn 1 0).pra.conv[3] ≠ 0 ∧
     12000 ≤ (s 0xBF).framePhase) ∧
    (up.periphEdge = true ∧ ({ up with clock := 120000001 } : State).periphEdge = false ∧ (holds up 0 183 0 0).ballLive (120 + 63) 0 = true ∧
      (holds up 0 199 0 0).ballLive (184 + 15) 0 = true ∧ up.ballLive (184 + 15) 0 = false) := by
  decide +kernel

/-! ## States that meet the hypotheses: supplies, clocks, the thermal model, calibration, consumables -/

/-- Supplies in phase `ph` with step 31 naming rail 11, all rails high and good, and more fields. -/
def supplies (ph : Nat) (l : List (Fld × Nat)) (f : PwrX → PwrX) : State :=
  let s := regs up ([(Reg.PWR_SEQ_STATE_PHASE, ph), (Reg.PWR_SEQ_STATE_STEP, 31), (Reg.PWR_SEQ_USED 31, 1), (Reg.PWR_SEQ_RAIL 31, 11),
    (Reg.PWR_CTRL_EN, 1), (Reg.PWR_EN_STATE_EN, 0xFFFFFFFF), (Reg.PWR_GOOD_GOOD, 0xFFFFFFFF), (word Reg.PWR_LDRAIL0, 0), (word Reg.PWR_LDRAIL1, 0)] ++ l)
  { s with pwr := f s.pwr, btm := s.btm.map fun b => { b with inReset := false },
           str := s.str.map fun x => { x with fenced := false } }

/-- Rail 11 supervised, its last code `code` outside its window for `run` scans, and `retry`. -/
def rail (code run : Nat) (retry : Retry) (tries : Nat) (l : List (Fld × Nat)) : State :=
  (supplies phIdle ([(Reg.PWR_R_SCAN_UV_CODE 11, 100), (Reg.PWR_R_SCAN_OV_CODE 11, 1000), (Reg.PWR_R_CFG_SCAN_EN 11, 1), (Reg.PWR_R_CFG_RETRY_MAX 11, 3)] ++ l) id).updRail 11
    fun x => { x with sup := true, code := code, run := run, retry := retry, tries := tries }

set_option maxRecDepth 100000 in
theorem witness_Supplies : let s := supplies phUp [] id
    let w := supplies phUp [(Reg.PWR_GOOD_GOOD, 0)] fun x => { x with wait := true }
    let dn := supplies phDown [] fun x => { x with begun := true }
    let r := rail 1001 1 .none 0 []
    s.pwr.reset = false ∧ s.released = true ∧ s.stepRail = 11 ∧
    (s.phase = phUp ∧ s.pwr.wait = false ∧ s.railGood 11 = true ∧ (supplies phUp [(Reg.PWR_GOOD_GOOD, 0)] id).railGood 11 = false ∧
      (stepsAbove (s.rd Reg.PWR_SEQ_STATE_STEP)).find? s.inSequence = none ∧
      (stepsAbove ((supplies phUp [(Reg.PWR_SEQ_STATE_STEP, 0)] id).rd Reg.PWR_SEQ_STATE_STEP)).find? (supplies phUp [] id).inSequence = some 31) ∧
    (w.pwr.wait = true ∧ w.enHigh 11 = true ∧ w.railGood 11 = false ∧ (supplies phUp [(Reg.PWR_EN_STATE_EN, 0)] id).enHigh 11 = false) ∧
    (dn.phase = phDown ∧ dn.pwr.begun = true ∧ (stepsBelow (dn.rd Reg.PWR_SEQ_STATE_STEP)).find? dn.inSequence = none ∧
      (stepsBelow ((supplies phDown [(Reg.PWR_SEQ_USED 0, 1)] id).rd Reg.PWR_SEQ_STATE_STEP)).find? (supplies phDown [(Reg.PWR_SEQ_USED 0, 1)] id).inSequence = some 0) ∧
    (r.aon.holdUp = false ∧ r.enHigh 11 = true ∧ (r.railOf 11).sup = true ∧ (∀ n : Fin 4, (rail 99 1 .none 0 [(Reg.PWR_R_CFG_REACT 11, n)]).rd (Reg.PWR_R_CFG_REACT 11) = n) ∧
      r.rd (Reg.PWR_R_CFG_SCAN_EN 11) = 1 ∧ max 1 (r.rd (Reg.PWR_R_CFG_SCAN_N 11)) ≤ 16 ∧ r.rd (Reg.PWR_R_SCAN_OV_CODE 11) < (r.railOf 11).code ∧
      ((rail 99 1 .none 0 []).railOf 11).code < r.rd (Reg.PWR_R_SCAN_UV_CODE 11) ∧ ((rail 0 0 .none 0 []).railOf 11).run < max 1 (r.rd (Reg.PWR_R_CFG_SCAN_N 11))) ∧
    (((rail 0 0 .off 0 []).railOf 11).retry = .off ∧ ((rail 0 0 .up 0 []).railOf 11).tries + 1 < max 1 (r.rd (Reg.PWR_R_CFG_RETRY_MAX 11)) ∧
      max 1 (r.rd (Reg.PWR_R_CFG_RETRY_MAX 11)) ≤ ((rail 0 0 .up 2 []).railOf 11).tries + 1) ∧
    (dueFor up 3 1 31 0 ∧ dueFor up 3 2 31 0 ∧ (regs up [(Reg.PWR_CTRL_EN, 1)]).rd (Reg.PWR_R_CFG_SW 31) = 0 ∧
      (regs up [(Reg.PWR_R_CFG_SW 31, 1)]).rd (Reg.PWR_R_CFG_SW 31) = 1) ∧
    (let at_ (d l : Nat) := supplies phUp [] fun x => { x with due := d, limit := l }
     let rt (d : Nat) : State := (rail 0 0 .up 0 []).updRail 11 fun x => { x with due := d }
     let job : XspJob := { client := .cell 15, writes := [] }
     let nvm (l : Nat) : State := { (supplies phDown [] fun x => { x with limit := l }) with xsp := { up.xsp with job := some job } }
     (at_ 120000000 0).pwr.due ≤ up.clock ∧ up.clock < (at_ 120000001 0).pwr.due ∧ (at_ 0 120000000).pwr.limit ≤ up.clock ∧
     up.clock < (at_ 0 120000001).pwr.limit ∧ ((rt 120000000).railOf 11).due ≤ up.clock ∧ up.clock < ((rt 120000001).railOf 11).due ∧
     up.xsp.job = none ∧ (nvm 0).pwr.limit ≤ up.clock ∧ (nvm 120000001).xsp.job ≠ none ∧ up.clock < (nvm 120000001).pwr.limit ∧
     (nvm 0).pwr.begun = false) := by decide +kernel

/-- A write that changes no register changes nothing. -/
theorem wr_same (s : State) (f : Fld) (v : Nat) (h : (s.wr f v).regs = s.regs) : s.wr f v = s := by
  have e : s.wr f v = { s with regs := (s.wr f v).regs } := rfl
  rw [e, h]

/-- An update of a streamer that changes nothing there changes nothing. -/
theorem updStr_same (s : State) (k : Nat) (f : StrX → StrX) (h : (s.updStr k f).str = s.str) : s.updStr k f = s := by
  have e : s.updStr k f = { s with str := (s.updStr k f).str } := rfl
  rw [e, h]

/-- What keeps station `k` as it is: not READY, not to become so, not fenced and not to be so, with `LSI_OK` as the interlock has it. -/
def stationStill (s : State) (k : Nat) : Prop :=
  s.on (Reg.BTM_STATE_READY k) = false ∧ s.readyNow k = false ∧ s.fenced k = false ∧
    (s.wr (Reg.BTM_STATE_LSI_OK k) (boolNat (decide (k < s.stations) && !s.lsi.active))).regs = s.regs ∧
    (s.wr (Reg.BTM_STATE_READY k) 0).regs = s.regs ∧ (s.updStr k fun x => { x with fenced := false }).str = s.str

theorem updStation_still (s : State) (k : Nat) (h : stationStill s k) : s.updStation k = s := by
  obtain ⟨a, b, c, d, e, g⟩ := h
  have f : s.fenceFollows k = s := by
    simp only [State.fenceFollows, c, Bool.false_eq_true, false_and, if_false]; exact updStr_same _ _ _ g
  simp only [State.updStation, f, a, b, wr_same _ _ _ d, show boolNat false = 0 from rfl, wr_same _ _ _ e, Bool.false_and, Bool.false_eq_true, if_false]

theorem updStations_still (s : State) (h : ∀ k : Fin 8, stationStill s k) : s.updStations = s := by
  have g (k : Nat) (hk : k < 8) : s.updStation k = s := updStation_still s k (h ⟨k, hk⟩)
  simp [State.updStations, forUpTo, List.range, List.range.loop, g]

set_option maxRecDepth 100000 in
/-- The stations follow nothing in the states that those premises of `Supplies` name. -/
theorem witness_Supplies_stations : let s := rail 1001 1 .none 0 []
    let l : State := (((s.wr Reg.PWR_EN_STATE_EN (bitPut (s.rd Reg.PWR_EN_STATE_EN) 11 false)).wr Reg.PWR_GOOD_GOOD
      (bitPut (s.rd Reg.PWR_GOOD_GOOD) 11 false)).updRail 11 fun x => { x with sup := false, run := 0, out := none })
    let g : State := (s.wr Reg.PWR_GOOD_GOOD (bitPut (s.rd Reg.PWR_GOOD_GOOD) 11 true)).updRail 11
      fun x => { x with sup := true, run := 0, retry := .none, tries := 0, out := none }
    let h : State := ((((s.inc (Reg.PWR_R_CNT_FAULT_COUNT 11)).snapshot 11 true true).railRaise 1 11).wr Reg.PWR_GOOD_GOOD (bitPut (s.rd Reg.PWR_GOOD_GOOD) 11 false)).updRail 11 fun x => { x with run := 0, out := some true }
    l.updStations = l ∧ g.updStations = g ∧ h.updStations = h := by
  refine ⟨updStations_still _ ?_, updStations_still _ ?_, updStations_still _ ?_⟩ <;> unfold stationStill <;> decide +kernel

set_option maxRecDepth 100000 in
theorem witness_Clocks : let d := inState stDawn [(Reg.CLK_PLL_LOCKED, 0)]
    let u := regs up [(Reg.PWR_SEQ_USED 31, 1)]
    let h (w : Bool) : State := { up with aon := { up.aon with holdUp := true, wakeAtEnd := w } }
    (d.dev = stDawn ∧ d.counting = false ∧ (d.wr Reg.PWR_SEQ_STATE_PHASE phUpDone).phase = phUpDone ∧ d.pwr.reset = false) ∧
    (up.counting = true ∧ up.dev ≠ stDawn ∧ up.dev ≠ stNight ∧ up.released = true ∧
      (List.range 32).reverse.find? (fun i => u.on (Reg.PWR_SEQ_USED i)) = some 31 ∧ (inState stNight []).dev = stNight) ∧
    ((inState stNoon []).dev ≠ stDawn ∧ (inState stNoon []).dev ≠ stMorning ∧ clockLegal 0x10006 = true ∧ clockLegal 0x10005 = false) ∧
    ((h false).aon.holdUp = true ∧ (h false).aon.wakeAtEnd = false ∧ up.aon.holdUp = false ∧ (h true).due.hold ≤ up.clock ∧
      up.clock < ({ up with due := { up.due with hold := 120000001 } } : State).due.hold) := by decide +kernel

/-- The model enabled and calibrated, each condition over 100 updates. -/
def warm (l : List (Fld × Nat)) : State := { regs up ([(Reg.THM_CTRL_EN, 1), (Reg.THM_STATE_CAL_DONE, 1)] ++ l) with
  thm := { up.thm with throtSet := 100, throtClr := 100, duskSet := 100, duskClr := 100, nvm := 100, night := 100 } }

/-- Zone temperatures with the highest in zone 15. -/
def zones (top : Nat) : Vector (BitVec 16) 16 := (Vector.replicate 16 0).set 15 (BitVec.ofNat 16 top)

set_option maxRecDepth 100000 in
theorem witness_ThermalCalibrationConsumables : let w := warm [(Reg.THM_STATE_NVM_OK, 1)]
    let cool := warm [(Reg.THM_STATE_THROTTLE, 1), (Reg.THM_STATE_DUSK_CAUSE, 1), (Reg.THM_STATE_NVM_OK, 0)]
    let max_ (v : Vector (BitVec 16) 16) : Int := v.toList.foldl (fun a z => max a z.toInt) (-32768)
    let dio : State := { regs up [(Reg.THM_PMEAS_POWER, 0)] with thm := { up.thm with cal := true } }
    let cal := regs up [(Reg.CAL_CTRL_EN, 1), (Reg.CAL_B_E_TARGET_VALID 0 63, 1), (Reg.CAL_B_E_TARGET_OFFSET 0 63, Reg.PRA_L_KP 127),
      (Reg.CAL_B_E_FIELD_LSB 0 63, 0), (Reg.CAL_B_E_FIELD_WIDTH_M1 0 63, 31), (Reg.CAL_B_E_TARGET_SIGNED 0 63, 1), (word (Reg.CAL_B_E_P 0 63 4), 0x80000000),
      (Reg.THM_STATE_TMAX, 8000), (Reg.CAL_B_E_TARGET_ZONE 0 63, 16)]
    let swap (l : List (Fld × Nat)) := regs up ((Reg.CAL_CTRL_NEXT, 1) :: l)
    (w.dev ≠ stNight ∧ w.counting = true ∧ w.rd Reg.THM_CTRL_EN = 1 ∧ w.rd Reg.THM_STATE_CAL_DONE = 1 ∧ w.jrn.waiting = [] ∧ State.reset.counting = false) ∧
    ((zones (127 * 64 - 1)).toList.all (fun z => decide (z.toInt < 127 * 64)) = true ∧ 121 * 64 ≤ max_ (zones (127 * 64 - 1)) ∧ max_ (zones (105 * 64)) ≤ 105 * 64 ∧
      0 ≤ max_ (zones 0) ∧ (zones (127 * 64)).toList.any (fun z => decide (127 * 64 ≤ z.toInt)) = true ∧ 105 * 64 < max_ (zones (105 * 64 + 1))) ∧
    (w.rd Reg.THM_STATE_THROTTLE = 0 ∧ w.rd Reg.THM_STATE_DUSK_CAUSE = 0 ∧ w.rd Reg.THM_STATE_NVM_OK = 1 ∧ cool.rd Reg.THM_STATE_THROTTLE = 1 ∧
      cool.rd Reg.THM_STATE_DUSK_CAUSE = 1 ∧ cool.rd Reg.THM_STATE_NVM_OK = 0 ∧ up.thm.throtSet < 100) ∧
    (dio.thm.cal = true ∧ dio.released = true ∧ ((200 : BitVec 16).toInt + (-122 : BitVec 16).toInt) % 2 = 0 ∧ dio.rd Reg.THM_PMEAS_POWER = 0 ∧ up.thm.cal = false ∧
      320 < ((200 : BitVec 16).toInt - (-122 : BitVec 16).toInt).natAbs) ∧
    (cal.dev = stMorning ∧ cal.rd Reg.CAL_CTRL_NEXT = cal.rd Reg.CAL_CTRL_LIVE ∧ cal.rd Reg.CAL_CTRL_EN = 1 ∧ cal.rd Reg.CAL_CTRL_LIVE = 0 ∧
      (∀ i : Fin 64, i ≠ 63 → cal.rd (Reg.CAL_B_E_TARGET_VALID 0 i) = 0) ∧ cal.rd (Reg.CAL_B_E_TARGET_VALID 0 63) = 1 ∧
      cal.rd (Reg.CAL_B_E_TARGET_OFFSET 0 63) = Reg.PRA_L_KP 127 ∧ cal.rd (Reg.CAL_B_E_FIELD_LSB 0 63) = 0 ∧ cal.rd (Reg.CAL_B_E_FIELD_WIDTH_M1 0 63) = 31 ∧
      cal.rd (Reg.CAL_B_E_TARGET_SIGNED 0 63) = 1 ∧ cal.calValue 0 63 = -(2 ^ 31) ∧ cal.zoneTemp (cal.rd (Reg.CAL_B_E_TARGET_ZONE 0 63)) = calTemp 4) ∧
    ((swap []).rd Reg.CAL_CTRL_NEXT ≠ (swap []).rd Reg.CAL_CTRL_LIVE ∧ (swap []).rd Reg.CAL_CTRL_EN = 0 ∧ (swap []).calCheckBank 1 = none ∧
      ((swap [(Reg.CAL_B_E_TARGET_VALID 1 63, 1)]).calCheckBank 1).isSome = true) ∧
    (let at_ (t : Nat) : State := { up with due := { up.due with model := t, diode := t, cal := t } }
     (at_ 120000000).due.model ≤ up.clock ∧ up.clock < (at_ 120000001).due.model ∧ (at_ 120000000).due.diode ≤ up.clock ∧
     up.clock < (at_ 120000001).due.diode ∧ (at_ 120000000).due.cal ≤ up.clock ∧ up.clock < (at_ 120000001).due.cal ∧
     (inState stNoon []).dev ≠ stDawn ∧ (inState stNoon []).dev ≠ stMorning ∧ 100 ≤ w.thm.night ∧ 100 ≤ cool.thm.throtClr) := by decide +kernel

set_option maxRecDepth 100000 in
theorem witness_CalChecksAndUnits : let chk (v a b : Nat) := (regs up [(word Reg.CAL_CHECK_A, a), (word Reg.CAL_CHECK_B, b), (Reg.CAL_CHECK_TOL_TOL, 5)]).plainWrite Reg.CAL_CHECK_CTRL v
    let unit (st p count : Nat) := regs up [(Reg.CSM_CTRL_EN, 1), (Reg.CSM_U_CFG_EN 15, 1), (Reg.CSM_U_STATE_STATE 15, st), (Reg.CSM_U_STATE_PENDING 15, p),
      (word (Reg.CSM_U_COUNT 15), count), (Reg.THM_STATE_NVM_OK, 1)]
    let f (s : State) : List Nat := [s.rd Reg.CAL_CHECK_CTRL_MODE, s.rd Reg.CAL_CHECK_CTRL_KIND, s.rd Reg.CAL_CHECK_CTRL_POINT]
    f (chk 64 0 0) = [0, 0, 4] ∧ f (chk 86 0 0) = [0, 3, 5] ∧ f (chk 4 0 0) = [0, 2, 0] ∧
    (((0 : Int) - 0).natAbs * 200 ≤ (0 : Int).natAbs ∧ (chk 1 0 0).rd Reg.CAL_CHECK_TOL_TOL = 5 ∧ ¬(((100 : Int) - 102).natAbs * 100 ≤ (100 : Int).natAbs)) ∧
    ((unit 0 0 0).rd Reg.CSM_CTRL_EN = 1 ∧ (unit 0 0 0).rd (Reg.CSM_U_CFG_EN 15) = 1 ∧ (unit 1 0 0).unitState 15 = 1 ∧ (unit 0 0 0).unitState 15 ≠ 1 ∧
      (unit 2 65535 0).unitState 15 = 2 ∧ (unit 2 65535 0).rd (Reg.CSM_U_STATE_PENDING 15) ≠ 0 ∧ (unit 2 0 0).rd Reg.THM_STATE_NVM_OK = 1 ∧
      (up.wr Reg.THM_STATE_NVM_OK 0).rd Reg.THM_STATE_NVM_OK = 0) ∧
    ((unit 2 1 0xFFFFFFFE).rdw (Reg.CSM_U_COUNT 15) + 1 < 2 ^ 32 ∧ (unit 2 1 0xFFFFFFFF).rdw (Reg.CSM_U_COUNT 15) + 1 = 2 ^ 32) ∧
    (let wrote (u : Nat) : State := { unit 2 1 0 with xsp := { up.xsp with job := some ((unit 2 1 0).cellJob u) } }
     let reply (t : Nat) : State := { unit 1 0 0 with csm := { up.csm with replyAt := Vector.replicate 16 t } }
     (wrote 15).xsp.job = some ((unit 2 1 0).cellJob 15) ∧ ((unit 2 1 0).cellJob 15).client = .cell 15 ∧ ((unit 2 1 0).cellJob 14).client ≠ .cell 15 ∧
     (wrote 15).xsp.first = false ∧ (unit 2 0 0).xsp.job = none ∧ (unit 2 0 0).xspNext = none ∧ (wrote 15).jrn.waiting = [] ∧
     (reply 120000000).csm.replyAt[15] ≤ up.clock ∧ up.clock < (reply 120000001).csm.replyAt[15]) := by decide +kernel

/-- A response with the right code exists for every unit and identity. -/
theorem witness_AuthResponse (s : State) (u : Nat) (uid : List Byte) (h : uid.length = 8) :
    ∃ b : List Byte, b.length = 40 ∧ b.drop 8 = s.expectedMac u (b.take 8) := by
  refine ⟨uid ++ s.expectedMac u uid, ?_, ?_⟩
  · rw [List.length_append, h]; simp [State.expectedMac]
  · rw [List.drop_left' h, List.take_left' h]

/-! ## States that meet the hypotheses: the host, the journal, the monitors and the fabric -/

/-- Queue pair 63, enabled, of four entries each, with the link up, the scan done, the journal and NVM open. -/
def host (l : List (Fld × Nat)) : State :=
  let s := regs up ([(Reg.HST_QP_CFG_EN 63, 1), (Reg.HST_QP_CFG_SQ_SIZE 63, 4), (Reg.HST_QP_CFG_CQ_SIZE 63, 4), (Reg.HST_QP_VER_VERSION 63, 0x13),
    (word (Reg.HST_QP_SQ_LO 63), 0x10000), (word (Reg.HST_QP_CQ_LO 63), 0x20000), (Reg.HST_QP_SQ_TAIL_TAIL 63, 2), (Reg.JRN_CTRL_EN, 1),
    (Reg.XSP_CTRL_EN, 1), (Reg.THM_STATE_NVM_OK, 1), (word Reg.JRN_NEXT_SEQ_LO, 5), (Reg.JRN_SIZE_LOG2_N, 12), (word Reg.JRN_BASE_A, 0x100000),
    (word Reg.JRN_BASE_B, 0x180000), (Reg.JRN_MATE_EN, 0)] ++ l)
  { s with hst := { s.hst with linkUp := true }, jrn := { s.jrn with scanned := true, ring := [], prescan := [], night := [], waiting := [] } }

/-- A journal entry. -/
def jentry : JrnEntry :=
  { seq := 4, kind := 1, flags := 0, time := 5, boot := 1, qp := 1, cmdId := 2, opcode := 3, reason := 0, job := 7, sheetSeq := 0, hostId := 9,
    args := 77, origin := 0 }

/-- `s` with the journal changed by `f`. -/
def journal (f : JrnX → JrnX) (s : State) : State := { s with jrn := f s.jrn }

set_option maxRecDepth 100000 in
theorem witness_HostLinkAndJournal : let s := host []
    let c : Cpl := { qp := 63, cmdId := 3, sqHead := 1, jseq := 4 }
    let ready : State := { s with hst := { s.hst with ready := [c] } }
    let boot := inState stDawn [(Reg.SYS_BOOT_MAP_ROM, 1)]
    let scan := journal (fun j => { j with scanned := false }) (regs (host []) [(Reg.SYS_STATE_STATE, stDawn)])
    let mate := journal (fun j => { j with unacked := [(120000000, jentry)] }) (regs s [(Reg.JRN_MATE_EN, 1)])
    (up.dev ≠ stNight ∧ (inState stNight []).dev = stNight ∧ up.hst.linkUp = false ∧ s.hst.linkUp = true) ∧
    (s.rd (Reg.HST_QP_CFG_EN 63) = 1 ∧ up.rd (Reg.HST_QP_CFG_EN 63) = 0 ∧ 0x10 ≤ s.rd (Reg.HST_QP_VER_VERSION 63) ∧
      s.rd (Reg.HST_QP_VER_VERSION 63) ≤ 0x13 ∧ s.sqBase 63 % 4096 = 0 ∧ s.cqBase 63 % 4096 = 0 ∧
      (withBit (0x10000002 : RegWord) 30 true).toNat % 2 ^ 13 = 2 ∧ (withBit (0x10000002 : RegWord) 30 true).toNat / 2 ^ 16 % 2 ^ 13 = 4096 ∧
      (withBit (0x10000001 : RegWord) 30 true).toNat % 2 ^ 13 = 1) ∧
    (s.hst.ready = [] ∧ ready.hst.ready = [c] ∧ c.qp = 63 ∧ (s.cqTailOf 63 + 1) % s.rd (Reg.HST_QP_CFG_CQ_SIZE 63) ≠ 0 % 2 ^ 12) ∧
    (s.rd Reg.XSP_CMD_BUSY = 0 ∧ (regs s [(Reg.XSP_CMD_BUSY, 1), (Reg.XSP_CMD_LEN, 255)]).rd Reg.XSP_CMD_BUSY = 1 ∧ s.xsp.first = false ∧
      4 ≤ (regs s [(Reg.XSP_CMD_LEN, 255)]).rd Reg.XSP_CMD_LEN) ∧
    (boot.dev = stDawn ∧ boot.rd Reg.SYS_BOOT_MAP_ROM = 1 ∧ bitAt (boot.rd Reg.SYS_CORE_RUN_RUN) 11 = true ∧ up.rd Reg.SYS_BOOT_MAP_ROM = 0) ∧
    (up.jrnWrites = false ∧ up.jrn.waiting = [] ∧ s.jrnWrites = true ∧ s.jrn.night = [] ∧ s.jrn.lostCount = 0 ∧ s.aon.holdUp = false ∧
      (journal (fun j => { j with ring := [jentry] }) s).jrn.ring = jentry :: [] ∧
      s.rdw Reg.JRN_BASE_A + 64 * (jentry.seq % s.jrnSize) + 64 ≤ s.rdw Reg.JRN_BASE_B + 64 * (jentry.seq % s.jrnSize)) ∧
    (scan.dev = stDawn ∧ scan.jrn.scanned = false ∧ scan.coreClock = true ∧ scan.jrn.prescan = [] ∧ scan.jrn.ring = [] ∧ scan.jrn.night = [] ∧
      scan.jrn.lostCount = 0 ∧ scan.rd Reg.JRN_MATE_EN = 0 ∧ scan.validSeqs = [] ∧ ([] : List Nat).foldl max 0 + 2 < 2 ^ 48) ∧
    (mate.rd Reg.JRN_MATE_EN = 1 ∧ mate.jrn.unacked ≠ [] ∧ mate.jrn.mateLost = false ∧ mate.jrn.waiting = [] ∧ s.rd Reg.JRN_MATE_EN = 0 ∧
      (∀ e ∈ (journal (fun j => { j with unacked := [(120000001, jentry)] }) s).jrn.unacked, up.clock < e.1)) := by
  decide +kernel

/-- `s` with the NVM write `j` under way. -/
def nvmJob (s : State) (j : XspJob) : State := { s with xsp := { s.xsp with job := some j } }

set_option maxRecDepth 100000 in
theorem witness_HostLinkAndJournal_writes : let s := journal (fun j => { j with ring := [jentry] }) (host [])
    let own : XspJob := { client := .own jentry, writes := s.jrnCopies jentry }
    let mate : XspJob := { client := .mate 3 0x20000001 (jentry.bytes 0), writes := s.mirrorCopies (jentry.bytes 0) }
    let w (j : XspJob) := nvmJob s j
    (up.xsp.job = none ∧ up.xspNext = none) ∧ (nvmJob s { client := .cell 15, writes := [] }).xsp.job.map (·.client.ofJrn) = some false ∧
    ((w own).xsp.job = some { client := .own jentry, writes := (w own).jrnCopies jentry } ∧ (w own).jrn.ring = [jentry] ∧ (w own).jrn.night = [] ∧
      (w own).jrn.waiting = [] ∧ (w own).jrn.lostCount = 0 ∧ (w own).aon.holdUp = false ∧ (w own).xsp.first = false) ∧
    ((w mate).xsp.job = some { client := .mate 3 0x20000001 (jentry.bytes 0), writes := (w mate).mirrorCopies (jentry.bytes 0) } ∧ (w mate).jrn.waiting = [] ∧
      (w mate).xsp.first = false) := by
  decide +kernel

set_option maxRecDepth 100000 in
/-- The scan finds the entry that stands in its slot. -/
theorem witness_JournalScan : ((host []).nvmWrite (0x100000 + 64 * 4) (jentry.bytes 0)).validSeqs = [4] := by decide +kernel

/-- A command of `opcode`, `flags` and `args` for job 7 at the head of queue pair 63, in the device state `d`. -/
def hostCmd (d opcode flags args : Nat) (l : List (Fld × Nat)) : State :=
  (host ((Reg.SYS_STATE_STATE, d) :: l)).hostWrite 0x10000 (leBytes 1 opcode ++ leBytes 1 flags ++ leBytes 2 85 ++ leBytes 4 7 ++ leBytes 8 9 ++ leBytes 48 args)

/-- A command that N0 takes from queue pair 63 and accepts, as far as its head goes. -/
def accepts (d opcode args mask : Nat) : Bool :=
  let s := hostCmd d opcode 0 args []
  s.subWaits 63 && decide ((s.subAt 63).opcode = opcode ∧ (s.subAt 63).args &&& mask = (s.subAt 63).args ∧ (s.subAt 63).flags = 0) && s.opAccepted opcode

set_option maxRecDepth 100000 in
theorem witness_HostCommands : let s := host []
    let fw (l : List (Fld × Nat)) := hostCmd stMorning 8 0 3 l
    let c : Cpl := { qp := 63, cmdId := 3, sqHead := 1, jseq := 4 }
    up.subWaits 63 = false ∧ s.jrn.scanned = true ∧ ((hostCmd stMorning 10 0 0 []).subAt 63).opcode = 10 ∧
    (accepts stMorning 1 0x0FFF00FF 0x0FFF00FF = true ∧ accepts stMorning 2 0 0 = true ∧ accepts stDusk 3 (2 ^ 52 - 1) (2 ^ 52 - 1) = true ∧ accepts stMorning 4 (255 + 2 ^ 32 * 77) 0x1FFFFFFFF0003FFFF = true ∧
      accepts stMorning 5 0x3FF 0x3FF = true ∧ accepts stMorning 6 255 0x1FF = true ∧ accepts stDawn 7 0 0 = true ∧ accepts stMorning 9 (4 + 2 ^ 128 * 0x40000) (2 ^ 48 - 1 + 0xFFFF * 2 ^ 64 + (2 ^ 64 - 1) * 2 ^ 128 + 2 ^ 192) = true ∧
      accepts stMorning 8 (2 ^ 64 * 256 + 2 ^ 96 * 256 + 2 ^ 128 * 0x30000) (fwMask 0) = true ∧ accepts stMorning 8 1 (fwMask 1) = true ∧ accepts stNoon 8 2 (fwMask 2) = true ∧ accepts stMorning 8 3 (fwMask 3) = true) ∧
    (s.atReserve = false ∧ s.aon.holdUp = false ∧ s.rd Reg.JRN_MATE_EN = 0 ∧ s.jrnNext + 1 < 2 ^ 48 ∧ s.fwBusy = false) ∧
    ((regs s [(Reg.HST_QP_VER_VERSION 63, 0x10)]).rd (Reg.HST_QP_VER_VERSION 63) < 0x11 ∧ (hostCmd stDawn 1 0 0 []).dev < stMorning ∧
      ((hostCmd stMorning 1 1 0 []).subAt 63).flags ≠ 0) ∧
    ((journal (fun j => { j with ring := List.replicate 3072 jentry }) (regs s [(Reg.JRN_DRING_CFG_ENTRIES, 0)])).atReserve = true ∧ s.nvmOpen = true ∧ up.nvmOpen = false) ∧
    ((journal (fun j => { j with closedJobs := [7] }) s).jrn.closedJobs.contains 7 = true ∧ s.jrn.closedJobs.contains 7 = false ∧ s.freePage = some 0 ∧ s.freeTag = some 0) ∧
    ((regs s [(Reg.PSQ_PG_STATE_STATE 255, pgAdmitted)]).pg 255 = pgAdmitted ∧ s.pg 255 = pgFree ∧ (regs s [(Reg.PSQ_PG_STATE_STATE 255, pgPrinting)]).pg 255 = pgPrinting) ∧
    (({ s with hst := { s.hst with fw := some (.verify c jentry) } } : State).fwBusy = true ∧ (2 ^ 96 * 5 / 2 ^ 96 % 2 ^ 32) % 256 ≠ 0 ∧
      (fw [(Reg.XSP_BOOT_STAGED, 1)]).rd Reg.XSP_BOOT_STAGED = 1 ∧ s.rd Reg.XSP_BOOT_STAGED = 0 ∧ (fw []).pageBound = false ∧
      (fw [(Reg.PSQ_PG_STATE_STATE 255, pgBound)]).pageBound = true) ∧
    (s.hst.fw = none ∧ s.rd Reg.XSP_CTRL_EN = 1 ∧ up.rd Reg.XSP_CTRL_EN = 0 ∧ s.xsp.first = false) := by decide +kernel

set_option maxRecDepth 100000 in
/-- With every page entry and every sheet entry taken. -/
theorem witness_HostCommands_full : ((List.range 256).foldl (fun s p => s.wr (Reg.PSQ_PG_STATE_STATE p) pgAdmitted) up).freePage = none ∧
    ((List.range 64).foldl (fun s t => s.wr (Reg.PSQ_SH_STATE_STATE t) shBound) up).freeTag = none := by decide +kernel

/-- A Vesper record. -/
def rec : VspRec := { code := 5, flags := 0, src := 3, seconds := 77, boot := 9, subsec := 1, p0 := 1, p1 := 2, p2 := 3, p3 := 4 }

/-- Vesper writing, with `n` records in its ring. -/
def vesper (n : Nat) : State :=
  let s := regs (host []) [(Reg.VSP_CTRL_EN, 1), (word Reg.VSP_BASE_A, 0x200000), (word Reg.VSP_BASE_B, 0x280000), (Reg.VSP_NEXT_SLOT, 65535)]
  { s with vsp := { s.vsp with ring := List.replicate n rec, scanned := true, lostSince := 0 } }

set_option maxRecDepth 100000 in
theorem witness_Monitors : let d := inState stDawn [(Reg.SYS_STATE_DAWN_KIND, 0)]
    let scan : State := { d with vsp := { d.vsp with scanned := false, ring := [] } }
    let w := vesper 1
    let rd (s : State) := (s.wr Reg.VSP_READ_STATUS_BUSY 1)
    let pmc (v : Nat) := regs up [(Reg.PMC_CTRL_EN, 1), (Reg.PMC_CTRL_FREEZE, 0), (word (Reg.PMC_CNT_LO 63), v), (word (Reg.PMC_CNT_HI 63), 0xFFFF),
      (Reg.PMC_CNT_SEL_EVT 63, 0), (Reg.PMC_CNT_SEL_INDEX 63, 1), (Reg.PMC_CNT_SEL_MODE 63, 0)]
    let event (s : State) : State := { s with pmc := { s.pmc with events := [(256, 1)] } }
    let dump := regs up [(Reg.PMC_DUMP_CFG_PERIOD_US, 10), (word Reg.PMC_DUMP_HI, 0x40), (Reg.PMC_DUMP_CFG_ENTRIES, 4)]
    (scan.dev = stDawn ∧ scan.rd Reg.SYS_STATE_DAWN_KIND = 0 ∧ scan.vsp.scanned = false ∧ scan.vsp.ring.length < scan.vspEntries ∧ up.dev ≠ stDawn) ∧
    (¬(vesper 256).vsp.ring.length < (regs (vesper 256) [(Reg.VSP_DRING_CFG_ENTRIES, 0)]).vspEntries) ∧
    ((vesper 0).vspHead = none ∧ up.vspWrites = false ∧ w.vsp.ring = rec :: [] ∧ w.vspWrites = true ∧ w.rd Reg.VSP_CTRL_FREEZE = 0 ∧
      w.aon.holdUp = false ∧ w.xsp.first = false ∧ w.vsp.lostSince = 0 ∧
      w.rdw Reg.VSP_BASE_A + 32 * w.rd Reg.VSP_NEXT_SLOT + 32 ≤ w.rdw Reg.VSP_BASE_B + 32 * w.rd Reg.VSP_NEXT_SLOT) ∧
    (w.rd Reg.VSP_READ_STATUS_BUSY = 0 ∧ (rd (vesper 0)).rd Reg.VSP_READ_STATUS_BUSY = 1 ∧ (rd (vesper 0)).nvmWriteWaits = false ∧ (rd w).nvmWriteWaits = true ∧
      (vesper 0).vspCopy (vesper 0).vsp.readSlot = none ∧ (((vesper 0).nvmWrite (0x200000 + 32 * 5) (rec.bytes 0)).vspCopy 5).isSome = true) ∧
    (up.dev ≠ stNight ∧ up.aon.power = true ∧ (inState stNight []).dev = stNight) ∧
    (let j : XspJob := { client := .record rec, writes := [(0x200000 + 32 * 65535, rec.bytes 0), (0x280000 + 32 * 65535, rec.bytes 1)] }
     (nvmJob w j).xsp.job = some j ∧ (nvmJob w j).jrn.waiting = [] ∧ w.xsp.job = none ∧ w.xspNext = some j ∧ j.client.ofVsp = true ∧
     (nvmJob w { client := .cell 15, writes := [] }).xsp.job.map (·.client.ofVsp) = some false ∧ (vesper 0).xspNext = none ∧
     (regs w [(Reg.VSP_CTRL_FREEZE, 1)]).rd Reg.VSP_CTRL_FREEZE = 1 ∧ rec.alwaysOn = false ∧ { rec with flags := 2 }.alwaysOn = true) ∧
    ((event (pmc 0xFFFFFFFF)).pmcRuns = true ∧ (event (pmc 0xFFFFFFFF)).pmc.done.contains 63 = false ∧
      2 ^ 48 ≤ (event (pmc 0xFFFFFFFF)).pmcCount 63 + (event (pmc 0xFFFFFFFF)).pmcValue 63 ∧ (event (pmc 0xFFFFFFFE)).pmcCount 63 + (event (pmc 0xFFFFFFFE)).pmcValue 63 < 2 ^ 48) ∧
    (up.rd Reg.PMC_DUMP_CFG_PERIOD_US = 0 ∧ dump.rd Reg.PMC_DUMP_CFG_PERIOD_US ≠ 0 ∧ dramBase ≤ dump.rd64 Reg.PMC_DUMP_LO Reg.PMC_DUMP_HI + 576 * (dump.pmc.seq % 4) ∧
      dump.rd64 Reg.PMC_DUMP_LO Reg.PMC_DUMP_HI + 576 * (dump.pmc.seq % 4) + 576 ≤ dramEnd) := by decide +kernel

set_option maxRecDepth 100000 in
theorem witness_Monitors_management : let mgt := regs up [(Reg.MGT_CTRL_SMB_EN, 1), (Reg.MGT_CTRL_PMB_EN, 1), (Reg.MGT_PMB_MAP_EN 31, 1), (Reg.MGT_PMB_R_ST_VALID 31, 1), (Reg.MGT_PMB_R_ST_OPERATION 31, 0x80),
      (Reg.PWR_EN_STATE_EN, 0)]
    let fresh : State := { mgt with mgt := { mgt.mgt with fresh := mgt.mgt.fresh.set 31 true, differs := mgt.mgt.differs.set 31 1 } }
    let fin (u : Nat) : State := { holds up 0 208 0 0 with fin := { up.fin with relUntil := some u, frameEnd := some u, queue := [[1], [2]] } }
    (up.aliveStopped = false ∧ (up.updCore 0 fun c => { c with halted := true }).aliveStopped = true) ∧
    (mgt.rd Reg.MGT_CTRL_SMB_EN = 1 ∧ mgt.rd Reg.MGT_SMB_CFG_ADDR < 128 ∧ (mgt.mgtAnswer Reg.CLK_AON_STATUS).isSome = true ∧ mgt.mgtAnswer 0x3FFFFC = none ∧
      (up.wr Reg.MGT_CTRL_SMB_EN 0).rd Reg.MGT_CTRL_SMB_EN = 0 ∧ regExists Reg.CLK_AON_STATUS = true ∧ mgt.mgtAnswer Reg.CLK_AON_STATUS = some (mgt.getReg Reg.CLK_AON_STATUS)) ∧
    (up.uartHw = false ∧ (inState stNight []).uartHw = true ∧ readLineOffset [] = none ∧ readLineOffset [0x72, 0x20, 0x30, 0x30, 0x30, 0x30, 0x30, 0x30] = some 0 ∧
      ((inState stNight []).mgtAnswer 0).isSome = alwaysOnReg 0) ∧
    (up.railPolled 31 = false ∧ mgt.railPolled 31 = true ∧ (∀ q : Fin 32, mgt.mgt.fresh[q] = false) ∧ (∀ q : Fin 32, q ≠ 31 → fresh.mgt.fresh[q] = false) ∧
      fresh.mgt.fresh[31] = true ∧ fresh.rd (Reg.MGT_PMB_R_ST_VALID 31) = 1 ∧ fresh.railDiffers 31 &&& fresh.mgt.differs[31] ≠ 0) ∧
    ((fin 100000000).ballGranted 208 0 = true ∧ (fin 0).periphClock = true ∧ up.ballGranted 208 0 = false ∧ (fin 120000000).fin.relUntil = some 120000000 ∧
      (fin 120000001).fin.frameEnd = some 120000001 ∧ (fin 0).clock < 120000001 ∧ 120000000 ≤ (fin 120000000).clock ∧ up.fin.relUntil = none ∧
      (fin 120000000).ballLive 208 0 = true ∧ (fin 120000000).fin.queue.tail ≠ [] ∧ up.ballLive 208 0 = false ∧ up.fin.frameEnd = none ∧ up.fin.queue = []) ∧
    (let at_ (t : Nat) : State := { up with due := { up.due with second := t, dump := t, window := t, alive := t, pmbus := t, mirror := t } }
     (at_ 120000000).due.second ≤ up.clock ∧ up.clock < (at_ 120000001).due.second ∧ (at_ 120000000).due.dump ≤ up.clock ∧
     up.clock < (at_ 120000001).due.dump ∧ (at_ 120000000).due.window ≤ up.clock ∧ up.clock < (at_ 120000001).due.window ∧
     (at_ 120000000).due.alive ≤ up.clock ∧ up.clock < (at_ 120000001).due.alive ∧ (at_ 120000000).due.pmbus ≤ up.clock ∧
     up.clock < (at_ 120000001).due.pmbus ∧ (at_ 120000000).due.mirror ≤ up.clock ∧ up.clock < (at_ 120000001).due.mirror) ∧
    (up.aon.power = true ∧ up.coreClock = true ∧ alwaysOnReg Reg.CLK_AON_STATUS = true ∧ alwaysOnReg 0x3FFFFC = false ∧ (0x3FFFFC / 0x10000 ≠ 32)) := by decide +kernel

/-- Port 7 of a device with id 5 in state 3, port 0 in state `st`, and more fields. -/
def fabric (st : Nat) (l : List (Fld × Nat)) : State :=
  regs up ([(Reg.FAB_CTRL_EN, 1), (Reg.FAB_ID_VALID, 1), (Reg.FAB_ID_DEV_ID, 5), (Reg.FAB_P_CFG_EN 0, 1), (Reg.FAB_P_CFG_EN 7, 1), (Reg.FAB_P_STATE_STATE 0, st),
    (Reg.FAB_P_STATE_STATE 7, 3), (Reg.FAB_ROUTE_PORT 3, 7), (Reg.FAB_VER_VER_MIN, 0x10), (Reg.FAB_VER_VER_MAX, 0x11), (Reg.FAB_CTRL_AUTO_ROUTE, 0),
    (Reg.FAB_EUI_LO_EUI, 9), (Reg.FAB_CTRL_ROOT, 0)] ++ l)

/-- `s` with the fabric changed by `f`. -/
def fab (f : FabX → FabX) (s : State) : State := { s with fab := f s.fab }

set_option maxRecDepth 100000 in
theorem witness_FabricLinks_ports : let s := fabric 1 [(Reg.FAB_P_STATE_LANES 0, 2)]
    let f := fabric 3 []
    let x : FabMsg := { msg with cls := 2, kind := 0 }
    let bad (n : Nat) := fab (fun y => { y with rxFrame := y.rxFrame.set 7 (some 4095), rxFails := y.rxFails.set 7 n, replayFrame := y.replayFrame.set 7 (some 4095), replays := y.replays.set 7 n }) f
    (up.portEnabled 0 = false ∧ 2 ≤ f.rd (Reg.FAB_P_STATE_STATE 0) ∧ s.portEnabled 0 = true ∧ s.rd (Reg.FAB_P_STATE_STATE 0) < 2 ∧
      s.rd (Reg.FAB_P_STATE_LANES 0) = 2 ∧ up.rd (Reg.FAB_P_STATE_STATE 0) = 0) ∧
    ((∀ e ∈ f.fab.tx, e.1 ≠ 7) ∧ (∀ e ∈ f.fab.adv, e.1 ≠ 7) ∧ (fab (fun y => { y with tx := [(7, x)] }) f).fab.tx = [(7, x)] ∧ x.cls = 2 ∧ f.rd Reg.FAB_CTRL_AUTO_ROUTE = 0) ∧
    (up.fabOpen 7 5 = false ∧ f.fabOpen 7 5 = true ∧ f.fab.rxFrame[7] ≠ some 4095 ∧ (bad 16).fab.rxFrame[7] = some 4095 ∧ 16 ≤ (bad 16).fab.rxFails[7] ∧
      16 ≤ (bad 16).fab.replays[7] ∧ f.fab.replayFrame[7] ≠ some 4095) ∧
    (min 0xF (f.rd Reg.FAB_VER_VER_MAX) < max 0x10 (f.rd Reg.FAB_VER_VER_MIN) ∧ max 0x10 (f.rd Reg.FAB_VER_VER_MIN) ≤ min 0x11 (f.rd Reg.FAB_VER_VER_MAX) ∧
      f.rd (Reg.FAB_P_STATE_STATE 7) = 3 ∧ f.isRoot = false) := by decide +kernel

set_option maxRecDepth 100000 in
theorem witness_FabricLinks_ids : let f := fabric 3 []
    let r := fabric 3 [(Reg.FAB_CTRL_ROOT, 1)]
    let taken := fab (fun y => { y with floods := [77], devices := [{ eui := 13, id := 0 }] }) r
    let auto (l : List (Fld × Nat)) := fabric 3 ((Reg.FAB_CTRL_AUTO_ROUTE, 1) :: l)
    77 ∈ taken.fab.floods ∧ 77 ∉ f.fab.floods ∧ (f.isRoot = false ∧ r.isRoot = true ∧ r.eui ≤ r.eui ∧ 7 < r.eui ∧ 12 ≠ r.eui) ∧
    (taken.idTaken 12 9 = false ∧ taken.idTaken 12 0 = true ∧ taken.idTaken 12 1 = false ∧ (f.idTaken 12 0 = false ∧ (0 : Nat) < 1024)) ∧
    ((auto []).rd Reg.FAB_CTRL_AUTO_ROUTE = 1 ∧ (auto []).portUp 7 = true ∧ (auto []).fabOpen 7 5 = true ∧ (auto []).rd (Reg.FAB_ROUTE_STATIC 1023) = 0 ∧
      1023 ≠ (auto []).devId ∧ 253 < 254 ∧ (auto []).fab.adv = [] ∧ (fab (fun y => { y with adv := [(0, 1023, 253)] }) (auto [])).fab.adv = [((0 : Fin 8).val, 1023, 253)] ∧
      (auto []).portUp 0 = true ∧ (auto [(Reg.FAB_ROUTE_STATIC 1023, 1)]).rd (Reg.FAB_ROUTE_STATIC 1023) = 1) ∧
    (let w := (regs r [(Reg.FAB_ID_VALID, 0), (Reg.FAB_ID_REQ_VALID, 1), (Reg.FAB_ID_REQ_ID, 1023)]).plainWrite Reg.FAB_CTRL (withBit (3 : RegWord) 3 true).toNat
     r.rd Reg.FAB_CTRL_EN = 1 ∧ r.dev ≠ stNight ∧ 2 ≤ r.rd (Reg.FAB_P_STATE_STATE 7) ∧ bitAt (3 : RegWord).toNat 0 = true ∧
       (w.isRoot = true ∧ w.heldId = none ∧ w.wantedId = some 1023 ∧ w.idTaken w.eui 1023 = false)) := by decide +kernel

set_option maxRecDepth 100000 in
theorem witness_FabricLinks_events : let f := fabric 3 []
    let e : FabEvent := { src := 3, seq := 6, tag := 9, code := 0xF1, spec := 0 }
    let x (code : Byte) : FabMsg := { msg with dst := 5, src := 3, payload := [6, 0, 0, 0, code, 0, 0, 9, 1, 2, 3, 4, 5, 6, 7, 8] }
    let q (n : Nat) := fab (fun y => { y with evq := List.replicate n e, leq := List.replicate n { tag := 1, src := 2, code := 3, addr := 4 }, peers := [{ dev := 3, seq := 6, code := 0xF1, from_ := 4 }] }) f
    let mate := regs f [(Reg.JRN_MATE_EN, 1), (Reg.JRN_MATE_MATE_ID, 3)]
    (f.fabOpen 7 2 = true ∧ (x 0xF0).dst = f.devId ∧ ∀ k : Fin 64, f.rd (Reg.PSQ_SH_CTRL_PAIR k) = 0) ∧
    ((q 63).fab.evq.length < 64 ∧ 64 ≤ (q 64).fab.evq.length ∧ (q 63).fab.leq.length < 64 ∧ 64 ≤ (q 64).fab.leq.length) ∧
    (f.fab.peers.find? (fun o => o.dev = 3 && o.seq = 6) = none ∧ f.fab.peers.length < 256 ∧
      ((q 0).fab.peers.find? (fun o => o.dev = 3 && o.seq = 6)).map (·.code) = some 0xF1) ∧
    ((0xF0 ≤ ((x 0xF0).payload.getD 4 0).toNat ∧ ((x 0xF2).payload.getD 4 0).toNat ≤ 0xF2) ∧ ¬(0xF0 ≤ ((x 5).payload.getD 4 0).toNat)) ∧
    (f.rd Reg.JRN_MATE_EN = 0 ∧ mate.rd Reg.JRN_MATE_EN = 1 ∧ mate.rd Reg.JRN_MATE_MATE_ID = 3 ∧ mate.jrn.mateLost = false ∧ mate.jrn.waiting = []) := by decide +kernel

set_option maxRecDepth 100000 in
theorem witness_FabricLinks_time : let f := fabric 3 [(Reg.FAB_SYNC_STATE_MASTER, 0), (Reg.TIM_CTRL_FABRIC_SYNC, 1), (Reg.FAB_SYNC_CFG_LOCK_TICKS, 8)]
    let d := f.wr Reg.SYS_STATE_STATE stDawn
    let known := fab (fun y => { y with masterKnown := true, syncTime := 5, lastSync := 0, inBand := 15, outBand := 3, delayReq := y.delayReq.set 7 (some 5) }) (f.wr Reg.FAB_SYNC_STATE_MASTER_ID 3)
    let ofs (s : State) (sent : Nat) : Int := fitInt ((sent + (0 + s.rd (Reg.FAB_P_DELAY_DELAY 7)) : Nat) - (8 * s.meridian : Nat) : Int)
    let m := 8 * 100000000
    (f.fabOpen 7 3 = true ∧ 3 ≠ f.devId ∧ f.rd Reg.FAB_SYNC_STATE_MASTER = 0 ∧ f.fab.masterKnown = false ∧ known.fab.masterKnown = true ∧
      known.rd Reg.FAB_SYNC_STATE_MASTER_ID = 3 ∧ known.fab.syncTime < m ∧ up.fabOpen 7 3 = false) ∧
    (f.rd Reg.TIM_CTRL_FABRIC_SYNC = 1 ∧ f.dev ≠ stEvening ∧ f.dev ≠ stDawn ∧ d.dev = stDawn ∧ 1024 < wholeTicks (ofs d (m + 16000)) ∧
      wholeTicks (ofs d (m + 8 * 1024)) ≤ 1024 + ((d.rd (Reg.FAB_P_DELAY_DELAY 7) + 7) / 8 : Nat) ∧ d.meridian + (wholeTicks (ofs d (m + 16000))).toNat < 2 ^ 64) ∧
    ((ofs known m).natAbs ≤ 8 * known.rd Reg.FAB_SYNC_CFG_LOCK_TICKS ∧ 15 ≤ known.fab.inBand ∧ 8 * known.rd Reg.FAB_SYNC_CFG_LOCK_TICKS < (ofs known (m + 16000)).natAbs ∧
      3 ≤ known.fab.outBand ∧ (known.wr Reg.FAB_SYNC_STATE_LOCKED 1).rd Reg.FAB_SYNC_STATE_LOCKED = 1 ∧ f.fab.outBand < 3) ∧
    (f.fabReady = true ∧ up.fabReady = false ∧ f.counting = true ∧ (f.wr Reg.FAB_SYNC_STATE_MASTER 1).rd Reg.FAB_SYNC_STATE_MASTER = 1 ∧
      (f.wr Reg.FAB_SYNC_CFG_MASTER_EN 1).rd Reg.FAB_SYNC_CFG_MASTER_EN = 1) ∧
    ((let k := known.wr Reg.FAB_SYNC_CFG_INTERVAL 1; k.fab.lastSync + 10 * k.rd Reg.FAB_SYNC_CFG_INTERVAL * 3000000 ≤ k.clock)) ∧
    (f.portUp 7 = true ∧ f.fab.delayReq[7] = none ∧ known.fab.delayReq[7] = some 5) ∧
    (let at_ (t : Nat) : State := { f with due := { f.due with sync := t, delay := t, lane := Vector.replicate 8 t } }
     (at_ 120000000).due.sync ≤ f.clock ∧ f.clock < (at_ 120000001).due.sync ∧ (at_ 120000000).due.delay ≤ f.clock ∧ f.clock < (at_ 120000001).due.delay ∧
     (at_ 120000000).due.lane[7] ≤ f.clock ∧ f.clock < (at_ 120000001).due.lane[7]) := by decide +kernel

/-- A home with id 5 whose extent 2 is RESIDENT in frame 9, with the state `ext` of its map entry and `f` on its Plain side. -/
def home (ext : Nat) (l : List (Fld × Nat)) (f : PlainX → PlainX) : State :=
  let s := fabric 3 ([(Reg.STR_PLN_ID_DEV_ID, 5), (Reg.STR_PLN_CTRL_EN, 1), (Reg.STR_PLN_CTRL_REMOTE_EN, 1), (Reg.STR_PLN_MAP_HI_ADDR, 0x40),
    (Reg.STR_PLN_RCACHE_FRAMES, 1)] ++ l)
  { s with mem := (paged 0 ext []).mem, plain := f s.plain }

/-- The first granule of extent 2 of device 5. -/
def gran : Nat := 5 * 2 ^ 42 + 2 * 2 ^ 21

set_option maxRecDepth 100000 in
theorem witness_FabricMemory_routes : let h := home 2 [] id
    let w (addr len tag dst : Nat) : FabMsg := { cls := 0, kind := 0, dst := dst, src := 3, vc := 0, tag := tag, addr := addr, payload := List.replicate len 7 }
    let mate := home 2 [(Reg.JRN_MATE_EN, 1), (Reg.JRN_MATE_MATE_ID, 3)] id
    let waits := fab (fun y => { y with waitIn := [w gran 64 0 5] }) h
    let bad : State := { h with badAt := [frameAddr 9] }
    (∀ c < 5, up.fabOpen 7 c = false) ∧ (∀ c < 5, h.fabOpen 7 c = true) ∧ (w gran 64 0 2).dst ≠ h.devId ∧ (w gran 64 0 5).dst = h.devId ∧ h.fabPort 3 = some 7 ∧ h.fabPort 2 = none ∧
    3 ≠ h.devId ∧ ((home 2 [(Reg.FAB_P_CFG_DATELINE 7, 1)] id).rd (Reg.FAB_P_CFG_DATELINE 7) = 1 ∧ h.rd (Reg.FAB_P_CFG_DATELINE 7) = 0) ∧
    (writeLegal (w gran 64 0 5) = true ∧ writeLegal (w (gran + 1) 64 0 5) = false ∧ 0x20000005 / 2 ^ 28 = 2 ∧ mate.rd Reg.JRN_MATE_EN = 1 ∧ mate.rd Reg.JRN_MATE_MATE_ID = 3 ∧
      (home 2 [(Reg.JRN_MATE_EN, 0)] id).rd Reg.JRN_MATE_EN = 0) ∧
    (h.plainShut false = false ∧ up.plainShut false = true ∧ waits.behind (w gran 64 0 5) = true ∧ h.behind (w gran 64 0 5) = false) ∧
    (h.homeStatus (5 * 2 ^ 42) = .invalid ∧ (home 0 [] id).homeStatus gran = .missing ∧ h.homeStatus gran = .atLocal (frameAddr 9) ∧ h.plainPinned gran = false ∧
      (home 2 [] fun y => { y with dir := [{ addr := gran, sharers := [3], owner := none, pinners := [3] }] }).plainPinned gran = true) ∧
    (bad.plainBad gran 64 = true ∧ h.plainBad gran 64 = false) ∧ (readLen 0x04000000 = 256 ∧ readLen 0x05000000 = 320 ∧ readLen 0 = 0) := by decide +kernel

set_option maxRecDepth 100000 in
theorem witness_FabricMemory_reads : let r : FabRead := { tag := 2 ^ 24 + 16 * 15, home := 3, addr := gran, len := 64, until_ := 120000000 }
    let s (l m : List FabRead) := fab (fun y => { y with reads := l, timedOut := m }) (home 2 [] id)
    ((s [r] []).fab.reads.find? (fun x => x.tag = 2 ^ 24 + 16 * 15) = some r ∧ (s [] [r]).fab.reads.find? (fun x => x.tag = 2 ^ 24 + 16 * 15) = none ∧
      (s [] [r]).fab.timedOut.find? (fun x => x.tag = 2 ^ 24 + 16 * 15) = some r ∧ (s [r] []).fab.reads.find? (fun x => x.tag / 16 = (2 ^ 24 + 16 * 15) / 16) = some r ∧
      fenceChannel r.tag < 16) ∧
    ((s [] []).fab.reads = [] ∧ (s [r] []).fab.reads = r :: [] ∧ r.until_ ≤ (s [r] []).clock ∧ (s [r] []).clock < r.until_ + 1) := by decide +kernel

set_option maxRecDepth 100000 in
theorem witness_FabricMemory_ownership : let e (sharers : List Nat) (owner : Option Nat) (pinners : List Nat) : DirEntry := { addr := gran, sharers := sharers, owner := owner, pinners := pinners }
    let dir (d : DirEntry) := home 2 [] fun y => { y with dir := [d] }
    let h := home 2 [] id
    let gr (owned : Bool) : Granule := { addr := gran, owned := owned, dirty := false, pins := [], data := [1, 2] }
    let asks := home 2 [] fun y => { y with snoops := [(gran, true)], evicted := [gr true], rcache := [] }
    let r : Recall := { req := 4, tag := 1, addr := gran, intentO := true, due := [3] }
    let rc := home 2 [] fun y => { y with recalls := [r], dir := [e [] (some 3) []] }
    h.fabOpen 7 4 = true ∧ (h.plainShut false = false ∧ up.plainShut false = true ∧ (∀ x ∈ h.plain.recalls, x.addr ≠ gran) ∧ h.evictHere gran 4 = none ∧ h.homeStatus gran = .atLocal (frameAddr 9) ∧ h.dirEntry gran = none) ∧
    (h.plain.dir.length < 1048576 ∧ (0 % 2 = 1 ∨ h.plainPinned gran = false)) ∧
    ((dir (e [3] none [3])).dirEntry gran ≠ none ∧ (dir (e [3] none [3])).plainPinned gran = true ∧ 1 % 2 = 1) ∧
    ((dir (e [] (some 4) [])).dirEntry gran = some (e [] (some 4) []) ∧ (dir (e [] (some 4) [])).plainPinned gran = false) ∧
    ((dir (e [7, 8, 9, 10, 11, 12, 13, 14] none [])).dirEntry gran = some (e [7, 8, 9, 10, 11, 12, 13, 14] none []) ∧ 3 ∉ [7, 8, 9, 10, 11, 12, 13, 14] ∧
      (dir (e [7, 8, 9, 10, 11, 12, 13] none [])).dirEntry gran = some (e [7, 8, 9, 10, 11, 12, 13] none [])) ∧
    (h.plain.snoops.find? (fun x => x.1 = gran) = none ∧ asks.plain.snoops.find? (fun x => x.1 = gran) = some (gran, true) ∧ asks.plain.rcache.length < asks.cacheRoom) ∧
    (h.granule gran = none ∧ (home 2 [] fun y => { y with rcache := [gr true] }).granule gran = some (gr true)) ∧
    (h.fab.waitIn = [] ∧ h.plain.recalls = [] ∧ (dir (e [] (some 3) [])).dirEntry gran = some (e [] (some 3) []) ∧ 0 ≠ recallTag) ∧
    ((let sent : FabMsg := { cls := 4, kind := 3, dst := 5, src := 6, vc := 0, tag := 0, addr := gran, payload := List.replicate 4096 0 }
      (fab (fun y => { y with waitIn := [sent] }) (dir (e [] (some 6) []))).evictHere gran 4 = some 6)) ∧
    (rc.plain.recalls = [r] ∧ rc.dirEntry gran ≠ none ∧ r.addr = gran ∧ r.due = [3]) ∧
    (up.rd Reg.STR_PLN_CTRL_REMOTE_EN = 0 ∧ h.rd Reg.STR_PLN_CTRL_REMOTE_EN = 1 ∧ h.rd Reg.STR_PLN_CTRL_EN = 1) ∧
    ((∀ x ∈ h.plain.snoops, x.1 ≠ gran) ∧ (∀ x ∈ h.plain.waitingOn, x.2 ≠ remoteKey gran) ∧ asks.plain.evicted.find? (fun y => y.addr = gran) = some (gr true)) := by decide +kernel

/-- A directory that is full, of other granules. -/
theorem witness_FabricMemory_full : let s := home 2 [] fun y => { y with dir := List.replicate 1048576 { addr := 0, sharers := [3], owner := none, pinners := [] } }
    1048576 ≤ s.plain.dir.length ∧ s.dirEntry gran = none := by
  refine ⟨Nat.le_of_eq (List.length_replicate ..).symm, ?_⟩
  show List.find? _ (List.replicate _ _) = none
  rw [List.find?_replicate]
  decide +kernel

/-! ## Values that the spec states

The expected values are those of the spec's own examples, as each comment says. -/

/-- The next state of a command. -/
def after (i : Instr) (s : State) : State :=
  match exec i s with
  | .next t => t
  | _ => s

/-- R108: the check value of "123456789". -/
theorem test_crc32c : crc32c ([0x31, 0x32, 0x33, 0x34, 0x35, 0x36, 0x37, 0x38, 0x39] : List Byte) = 0xE3069283 := by decide +kernel

/-- "Example: launching a sheet": 180,000,000 is `LUI 0x0ABA` and `ORI 0x9500`. -/
theorem test_li_32 : (after (.ori 1 21 21 0x9500) (after (.lui 1 21 0x0ABA) up)).getX 1 21 = 180000000 := by decide +kernel

/-- The pseudo-instruction `li` of 0x8000_1234: `ORI` with x0, then `SHORI`. -/
theorem test_li_64 : (after (.shori 1 5 5 0x1234) (after (.ori 1 5 0 0x8000) up)).getX 1 5 = 0x80001234 := by decide +kernel

/-- `LUI` extends the sign: 0x8000 in the upper half is -2^31. -/
theorem test_lui_sign : (after (.lui 0 1 0x8000) up).getX 0 1 = 0xFFFFFFFF80000000 := by decide +kernel

/-- "Worked example: Col timing on a cut-sheet path": `COL`, and its `EXP_OFS`, `END_OFS` and `EXIT_OFS` in milliseconds after the pick. -/
theorem test_col : let s := regs up [(word (Reg.PSQ_SH_COL_LO 5), 0x6EBF5440), (word (Reg.PSQ_SH_COL_HI 5), 1), (word (Reg.PSQ_SH_EXP_OFS 5), 0x019BFCC0),
      (word (Reg.PSQ_SH_END_OFS 5), 0x33AD5EC0), (word (Reg.PSQ_SH_EXIT_OFS 5), 0x45BCC880)]
    s.col 5 = 6153000000 ∧ s.expStart 5 = 6000000000 + 60 * 3000000 ∧ s.expEnd 5 = 6000000000 + 340 * 3000000 ∧
    s.exitTime 5 = 6000000000 + 441 * 3000000 := by decide +kernel

/-- "Example: launching a sheet": the S0 exposure word for page 23, and the EVENT word to the finisher with code 0x01. -/
theorem test_command_words : let c := up.emitCmd 1 true 0 0x000000170001000D
    let e := up.emitCmd 1 false 0 0x010000010002000A
    (c.block, c.unit, c.op, c.operand) = (13, 0, 1, 23) ∧ (e.block, e.unit, e.op, e.operand % 4, e.operand / 2 ^ 24) = (10, 0, 2, 1, 1) := by decide +kernel

set_option maxRecDepth 100000 in
/-- "Example: one tile, two modes": slot bytes 0 to 5 of the tile of two patterns. -/
theorem test_bitmap2 : let a := [15, 15, 15, 0, 0, 0, 0, 0]
    let b := [0, 0, 0, 0, 15, 15, 15, 0]
    let line (p : List Nat) := (List.replicate 8 p).flatten
    let tile := (List.replicate 4 (line a)).flatten ++ (List.replicate 4 (line b)).flatten
    (encodeTile tile).map (fun x => (x.1, x.2 % 2 ^ 48)) = some (1, 0x8383F7F00001) := by decide +kernel

set_option maxRecDepth 100000 in
/-- The same example with dot 2 of every cell of line 2 changed to code 8: PERIOD, with `P_M1` 7. -/
theorem test_period : let a := [15, 15, 15, 0, 0, 0, 0, 0]
    let b := [0, 0, 0, 0, 15, 15, 15, 0]
    let line (p : List Nat) := (List.replicate 8 p).flatten
    let tile := line a ++ line a ++ line (a.set 2 8) ++ line a ++ (List.replicate 4 (line b)).flatten
    (encodeTile tile).map (fun x => (x.2 % 2 ^ 16, slotBits x.2 0 4)) = some (2, 7) := by decide +kernel

/-- "Worked example: developer bias of S2": at 62.5 °C entry 9 gives 2,040, and the Gap writes it to L009 `SP`. -/
def bias : State :=
  regs up [(Reg.CAL_CTRL_EN, 1), (Reg.CAL_B_E_TARGET_VALID 0 9, 1), (Reg.CAL_B_E_TARGET_OFFSET 0 9, 0x181490), (Reg.CAL_B_E_TARGET_SIGNED 0 9, 1),
    (Reg.CAL_B_E_TARGET_ZONE 0 9, 2), (Reg.CAL_B_E_FIELD_LSB 0 9, 0), (Reg.CAL_B_E_FIELD_WIDTH_M1 0 9, 31), (word (Reg.CAL_B_E_P 0 9 0), 2200),
    (word (Reg.CAL_B_E_P 0 9 1), 2150), (word (Reg.CAL_B_E_P 0 9 2), 2080), (word (Reg.CAL_B_E_P 0 9 3), 2000), (word (Reg.CAL_B_E_P 0 9 4), 1940),
    (Reg.THM_Z_T 2, 4000)]

theorem test_cal_value : bias.calValue 0 9 = 2040 ∧ (after .calApplication bias).rdw (Reg.PRA_L_SP 9) = 2040 := by decide +kernel

/-- The check of that example with `MODE` 1: A 1,352, B 1,361 is accepted and moves the five points of bank 1 to 2,218 … 1,958. -/
theorem test_cal_check :
    let s := regs bias ([(word Reg.CAL_CHECK_A, 1352), (word Reg.CAL_CHECK_B, 1361), (word Reg.CAL_CHECK_VALUE, 2058), (Reg.CAL_B_E_TARGET_ZONE 1 9, 2)] ++
      [(word (Reg.CAL_B_E_P 1 9 0), 2200), (word (Reg.CAL_B_E_P 1 9 1), 2150), (word (Reg.CAL_B_E_P 1 9 2), 2080), (word (Reg.CAL_B_E_P 1 9 3), 2000), (word (Reg.CAL_B_E_P 1 9 4), 1940)])
    let t := after (.calCheckGo .jtag (BitVec.ofNat 32 (1 + 2 * 2 + 8 + 256 * 9))) s
    (t.rd Reg.CAL_CHECK_STATUS_RESULT, (List.range 5).map fun p => t.rdw (Reg.CAL_B_E_P 1 9 p)) = (1, [2218, 2168, 2098, 2018, 1958]) := by decide +kernel

/-- "Worked example: retuning a fuser zone": at 38 ms L100 computes 11,288, and I gains 0.1 × 8. -/
theorem test_loop : let s := (regs (slot 0 [] id) [(Reg.PRA_L_STATE_STATE 100, prRun), (word (Reg.PRA_L_KP 100), 0x30000), (word (Reg.PRA_L_KI 100), 0x199A),
      (word (Reg.PRA_L_KD 100), 0), (word (Reg.PRA_L_SP 100), 1850), (Reg.PRA_L_CTRL_FILT 100, 2), (word (Reg.PRA_L_LIMIT 100), 0xFFFF0000),
      (word (Reg.PRA_L_I_LO 100), 11264 * 65536), (Reg.PRA_L_CAP_CAP 100, 0xFFFF)]).updSlot 100 fun x => { x with hist := [1842, 1842, 1842, 1842] }
    let t := after .loopComputation { s with pra := { s.pra with run := some { slot := 100, from_ := 119999760, stop := 120000000, res := s.loop 100 } } }
    t.rd (Reg.PRA_L_OUT_Y 100) = 11288 ∧ t.praI 100 = 11264 * 65536 + 0x199A * 8 := by decide +kernel

/-- The six words that R202 works out: NOP, LUI x25, 1, WAITT x0, x22, EMIT.I x23, x22, x28, SPEC x23, x4 and COMMIT x23, x4. -/
theorem test_words : novDecode 1 0x04000000 = some (.addi 1 0 0 0) ∧ novDecode 1 0x23200001 = some (.lui 1 25 1) ∧
    novDecode 1 0xA0160000 = some (.waitt 1 0 22) ∧ novDecode 1 0xA6F6E001 = some (.emit 1 true 23 22 28) ∧
    novDecode 1 0xAEE40000 = some (.spec 1 23 4) ∧ novDecode 1 0xAEE40003 = some (.commit 1 23 4) := by decide +kernel

/-- Opcode 0x3F, a funct that no operation has, and a bit set in a field that must be zero spell no instruction. -/
theorem test_no_instruction : novDecode 1 0xFC000000 = none ∧ novDecode 1 0x00000015 = none ∧ novDecode 1 0xA0160001 = none ∧
    novDecode 1 0x23210001 = none := by decide +kernel

theorem witness_ExceptionsAndReturn_words : (0x2C ≤ bitsOf 0xB0000000 26 6 ∧ 0x2C ≤ bitsOf 0xFC000000 26 6) ∧
    (bitsOf 0x00000015 26 6 = 0 ∧ 0x14 < bitsOf 0x00000015 0 11) ∧ (bitsOf 0x23210001 26 6 = 8 ∧ bitsOf 0x23210001 16 5 ≠ 0) := by decide

set_option maxRecDepth 100000 in
/-- Such a word at the pc raises the illegal-instruction exception: its cause is 0x01. -/
theorem test_illegal : let s := (up.updCore 1 fun c => { c with pc := 0x100 }).writeLE (coreBase 1 + 0x100) 4 0xFC000000
    s.illegalNext 1 = true ∧ ((s.illegal 1).core 1).causeCode = 1 := by decide +kernel

end Sys2Proof.Tests
end

section
/-! SUPPORT. The state after reset (R12, R38, R193): what its registers, memories and cores hold. -/

namespace Sys2Proof.Machine

/-! ## Rows of the register table -/

/-- The offset of the last register of row `r`. -/
def RegRow.last (r : RegRow) : Nat := r.base + r.s1 * (r.n1 - 1) + r.s2 * (r.n2 - 1) + r.s3 * (r.n3 - 1)

/-- A row holds no offset past its last register. -/
theorem RegRow.le_last_of_index? {r : RegRow} {off l : Nat} (h : r.index? off = some l) : off ≤ r.last := by
  simp only [RegRow.index?] at h
  split at h
  · cases h
  · split at h
    · next hb hin =>
      obtain ⟨hi, hj, hl, hz⟩ := hin
      have e1 := Nat.div_add_mod (off - r.base) r.s1
      have e2 := Nat.div_add_mod ((off - r.base) % r.s1) r.s2
      have e3 := Nat.div_add_mod ((off - r.base) % r.s1 % r.s2) r.s3
      have m1 := Nat.mul_le_mul_left r.s1 (Nat.le_sub_one_of_lt hi)
      have m2 := Nat.mul_le_mul_left r.s2 (Nat.le_sub_one_of_lt hj)
      have m3 := Nat.mul_le_mul_left r.s3 (Nat.le_sub_one_of_lt hl)
      simp only [RegRow.last]
      omega
    · cases h

/-- The row found is one of the list, and holds the offset at the index found. -/
theorem findRow_some {rows : List RegRow} {off l : Nat} {r : RegRow} (h : findRow rows off = some (r, l)) :
    r ∈ rows ∧ r.index? off = some l := by
  induction rows with
  | nil => cases h
  | cons q rest ih =>
    rw [findRow] at h
    split at h
    · next hq => cases h; exact ⟨List.mem_cons_self, hq⟩
    · exact ⟨List.mem_cons_of_mem _ (ih h).1, (ih h).2⟩

/-- A register resets to 0 where every row of its block that reaches its offset does. -/
theorem regReset_eq_zero {off : Nat} (h : ∀ r ∈ rowsOf (off / 0x10000), r.last < off ∨ r.reset = 0 ∧ r.step = 0) :
    regReset off = 0 := by
  unfold regReset
  split
  · next r l hr =>
    obtain ⟨hmem, hidx⟩ := findRow_some hr
    obtain hlt | ⟨hreset, hstep⟩ := h r hmem
    · exact absurd (RegRow.le_last_of_index? hidx) (Nat.not_le.2 hlt)
    · simp [hreset, hstep]
  · rfl

/-- The sheet and page entries of PSQ, which stand from offset 0x1000 of the block on, reset to 0. -/
theorem regReset_psqEntries {off : Nat} (hb : off / 0x10000 = 10) (ho : 0xa1000 ≤ off) : regReset off = 0 := by
  have hrows : ∀ r ∈ rowsOf 10, r.last < 0xa1000 ∨ r.reset = 0 ∧ r.step = 0 := by decide
  exact regReset_eq_zero fun r hr => (hrows r (hb ▸ hr)).imp_left fun h => Nat.lt_of_lt_of_le h ho

/-- A block whose interrupt enables are all 0 holds no unmasked fault status (R379). -/
theorem State.blockFault_eq_false {s : State} {b : Nat} (h : ∀ st ∈ statusRegsOf b, s.rdw (st + 4) = 0) :
    s.blockFault b = false := by
  simp only [State.blockFault, State.unmasked, List.any_eq_false]
  intro st hst
  simp [h st hst]

/-! ## The reset state -/

theorem sparseWf_nil {β : Type} (d : Nat → β) : sparseWf d [] := ⟨.nil, by simp⟩

@[simp] theorem State.reset_getReg (off : Nat) : State.reset.getReg off = regReset off := rfl

@[simp] theorem State.reset_core (n : Fin 12) : State.reset.core n = {} := by simp [State.core, State.reset]

theorem State.reset_canonical : State.reset.Canonical :=
  ⟨sparseWf_nil _, sparseWf_nil _, sparseWf_nil _, sparseWf_nil _, sparseWf_nil _⟩

theorem State.reset_coreRun : State.reset.rd Reg.SYS_CORE_RUN_RUN = 0 := by decide

/-- No core is released (R194). -/
theorem State.reset_coreLive (n : Fin 12) : State.reset.coreLive n = false := by
  simp [State.coreLive, State.reset_coreRun, bitAt]

/-- Every general register of a core is 0 (R193). -/
theorem State.reset_getX (n : Fin 12) (r : Fin 32) : State.reset.getX n r = 0 := by
  simp [State.getX]

/-- Every field of a sheet or page entry is 0. -/
theorem State.reset_rd_psqEntries {f : Fld} (hb : f.off / 0x10000 = 10) (ho : 0xa1000 ≤ f.off) : State.reset.rd f = 0 := by
  simp [State.rd, regReset_psqEntries hb ho, bitsOf]

/-- Every sheet entry is free (R46). -/
theorem State.reset_sh {t : Nat} (ht : t < 64) : State.reset.sh t = shFree :=
  State.reset_rd_psqEntries (by simp only [Reg.PSQ_SH_STATE]; omega) (by simp only [Reg.PSQ_SH_STATE]; omega)

/-- Every page entry is free (R42). -/
theorem State.reset_pg {p : Nat} (hp : p < 256) : State.reset.pg p = pgFree :=
  State.reset_rd_psqEntries (by simp only [Reg.PSQ_PG_STATE]; omega) (by simp only [Reg.PSQ_PG_STATE]; omega)

/-- Every status register but that of HST, whose link is down, reads 0, and so does the interrupt enable beside each. -/
theorem State.reset_statusRegs : ∀ b, b ≤ 32 → ∀ st ∈ statusRegsOf b,
    (b ≠ 27 → State.reset.rdw st = 0) ∧ State.reset.rdw (st + 4) = 0 := by
  decide

theorem State.reset_blockFault {b : Nat} (hb : b ≤ 32) : State.reset.blockFault b = false :=
  State.blockFault_eq_false fun st hst => (State.reset_statusRegs b hb st hst).2

/-- Settles O4: the empty stores are in canonical form, and every core is the sound default. -/
theorem resetIsSound : Obligations.ResetIsSound where
  canonical := State.reset_canonical
  cores n := State.reset_core n ▸ CoreX.sound_default []

/-- Settles O37: each value is the reset word of its register, or the default of its field; no block holds unmasked fault status because
every enable is 0. -/
theorem resetValues : Obligations.ResetValues := by
  have hdev : State.reset.dev = stDawn := by decide
  have hcounting : State.reset.counting = false := by decide
  have hpart : State.reset.rd Reg.SYS_ID_PART = 0x8064 := by decide
  have hstepping : State.reset.rd Reg.SYS_ID_STEPPING = 0xA0 := by decide
  exact ⟨hdev, State.reset_coreRun, rfl, hcounting, rfl,
    fun _ => State.reset_blockFault, State.reset_statusRegs,
    fun n => ⟨State.reset_coreLive n, State.reset_getX n⟩,
    fun _ => State.reset_sh, fun _ => State.reset_pg, hpart, hstepping⟩

end Sys2Proof.Machine
end

section
/-! SUPPORT. The clock of an empty queue (R27 to R29): what one clock does to Meridian and to a slew. -/

namespace Sys2Proof.Machine

/-- Settles O1: it is how `step` takes a command. -/
theorem stepTakesFrontCommand : Obligations.StepTakesFrontCommand := fun _ _ _ => rfl

/-- A slew ticks where a mode is set and 1,023 clocks have passed since its last tick (R28). -/
theorem State.slewDue_iff (s : State) : s.slewDue = true ↔ s.rd Reg.TIM_SLEW_MODE ≠ 0 ∧ 1023 ≤ s.slewRun := by
  simp [State.slewDue, State.on]

/-- A count that stays below 64 bits advances Meridian by its number (R27, log 40). -/
theorem State.advance_meridian {s : State} {n : Nat} (h : s.meridian + n < 2 ^ 64) : (s.advance n).meridian = s.meridian + n :=
  if_pos h

theorem State.slewTick_clock (s : State) : s.slewTick.clock = s.clock := by
  unfold State.slewTick
  dsimp only
  split <;> rfl

theorem State.slewTick_slewRun (s : State) : s.slewTick.slewRun = 0 := rfl

/-- A slewed tick adds 2 in mode 1 and drops one in another (R28). -/
theorem State.slewTick_meridian {s : State} (h : s.meridian + 2 < 2 ^ 64) :
    s.slewTick.meridian = if s.rd Reg.TIM_SLEW_MODE = 1 then s.meridian + 2 else s.meridian := by
  unfold State.slewTick
  dsimp only [State.wr_meridian]
  split
  · exact State.advance_meridian h
  · rfl

/-- The clock in which a slew is due is its slewed tick. -/
theorem State.clockTick_of_slewDue {s : State} (h : s.slewDue = true) :
    s.clockTick = ({ s with clock := s.clock + 1 } : State).slewTick := if_pos h

/-- Another clock counts one (R27). -/
theorem State.clockTick_of_not_slewDue {s : State} (h : ¬s.slewDue = true) :
    s.clockTick = { ({ s with clock := s.clock + 1 } : State).advance 1 with
      slewRun := if s.on Reg.TIM_SLEW_MODE then s.slewRun + 1 else 0 } := if_neg h

theorem State.clockTick_clock (s : State) : s.clockTick.clock = s.clock + 1 := by
  by_cases h : s.slewDue = true
  · rw [State.clockTick_of_slewDue h, State.slewTick_clock]
  · rw [State.clockTick_of_not_slewDue h]
    rfl

theorem State.clockTick_meridian {s : State} (h : s.meridian + 2 < 2 ^ 64) : s.clockTick.meridian =
    if s.rd Reg.TIM_SLEW_MODE ≠ 0 ∧ 1023 ≤ s.slewRun then (if s.rd Reg.TIM_SLEW_MODE = 1 then s.meridian + 2 else s.meridian)
    else s.meridian + 1 := by
  by_cases hd : s.slewDue = true
  · rw [State.clockTick_of_slewDue hd, if_pos ((State.slewDue_iff s).1 hd)]
    exact State.slewTick_meridian (s := { s with clock := s.clock + 1 }) h
  · rw [State.clockTick_of_not_slewDue hd, if_neg (mt (State.slewDue_iff s).2 hd)]
    exact State.advance_meridian (s := { s with clock := s.clock + 1 }) (by dsimp only; omega)

/-- A slew in progress counts its 1,024 clocks, and starts anew with the slewed one (R28, log 52). -/
theorem State.clockTick_slewRun {s : State} (h : s.rd Reg.TIM_SLEW_MODE ≠ 0) :
    s.clockTick.slewRun = if 1023 ≤ s.slewRun then 0 else s.slewRun + 1 := by
  by_cases hd : s.slewDue = true
  · rw [State.clockTick_of_slewDue hd, if_pos ((State.slewDue_iff s).1 hd).2, State.slewTick_slewRun]
  · rw [State.clockTick_of_not_slewDue hd, if_neg fun hr => hd ((State.slewDue_iff s).2 ⟨h, hr⟩)]
    exact if_pos (decide_eq_true h)

/-- What is held off in NIGHT is no count of time. -/
theorem State.secondHeld_eq (s : State) : s.secondHeld = { s with due := s.secondHeld.due } := by
  unfold State.secondHeld
  split <;> rfl

/-- A clock while the main PLL does not run (R25, R27). -/
theorem State.tick_of_not_counting {s : State} (h : (if s.counting then s.runDue else s).alwaysOnDue.counting = false) :
    s.tick = ({ (if s.counting then s.runDue else s).alwaysOnDue with
      clock := (if s.counting then s.runDue else s).alwaysOnDue.clock + 1 } : State).secondHeld := by
  unfold State.tick
  dsimp only
  rw [h]
  rfl

/-- A clock while the main PLL runs (R25, R27). -/
theorem State.tick_of_counting {s : State} (h : (if s.counting then s.runDue else s).alwaysOnDue.counting = true) :
    s.tick = (if s.counting then s.runDue else s).alwaysOnDue.clockTick.tickRest.secondHeld := by
  unfold State.tick
  dsimp only
  rw [h]
  rfl

/-- Settles O2: an empty queue gives one tick by the definition of `step`; what the clock in it counts is said of `clockTick`, by whether
a slew is due. -/
theorem emptyQueueTicks : Obligations.EmptyQueueTicks := by
  intro s
  refine ⟨fun h => ?_, State.tick_of_counting, fun h => ?_, State.clockTick_clock s, State.clockTick_meridian,
    State.clockTick_slewRun⟩
  · rw [step, h]
    rfl
  · rw [State.tick_of_not_counting h, State.secondHeld_eq]
    exact ⟨rfl, rfl⟩

end Sys2Proof.Machine
end

section
/-! SUPPORT. What a source that sets leaves as it was, and what a register of blocks SYS and TIM does with a write (R11, R38, R39). -/

namespace Sys2Proof.Machine

/-- A one-bit field reads 1 where its bit is set. -/
theorem State.rd_bit_eq_one (s : State) (off lsb : Nat) : s.rd ⟨off, lsb, 1⟩ = 1 ↔ bitAt (s.rdw off) lsb = true :=
  ⟨decide_eq_true, of_decide_eq_true⟩

theorem State.getReg_wr_ne {s : State} {f : Fld} {v off : Nat} (h : off ≠ f.off) : (s.wr f v).getReg off = s.getReg off := by
  rw [State.wr, State.getReg_setReg, if_neg h]

/-- A state with the same word in `SYS_STATE` is the same state of the device (R33). -/
theorem State.dev_congr {s t : State} (h : t.getReg Reg.SYS_STATE = s.getReg Reg.SYS_STATE) : t.dev = s.dev := by
  simp only [State.dev, State.rd, h]

theorem State.rd_congr {s t : State} {f : Fld} (h : t.getReg f.off = s.getReg f.off) : t.rd f = s.rd f := by
  simp only [State.rd, h]

theorem State.raise_getReg {s : State} {st i off : Nat} (h : off ≠ st) (h' : off ≠ Reg.MGT_ALIVE) :
    (s.raise st i).getReg off = s.getReg off := State.raiseAll_getReg h h'

/-- A source that sets changes registers, the clock of its `FIRST`, the messages to the host, and whether the device is to wake, alone. -/
theorem State.raise_eq (s : State) (st i : Nat) :
    s.raise st i = { s with
      regs := (s.raise st i).regs, firstAt := (s.raise st i).firstAt, hst := (s.raise st i).hst,
      faultWake := (s.raise st i).faultWake } := State.raiseAll_eq s st [i]

@[simp] theorem State.raise_cores (s : State) (st i : Nat) : (s.raise st i).cores = s.cores := by
  rw [State.raise_eq]

@[simp] theorem State.raise_core (s : State) (st i : Nat) (n : Fin 12) : (s.raise st i).core n = s.core n := by
  simp [State.core]

@[simp] theorem State.raise_meridian (s : State) (st i : Nat) : (s.raise st i).meridian = s.meridian := by
  rw [State.raise_eq]

@[simp] theorem State.raise_alarmArmed (s : State) (st i : Nat) : (s.raise st i).alarmArmed = s.alarmArmed := by
  rw [State.raise_eq]

@[simp] theorem State.raise_jrn (s : State) (st i : Nat) : (s.raise st i).jrn = s.jrn := by
  rw [State.raise_eq]

/-- The source that sets reads 1 (R376). -/
theorem State.raise_bit {s : State} {st i : Nat} (hst : st ≠ Reg.MGT_ALIVE) (hi : i < 16) : bitAt ((s.raise st i).rdw st) i = true := by
  rw [State.raise, State.raiseAll_bit s st [i] hst hi]
  simp

theorem State.raise_dev {s : State} {st i : Nat} (h : Reg.SYS_STATE ≠ st) : (s.raise st i).dev = s.dev :=
  State.dev_congr (State.raise_getReg h (by decide))

/-- A write that the master may make goes to the block of its register, where that is no status register or enable. -/
theorem State.masterWrite_block {s : State} {m : Master} {off : Nat} (h : s.mayWrite m off) (v : RegWord)
    (hb : off / 0x10000 < 12 ∨ 21 < off / 0x10000) (he : regExists off = true)
    (hs : (statusRegsOf (off / 0x10000)).contains off = false) (hi : (statusRegsOf (off / 0x10000)).contains (off - 4) = false) :
    s.masterWrite m off v = s.blockWrite (masterNo m) off v.toNat := by
  rw [State.masterWrite_eq h, State.ctrlWrite_block (State.fusedReg_eq hb) he hs hi]

variable {s : State} {m : Master} (v : RegWord)

theorem State.masterWrite_stateReq (h : s.mayWrite m Reg.SYS_STATE_REQ) :
    s.masterWrite m Reg.SYS_STATE_REQ v = s.requestWrite v.toNat :=
  (State.masterWrite_block h v (by decide) (by decide) (by decide) (by decide)).trans rfl

theorem State.masterWrite_slew (h : s.mayWrite m Reg.TIM_SLEW) : s.masterWrite m Reg.TIM_SLEW v = s.slewWrite v.toNat :=
  (State.masterWrite_block h v (by decide) (by decide) (by decide) (by decide)).trans rfl

theorem State.masterWrite_stepHi (h : s.mayWrite m Reg.TIM_STEP_HI) : s.masterWrite m Reg.TIM_STEP_HI v = s.stepWrite v.toNat :=
  (State.masterWrite_block h v (by decide) (by decide) (by decide) (by decide)).trans rfl

theorem State.masterWrite_timCtrl (h : s.mayWrite m Reg.TIM_CTRL) : s.masterWrite m Reg.TIM_CTRL v = s.timCtrl v.toNat :=
  (State.masterWrite_block h v (by decide) (by decide) (by decide) (by decide)).trans rfl

theorem State.masterWrite_alarmLo (h : s.mayWrite m Reg.TIM_ALARM_LO) :
    s.masterWrite m Reg.TIM_ALARM_LO v = s.alarmHalf Reg.TIM_ALARM_LO v.toNat :=
  (State.masterWrite_block h v (by decide) (by decide) (by decide) (by decide)).trans rfl

theorem State.masterWrite_alarmHi (h : s.mayWrite m Reg.TIM_ALARM_HI) :
    s.masterWrite m Reg.TIM_ALARM_HI v = s.alarmHalf Reg.TIM_ALARM_HI v.toNat :=
  (State.masterWrite_block h v (by decide) (by decide) (by decide) (by decide)).trans rfl

end Sys2Proof.Machine
end

section
/-! SUPPORT. Reads of the control window by a core (R17, R19, R20, R30). -/

namespace Sys2Proof.Machine

@[simp] theorem State.decodeErr_core (s : State) (off : Nat) (w : Bool) (m : Nat) (n : Fin 12) :
    (s.decodeErr off w m).core n = s.core n := by
  unfold State.decodeErr
  dsimp only
  rw [State.wr_core, State.wr_core, State.wr_core, State.raise_core]

/-- A decode error changes `SYS_DECODE_INFO` beside what its status source changes (R17). -/
theorem State.decodeErr_getReg {s : State} {off m a : Nat} {w : Bool} (h : a ≠ Reg.SYS_DECODE_INFO) :
    (s.decodeErr off w m).getReg a = (s.raise Reg.SYS_STATUS 1).getReg a := by
  unfold State.decodeErr
  dsimp only
  rw [State.getReg_wr_ne (f := Reg.SYS_DECODE_INFO_MASTER) h, State.getReg_wr_ne (f := Reg.SYS_DECODE_INFO_WRITE) h,
    State.getReg_wr_ne (f := Reg.SYS_DECODE_INFO_OFFSET) h]

@[simp] theorem State.decodeErr_dev (s : State) (off : Nat) (w : Bool) (m : Nat) : (s.decodeErr off w m).dev = s.dev :=
  (State.dev_congr (State.decodeErr_getReg (by decide))).trans (State.raise_dev (by decide))

/-- A decode error sets its status bit (R17). -/
theorem State.decodeErr_status (s : State) (off : Nat) (w : Bool) (m : Nat) :
    (s.decodeErr off w m).rd Reg.SYS_STATUS_DECODE_ERR = 1 := by
  have hbit : (s.raise Reg.SYS_STATUS 1).rd Reg.SYS_STATUS_DECODE_ERR = 1 :=
    (State.rd_bit_eq_one _ _ _).2 (State.raise_bit (by decide) (by decide))
  exact (State.rd_congr (State.decodeErr_getReg (by decide))).trans hbit

/-- A decode error latches the offset, the direction and the master (R17, R38). -/
theorem State.decodeErr_info {s : State} {off m : Nat} (w : Bool) (ho : off < 2 ^ 22) (hm : m < 16) :
    (s.decodeErr off w m).rd Reg.SYS_DECODE_INFO_OFFSET = off ∧ (s.decodeErr off w m).rd Reg.SYS_DECODE_INFO_WRITE = boolNat w ∧
      (s.decodeErr off w m).rd Reg.SYS_DECODE_INFO_MASTER = m := by
  simp only [State.decodeErr]
  refine ⟨?_, ?_, ?_⟩
  · rw [State.rd_wr_ne _ _ _ _ (by decide) (by decide), State.rd_wr_ne _ _ _ _ (by decide) (by decide),
      State.rd_wr _ _ _ (by decide), Nat.mod_eq_of_lt ho]
  · rw [State.rd_wr_ne _ _ _ _ (by decide) (by decide), State.rd_wr _ _ _ (by decide)]
    cases w <;> rfl
  · exact (State.rd_wr _ _ _ (by decide)).trans (Nat.mod_eq_of_lt hm)

/-- What a read changes beside the word it returns is not the state of the device, nor a core. -/
theorem State.readEffect_frame (s : State) (m off : Nat) (n : Fin 12) :
    (s.readEffect m off).core n = s.core n ∧ (s.readEffect m off).dev = s.dev := by
  unfold State.readEffect
  dsimp only
  split
  · exact ⟨rfl, State.dev_congr rfl⟩
  · split
    · exact ⟨rfl, State.dev_congr rfl⟩
    · split
      · exact ⟨State.wr_core .., State.dev_congr (State.getReg_wr_ne (by dsimp only [Reg.SYS_STATE, Reg.PRA_L_DELAY]; omega))⟩
      · split <;> exact ⟨rfl, State.dev_congr rfl⟩

theorem State.ctrlRead_frame (s : State) (m off : Nat) (n : Fin 12) :
    (s.ctrlRead m off).1.core n = s.core n ∧ (s.ctrlRead m off).1.dev = s.dev := by
  unfold State.ctrlRead
  split
  · exact ⟨State.decodeErr_core .., State.decodeErr_dev ..⟩
  · split
    · exact ⟨rfl, rfl⟩
    · exact State.readEffect_frame s m off n

/-- An instruction that retires leaves every control register as it was. -/
theorem State.Retires.getReg {s t : State} {n : Fin 12} {rd : Fin 32} {v : Word} {pc : Nat} (h : s.Retires n rd v pc t) (off : Nat) :
    t.getReg off = s.getReg off := by
  obtain ⟨-, -, -, ht⟩ := h
  rw [ht]
  rfl

/-- A register is written and the next instruction follows. -/
theorem State.retires_nextPc {s : State} {n : Fin 12} (rd : Fin 32) (v : Word) (hp : (s.core n).pc + 4 < 0x10000) :
    s.Retires n rd v ((s.core n).pc + 4) ((s.setX n rd v).nextPc n) := by
  have e : ((s.setX n rd v).core n).pc = (s.core n).pc := by rw [State.core_setX]; split <;> rfl
  rw [State.nextPc_eq (by rw [e]; exact hp), e]
  exact State.retires_setX s n rd v _

/-- A load that puts `v` into its register after a read that left `r`: the command completes, the register holds `v` and the control
registers are those of `r`. -/
theorem State.ok_setX_nextPc {r : State} {n : Fin 12} (rd : Fin 32) (v : Word) (hp : (r.core n).pc + 4 < 0x10000)
    (hd : r.dev ≠ stEvening) :
    ∃ t, ok ((r.setX n rd v).nextPc n) = .next t ∧ t.getX n rd = (if rd = 0 then 0 else v) ∧ ∀ off, t.getReg off = r.getReg off := by
  have ht := State.retires_nextPc (s := r) rd v hp
  refine ⟨(r.setX n rd v).nextPc n, ?_, ?_, ht.getReg⟩
  · rw [ok, State.settle_eq (by rw [State.dev_congr (ht.getReg _)]; exact hd)]
  · by_cases h0 : rd = 0
    · simp [h0, State.getX]
    · rw [ht.1, if_pos ⟨rfl, h0⟩, if_neg h0]

/-- A load whose address lies in the control window goes there (R18, R197). -/
theorem State.coreLoad_control {s : State} {n : Fin 12} {ra : Fin 32} {imm : BitVec 16} {off : Nat} (hi : s.issues n)
    (ho : off < 0x400000) (ha : (s.getX n ra + BitVec.ofInt 64 imm.toInt).toNat = 0xF0000000 + off) (len : Nat) (signed : Bool)
    (rd : Fin 32) : s.coreLoad n len signed rd ra imm = s.controlLoad n len signed rd off := by
  have haddr : (s.effAddr n ra imm).toNat = 0xF0000000 + off := ha
  have hl : localAddr n (0xF0000000 + off) = 0xF0000000 + off := if_neg (by omega)
  have hplace : placeOf (0xF0000000 + off) = .control := by
    unfold placeOf
    rw [if_neg (by omega), if_neg (by omega), if_neg (by omega), if_pos (by omega)]
  have hallowed : s.accessAllowed n .load (0xF0000000 + off) = true := by simp [State.accessAllowed, hl, hplace]
  have hfault : s.accessFault n .load (0xF0000000 + off) len = none := by simp [State.accessFault, hallowed, hl, hplace]
  simp only [State.coreLoad, State.issue_eq hi, haddr, hl, hfault, hplace, if_pos, Nat.add_sub_cancel_left]

/-- A load that is no word, or not aligned to one, is a decode error that returns 0 (R19). -/
theorem State.controlLoad_of_ne_word {s : State} {n : Fin 12} {len off : Nat} (h : len ≠ 4) (signed : Bool) (rd : Fin 32) :
    s.controlLoad n len signed rd off = ((s.decodeErr off false n).setX n rd 0).nextPc n := if_pos (.inl h)

/-- A load of a word with none of the core's writes to that block on its way returns what the register shows (R20). -/
theorem State.controlLoad_word {s : State} {n : Fin 12} {off : Nat} (hl : s.coreLive n = true) (ho : off % 4 = 0)
    (hp : ∀ e ∈ (s.core n).posted, e.1 / 0x10000 ≠ off / 0x10000) (signed : Bool) (rd : Fin 32) :
    s.controlLoad n 4 signed rd off =
      ((s.ctrlRead n off).1.setX n rd (extended 4 signed (s.ctrlRead n off).2.toNat)).nextPc n := by
  unfold State.controlLoad
  rw [if_neg (by omega)]
  simp only [State.drainBlock_eq hp]
  rw [if_pos hl]

/-- The signed reading of a word. -/
theorem extended_word_signed (w : RegWord) : extended 4 true w.toNat = BitVec.ofInt 64 w.toInt := by
  have := w.isLt
  simp only [extended, signedOf, if_true, BitVec.toInt_eq_toNat_cond, Nat.mod_eq_of_lt this]
  congr 1
  split <;> split <;> omega

/-- Settles O11: a load of the window is `ctrlRead` where it is an aligned word, and a decode error else; neither changes the core's pc
or the device's state, so the load retires. -/
theorem controlLoads : Obligations.ControlLoads := by
  intro s n rd ra imm off hi hpc hoff haddr hposted w
  have hlive := State.live_of_issue hi.1
  have hdev := State.dev_of_clock (State.clock_of_live hlive)
  obtain ⟨hcore, hrdev⟩ := State.ctrlRead_frame s n off n
  have hword (hal : off % 4 = 0) (signed : Bool) :
      ∃ t, ok (s.coreLoad n 4 signed rd ra imm) = .next t ∧ t.getX n rd = if rd = 0 then 0 else extended 4 signed w.toNat := by
    rw [State.coreLoad_control hi hoff haddr, State.controlLoad_word hlive hal hposted]
    obtain ⟨t, ht, hx, -⟩ := State.ok_setX_nextPc (r := (s.ctrlRead n off).1) (n := n) rd (extended 4 signed w.toNat)
      (by rw [hcore]; exact hpc) (by rw [hrdev]; exact hdev)
    exact ⟨t, ht, hx⟩
  have hother (len : Nat) (signed : Bool) (hlen : len ≠ 4) : ∃ t, ok (s.coreLoad n len signed rd ra imm) = .next t ∧
      t.getX n rd = 0 ∧ t.rd Reg.SYS_STATUS_DECODE_ERR = 1 ∧ t.rd Reg.SYS_DECODE_INFO_OFFSET = off ∧
        t.rd Reg.SYS_DECODE_INFO_WRITE = 0 ∧ t.rd Reg.SYS_DECODE_INFO_MASTER = n.val := by
    rw [State.coreLoad_control hi hoff haddr, State.controlLoad_of_ne_word hlen]
    obtain ⟨t, ht, hx, hr⟩ := State.ok_setX_nextPc (r := s.decodeErr off false n) (n := n) rd 0
      (by rw [State.decodeErr_core]; exact hpc) (by rw [State.decodeErr_dev]; exact hdev)
    obtain ⟨hofs, hwrite, hmaster⟩ := State.decodeErr_info (s := s) (off := off) (m := n) false (by omega) (by omega)
    exact ⟨t, ht, hx.trans (ite_self 0), (State.rd_congr (hr _)).trans (State.decodeErr_status ..), (State.rd_congr (hr _)).trans hofs,
      (State.rd_congr (hr _)).trans hwrite, (State.rd_congr (hr _)).trans hmaster⟩
  refine ⟨fun hal => ⟨?_, hword hal false⟩, ?_⟩
  · obtain ⟨t, ht, hx⟩ := hword hal true
    rw [extended_word_signed] at hx
    exact ⟨t, ht, hx⟩
  · simp only [List.forall_mem_cons]
    exact ⟨hother 1 true (by decide), hother 1 false (by decide), hother 2 true (by decide), hother 2 false (by decide),
      hother 8 false (by decide), by simp⟩

end Sys2Proof.Machine
end

section
/-! SUPPORT. The time registers: the shadow of Meridian, the slew, the step and the alarm (R27 to R30, R39, R420). -/

namespace Sys2Proof.Machine

/-! ## Commands whose meaning is a next state -/

theorem leads_of {c : Instr} {s t : State} {P : State → Prop} (hc : exec c s = ok t) (hp : P t) : Leads c s P := ⟨t, hc, hp⟩

/-- A command that leaves a state outside EVENING leaves it as it is. -/
theorem completes_of {c : Instr} {s t : State} {P : State → Prop} (hc : exec c s = ok t) (hd : t.dev ≠ stEvening) (hp : P t) :
    Completes c s P := ⟨t, by rw [hc, ok, State.settle_eq hd], hp⟩

theorem State.resume_eq_self {s : State} (h : s.dev ≠ stEvening) : s.resume = s := if_neg h

/-- A master that may write runs while the core tree does, so outside EVENING (R25, R33). -/
theorem State.mayWrite.dev_ne_evening {s : State} {m : Master} {off : Nat} (h : s.mayWrite m off) : s.dev ≠ stEvening := by
  obtain ⟨hlive, -⟩ := h
  cases m with
  | core n => exact State.dev_of_clock (State.clock_of_live hlive)
  | host => exact State.dev_of_clock (Bool.and_eq_true_iff.1 hlive).2
  | jtag => exact State.dev_of_clock hlive

/-! ## Reads by a master -/

/-- A read by a master that is there, with none of its writes to that block on its way (R20). -/
theorem State.masterRead_eq {s : State} {m : Master} {off : Nat} (hl : s.masterLive m = true)
    (hp : ∀ n, m = .core n → ∀ e ∈ (s.core n).posted, e.1 / 0x10000 ≠ off / 0x10000) :
    s.masterRead m off = s.ctrlRead (masterNo m) off := by
  unfold State.masterRead
  rw [hl]
  cases m with
  | core n => simp [State.drainFor, State.drainBlock_eq (hp n rfl)]
  | host => rfl
  | jtag => rfl

/-- A read of `TIM_NOW_LO` latches the upper half of Meridian for the master that reads (R30). -/
theorem State.ctrlRead_nowLo (s : State) (m : Nat) : (s.ctrlRead m Reg.TIM_NOW_LO).1 =
    { s with nowShadow := s.nowShadow.setIfInBounds m (BitVec.ofNat 32 (s.meridian / 2 ^ 32)) } := by
  have he : regExists Reg.TIM_NOW_LO = true := by decide
  simp only [State.ctrlRead, he, State.fusedReg_eq (s := s) (off := Reg.TIM_NOW_LO) (by decide), State.readEffect, if_pos,
    Bool.not_true, Bool.false_eq_true, if_false]

/-- A read of `TIM_NOW_HI` shows the master's own shadow (R30). -/
theorem State.regView_nowHi (s : State) (m : Nat) : s.regView m Reg.TIM_NOW_HI = (s.nowShadow.toList.getD m 0).toNat := rfl

theorem masterNo_lt (m : Master) : masterNo m < 15 := by
  cases m with
  | core n => exact Nat.lt_of_lt_of_le n.isLt (by decide)
  | host => decide
  | jtag => decide

/-- The shadow of master `k` after the one of master `m` has taken `w`. -/
theorem getD_setIfInBounds {v : Vector RegWord 15} {m : Nat} (hm : m < 15) (w : RegWord) (k : Nat) :
    (v.setIfInBounds m w).toList.getD k 0 = if k = m then w else v.toList.getD k 0 := by
  have hlen : v.toList.length = 15 := by simp
  have hset : (v.setIfInBounds m w).toList = v.toList.set m w := by simp [Vector.toList, Vector.setIfInBounds]
  rw [hset, List.getD_eq_getElem?_getD, List.getD_eq_getElem?_getD, List.getElem?_set]
  by_cases h : m = k
  · rw [if_pos h, if_pos (by omega), if_pos h.symm, Option.getD_some]
  · rw [if_neg h, if_neg (Ne.symm h)]

/-! ## The slew (R28, R39) -/

theorem State.slew_of_ne_three {s : State} {mode : Nat} (h : mode ≠ 3) (count : Nat) : s.slew mode count =
    (({ s with slewRun := 0 } : State).wr Reg.TIM_SLEW_COUNT (if mode = 0 then 0 else count)).wr Reg.TIM_SLEW_MODE
      (if (if mode = 0 then 0 else count) % 65536 = 0 then 0 else mode) := if_neg h

/-- A slew write changes its register and the count of its 1,024 clocks alone. -/
theorem State.slew_onlyRegs (s : State) (mode count : Nat) :
    ({ s with slewRun := (s.slew mode count).slewRun } : State).OnlyRegs (s.slew mode count) [Reg.TIM_SLEW] := by
  by_cases h : mode = 3
  · subst h
    exact ⟨rfl, fun _ _ => rfl⟩
  · rw [State.slew_of_ne_three h]
    refine ⟨rfl, fun off hoff => ?_⟩
    have hne : off ≠ Reg.TIM_SLEW := by simpa using hoff
    rw [State.getReg_wr_ne hne, State.getReg_wr_ne hne]
    rfl

/-- What `TIM_SLEW` reads after a count and a mode that fit it have been stored. -/
theorem State.rd_slew_wr (s : State) {mode count : Nat} (hm : mode < 4) (hc : count < 65536) :
    ((s.wr Reg.TIM_SLEW_COUNT count).wr Reg.TIM_SLEW_MODE mode).rd Reg.TIM_SLEW_COUNT = count ∧
      ((s.wr Reg.TIM_SLEW_COUNT count).wr Reg.TIM_SLEW_MODE mode).rd Reg.TIM_SLEW_MODE = mode := by
  refine ⟨?_, (State.rd_wr _ _ _ (by decide)).trans (Nat.mod_eq_of_lt hm)⟩
  rw [State.rd_wr_ne _ _ _ _ (by decide) (by decide)]
  exact (State.rd_wr _ _ _ (by decide)).trans (Nat.mod_eq_of_lt hc)

/-- A number that is cut to 0 stays below its bound. -/
theorem ite_zero_lt {p : Prop} [Decidable p] {a n : Nat} (h : a < n) : (if p then 0 else a) < n := by
  split
  · exact Nat.zero_lt_of_lt h
  · exact h

/-- What `TIM_SLEW` reads after a slew of a count that fits has been written. -/
theorem State.slew_fields {s : State} {mode count : Nat} (h : mode < 3) (hc : count < 65536) :
    (s.slew mode count).rd Reg.TIM_SLEW_COUNT = (if mode = 0 then 0 else count) ∧
      (s.slew mode count).rd Reg.TIM_SLEW_MODE = if (if mode = 0 then 0 else count) = 0 then 0 else mode := by
  have hcount : (if mode = 0 then 0 else count) < 65536 := ite_zero_lt hc
  rw [State.slew_of_ne_three (by omega), Nat.mod_eq_of_lt hcount]
  exact State.rd_slew_wr _ (ite_zero_lt (by omega)) hcount

/-- A slewed tick counts one off, and the last ends the slew (R39). -/
theorem State.slewTick_fields {s : State} (hc : s.rd Reg.TIM_SLEW_COUNT ≠ 0) :
    s.slewTick.rd Reg.TIM_SLEW_COUNT = s.rd Reg.TIM_SLEW_COUNT - 1 ∧
      s.slewTick.rd Reg.TIM_SLEW_MODE = if s.rd Reg.TIM_SLEW_COUNT = 1 then 0 else s.rd Reg.TIM_SLEW_MODE := by
  have hcount : s.rd Reg.TIM_SLEW_COUNT < 65536 := bitsOf_lt _ 16 16
  have hmode : s.rd Reg.TIM_SLEW_MODE < 4 := bitsOf_lt _ 0 2
  have hkeep : (if s.rd Reg.TIM_SLEW_MODE = 1 then s.advance 2 else s).rd Reg.TIM_SLEW_COUNT = s.rd Reg.TIM_SLEW_COUNT := by
    split <;> rfl
  have hlast : s.rd Reg.TIM_SLEW_COUNT - 1 = 0 ↔ s.rd Reg.TIM_SLEW_COUNT = 1 := by omega
  unfold State.slewTick
  dsimp only
  simp only [hkeep, hlast]
  exact State.rd_slew_wr _ (ite_zero_lt hmode) (by omega)

/-! ## Plain writes (R11) -/

/-- A bit of access RW takes the bit written. -/
theorem State.bitAt_plainWrite {s : State} {off v i : Nat} (hi : i < 32) (hrw : (regRwMask off).testBit i = true)
    (hw : (regW1cMask off).testBit i = false) : bitAt ((s.plainWrite off v).rdw off) i = bitAt v i := by
  have hall : Nat.testBit 0xFFFFFFFF i = true := by
    rw [show (0xFFFFFFFF : Nat) = 2 ^ 32 - 1 from rfl, Nat.testBit_two_pow_sub_one]
    exact decide_eq_true hi
  rw [bitAt_eq, bitAt_eq, State.plainWrite, State.rdw_wrw, if_pos rfl, Nat.testBit_mod_two_pow]
  simp [hi, plainWord, hrw, hw, hall]

/-- A register whose bits are all of access RW takes the word written. -/
theorem State.rdw_plainWrite_of_rw {s : State} {off : Nat} (v : RegWord)
    (h : ∀ i < 32, (regRwMask off).testBit i = true ∧ (regW1cMask off).testBit i = false) :
    (s.plainWrite off v.toNat).rdw off = v.toNat := by
  apply Nat.eq_of_testBit_eq
  intro i
  by_cases hi : i < 32
  · rw [← bitAt_eq, ← bitAt_eq, State.bitAt_plainWrite hi (h i hi).1 (h i hi).2]
  · have hle : 2 ^ 32 ≤ 2 ^ i := Nat.pow_le_pow_right (by decide) (by omega)
    have hold : ((s.plainWrite off v.toNat).rdw off).testBit i = false :=
      Nat.testBit_lt_two_pow (Nat.lt_of_lt_of_le ((s.plainWrite off v.toNat).getReg off).isLt hle)
    rw [hold, Nat.testBit_lt_two_pow (Nat.lt_of_lt_of_le v.isLt hle)]

end Sys2Proof.Machine
end

section
/-! SUPPORT. What the commands on the time registers leave, one lemma for each (R28, R30, R39, R420). -/

namespace Sys2Proof.Machine

/-- A read of `TIM_NOW_LO` latches Meridian's upper half for its master alone (R30). -/
theorem timNowLoRead_latches {s : State} {m : Master} (h : s.meridian < 2 ^ 64) (hl : s.masterLive m = true)
    (hp : ∀ n, m = .core n → ∀ e ∈ (s.core n).posted, e.1 / 0x10000 ≠ 1) :
    Leads (.timNowLoRead m) s fun t => t.regView (masterNo m) Reg.TIM_NOW_HI = s.meridian / 2 ^ 32 ∧
      ∀ k, k ≠ masterNo m → t.regView k Reg.TIM_NOW_HI = s.regView k Reg.TIM_NOW_HI := by
  refine leads_of rfl ?_
  rw [State.masterRead_eq hl hp, State.ctrlRead_nowLo]
  simp only [State.regView_nowHi, getD_setIfInBounds (masterNo_lt m)]
  refine ⟨?_, fun k hk => by rw [if_neg hk]⟩
  rw [if_pos trivial, BitVec.toNat_ofNat, Nat.mod_eq_of_lt (by omega)]

/-- A slew write replaces the slew; mode 3 changes nothing (R39). -/
theorem timSlewWrite_replaces {s : State} {m : Master} (v : RegWord) (h : s.mayWrite m Reg.TIM_SLEW) :
    let mode := bitsOf v.toNat 0 2
    let count := if mode = 0 then 0 else bitsOf v.toNat 16 16
    Leads (.timSlewWrite m v) s fun t => ({ s with slewRun := t.slewRun } : State).OnlyRegs t [Reg.TIM_SLEW] ∧
      (mode = 3 → t = s) ∧ (mode ≠ 3 → t.slewRun = 0 ∧ t.rd Reg.TIM_SLEW_COUNT = count ∧
        t.rd Reg.TIM_SLEW_MODE = if count = 0 then 0 else mode) := by
  intro mode count
  have hmode : mode < 4 := bitsOf_lt _ 0 2
  have ht : s.masterWrite m Reg.TIM_SLEW v = s.slew mode (bitsOf v.toNat 16 16) := State.masterWrite_slew v h
  refine leads_of (congrArg ok ht) ⟨State.slew_onlyRegs .., fun h3 => if_pos h3, fun h3 => ⟨?_, ?_⟩⟩
  · rw [State.slew_of_ne_three h3]
    rfl
  · exact State.slew_fields (by omega) (bitsOf_lt _ 16 16)

/-- An advance that stays below 64 bits changes Meridian alone (R27, log 40). -/
theorem State.advance_eq {s : State} {n : Nat} (h : s.meridian + n < 2 ^ 64) : s.advance n = { s with meridian := s.meridian + n } := by
  unfold State.advance
  dsimp only
  rw [if_pos h]

/-- A step in DAWN moves Meridian by the whole of it; elsewhere it is refused (R28, R39). -/
theorem timStep_dawn {s : State} {m : Master} (v : RegWord) {goal : Nat} (h : s.mayWrite m Reg.TIM_STEP_HI) (hd : s.dev = stDawn)
    (hgoal : s.meridian + (s.rdw Reg.TIM_STEP_LO + v.toNat * 2 ^ 32) = goal) (hlt : goal < 2 ^ 64) :
    Completes (.timStep m v) s fun t => t = { s with meridian := goal } := by
  have ht : s.masterWrite m Reg.TIM_STEP_HI v = { s with meridian := goal } := by
    rw [State.masterWrite_stepHi v h, State.stepWrite, State.forwardStep, if_pos hd, Nat.mod_eq_of_lt v.isLt,
      State.advance_eq (by rw [hgoal]; exact hlt), hgoal]
  exact completes_of (congrArg ok ht) h.dev_ne_evening rfl

@[inherit_doc timStep_dawn] theorem timStep_refused {s : State} {m : Master} (v : RegWord) (h : s.mayWrite m Reg.TIM_STEP_HI)
    (hd : s.dev ≠ stDawn) :
    Leads (.timStep m v) s fun t => t.meridian = s.meridian ∧ t.rd Reg.TIM_STATUS_STEP_REFUSED = 1 := by
  have ht : s.masterWrite m Reg.TIM_STEP_HI v = s.raise Reg.TIM_STATUS 1 := by
    rw [State.masterWrite_stepHi v h, State.stepWrite, State.forwardStep, if_neg hd]
  exact leads_of (congrArg ok ht)
    ⟨State.raise_meridian .., (State.rd_bit_eq_one ..).2 (State.raise_bit (by decide) (by decide))⟩

/-- Raising `ALARM_EN` arms the alarm (R420). -/
theorem alarmArm_ctrl {s : State} {m : Master} (v : RegWord) (h : s.mayWrite m Reg.TIM_CTRL) (h0 : s.rd Reg.TIM_CTRL_ALARM_EN = 0) :
    Leads (.alarmArm m .ctrl v) s fun t => t.alarmArmed = true ∧ t.rd Reg.TIM_CTRL_ALARM_EN = 1 := by
  have hen : (s.plainWrite Reg.TIM_CTRL (withBit v 0 true).toNat).rd Reg.TIM_CTRL_ALARM_EN = 1 := by
    rw [State.rd_bit_eq_one, State.bitAt_plainWrite (by decide) (by decide) (by decide), bitAt_withBit v 0 true 0 (by decide)]
    rfl
  refine leads_of (congrArg ok (State.masterWrite_timCtrl _ h)) ⟨?_, hen⟩
  simp [State.timCtrl, State.on, hen, h0]

/-- A write to a half of the alarm time stores it, and arms the alarm again while it is enabled (R420). -/
theorem State.alarmHalf_arms {s : State} {off : Nat} (v : RegWord) (hc : Reg.TIM_CTRL ≠ off)
    (hrw : ∀ i < 32, (regRwMask off).testBit i = true ∧ (regW1cMask off).testBit i = false) :
    (s.alarmHalf off v.toNat).rdw off = v.toNat ∧
      (s.rd Reg.TIM_CTRL_ALARM_EN = 1 → (s.alarmHalf off v.toNat).alarmArmed = true) := by
  have hword := State.rdw_plainWrite_of_rw (s := s) v hrw
  have hen : (s.plainWrite off v.toNat).rd Reg.TIM_CTRL_ALARM_EN = s.rd Reg.TIM_CTRL_ALARM_EN := State.rd_wrw_ne _ _ _ _ hc
  unfold State.alarmHalf
  dsimp only
  split
  · exact ⟨hword, fun _ => rfl⟩
  · next h =>
    refine ⟨hword, fun h1 => absurd ?_ h⟩
    simp [State.on, hen, h1]

theorem alarmArm_half {s : State} {m : Master} (v : RegWord) (r : AlarmReg) (off : Nat)
    (hr : (r, off) ∈ [(AlarmReg.lo, Reg.TIM_ALARM_LO), (AlarmReg.hi, Reg.TIM_ALARM_HI)]) (h : s.mayWrite m off) :
    Leads (.alarmArm m r v) s fun t => t.rdw off = v.toNat ∧ (s.rd Reg.TIM_CTRL_ALARM_EN = 1 → t.alarmArmed = true) := by
  simp only [List.mem_cons, Prod.mk.injEq, List.not_mem_nil, or_false] at hr
  obtain ⟨rfl, rfl⟩ | ⟨rfl, rfl⟩ := hr
  · exact leads_of (congrArg ok (State.masterWrite_alarmLo v h)) (State.alarmHalf_arms v (by decide) (by decide))
  · exact leads_of (congrArg ok (State.masterWrite_alarmHi v h)) (State.alarmHalf_arms v (by decide) (by decide))

/-- An alarm that is due disarms, sets its status and wakes the device from EVENING (R420). -/
theorem State.alarmFire_of_due {s : State} (h : s.alarmDue = true) :
    s.alarmFire = (({ s with alarmArmed := false } : State).raise Reg.TIM_STATUS 0).resume := if_pos h

theorem alarmFire_outside_evening {s : State} (h : s.alarmDue = true) (hd : s.dev ≠ stEvening) :
    Completes .alarmFire s fun t => t.alarmArmed = false ∧ t.rd Reg.TIM_STATUS_ALARM = 1 ∧ t.dev = s.dev := by
  have hdev : (({ s with alarmArmed := false } : State).raise Reg.TIM_STATUS 0).dev = s.dev := State.raise_dev (by decide)
  have ht : s.alarmFire = ({ s with alarmArmed := false } : State).raise Reg.TIM_STATUS 0 := by
    rw [State.alarmFire_of_due h, State.resume_eq_self (by rw [hdev]; exact hd)]
  exact completes_of (congrArg ok ht) (by rw [hdev]; exact hd)
    ⟨State.raise_alarmArmed .., (State.rd_bit_eq_one ..).2 (State.raise_bit (by decide) (by decide)), hdev⟩

/-- Settles O34: each command on the time registers does what the lemma about it says; a slewed tick is `slewTick`, and a slew that is
due in a counting device makes the tick the slewed one. -/
theorem timeRegisters : Obligations.TimeRegisters := by
  intro s m v hm mode count
  refine ⟨fun hl hp => timNowLoRead_latches (by omega) hl hp,
    fun n rd hi hpc => State.issueNext_setX hi hpc rd (BitVec.ofNat 64 s.meridian),
    timSlewWrite_replaces v, fun hc h0 hr => ?_,
    fun _ hc => ⟨State.slewTick_meridian hm, State.slewTick_fields hc⟩,
    fun h => ⟨fun hd => timStep_dawn v h hd (Nat.add_assoc ..).symm, timStep_refused v h⟩,
    alarmArm_ctrl v, alarmArm_half v, alarmFire_outside_evening, fun h => ?_⟩
  · have ht : s.slewedTick = s.tick := if_pos ⟨hc, (State.slewDue_iff s).2 ⟨h0, hr⟩⟩
    exact congrArg ok ht
  · exact congrArg ok (State.alarmFire_of_due h)

end Sys2Proof.Machine
end

section
/-! SUPPORT. The states of the device: requests, their refusals, and the ends of NOON and DUSK (R33, R38, R70). -/

namespace Sys2Proof.Machine

/-! ## The move to another state -/

/-- The state moved to, and the one left in `LAST` (R38). -/
theorem State.goTo_fields (s : State) {d : Nat} (h : d < 8) : (s.goTo d).dev = d ∧ (s.goTo d).rd Reg.SYS_STATE_LAST = s.dev := by
  have hdev : s.dev < 8 := bitsOf_lt _ 0 3
  refine ⟨(State.rd_wr _ _ _ (by decide)).trans (Nat.mod_eq_of_lt h), ?_⟩
  rw [State.goTo, State.rd_wr_ne _ _ _ _ (by decide) (by decide)]
  exact (State.rd_wr _ _ _ (by decide)).trans (Nat.mod_eq_of_lt hdev)

/-! ## What a supply sequence and a loss of state leave as it was (R279, R280, R419) -/

/-- What each step of a loop leaves as it was, the loop leaves. -/
theorem forEach_frame {α σ β : Type} {f : σ → α → σ} (g : σ → β) (hf : ∀ s a, g (f s a) = g s) (l : List α) (s : σ) :
    g (forEach l s f) = g s := by
  induction l generalizing s with
  | nil => rfl
  | cons a l ih => exact (ih (f s a)).trans (hf s a)

section
variable {β : Type} (g : State → β)

/-- A sequence that goes on changes registers and what the supervisor holds, alone (R279). -/
theorem State.toStep_frame (hr : ∀ s f v, g (s.wr f v) = g s) (hp : ∀ s p, g { s with pwr := p } = g s) (s : State)
    (steps : List Nat) (done : Nat) : g (s.toStep steps done) = g s := by
  unfold State.toStep
  split <;> exact (hp _ _).trans (hr _ _ _)

/-- The down sequence of an entry to NIGHT begins: the supervisor alone takes note of it (R280). -/
theorem State.downSequence_false_frame (hr : ∀ s f v, g (s.wr f v) = g s) (hp : ∀ s p, g { s with pwr := p } = g s) (s : State) :
    g (s.downSequence false) = g s := by
  unfold State.downSequence
  simp only [Bool.false_eq_true, if_false]
  rw [hp, State.toStep_frame g hr hp, hr, hp]

/-- OTP, fuses and straps load registers alone (R12). -/
theorem State.loadOtp_frame (hg : ∀ s off w, g (s.setReg off w) = g s) (s : State) (power : Bool) : g (s.loadOtp power) = g s := by
  have hwr (s : State) (f : Fld) (v : Nat) : g (s.wr f v) = g s := hg _ _ _
  have hwr64 (s : State) (lo hi v : Nat) : g (s.wr64 lo hi v) = g s := (hg _ _ _).trans (hg _ _ _)
  have hload : g (forEach s.aon.otpRegs s fun s e => if power || !keptReg e.1 then s.setReg e.1 e.2 else s) = g s :=
    forEach_frame g (fun s e => (apply_ite g _ _ _).trans (by rw [hg, ite_self])) _ _
  unfold State.loadOtp
  dsimp only
  rw [hwr, hwr, hwr, hwr, hwr, hwr64, ← hload]
  split
  · exact hwr _ _ _
  · rfl

end

/-- `PWR_SEQ_STATE` is the one register that a sequence changes as it goes on. -/
theorem State.toStep_getReg {s : State} {steps : List Nat} {done off : Nat} (h : off ≠ Reg.PWR_SEQ_STATE) :
    (s.toStep steps done).getReg off = s.getReg off := by
  unfold State.toStep
  split <;> exact State.getReg_wr_ne h

@[inherit_doc State.toStep_getReg] theorem State.downSequence_false_getReg {s : State} {off : Nat} (h : off ≠ Reg.PWR_SEQ_STATE) :
    (s.downSequence false).getReg off = s.getReg off := by
  unfold State.downSequence
  simp only [Bool.false_eq_true, if_false]
  exact (State.toStep_getReg h).trans (State.getReg_wr_ne h)

/-- What NIGHT loses: the on-die memories read free values from now on (R419). -/
theorem State.lost_mem (s : State) (power : Bool) :
    (s.lost true power).mem = [] ∧ (s.lost true power).dieEpoch = s.dieEpoch + 1 := by
  unfold State.lost
  dsimp only
  exact ⟨State.loadOtp_frame State.mem (fun _ _ _ => rfl) _ power, State.loadOtp_frame State.dieEpoch (fun _ _ _ => rfl) _ power⟩

/-- A requested entry to NIGHT, from a state that has lost its contents, by the supervisor's down sequence (R33, R280, R419). -/
theorem State.night_fields (s : State) : s.night.dev = stNight ∧ s.night.rd Reg.SYS_STATE_LAST = s.dev ∧ s.night.mem = [] ∧
    s.night.dieEpoch = s.dieEpoch + 1 := by
  have hdev : s.dev < 8 := bitsOf_lt _ 0 3
  obtain ⟨hmem, hepoch⟩ := State.lost_mem s false
  unfold State.night
  dsimp only
  refine ⟨?_, ?_, ?_, ?_⟩
  · rw [State.dev_congr (State.downSequence_false_getReg (by decide)), State.dev, State.rd_wr_ne _ _ _ _ (by decide) (by decide)]
    exact State.rd_wr _ _ _ (by decide)
  · rw [State.rd_congr (State.downSequence_false_getReg (by decide))]
    exact (State.rd_wr _ _ _ (by decide)).trans (Nat.mod_eq_of_lt hdev)
  · rw [State.downSequence_false_frame State.mem State.wr_mem (fun _ _ => rfl), State.wr_mem, State.wr_mem, hmem]
  · rw [State.downSequence_false_frame State.dieEpoch State.wr_dieEpoch (fun _ _ => rfl), State.wr_dieEpoch, State.wr_dieEpoch, hepoch]

/-! ## Requests -/

/-- A request that the master may make is judged (R38). -/
theorem State.requestState_eq {s : State} {m : Master} (h : s.mayWrite m Reg.SYS_STATE_REQ) {d : Nat} (hd : d < 8) :
    s.requestState m d = s.request d := by
  have hv : (BitVec.ofNat 32 (d + 8)).toNat = d + 8 := by rw [BitVec.toNat_ofNat, Nat.mod_eq_of_lt (by omega)]
  have hreq : bitAt (d + 8) 3 = true := by simp only [bitAt, decide_eq_true_eq]; omega
  have hto : bitsOf (d + 8) 0 3 = d := by simp only [bitsOf]; omega
  rw [State.requestState, State.masterWrite_stateReq _ h, hv, State.requestWrite, if_pos hreq, hto]

/-- A request that a condition refuses (R38). -/
theorem State.request_refused {s : State} {d : Nat} (h : s.refusal d ≠ 0) :
    s.request d = (s.raise Reg.SYS_STATUS 3).wr Reg.SYS_REFUSE_REASON (s.refusal d) := if_pos h

theorem State.request_goTo {s : State} {d : Nat} (h : s.refusal d = 0) (hn : d ≠ stNight) (he : d ≠ stEvening) :
    s.request d = s.goTo d := by
  simp only [State.request, h, ne_eq, not_true_eq_false, if_false, if_neg hn, if_neg he]

theorem State.request_night {s : State} (h : s.refusal stNight = 0) : s.request stNight = s.night := by
  simp only [State.request, h, ne_eq, not_true_eq_false, if_false, if_true]

theorem State.request_evening {s : State} (h : s.refusal stEvening = 0) : s.request stEvening = s.evening := by
  simp only [State.request, h, ne_eq, not_true_eq_false, if_false, if_true]
  rfl

/-- The moves that a request can make (R33). -/
def requestMoves : List (Nat × Nat) := [(stDawn, stMorning), (stDawn, stNight), (stMorning, stEvening), (stMorning, stNight),
  (stNoon, stDusk), (stDusk, stNoon)]

/-- Every other request is refused for that (R33, R38). -/
theorem State.refusal_of_not_move {s : State} {d : Nat} (h : (s.dev, d) ∉ requestMoves) : s.refusal d = 6 := by
  simp only [requestMoves, List.mem_cons, Prod.mk.injEq, List.not_mem_nil, or_false, not_or] at h
  obtain ⟨h1, h2, h3, h4, h5, h6⟩ := h
  simp only [State.refusal, if_neg h1, if_neg h2, if_neg h3, if_neg h4, if_neg h5, if_neg h6]

/-- The move of a request that no condition refuses is one of R33. -/
theorem State.move_of_refusal_eq_zero {s : State} {d : Nat} (h : s.refusal d = 0) : (s.dev, d) ∈ requestMoves := by
  refine Decidable.byContradiction fun hn => ?_
  rw [State.refusal_of_not_move hn] at h
  exact absurd h (by decide)

/-- A granted request for MORNING, NOON or DUSK moves the device, from the one state that has such a move (R33). -/
theorem request_moves {s : State} {m : Master} {c : Instr} {d from_ : Nat} (hc : exec c s = ok (s.requestState m d))
    (hm : s.mayWrite m Reg.SYS_STATE_REQ) (h : s.refusal d = 0) (hd : d < 8) (hn : d ≠ stNight) (he : d ≠ stEvening)
    (hfrom : ∀ e ∈ requestMoves, e.2 = d → e.1 = from_) : Leads c s fun t => t.dev = d ∧ t.rd Reg.SYS_STATE_LAST = from_ := by
  obtain ⟨hdev, hlast⟩ := State.goTo_fields s hd
  refine leads_of (hc.trans (congrArg ok ((State.requestState_eq hm hd).trans (State.request_goTo h hn he)))) ⟨hdev, ?_⟩
  exact hlast.trans (hfrom _ (State.move_of_refusal_eq_zero h) rfl)

/-! ## Conditions of R33 -/

theorem State.refusal_no_clock {s : State} (hd : s.dev = stDawn) (hc : s.counting = false) : s.refusal stMorning = 1 := by
  simp [State.refusal, hd, hc]

/-- From MORNING a bound page or a sheet in flight keeps the device from EVENING and NIGHT (R33). -/
theorem State.refusal_busy {s : State} (hd : s.dev = stMorning) (h : s.pageBound = true ∨ s.inFlight = true) :
    s.refusal stEvening = 5 ∧ s.refusal stNight = 5 := by
  simp [State.refusal, hd, h, stDawn, stMorning, stNight, stEvening]

/-- From DUSK the dusk cause, or no sheet in flight, keeps the device from NOON (R33). -/
theorem State.refusal_dusk {s : State} (hd : s.dev = stDusk) : (s.duskCause = true → s.refusal stNoon = 7) ∧
    (s.duskCause = false → s.inFlight = false → s.refusal stNoon = 9) := by
  refine ⟨fun h => ?_, fun h hf => ?_⟩
  · simp [State.refusal, hd, h, stDawn, stMorning, stNight, stEvening, stNoon, stDusk]
  · simp [State.refusal, hd, h, hf, stDawn, stMorning, stNight, stEvening, stNoon, stDusk]

/-! ## The ends of NOON and DUSK -/

/-- A Gap that is open, or an exposure window, leaves nothing to open (R70). -/
theorem State.gapOpening_eq_self {s : State} (h : s.psq.gapOpen = true ∨ s.gapOpen = false) : s.gapOpening = s := by
  refine if_neg fun ⟨_, hopen, hclosed⟩ => ?_
  obtain h | h := h
  · simp [h] at hclosed
  · simp [h] at hopen

theorem State.noonEnds_of_idle {s : State} (hd : s.gapOpening.dev = stNoon) (hf : s.gapOpening.inFlight = false)
    (hp : s.gapOpening.pageBound = false) : s.noonEnds = s.gapOpening.backToMorning := by
  simp [State.noonEnds, hd, hf, hp]

theorem State.noonEnds_of_busy {s : State} (h : s.gapOpening.inFlight = true ∨ s.gapOpening.pageBound = true) :
    s.noonEnds = s.gapOpening := by
  unfold State.noonEnds
  refine if_neg fun ⟨_, hf, hp⟩ => ?_
  obtain h | h := h
  · simp [h] at hf
  · simp [h] at hp

theorem State.duskEnds_of_idle {s : State} (hd : s.gapOpening.dev = stDusk) (hf : s.gapOpening.inFlight = false) :
    s.duskEnds = s.gapOpening.backToMorning := by
  simp [State.duskEnds, hd, hf]

theorem State.duskEnds_of_busy {s : State} (h : s.gapOpening.inFlight = true) : s.duskEnds = s.gapOpening := by
  simp [State.duskEnds, h]

/-- A request that is refused leaves its reason alone (R38). -/
theorem request_refused_gives {s : State} {m : Master} {c : Instr} {d : Nat} (hc : exec c s = ok (s.requestState m d))
    (hm : s.mayWrite m Reg.SYS_STATE_REQ) (hd : d < 8) (h : s.refusal d ≠ 0) :
    Gives c s ((s.raise Reg.SYS_STATUS 3).wr Reg.SYS_REFUSE_REASON (s.refusal d)) :=
  hc.trans (congrArg ok ((State.requestState_eq hm hd).trans (State.request_refused h)))

/-- Settles O35: `refusal` names the first condition that fails, a request it grants makes one of the moves of R33, and the ends of NOON
and DUSK follow the Gap that opens in their tick. -/
theorem deviceStateRequests : Obligations.DeviceStateRequests := by
  intro s m may v u
  refine ⟨?_, fun hm h => ?_, fun hm h => ?_, fun hm h => ?_, fun hm h => ?_, fun hm h => ?_,
    fun d _ _ => State.refusal_of_not_move, State.refusal_no_clock, State.refusal_busy, State.refusal_dusk,
    fun hd hf hp => ?_, fun hd hf => ?_, fun _ h => ?_, fun _ h => ?_, State.gapOpening_eq_self⟩
  · simp only [List.forall_mem_cons]
    exact ⟨fun hm => request_refused_gives rfl hm (by decide), fun hm => request_refused_gives rfl hm (by decide),
      fun hm => request_refused_gives rfl hm (by decide), fun hm => request_refused_gives rfl hm (by decide),
      fun hm => request_refused_gives rfl hm (by decide), by simp⟩
  · exact request_moves rfl hm h (by decide) (by decide) (by decide) (by decide)
  · exact request_moves rfl hm h (by decide) (by decide) (by decide) (by decide)
  · exact request_moves rfl hm h (by decide) (by decide) (by decide) (by decide)
  · exact leads_of (congrArg ok ((State.requestState_eq hm (by decide)).trans (State.request_night h))) (State.night_fields s)
  · have hmove := State.move_of_refusal_eq_zero h
    have hfrom : ∀ e ∈ requestMoves, e.2 = stEvening → e.1 = stMorning := by decide
    exact ⟨hfrom _ hmove rfl, congrArg ok ((State.requestState_eq hm (by decide)).trans (State.request_evening h))⟩
  · exact congrArg ok (State.noonEnds_of_idle hd hf hp)
  · exact congrArg ok (State.duskEnds_of_idle hd hf)
  · exact congrArg ok (State.noonEnds_of_busy h)
  · exact congrArg ok (State.duskEnds_of_busy h)

end Sys2Proof.Machine
end

section
/-! SUPPORT. The BOOT entry of every DAWN (R335), by which a state that has come out of EVENING is told from one that has not. -/

namespace Sys2Proof.Machine

theorem State.fabQueue_jrn (s : State) (port : Nat) (m : FabMsg) : (s.fabQueue port m).jrn = s.jrn := by
  unfold State.fabQueue
  extract_lets dateline
  split
  · exact (State.raise_jrn _ _ _).trans (State.inc_jrn _ _)
  · rfl

theorem State.vesper_jrn (s : State) (code flags src p0 p1 p2 p3 : Nat) : (s.vesper code flags src p0 p1 p2 p3).jrn = s.jrn := by
  unfold State.vesper
  split
  · rfl
  · exact (State.raise_jrn ..).trans (State.inc_jrn ..)

theorem State.leqPush_jrn (s : State) (e : LateErr) : (s.leqPush e).jrn = s.jrn := by
  unfold State.leqPush
  split
  · exact State.raise_jrn ..
  · exact (State.raise_jrn ..).trans (State.inc_jrn ..)

theorem State.fabWrite_jrn (s : State) (dst tag addr : Nat) (payload : List Byte) : (s.fabWrite dst tag addr payload).jrn = s.jrn := by
  unfold State.fabWrite
  dsimp only
  split
  · exact State.fabQueue_jrn ..
  · exact (State.leqPush_jrn ..).trans (State.vesper_jrn ..)

/-- The mirror leaves the entries that the device holds (R346). -/
theorem State.mirror_queues (s : State) (e : JrnEntry) :
    (s.mirror e).jrn.ring = s.jrn.ring ∧ (s.mirror e).jrn.night = s.jrn.night := by
  unfold State.mirror
  split
  · rw [State.fabWrite_jrn]
    exact ⟨rfl, rfl⟩
  · exact ⟨rfl, rfl⟩

/-- The entries that the device holds beside NVM: the ring, those of a hold-up, and those that wait for the scan (R337 to R339). -/
def State.jrnUnsaved (s : State) : List JrnEntry := s.jrn.ring ++ s.jrn.night ++ s.jrn.prescan

theorem State.mem_jrnUnsaved_mirror {s : State} {x : JrnEntry} (e : JrnEntry) (h : x ∈ s.jrn.ring ∨ x ∈ s.jrn.night) :
    x ∈ (s.mirror e).jrnUnsaved := by
  obtain ⟨hring, hnight⟩ := State.mirror_queues s e
  rw [State.jrnUnsaved, hring, hnight]
  exact List.mem_append_left _ (List.mem_append.2 h)

/-- An entry that takes its number is held, in the ring or in the hold-up's queue (R335, R338, R339). -/
theorem State.jrnNumber_held (s : State) (e : JrnEntry) : ∃ x ∈ (s.jrnNumber e).jrnUnsaved, x.kind = e.kind := by
  refine ⟨{ e with seq := s.jrnNext }, State.mem_jrnUnsaved_mirror _ ?_, rfl⟩
  split
  · exact .inr List.mem_concat_self
  · exact .inl List.mem_concat_self

theorem State.rdw_jrn (s : State) (j : JrnX) (off : Nat) : ({ s with jrn := j } : State).rdw off = s.rdw off := rfl

theorem State.rdw_wr64_ne {s : State} {lo hi v b : Nat} (hlo : b ≠ lo) (hhi : b ≠ hi) : (s.wr64 lo hi v).rdw b = s.rdw b := by
  rw [State.wr64, State.rdw_wrw, if_neg hhi, State.rdw_wrw, if_neg hlo]

/-- An entry that the device creates is held, or counted as lost with its status source (R335, R337, R338). -/
theorem State.jrnDevice_held (s : State) (e : JrnEntry) :
    bitAt ((s.jrnDevice e).rdw Reg.JRN_STATUS) 1 = true ∨ ∃ x ∈ (s.jrnDevice e).jrnUnsaved, x.kind = e.kind := by
  unfold State.jrnDevice
  dsimp only
  split
  · refine .inl ?_
    have hbit := State.raise_bit (s := s.inc Reg.JRN_LOST_COUNT) (st := Reg.JRN_STATUS) (i := 1) (by decide) (by decide)
    split
    · rw [State.rdw_jrn, State.rdw_wr64_ne (by decide) (by decide)]
      exact hbit
    · exact hbit
  · split
    · exact .inr (State.jrnNumber_held _ e)
    · exact .inr ⟨e, by simp [State.jrnUnsaved], rfl⟩

/-- A state that has come out of EVENING has released N11, lost a journal entry, or holds the BOOT entry of its DAWN (R195, R335). -/
theorem State.resume_boots {s : State} (h : s.dev = stEvening) :
    s.resume.released = true ∨ bitAt (s.resume.rdw Reg.JRN_STATUS) 1 = true ∨ ∃ x ∈ s.resume.jrnUnsaved, x.kind = 0x20 := by
  unfold State.resume
  rw [if_pos h]
  dsimp only
  generalize State.btmResume _ = u
  unfold State.releaseN11
  split
  · exact .inl rfl
  · exact .inr (State.jrnDevice_held u _)

/-- A state that has not come out of EVENING, nor lies in it, is the only one that a command leaves there. -/
theorem State.eq_of_settle_eq {t u : State} (h : u.settle = t.settle) (hd : u.dev ≠ stEvening) (hr : u.released = false)
    (hs : bitAt (u.rdw Reg.JRN_STATUS) 1 = false) (hj : ∀ x ∈ u.jrnUnsaved, x.kind ≠ 0x20) : t = u := by
  rw [State.settle_eq hd] at h
  rw [h]
  unfold State.settle at h ⊢
  split at h
  · next hw =>
    obtain hrel | hlost | ⟨x, hx, hk⟩ := State.resume_boots hw.1
    · simp [← h, hr] at hrel
    · simp [← h, hs] at hlost
    · exact absurd hk (hj x (h ▸ hx))
  · next hw => rw [if_neg hw]

end Sys2Proof.Machine
end

section
/-! SUPPORT. A core that stops lets its station fall from READY (R96, R173, R194), and the spoil of a committed sheet that names the station
goes to the sheet's seen set, cores among it (R60, R63, R220): the stop does not leave the other cores alone. -/

namespace Sys2Proof.Machine

/-- NOON with the PLL locked and every core released. Station S0 is READY, by every condition of R173; sheet 0 is COMMITTED, names the
station, and has core N0 in its seen set. -/
def readyStation : State :=
  let s := [(Reg.CLK_PLL_LOCKED, 1), (Reg.SYS_STATE_STATE, stNoon), (Reg.SYS_CORE_RUN_RUN, 0xFFF), (Reg.BTM_CTRL_EN 0, 1),
    (Reg.BTM_STATE_DLL_LOCK 0, 1), (Reg.BTM_STATE_SOS_OK 0, 1), (Reg.BTM_STATE_TBL_OK 0, 1), (Reg.BTM_STATE_READY 0, 1),
    (Reg.PSQ_SH_STATE_STATE 0, shCommitted), (Reg.PSQ_SH_CTRL_STATIONS 0, 1), (Reg.PSQ_SH_SEEN_CORES 0, 1)].foldl
      (fun s e => s.wr e.1 e.2) State.reset
  { s with lsi := { s.lsi with active := false }, btm := s.btm.set 0 { s.btm[0] with inReset := false } }

/-- The station's `READY` stands as its conditions do, and the stop of core N2 may be written. -/
theorem readyStation_hypotheses : readyStation.readyNow 0 = true ∧ readyStation.mayWrite .jtag Reg.SYS_CORE_RUN ∧
    bitAt (readyStation.rd Reg.SYS_CORE_RUN_RUN) 2 = true := by
  simp only [State.mayWrite]
  decide +kernel

/-- The device after core N2 has been stopped. -/
def stoppedStation : State := readyStation.runBit .jtag 2 false

/-- The stop leaves the device in NOON, with the SPOIL entry in the journal. -/
theorem stoppedStation_fields : stoppedStation.dev ≠ stEvening ∧ stoppedStation.released = false ∧
    bitAt (stoppedStation.rdw Reg.JRN_STATUS) 1 = false ∧ ∀ x ∈ stoppedStation.jrnUnsaved, x.kind ≠ 0x20 := by
  decide +kernel

/-- Core N0 finds the SPOIL event in its queue. -/
theorem stoppedStation_shev : (readyStation.core 0).shev = [] ∧ (stoppedStation.core 0).shev ≠ [] := by
  decide +kernel

/-- Refutes O33: where the stopped core's station falls from READY under a committed sheet, the sheet's SPOIL event enters the queue of
another core. -/
theorem not_coreRunAndDoorbell : ¬ Obligations.CoreRunAndDoorbell := by
  intro h
  obtain ⟨-, hmay, hrun⟩ := readyStation_hypotheses
  obtain ⟨-, hstop, -, -⟩ := h readyStation .jtag 2 0
  obtain ⟨t, hexec, ⟨-, hcores⟩, -, -⟩ := hstop hmay hrun
  obtain ⟨hd, hr, hs, hj⟩ := stoppedStation_fields
  have ht : t = stoppedStation := State.eq_of_settle_eq (Host.Outcome.next.inj hexec) hd hr hs hj
  obtain ⟨hcore, -⟩ := hcores 0 (by decide) fun _ => .inl (by decide)
  obtain ⟨hbefore, hafter⟩ := stoppedStation_shev
  rw [ht] at hcore
  rw [hcore] at hafter
  exact hafter hbefore

end Sys2Proof.Machine
end

section
/-! SUPPORT. OTP may load any register (R12). Where it loads a station's `READY` and a committed sheet that names the station, the entry to
DAWN, which holds every core in reset, finds the station not ready and makes the sheet a spoil (R63, R96, R173, R194): its event enters the
queue of a core (R60, R220), so that the cores are not as a power-on leaves them. -/

namespace Sys2Proof.Machine

/-- A device without its always-on supply, whose OTP asks for DAWN and loads `READY` of station S0, and sheet 0 as COMMITTED, for the
station, with core N0 in its seen set. -/
def otpLoadsSheet : State :=
  { State.reset with aon := { State.reset.aon with
      power := false, otpAutoDawn := true
      otpRegs := [(Reg.BTM_STATE 0, 1), (Reg.PSQ_SH_STATE 0, BitVec.ofNat 32 shCommitted), (Reg.PSQ_SH_CTRL 0, 0x100),
        (Reg.PSQ_SH_SEEN 0, 1)] } }

/-- It comes up in DAWN, with the SPOIL event in the queue of core N0. -/
theorem otpLoadsSheet_comesUp : otpLoadsSheet.aoGood.dev = stDawn ∧ (otpLoadsSheet.aoGood.core 0).shev ≠ [] := by
  decide +kernel

/-- Refutes O36: a power-on whose OTP words make a station READY under a committed sheet leaves a sheet event in a core's queue. -/
theorem not_resetsAndWakes : ¬ Obligations.ResetsAndWakes := by
  intro h
  obtain ⟨hdev, hshev⟩ := otpLoadsSheet_comesUp
  obtain ⟨hpower, -⟩ := h otpLoadsSheet .jtag 0 0 0
  obtain ⟨⟨t, hexec, -, -, -, -, -, hcores, -, -, hdawn⟩, -⟩ := hpower rfl
  obtain ⟨htdev, -⟩ := hdawn rfl
  have hsettle : otpLoadsSheet.aoGood.settle = t.settle := Host.Outcome.next.inj hexec
  rw [State.settle_eq (by rw [hdev]; decide), State.settle_eq (by rw [htdev]; decide)] at hsettle
  rw [hsettle, hcores 0] at hshev
  exact hshev rfl

end Sys2Proof.Machine
end

section
/-! SUPPORT. A message tells its source as a number, and the statement of the fabric's memory traffic does not bound it by the 1,024 device
ids that a route table has (R360, R361). The offsets of `FAB_ROUTE` 97,285 and of `MGT_ALIVE` are one: an error that a message of that number
itself raises stops ALIVE (R380), and with that the route of its answer is gone. -/

namespace Sys2Proof.Machine

/-- DAWN, with the fabric and the Plain serving others, port 2 UP, the source `MAP_ERR` enabled and the pin ALIVE running. The extent map is
empty, so extent 0 is invalid. -/
def farReader : State :=
  [(Reg.FAB_CTRL_EN, 1), (Reg.FAB_ID_VALID, 1), (Reg.FAB_P_STATE_STATE 2, 3), (Reg.STR_PLN_CTRL_EN, 1), (Reg.STR_PLN_CTRL_REMOTE_EN, 1),
    (Reg.STR_PLN_IRQ_EN_EN, 1), (Reg.MGT_ALIVE_RUN, 1)].foldl (fun s e => s.wr e.1 e.2) State.reset

/-- A READ_REQ for 64 bytes of extent 0, from number 97,285. -/
def farRead : FabMsg := { cls := 1, kind := 0, dst := 0, src := 97285, vc := 0, tag := 2 ^ 24, addr := 0, payload := [] }

/-- The device after the READ_REQ. -/
def farServed : State := farReader.message 2 farRead 1 0 fun s f => s.homeRead f false

/-- The message is for this device, which serves it at once and finds the extent invalid; its answer has a route, by port 2. -/
theorem farReader_hypotheses : farReader.fabOpen 2 1 = true ∧ farRead.dst = farReader.devId ∧ farReader.plainShut false = false ∧
    farReader.behind { farRead with cls := 1, kind := 0 } = false ∧ farReader.homeStatus farRead.addr = .invalid ∧
    farReader.fabRoute farRead.src = some 2 := by
  decide +kernel

/-- The device has stayed in DAWN, without the marks of a wake from EVENING, and has sent nothing. -/
theorem farServed_fields : farServed.dev ≠ stEvening ∧ farServed.released = false ∧ bitAt (farServed.rdw Reg.JRN_STATUS) 1 = false ∧
    (∀ x ∈ farServed.jrnUnsaved, x.kind ≠ 0x20) ∧ farServed.fab.tx = [] := by
  decide +kernel

/-- Refutes O59: a READ_REQ of an invalid extent whose source number lies past the device ids gets no READ_ERR, though its route stood
when it came. -/
theorem not_fabricMemory : ¬ Obligations.FabricMemory := by
  intro h
  obtain ⟨hopen, hdst, hshut, hbehind, hinvalid, hroute⟩ := farReader_hypotheses
  obtain ⟨-, -, hread, -⟩ := h farReader 2 farRead
  obtain ⟨-, hlegal, -⟩ := hread hopen hdst
  obtain ⟨-, -, hserved⟩ := hlegal (by decide) (by decide)
  obtain ⟨herr, -⟩ := hserved hshut (Bool.eq_false_iff.1 hbehind)
  obtain ⟨t, hexec, hanswer⟩ := herr hinvalid
  obtain ⟨hd, hr, hs, hj, htx⟩ := farServed_fields
  have ht : t = farServed := State.eq_of_settle_eq (Host.Outcome.next.inj hexec) hd hr hs hj
  obtain ⟨x, hx, -⟩ := hanswer 2 hroute
  rw [ht, htx] at hx
  exact List.not_mem_nil hx

end Sys2Proof.Machine
end

section
/-! SUPPORT. The page store's writes: which block takes a write to `STR_PLN_CTRL` or to a lane's control register, and what a source that
sets leaves of the Plain engine, the memories and the lanes. -/

namespace Sys2Proof.Machine

@[simp] theorem State.raise_mem (s : State) (st i : Nat) : (s.raise st i).mem = s.mem := by
  rw [State.raise_eq]

@[simp] theorem State.raise_plain (s : State) (st i : Nat) : (s.raise st i).plain = s.plain := by
  rw [State.raise_eq]

@[simp] theorem State.raise_lanes (s : State) (st i : Nat) : (s.raise st i).lanes = s.lanes := by
  rw [State.raise_eq]

theorem State.on_of_eq_one {s : State} {f : Fld} (h : s.rd f = 1) : s.on f = true := by
  simp [State.on, h]

theorem State.on_of_ne_zero {s : State} {f : Fld} (h : s.rd f ≠ 0) : s.on f = true := decide_eq_true h

theorem State.on_of_eq_zero {s : State} {f : Fld} (h : s.rd f = 0) : s.on f = false := by
  simp [State.on, h]

theorem State.on_congr {s t : State} {f : Fld} (h : t.rd f = s.rd f) : t.on f = s.on f := by
  simp only [State.on, h]

theorem State.masterWrite_plnCtrl {s : State} {m : Master} (v : RegWord) (h : s.mayWrite m Reg.STR_PLN_CTRL) :
    s.masterWrite m Reg.STR_PLN_CTRL v = s.plainCtrl v.toNat :=
  (State.masterWrite_block h v (by decide) (by decide) (by decide) (by decide)).trans rfl

/-- No fuse removes a lane's control register (R3). -/
theorem State.fusedReg_laneCtrl (s : State) (l : Fin 4) : s.fusedReg (Reg.CDC_L_CTRL l) = false := by
  simp only [State.fusedReg, Reg.CDC_L_CTRL, Bool.or_eq_false_iff, Bool.and_eq_false_iff, decide_eq_false_iff_not]
  omega

/-- A lane's control register stands in the table, and is neither a status register nor an enable. -/
theorem laneCtrl_register : ∀ l : Fin 4, regExists (Reg.CDC_L_CTRL l) = true ∧
    (statusRegsOf (Reg.CDC_L_CTRL l / 0x10000)).contains (Reg.CDC_L_CTRL l) = false ∧
    (statusRegsOf (Reg.CDC_L_CTRL l / 0x10000)).contains (Reg.CDC_L_CTRL l - 4) = false := by decide

theorem State.masterWrite_laneCtrl {s : State} {m : Master} {l : Fin 4} (v : RegWord) (h : s.mayWrite m (Reg.CDC_L_CTRL l)) :
    s.masterWrite m (Reg.CDC_L_CTRL l) v = s.laneCtrl l v.toNat := by
  obtain ⟨he, hs, hi⟩ := laneCtrl_register l
  have hb : Reg.CDC_L_CTRL l / 0x10000 = 12 := by simp only [Reg.CDC_L_CTRL]; omega
  have ho : Reg.CDC_L_CTRL l % 0x10000 = 0x100 + 0x40 * l := by simp only [Reg.CDC_L_CTRL]; omega
  rw [State.masterWrite_eq h, State.ctrlWrite_block (s.fusedReg_laneCtrl l) he hs hi]
  simp only [State.blockWrite, hb, ho, State.cdcWrite]
  rw [if_pos (by omega), show (0x100 + 0x40 * l.val - 0x100) / 0x40 = l by omega]

/-! ## A write to `STR_PLN_CTRL` (R80, R81) -/

/-- The initialisation of the namespaces changes nothing, or sets `NVME_ERR` (R80). -/
theorem State.nvmeInit_eq (s : State) : s.nvmeInit = s ∨ s.nvmeInit = s.raise Reg.STR_PLN_STATUS 1 := by
  unfold State.nvmeInit
  split
  · exact .inr rfl
  · exact .inl rfl

/-- `s` with `v` stored in `STR_PLN_CTRL` and the namespaces initialised where `NVME_EN` rises, before a flush that `v` asks for. -/
def State.plainStored (s : State) (v : Nat) : State :=
  let u := s.plainWrite Reg.STR_PLN_CTRL v
  if u.on Reg.STR_PLN_CTRL_NVME_EN ∧ !s.on Reg.STR_PLN_CTRL_NVME_EN then u.nvmeInit else u

/-- The extents whose frames are DIRTY (R78, R81). -/
def State.dirtyExtents (s : State) : List Nat := (s.plain.frames.map Prod.snd).filter fun e => extState (s.extEntry e) = 3

/-- The flush of R81: with no DIRTY frame it goes to each namespace at once. -/
theorem State.plainCtrl_eq (s : State) (v : Nat) : s.plainCtrl v =
    let u := s.plainStored v
    if bitAt v 4 ∧ u.on Reg.STR_PLN_CTRL_EN ∧ u.on Reg.STR_PLN_CTRL_NVME_EN then
      if u.dirtyExtents.isEmpty then u.nvmeFlush
      else forEach u.dirtyExtents { u with plain := { u.plain with flushing := u.plain.flushing ++ u.dirtyExtents } }
        fun s e => s.extSet e 60 3 4
    else u := rfl

theorem State.plainStored_cases (s : State) (v : Nat) : s.plainStored v = s.plainWrite Reg.STR_PLN_CTRL v ∨
    s.plainStored v = (s.plainWrite Reg.STR_PLN_CTRL v).raise Reg.STR_PLN_STATUS 1 := by
  unfold State.plainStored
  dsimp only
  split
  · exact State.nvmeInit_eq _
  · exact .inl rfl

theorem State.plainStored_of_on {s : State} (h : s.on Reg.STR_PLN_CTRL_NVME_EN = true) (v : Nat) :
    s.plainStored v = s.plainWrite Reg.STR_PLN_CTRL v := by
  simp [State.plainStored, h]

@[simp] theorem State.plainStored_plain (s : State) (v : Nat) : (s.plainStored v).plain = s.plain := by
  obtain h | h := s.plainStored_cases v <;> simp [h]

@[simp] theorem State.plainStored_mem (s : State) (v : Nat) : (s.plainStored v).mem = s.mem := by
  obtain h | h := s.plainStored_cases v <;> simp [h]

/-- A field outside the registers that a source changes reads as the plain write leaves it. -/
theorem State.plainStored_rd (s : State) (v : Nat) {f : Fld} (h : f.off ≠ Reg.STR_PLN_STATUS) (h' : f.off ≠ Reg.MGT_ALIVE) :
    (s.plainStored v).rd f = (s.plainWrite Reg.STR_PLN_CTRL v).rd f := by
  obtain he | he := s.plainStored_cases v
  · rw [he]
  · rw [he, State.rd_congr (State.raise_getReg h h')]

/-- A one-bit field is on where its bit is set. -/
theorem State.on_bit (s : State) (off lsb : Nat) : s.on ⟨off, lsb, 1⟩ = bitAt (s.rdw off) lsb :=
  decide_eq_decide.2 Nat.mod_two_ne_zero

/-- `EN` reads as it was written. -/
theorem State.plainWrite_plnCtrl_en (s : State) (v : Nat) : (s.plainWrite Reg.STR_PLN_CTRL v).on Reg.STR_PLN_CTRL_EN = bitAt v 0 :=
  (State.on_bit ..).trans (State.bitAt_plainWrite (by decide) (by decide) (by decide))

/-- With no frame, or a write that turns the engine off, a flush leaves the memories as they are, and goes to the namespaces where the engine
and its NVMe side are on (R80, R81). -/
theorem plainFlush_without_frames {s : State} {m : Master} (v : RegWord) (hm : s.mayWrite m Reg.STR_PLN_CTRL)
    (h : bitAt v.toNat 0 = false ∨ s.plain.frames = []) :
    let flush := s.plainWrite Reg.STR_PLN_CTRL (withBit v 4 true).toNat
    Leads (.plainFlush m v) s fun t =>
      t.plain.nvmeFlushes = (if flush.on Reg.STR_PLN_CTRL_EN ∧ flush.on Reg.STR_PLN_CTRL_NVME_EN
        then s.plain.nvmeFlushes + flush.rd Reg.STR_PLN_NVME_CFG_NS_COUNT + 1 else s.plain.nvmeFlushes) ∧ t.mem = s.mem := by
  intro flush
  refine leads_of (congrArg ok (State.masterWrite_plnCtrl _ hm)) ?_
  have hgo : bitAt (withBit v 4 true).toNat 4 = true := bitAt_withBit v 4 true 4 (by decide)
  have hen : (s.plainStored (withBit v 4 true).toNat).on Reg.STR_PLN_CTRL_EN = flush.on Reg.STR_PLN_CTRL_EN :=
    State.on_congr (State.plainStored_rd _ _ (by decide) (by decide))
  have hnvme : (s.plainStored (withBit v 4 true).toNat).on Reg.STR_PLN_CTRL_NVME_EN = flush.on Reg.STR_PLN_CTRL_NVME_EN :=
    State.on_congr (State.plainStored_rd _ _ (by decide) (by decide))
  have hcount : (s.plainStored (withBit v 4 true).toNat).rd Reg.STR_PLN_NVME_CFG_NS_COUNT = flush.rd Reg.STR_PLN_NVME_CFG_NS_COUNT :=
    State.plainStored_rd _ _ (by decide) (by decide)
  simp only [State.plainCtrl_eq, hgo, hen, hnvme, true_and]
  by_cases hon : flush.on Reg.STR_PLN_CTRL_EN = true ∧ flush.on Reg.STR_PLN_CTRL_NVME_EN = true
  · have hbit : flush.on Reg.STR_PLN_CTRL_EN = bitAt v.toNat 0 :=
      (State.plainWrite_plnCtrl_en ..).trans (bitAt_withBit v 4 true 0 (by decide))
    have hframes : s.plain.frames = [] := h.resolve_left (by rw [← hbit, hon.1]; decide)
    have hdirty : (s.plainStored (withBit v 4 true).toNat).dirtyExtents = [] := by simp [State.dirtyExtents, hframes]
    rw [if_pos hon, if_pos hon, hdirty]
    simp [State.nvmeFlush, hcount]
  · rw [if_neg hon, if_neg hon]
    simp

/-- A flush that finds DIRTY frames writes each of them back (R81). -/
theorem plainFlush_dirty {s : State} {m : Master} (v : RegWord) (hm : s.mayWrite m Reg.STR_PLN_CTRL)
    (hwas : s.rd Reg.STR_PLN_CTRL_NVME_EN = 1) :
    let flush := s.plainWrite Reg.STR_PLN_CTRL (withBit v 4 true).toNat
    flush.on Reg.STR_PLN_CTRL_EN = true → flush.on Reg.STR_PLN_CTRL_NVME_EN = true → flush.dirtyExtents ≠ [] →
      Gives (.plainFlush m v) s (forEach flush.dirtyExtents
        { flush with plain := { flush.plain with flushing := flush.plain.flushing ++ flush.dirtyExtents } } fun s e => s.extSet e 60 3 4) := by
  intro flush hen hnvme hdirty
  have hgo : bitAt (withBit v 4 true).toNat 4 = true := bitAt_withBit v 4 true 4 (by decide)
  refine congrArg ok ((State.masterWrite_plnCtrl _ hm).trans ?_)
  simp only [State.plainCtrl_eq, State.plainStored_of_on (State.on_of_eq_one hwas)]
  rw [if_pos ⟨hgo, hen, hnvme⟩, if_neg (by rwa [List.isEmpty_iff])]

/-! ## What NVMe completes (R79 to R81) -/

/-- Bytes that are stored change the memories of the local bus alone. -/
theorem State.writeLE_eq (s : State) (a n v : Nat) : s.writeLE a n v = { s with mem := (s.writeLE a n v).mem } := by
  induction n generalizing s a v with
  | zero => rfl
  | succ n ih =>
    rw [State.writeLE, ih]
    rfl

@[simp] theorem State.extSet_plain (s : State) (e lsb width v : Nat) : (s.extSet e lsb width v).plain = s.plain := by
  rw [State.extSet, State.writeLE_eq]

theorem State.dropFrame_waitingOn (s : State) (e : Nat) : (s.dropFrame e).plain.waitingOn = s.plain.waitingOn := rfl

theorem State.with_waitingOn_nil {s : State} (h : s.plain.waitingOn = []) :
    { s with plain := { s.plain with waitingOn := [] } } = s := by
  rw [← h]

/-- Where no load of the extent is under way, or the engine is off, a completion changes nothing (log 4, log 58). -/
theorem State.extentLoaded_idle {s : State} {e : Nat} (h : extState (s.extEntry e) ≠ 1 ∨ s.rd Reg.STR_PLN_CTRL_EN = 0) (good : Bool) :
    s.extentLoaded e good = s :=
  if_pos (h.imp_right fun h0 => by rw [State.on_of_eq_zero h0]; rfl)

/-- A load from a namespace that was refused for its LBA format fails, whatever the NVMe answers (R80). -/
theorem State.extentLoaded_refused {s : State} {e : Nat} (h : s.nsRefused e = true) :
    s.extentLoaded e true = s.extentLoaded e false := by
  simp [State.extentLoaded, h]

section
variable {s : State} {e : Nat} (hon : s.rd Reg.STR_PLN_CTRL_EN = 1)
include hon

/-- A load that completes copies the extent into its frame and makes it RESIDENT (R79). -/
theorem State.extentLoaded_done (hst : extState (s.extEntry e) = 1) (hns : s.nsRefused e = false) : s.extentLoaded e true =
    let loaded := (((s.copyIn zeroByte s.nvme (extNvme (s.extEntry e)) (frameAddr (extFrame (s.extEntry e))) (2 ^ 21)).addTo
      Reg.STR_PLN_CNT_NVME_RD_COUNT 512).count 20 0 512).extSet e 60 3 2
    ({ loaded with plain := { loaded.plain with waitingOn := loaded.plain.waitingOn.filter fun y => y.2 ≠ e } }).retryLoads := by
  unfold State.extentLoaded
  rw [if_neg (by simp [hst, State.on_of_eq_one hon]), if_pos ⟨rfl, by rw [hns]; rfl⟩]

/-- A load that fails leaves the extent NVME_ONLY without a frame, with `NVME_ERR`; no page waits on it here (R79). -/
theorem State.extentLoaded_failed (hst : extState (s.extEntry e) = 1) (hw : s.plain.waitingOn = []) : s.extentLoaded e false =
    (((s.extSet e 60 3 0).dropFrame e).raise Reg.STR_PLN_STATUS 1).retryLoads := by
  have hwait : (((s.extSet e 60 3 0).dropFrame e).raise Reg.STR_PLN_STATUS 1).plain.waitingOn = [] := by
    rw [State.raise_plain, State.dropFrame_waitingOn, State.extSet_plain, hw]
  unfold State.extentLoaded
  rw [if_neg (by simp [hst, State.on_of_eq_one hon]), if_neg (by simp)]
  simp only [hwait, List.filter_nil, forEach, List.foldl_nil, State.with_waitingOn_nil hwait]

end

/-- A repeat that is due finds no EVICT to send again, and sets the next one (R98). -/
theorem State.evictAgain_none {s : State} (hd : s.dev ≠ stNight) (hc : s.due.evict ≤ s.clock) (h : s.plain.evictRetry = []) :
    s.evictAgain = { s with due := { s.due with evict := s.clock + 3000000 } } := by
  unfold State.evictAgain
  rw [if_neg (by omega)]
  simp only [h, forEach, List.foldl_nil]

/-! ## The end of a write-back (R79, R81) -/

/-- `s` with the write-back of extent `e` over. -/
abbrev State.writebackOver (s : State) (e : Nat) : State :=
  { s with plain := { s.plain with evicting := s.plain.evicting.erase e, flushing := s.plain.flushing.erase e } }

/-- `s` with extent `e` written from its frame to NVMe, and counted. -/
def State.writebackStored (s : State) (e : Nat) : State :=
  ((s.writebackOver e).nvmeWrite (extNvme (s.extEntry e))
    ((s.writebackOver e).readBytes (frameAddr (extFrame (s.extEntry e))) (2 ^ 21))).addTo Reg.STR_PLN_CNT_NVME_WR_COUNT 512

/-- What the write-back of extent `e` leaves of the extent: one written to meanwhile stays as it is, an unpinned one that was to be evicted is
gone, another is clean, and one whose write-back failed is DIRTY. -/
def State.writebackEnd (s : State) (e : Nat) (good : Bool) : State :=
  if good ∧ !(s.writebackOver e).nsRefused e then
    if extState (s.extEntry e) ≠ 4 then s.writebackStored e
    else if s.plain.evicting.contains e ∧ extPins (s.extEntry e) = 0 then ((s.writebackStored e).extSet e 60 3 0).dropFrame e
    else (s.writebackStored e).extSet e 60 3 2
  else ((s.writebackOver e).extSet e 60 3 3).raise Reg.STR_PLN_STATUS 1

/-- The last write-back of a flush sends Flush to the namespaces, and the end of one for an eviction lets loads that wait go on. -/
theorem State.writtenBack_eq {s : State} {e : Nat} (hon : s.rd Reg.STR_PLN_CTRL_EN = 1)
    (h : (s.plain.evicting.contains e || s.plain.flushing.contains e) = true) (good : Bool) : s.writtenBack e good =
      let t := s.writebackEnd e good
      let u := if s.plain.flushing.contains e ∧ t.plain.flushing.isEmpty then t.nvmeFlush else t
      if s.plain.evicting.contains e then u.retryLoads else u := by
  have hgo : ¬(!(s.plain.evicting.contains e || s.plain.flushing.contains e) ∨ !s.on Reg.STR_PLN_CTRL_EN) := by
    rw [h, State.on_of_eq_one hon]
    decide
  unfold State.writtenBack
  rw [if_neg hgo]
  rfl

/-- An extent that is neither evicted nor flushed has no write-back to end (log 4). -/
theorem State.writtenBack_idle {s : State} {e : Nat} (hev : e ∉ s.plain.evicting) (hfl : e ∉ s.plain.flushing) (good : Bool) :
    s.writtenBack e good = s := by
  refine if_pos (.inl ?_)
  simp [hev, hfl]

section
variable {s : State} {e : Nat}

theorem State.writebackEnd_failed : s.writebackEnd e false = ((s.writebackOver e).extSet e 60 3 3).raise Reg.STR_PLN_STATUS 1 :=
  if_neg fun h => Bool.false_ne_true h.1

theorem State.writebackEnd_good (hst : extState (s.extEntry e) = 4) (hns : s.nsRefused e = false) : s.writebackEnd e true =
    if s.plain.evicting.contains e ∧ extPins (s.extEntry e) = 0 then ((s.writebackStored e).extSet e 60 3 0).dropFrame e
    else (s.writebackStored e).extSet e 60 3 2 :=
  (if_pos ⟨rfl, congrArg not hns⟩).trans (if_neg (not_not_intro hst))

/-- The end of a write-back for an eviction alone. -/
theorem State.writtenBack_evicting (hon : s.rd Reg.STR_PLN_CTRL_EN = 1) (hev : s.plain.evicting = [e]) (hfl : s.plain.flushing = [])
    (good : Bool) : s.writtenBack e good = (s.writebackEnd e good).retryLoads := by
  rw [State.writtenBack_eq hon (by simp [hev])]
  simp [hev, hfl]

/-- The end of the last write-back of a flush. -/
theorem State.writtenBack_flushing (hon : s.rd Reg.STR_PLN_CTRL_EN = 1) (hev : s.plain.evicting = []) (hfl : s.plain.flushing = [e])
    (good : Bool) (hlast : (s.writebackEnd e good).plain.flushing = []) : s.writtenBack e good = (s.writebackEnd e good).nvmeFlush := by
  rw [State.writtenBack_eq hon (by simp [hfl])]
  simp [hev, hfl, hlast]

/-- No extent is left to be flushed once the only one is over. -/
theorem State.writebackOver_flushing (hfl : s.plain.flushing = [e]) : (s.writebackOver e).plain.flushing = [] := by
  simp [hfl]

@[inherit_doc State.writebackOver_flushing]
theorem State.writebackStored_flushing (hfl : s.plain.flushing = [e]) : (s.writebackStored e).plain.flushing = [] := by
  rw [State.writebackStored, State.addTo_plain, State.nvmeWrite_plain]
  exact State.writebackOver_flushing hfl

end

end Sys2Proof.Machine
end

section
/-! SUPPORT. The compressor lanes (R109 to R112): what the start, the flush and the end of a job leave. -/

namespace Sys2Proof.Machine

/-- A lane's status register stands apart from the registers that a source of CDC changes. -/
theorem laneStatus_ne (l : Fin 4) : Reg.CDC_L_STATUS l ≠ Reg.CDC_STATUS ∧ Reg.CDC_L_STATUS l ≠ Reg.MGT_ALIVE := by
  simp only [Reg.CDC_L_STATUS, Reg.CDC_STATUS, Reg.MGT_ALIVE]
  omega

theorem State.rd_lanes (s : State) (v : Vector (Option LaneJob) 4) (f : Fld) : ({ s with lanes := v } : State).rd f = s.rd f := rfl

/-- The end of a job leaves the lane idle with its `ERR`, and with `DONE` where that is 0 (R109, R112). -/
theorem State.laneEnd_fields (s : State) (l : Fin 4) {c : Nat} (hc : c < 16) :
    ((s.laneEnd l c).rd (Reg.CDC_L_STATUS_BUSY l) = 0 ∧ (s.laneEnd l c).rd (Reg.CDC_L_STATUS_ERR l) = c ∧
      (c = 0 → (s.laneEnd l c).rd (Reg.CDC_L_STATUS_DONE l) = 1)) ∧ (s.laneEnd l c).lanes[l]? = some none := by
  have hbusy : ((s.wr (Reg.CDC_L_STATUS_BUSY l) 0).wr (Reg.CDC_L_STATUS_ERR l) c).rd (Reg.CDC_L_STATUS_BUSY l) = 0 := by
    rw [State.rd_wr_ne _ _ _ _ (by simp) (by simp), State.rd_wr _ _ _ (by simp)]
    rfl
  have herr : ((s.wr (Reg.CDC_L_STATUS_BUSY l) 0).wr (Reg.CDC_L_STATUS_ERR l) c).rd (Reg.CDC_L_STATUS_ERR l) = c :=
    (State.rd_wr _ _ _ (by simp)).trans (Nat.mod_eq_of_lt hc)
  obtain ⟨hne, hne'⟩ := laneStatus_ne l
  unfold State.laneEnd
  dsimp only
  split
  · next h0 =>
    refine ⟨⟨?_, ?_, fun _ => State.rd_wr _ _ _ (by simp)⟩, by simp⟩
    · rw [State.rd_wr_ne _ _ _ _ (by simp) (by simp)]
      exact hbusy
    · rw [State.rd_wr_ne _ _ _ _ (by simp) (by simp)]
      exact herr
  · next h0 =>
    refine ⟨⟨?_, ?_, fun h => absurd h h0⟩, by simp⟩
    · rw [State.rd_congr (State.raise_getReg hne hne')]
      exact hbusy
    · rw [State.rd_congr (State.raise_getReg hne hne')]
      exact herr

/-- A write to a lane's control register leaves whether it is busy. -/
theorem State.plainWrite_laneCtrl_busy (s : State) (l : Fin 4) (v : Nat) :
    (s.plainWrite (Reg.CDC_L_CTRL l) v).rd (Reg.CDC_L_STATUS_BUSY l) = s.rd (Reg.CDC_L_STATUS_BUSY l) :=
  State.rd_wrw_ne _ _ _ _ (by simp)

/-- It leaves the job that the lane runs. -/
theorem State.plainWrite_laneCtrl_running (s : State) (l : Fin 4) (v : Nat) :
    (s.plainWrite (Reg.CDC_L_CTRL l) v).laneRunning l = s.laneRunning l := by
  have hen : (s.plainWrite (Reg.CDC_L_CTRL l) v).on Reg.CDC_CTRL_EN = s.on Reg.CDC_CTRL_EN :=
    State.on_congr (State.rd_wrw_ne _ _ _ _ (by simp only [Reg.CDC_CTRL, Reg.CDC_L_CTRL]; omega))
  simp [State.laneRunning, hen]

/-! ## `GO` (R109, R112) -/

theorem State.laneGo_busy {s : State} {l : Nat} (h : s.rd (Reg.CDC_L_STATUS_BUSY l) ≠ 0) :
    s.laneGo l = s.wr (Reg.CDC_L_STATUS_GO_IGNORED l) 1 := if_pos (State.on_of_ne_zero h)

/-- A legal job starts on an idle lane. -/
theorem State.laneGo_starts {s : State} {l : Fin 4} (h : s.rd (Reg.CDC_L_STATUS_BUSY l) = 0) (hv : (s.laneJob l).valid = true) :
    (s.laneGo l).rd (Reg.CDC_L_STATUS_BUSY l) = 1 ∧ (s.laneGo l).rd (Reg.CDC_L_STATUS_ERR l) = 0 ∧
      (s.laneGo l).lanes[l]? = some (some (s.laneJob l)) := by
  unfold State.laneGo
  rw [if_neg (by rw [State.on_of_eq_zero h]; decide)]
  dsimp only
  rw [if_pos hv]
  have hlines : Reg.CDC_L_STATUS l ≠ Reg.CDC_L_LINES_DONE l := by simp
  have hovf : Reg.CDC_L_STATUS l ≠ Reg.CDC_L_MAXOVF l := by simp
  refine ⟨?_, ?_, by simp⟩
  · rw [State.rd_lanes, State.rd_wrw_ne _ _ _ _ hovf, State.rd_wrw_ne _ _ _ _ hlines, State.rd_wr _ _ _ (by simp)]
    rfl
  · rw [State.rd_lanes, State.rd_wrw_ne _ _ _ _ hovf, State.rd_wrw_ne _ _ _ _ hlines, State.rd_wr_ne _ _ _ _ (by simp) (by simp),
      State.rd_wr _ _ _ (by simp)]
    rfl

/-- A job that R109 does not allow ends at once, with `ERR` 4. -/
theorem State.laneGo_refused {s : State} {l : Fin 4} (h : s.rd (Reg.CDC_L_STATUS_BUSY l) = 0) (hv : (s.laneJob l).valid = false) :
    s.laneGo l = ((s.wr (Reg.CDC_L_STATUS_DONE l) 0).wr (Reg.CDC_L_STATUS_FLUSHED l) 0).laneEnd l 4 := by
  unfold State.laneGo
  rw [if_neg (by rw [State.on_of_eq_zero h]; decide)]
  exact if_neg (by rw [hv]; decide)

/-- A write of `GO` without `FLUSH` stores the word and starts the lane. -/
theorem laneGo_exec {s : State} {m : Master} {l : Fin 4} (v : RegWord) (hm : s.mayWrite m (Reg.CDC_L_CTRL l))
    (hf : bitAt v.toNat 1 = false) :
    exec (.laneGo m l v) s = ok ((s.plainWrite (Reg.CDC_L_CTRL l) (withBit v 0 true).toNat).laneGo l) := by
  have hgo : bitAt (withBit v 0 true).toNat 0 = true := bitAt_withBit v 0 true 0 (by decide)
  have hflush : bitAt (withBit v 0 true).toNat 1 = false := (bitAt_withBit v 0 true 1 (by decide)).trans hf
  refine congrArg ok ((State.masterWrite_laneCtrl _ hm).trans ?_)
  simp [State.laneCtrl, hgo, hflush]

/-! ## `FLUSH` and the end of a job (R109, R111, R112) -/

/-- A write of `FLUSH` without `GO` stores the word and flushes the lane. -/
theorem laneFlush_exec {s : State} {m : Master} {l : Fin 4} (v : RegWord) (lines : Nat) (diffs : List Nat)
    (hm : s.mayWrite m (Reg.CDC_L_CTRL l)) (hg : bitAt v.toNat 0 = false) :
    exec (.laneFlush m l v lines diffs) s =
      ok ((s.plainWrite (Reg.CDC_L_CTRL l) (withBit v 1 true).toNat).laneFlush l lines diffs) := by
  have hgo : bitAt (withBit v 1 true).toNat 0 = false := (bitAt_withBit v 1 true 0 (by decide)).trans hg
  refine congrArg ok ?_
  unfold State.flushWrite
  rw [State.asMaster_eq hm]
  exact if_neg (by rw [hgo]; decide)

section
variable {s : State} {l : Nat} {diffs : List Nat}

theorem State.laneFlush_idle (h : s.laneRunning l = none) (lines : Nat) : s.laneFlush l lines diffs = s := by
  simp [State.laneFlush, h]

/-- A flush that comes before the last line, whose writes are not refused, brings the job to its end after the lines received. -/
theorem State.laneFlush_cut {j : LaneJob} {lines : Nat} (h : s.laneRunning l = some j) (hl : lines < j.lines) (hj : j.flushAt = none)
    (hw : (({ s with lanes := s.lanes.setIfInBounds l (some { j with flushAt := some lines }) } : State).laneWork l
      { j with flushAt := some lines } diffs).stop ≠ some .refused) :
    s.laneFlush l lines diffs =
      ({ s with lanes := s.lanes.setIfInBounds l (some { j with flushAt := some lines }) } : State).laneDone l diffs := by
  unfold State.laneFlush
  rw [h]
  refine (if_neg (by simp [hj]; omega)).trans ?_
  dsimp only
  split
  · contradiction
  · rfl

variable {j : LaneJob} (h : s.laneRunning l = some j)
include h

/-- A job whose work does not stop ends with `DONE`, and as flushed where it was (R109, R111). -/
theorem State.laneDone_ends (hr : (s.laneWork l j diffs).stop = none) : s.laneDone l diffs =
    if j.flushAt.isSome then
      (((s.laneWork l j diffs).st.laneEnd l 0).wr (Reg.CDC_L_STATUS_FLUSHED l) 1).inc (Reg.CDC_L_CNT_FLUSH_COUNT l)
    else (s.laneWork l j diffs).st.laneEnd l 0 := by
  simp only [State.laneDone, h, hr]

/-- A source line that cannot be read ends the job with `ERR` 2 (R112). -/
theorem State.laneDone_source (hr : (s.laneWork l j diffs).stop = some .source) :
    s.laneDone l diffs = (s.laneWork l j diffs).st.laneEnd l 2 := by
  simp only [State.laneDone, h, hr]

/-- A refused write ends the job with `ERR` 3 (R112). -/
theorem State.laneRefused_ends (hr : (s.laneWork l j diffs).stop = some .refused) :
    s.laneRefused l diffs = (s.laneWork l j diffs).st.laneEnd l 3 := by
  simp only [State.laneRefused, h, hr]

end

/-- A failed source read ends the lane's job with `ERR` 2, however far the job had come (R112). -/
theorem State.laneSourceError_ends {s : State} {l : Nat} {j : LaneJob} (h : s.lanes[l]? = some (some j)) (lines : Nat) (diffs : List Nat) :
    ∃ u : State, s.laneSourceError l lines diffs = u.laneEnd l 2 := by
  unfold State.laneSourceError
  simp only [h]
  split
  · exact ⟨_, rfl⟩
  · exact ⟨_, rfl⟩

/-- Settles O42: each clause is the lemma above of what its command starts, refuses or ends. -/
theorem pageStoreAndLanes : Obligations.PageStoreAndLanes := by
  intro s m e l v lines diffs on x frame loaded flush dirty back wrote stop cut go
  refine ⟨plainFlush_without_frames v, fun hwas hen hnvme hdirty hm => plainFlush_dirty v hm hwas hen hnvme hdirty,
    fun hon hst => ⟨fun hns => ?_, fun hns => ?_, fun hw => ?_⟩, fun h => ⟨?_, ?_⟩,
    fun hon hst hns => ⟨fun hev hfl hpins => ⟨?_, ?_⟩, fun hev hfl => ⟨?_, ?_⟩⟩, fun hev hfl => ?_,
    fun h => ?_, fun hd hc => ?_,
    fun hm hf => ⟨fun hb => ?_, fun hb hv => ?_, fun hb hv => ?_⟩,
    fun hm hg => ⟨fun hj => ?_, fun j hj hl hnone hw => ?_⟩,
    fun j hj => ⟨fun hr hnone => ?_, fun hr hsome => ?_, fun hr => ?_, fun hr => ?_⟩, fun j hj => ?_, fun c hc => ?_⟩
  · refine congrArg (fun t : State => ok t.retryIn) ?_
    rw [State.extentLoaded_done hon hst hns]
  · exact congrArg (fun t : State => ok t.retryIn) (State.extentLoaded_refused hns)
  · exact congrArg (fun t : State => ok t.retryIn) (State.extentLoaded_failed hon hst hw)
  · exact congrArg (fun t : State => ok t.retryIn) (State.extentLoaded_idle h true)
  · exact congrArg (fun t : State => ok t.retryIn) (State.extentLoaded_idle h false)
  · refine congrArg ok ((State.writtenBack_evicting hon hev hfl true).trans ?_)
    rw [State.writebackEnd_good hst hns, if_pos ⟨by simp [hev], hpins⟩]
    rfl
  · refine congrArg ok ((State.writtenBack_evicting hon hev hfl false).trans ?_)
    rw [State.writebackEnd_failed]
  · have hend : s.writebackEnd x true = (s.writebackStored x).extSet x 60 3 2 :=
      (State.writebackEnd_good hst hns).trans (if_neg (by simp [hev]))
    refine congrArg ok ((State.writtenBack_flushing hon hev hfl true ?_).trans (congrArg State.nvmeFlush hend))
    rw [hend, State.extSet_plain]
    exact State.writebackStored_flushing hfl
  · have hend : s.writebackEnd x false = (back.extSet x 60 3 3).raise Reg.STR_PLN_STATUS 1 := State.writebackEnd_failed
    refine congrArg ok ((State.writtenBack_flushing hon hev hfl false ?_).trans (congrArg State.nvmeFlush hend))
    rw [hend, State.raise_plain, State.extSet_plain]
    exact State.writebackOver_flushing hfl
  · exact congrArg ok (State.writtenBack_idle hev hfl true)
  · exact congrArg ok (if_pos h)
  · exact leads_of rfl ⟨rfl, State.evictAgain_none hd hc⟩
  · exact (laneGo_exec v hm hf).trans (congrArg ok (State.laneGo_busy (by rwa [State.plainWrite_laneCtrl_busy])))
  · exact leads_of (laneGo_exec v hm hf) (State.laneGo_starts ((State.plainWrite_laneCtrl_busy ..).trans hb) hv)
  · refine leads_of (laneGo_exec v hm hf) ?_
    rw [State.laneGo_refused ((State.plainWrite_laneCtrl_busy ..).trans hb) hv]
    obtain ⟨⟨hbusy, herr, -⟩, hnone⟩ := State.laneEnd_fields _ l (c := 4) (by decide)
    exact ⟨hbusy, herr, hnone⟩
  · exact (laneFlush_exec v lines diffs hm hg).trans
      (congrArg ok (State.laneFlush_idle ((State.plainWrite_laneCtrl_running ..).trans hj) lines))
  · exact (laneFlush_exec v lines diffs hm hg).trans (congrArg ok (State.laneFlush_cut hj hl hnone hw))
  · exact congrArg ok ((State.laneDone_ends hj hr).trans (if_neg (by simp [hnone])))
  · exact congrArg ok ((State.laneDone_ends hj hr).trans (if_pos hsome))
  · exact congrArg ok (State.laneDone_source hj hr)
  · exact congrArg ok (State.laneRefused_ends hj hr)
  · obtain ⟨u, hu⟩ := State.laneSourceError_ends hj lines diffs
    obtain ⟨⟨hbusy, herr, -⟩, hnone⟩ := State.laneEnd_fields u l (c := 2) (by decide)
    exact leads_of (congrArg ok hu) ⟨hbusy, herr, hnone⟩
  · exact (State.laneEnd_fields s l (by omega)).1

end Sys2Proof.Machine
end

section
/-! SUPPORT. The timing block of a station: what its updates and the sources that set leave of it, and which block takes a write to
`BTM_FACET_IDX` (R147, R151). -/

namespace Sys2Proof.Machine

@[simp] theorem State.raise_btm (s : State) (st i : Nat) : (s.raise st i).btm = s.btm := by
  rw [State.raise_eq]

theorem State.btmOf_congr {s t : State} (h : t.btm = s.btm) (k : Nat) : t.btmOf k = s.btmOf k := by
  unfold State.btmOf
  rw [h]

@[simp] theorem State.btmOf_updBtm (s : State) (k : Fin 8) (f : BtmX → BtmX) : (s.updBtm k f).btmOf k = f (s.btmOf k) := by
  simp [State.btmOf, State.updBtm]

theorem State.powerJob_congr {s t : State} (h : t.bmk = s.bmk) (k : Nat) : t.powerJob k = s.powerJob k := by
  unfold State.powerJob State.bmkOf
  rw [h]

/-- A one-bit field is on where it reads 1. -/
theorem State.on_iff_eq_one (s : State) (off lsb : Nat) : s.on ⟨off, lsb, 1⟩ = true ↔ s.rd ⟨off, lsb, 1⟩ = 1 := by
  rw [State.on_bit, State.rd_bit_eq_one]

theorem State.btmRuns_iff (s : State) (k : Nat) :
    s.btmRuns k = true ↔ k < s.stations ∧ s.on (Reg.BTM_CTRL_EN k) = true ∧ s.coreClock = true := by
  simp [State.btmRuns, and_assoc]

/-- `BTM_FACET_IDX` stands in the table, and is neither a status register nor an enable. -/
theorem facetIdx_register : ∀ k : Fin 8, regExists (Reg.BTM_FACET_IDX k) = true ∧
    (statusRegsOf (Reg.BTM_FACET_IDX k / 0x10000)).contains (Reg.BTM_FACET_IDX k) = false ∧
    (statusRegsOf (Reg.BTM_FACET_IDX k / 0x10000)).contains (Reg.BTM_FACET_IDX k - 4) = false := by decide

/-- No fuse removes the register of a station that is there (R3). -/
theorem State.fusedReg_facetIdx {s : State} {k : Fin 8} (h : k.val < s.stations) : s.fusedReg (Reg.BTM_FACET_IDX k) = false := by
  simp only [State.fusedReg, Reg.BTM_FACET_IDX, Bool.or_eq_false_iff, Bool.and_eq_false_iff, decide_eq_false_iff_not]
  omega

/-- A write to a register of a station's timing block takes effect by the rules of that block (R151, R155, R176). -/
theorem State.blockWrite_btm {s : State} {m off v : Nat} (hb : 13 ≤ off / 0x10000 ∧ off / 0x10000 ≤ 20)
    (hk : off / 0x10000 - 13 < s.stations) : s.blockWrite m off v = s.btmWrite (off / 0x10000 - 13) (off % 0x10000) v := by
  have he : s.blockWrite m off v = s.engineWrite off v := by
    unfold State.blockWrite
    obtain ⟨hlo, hhi⟩ := hb
    generalize off / 0x10000 = b at hlo hhi
    have hstation : b = 13 ∨ b = 14 ∨ b = 15 ∨ b = 16 ∨ b = 17 ∨ b = 18 ∨ b = 19 ∨ b = 20 := by omega
    obtain rfl | rfl | rfl | rfl | rfl | rfl | rfl | rfl := hstation <;> rfl
  rw [he]
  exact (if_pos hb).trans (if_pos hk)

theorem State.masterWrite_facetIdx {s : State} {m : Master} {k : Fin 8} (v : RegWord) (hk : k.val < s.stations)
    (h : s.mayWrite m (Reg.BTM_FACET_IDX k)) : s.masterWrite m (Reg.BTM_FACET_IDX k) v = s.btmWrite k 0x02C v.toNat := by
  obtain ⟨he, hs, hi⟩ := facetIdx_register k
  have hb : Reg.BTM_FACET_IDX k / 0x10000 = 13 + k := by simp only [Reg.BTM_FACET_IDX]; omega
  have ho : Reg.BTM_FACET_IDX k % 0x10000 = 0x02C := by simp only [Reg.BTM_FACET_IDX]; omega
  rw [State.masterWrite_eq h, State.ctrlWrite_block (State.fusedReg_facetIdx hk) he hs hi, State.blockWrite_btm (by omega) (by omega),
    hb, ho, Nat.add_sub_cancel_left]

/-- A write with `SET` asks for the number, which is assigned in DAWN and MORNING at once (R151, R167). -/
theorem State.btmWrite_facetIdx_set (s : State) (k : Nat) {v : Nat} (h : bitAt v 4 = true) : s.btmWrite k 0x02C v =
    ((s.plainWrite (Reg.BTM_FACET_IDX k) v).wr (Reg.BTM_FACET_IDX_IDX_PENDING k) 1).btmSoon k := if_pos h

end Sys2Proof.Machine
end

section
/-! SUPPORT. The start-of-scan gate (R148, R149): when its window opens, and what a SOS that is captured or missed leaves. -/

namespace Sys2Proof.Machine

section
variable {s : State} {k : Nat}

/-- The next window opens where no window is open, the station does not acquire, and its tick has come (R148). -/
theorem State.sosWindow_opens {p : Nat} (hr : s.btmRuns k = true) (ha : s.on (Reg.BTM_STATE_ACQUIRE k) = false)
    (ho : (s.btmOf k).open_ = none) (hp : s.predicted k = some p) (ht : p / 32 - (s.btmOf k).win.half ≤ s.meridian) :
    s.sosWindow k = (s.windowSettings k).updBtm k fun b => { b with open_ := some (p, p / 32 + b.win.half) } := by
  have hw : s.windowOpens k = some (p / 32 - (s.btmOf k).win.half) := by rw [State.windowOpens, hp]; rfl
  simp [State.sosWindow, hw, hp, hr, ha, ho, ht]

/-- No window opens in acquisition, in a window that is open, or ahead of the next one's tick (R148, R149). -/
theorem State.sosWindow_stays (h : ∀ p, s.predicted k = some p → s.on (Reg.BTM_STATE_ACQUIRE k) = false → (s.btmOf k).open_ = none →
    s.meridian < p / 32 - (s.btmOf k).win.half) : s.sosWindow k = s := by
  unfold State.sosWindow
  split
  · next t p ht hp =>
    rw [State.windowOpens, hp] at ht
    have hw : p / 32 - (s.btmOf k).win.half = t := Option.some.inj ht
    refine if_neg fun ⟨_, ha, ho, hle⟩ => ?_
    have hlt : s.meridian < t := hw ▸ h p hp (Bool.not_eq_true' _ ▸ ha) (Option.isNone_iff_eq_none.1 ho)
    omega
  · rfl

theorem State.sosWindow_acquiring (h : s.on (Reg.BTM_STATE_ACQUIRE k) = true) : s.sosWindow k = s :=
  State.sosWindow_stays fun _ _ ha _ => absurd (h.symm.trans ha) (by decide)

theorem State.sosWindow_open {w : Nat × Nat} (h : (s.btmOf k).open_ = some w) : s.sosWindow k = s :=
  State.sosWindow_stays fun _ _ _ ho => nomatch h.symm.trans ho

end

/-- `s` with a SOS of station `k` captured at `taps`: the run of captures grows, and the sync beam stays lit until `dark` (R148). -/
def State.sosLogged (s : State) (k taps dark : Nat) : State :=
  s.updBtm k fun b => { b with misses := 0, caps := (s.btmOf k).caps + 1, sosCap := taps, syncUntil := dark }

/-- `s` with a SOS captured at `taps`, where a station that acquires takes its window settings and ends acquisition (R149; log 74). -/
def State.sosTaken (s : State) (k taps : Nat) : State :=
  if s.rd (Reg.BTM_STATE_ACQUIRE k) = 1 then
    ((s.sosLogged k taps s.meridian).windowSettings k).wr (Reg.BTM_STATE_ACQUIRE k) 0
  else s.sosLogged k taps (s.meridian + 4)

section
variable {s : State} {k : Nat}

/-- A SOS that the gate takes begins the next facet; from the fourth in a row on `SOS_OK` sets first (R148, R149). -/
theorem State.sosCapture_taken (tap : Fin 32) (hw : s.sosWindow k = s) (hr : s.btmRuns k = true) (hb : s.btmBalls k = true)
    (h : s.rd (Reg.BTM_STATE_ACQUIRE k) = 1 ∨ (s.btmOf k).open_.any (fun w => decide (s.meridian ≤ w.2)) = true) :
    s.sosCapture k tap =
      let u := s.sosTaken k (s.meridian * 32 + tap)
      (if 4 ≤ (s.btmOf k).caps + 1 then (u.wr (Reg.BTM_STATE_SOS_OK k) 1).updStation k else u).beginFacet k
        (s.meridian * 32 + tap) true := by
  unfold State.sosCapture State.sosTaken
  rw [hw]
  simp only [State.on_iff_eq_one, Nat.mod_eq_of_lt tap.isLt]
  rw [if_pos ⟨hr, hb, h⟩]
  by_cases ha : s.rd (Reg.BTM_STATE_ACQUIRE k) = 1
  · simp only [if_pos ha, State.sosLogged]
  · simp only [if_neg ha, State.sosLogged]

/-- Outside its window a SOS changes nothing (log 4, 20). -/
theorem State.sosCapture_outside (tap : Nat) (hw : s.sosWindow k = s) (ha : s.rd (Reg.BTM_STATE_ACQUIRE k) = 0)
    (ho : (s.btmOf k).open_.any (fun w => decide (s.meridian ≤ w.2)) = false) : s.sosCapture k tap = s := by
  unfold State.sosCapture
  rw [hw]
  exact if_neg (by simp [State.on_of_eq_zero ha, ho])

variable {w : Nat × Nat}

theorem State.sosMiss_early (h : (s.btmOf k).open_ = some w) (hc : s.meridian ≤ w.2) : s.sosMiss k = s := by
  unfold State.sosMiss
  rw [h]
  exact if_neg fun ⟨_, hlt⟩ => absurd hlt (by omega)

end

/-- `s` with a missed SOS of station `k` noted and counted (R149). -/
def State.sosMissed (s : State) (k : Nat) : State :=
  (((s.updBtm k fun x => { x with misses := (s.btmOf k).misses + 1, caps := 0 }).raise (Reg.BTM_STATUS k) 1).inc
    (Reg.BTM_CNT_SOS_MISS_COUNT k)).count 29 k 1

theorem State.sosMissed_cur (s : State) (k : Fin 8) : ((s.sosMissed k).btmOf k).cur = (s.btmOf k).cur := by
  have hbtm : (s.sosMissed k).btm = (s.updBtm k fun x => { x with misses := (s.btmOf k).misses + 1, caps := 0 }).btm := by
    simp [State.sosMissed]
  rw [State.btmOf_congr hbtm, State.btmOf_updBtm]

/-- A window that closes without an edge begins the next facet at the SOS predicted; after `SOS_MISS_MAX` misses in a row the station
acquires again (R149). -/
theorem State.sosMiss_closed {s : State} {k : Fin 8} {p close : Nat} (hr : s.btmRuns k = true)
    (h : (s.btmOf k).open_ = some (p, close)) (hc : close < s.meridian) :
    s.sosMiss k = (if (s.btmOf k).cur.missMax ≤ (s.btmOf k).misses + 1 then ((s.sosMissed k).acquire k).updStation k
      else s.sosMissed k).beginFacet k p false := by
  unfold State.sosMiss
  rw [h]
  refine (if_pos ⟨hr, hc⟩).trans ?_
  rw [← State.sosMissed_cur s k]
  rfl

theorem State.nextFacet_set {s : State} {k i : Nat} (h : (s.btmOf k).idxArm = some i) (hi : i < (s.btmOf k).app.facets) :
    s.nextFacet k = i := by
  unfold State.nextFacet
  simp only [h, if_pos hi]

theorem State.nextFacet_advances {s : State} {k : Nat} (h : (s.btmOf k).idxArm = none) (hn : (s.btmOf k).numbered = true) :
    s.nextFacet k = (s.rd (Reg.BTM_STATE_FACET k) + 1) % (s.btmOf k).app.facets := by
  unfold State.nextFacet
  simp only [h, if_pos hn]

end Sys2Proof.Machine
end

section
/-! SUPPORT. The end of a line, the end-of-scan gate and the station DLL (R150, R152). -/

namespace Sys2Proof.Machine

section
variable {s : State} {k : Nat}

theorem State.lineEnd_none (h : (s.btmOf k).imageEnd = none) : s.lineEnd k = s := by
  unfold State.lineEnd
  rw [h]

theorem State.lineEnd_early {t : Nat} (h : (s.btmOf k).imageEnd = some t) (ht : s.meridian < t) : s.lineEnd k = s := by
  unfold State.lineEnd
  rw [h]
  exact if_neg fun ⟨_, hle⟩ => absurd hle (by omega)

/-- The end of dot 51,023 ends the line and opens the EOS window (R150). -/
theorem State.lineEnd_due {t : Nat} (hr : s.btmRuns k = true) (h : (s.btmOf k).imageEnd = some t) (ht : t ≤ s.meridian) :
    s.lineEnd k = ((((s.facetDots k).powerDue k).updBtm k fun x =>
      { x with imageEnd := none, eosUntil := some (t + x.win.eos) })).lineFinish k := by
  unfold State.lineEnd
  rw [h]
  exact if_pos ⟨hr, ht⟩

/-- A page exposure goes on to its next band, and ends after the last (R125, R171). -/
theorem State.lineFinish_exposing {e : Exposure} (h : (s.btmOf k).exp = some e) (he : e.begun = true) :
    s.lineFinish k =
      let u := (s.releaseHalf k e.band e.tag e.seq).updBtm k fun x => { x with exp := some { e with band := e.band + 1 } }
      if u.pgBands e.page ≤ e.band + 1 then u.endExposure k else u := by
  unfold State.lineFinish
  rw [h]
  exact if_pos he

theorem State.lineFinish_no_exposure (h : (s.btmOf k).exp = none) : s.lineFinish k = s.calFacet k := by
  unfold State.lineFinish
  rw [h]

/-- A calibration exposure ends after its last facet (R172). -/
theorem State.calFacet_lit {n : Nat} (h : (s.btmOf k).cal = some n) :
    s.calFacet k =
      let u := s.updBtm k fun x => { x with cal := some (n + 1) }
      let most := s.rd (Reg.BTM_CAL_CFG_FACETS k)
      if most ≠ 0 ∧ most ≤ n + 1 then u.endCal k else u := by
  unfold State.calFacet
  rw [h]
  rfl

theorem State.calFacet_none (h : (s.btmOf k).cal = none) : s.calFacet k = s := by
  unfold State.calFacet
  rw [h]

theorem State.eosCapture_none (tap : Nat) (hi : (s.btmOf k).imageEnd = none) (he : (s.btmOf k).eosUntil = none) :
    s.eosCapture k tap = s := by
  unfold State.eosCapture
  rw [State.lineEnd_none hi]
  simp only [he]

theorem State.eosMiss_none (he : (s.btmOf k).eosUntil = none) : s.eosMiss k = s := by
  unfold State.eosMiss
  rw [he]

theorem State.eosMiss_early {t : Nat} (he : (s.btmOf k).eosUntil = some t) (ht : s.meridian ≤ t) : s.eosMiss k = s := by
  unfold State.eosMiss
  rw [he]
  exact if_neg fun ⟨_, hlt⟩ => absurd hlt (by omega)

/-- A window that ends without an edge is counted, and a source 0 measurement skips the facet (R150, R190). -/
theorem State.eosMiss_closed {t : Nat} (hr : s.btmRuns k = true) (he : (s.btmOf k).eosUntil = some t) (ht : t < s.meridian) :
    s.eosMiss k =
      let u := (s.updBtm k fun x => { x with eosUntil := none }).inc (Reg.BTM_CNT_EOS_MISS_COUNT k)
      if (s.powerJob k).any (fun j => !j.cal) then u.powerSkip k else u := by
  unfold State.eosMiss
  rw [he]
  refine (if_pos ⟨hr, ht⟩).trans ?_
  rw [← State.powerJob_congr (s := s) (t := (s.updBtm k fun x => { x with eosUntil := none }).inc (Reg.BTM_CNT_EOS_MISS_COUNT k)) rfl k]

/-- No window of a measurement of a calibration exposure is too late (R190). -/
theorem State.powerLate_cal {j : PowerJob} (h : j.cal = true) : s.powerLate k j = false := by
  unfold State.powerLate
  split
  · rw [h]
    rfl
  · rfl

end

/-- `s` with the scan time `taps` of station `k`, whose EOS is captured at this tick (R150). -/
def State.scanLogged (s : State) (k taps : Nat) : State :=
  ((s.updBtm k fun b => { b with eosUntil := none, eosAt := some s.meridian }).wrw (Reg.BTM_SCAN_LAST k) taps).wrw
    (Reg.BTM_SCAN k (s.rd (Reg.BTM_STATE_FACET k))) taps

/-- An EOS in its window logs the scan time; without a source 0 measurement that is all (R150, R190). -/
theorem State.eosCapture_logged {s : State} {k t sos : Nat} (tap : Fin 32) (hr : s.btmRuns k = true) (hb : s.btmBalls k = true)
    (he : (s.btmOf k).eosUntil = some t) (hs : (s.btmOf k).sos = some sos) (hi : (s.btmOf k).imageEnd = none) (ht : s.meridian ≤ t)
    (hj : ∀ j, s.powerJob k = some j → j.cal = true) :
    s.eosCapture k tap = s.scanLogged k (s.meridian * 32 + tap - sos) := by
  have hlate : ∀ u : State, u.bmk = s.bmk → (u.powerJob k).any (u.powerLate k) = false := by
    intro u hu
    rw [State.powerJob_congr hu, Option.any_eq_false]
    exact fun j h => by simp [State.powerLate_cal (hj j h)]
  unfold State.eosCapture
  rw [State.lineEnd_none hi]
  simp only [he, hs]
  rw [if_pos ⟨hr, hb, ht⟩, Nat.mod_eq_of_lt tap.isLt]
  exact if_neg (Bool.eq_false_iff.1 (hlate (s.scanLogged k (s.meridian * 32 + tap - sos)) rfl))

/-- Both scan registers show the scan time, and the EOS window is over (R150). -/
theorem State.scanLogged_fields (s : State) (k : Fin 8) {taps : Nat} (h : taps < 2 ^ 32) :
    let u := s.scanLogged k taps
    u.rdw (Reg.BTM_SCAN_LAST k) = taps ∧ u.rdw (Reg.BTM_SCAN k (s.rd (Reg.BTM_STATE_FACET k))) = taps ∧
      (u.btmOf k).eosUntil = none ∧ (u.btmOf k).eosAt = some s.meridian := by
  intro u
  have hbtm : u.btmOf k = { s.btmOf k with eosUntil := none, eosAt := some s.meridian } :=
    (State.btmOf_congr (s := s.updBtm k fun b => { b with eosUntil := none, eosAt := some s.meridian }) rfl k).trans
      (State.btmOf_updBtm ..)
  refine ⟨?_, ?_, by rw [hbtm], by rw [hbtm]⟩
  · simp only [u, State.scanLogged, State.rdw_wrw, Nat.mod_eq_of_lt h, if_true, ite_self]
  · simp only [u, State.scanLogged, State.rdw_wrw, Nat.mod_eq_of_lt h, if_true]

section
variable {s : State} {k : Nat}

/-- A DLL that locks ends the station's reset (R96, R152). -/
theorem State.dllLock_locks (hr : s.btmRuns k = true) (h : s.rd (Reg.BTM_STATE_DLL_LOCK k) = 0) : s.dllLock k =
    ((s.updBtm k fun b => { b with inReset := false }).wr (Reg.BTM_STATE_DLL_LOCK k) 1).updStation k := by
  obtain ⟨hk, -, hc⟩ := (State.btmRuns_iff s k).1 hr
  exact if_pos ⟨hk, hc, by rw [State.on_of_eq_zero h]; rfl⟩

theorem State.dllLock_locked (h : s.rd (Reg.BTM_STATE_DLL_LOCK k) = 1) : s.dllLock k = s :=
  if_neg fun hc => by simp [State.on_of_eq_one h] at hc

theorem State.dllUnlock_locked (h : s.rd (Reg.BTM_STATE_DLL_LOCK k) = 1) : s.dllUnlock k =
    (((s.wr (Reg.BTM_STATE_DLL_LOCK k) 0).raise (Reg.BTM_STATUS k) 7).inc (Reg.BTM_CNT_DLL_UNLOCK_COUNT k)).updStation k :=
  if_pos (State.on_of_eq_one h)

theorem State.dllUnlock_unlocked (h : s.rd (Reg.BTM_STATE_DLL_LOCK k) = 0) : s.dllUnlock k = s :=
  if_neg (by rw [State.on_of_eq_zero h]; decide)

end

/-- Settles O45: each clause is the lemma above of what its gate, line end or DLL does in the case it names. -/
theorem scanTiming : Obligations.ScanTiming := by
  intro s m k tap v hr b at_ acq captured idle
  refine ⟨fun p hp ha ho ht => ?_, fun hb h => ?_, fun ha h => ?_, fun p c ho hc => ⟨fun hn => ?_, fun hn => ?_⟩, fun p c ho hc => ?_,
    ⟨fun i hi hlt => ?_, fun hi hn => ?_⟩,
    fun t ht => ⟨fun hlt => ?_, fun hle => ?_, fun e he hbegun => ?_, fun n he hn => ?_, fun he hn => ?_⟩,
    fun t sos he hs hi => ⟨fun hb ht hle hlt hj => ?_, fun ht => ?_, fun ht => ?_⟩, fun he hi => ⟨?_, ?_⟩,
    fun h => ?_, fun h => ?_, fun h => ?_, fun h => ?_, fun hm => ?_⟩
  · have hpred : s.predicted k = some (p + b.win.period * 32) := by rw [State.predicted, hp]; rfl
    have hopen := State.sosWindow_opens hr (State.on_of_eq_zero ha) ho hpred ht
    refine leads_of rfl ⟨rfl, ?_, ?_, ?_⟩
    · rw [hopen, State.btmOf_updBtm, State.windowSettings, State.btmOf_updBtm]
    · rw [hopen, State.btmOf_updBtm, State.windowSettings, State.btmOf_updBtm]
    · rw [hopen]
      rfl
  · obtain ⟨hwin, hgate⟩ : s.sosWindow k = s ∧
        (s.rd (Reg.BTM_STATE_ACQUIRE k) = 1 ∨ (s.btmOf k).open_.any (fun w => decide (s.meridian ≤ w.2)) = true) := by
      obtain ha | ⟨-, p, c, ho, hc⟩ := h
      · exact ⟨State.sosWindow_acquiring (State.on_of_eq_one ha), .inl ha⟩
      · exact ⟨State.sosWindow_open ho, .inr (by rw [ho]; exact decide_eq_true hc)⟩
    have htake := State.sosCapture_taken tap hwin hr hb hgate
    refine ⟨fun hcaps => congrArg ok ?_, fun hcaps => congrArg ok ?_⟩
    · exact htake.trans (congrArg (fun t : State => t.beginFacet k at_ true) (if_neg (Nat.not_le.2 (Nat.succ_lt_succ hcaps))))
    · exact htake.trans (congrArg (fun t : State => t.beginFacet k at_ true) (if_pos (Nat.succ_le_succ hcaps)))
  · refine congrArg ok ?_
    obtain ⟨p, c, ho, hc⟩ | ⟨ho, hearly⟩ := h
    · exact State.sosCapture_outside tap (State.sosWindow_open ho) ha (by rw [ho]; exact decide_eq_false (by omega))
    · refine State.sosCapture_outside tap (State.sosWindow_stays fun p hp _ _ => ?_) ha (by rw [ho]; rfl)
      obtain ⟨q, hq, rfl⟩ := Option.map_eq_some_iff.1 hp
      exact hearly q hq
  · refine congrArg ok ((State.sosMiss_closed hr ho hc).trans ?_)
    exact congrArg (fun t : State => t.beginFacet k p false) (if_neg (Nat.not_le.2 hn))
  · refine congrArg ok ((State.sosMiss_closed hr ho hc).trans ?_)
    exact congrArg (fun t : State => t.beginFacet k p false) (if_pos hn)
  · exact congrArg ok (State.sosMiss_early ho hc)
  · exact State.nextFacet_set hi hlt
  · exact State.nextFacet_advances hi hn
  · exact congrArg ok (State.lineEnd_early ht hlt)
  · exact congrArg ok (State.lineEnd_due hr ht hle)
  · exact State.lineFinish_exposing he hbegun
  · exact (State.lineFinish_no_exposure he).trans (State.calFacet_lit hn)
  · exact (State.lineFinish_no_exposure he).trans (State.calFacet_none hn)
  · exact leads_of (congrArg ok (State.eosCapture_logged tap hr hb he hs hi ht hj)) (State.scanLogged_fields s k hlt)
  · exact congrArg ok (State.eosMiss_closed hr he ht)
  · exact congrArg ok (State.eosMiss_early he ht)
  · exact congrArg ok (State.eosCapture_none tap hi he)
  · exact congrArg ok (State.eosMiss_none he)
  · exact congrArg ok (State.dllLock_locks hr h)
  · exact congrArg ok (State.dllLock_locked h)
  · exact congrArg ok (State.dllUnlock_unlocked h)
  · exact congrArg ok (State.dllUnlock_locked h)
  · obtain ⟨hk, -⟩ := (State.btmRuns_iff s k).1 hr
    refine congrArg ok ((State.masterWrite_facetIdx _ hk hm).trans (State.btmWrite_facetIdx_set s k ?_))
    exact bitAt_withBit v 4 true 4 (by decide)

end Sys2Proof.Machine
end
